-- ==== Sys2Proof/Word.lean ====
section
/-! DEFINITION. Words, and the operand types that commands carry (00_scope.md Conventions). -/

namespace Sys2Proof

/-- One byte. -/
abbrev Byte := BitVec 8
/-- A 64-byte line; payload byte b is bits [8b+7:8b] (R54). -/
abbrev Line := BitVec 512
/-- A 40-bit line address (R1). -/
abbrev Addr := BitVec 40
/-- A sidecar or tag-line trailer of 64 bits (R55, R78). -/
abbrev Side := BitVec 64
/-- A 128-bit value as AES and GHASH take it, first byte in bits [127:120] (R9). -/
abbrev Block := BitVec 128
/-- 256 bits of key material, first byte in bits [255:248]. -/
abbrev Key := BitVec 256

/-- Who sends a request item: link port p, or the debug/DMA port with master n (R184; 5 to 7 are refused). -/
inductive Src where
  | link (p : Fin 128)
  | master (n : Fin 8)
deriving DecidableEq, Repr

/-- The fields of a request header besides its flags (Table 08.2). -/
structure Hdr where
  sid : BitVec 12
  tag : BitVec 16
  kidx : BitVec 15
  addr : Addr
  /-- a reserved opcode that byte 0 carries in place of the command's own (R170, R184) -/
  odd : Option Byte := none
deriving DecidableEq, Repr

/-- Physical damage that a step meets; each field says what the hardware finds, nothing by default.
The manual leaves the causes to physics (R69, R86, R103, R141, R198, R199, R293, R296). -/
structure Faults where
  /-- pointer copies of the queue that is read differ in this field (R199: 0 head to 4 OWNER) -/
  ptr : Option (Fin 5) := none
  /-- queues whose pointer copies have come to differ in this field, found at their next enqueue or dequeue (R199) -/
  upset : List (Nat × Fin 5) := []
  /-- (cell of what is read from the pool, in slot order; error XORed onto its four native words) (R187, R198) -/
  cells : List (Nat × BitVec 144) := []
  /-- the Jack entry that is looked up has a parity error (R103) -/
  jackPe : Bool := false
  /-- the tag-cache line that is used has an uncorrectable error (R86) -/
  tagUe : Bool := false
  /-- a tag-cache word was corrected (R86) -/
  tagCe : Bool := false
  /-- the slot's material has an uncorrectable error (R141) -/
  keyUe : Bool := false
  /-- a key-store word was corrected (R141) -/
  keyCe : Bool := false
  /-- (pipe, error XORed onto its block) -/
  pipes : List (Nat × Block) := []
  /-- error XORed onto the nine lane-mixer words, word 0 in bits [63:0] -/
  mixer : BitVec 576 := 0
  /-- (macro, row, uncorrectable) of SRAM rows read with an error (R293) -/
  rows : List (Nat × Nat × Bool) := []
deriving DecidableEq, Repr

/-- A target that BIST found failing (Table 14.3). -/
inductive BistFail where
  | row (macroNo row : Nat)
  /-- a spare row of a macro -/
  | spare (macroNo k : Nat)
  | pipe (s : Fin 17) (p : Fin 12)
  | ghash (s : Fin 17)
  | mixer (s : Fin 17)
  | lfx (p : Fin 128)
deriving DecidableEq, Repr

/-- What the fuse load reads (R289, R344); the image's format is not given. -/
structure FuseImage where
  ok : Bool
  engineId : BitVec 64
  /-- (macro, row, spare row) repaired by fuse -/
  rows : List (Nat × Nat × Nat)
  /-- (macro, column) repaired by fuse with a spare column -/
  cols : List (Nat × Nat) := []
deriving DecidableEq, Repr

/-- PARAM_OFFER body (Table 11.2); `resv` is true when a reserved field is not zero. -/
structure Offer where
  versions : BitVec 16
  flags : BitVec 8
  classes : BitVec 8
  depth : BitVec 8
  maxTags : BitVec 16
  tAck : BitVec 16
  hbUs : BitVec 16
  partnerId : BitVec 64
  negId : BitVec 32
  resv : Bool
deriving DecidableEq, Repr

/-- The fields that PARAM_CONFIRM repeats (R232: bytes 9 to 19 and 28 to 31). -/
structure Confirm where
  version : BitVec 8
  flags : BitVec 8
  classes : BitVec 8
  depth : BitVec 8
  maxTags : BitVec 16
  tAck : BitVec 16
  hbUs : BitVec 16
  negId : BitVec 32
deriving DecidableEq, Repr

/-- One key-port command (Table 06.6); `framed` is false when kp_cmd_last came out of place (R368). -/
structure KpCmd where
  /-- an OPC outside Table 06.6 that byte 0 carries in place of the command's own -/
  odd : Option Byte := none
  seq : Byte
  kidx : BitVec 16
  msel : Byte
  resv : BitVec 24
  /-- payload bytes 8 to 63, byte 8 in bits [447:440] -/
  payload : BitVec 448
  framed : Bool
deriving DecidableEq, Repr

/-- The header fields of a management message (Table 15.3) with its MCTP addressing and CMAC. -/
structure MsgHdr where
  eid : Byte
  /-- first byte of the MCTP message: integrity-check bit and message type (R315) -/
  mtype : Byte := 0x7F#8
  /-- an OP outside Table 15.3 that byte 1 carries in place of the command's own -/
  odd : Option Byte := none
  enterprise : BitVec 32
  sver : Byte
  mki : Byte
  flags : Byte
  seq : BitVec 32
  session : BitVec 32
  cfgGen : BitVec 32
  cmac : Block
deriving DecidableEq, Repr

/-- One local-window write or read (R311): word address bits [25:2], byte enables, class bit lw_dbg. -/
structure WinAcc where
  addr : BitVec 24
  be : BitVec 4
  dbg : Bool
deriving DecidableEq, Repr

/-- Direction of a media port. -/
inductive Dir where
  | w
  | r
deriving DecidableEq, Repr

end Sys2Proof
end

