-- ==== Sys2Proof/Syntax.lean ====
section
/-! DEFINITION. The commands: one constructor for each row of spec/opcode_table.json. -/

namespace Sys2Proof

/-- Every happening of the block that the table lists, with what the outside world contributes to it. A control word
left out is a word of zeros, and faults left out are none. -/
inductive Instr where
  -- reset and start-up
  | reset (por : Bool)
  | resetRelease (por : Bool) (bistShort : Bool)
  | fuseLoadDone (img : FuseImage)
  | bistDone (fails : List BistFail)
  | recoveryDone
  | startupImageApply
  -- frame and commit
  | frameStrobe
  | frameEnd
  | commitSample
  | commitDeferLimit
  | commitApply
  | commitPrepared
  | copyBackDone (unitNo : Nat)
  | digestRefreshDone (err : BitVec 256)
  | stageBreakable
  -- power warning and zeroization
  | pwrWarnQualify
  | drainComplete
  | drainLate
  | pwrWarnReturn
  | resume
  | zeroizeQualify
  | zeroizeDone
  | zeroizeReturn
  | holdoffEnd
  | debugLockBlown
  -- links
  | rateChange (p : Fin 128) (rate : BitVec 2)
  | lockGained (p : Fin 128)
  | lockLost (p : Fin 128)
  | tLosExpiry (p : Fin 128)
  | rxDataFlit (p : Fin 128) (errs : List Nat) (lcw : BitVec 64) (slots : BitVec 1920)
  | rxAckOnly (p : Fin 128) (errs : List Nat) (lcw : BitVec 64)
  | rxIdle (p : Fin 128) (errs : List Nat) (lcw : BitVec 64)
  | rxHeartbeat (p : Fin 128) (errs : List Nat) (lcw : BitVec 64) (digest64 : BitVec 64) (cfgGen : BitVec 32)
  | rxParamOffer (p : Fin 128) (errs : List Nat) (o : Offer) (lcw : BitVec 64 := 0)
  | rxParamConfirm (p : Fin 128) (errs : List Nat) (c : Confirm) (lcw : BitVec 64 := 0)
  | rxDown (p : Fin 128) (errs : List Nat) (lcw : BitVec 64 := 0)
  | rxBadFlit (p : Fin 128) (errs : List Nat) (flit : BitVec 2048)
  | flitTransmit (p : Fin 128) (parityBad : Bool) (f : Faults)
  | ackTimer (p : Fin 128)
  | replayTimer (p : Fin 128) (parityBad : Bool) (f : Faults := {})
  | heartbeatDue (p : Fin 128)
  | hbLost (p : Fin 128)
  | tNegExpiry (p : Fin 128)
  | resyncSend (p : Fin 128)
  | resyncDone (p : Fin 128) (dropCount : BitVec 16)
  | creditReturn (p : Fin 128) (entries : List (BitVec 16 × BitVec 16))
  | grantHoldExpiry (p : Fin 128)
  -- requests
  | readLine (src : Src) (h : Hdr)
  | writeLine (src : Src) (h : Hdr) (psn : Bool) (data : Line)
  | writePartial (src : Src) (h : Hdr) (psn : Bool) (mask : BitVec 64) (data : Line)
  | readRaw (src : Src) (h : Hdr)
  | writeRaw (src : Src) (h : Hdr) (side : Side) (data : Line)
  | readTaglineRaw (src : Src) (h : Hdr)
  | writeTaglineRaw (src : Src) (h : Hdr) (trailer : Side) (data : Line)
  | fence (src : Src) (h : Hdr)
  | fenceComplete (src : Src) (sid : BitVec 12)
  -- slots
  | fgReadGrant (m : Fin 16) (f : Faults)
  | fgWriteGrant (m : Fin 16) (f : Faults)
  | partialReadGrant (m : Fin 16) (f : Faults)
  | partialWriteGrant (m : Fin 16) (f : Faults)
  | taglineFetch (m : Fin 16) (f : Faults)
  | tagWriteback (m : Fin 16) (f : Faults)
  | sidecarProbe (m : Fin 16)
  | lookaheadProbe (m : Fin 16)
  | prefillProbe (m : Fin 16)
  | rekeyTake (c : Fin 64)
  | rekeyStep (m : Fin 16) (f : Faults := {})
  | rekeyStepWrite (m : Fin 16) (f : Faults)
  | rekeyPassStart (c : Fin 64)
  | rekeyComplete (c : Fin 64)
  | formatComplete (c : Fin 64)
  | purgeComplete (c : Fin 64)
  | vote (sl : Fin 17) (dir : Dir) (f : Faults)
  | schkRecompute (sl : Fin 17) (f : Faults)
  | rowRepair (m : Fin 16)
  | flushPersist (m : Fin 16)
  -- media port
  | mediaHandshake (m : Fin 16) (dir : Dir) (opId : BitVec 12)
  | transferError (m : Fin 16)
  | accepted (m : Fin 16)
  | persisted (m : Fin 16) (opId : BitVec 12)
  | lineArrival (m : Fin 16) (opId : BitVec 11) (stat : BitVec 2) (data : BitVec 576) (wpar : BitVec 16) (f : Faults)
  | sidecarArrival (m : Fin 16) (opId : BitVec 11) (stat : BitVec 2) (data : BitVec 576) (wpar : BitVec 16) (f : Faults)
  | taglineArrival (m : Fin 16) (opId : BitVec 11) (stat : BitVec 2) (data : BitVec 576) (wpar : BitVec 16)
  | readTimeout (m : Fin 16) (opId : BitVec 11)
  | persistTimeout (m : Fin 16) (opId : BitVec 12)
  | mpStall (m : Fin 16) (dir : Dir) (cycles : BitVec 32)
  -- queue pool, NV store, recorder
  | poolSweepPass (ptr : List (Nat × Fin 5)) (freed held : Nat) (hdr : List (Nat × BitVec 144))
  | nvPageDone (err : Bool)
  | nvReadDone (err : Bool) (page : BitVec 512)
  | recorderAccept
  | eventMessage (k : Fin 8)
  | recorderClearAck
  | recOnlineChange (online : Bool)
  -- management messages
  | read (h : MsgHdr) (body : List Byte)
  | write (h : MsgHdr) (body : List Byte)
  | readRow (h : MsgHdr) (body : List Byte)
  | writeRow (h : MsgHdr) (body : List Byte)
  | commit (h : MsgHdr) (body : List Byte)
  | abort (h : MsgHdr) (body : List Byte)
  | subscribe (h : MsgHdr) (body : List Byte)
  -- key port
  | loadKek (k : KpCmd)
  | loadKey (k : KpCmd)
  | loadMgmtKey (k : KpCmd)
  | eraseSlot (k : KpCmd)
  | queryKcv (k : KpCmd)
  -- local window
  | windowWrite (a : WinAcc) (value : BitVec 32)
  | wideValueRead (a : WinAcc)
  | rwsWrite (a : WinAcc) (value : BitVec 32)
  | commitReq (dbg : Bool) (target : BitVec 64)
  | abortReq (dbg : Bool) (value : Bool)
  | activate (dbg : Bool) (kidx : BitVec 15)
  | discard (dbg : Bool) (kidx : BitVec 15)
  | retire (dbg : Bool) (kidx : BitVec 15)
  | rekeyReq (dbg : Bool) (kidx : BitVec 15) (value : Byte)
  | tagCacheFlush (dbg : Bool) (value : Bool)
  | jackPrefill (dbg : Bool) (value : Bool)
  | jackInvalidate (dbg : Bool) (value : Bool)
  | linkReset (dbg : Bool) (p : Fin 128) (value : Bool)
  | mpFlush (dbg : Bool) (m : Fin 16) (value : Bool)
  | masterReset (dbg : Bool) (value : Byte)
  | recorderClear (h : MsgHdr) (value : Bool)
  | alertAck (dbg : Bool) (value : Byte)
  | iqFlush (dbg : Bool) (m : Fin 16) (value : Byte)
  -- happenings on pins and lanes
  | rxReservedType (p : Fin 128) (errs : List Nat) (lcw : BitVec 64)
  | zeroizeShortPulse
  | pwrWarnShortPulse (samples : BitVec 32)
deriving DecidableEq, Repr

end Sys2Proof
end

