-- ==== Sys2Proof/Config.lean ====
section
/-! DEFINITION. The values that the manual leaves open: constants without a body, applied to the model's counter
`State.free` or to the operands, so that nothing can be proved about which value they take. -/

namespace Sys2Proof.Config

/-- The way that pseudo-LRU replacement takes in Jack (R101 gives no algorithm). -/
opaque jackVictim : Nat → Nat
/-- eng_clk as measured over a superframe, in kHz (R48: ENG_CLK_KHZ). -/
opaque engClkKhz : Nat → BitVec 32
/-- The duration of a recovery in microseconds (R287: RECOVERY_US). -/
opaque recoveryUs : Nat → BitVec 32
/-- A byte that an NV page commit reported as failed leaves behind (R369 gives none). -/
opaque nvByte : Nat → Nat → BitVec 8
/-- What a CMD object reads as whose Effect column states no busy or result state (Table 15.2). -/
opaque cmdRead : Nat → BitVec 8
/-- Whether a row of the macros of the stream, principal and extent tables holds part of a table row, by SRAM row
number, index and table row (Table 14.4; the manual gives no layout). -/
opaque tableRowIn : Nat → Nat → Nat → Bool
/-- Whether a row of the events and miscellany macros holds a backlog place (Table 14.4; the manual gives no layout). -/
opaque backlogRow : Nat → Bool

end Sys2Proof.Config
end

