-- ==== Sys2Proof/Machine/Aes.lean ====
section
/-! DEFINITION. AES-256 of FIPS 197 (Table 00.4), forward and inverse, on 128-bit values whose first byte is
bits [127:120] (R9). PRESUMED from the standard that R5 names (log 8). -/

namespace Sys2Proof.Machine

/-- The bytes of a block, first byte first (R9). -/
def blockBytes (b : Block) : List Byte :=
  (List.range 16).map (fun i => b.extractLsb' (8 * (15 - i)) 8)

/-- A block from its bytes, first byte first (R9). -/
def blockOfBytes (l : List Byte) : Block :=
  l.foldl (fun (acc : Block) b => (acc <<< 8) ||| b.setWidth 128) 0

/-- The bytes of a key, first byte in bits [255:248]. -/
def keyBytes (k : Key) : List Byte :=
  (List.range 32).map (fun i => k.extractLsb' (8 * (31 - i)) 8)

/-- A key from 32 bytes, first byte in bits [255:248]. -/
def keyOfBytes (l : List Byte) : Key :=
  l.foldl (fun (acc : Key) b => (acc <<< 8) ||| b.setWidth 256) 0

/-- The S-box of FIPS 197, 64 entries a piece, entry i of a piece in bits [8i+7:8i]. -/
def sboxPiece (q : Nat) : Nat :=
  match q with
  | 0 => 0x75b227ebe28012079a059618c323c7041531d871f1e5a534ccf73f362693fdb7c072a49cafa2d4adf04759fa7dc982ca76abd7fe2b670130c56f6bf27b777c63
  | 1 => 0xd2f3ff1021dab6bcf5389d928f40a351a89f3c507f02f94585334d43fbaaefd0cf584c4a39becb6a5bb1fc20ed00d153842fe329b3d63b52a05a6e1b1a2c8309
  | 2 => 0x08ae7a65eaf4566ca94ed58d6d37c8e779e4959162acd3c25c2406490a3a32e0db0b5ede14b8ee4688902a22dc4f816073195d643d7ea7c41744975fec130ccd
  | _ => 0x16bb54b00f2d99416842e6bf0d89a18cdf2855cee9871e9b948ed9691198f8e19e1dc186b95735610ef6034866b53e708a8bbd4b1f74dde8c6b4a61c2e2578ba

/-- The inverse S-box of FIPS 197, 64 entries a piece, entry i of a piece in bits [8i+7:8i]. -/
def invSboxPiece (q : Nat) : Nat :=
  match q with
  | 0 => 0x25d18b6d49a25b76b224d92866a12e084ec3fa420b954cee3d23c2a632947b54cbe9dec444438e3487ff2f9b8239e37cfbd7f3819ea340bf38a53630d56a0952
  | 1 => 0x6b8a130103bdafc1020f3fca8f1e2cd00645b3b80558e4f70ad3bc8c00abd890849d8da75746155edab9edfd5048706c92b6655dcc5ca4d41698688664f6f872
  | 2 => 0xf45acd78fec0db9a2079d2c64b3e56fc1bbe18aa0e62b76f89c5291d711af1476edf751ce837f9e28535ade72274ac9673e6b4f0cecff297eadc674f4111913a
  | _ => 0x7d0c2155631469e126d677ba7e042b17619953833cbbebc8b0f52aae4d3be0a0ef9cc9939f7ae52d0d4ab519a97f51605fec8027591012b131c7078833a8dd1f

/-- SubBytes of one byte. -/
def sbox (x : Byte) : Byte :=
  BitVec.ofNat 8 ((sboxPiece (x.toNat / 64)) >>> (8 * (x.toNat % 64)))

/-- InvSubBytes of one byte. -/
def invSbox (x : Byte) : Byte :=
  BitVec.ofNat 8 ((invSboxPiece (x.toNat / 64)) >>> (8 * (x.toNat % 64)))

/-- Multiplication by x in GF(2^8) modulo 11Bh. -/
def xtime (b : Byte) : Byte :=
  (b <<< 1) ^^^ (if b.msb then 0x1B#8 else 0#8)

/-- Multiplication in GF(2^8) by one of the constants of MixColumns and its inverse. -/
def gmul (c : Nat) (b : Byte) : Byte :=
  let b2 := xtime b
  let b4 := xtime b2
  let b8 := xtime b4
  (if c.testBit 0 then b else 0#8) ^^^ (if c.testBit 1 then b2 else 0#8) ^^^
    (if c.testBit 2 then b4 else 0#8) ^^^ (if c.testBit 3 then b8 else 0#8)

/-- The byte at position i of a byte list, zero past its end. -/
def byteAt (l : List Byte) (i : Nat) : Byte := l.getD i 0#8

/-- Bytewise exclusive or. -/
def xorBytes (a b : List Byte) : List Byte := List.zipWith (fun x y => x ^^^ y) a b

/-- ShiftRows on the 16 bytes in column order. -/
def shiftRows (st : List Byte) : List Byte :=
  (List.range 16).map (fun i => byteAt st ((i + 4 * (i % 4)) % 16))

/-- InvShiftRows. -/
def invShiftRows (st : List Byte) : List Byte :=
  (List.range 16).map (fun i => byteAt st ((i + 12 * (i % 4)) % 16))

/-- One byte of a mixed column: column `c`, row `r`, coefficients of row 0. -/
def mixByte (k0 k1 k2 k3 : Nat) (st : List Byte) (i : Nat) : Byte :=
  let c := 4 * (i / 4)
  let r := i % 4
  gmul k0 (byteAt st (c + r)) ^^^ gmul k1 (byteAt st (c + (r + 1) % 4)) ^^^
    gmul k2 (byteAt st (c + (r + 2) % 4)) ^^^ gmul k3 (byteAt st (c + (r + 3) % 4))

/-- MixColumns. -/
def mixColumns (st : List Byte) : List Byte :=
  (List.range 16).map (mixByte 2 3 1 1 st)

/-- InvMixColumns. -/
def invMixColumns (st : List Byte) : List Byte :=
  (List.range 16).map (mixByte 14 11 13 9 st)

/-- Round constant number i (from 1) of the key schedule. -/
def rcon (i : Nat) : Byte := 1#8 <<< (i - 1)

/-- Words of the key schedule, newest first: `n` further words after the words `ws` (i of them). -/
def expandWords : Nat → Nat → List (List Byte) → List (List Byte)
  | 0, _, ws => ws
  | n + 1, i, ws =>
    let prev := ws.getD 0 []
    let back := ws.getD 7 []
    let t :=
      if i % 8 = 0 then
        xorBytes ([byteAt prev 1, byteAt prev 2, byteAt prev 3, byteAt prev 0].map sbox)
          [rcon (i / 8), 0#8, 0#8, 0#8]
      else if i % 8 = 4 then prev.map sbox
      else prev
    expandWords n (i + 1) (xorBytes back t :: ws)

/-- Split a byte list into words of four bytes. -/
def words4 (n : Nat) (l : List Byte) : List (List Byte) :=
  (List.range n).map (fun i => (l.drop (4 * i)).take 4)

/-- The 15 round keys of AES-256, 16 bytes each, in round order. -/
def roundKeys (k : Key) : List (List Byte) :=
  let ws := (expandWords 52 8 (words4 8 (keyBytes k)).reverse).reverse
  (List.range 15).map (fun r => ((ws.drop (4 * r)).take 4).flatten)

/-- Middle rounds of the cipher over the round keys that remain; the last key makes the final round. -/
def aesRounds : List (List Byte) → List Byte → List Byte
  | [], st => st
  | [k], st => xorBytes (shiftRows (st.map sbox)) k
  | k :: ks, st => aesRounds ks (xorBytes (mixColumns (shiftRows (st.map sbox))) k)

/-- Rounds of the inverse cipher, keys in reverse order. -/
def aesInvRounds : List (List Byte) → List Byte → List Byte
  | [], st => st
  | [k], st => xorBytes ((invShiftRows st).map invSbox) k
  | k :: ks, st => aesInvRounds ks (invMixColumns (xorBytes ((invShiftRows st).map invSbox) k))

/-- AES-256 encryption of one block. -/
def aes256 (k : Key) (b : Block) : Block :=
  match roundKeys k with
  | [] => b
  | k0 :: ks => blockOfBytes (aesRounds ks (xorBytes (blockBytes b) k0))

/-- AES-256 decryption of one block. -/
def aes256Inv (k : Key) (b : Block) : Block :=
  match (roundKeys k).reverse with
  | [] => b
  | k0 :: ks => blockOfBytes (aesInvRounds ks (xorBytes (blockBytes b) k0))

end Sys2Proof.Machine
end

