-- ==== Sys2Proof/Machine/Codes.lean ====
section
/-! DEFINITION. Cyclic redundancy codes and the byte layouts of lines (R54, R65, R209, R278). -/

namespace Sys2Proof.Machine

/-- Payload bytes of a line in order, byte b from bits [8b+7:8b] (R54). -/
def lineBytes (l : Line) : List Byte := (List.range 64).map (fun b => l.extractLsb' (8 * b) 8)

/-- A line from its payload bytes in order. -/
def lineOfBytes (bs : List Byte) : Line :=
  bs.foldr (fun b (acc : Line) => (acc <<< 8) ||| b.setWidth 512) 0

/-- The low `n` bytes of a number, least significant first (R8). -/
def leBytes : Nat → Nat → List Byte
  | 0, _ => []
  | n + 1, v => BitVec.ofNat 8 v :: leBytes n (v / 256)

/-- The low `n` bytes of a number, most significant first. -/
def beBytes (n v : Nat) : List Byte := (leBytes n v).reverse

/-- The number that bytes spell least significant first (R8). -/
def natOfLe : List Byte → Nat
  | [] => 0
  | b :: t => b.toNat + 256 * natOfLe t

/-- The number that bytes spell most significant first. -/
def natOfBe (l : List Byte) : Nat := natOfLe l.reverse

/-- One bit of a CRC-16 register with polynomial 1021h. -/
def crc16Shift (r : BitVec 16) : BitVec 16 :=
  (r <<< 1) ^^^ (if r.msb then 0x1021#16 else 0#16)

/-- One byte into a CRC-16 register, most significant bit first (R65). -/
def crc16Byte (r : BitVec 16) (b : Byte) : BitVec 16 :=
  Nat.repeat crc16Shift 8 (r ^^^ (b.setWidth 16 <<< 8))

/-- CRC-16, polynomial 1021h, from an initial value; no reflection and no final XOR (R65, R278). -/
def crc16 (init : BitVec 16) (bs : List Byte) : BitVec 16 := bs.foldl crc16Byte init

/-- One bit of the reflected CRC-32 register with polynomial 04C11DB7h (EDB88320h reflected). -/
def crc32Shift (r : BitVec 32) : BitVec 32 :=
  (r >>> 1) ^^^ (if r.getLsbD 0 then 0xEDB88320#32 else 0#32)

/-- One byte into the reflected CRC-32 register. -/
def crc32Byte (r : BitVec 32) (b : Byte) : BitVec 32 :=
  Nat.repeat crc32Shift 8 (r ^^^ b.setWidth 32)

/-- CRC-32 as IEEE 802.3 uses it (R211). -/
def crc32 (bs : List Byte) : BitVec 32 := ~~~ (bs.foldl crc32Byte 0xFFFFFFFF#32)

/-- The CRC over plaintext and address that SCHK starts from (R65). -/
def lineCrc (pt : Line) (a : Addr) : BitVec 16 := crc16 0 (lineBytes pt ++ leBytes 5 a.toNat)

/-- The 576 bits of a media line as payload and sidecar (R54). -/
def mediaSplit (d : BitVec 576) : Line × Side :=
  ((List.range 16).foldr (fun i (acc : Line) =>
      (acc <<< 32) ||| (d.extractLsb' (36 * i) 32).setWidth 512) 0,
   (List.range 16).foldr (fun i (acc : Side) =>
      (acc <<< 4) ||| (d.extractLsb' (36 * i + 32) 4).setWidth 64) 0)

/-- Payload and sidecar as the 576 bits of a media line (R54). -/
def mediaJoin (l : Line) (sc : Side) : BitVec 576 :=
  (List.range 16).foldr (fun i (acc : BitVec 576) =>
      (acc <<< 36) ||| (l.extractLsb' (32 * i) 32).setWidth 576
        ||| ((sc.extractLsb' (4 * i) 4).setWidth 576 <<< 32)) 0

/-- The odd-parity bit of a field: the field together with it holds an odd number of ones (R7). -/
def oddPar {w : Nat} (v : BitVec w) : Bool := (List.range w).foldl (fun p i => p != v.getLsbD i) true

/-- The native word of four data bytes: byte k in bits [8k+7:8k], its parity bit in bit 32 + k (R7). -/
def nativeWord (d : BitVec 32) : BitVec 36 :=
  (List.range 4).foldl (fun w k => if oddPar (d.extractLsb' (8 * k) 8) then w ||| (1#36 <<< (32 + k)) else w) (d.setWidth 36)

/-- The bytes of a native word that fail their parity: byte and parity bit hold an even number of ones (R7). -/
def nativeBad (w : BitVec 36) : BitVec 4 :=
  (List.range 4).foldl (fun b k =>
    if oddPar (w.extractLsb' (8 * k) 8) = w.getLsbD (32 + k) then b else b ||| (1#4 <<< k)) 0

/-- A cell of the queue pool: 16 data bytes as four native words (R187). -/
def cellOf (v : BitVec 128) : BitVec 144 :=
  (List.range 4).foldr (fun j (acc : BitVec 144) => (acc <<< 36) ||| (nativeWord (v.extractLsb' (32 * j) 32)).setWidth 144) 0

/-- The data bytes of a cell. -/
def cellData (c : BitVec 144) : BitVec 128 :=
  (List.range 4).foldr (fun j (acc : BitVec 128) => (acc <<< 32) ||| (c.extractLsb' (36 * j) 32).setWidth 128) 0

/-- The bytes of a cell that fail their parity (R187, R198). -/
def cellBad (c : BitVec 144) : BitVec 16 :=
  (List.range 4).foldr (fun j (acc : BitVec 16) => (acc <<< 4) ||| (nativeBad (c.extractLsb' (36 * j) 36)).setWidth 16) 0

/-- A cell read with an error pattern on its words: its bytes as they come, and those that fail their parity (R198). -/
def cellRead (v : BitVec 128) (flip : BitVec 144) : BitVec 128 × BitVec 16 :=
  if flip = 0#144 then (v, 0#16)
  else (cellData (cellOf v ^^^ flip), cellBad (cellOf v ^^^ flip))

/-- The words of a cell that hold a bad byte. -/
def cellWords (bad : BitVec 16) : BitVec 4 :=
  (List.range 4).foldl (fun w j => if bad.extractLsb' (4 * j) 4 = 0#4 then w else w ||| (1#4 <<< j)) 0

/-- Bits set among the low n of a number. -/
def bitCount (n v : Nat) : Nat := (List.range n).foldl (fun c i => if v.testBit i then c + 1 else c) 0

/-- The check bits of a line on the port: bit i is odd parity over bits [36i+35:36i] (Table 12.1). -/
def linePar (d : BitVec 576) : BitVec 16 :=
  (List.range 16).foldl (fun p i => if oddPar (d.extractLsb' (36 * i) 36) then p ||| (1#16 <<< i) else p) 0

end Sys2Proof.Machine
end

