-- ==== Sys2Proof/Machine/Cipher.lean ====
section
/-! DEFINITION. The cryptography of Table 00.4 above AES-256: CMAC, the KDF of Table 03.5, GHASH, key unwrap, SHA-256,
the lane mixer of R64 and the counter block of Table 03.3. PRESUMED from the standards that R5 names (log 8). -/

namespace Sys2Proof.Machine

/-- Doubling in GF(2^128) as CMAC uses it. -/
def cmacDbl (b : Block) : Block := (b <<< 1) ^^^ (if b.msb then 0x87#128 else 0#128)

/-- CMAC over whole blocks of 16 bytes; `n` bounds the number of blocks that remain. -/
def cmacLoop (k : Key) (k1 k2 : Block) : Nat → Block → List Byte → Block
  | 0, st, _ => st
  | n + 1, st, m =>
    if m.length > 16 then cmacLoop k k1 k2 n (aes256 k (st ^^^ blockOfBytes (m.take 16))) (m.drop 16)
    else if m.length = 16 then aes256 k (st ^^^ blockOfBytes m ^^^ k1)
    else
      let padded := m ++ [0x80#8] ++ List.replicate (15 - m.length) 0#8
      aes256 k (st ^^^ blockOfBytes padded ^^^ k2)

/-- AES-256-CMAC of SP 800-38B. -/
def cmac (k : Key) (m : List Byte) : Block :=
  let k1 := cmacDbl (aes256 k 0)
  cmacLoop k k1 (cmacDbl k1) (m.length / 16 + 1) 0 m

/-- The keys that the slices use under one generation (Table 03.5). -/
structure GenKeys where
  data : Key
  tag : Block
  mix : Block
deriving DecidableEq, Repr

/-- One PRF input of the KDF: block i, label, generation, output length in bits (R61). -/
def kdfInput (i : Nat) (label : List Byte) (g : BitVec 32) (l : Nat) : List Byte :=
  beBytes 4 i ++ label ++ [0#8] ++ beBytes 4 g.toNat ++ beBytes 4 l

/-- The keys derived from a material for a generation (R61, Table 03.5). -/
def deriveKeys (mat : Key) (g : BitVec 32) : GenKeys :=
  let data : List Byte := [0x64#8, 0x61#8, 0x74#8, 0x61#8]
  { data := cmac mat (kdfInput 1 data g 256) ++ cmac mat (kdfInput 2 data g 256)
    tag := cmac mat (kdfInput 1 [0x74#8, 0x61#8, 0x67#8] g 128)
    mix := cmac mat (kdfInput 1 [0x6D#8, 0x69#8, 0x78#8] g 128) }

/-- One step of the multiplication in GF(2^128) of SP 800-38D, bit i counted from the most significant. -/
def gfStep (x : Block) (zv : Block × Block) (i : Nat) : Block × Block :=
  ((if x.getMsbD i then zv.1 ^^^ zv.2 else zv.1),
   (zv.2 >>> 1) ^^^ (if zv.2.getLsbD 0 then 0xE1000000000000000000000000000000#128 else 0#128))

/-- Multiplication in GF(2^128) of SP 800-38D. -/
def gfMul (x y : Block) : Block := ((List.range 128).foldl (gfStep x) (0#128, y)).1

/-- GHASH of SP 800-38D. -/
def ghash (h : Block) (xs : List Block) : Block := xs.foldl (fun y x => gfMul (y ^^^ x) h) 0#128

/-- Key check value: first three bytes of AES-256 of the all-zero block, first byte in bits [23:16] (R128). -/
def kcv (k : Key) : BitVec 24 := (aes256 k 0#128).extractLsb' 104 24

/-- The unwrap steps of KW (SP 800-38F): A and the semiblocks R, most recent step number `t` first. -/
def kwSteps (kek : Key) (n : Nat) : Nat → BitVec 64 → List (BitVec 64) → BitVec 64 × List (BitVec 64)
  | 0, a, rs => (a, rs)
  | t + 1, a, rs =>
    let i := t % n
    let b := aes256Inv kek ((a ^^^ BitVec.ofNat 64 (t + 1)) ++ rs.getD i 0#64)
    kwSteps kek n t (b.extractLsb' 64 64) (rs.set i (b.extractLsb' 0 64))

/-- KW unwrap of a 56-byte ciphertext; the 48 plaintext bytes when the integrity value verifies (R129). -/
def kwUnwrap (kek : Key) (ct : BitVec 448) : Option (BitVec 384) :=
  let rs := (List.range 6).map (fun i => ct.extractLsb' (64 * (5 - i)) 64)
  match kwSteps kek 6 36 (ct.extractLsb' 384 64) rs with
  | (a, ps) =>
    if a = 0xA6A6A6A6A6A6A6A6#64 then
      some (ps.foldl (fun (acc : BitVec 384) p => (acc <<< 64) ||| p.setWidth 384) 0#384)
    else none

/-- One word of the lane mixer (R64). -/
def mixWord (mk : Block) (a : Addr) (g : BitVec 32) (c : BitVec 24) (w : Nat) : BitVec 64 :=
  let s0 := mk.extractLsb' 64 64 ^^^ a.setWidth 64
  let s1 := mk.extractLsb' 0 64 ^^^ (g.setWidth 64 <<< 32) ^^^ c.setWidth 64
  let x := s0 + BitVec.ofNat 64 (w + 1) * 0x9E3779B97F4A7C15#64
  let x := x ^^^ s1
  let x := (x ^^^ (x >>> 31)) * 0xD6E8FEB86659FD93#64
  let x := (x ^^^ (x >>> 27)) * 0xA24BAED4963EE407#64
  x ^^^ (x >>> 29)

/-- The nine words of the lane mixer, word 0 in bits [63:0] (R64). -/
def mixWords (mk : Block) (a : Addr) (g : BitVec 32) (c : BitVec 24) : BitVec 576 :=
  (List.range 9).foldr (fun w (acc : BitVec 576) => (acc <<< 64) ||| (mixWord mk a g c w).setWidth 576) 0

/-- The counter block of keystream block j (Table 03.3). -/
def counterBlock (kidx : BitVec 15) (g : BitVec 32) (a : Addr) (c : BitVec 24) (j : Byte) : Block :=
  kidx.setWidth 16 ++ g ++ a ++ c ++ j ++ 0x5A#8

/-- Keystream block j of a line (R57). -/
def ksBlock (k : Key) (kidx : BitVec 15) (g : BitVec 32) (a : Addr) (c : BitVec 24) (j : Nat) : Block :=
  aes256 k (counterBlock kidx g a c (BitVec.ofNat 8 j))

/-- The payload part of a keystream in line layout: byte 16j + k is byte k of block j (R58). -/
def ksLine (bs : List Block) : Line := lineOfBytes ((bs.take 4).flatMap blockBytes)

/-- The tag input block X5 (R73). -/
def tagX5 (sc : Side) (a : Addr) : Block := sc ++ 0#24 ++ a

/-- MAC56 of a stored line (R73, R74); `mask` is keystream block 4. -/
def mac56 (h : Block) (ct : Line) (sc : Side) (a : Addr) (blk4 : Block) : BitVec 56 :=
  let bs := lineBytes ct
  let xs := (List.range 4).map (fun j => blockOfBytes ((bs.drop (16 * j)).take 16))
  (ghash h (xs ++ [tagX5 sc a])).extractLsb' 72 56 ^^^ blk4.extractLsb' 16 56

/-- The round constants of SHA-256 (FIPS 180-4), first half, constant i in bits [32i+31:32i]. -/
def shaKLow : Nat := 0x1429296706ca6351d5a79147c6e00bf3bf597fc7b00327c8a831c66d983e515276f988da5cb0a9dc4a7484aa2de92c6f240ca1cc0fc19dc6efbe4786e49b69c1c19bf1749bdc06a780deb1fe72be5d74550c7dc3243185be12835b01d807aa98ab1c5ed5923f82a459f111f13956c25be9b5dba5b5c0fbcf71374491428a2f98

/-- The round constants of SHA-256, second half. -/
def shaKHigh : Nat := 0xc67178f2bef9a3f7a4506ceb90befffa8cc7020884c8781478a5636f748f82ee682e6ff35b9cca4f4ed8aa4a391c0cb334b0bcb52748774c1e376c0819a4c116106aa070f40e3585d6990624d192e819c76c51a3c24b8b70a81a664ba2bfe8a192722c8581c2c92e766a0abb650a735453380d134d2c6dfc2e1b213827b70a85

/-- Round constant t. -/
def shaK (t : Nat) : BitVec 32 :=
  if t < 32 then BitVec.ofNat 32 (shaKLow >>> (32 * t)) else BitVec.ofNat 32 (shaKHigh >>> (32 * (t - 32)))

/-- Message-schedule words, newest first: `n` further words. -/
def shaSchedule : Nat → List (BitVec 32) → List (BitVec 32)
  | 0, ws => ws
  | n + 1, ws =>
    let w15 := ws.getD 14 0#32
    let w2 := ws.getD 1 0#32
    let s0 := w15.rotateRight 7 ^^^ w15.rotateRight 18 ^^^ (w15 >>> 3)
    let s1 := w2.rotateRight 17 ^^^ w2.rotateRight 19 ^^^ (w2 >>> 10)
    shaSchedule n ((ws.getD 15 0#32 + s0 + ws.getD 6 0#32 + s1) :: ws)

/-- The eight working words of SHA-256. -/
structure ShaState where
  a : BitVec 32
  b : BitVec 32
  c : BitVec 32
  d : BitVec 32
  e : BitVec 32
  f : BitVec 32
  g : BitVec 32
  h : BitVec 32
deriving DecidableEq, Repr

/-- One round of SHA-256. -/
def shaRound (s : ShaState) (kw : BitVec 32) : ShaState :=
  let s1 := s.e.rotateRight 6 ^^^ s.e.rotateRight 11 ^^^ s.e.rotateRight 25
  let ch := (s.e &&& s.f) ^^^ (~~~ s.e &&& s.g)
  let t1 := s.h + s1 + ch + kw
  let s0 := s.a.rotateRight 2 ^^^ s.a.rotateRight 13 ^^^ s.a.rotateRight 22
  let mj := (s.a &&& s.b) ^^^ (s.a &&& s.c) ^^^ (s.b &&& s.c)
  { a := t1 + (s0 + mj), b := s.a, c := s.b, d := s.c, e := s.d + t1, f := s.e, g := s.f, h := s.g }

/-- One block of 64 bytes into the hash. -/
def shaBlock (s : ShaState) (blk : List Byte) : ShaState :=
  let w16 := (List.range 16).map (fun i => BitVec.ofNat 32 (natOfBe ((blk.drop (4 * i)).take 4)))
  let ws := (shaSchedule 48 w16.reverse).reverse
  let r := (List.zipWith (fun w t => w + shaK t) ws (List.range 64)).foldl shaRound s
  { a := s.a + r.a, b := s.b + r.b, c := s.c + r.c, d := s.d + r.d,
    e := s.e + r.e, f := s.f + r.f, g := s.g + r.g, h := s.h + r.h }

/-- `n` blocks of 64 bytes into the hash. -/
def shaBlocks : Nat → ShaState → List Byte → ShaState
  | 0, s, _ => s
  | n + 1, s, l => shaBlocks n (shaBlock s (l.take 64)) (l.drop 64)

/-- The initial hash value. -/
def shaInit : ShaState :=
  { a := 0x6a09e667#32, b := 0xbb67ae85#32, c := 0x3c6ef372#32, d := 0xa54ff53a#32,
    e := 0x510e527f#32, f := 0x9b05688c#32, g := 0x1f83d9ab#32, h := 0x5be0cd19#32 }

/-- SHA-256 of a byte string, first hash byte in bits [255:248]. -/
def sha256 (m : List Byte) : BitVec 256 :=
  let z := (119 - m.length % 64) % 64
  let padded := m ++ [0x80#8] ++ List.replicate z 0#8 ++ beBytes 8 (8 * m.length)
  let s := shaBlocks (padded.length / 64) shaInit padded
  s.a ++ s.b ++ s.c ++ s.d ++ s.e ++ s.f ++ s.g ++ s.h

end Sys2Proof.Machine
end

