-- ==== Sys2Proof/Machine/Objects.lean ====
section
/-! DEFINITION. The objects of the dictionary, as the object tables of the manual list them (Table 16.2). The rows of
`objTable` are set from the tables 02.7 to 16.6 of the manual: first index, index stride, instances, first
subindex, consecutive subindices, type, access, rights, admitted values, default. -/

namespace Sys2Proof.Machine

/-- Object types (Table 15.1). -/
inductive ObjTy where
  | bool
  | u8
  | u16
  | u32
  | w36
  | u64
  | oct (n : Nat)
  | text (n : Nat)
deriving DecidableEq, Repr

/-- Access codes (Table 15.2). -/
inductive ObjAcc where
  | ro
  | rw
  | rws
  | wo
  | wk
  | cmd
deriving DecidableEq, Repr

/-- The rights set of an object (R309). -/
structure Rights where
  f : Bool
  l : Bool
  d : Bool
deriving DecidableEq, Repr

/-- The values that an object admits besides its width (R310). -/
inductive ObjRange where
  | any
  | span (lo hi : Nat)
  | oneOf (l : List Nat)
deriving DecidableEq, Repr

/-- One row of the object tables: objects that differ only in instance and subindex. -/
structure Obj where
  idx : Nat
  stride : Nat
  inst : Nat
  sub : Nat
  subs : Nat
  ty : ObjTy
  acc : ObjAcc
  rights : Rights
  range : ObjRange
  dflt : Nat
deriving DecidableEq, Repr

/-- Rights F L D. -/
def rFLD : Rights := ⟨true, true, true⟩
/-- Rights F L. -/
def rFL : Rights := ⟨true, true, false⟩
/-- Rights L D. -/
def rLD : Rights := ⟨false, true, true⟩
/-- Rights L. -/
def rL : Rights := ⟨false, true, false⟩
/-- Rights F. -/
def rF : Rights := ⟨true, false, false⟩

/-- Objects of indices 1000 and up, part 1. -/
def objs10 : List Obj := [
  ⟨0x1000, 0, 1, 0x01, 1, (.text 16), .ro, rFLD, .any, 28268948296851795⟩,  -- VENDOR
  ⟨0x1000, 0, 1, 0x02, 1, (.text 16), .ro, rFLD, .any, 7887337184661037394⟩,  -- FAMILY
  ⟨0x1000, 0, 1, 0x03, 1, (.text 16), .ro, rFLD, .any, 125822802551106⟩,  -- MEMBER
  ⟨0x1000, 0, 1, 0x04, 1, (.text 8), .ro, rFLD, .any, 15817785489902418⟩,  -- DELIVERY_CODE
  ⟨0x1000, 0, 1, 0x05, 1, .u32, .ro, rFLD, .any, 61877⟩,  -- ENTERPRISE_NO
  ⟨0x1000, 0, 1, 0x06, 1, .u64, .ro, rFLD, .any, 0⟩,  -- ENGINE_ID
  ⟨0x1000, 0, 1, 0x07, 1, .u8, .ro, rFLD, .any, 1⟩,  -- STEPPING
  ⟨0x1000, 0, 1, 0x08, 1, .u16, .ro, rFLD, .any, 2⟩,  -- MAIRLINK_VERSIONS
  ⟨0x1000, 0, 1, 0x09, 1, .u8, .ro, rFLD, .any, 1⟩,  -- MSG_SVER
  ⟨0x1000, 0, 1, 0x0A, 1, .u16, .ro, rFLD, .any, 1⟩,  -- SER_VERSION
  ⟨0x1000, 0, 1, 0x0B, 1, .u16, .ro, rFLD, .any, 1⟩,  -- NV_LAYOUT
  ⟨0x1001, 0, 1, 0x01, 1, .u16, .ro, rFLD, .any, 128⟩,  -- LINK_PORTS
  ⟨0x1001, 0, 1, 0x02, 1, .u8, .ro, rFLD, .any, 16⟩,  -- MEDIA_PORTS
  ⟨0x1001, 0, 1, 0x03, 1, .u8, .ro, rFLD, .any, 17⟩,  -- SLICES
  ⟨0x1001, 0, 1, 0x04, 1, .u8, .ro, rFLD, .any, 12⟩,  -- PIPES_PER_SLICE
  ⟨0x1001, 0, 1, 0x05, 1, .u32, .ro, rFLD, .any, 32768⟩,  -- KEY_SLOTS
  ⟨0x1001, 0, 1, 0x06, 1, .u16, .ro, rFLD, .any, 1024⟩,  -- PRINCIPALS
  ⟨0x1001, 0, 1, 0x07, 1, .u16, .ro, rFLD, .any, 16384⟩,  -- STREAMS
  ⟨0x1001, 0, 1, 0x08, 1, .u8, .ro, rFLD, .any, 64⟩,  -- REKEY_CONTEXTS
  ⟨0x1001, 0, 1, 0x09, 1, .u32, .ro, rFLD, .any, 262144⟩,  -- QUEUE_CELLS
  ⟨0x1001, 0, 1, 0x0A, 1, .u16, .ro, rFLD, .any, 384⟩,  -- QUEUES
  ⟨0x1001, 0, 1, 0x0B, 1, .u16, .ro, rFLD, .any, 1124⟩,  -- EVENT_SOURCES
  ⟨0x1001, 0, 1, 0x0C, 1, .u8, .ro, rFLD, .any, 40⟩,  -- LINE_ADDR_BITS
  ⟨0x1001, 0, 1, 0x0D, 1, .u32, .ro, rFLD, .any, 1048576⟩,  -- JACK_ENTRIES
  ⟨0x1001, 0, 1, 0x0E, 1, .u32, .ro, rFLD, .any, 32768⟩,  -- TAG_CACHE_LINES
  ⟨0x1001, 0, 1, 0x0F, 1, .u16, .ro, rFLD, .any, 768⟩,  -- SRAM_MACROS
  ⟨0x1001, 0, 1, 0x10, 1, .u32, .ro, rFLD, .any, 1600000⟩,  -- NOMINAL_KHZ
  ⟨0x1001, 0, 1, 0x11, 1, .u8, .ro, rFLD, .any, 128⟩,  -- REPLAY_PLACES
  ⟨0x1001, 0, 1, 0x12, 1, .u8, .ro, rFLD, .any, 64⟩  -- AHEAD_SET
  ]

/-- Objects of indices 2000 and up, part 1. -/
def objs20p0 : List Obj := [
  ⟨0x2040, 0, 1, 0x01, 1, .u16, .rws, rFL, (.span 256 4096), 2048⟩,  -- TAG_DIRTY_MAX_PORT
  ⟨0x2040, 0, 1, 0x02, 1, .u16, .rws, rFL, (.span 1 65535), 64⟩,  -- TAG_CLEAN_AGE
  ⟨0x2040, 0, 1, 0x03, 1, .u16, .rws, rFL, (.span 1 65535), 64⟩,  -- TAG_FAIL_LIMIT
  ⟨0x2040, 0, 1, 0x04, 1, .u16, .rws, rFL, (.span 16 65535), 1024⟩,  -- TAG_FAIL_WINDOW
  ⟨0x2040, 0, 1, 0x05, 1, .u8, .rws, rFL, (.span 0 1), 0⟩,  -- TAG_FAIL_ACTION
  ⟨0x2040, 0, 1, 0x06, 1, .bool, .cmd, rFL, .any, 0⟩,  -- TAG_CACHE_FLUSH
  ⟨0x2050, 0, 1, 0x01, 1, .u32, .rws, rFL, (.span 1048576 16711680), 15728640⟩,  -- HIGH_WATER
  ⟨0x2050, 0, 1, 0x02, 1, .u8, .rws, rFL, (.span 0 15), 4⟩,  -- LOOKAHEAD_DEPTH
  ⟨0x2050, 0, 1, 0x03, 1, .u64, .rw, rFL, (.span 0 1099511627775), 0⟩,  -- PREFILL_BASE
  ⟨0x2050, 0, 1, 0x04, 1, .u32, .rw, rFL, (.span 0 16777216), 0⟩,  -- PREFILL_COUNT
  ⟨0x2050, 0, 1, 0x05, 1, .bool, .cmd, rFL, .any, 0⟩,  -- JACK_PREFILL
  ⟨0x2050, 0, 1, 0x06, 1, .bool, .cmd, rFL, .any, 0⟩,  -- JACK_INVALIDATE
  ⟨0x2060, 0, 1, 0x01, 1, .bool, .ro, rFLD, .any, 0⟩,  -- KEK_HELD
  ⟨0x2060, 0, 1, 0x02, 1, .u8, .ro, rFLD, .any, 0⟩,  -- ZEROIZE_STATE
  ⟨0x2060, 0, 1, 0x03, 1, .u8, .ro, rFLD, .any, 0⟩,  -- MK_PRESENT
  ⟨0x2070, 0, 1, 0x01, 1, .bool, .rw, rFL, .any, 0⟩,  -- REKEY_PAUSE_ALL
  ⟨0x2070, 0, 1, 0x02, 1, .u16, .ro, rFLD, .any, 0⟩,  -- REKEY_QUEUED
  ⟨0x2080, 0, 1, 0x01, 1, .u16, .rws, rFL, (.span 256 1536), 1024⟩,  -- EGRESS_CELLS
  ⟨0x2080, 0, 1, 0x02, 1, .u8, .rws, rFL, (.span 4 20), 8⟩,  -- CUT_THROUGH
  ⟨0x2080, 0, 1, 0x03, 1, .u32, .ro, rFLD, .any, 129152⟩,  -- INGRESS_CELLS
  ⟨0x2080, 0, 1, 0x04, 1, .u32, .ro, rFLD, .any, 0⟩,  -- RESERVED_CELLS
  ⟨0x2080, 0, 1, 0x05, 1, .u32, .ro, rFLD, .any, 262144⟩,  -- FREE_CELLS
  ⟨0x2080, 0, 1, 0x06, 1, .u8, .ro, rFLD, .any, 126⟩,  -- SPARE_IDS
  ⟨0x2090, 0, 1, 0x01, 1, .u16, .rws, rFL, (.span 16 65535), 1563⟩,  -- T_LOS
  ⟨0x2090, 0, 1, 0x02, 1, .u16, .rws, rFL, (.span 250 16000), 2000⟩,  -- T_ACK_NS
  ⟨0x2090, 0, 1, 0x03, 1, .u32, .rws, rFL, (.span 2000 1000000), 20000⟩,  -- T_REPLAY_NS
  ⟨0x2090, 0, 1, 0x04, 1, .u8, .rws, rFL, (.span 2 255), 16⟩,  -- REPLAY_LIMIT
  ⟨0x2090, 0, 1, 0x05, 1, .u8, .rws, rFL, (.span 16 128), 128⟩,  -- REPLAY_DEPTH
  ⟨0x2090, 0, 1, 0x06, 1, .bool, .rws, rFL, .any, 0⟩,  -- FEC_LIGHT_ALLOW
  ⟨0x20A0, 0, 1, 0x01, 1, .u16, .rws, rFL, (.span 10 10000), 100⟩  -- HB_INTERVAL_US
  ]

/-- Objects of indices 2000 and up, part 2. -/
def objs20p1 : List Obj := [
  ⟨0x20A0, 0, 1, 0x02, 1, .u8, .rws, rFL, (.span 3 255), 8⟩,  -- HB_MISS_LIMIT
  ⟨0x20A0, 0, 1, 0x03, 1, .u16, .rws, rFL, (.span 64 4096), 4096⟩,  -- TAG_LIMIT
  ⟨0x20A0, 0, 1, 0x04, 1, .u8, .rws, rFL, (.oneOf [2, 4, 6, 8, 10, 12, 14]), 14⟩,  -- CLASSES_OFFER
  ⟨0x20A0, 0, 1, 0x05, 1, .u16, .rws, rFL, (.span 20 10000), 100⟩,  -- T_NEG_US
  ⟨0x20A0, 0, 1, 0x06, 1, .u8, .rws, rFL, (.span 1 64), 8⟩,  -- GRANT_BATCH
  ⟨0x20A0, 0, 1, 0x07, 1, .u8, .rws, rFL, (.span 1 255), 1⟩,  -- GRANT_HOLD_FR
  ⟨0x2000, 0, 1, 0x01, 1, .u8, .rws, rFL, (.span 0 1), 0⟩,  -- INTERLEAVE_MODE
  ⟨0x2000, 0, 1, 0x02, 1, .u8, .rws, rFL, (.oneOf [4, 6, 8, 10]), 6⟩,  -- INTERLEAVE_SHIFT
  ⟨0x20B0, 0, 1, 0x01, 1, .u16, .rws, rFL, (.span 2 1000), 20⟩,  -- MP_READ_TIMEOUT_US
  ⟨0x20B0, 0, 1, 0x02, 1, .u16, .rws, rFL, (.span 10 10000), 200⟩,  -- MP_PERSIST_TIMEOUT_US
  ⟨0x20B0, 0, 1, 0x03, 1, .u8, .rws, rFL, (.span 1 15), 3⟩,  -- MP_XFER_RETRIES
  ⟨0x20B0, 0, 1, 0x04, 1, .u16, .rws, rFL, (.span 256 65535), 4096⟩,  -- MP_STALL_LIMIT
  ⟨0x20FF, 0, 1, 0x01, 15, .u32, .rw, rLD, .any, 0⟩,  -- WIDE_BUF
  ⟨0x20FF, 0, 1, 0x10, 1, .u8, .rw, rLD, (.span 0 1), 0⟩,  -- WIN_VIEW
  ⟨0x20FF, 0, 1, 0x11, 1, .u32, .rw, rLD, (.span 0 0), 0⟩  -- WIN_ERR
  ]

/-- Objects of indices 2000 and up. -/
def objs20 : List Obj := objs20p0 ++ objs20p1

/-- Objects of indices 2100 and up, part 1. ENG_CLK_KHZ has no default in the spec: it reads 0 until the first superframe
boundary measures it (DESIGN CHOICE, safe only where no claim rests on the 0: log entry 14). -/
def objs21p0 : List Obj := [
  ⟨0x2100, 0, 1, 0x01, 1, .u64, .ro, rFLD, .any, 0⟩,  -- FRAME_NUMBER
  ⟨0x2100, 0, 1, 0x02, 1, .u64, .ro, rFLD, .any, 0⟩,  -- SUPERFRAME_NUMBER
  ⟨0x2100, 0, 1, 0x03, 1, .u32, .ro, rFLD, .any, 0⟩,  -- ENG_CLK_KHZ
  ⟨0x2101, 0, 1, 0x01, 1, .u16, .rws, rFL, (.span 768 1024), 768⟩,  -- W_FG_MIN
  ⟨0x2101, 0, 1, 0x02, 1, .u16, .rws, rFL, .any, 16⟩,  -- W_TG_MIN
  ⟨0x2101, 0, 1, 0x03, 1, .u16, .rws, rFL, .any, 128⟩,  -- W_TG_MAX
  ⟨0x2101, 0, 1, 0x04, 1, .u16, .rws, rFL, .any, 0⟩,  -- W_RK_MIN
  ⟨0x2101, 0, 1, 0x05, 1, .u16, .rws, rFL, (.span 0 128), 128⟩,  -- W_RK_MAX
  ⟨0x2101, 0, 1, 0x06, 1, .u16, .rws, rFL, (.span 1 65535), 4⟩,  -- W_MX_MIN
  ⟨0x2101, 0, 1, 0x07, 1, .u16, .rws, rFL, .any, 32⟩,  -- W_MX_MAX
  ⟨0x2101, 0, 1, 0x11, 1, .u16, .rws, rFL, (.span 768 1024), 768⟩,  -- R_FG_MIN
  ⟨0x2101, 0, 1, 0x12, 1, .u16, .rws, rFL, .any, 16⟩,  -- R_TG_MIN
  ⟨0x2101, 0, 1, 0x13, 1, .u16, .rws, rFL, .any, 128⟩,  -- R_TG_MAX
  ⟨0x2101, 0, 1, 0x14, 1, .u16, .rws, rFL, .any, 8⟩,  -- R_SP_MIN
  ⟨0x2101, 0, 1, 0x15, 1, .u16, .rws, rFL, .any, 64⟩,  -- R_SP_MAX
  ⟨0x2101, 0, 1, 0x16, 1, .u16, .rws, rFL, .any, 0⟩,  -- R_RK_MIN
  ⟨0x2101, 0, 1, 0x17, 1, .u16, .rws, rFL, (.span 0 128), 128⟩,  -- R_RK_MAX
  ⟨0x2101, 0, 1, 0x18, 1, .u16, .rws, rFL, (.span 1 65535), 4⟩,  -- R_MX_MIN
  ⟨0x2101, 0, 1, 0x19, 1, .u16, .rws, rFL, .any, 32⟩,  -- R_MX_MAX
  ⟨0x2110, 1, 16, 0x01, 1, .u16, .rws, rFL, (.span 768 1024), 768⟩,  -- W_FG_MIN
  ⟨0x2110, 1, 16, 0x02, 1, .u16, .rws, rFL, .any, 16⟩,  -- W_TG_MIN
  ⟨0x2110, 1, 16, 0x03, 1, .u16, .rws, rFL, .any, 128⟩,  -- W_TG_MAX
  ⟨0x2110, 1, 16, 0x04, 1, .u16, .rws, rFL, .any, 0⟩,  -- W_RK_MIN
  ⟨0x2110, 1, 16, 0x05, 1, .u16, .rws, rFL, (.span 0 128), 128⟩,  -- W_RK_MAX
  ⟨0x2110, 1, 16, 0x06, 1, .u16, .rws, rFL, (.span 1 65535), 4⟩,  -- W_MX_MIN
  ⟨0x2110, 1, 16, 0x07, 1, .u16, .rws, rFL, .any, 32⟩,  -- W_MX_MAX
  ⟨0x2110, 1, 16, 0x11, 1, .u16, .rws, rFL, (.span 768 1024), 768⟩,  -- R_FG_MIN
  ⟨0x2110, 1, 16, 0x12, 1, .u16, .rws, rFL, .any, 16⟩,  -- R_TG_MIN
  ⟨0x2110, 1, 16, 0x13, 1, .u16, .rws, rFL, .any, 128⟩,  -- R_TG_MAX
  ⟨0x2110, 1, 16, 0x14, 1, .u16, .rws, rFL, .any, 8⟩  -- R_SP_MIN
  ]

/-- Objects of indices 2100 and up, part 2. -/
def objs21p1 : List Obj := [
  ⟨0x2110, 1, 16, 0x15, 1, .u16, .rws, rFL, .any, 64⟩,  -- R_SP_MAX
  ⟨0x2110, 1, 16, 0x16, 1, .u16, .rws, rFL, .any, 0⟩,  -- R_RK_MIN
  ⟨0x2110, 1, 16, 0x17, 1, .u16, .rws, rFL, (.span 0 128), 128⟩,  -- R_RK_MAX
  ⟨0x2110, 1, 16, 0x18, 1, .u16, .rws, rFL, (.span 1 65535), 4⟩,  -- R_MX_MIN
  ⟨0x2110, 1, 16, 0x19, 1, .u16, .rws, rFL, .any, 32⟩,  -- R_MX_MAX
  ⟨0x2110, 1, 16, 0x20, 1, .bool, .rws, rFL, .any, 0⟩  -- PORT_SLOT_MAP_EN
  ]

/-- Objects of indices 2100 and up. -/
def objs21 : List Obj := objs21p0 ++ objs21p1

/-- Objects of indices 2200 and up, part 1. -/
def objs22 : List Obj := [
  ⟨0x2200, 0, 1, 0x01, 1, .u32, .ro, rFLD, .any, 0⟩,  -- CFG_GEN
  ⟨0x2200, 0, 1, 0x02, 1, .u8, .ro, rFLD, .any, 0⟩,  -- COMMIT_STATE
  ⟨0x2200, 0, 1, 0x03, 1, .u8, .ro, rFLD, .any, 0⟩,  -- STAGE_OWNER
  ⟨0x2200, 0, 1, 0x04, 1, .u64, .cmd, rL, .any, 0⟩,  -- COMMIT_REQ
  ⟨0x2200, 0, 1, 0x05, 1, .bool, .cmd, rL, .any, 0⟩,  -- ABORT_REQ
  ⟨0x2200, 0, 1, 0x06, 1, .u8, .rws, rFL, (.span 1 255), 16⟩,  -- COMMIT_DEFER_MAX
  ⟨0x2200, 0, 1, 0x07, 1, .u16, .rws, rFL, (.span 1 65535), 1536⟩,  -- STAGE_IDLE_SF
  ⟨0x2200, 0, 1, 0x08, 1, .u8, .ro, rFLD, .any, 0⟩,  -- DEFER_COUNT
  ⟨0x2200, 0, 1, 0x09, 1, .u64, .ro, rFLD, .any, 0⟩,  -- TARGET_FRAME
  ⟨0x2200, 0, 1, 0x0A, 1, .u64, .ro, rFLD, .any, 0⟩,  -- LAST_APPLY_FRAME
  ⟨0x2200, 0, 1, 0x0B, 1, .u64, .ro, rFLD, .any, 0⟩,  -- LAST_ABORT_OBJ
  ⟨0x2200, 0, 1, 0x10, 1, (.oct 32), .ro, rFLD, .any, 0⟩,  -- DIGEST
  ⟨0x2200, 0, 1, 0x11, 1, (.oct 32), .ro, rFLD, .any, 0⟩,  -- DIGEST_STAGED
  ⟨0x2200, 0, 1, 0x12, 1, (.oct 32), .ro, rFLD, .any, 0⟩,  -- DIGEST_CHECK
  ⟨0x2200, 0, 1, 0x13, 1, .u32, .ro, rFLD, .any, 0⟩,  -- SER_BYTES
  ⟨0x2200, 0, 1, 0x14, 1, .u32, .ro, rFLD, .any, 8⟩,  -- SER_BYTES_STAGED
  ⟨0x2200, 0, 1, 0x15, 1, .bool, .ro, rFLD, .any, 0⟩,  -- DIGEST_DRIFT
  ⟨0x2201, 0, 1, 0x01, 8, .u32, .ro, rFLD, .any, 0⟩,  -- MSG_SESSION
  ⟨0x2201, 0, 1, 0x11, 8, .u32, .ro, rFLD, .any, 0⟩,  -- MSG_LAST_SEQ
  ⟨0x2201, 0, 1, 0x20, 1, .u32, .ro, rFLD, .any, 0⟩,  -- MSG_AUTH_FAIL
  ⟨0x2201, 0, 1, 0x21, 1, .u32, .ro, rFLD, .any, 0⟩  -- MSG_REFUSED
  ]

/-- Objects of indices 2300 and up, part 1. -/
def objs23 : List Obj := [
  ⟨0x2300, 0, 1, 0x01, 1, .u16, .rws, rFL, .any, 16⟩,  -- RESUME_FRAMES
  ⟨0x2300, 0, 1, 0x02, 1, .u8, .ro, rFLD, .any, 0⟩,  -- PWR_STATE
  ⟨0x2300, 0, 1, 0x03, 1, .u8, .ro, rFLD, .any, 0⟩,  -- PREV_SHUTDOWN
  ⟨0x2300, 0, 1, 0x04, 1, .u32, .ro, rFLD, .any, 0⟩,  -- POWER_CYCLES
  ⟨0x2300, 0, 1, 0x05, 1, .u32, .ro, rFLD, .any, 0⟩,  -- IMAGE_GEN
  ⟨0x2300, 0, 1, 0x06, 1, .u16, .ro, rFLD, .any, 256⟩,  -- FMT_ENTRIES_FREE
  ⟨0x2300, 0, 1, 0x07, 1, .u8, .ro, rFLD, .any, 0⟩  -- NV_STATE
  ]

/-- Objects of indices 2400 and up, part 1. -/
def objs24 : List Obj := [
  ⟨0x2400, 0, 1, 0x01, 1, .u8, .rws, rFL, (.span 1 255), 4⟩,  -- ROW_CE_LIMIT
  ⟨0x2400, 0, 1, 0x02, 1, .u32, .rws, rFL, (.span 1024 16777216), 65536⟩,  -- ROW_CE_WINDOW
  ⟨0x2400, 0, 1, 0x03, 1, .bool, .rws, rFL, .any, 1⟩,  -- ROW_REPAIR_EN
  ⟨0x2400, 0, 1, 0x04, 1, .u8, .ro, rFLD, .any, 0⟩,  -- BIST_MODE_LAST
  ⟨0x2400, 0, 1, 0x05, 1, .u32, .ro, rFLD, .any, 0⟩,  -- BIST_RESULT
  ⟨0x2400, 0, 1, 0x06, 1, .u16, .ro, rFLD, .any, 0⟩,  -- REPAIR_LOG_USED
  ⟨0x2400, 0, 1, 0x07, 1, .u16, .ro, rFLD, .any, 0⟩,  -- LOG_IGNORED
  ⟨0x2400, 0, 1, 0x08, 1, .u8, .ro, rFLD, .any, 0⟩,  -- TOP_STATE
  ⟨0x2400, 0, 1, 0x09, 1, .u8, .ro, rFLD, .any, 255⟩,  -- TOP_PORT
  ⟨0x2400, 0, 1, 0x0A, 1, .u16, .ro, rFLD, .any, 0⟩,  -- DEGRADED_PORTS
  ⟨0x2400, 0, 1, 0x0B, 1, .u16, .ro, rFLD, .any, 0⟩,  -- UNSERVED_PORTS
  ⟨0x2400, 0, 1, 0x0C, 1, .u16, .ro, rFLD, .any, 0⟩,  -- FUSE_ROWS
  ⟨0x2400, 0, 1, 0x0D, 1, .u16, .ro, rFLD, .any, 0⟩,  -- SOFT_ROWS
  ⟨0x2400, 0, 1, 0x0E, 1, .u16, .ro, rFLD, .any, 0⟩,  -- BAD_ROWS
  ⟨0x2400, 0, 1, 0x0F, 1, .u32, .ro, rFLD, .any, 0⟩,  -- BAD_CELLS
  ⟨0x2400, 0, 1, 0x10, 1, .u8, .ro, rFLD, .any, 0⟩  -- ROW_REPAIRS_QUEUED
  ]

/-- Objects of indices 2500 and up, part 1. -/
def objs25 : List Obj := [
  ⟨0x2500, 0, 1, 0x01, 1, .u8, .rws, rFL, (.span 0 1), 0⟩,  -- RECORDER_MODE
  ⟨0x2500, 0, 1, 0x02, 1, .u16, .rws, rFL, (.span 16 4096), 256⟩,  -- RECORDER_KEEP
  ⟨0x2500, 0, 1, 0x03, 1, .bool, .cmd, rF, .any, 0⟩,  -- RECORDER_CLEAR
  ⟨0x2500, 0, 1, 0x04, 1, .u8, .rws, rFL, (.span 0 4), 2⟩,  -- ALERT_PIN_MIN
  ⟨0x2500, 0, 1, 0x05, 1, .u8, .ro, rFLD, .any, 0⟩,  -- ALERT_PENDING
  ⟨0x2500, 0, 1, 0x06, 1, .u8, .wo, rL, (.span 0 15), 0⟩,  -- ALERT_ACK
  ⟨0x2500, 0, 1, 0x07, 1, .u16, .ro, rFLD, .any, 0⟩,  -- BACKLOG_USED
  ⟨0x2500, 0, 1, 0x08, 1, .u32, .ro, rFLD, .any, 0⟩,  -- RECORDS_LOST
  ⟨0x2500, 0, 1, 0x09, 1, .u64, .ro, rFLD, .any, 0⟩,  -- RECORDS_WRITTEN
  ⟨0x2500, 0, 1, 0x0A, 1, .bool, .ro, rFLD, .any, 0⟩,  -- RECORDER_READY
  ⟨0x2500, 0, 1, 0x0B, 1, .u8, .ro, rFLD, .any, 0⟩  -- SUBSCRIBERS
  ]

/-- Objects of indices 3000 and up, part 1. -/
def objs30p0 : List Obj := [
  ⟨0x3008, 16, 128, 0x01, 1, .u16, .ro, rFLD, .any, 0⟩,  -- EQ_CELLS_HELD
  ⟨0x3008, 16, 128, 0x02, 1, .u16, .ro, rFLD, .any, 0⟩,  -- EQ_ITEMS
  ⟨0x3008, 16, 128, 0x03, 1, .u16, .ro, rFLD, .any, 0⟩,  -- EQ_RESETS
  ⟨0x3001, 16, 128, 0x01, 1, .u8, .ro, rFLD, .any, 0⟩,  -- LINK_STATE
  ⟨0x3001, 16, 128, 0x02, 1, .u8, .ro, rFLD, .any, 0⟩,  -- FEC_MODE
  ⟨0x3001, 16, 128, 0x03, 1, .u8, .ro, rFLD, .any, 0⟩,  -- LANE_RATE
  ⟨0x3001, 16, 128, 0x04, 1, .u64, .ro, rFLD, .any, 0⟩,  -- FEC_CORRECTED
  ⟨0x3001, 16, 128, 0x05, 1, .u32, .ro, rFLD, .any, 0⟩,  -- FEC_UNCORRECTABLE
  ⟨0x3001, 16, 128, 0x06, 1, .u32, .ro, rFLD, .any, 0⟩,  -- CRC_FAILS
  ⟨0x3001, 16, 128, 0x07, 1, .u32, .ro, rFLD, .any, 0⟩,  -- LOCK_LOSSES
  ⟨0x3001, 16, 128, 0x08, 1, .u32, .ro, rFLD, .any, 0⟩,  -- LINK_DOWNS
  ⟨0x3001, 16, 128, 0x09, 1, .u8, .ro, rFLD, .any, 0⟩,  -- LAST_DOWN_CAUSE
  ⟨0x3001, 16, 128, 0x0A, 1, .bool, .cmd, rFL, .any, 0⟩,  -- LINK_RESET
  ⟨0x3001, 16, 128, 0x0B, 1, .u32, .ro, rFLD, .any, 0⟩,  -- DATA_NOT_UP
  ⟨0x3002, 16, 128, 0x01, 1, .u16, .ro, rFLD, .any, 0⟩,  -- TX_NEXT_SEQ
  ⟨0x3002, 16, 128, 0x02, 1, .u8, .ro, rFLD, .any, 0⟩,  -- TX_HELD
  ⟨0x3002, 16, 128, 0x03, 1, .u16, .ro, rFLD, .any, 0⟩,  -- RX_EXPECTED
  ⟨0x3002, 16, 128, 0x04, 1, .u32, .ro, rFLD, .any, 0⟩,  -- NAKS_SENT
  ⟨0x3002, 16, 128, 0x05, 1, .u32, .ro, rFLD, .any, 0⟩,  -- NAKS_RECEIVED
  ⟨0x3002, 16, 128, 0x06, 1, .u32, .ro, rFLD, .any, 0⟩,  -- REPLAYS_TIMER
  ⟨0x3002, 16, 128, 0x07, 1, .u64, .ro, rFLD, .any, 0⟩,  -- FLITS_REPLAYED
  ⟨0x3002, 16, 128, 0x08, 1, .u32, .ro, rFLD, .any, 0⟩,  -- DUPLICATES
  ⟨0x3002, 16, 128, 0x09, 1, .u32, .ro, rFLD, .any, 0⟩,  -- STALL_FRAMES
  ⟨0x3002, 16, 128, 0x0A, 1, .u8, .ro, rFLD, .any, 0⟩,  -- NEG_DEPTH
  ⟨0x3002, 16, 128, 0x0B, 1, .u16, .ro, rFLD, .any, 0⟩,  -- NEG_T_ACK_NS
  ⟨0x3002, 16, 128, 0x0C, 1, .u32, .ro, rFLD, .any, 0⟩,  -- EFF_T_REPLAY_NS
  ⟨0x3000, 16, 128, 0x0F, 1, .u32, .ro, rFLD, .any, 0⟩,  -- LINK_GEN
  ⟨0x3003, 16, 128, 0x01, 1, .u8, .ro, rFLD, .any, 0⟩,  -- NEG_VERSION
  ⟨0x3003, 16, 128, 0x02, 1, .u8, .ro, rFLD, .any, 0⟩,  -- NEG_CLASSES
  ⟨0x3003, 16, 128, 0x03, 1, .u16, .ro, rFLD, .any, 0⟩  -- NEG_MAX_TAGS
  ]

/-- Objects of indices 3000 and up, part 2. -/
def objs30p1 : List Obj := [
  ⟨0x3003, 16, 128, 0x04, 1, .u16, .ro, rFLD, .any, 0⟩,  -- NEG_HB_US
  ⟨0x3003, 16, 128, 0x05, 1, .u64, .ro, rFLD, .any, 0⟩,  -- PEER_ID
  ⟨0x3003, 16, 128, 0x06, 1, (.oct 8), .ro, rFLD, .any, 0⟩,  -- PEER_DIGEST64
  ⟨0x3003, 16, 128, 0x07, 1, .u32, .ro, rFLD, .any, 0⟩,  -- PEER_CFG_GEN
  ⟨0x3003, 16, 128, 0x08, 1, .u32, .ro, rFLD, .any, 0⟩,  -- NEG_REFUSALS
  ⟨0x3003, 16, 128, 0x09, 1, .u8, .ro, rFLD, .any, 0⟩,  -- RESYNC_STATE
  ⟨0x3003, 16, 128, 0x0A, 1, .u16, .ro, rFLD, .any, 0⟩,  -- RESYNC_TAGS_LAST
  ⟨0x3003, 16, 128, 0x0B, 1, .u32, .ro, rFLD, .any, 0⟩,  -- HB_LOSSES
  ⟨0x3000, 16, 128, 0x01, 1, .u16, .ro, rFLD, .any, 0⟩,  -- PORT_SRC_BASE
  ⟨0x3000, 16, 128, 0x02, 1, .u16, .ro, rFLD, .any, 0⟩,  -- PORT_STREAMS
  ⟨0x3004, 16, 128, 0x01, 1, .u64, .ro, rFLD, .any, 0⟩,  -- REQS_ACCEPTED
  ⟨0x3004, 16, 128, 0x02, 1, .u32, .ro, rFLD, .any, 0⟩,  -- REQS_REFUSED
  ⟨0x3004, 16, 128, 0x03, 1, .u16, .ro, rFLD, .any, 0⟩,  -- TAGS_OUT
  ⟨0x3004, 16, 128, 0x04, 1, .u32, .ro, rFLD, .any, 0⟩,  -- GRANTS_SENT
  ⟨0x3004, 16, 128, 0x05, 1, .u64, .ro, rFLD, .any, 0⟩,  -- FLITS_RX
  ⟨0x3004, 16, 128, 0x06, 1, .u64, .ro, rFLD, .any, 0⟩  -- FLITS_TX
  ]

/-- Objects of indices 3000 and up. -/
def objs30 : List Obj := objs30p0 ++ objs30p1

/-- Objects of indices 3800 and up, part 1. -/
def objs38 : List Obj := [
  ⟨0x3808, 16, 16, 0x01, 1, .u8, .rw, rFL, .any, 0⟩,  -- IQ_FLUSH
  ⟨0x3808, 16, 16, 0x10, 8, .u16, .ro, rFLD, .any, 0⟩,  -- IQ_ITEMS
  ⟨0x3808, 16, 16, 0x20, 1, .u32, .ro, rFLD, .any, 0⟩,  -- IQ_ORPHANS
  ⟨0x3808, 16, 16, 0x21, 1, .u32, .ro, rFLD, .any, 0⟩,  -- IQ_FLUSHED
  ⟨0x3808, 16, 16, 0x22, 1, .u16, .ro, rFLD, .any, 0⟩,  -- IQ_RESETS
  ⟨0x3800, 16, 16, 0x01, 1, .u8, .ro, rFLD, .any, 0⟩,  -- MP_STATE
  ⟨0x3800, 16, 16, 0x02, 1, .bool, .cmd, rFL, .any, 0⟩,  -- MP_FLUSH
  ⟨0x3800, 16, 16, 0x03, 1, .u16, .ro, rFLD, .any, 0⟩,  -- MP_READS_OUT
  ⟨0x3800, 16, 16, 0x04, 1, .u16, .ro, rFLD, .any, 0⟩,  -- MP_WRITES_OUT
  ⟨0x3800, 16, 16, 0x05, 1, .u8, .ro, rFLD, .any, 0⟩,  -- MP_FIFO_W
  ⟨0x3800, 16, 16, 0x06, 1, .u8, .ro, rFLD, .any, 0⟩,  -- MP_FIFO_R
  ⟨0x3801, 16, 16, 0x01, 1, .u64, .ro, rFLD, .any, 0⟩,  -- MP_READ_OPS
  ⟨0x3801, 16, 16, 0x02, 1, .u64, .ro, rFLD, .any, 0⟩,  -- MP_WRITE_OPS
  ⟨0x3801, 16, 16, 0x03, 1, .u64, .ro, rFLD, .any, 0⟩,  -- MP_SIDECAR_OPS
  ⟨0x3801, 16, 16, 0x04, 1, .u32, .ro, rFLD, .any, 0⟩,  -- MP_POISONED
  ⟨0x3801, 16, 16, 0x05, 1, .u32, .ro, rFLD, .any, 0⟩,  -- MP_UNCORRECTABLE
  ⟨0x3801, 16, 16, 0x06, 1, .u32, .ro, rFLD, .any, 0⟩,  -- MP_XFER_ERRORS
  ⟨0x3801, 16, 16, 0x07, 1, .u32, .ro, rFLD, .any, 0⟩,  -- MP_TIMEOUTS
  ⟨0x3801, 16, 16, 0x08, 1, .u64, .ro, rFLD, .any, 0⟩,  -- MP_BUSY_SLOTS
  ⟨0x3801, 16, 16, 0x09, 1, .u64, .ro, rFLD, .any, 0⟩  -- MP_LAST_ERR_ADDR
  ]

/-- Objects of indices 3900 and up, part 1. -/
def objs39 : List Obj := [
  ⟨0x3900, 8, 17, 0x10, 1, .u32, .ro, rFLD, .any, 0⟩,  -- SCHK_RECOVERED
  ⟨0x3900, 8, 17, 0x11, 1, .u32, .ro, rFLD, .any, 0⟩,  -- SCHK_PERSISTENT
  ⟨0x3900, 8, 17, 0x12, 1, .u32, .ro, rFLD, .any, 0⟩,  -- SIDECAR_REJECTS
  ⟨0x3900, 8, 17, 0x13, 1, .u32, .ro, rFLD, .any, 0⟩,  -- VIRGIN_READS
  ⟨0x3900, 8, 17, 0x14, 1, .u16, .ro, rFLD, .any, 0⟩,  -- LAST_SCHK_PIPES
  ⟨0x3900, 8, 17, 0x01, 1, .u8, .ro, rFLD, .any, 0⟩,  -- SLICE_STATE
  ⟨0x3900, 8, 17, 0x02, 1, .u8, .ro, rFLD, .any, 0⟩,  -- SLICE_PORT
  ⟨0x3900, 8, 17, 0x03, 1, .u64, .ro, rFLD, .any, 654820258320⟩,  -- DUTY_MAP
  ⟨0x3900, 8, 17, 0x04, 1, .u8, .ro, rFLD, .any, 11⟩,  -- CHECKER_PIPE
  ⟨0x3900, 8, 17, 0x05, 1, .u8, .ro, rFLD, .any, 0⟩,  -- SHADOW_DUTY
  ⟨0x3900, 8, 17, 0x06, 1, .u32, .ro, rFLD, .any, 0⟩,  -- VOTES
  ⟨0x3900, 8, 17, 0x07, 1, .u32, .ro, rFLD, .any, 0⟩,  -- VOTES_CHECKER
  ⟨0x3900, 8, 17, 0x08, 1, .u16, .ro, rFLD, .any, 0⟩,  -- ABANDONED
  ⟨0x3901, 8, 17, 0x01, 12, .u8, .ro, rFLD, .any, 0⟩,  -- PIPE_STATE
  ⟨0x3901, 8, 17, 0x11, 12, .u16, .ro, rFLD, .any, 0⟩  -- PIPE_FAULTS
  ]

/-- Objects of indices 3A00 and up, part 1. -/
def objs3A : List Obj := [
  ⟨0x3A00, 8, 64, 0x01, 1, .u8, .ro, rFLD, .any, 0⟩,  -- CX_STATE
  ⟨0x3A00, 8, 64, 0x02, 1, .u16, .ro, rFLD, .any, 0⟩,  -- CX_SLOT
  ⟨0x3A00, 8, 64, 0x03, 1, .u8, .ro, rFLD, .any, 0⟩,  -- CX_CAUSE
  ⟨0x3A00, 8, 64, 0x04, 1, .u32, .ro, rFLD, .any, 0⟩,  -- CX_GEN
  ⟨0x3A00, 8, 64, 0x05, 1, .u64, .ro, rFLD, .any, 0⟩,  -- CX_BOUND
  ⟨0x3A00, 8, 64, 0x06, 1, .u64, .ro, rFLD, .any, 0⟩,  -- CX_CKPT
  ⟨0x3A00, 8, 64, 0x07, 1, .u8, .ro, rFLD, .any, 0⟩,  -- CX_AHEAD
  ⟨0x3A00, 8, 64, 0x08, 1, .u16, .rw, rFL, (.span 1 2048), 2048⟩,  -- CX_RATE
  ⟨0x3A00, 8, 64, 0x09, 1, .bool, .rw, rFL, .any, 0⟩,  -- CX_PAUSE
  ⟨0x3A00, 8, 64, 0x10, 1, .u64, .ro, rFLD, .any, 0⟩,  -- CX_WRITTEN
  ⟨0x3A00, 8, 64, 0x11, 1, .u64, .ro, rFLD, .any, 0⟩,  -- CX_SKIPPED
  ⟨0x3A00, 8, 64, 0x12, 1, .u32, .ro, rFLD, .any, 0⟩,  -- CX_LINE_FAULTS
  ⟨0x3A00, 8, 64, 0x13, 1, .u32, .ro, rFLD, .any, 0⟩,  -- CX_PULLS
  ⟨0x3A00, 8, 64, 0x14, 1, .u32, .ro, rFLD, .any, 0⟩,  -- CX_STALL_FRAMES
  ⟨0x3A00, 8, 64, 0x15, 1, .u64, .ro, rFLD, .any, 0⟩  -- CX_LEFT
  ]

/-- Objects of indices 4000 and up, part 1. -/
def objs40p0 : List Obj := [
  ⟨0x4000, 0, 1, 0x08, 1, .u64, .rws, rFL, (.span 0 1099511627775), 0⟩,  -- TAG_BASE
  ⟨0x4000, 0, 1, 0x09, 1, .bool, .ro, rFLD, .any, 0⟩,  -- HW_QUEUED
  ⟨0x4001, 0, 1, 0x01, 1, .bool, .rws, rFL, .any, 0⟩,  -- S_VALID
  ⟨0x4001, 0, 1, 0x02, 1, .u8, .rws, rFL, (.span 0 127), 0⟩,  -- S_PORT
  ⟨0x4001, 0, 1, 0x03, 1, .u16, .rws, rFL, (.span 0 4095), 0⟩,  -- S_SID
  ⟨0x4001, 0, 1, 0x04, 1, .u16, .rws, rFL, (.span 0 1023), 0⟩,  -- S_PRINCIPAL
  ⟨0x4001, 0, 1, 0x05, 1, .u8, .rws, rFL, (.span 0 7), 0⟩,  -- S_PRIORITY
  ⟨0x4002, 0, 1, 0x01, 1, .bool, .rws, rFL, .any, 0⟩,  -- P_VALID
  ⟨0x4002, 0, 1, 0x02, 1, .u8, .rws, rFL, (.span 0 3), 0⟩,  -- P_RAW
  ⟨0x4002, 0, 1, 0x03, 1, .bool, .rw, rFL, .any, 0⟩,  -- P_SUSPEND
  ⟨0x4002, 0, 1, 0x04, 1, .u16, .ro, rFLD, .any, 0⟩,  -- P_SLOTS
  ⟨0x4000, 0, 1, 0x01, 1, .u8, .ro, rFLD, .any, 0⟩,  -- STATE
  ⟨0x4000, 0, 1, 0x02, 1, .u16, .rws, rFL, (.span 0 1023), 0⟩,  -- PRINCIPAL
  ⟨0x4000, 0, 1, 0x03, 1, .u8, .rws, rFL, (.span 1 3), 2⟩,  -- CLASS
  ⟨0x4000, 0, 1, 0x04, 1, .u32, .ro, rFLD, .any, 0⟩,  -- CUR_GEN
  ⟨0x4000, 0, 1, 0x05, 1, .u8, .ro, rFLD, .any, 0⟩,  -- MAT
  ⟨0x4000, 0, 1, 0x06, 1, .u32, .ro, rFLD, .any, 0⟩,  -- KCV_A
  ⟨0x4000, 0, 1, 0x07, 1, .u32, .ro, rFLD, .any, 0⟩,  -- KCV_B
  ⟨0x4000, 0, 1, 0x0A, 1, .u8, .cmd, rFL, (.span 1 3), 0⟩,  -- SLOT_CMD
  ⟨0x4000, 0, 1, 0x0B, 1, .u8, .ro, rFLD, .any, 0⟩,  -- PRIOR_STATE
  ⟨0x4003, 0, 1, 0x01, 1, .u64, .rws, rFL, (.span 0 1099511627775), 0⟩,  -- E_BASE
  ⟨0x4003, 0, 1, 0x02, 1, .u64, .rws, rFL, (.span 0 1099511627775), 0⟩,  -- E_LIMIT
  ⟨0x4003, 0, 1, 0x03, 1, .bool, .rws, rFL, .any, 0⟩,  -- E_VALID
  ⟨0x4000, 0, 1, 0x0C, 1, .u8, .cmd, rFL, (.span 1 1), 0⟩,  -- REKEY_REQ
  ⟨0x4000, 0, 1, 0x0D, 1, .u8, .ro, rFLD, .any, 0⟩,  -- REKEY_PENDING
  ⟨0x4003, 0, 1, 0x04, 1, .u64, .ro, rFLD, .any, 0⟩,  -- E_FMT_MARK
  ⟨0x4001, 0, 1, 0x10, 1, .u16, .rws, rFL, (.span 6 16384), 64⟩,  -- S_WINDOW
  ⟨0x4001, 0, 1, 0x11, 1, .u16, .ro, rFLD, .any, 0⟩,  -- S_GRANTED
  ⟨0x4001, 0, 1, 0x12, 1, .u16, .ro, rFLD, .any, 0⟩,  -- S_RECEIVED
  ⟨0x4001, 0, 1, 0x13, 1, .u16, .ro, rFLD, .any, 0⟩  -- S_HELD
  ]

/-- Objects of indices 4000 and up, part 2. -/
def objs40p1 : List Obj := [
  ⟨0x4001, 0, 1, 0x14, 1, .u16, .ro, rFLD, .any, 0⟩,  -- S_RETURNED
  ⟨0x4001, 0, 1, 0x15, 1, .u16, .ro, rFLD, .any, 0⟩,  -- S_OVERRUNS
  ⟨0x4004, 0, 1, 0x01, 1, .bool, .rws, rFL, .any, 0⟩,  -- SRC_MASK
  ⟨0x4004, 0, 1, 0x02, 1, .u8, .rws, rFL, (.span 0 3), 0⟩,  -- SRC_SEV_FLOOR
  ⟨0x4004, 0, 1, 0x03, 1, .bool, .rws, rFL, .any, 1⟩,  -- SRC_REC_EN
  ⟨0x4004, 0, 1, 0x04, 1, .u8, .rws, rFL, (.oneOf [0, 1, 2, 3, 254, 255]), 254⟩,  -- SRC_ROUTE
  ⟨0x4004, 0, 1, 0x10, 1, .u8, .rw, rFL, (.span 0 0), 0⟩,  -- SRC_STATUS
  ⟨0x4004, 0, 1, 0x11, 1, .u32, .ro, rFLD, .any, 0⟩,  -- SRC_COUNT
  ⟨0x4004, 0, 1, 0x12, 1, .u16, .ro, rFLD, .any, 0⟩,  -- SRC_LAST_CODE
  ⟨0x4004, 0, 1, 0x13, 1, .u64, .ro, rFLD, .any, 0⟩  -- SRC_LAST_FRAME
  ]

/-- Objects of indices 4000 and up. -/
def objs40 : List Obj := objs40p0 ++ objs40p1

/-- Objects of indices 5000 and up, part 1. -/
def objs50 : List Obj := [
  ⟨0x5000, 0, 1, 0x01, 1, .u8, .rws, rFL, (.span 0 15), 0⟩,  -- G_DEBUG
  ⟨0x5000, 0, 1, 0x02, 4, .u8, .rws, rFL, (.span 0 15), 12⟩,  -- G_DMA0
  ⟨0x5010, 0, 1, 0x01, 1, .bool, .ro, rFLD, .any, 0⟩,  -- DEBUG_LOCK
  ⟨0x5010, 0, 1, 0x02, 1, .u8, .rws, rFL, (.span 0 7), 0⟩,  -- PRIO_DEBUG
  ⟨0x5010, 0, 1, 0x03, 4, .u8, .rws, rFL, (.span 0 7), 1⟩,  -- PRIO_DMA0
  ⟨0x5010, 0, 1, 0x07, 1, .u8, .cmd, rFL, (.span 0 31), 0⟩  -- MASTER_RESET
  ]

/-- Objects of indices 6000 and up, part 1. -/
def objs60p0 : List Obj := [
  ⟨0x6040, 0, 1, 0x01, 1, .u64, .ro, rFLD, .any, 0⟩,  -- TAG_HITS
  ⟨0x6040, 0, 1, 0x02, 1, .u64, .ro, rFLD, .any, 0⟩,  -- TAG_FETCHES
  ⟨0x6040, 0, 1, 0x03, 1, .u64, .ro, rFLD, .any, 0⟩,  -- TAG_WRITEBACKS
  ⟨0x6040, 0, 1, 0x04, 1, .u32, .ro, rFLD, .any, 0⟩,  -- TAG_DIRTY_NOW
  ⟨0x6040, 0, 1, 0x05, 1, .u32, .ro, rFLD, .any, 0⟩,  -- TAG_FAIL_TOTAL
  ⟨0x6040, 0, 1, 0x06, 1, .u32, .ro, rFLD, .any, 0⟩,  -- TORN_TAG_TOTAL
  ⟨0x6040, 0, 1, 0x07, 1, .u32, .ro, rFLD, .any, 0⟩,  -- TAGLINE_FAULTS
  ⟨0x6040, 0, 1, 0x08, 1, .u32, .ro, rFLD, .any, 0⟩,  -- TAGCACHE_CE
  ⟨0x6050, 0, 1, 0x01, 1, .u64, .ro, rFLD, .any, 0⟩,  -- READ_HITS
  ⟨0x6050, 0, 1, 0x02, 1, .u64, .ro, rFLD, .any, 0⟩,  -- READ_MISSES
  ⟨0x6050, 0, 1, 0x03, 1, .u64, .ro, rFLD, .any, 0⟩,  -- WRITE_HITS
  ⟨0x6050, 0, 1, 0x04, 1, .u64, .ro, rFLD, .any, 0⟩,  -- WRITE_MISSES
  ⟨0x6050, 0, 1, 0x05, 1, .u64, .ro, rFLD, .any, 0⟩,  -- MISPREDICTS
  ⟨0x6050, 0, 1, 0x06, 1, .u64, .ro, rFLD, .any, 0⟩,  -- PROBES
  ⟨0x6050, 0, 1, 0x07, 1, .u64, .ro, rFLD, .any, 0⟩,  -- LOOKAHEAD_PROBES
  ⟨0x6050, 0, 1, 0x08, 1, .u32, .ro, rFLD, .any, 0⟩,  -- LOOKAHEAD_DROPPED
  ⟨0x6050, 0, 1, 0x09, 1, .u32, .ro, rFLD, .any, 0⟩,  -- JACK_PE
  ⟨0x6050, 0, 1, 0x0A, 1, .u32, .ro, rFLD, .any, 0⟩,  -- REGRESSIONS
  ⟨0x6050, 0, 1, 0x0B, 1, .u32, .ro, rFLD, .any, 0⟩,  -- SPENT_WRITES
  ⟨0x6060, 0, 1, 0x01, 1, .u32, .ro, rFLD, .any, 0⟩,  -- KP_LOADS
  ⟨0x6060, 0, 1, 0x02, 1, .u32, .ro, rFLD, .any, 0⟩,  -- KP_REFUSED
  ⟨0x6060, 0, 1, 0x03, 1, .u32, .ro, rFLD, .any, 0⟩,  -- ZEROIZE_COUNT
  ⟨0x6060, 0, 1, 0x04, 1, .u32, .ro, rFLD, .any, 0⟩,  -- ZEROIZE_GLITCHES
  ⟨0x6060, 0, 1, 0x05, 1, .u32, .ro, rFLD, .any, 0⟩,  -- ZEROIZE_DISCARDS
  ⟨0x6060, 0, 1, 0x06, 1, .u32, .ro, rFLD, .any, 0⟩,  -- KEYSTORE_CE
  ⟨0x6080, 0, 1, 0x01, 1, .u64, .ro, rFLD, .any, 0⟩,  -- PARTIAL_MERGED
  ⟨0x6080, 0, 1, 0x02, 1, .u32, .ro, rFLD, .any, 0⟩,  -- PARTIAL_REFUSED
  ⟨0x6080, 0, 1, 0x03, 1, .u64, .ro, rFLD, .any, 0⟩,  -- FENCES
  ⟨0x6080, 0, 1, 0x04, 1, .u32, .ro, rFLD, .any, 0⟩,  -- COMMIT_HOLDS
  ⟨0x6080, 0, 1, 0x05, 1, .u32, .ro, rFLD, .any, 0⟩  -- SLOT_ERRORS
  ]

/-- Objects of indices 6000 and up, part 2. -/
def objs60p1 : List Obj := [
  ⟨0x6080, 0, 1, 0x06, 1, .u32, .ro, rFLD, .any, 0⟩,  -- RAW_POISONED
  ⟨0x6080, 0, 1, 0x07, 1, .u16, .ro, rFLD, .any, 0⟩,  -- MERGER_BUSY_NOW
  ⟨0x6090, 0, 1, 0x01, 1, .u64, .ro, rFLD, .any, 0⟩,  -- POISON_WORDS
  ⟨0x6090, 0, 1, 0x02, 1, .u32, .ro, rFLD, .any, 0⟩,  -- HDR_UNREADABLE
  ⟨0x6090, 0, 1, 0x03, 1, .u32, .ro, rFLD, .any, 0⟩,  -- Q_PTR_MISMATCHES
  ⟨0x6090, 0, 1, 0x04, 1, .u32, .ro, rFLD, .any, 0⟩,  -- LINK_MEM_SPLIT
  ⟨0x60A0, 0, 1, 0x01, 1, .u16, .ro, rFLD, .any, 0⟩,  -- CLOSING_ACCOUNTS
  ⟨0x6000, 0, 1, 0x01, 1, .u64, .ro, rFLD, .any, 0⟩,  -- SF_READ_LINES
  ⟨0x6000, 0, 1, 0x02, 1, .u64, .ro, rFLD, .any, 0⟩,  -- SF_WRITE_LINES
  ⟨0x6000, 0, 1, 0x03, 1, .u32, .ro, rFLD, .any, 0⟩,  -- SF_PARTIALS
  ⟨0x6000, 0, 1, 0x04, 1, .u32, .ro, rFLD, .any, 0⟩,  -- SF_REFUSED
  ⟨0x6000, 0, 1, 0x05, 1, .u32, .ro, rFLD, .any, 0⟩,  -- SF_TAG_FAILS
  ⟨0x6000, 0, 1, 0x06, 1, .u32, .ro, rFLD, .any, 0⟩,  -- SF_SCHK_FAULTS
  ⟨0x6000, 0, 1, 0x07, 1, .u64, .ro, rFLD, .any, 0⟩,  -- SF_FEC_CORRECTED
  ⟨0x6000, 0, 1, 0x08, 1, .u32, .ro, rFLD, .any, 0⟩,  -- SF_LINK_DOWNS
  ⟨0x6000, 0, 1, 0x09, 1, .u64, .ro, rFLD, .any, 0⟩,  -- SF_REKEY_LINES
  ⟨0x6000, 0, 1, 0x11, 1, .u64, .ro, rFLD, .any, 0⟩,  -- SF_READ_LINES last
  ⟨0x6000, 0, 1, 0x12, 1, .u64, .ro, rFLD, .any, 0⟩,  -- SF_WRITE_LINES last
  ⟨0x6000, 0, 1, 0x13, 1, .u32, .ro, rFLD, .any, 0⟩,  -- SF_PARTIALS last
  ⟨0x6000, 0, 1, 0x14, 1, .u32, .ro, rFLD, .any, 0⟩,  -- SF_REFUSED last
  ⟨0x6000, 0, 1, 0x15, 1, .u32, .ro, rFLD, .any, 0⟩,  -- SF_TAG_FAILS last
  ⟨0x6000, 0, 1, 0x16, 1, .u32, .ro, rFLD, .any, 0⟩,  -- SF_SCHK_FAULTS last
  ⟨0x6000, 0, 1, 0x17, 1, .u64, .ro, rFLD, .any, 0⟩,  -- SF_FEC_CORRECTED last
  ⟨0x6000, 0, 1, 0x18, 1, .u32, .ro, rFLD, .any, 0⟩,  -- SF_LINK_DOWNS last
  ⟨0x6000, 0, 1, 0x19, 1, .u64, .ro, rFLD, .any, 0⟩  -- SF_REKEY_LINES last
  ]

/-- Objects of indices 6000 and up. -/
def objs60 : List Obj := objs60p0 ++ objs60p1

/-- Objects of indices 6100 and up, part 1. -/
def objs61 : List Obj := [
  ⟨0x6100, 1, 16, 0x01, 13, .u16, .ro, rFLD, .any, 0⟩,  -- SLOTS_LAST_FRAME
  ⟨0x6100, 1, 16, 0x10, 1, .u32, .ro, rFLD, .any, 0⟩  -- GRANT_LATE_FRAMES
  ]

/-- Objects of indices 6300 and up, part 1. -/
def objs63 : List Obj := [
  ⟨0x6300, 0, 1, 0x01, 1, .u32, .ro, rFLD, .any, 0⟩,  -- WARN_GLITCHES
  ⟨0x6300, 0, 1, 0x02, 1, .u32, .ro, rFLD, .any, 0⟩,  -- LAST_DRAIN_CYCLES
  ⟨0x6300, 0, 1, 0x03, 1, .u32, .ro, rFLD, .any, 0⟩,  -- DRAIN_WRITES
  ⟨0x6300, 0, 1, 0x04, 1, .u64, .ro, rFLD, .any, 0⟩,  -- NV_COMMITS
  ⟨0x6300, 0, 1, 0x05, 1, .u32, .ro, rFLD, .any, 0⟩,  -- NV_RETRIES
  ⟨0x6300, 0, 1, 0x06, 1, .u32, .ro, rFLD, .any, 0⟩,  -- NV_IRREGULAR
  ⟨0x6300, 0, 1, 0x07, 1, .u32, .ro, rFLD, .any, 0⟩  -- RECOVERY_US
  ]

/-- The object rows that may cover an index, by its high byte. -/
def objTable (hi : Nat) : List Obj :=
  match hi with
  | 0x10 => objs10
  | 0x20 => objs20
  | 0x21 => objs21
  | 0x22 => objs22
  | 0x23 => objs23
  | 0x24 => objs24
  | 0x25 => objs25
  | 0x30 => objs30
  | 0x31 => objs30
  | 0x32 => objs30
  | 0x33 => objs30
  | 0x34 => objs30
  | 0x35 => objs30
  | 0x36 => objs30
  | 0x37 => objs30
  | 0x38 => objs38
  | 0x39 => objs39
  | 0x3A => objs3A
  | 0x3B => objs3A
  | 0x40 => objs40
  | 0x50 => objs50
  | 0x60 => objs60
  | 0x61 => objs61
  | 0x63 => objs63
  | _ => []

/-- True when an object row covers an index and subindex. -/
def Obj.covers (o : Obj) (idx sub : Nat) : Bool :=
  decide (o.sub ≤ sub ∧ sub < o.sub + o.subs) &&
    (if o.stride = 0 then decide (idx = o.idx)
     else decide (o.idx ≤ idx ∧ (idx - o.idx) % o.stride = 0 ∧ (idx - o.idx) / o.stride < o.inst))

/-- The object at an index and subindex, if the manual lists one (R339). -/
def objFind (idx sub : Nat) : Option Obj := (objTable (idx / 256)).find? (fun o => o.covers idx sub)

/-- Width in bytes in messages and in the serialisation (Table 15.1). -/
def ObjTy.width (t : ObjTy) : Nat :=
  match t with
  | .bool => 1
  | .u8 => 1
  | .u16 => 2
  | .u32 => 4
  | .w36 => 5
  | .u64 => 8
  | .oct n => n
  | .text n => n

/-- Words in the local window (Table 15.1). -/
def ObjTy.words (t : ObjTy) : Nat := (t.width + 3) / 4

/-- Type code of the serialisation (Table 15.1). -/
def ObjTy.code (t : ObjTy) : Nat :=
  match t with
  | .bool => 1
  | .u8 => 2
  | .u16 => 3
  | .u32 => 4
  | .w36 => 5
  | .u64 => 6
  | .oct _ => 7
  | .text _ => 8

/-- Values that the type itself holds (Table 15.1). -/
def ObjTy.bound (t : ObjTy) : Nat :=
  match t with
  | .bool => 2
  | .w36 => 2 ^ 36
  | _ => 2 ^ (8 * t.width)

/-- The range check of a single object (R310). -/
def Obj.admits (o : Obj) (v : Nat) : Bool :=
  decide (v < o.ty.bound) &&
    (match o.range with
     | .any => true
     | .span lo hi => decide (lo ≤ v ∧ v ≤ hi)
     | .oneOf l => l.contains v)

/-- Rows of a table object, 0 for an index that is no table (Table 16.1). -/
def tableRows (idx : Nat) : Nat :=
  match idx with
  | 0x4000 => 32768
  | 0x4001 => 16384
  | 0x4002 => 1024
  | 0x4003 => 131072
  | 0x4004 => 1124
  | 0x5000 => 32768
  | _ => 0

/-- The default of an object; the override maps copy the default map (Table 02.7). -/
def objDefault (idx sub : Nat) : Nat :=
  match objFind idx sub with
  | some o => o.dflt
  | none => 0

/-- The number under which a store holds an object's value: index, subindex, row. -/
def okey (idx sub row : Nat) : Nat := (idx * 256 + sub) * 16777216 + row

/-- The index of a store number. -/
def okeyIdx (k : Nat) : Nat := k / 4294967296
/-- The subindex of a store number. -/
def okeySub (k : Nat) : Nat := k / 16777216 % 256
/-- The row of a store number. -/
def okeyRow (k : Nat) : Nat := k % 16777216

/-- The subsystem of Table 01.1 that keeps an RWS object (R328, Table 16.2). -/
def objUnit (idx sub : Nat) : Nat :=
  if idx = 0x2000 ∨ idx = 0x20B0 then 14
  else if idx = 0x2040 then 9
  else if idx = 0x2050 then 10
  else if idx = 0x2080 then 5
  else if idx = 0x2090 then (if sub = 1 ∨ sub = 6 then 1 else 2)
  else if idx = 0x20A0 then 3
  else if 0x2101 ≤ idx ∧ idx < 0x2120 then 6
  else if idx = 0x2200 then 18
  else if idx = 0x2300 then 15
  else if idx = 0x2400 then 16
  else if idx = 0x2500 ∨ idx = 0x4004 then 19
  else if idx = 0x4001 then 4
  else if idx = 0x5000 then 11
  else if idx = 0x5010 then 20
  else if idx = 0x4000 ∧ sub = 8 then 9
  else 11

/-- The indices that hold RWS objects, rising (R338). -/
def fleetIndices : List Nat :=
  [0x2000, 0x2040, 0x2050, 0x2080, 0x2090, 0x20A0, 0x20B0, 0x2101] ++ (List.range 16).map (fun m => 0x2110 + m) ++
    [0x2200, 0x2300, 0x2400, 0x2500, 0x4000, 0x4001, 0x4002, 0x4003, 0x4004, 0x5000, 0x5010]

/-- The RWS subindices of an index, rising (R338). -/
def fleetSubs (idx : Nat) : List Nat :=
  (List.range 0x41).filter (fun sub =>
    match objFind idx sub with
    | some o => decide (o.acc = .rws)
    | none => false)

end Sys2Proof.Machine
end

