-- ==== Sys2Proof/Machine/Tab.lean ====
section
/-! DEFINITION. Sparse tables: sorted lists of (number, value) in which a number that is not listed has the
table's default. Tables of slots, streams, ports, Jack entries and NV bytes are held in this form. -/

namespace Sys2Proof.Machine

/-- A sparse table by number. -/
abbrev Tab (α : Type) := List (Nat × α)

/-- The value at `i`, or the default `d` when `i` is not listed. -/
def tabGet {α : Type} (d : α) : Tab α → Nat → α
  | [], _ => d
  | (k, v) :: t, i => if i = k then v else tabGet d t i

/-- The listed value at `i`, if any. -/
def tabFind {α : Type} : Tab α → Nat → Option α
  | [], _ => none
  | (k, v) :: t, i => if i = k then some v else tabFind t i

/-- Set the listed value at `i`, whatever it is. -/
def tabSet {α : Type} : Tab α → Nat → α → Tab α
  | [], i, v => [(i, v)]
  | (k, w) :: t, i, v =>
    if i < k then (i, v) :: (k, w) :: t
    else if i = k then (k, v) :: t
    else (k, w) :: tabSet t i v

/-- Remove the listed value at `i`. -/
def tabDel {α : Type} (t : Tab α) (i : Nat) : Tab α := t.filter (fun e => decide (e.1 ≠ i))

/-- Put `v` at `i`, keeping numbers rising and listing no default. -/
def tabPut {α : Type} [DecidableEq α] (d : α) (t : Tab α) (i : Nat) (v : α) : Tab α :=
  if v = d then tabDel t i else tabSet t i v

/-- Numbers strictly rise, and each exceeds `lo` when `lo` is given. -/
def tabRisingFrom {α : Type} : Option Nat → Tab α → Bool
  | _, [] => true
  | lo, (k, _) :: t =>
    (match lo with
      | none => true
      | some l => decide (l < k)) && tabRisingFrom (some k) t

/-- Canonical form: numbers strictly rise and no entry holds the default. -/
def tabWf {α : Type} [DecidableEq α] (d : α) (t : Tab α) : Bool :=
  tabRisingFrom none t && t.all (fun e => decide (e.2 ≠ d))

end Sys2Proof.Machine
end

