-- ==== Sys2Proof/Machine/State.lean ====
section
/-! DEFINITION. The state of the block: everything the manual gives it, as plain data, and the state right after
reset. -/

namespace Sys2Proof.Machine

/-- The reasons for which a command would stop the block: the manual gives every command an effect, so there is none.
Nothing raises it; safe. -/
inductive Fault where
  /-- Raised by no command; safe. -/
  | none
deriving DecidableEq, Repr

/-- The reasons for which a command is refused by the model. -/
inductive Refusal where
  /-- A command whose meaning is not written yet, by its mnemonic; raised by the arms of Dispatch only; safe. -/
  | notModelled (mnemonic : String)
deriving DecidableEq, Repr

-- Clock and pins

/-- The frame and the cycle within it (R28, R29); `running` is false while a reset is asserted (R376). -/
structure Clk where
  running : Bool := true
  frame : BitVec 56 := 0
  cycle : Nat := 0
deriving DecidableEq, Repr

/-- Output pins (R370, R374); fault_n is held as "driven low". -/
structure Pins where
  pinOe : Bool := false
  persistOk : Bool := false
  zeroized : Bool := false
  faultLow : Bool := false
deriving DecidableEq, Repr

-- Dictionary

/-- The registers of one window class L or D: wide buffer, view, window error, row selects (R312, R313). -/
structure WinClass where
  wide : Tab (BitVec 32) := []
  view : BitVec 8 := 0
  err : BitVec 32 := 0
  rowSel : Tab (BitVec 32) := []
deriving DecidableEq, Repr

/-- States of a commit (Table 15.6). -/
inductive CommitPhase where
  | idle
  | staging
  | preparing
  | pending
deriving DecidableEq, Repr

/-- What the sample of cycle 1,020 decided for the next strobe (R325). -/
inductive CommitDecision where
  | none
  | apply
deriving DecidableEq, Repr

/-- The commit and consistency unit (R319 to R334). -/
structure Commit where
  phase : CommitPhase := .idle
  owner : Nat := 0
  ownerSeen : Nat := 0
  breakable : Bool := false
  cause : Nat := 0
  deferCount : Nat := 0
  named : Nat := 0
  target : Nat := 0
  decided : CommitDecision := .none
  reply : Option MsgHdr := none
  copyBack : Tab Nat := []
  lastApply : Nat := 0
  lastAbortObj : Nat := 0
  digest : BitVec 256 := 0
  digestStaged : BitVec 256 := 0
  digestCheck : BitVec 256 := 0
  drift : Bool := false
  published : Bool := false
  refresh : Bool := false
  digestInSf : Bool := false
  serBytes : Nat := 0
deriving DecidableEq, Repr

/-- A message that the dictionary endpoint sends: endpoint, operation byte, key index, result, SEQ, SESSION, CFG_GEN
and body, with its CMAC (R315, R316). -/
structure MsgOut where
  eid : Byte
  op : Byte
  mki : Byte
  result : Byte
  seq : BitVec 32
  session : BitVec 32
  cfgGen : BitVec 32
  body : List Byte
  cmac : Block
deriving DecidableEq, Repr

/-- A window access's answer: lw_err and lw_rdata (R368). -/
structure WinOut where
  err : Bool
  value : BitVec 32
deriving DecidableEq, Repr

-- Events

/-- An event record or control record (Table 17.2). -/
structure EvRec where
  code : Nat
  sat : Bool := false
  mixed : Bool := false
  sev : Nat := 0
  source : Nat
  count : Nat := 0
  frame : Nat
  p1 : BitVec 32
  p2 : BitVec 32
  p3 : BitVec 32
deriving DecidableEq, Repr

/-- One source's open accumulator of a frame (R351), with the cycle of the occurrence that it keeps. -/
structure EvAcc where
  code : Nat
  sev : Nat
  cycle : Nat
  count : Nat
  mixed : Bool
  p1 : BitVec 32
  p2 : BitVec 32
  p3 : BitVec 32
deriving DecidableEq, Repr

/-- A count "in the frame" that waits for cycle 1,023 (R391): the count and the other parameters. -/
structure FrameSum where
  count : Nat := 0
  a : Nat := 0
  b : Nat := 0
  c : Nat := 0
deriving DecidableEq, Repr

/-- A subscription under one management key (R318, R359). -/
structure Subscr where
  minSev : Nat
  first : Nat
  last : Nat
  eid : Byte
  seq : BitVec 32 := 0
  queue : List EvRec := []
  dropped : Nat := 0
deriving DecidableEq, Repr

/-- The event unit; `ended` says that cycle 1,023 of this frame has been closed (R49, R391). -/
structure EvUnit where
  acc : Tab EvAcc := []
  lastAt : Tab Nat := []
  sums : Tab FrameSum := []
  backlog : List EvRec := []
  ctlWait : List EvRec := []
  lostNow : Nat := 0
  lostFirst : Option (Nat × Nat) := none
  lostCaptured : Bool := false
  subs : Tab Subscr := []
  modeSent : Bool := false
  clearing : Option (BitVec 32 × BitVec 32 × BitVec 32) := none
  recTx : Option EvRec := none
  ended : Bool := false
deriving DecidableEq, Repr

/-- A management session of MKk: loads counted since reset and the last SEQ accepted (R317). -/
structure Session where
  loads : BitVec 16 := 0
  lastSeq : BitVec 32 := 0
deriving DecidableEq, Repr

-- Key store

/-- Slot states (Table 06.2). -/
inductive SlotSt where
  | empty
  | loaded
  | active
  | rotating
  | retiring
  | spent
  | zeroized
deriving DecidableEq, Repr

/-- A material register that holds material: the key, and the frame from which it is usable (R130). -/
structure Mat where
  key : Key
  usable : Nat
deriving DecidableEq, Repr

/-- A key slot (Table 06.2, R123, R125). `restored` marks a recorded slot none of whose material has been present
since the start (R284). -/
structure Slot where
  st : SlotSt := .empty
  prior : SlotSt := .empty
  gen : BitVec 32 := 0
  two : Bool := false
  newInB : Bool := false
  matA : Option Mat := none
  matB : Option Mat := none
  kcvA : BitVec 24 := 0
  kcvB : BitVec 24 := 0
  kcvABad : Bool := false
  kcvBBad : Bool := false
  asel : Bool := false
  brec : Bool := false
  restored : Bool := false
  hwQueued : Bool := false
  hwNoted : Option (BitVec 32) := none
  promoted : Bool := false
  spentDue : Bool := false
  rowBad : Bool := false
deriving DecidableEq, Repr

/-- Phases of the zeroization input (ZEROIZE_STATE, R138, R139). `lowQual` is true while the input is qualified low. -/
structure Zeroize where
  lowQual : Bool := false
  erasing : Bool := false
  erased : Bool := false
  returned : Option Nat := none
  discards : Nat := 0
  slotsErased : Nat := 0
  drainRan : Bool := false
deriving DecidableEq, Repr

/-- A key-port response (Table 06.7). -/
structure KpRsp where
  opc : Byte
  seq : Byte
  result : Byte
  kcv : BitVec 24
deriving DecidableEq, Repr

/-- The last command that the key port performed, with its cycle, the slot and the level of zeroized before it: what its
abort by a zeroization restores (R388, R140). -/
structure KpLast where
  cyc : Nat
  cmd : KpCmd
  slot : Slot
  high : Bool
deriving DecidableEq, Repr

/-- The key store and key ingest (Table 01.1 row 11). -/
structure KeyStore where
  kek : Option Key := none
  mks : Tab Key := []
  slots : Tab Slot := []
  zer : Zeroize := {}
  kpRsp : Option KpRsp := none
  kpLast : Option KpLast := none
  eraseNext : List Nat := []
  debugLock : Bool := false
deriving DecidableEq, Repr

-- NV store agent

/-- A record as the persistence agent queues it; it is encoded when its page is presented (R279, R281). -/
inductive NvRec where
  | session (shutdown : Nat)
  | ckpt (c cause kidx st : Nat) (two : Bool) (gen bound : Nat)
  | fmt (j kidx ext mark : Nat)
  | slot (kidx st : Nat) (brec asel : Bool) (gen : Nat)
  | kcv (kidx place : Nat) (v : BitVec 24)
  | rlog (addr : Nat) (body : List Byte)
  | image (page : Nat)
deriving DecidableEq, Repr

/-- What a confirmed change does, at the next frame strobe unless its meaning says otherwise (R125). -/
inductive NvAct where
  | none
  | activate (kidx : Nat)
  | rotate (kidx : Nat)
  | retire (kidx : Nat)
  | spent (kidx : Nat)
  | passStart (c : Nat)
  | ckpt (c bound : Nat)
  | passDone (c : Nat)
  | fmtEntry (kidx : Nat)
  | sessionClean
  | sessionRun
  | imageDone
deriving DecidableEq, Repr

/-- A change of one or more records in order (Table 13.12). `own` marks the drain's own records (Table 13.1). -/
structure NvJob where
  recs : List NvRec
  act : NvAct
  own : Bool := false
deriving DecidableEq, Repr

/-- The page commit in progress: page address, bytes loaded as (offset, byte), changes whose next record is in it,
presentations so far, and whether its read-back has started. -/
structure NvPage where
  addr : Nat
  data : List (Nat × Byte)
  jobs : List NvJob
  tries : Nat := 1
  reading : Bool := false
deriving DecidableEq, Repr

/-- The configuration image being written: its bytes and the next page. -/
structure ImageJob where
  gen : Nat
  base : Nat
  bytes : List Byte
  page : Nat
deriving DecidableEq, Repr

/-- The persistence agent's ends of the NV store. `acts` take effect at the next frame strobe. -/
structure NvUnit where
  jobs : List NvJob := []
  held : List NvJob := []
  failed : List NvJob := []
  page : Option NvPage := none
  image : Option ImageJob := none
  acts : List NvAct := []
  fmtSlots : Tab Nat := []
  powerCycles : Nat := 0
  prevShutdown : Nat := 0
deriving DecidableEq, Repr

-- Power and start-up

/-- Start-up stages (Table 13.13). -/
inductive StartStage where
  | fuse
  | bist
  | recovery
  | served
deriving DecidableEq, Repr

/-- Power phase: drain and parking (R267 to R275). -/
inductive PwrPhase where
  | service
  | draining
  | parked
deriving DecidableEq, Repr

/-- The persistence agent's power state. -/
structure Pwr where
  stage : StartStage := .fuse
  phase : PwrPhase := .service
  imageDue : Option Nat := none
  bistShort : Bool := false
  returned : Option Nat := none
  qualAt : Nat := 0
  parkedAt : Nat := 0
  late : Bool := false
  sessionQueued : Bool := false
  sessionDone : Bool := false
  holdWrites : Bool := false
  interrupted : Bool := false
  drainWrites : Nat := 0
deriving DecidableEq, Repr

-- Rekey engine

/-- CX_STATE (Table 07.7). -/
inductive CxSt where
  | free
  | starting
  | running
  | suspended
  | completing
deriving DecidableEq, Repr

/-- Where a taken line's step stands: taken, read granted, read and decided to write, or written and not persisted. -/
inductive StepSt where
  | taken
  | reading
  | decided
  | written
deriving DecidableEq, Repr

/-- A taken line or the step of an ahead-set entry; `sl` is the slice of its last grant (R302). -/
structure StepLine where
  addr : Nat
  st : StepSt := .taken
  ahead : Bool := false
  port : Nat := 0
  data : Line := 0
  poison : Bool := false
  side : Side := 0
  sl : Nat := 0
deriving DecidableEq, Repr

/-- An ahead-set entry (R149). -/
structure AheadEnt where
  addr : Nat
  isDone : Bool := false
deriving DecidableEq, Repr

/-- A rekey context. A boundary of 2^40 stands for END (R146); `marks` holds, by extent, the format marks at the start
of a format pass, `band` the boundary that the context last resumed from, `drainLow` the lowest line that a drain
abandoned and `drainCk` that the drain's checkpoint is queued; `tagOwed` holds, by tag line, the last issue number of the
format writes whose entries it has not yet carried to the medium (R94). -/
structure Ctx where
  st : CxSt := .free
  kidx : Nat := 0
  cause : Nat := 0
  gen : BitVec 32 := 0
  two : Bool := false
  bound : Nat := 0
  ckpt : Nat := 0
  sinceCkpt : Nat := 0
  takes : Nat := 0
  steps : List StepLine := []
  ahead : List AheadEnt := []
  stalled : Bool := false
  resumed : Bool := false
  startConf : Option Nat := none
  doneConf : Option Nat := none
  doneQueued : Bool := false
  marks : Tab Nat := []
  band : Nat := 0
  drainLow : Option Nat := none
  drainCk : Bool := false
  tagOwed : Tab Nat := []
deriving DecidableEq, Repr

/-- An entry of the rekey queue (R144). -/
structure RkEnt where
  kidx : Nat
  cause : Nat
deriving DecidableEq, Repr

/-- The rekey engine. -/
structure Rekey where
  ctxs : Tab Ctx := []
  queue : List RkEnt := []
  rr : Tab Nat := []
deriving DecidableEq, Repr

-- Requests and queues

/-- The request types that enter an ingress queue (Table 08.1). -/
inductive ReqOp where
  | readLine
  | writeLine
  | writePartial
  | readRaw
  | writeRaw
  | readTag
  | writeTag
deriving DecidableEq, Repr

/-- An ingress item: the request, the slot that its checks found, its queue number m * 8 + k, the cycle its header
arrived in, its number in arrival order, the OLD bit, and whether its link has dropped since, the links of its queue's
sticky mask as captured at a queue reset, the cells that it had stored when it left its queue part-arrived, and the
owner id that it waits for the sweep under (R187 to R189, R196, R199, R244). Its cell k lands in cycle t0 + k (R195). -/
structure Item where
  src : Src
  op : ReqOp
  h : Hdr
  psn : Bool := false
  ext : Side := 0
  data : Line := 0
  slot : Nat := 0
  q : Nat := 0
  t0 : Nat := 0
  arr : Nat := 0
  old : Bool := false
  gone : Bool := false
  mask : List Nat := []
  stored : Option Nat := none
  oid : Nat := 384
deriving DecidableEq, Repr

/-- A FENCE that has not completed (R176). -/
structure FenceEnt where
  src : Src
  sid : BitVec 12
  tag : BitVec 16
  arr : Nat
  gone : Bool := false
deriving DecidableEq, Repr

/-- A response item in EQ(p, RSP), or handed to a master (Table 08.3). `op` is 81h to 85h or a partner item's code;
`raw` is a partner item's slot; `counted` marks
the response of a READ_LINE or READ_RAW (SF_READ_LINES). -/
structure Rsp where
  op : Byte
  status : Byte
  psn : Bool := false
  sid : BitVec 12 := 0
  tag : BitVec 16 := 0
  extra : BitVec 64 := 0
  data : Option Line := none
  arr : Nat := 0
  raw : BitVec 128 := 0
  counted : Bool := false
deriving DecidableEq, Repr

/-- Where a granted transaction stands. -/
inductive TxSt where
  /-- its READ_LINE is issued -/
  | reading
  /-- its line has arrived and waits for a tag line (R89) -/
  | tagWait
  /-- held for the SCHK recompute (R69) -/
  | schkHold
  /-- held for a vote (R296) -/
  | voteHold
  /-- merged; the write half is due (R177) -/
  | merged
  /-- a full-line write waiting for its probe (R106) -/
  | probeWait
  /-- its WRITE_LINE is issued, or its raw tag-line write (R17) -/
  | writing
  /-- READ_TAGLINE_RAW waiting for a fetch (R87) -/
  | tagRead
deriving DecidableEq, Repr

/-- A granted transaction. `line` is the media line that arrived or the merged payload with its sidecar, `gen` and
`lctr` the counter of its write, `pred` the prediction of its read (R108), `tagEnt` the tag entry that its lookup or
fetch gave, `keyless` that a zeroization came before its line arrived, `cells` how many cells of its item it still holds
(Table 09.4), `sl` the slice that serves it since its grant (R302). -/
structure Txn where
  id : Nat
  item : Item
  st : TxSt
  port : Nat
  line : BitVec 576 := 0
  payload : Line := 0
  gen : BitVec 32 := 0
  lctr : BitVec 24 := 0
  poison : Bool := false
  rawPoison : Bool := false
  keyless : Bool := false
  pred : Option (BitVec 24 × BitVec 32) := none
  mask : BitVec 64 := 0
  tagEnt : Option (BitVec 64) := none
  cells : Nat := 1
  sl : Nat := 0
deriving DecidableEq, Repr

/-- A cell that the decoder discards when it arrives: the cycle, the media port of its queue, and its stream (R196). -/
structure Orphan where
  cyc : Nat
  m : Nat
  src : Src
  sid : BitVec 12
deriving DecidableEq, Repr

/-- The pool and the decoder: queues in arrival order, granted transactions, fences, credits are by stream row. `dmOut`
holds the responses that the debug/DMA port took in cycle `dmAt`, `ptrBad` the queues whose pointer copies differ with the
field, `flushEnd` the cycle in which a flush bit was last cleared, `stuck` the cells that stay held until reset (R196, R199,
R201, R202). -/
structure Pool where
  items : List Item := []
  txns : List Txn := []
  fences : List FenceEnt := []
  nextArr : Nat := 0
  nextId : Nat := 0
  eq : Tab (List Rsp) := []
  dmOut : List (Nat × Rsp) := []
  owner : Tab Nat := []
  spare : List Nat := (List.range 126).map (fun i => 385 + i)
  retired : List (Nat × Bool) := []
  lost : List (Nat × Item) := []
  sticky : Tab (List Nat) := []
  masterStop : List Nat := []
  masterReset : List Nat := []
  lastApply : Option Nat := none
  dmAt : Nat := 0
  ptrBad : Tab Nat := []
  orphans : List Orphan := []
  flushEnd : Tab Nat := []
  stuck : Nat := 0
deriving DecidableEq, Repr

-- Media ports

/-- What a media operation is for. -/
inductive MOwner where
  | txn (id : Nat)
  | step (c a : Nat)
  | tagWb (tl : Nat)
  | tagFetch (tl : Nat)
  | probe
  | flush
  | drainFlush
deriving DecidableEq, Repr

/-- A media operation (Table 12.1): WRITE_LINE, FLUSH_PERSIST, READ_LINE or READ_SIDECAR. -/
inductive MKind where
  | write
  | flush
  | read
  | sidecar
deriving DecidableEq, Repr

/-- An operation in an issue FIFO or outstanding; `seq` is its issue number and `cyc` the cycle of its issue (R257), `tries`
its failed presentations, `gen`, `lctr` and `kidx` the counter that a WRITE_LINE carries (R100), `accepted` its ACCEPTED. -/
structure MOp where
  kind : MKind
  addr : Nat
  data : BitVec 576 := 0
  owner : MOwner
  seq : Nat := 0
  cyc : Nat := 0
  tries : Nat := 0
  kidx : Nat := 0
  gen : BitVec 32 := 0
  lctr : BitVec 24 := 0
  counted : Bool := false
  accepted : Bool := false
  timedOut : Bool := false
deriving DecidableEq, Repr

/-- A media port (Tables 12.1 to 12.3). `stampW` and `stampR` hold the cycle and line of a direction's last grant,
`last` the slot counts of the last frame. `lastAcc` holds the cycle and line of the last ACCEPTED (R257); `flushOut` and
`drainOut` say that a service's and the drain's FLUSH_PERSIST await PERSISTED (R260). Granted slot counts are keyed by
direction * 8 + class (0 FG, 1 TG, 2 SP, 3 RK, 4 MX, 5 idle, 6 void). -/
structure Media where
  failed : Bool := false
  fifoW : List MOp := []
  fifoR : List MOp := []
  outW : Tab MOp := []
  outR : Tab MOp := []
  accWait : List Nat := []
  flushReq : Bool := false
  lastAcc : Option (Nat × Nat) := none
  flushOut : Bool := false
  drainFlush : Bool := false
  drainOut : Bool := false
  slots : Tab Nat := []
  stampW : Option (Nat × Nat) := none
  stampR : Option (Nat × Nat) := none
  last : Tab Nat := []
  degraded : Bool := false
  unserved : Bool := false
deriving DecidableEq, Repr

-- Jack

/-- What a probe is for. -/
inductive ProbeKind where
  | write
  | look
  | prefill
deriving DecidableEq, Repr

/-- A probe that is outstanding or waits for its SP slot (R106, R107, R109): `ord` is the grant order of the write that it
serves (R39), `prefill` that a prefill asked for it (R111). -/
structure Probe where
  addr : Nat
  kidx : Nat
  kind : ProbeKind
  issued : Bool := false
  void : Bool := false
  ord : Nat := 0
  prefill : Bool := false
deriving DecidableEq, Repr

/-- Jack: valid entries by (port * 8192 + set) * 8 + way, probes by port, prefill progress (R101 to R111). -/
structure Jack where
  entries : Tab (BitVec 64) := []
  probes : Tab (List Probe) := []
  prefill : Option (Nat × Nat) := none
  clearNext : Bool := false
deriving DecidableEq, Repr

-- Tag cache

/-- One way of the tag cache (R81 to R86): `pend` holds, by entry, the issue number of the write that it awaits; `wb`
the issue number of the write-back in flight; `dirtyAt` the frame of its oldest dirty entry; `failedFetch` says that a
fetch of it has failed (R90), `evict` that a fill wants its way (R83); `dirtyOf` marks the dirty entries (R98), `used`
is the number of its last use (R83), `quietAt` the cycle from which nothing of it was pending or missing and `askedAt`
the cycle in which a victim choice or a flush asked for its write-back (R34). -/
structure TagWay where
  addr : Nat
  kidx : Nat
  valid : BitVec 8 := 0
  pend : Tab Nat := []
  dirty : Bool := false
  wb : Option Nat := none
  dirtyAt : Nat := 0
  data : Line := 0
  failedFetch : Bool := false
  evict : Bool := false
  dirtyOf : BitVec 8 := 0
  used : Nat := 0
  quietAt : Nat := 0
  askedAt : Option Nat := none
deriving DecidableEq, Repr

/-- A tag-line fetch that waits for its slot or its data: the transactions and steps that wait on it. -/
structure TagFetch where
  tl : Nat
  kidx : Nat
  issued : Bool := false
  owners : List MOwner := []
  since : Nat := 0
  forWb : Bool := false
deriving DecidableEq, Repr

/-- The integrity unit's tag cache: ways by set * 8 + way, fetches, reservations of granted writes (R83),
the lines that a TAG_CACHE_FLUSH waits for with the first issue number that serves them (R97), the owners whose fetch
failed before their line arrived (R90), and the number of uses so far (R83). -/
structure TagCache where
  ways : Tab TagWay := []
  fetches : List TagFetch := []
  resv : List (MOwner × Nat) := []
  flushSet : List (Nat × Nat) := []
  fails : Tab Nat := []
  stormed : List Nat := []
  lostFor : List MOwner := []
  uses : Nat := 0
deriving DecidableEq, Repr

-- Links and partner agents

/-- The values that a negotiation chooses (Tables 11.3, 11.4). -/
structure NegVals where
  version : Nat := 0
  light : Bool := false
  classes : Nat := 0
  depth : Nat := 0
  maxTags : Nat := 0
  tAck : Nat := 0
  hbUs : Nat := 0
  negId : BitVec 32 := 0
  linkGen : Nat := 0
  hbMiss : Nat := 0
  tReplay : Nat := 0
  replayLimit : Nat := 0
  peerId : BitVec 64 := 0
deriving DecidableEq, Repr

/-- The engine's own values for a negotiation, as they stood at its first PARAM_SELECT (R234). -/
structure OwnVals where
  light : Bool := false
  classes : Nat := 0
  depth : Nat := 0
  maxTags : Nat := 0
  tAck : Nat := 0
  hbUs : Nat := 0
  hbMiss : Nat := 0
  tReplay : Nat := 0
  replayLimit : Nat := 0
  linkGen : Nat := 0
deriving DecidableEq, Repr

/-- An entry of the RESYNC list: tag, fate (1 DONE_WRITE, 2 LOST_READ, 3 NOT_RECEIVED) and status (R247). -/
structure FateEnt where
  tag : BitVec 16
  fate : Nat
  status : Nat
deriving DecidableEq, Repr

/-- A DATA flit held for replay, with the outcomes of the responses in it (R222, R245). -/
structure HeldFlit where
  seq : Nat
  vcmask : BitVec 15
  body : BitVec 1920
  fates : List FateEnt
deriving DecidableEq, Repr

/-- The fields of the flit last formed (Tables 10.1, 10.2); `light` is the FEC mode that it is sent in. -/
structure FlitOut where
  ty : Nat
  seq : Nat := 0
  ack : Nat := 0
  nak : Bool := false
  nseq : Nat := 0
  vcmask : BitVec 15 := 0
  rxlock : Bool := false
  retx : Bool := false
  txfull : Bool := false
  body : BitVec 1920 := 0
  light : Bool := false
deriving DecidableEq, Repr

/-- A link port: framer, keeper and partner agent. `first` says that the first flit after the link up is due, `selSent`
that the PARAM_SELECT has gone out, `nakAt` holds the cycle of the last valid NAK, `downLight` the mode of the 16 DOWN
flits, `kept` the entries of lists not yet acknowledged, `resync` is RESYNC_STATE, `run` the decodable flits in a row
while lock is searched and the uncorrectable ones in a row while it is held, `bitPos` the boundary under test or in use
(R212), `selectDue` the PARAM_SELECTs that are owed, `own` the NEG_ID of the negotiation and the engine's values for it,
`feed` the partner items that wait for a kept cell (R246), `timerAt` the cycle of the last replay-timer expiry and what
the count stood at (R226). -/
structure LinkSt where
  lock : Bool := false
  rate : Nat := 3
  light : Bool := false
  up : Bool := false
  everUp : Bool := false
  first : Bool := false
  bistDown : Bool := false
  lost : Option (Nat × Nat) := none
  downLeft : Nat := 0
  downOn : Bool := false
  downCause : Nat := 0
  downLight : Bool := false
  negOpen : Bool := false
  select : Option NegVals := none
  selSent : Bool := false
  selectDue : List (Nat × NegVals) := []
  own : Option (BitVec 32 × OwnVals) := none
  force : NegVals := {}
  nxt : Nat := 0
  una : Nat := 0
  held : List HeldFlit := []
  replay : Option Nat := none
  ack : Nat := 4095
  e : Nat := 0
  nakOwed : Bool := false
  nakSent : Bool := false
  nakAt : Option Nat := none
  retxSeen : Bool := false
  uncovered : Nat := 0
  ackDue : Bool := false
  expiries : Nat := 0
  mayData : Bool := false
  stalled : Bool := false
  hbDue : Bool := false
  hbCount : Nat := 0
  peerNoted : Bool := false
  fates : List FateEnt := []
  kept : List FateEnt := []
  resync : Nat := 0
  txLast : Option FlitOut := none
  run : Nat := 0
  bitPos : Nat := 0
  feed : List Rsp := []
  timerAt : Option (Nat × Nat) := none
deriving DecidableEq, Repr

/-- The credit counts of a (port, SID), modulo 2^16 where the manual has them so (R238 to R243). `sent` is the GRANTED
last sent and `advAt` the frame of the oldest unsent advance. -/
structure Acct where
  granted : Nat := 0
  received : Nat := 0
  held : Nat := 0
  returned : Nat := 0
  sent : Nat := 0
  advAt : Option Nat := none
  closing : Bool := false
deriving DecidableEq, Repr


-- Slices and repair

/-- A keystream pipe: 0 good, 1 retiring, 2 retired; its last three checks, bit 0 the newest, 1 faulted (R299, R300). -/
structure PipeSt where
  st : Nat := 0
  hist : Nat := 0
deriving DecidableEq, Repr

/-- A cipher slice (Table 14.9): `st` 0 serving, 1 spare, 2 degraded, 3 lost; `port` and `checker` 255 for none; nibble
d of `duty` is the pipe of duty d; `prio` the priority checks; `standIn` the duty for which the checker stands in and
`noShadow` that it does not shadow, for the rest of the frame under R298; `charged` the pipes with a faulted check in
this frame; `lastPass` by duty the frame after its last passed check; `doomed` a loss at the next strobe (R297). -/
structure Slice where
  st : Nat := 0
  port : Nat := 255
  duty : BitVec 64 := 0x9876543210#64
  checker : Nat := 11
  shadow : Nat := 0
  prio : List Nat := []
  pipes : Tab PipeSt := []
  standIn : Option Nat := none
  noShadow : Bool := false
  charged : List Nat := []
  lastPass : Tab Nat := []
  doomed : Bool := false
deriving DecidableEq, Repr

/-- Why a line is held: for a vote (R296), for the recompute after an SCHK mismatch (R69), for its tag line (R89). -/
inductive HoldKind where
  | vote
  | schk
  | tag
deriving DecidableEq, Repr

/-- A line held after its keystream (R69, R89, R296). `h` is the tag key, `good` holds the blocks of the line's keys,
`ks` what the duty pipes delivered, `chk` the same with the checker's for the blocks `blks` of `duty`; `ten` says that
P10 took recomputes as the line was held (R300). -/
structure Hold where
  slice : Nat
  kind : HoldKind
  dir : Dir
  owner : MOwner
  port : Nat
  kidx : Nat
  addr : Nat
  gen : BitVec 32
  lctr : BitVec 24
  line : BitVec 576 := 0
  h : Block := 0
  poison : Bool := false
  good : List Block := []
  ks : List Block := []
  chk : List Block := []
  blks : List Nat := []
  duty : Nat := 0
  ten : Bool := true
  duties : BitVec 64 := 0
  checker : Nat := 0
  again : Bool := false
  mask : Nat := 0
deriving DecidableEq, Repr

/-- A row of a macro's watch list (R293). -/
structure RowWatch where
  row : Nat
  count : Nat
deriving DecidableEq, Repr

/-- The repair controller: watch lists by macro, oldest first, queued repairs, spare row by macro * 1024 + row, spare
rows in use by macro * 4 + spare, rows without a spare left, places of the log used and repairs that it could not hold
(R289 to R294), `cols` the columns that the fuse image repairs (macro and column), `rowBase` the window length of the
watch lists before the last change with the frame from which the new one applies (R306). -/
structure Repair where
  slices : Tab Slice := []
  holds : List Hold := []
  watch : Tab (List RowWatch) := []
  queue : List (Nat × Nat) := []
  remap : Tab Nat := []
  spares : List Nat := []
  badRows : List Nat := []
  outNoted : List Nat := []
  logPlaces : List Nat := []
  notLogged : Nat := 0
  cols : List (Nat × Nat) := []
  rowBase : Option (Nat × Nat) := none
  logFull : Bool := false
  topGone : Bool := false
  bistFails : Nat := 0
deriving DecidableEq, Repr


/-- The state of the block. -/
structure State where
  /-- The model's own counter behind the free values of Config (log 7). -/
  free : Nat := 0
  /-- Commands that wait, first in, first out. -/
  pending : List Instr := []
  clk : Clk := {}
  pins : Pins := {}
  /-- RWS values in force that are not their defaults, by okey. -/
  cfg : Tab Nat := []
  /-- Changed entries of the staging set, by okey (R319). -/
  staged : Tab Nat := []
  /-- RW values, counters and snapshots that are not their defaults, by okey. -/
  regs : Tab Nat := []
  winL : WinClass := {}
  winD : WinClass := {}
  winOut : Option WinOut := none
  commit : Commit := {}
  sessions : Tab Session := []
  mmTx : List MsgOut := []
  ev : EvUnit := {}
  keys : KeyStore := {}
  /-- The NV store's bytes that are not 00h (R276; log 5 and 6). -/
  nv : List Host.Cell := []
  nvu : NvUnit := {}
  pwr : Pwr := {}
  rk : Rekey := {}
  pool : Pool := {}
  media : Tab Media := []
  mseq : Nat := 0
  jack : Jack := {}
  tagc : TagCache := {}
  links : Tab LinkSt := []
  /-- Credit accounts by port * 4,096 + SID. -/
  accts : Tab Acct := []
  /-- The counts of accounts that have ended, which run on when a row comes back (R243). -/
  pastAccts : Tab Acct := []
  /-- RW values written and not yet in force, by okey (Table 15.2). -/
  rwNext : Tab Nat := []
  rep : Repair := {}
deriving DecidableEq, Repr

/-- The machine right after reset (R376): nothing listed anywhere, the NV store blank. -/
def State.reset : State := {}

end Sys2Proof.Machine
end

