-- ==== Sys2Proof/Machine/Ops.lean ====
section
/-! DEFINITION. Operations that every unit shares: time, the stores of the dictionary, counters, free values, and the
capture of events (R349 to R354, R391). -/

namespace Sys2Proof.Machine

/-- The clock cycle since release, counted through frames. -/
def now (s : State) : Nat := s.clk.frame.toNat * 1024 + s.clk.cycle

/-- The frame number as a Nat. -/
def frameNo (s : State) : Nat := s.clk.frame.toNat

/-- True when a duration of k frames started in frame F ends at the current frame or has ended (R32). -/
def framesOver (s : State) (f k : Nat) : Bool := decide (f + 1 + k ≤ frameNo s)

/-- The one cycle in which the condition of a duration of k frames started in frame F is tested and its action taken:
cycle 0 of frame F + 1 + k (R32). -/
def framesEnd (s : State) (f k : Nat) : Bool := decide (frameNo s = f + 1 + k) && decide (s.clk.cycle = 0)

/-- Take a fresh number for a free value of Config. -/
def takeFree (s : State) : Nat × State := (s.free, { s with free := s.free + 1 })

-- Stores of the dictionary

/-- The RWS value in force (R309). -/
def cfgVal (s : State) (idx sub row : Nat) : Nat := tabGet (objDefault idx sub) s.cfg (okey idx sub row)

/-- The staged value, which is the value in force where nothing is staged (R319). -/
def stagedVal (s : State) (idx sub row : Nat) : Nat :=
  match tabFind s.staged (okey idx sub row) with
  | some v => v
  | none => cfgVal s idx sub row

/-- Put a value in force. -/
def cfgPut (idx sub row v : Nat) (s : State) : State :=
  { s with cfg := tabPut (objDefault idx sub) s.cfg (okey idx sub row) v }

/-- A register, counter or snapshot. -/
def regVal (s : State) (idx sub row : Nat) : Nat := tabGet (objDefault idx sub) s.regs (okey idx sub row)

/-- Set a register, counter or snapshot. -/
def regPut (idx sub row v : Nat) (s : State) : State :=
  { s with regs := tabPut (objDefault idx sub) s.regs (okey idx sub row) v }

/-- The largest value of an unsigned type. -/
def typeMax (idx sub : Nat) : Nat :=
  match objFind idx sub with
  | some o => o.ty.bound - 1
  | none => 0

/-- Count `n` more: U16 and U32 counters stop at their largest value, U64 counters wrap (R342), superframe statistics
always wrap (R343). -/
def countUp (idx sub row n : Nat) (s : State) : State :=
  let mx := typeMax idx sub
  let v := regVal s idx sub row + n
  regPut idx sub row
    (if idx = 0x6000 ∨ mx = 2 ^ 64 - 1 then v % (mx + 1) else min v mx) s

/-- Count one more. -/
def count1 (idx sub row : Nat) (s : State) : State := countUp idx sub row 1 s

-- Event sources (Table 16.6)

/-- Source k of link port p. -/
def srcLink (p k : Nat) : Nat := 6 * p + k
/-- Source k of media port m. -/
def srcMedia (m k : Nat) : Nat := 768 + 8 * m + k
/-- Source k of slice s. -/
def srcSlice (sl k : Nat) : Nat := 896 + 4 * sl + k
/-- The source of rekey context c. -/
def srcCtx (c : Nat) : Nat := 964 + c
/-- Global source k. -/
def srcGlobal (k : Nat) : Nat := 1028 + k

/-- The severities of R350. -/
def sevInfo : Nat := 0
/-- NOTICE. -/
def sevNotice : Nat := 1
/-- ERROR. -/
def sevError : Nat := 2
/-- FATAL. -/
def sevFatal : Nat := 3

/-- The codes of Table 17.1. -/
inductive Ev where
  | grantLate | schkFault | tagFail | tornTag | tagStorm | taglineFault | taglineMedia | tagcacheUe
  | jackPe | jackRegress | probeMedia | counterHw | counterEnd | counterSpent | keySpent
  | zeroize | zeroizeGlitch | keyLoadFail | keyDenied | extentFault | keystoreUe
  | rekeyStart | rekeyDone | rekeyResume | rekeyLineFault | rekeyStall | aheadFull
  | slotError | tagHeld | commitHold | rawPoison
  | qPtrMismatch | qParity | qFlush | qHdrLost | poolFault | poolSplit
  | linkLockLost | linkDown | linkNak | linkReplayTimer | fecUncorrectable | lcwError | replayParity
  | linkUp | negRefused | hbLost | peerDigest | creditOverrun | resyncSent
  | mpMediaErr | mpXfer | mpTimeout | mpStall | mpFailed
  | pwrWarn | warnGlitch | drainLate | resume | uncleanStart | nvRecord | nvFault
  | pipeVote | pipeRetired | checkerLost | sliceLost | topLost | degraded | portUnserved | rowRepair
  | rowSparesOut | repairLogFull | bistFail | fuseFault
  | commitApplied | commitAborted | stageBroken | digestDrift | msgAuth
  | recordsLost | recorderCleared | subLost
deriving DecidableEq, Repr

/-- Code and usual severity of an event (Table 17.1). -/
def evInfo (e : Ev) : Nat × Nat :=
  match e with
  | .grantLate => (0x0201, 1) | .schkFault => (0x0301, 2)
  | .tagFail => (0x0401, 2) | .tornTag => (0x0402, 1) | .tagStorm => (0x0403, 2)
  | .taglineFault => (0x0404, 1) | .taglineMedia => (0x0405, 2) | .tagcacheUe => (0x0406, 2)
  | .jackPe => (0x0501, 1) | .jackRegress => (0x0502, 2) | .probeMedia => (0x0503, 2)
  | .counterHw => (0x0504, 0) | .counterEnd => (0x0505, 1) | .counterSpent => (0x0506, 1)
  | .keySpent => (0x0507, 2)
  | .zeroize => (0x0601, 2) | .zeroizeGlitch => (0x0602, 1) | .keyLoadFail => (0x0603, 1)
  | .keyDenied => (0x0604, 1) | .extentFault => (0x0605, 1) | .keystoreUe => (0x0606, 2)
  | .rekeyStart => (0x0701, 0) | .rekeyDone => (0x0702, 0) | .rekeyResume => (0x0703, 1)
  | .rekeyLineFault => (0x0704, 2) | .rekeyStall => (0x0705, 1) | .aheadFull => (0x0706, 1)
  | .slotError => (0x0801, 2) | .tagHeld => (0x0802, 1) | .commitHold => (0x0803, 1) | .rawPoison => (0x0804, 1)
  | .qPtrMismatch => (0x0901, 2) | .qParity => (0x0902, 1) | .qFlush => (0x0903, 0) | .qHdrLost => (0x0904, 2)
  | .poolFault => (0x0905, 3) | .poolSplit => (0x0906, 1)
  | .linkLockLost => (0x0A01, 1) | .linkDown => (0x0A02, 2) | .linkNak => (0x0A03, 1)
  | .linkReplayTimer => (0x0A04, 1) | .fecUncorrectable => (0x0A05, 1) | .lcwError => (0x0A06, 2)
  | .replayParity => (0x0A07, 2)
  | .linkUp => (0x0B01, 0) | .negRefused => (0x0B02, 1) | .hbLost => (0x0B03, 2) | .peerDigest => (0x0B04, 1)
  | .creditOverrun => (0x0B05, 2) | .resyncSent => (0x0B06, 0)
  | .mpMediaErr => (0x0C01, 2) | .mpXfer => (0x0C02, 1) | .mpTimeout => (0x0C03, 2) | .mpStall => (0x0C04, 1)
  | .mpFailed => (0x0C05, 3)
  | .pwrWarn => (0x0D01, 1) | .warnGlitch => (0x0D02, 1) | .drainLate => (0x0D03, 2) | .resume => (0x0D04, 0)
  | .uncleanStart => (0x0D05, 2) | .nvRecord => (0x0D06, 1) | .nvFault => (0x0D07, 2)
  | .pipeVote => (0x0E01, 1) | .pipeRetired => (0x0E02, 2) | .checkerLost => (0x0E03, 1) | .sliceLost => (0x0E04, 2)
  | .topLost => (0x0E05, 2) | .degraded => (0x0E06, 2) | .portUnserved => (0x0E07, 3) | .rowRepair => (0x0E08, 0)
  | .rowSparesOut => (0x0E09, 2) | .repairLogFull => (0x0E0A, 1) | .bistFail => (0x0E0B, 2) | .fuseFault => (0x0E0C, 3)
  | .commitApplied => (0x0F01, 0) | .commitAborted => (0x0F02, 1) | .stageBroken => (0x0F03, 1)
  | .digestDrift => (0x0F04, 2) | .msgAuth => (0x0F05, 1)
  | .recordsLost => (0x1101, 1) | .recorderCleared => (0x1102, 1) | .subLost => (0x1103, 1)

/-- The alert level that an occurrence raises, if any (Table 16.6). -/
def alertLevel (route sev : Nat) : Option Nat :=
  if route < 4 then some route
  else if route = 0xFE then (if sev = 0 then none else some sev)
  else none

/-- Set bit k of ALERT_PENDING (R354). -/
def alertSet (route sev : Nat) (s : State) : State :=
  match alertLevel route sev with
  | some k => regPut 0x2500 0x05 0 (regVal s 0x2500 0x05 0 ||| 2 ^ k) s
  | none => s

/-- Fold one reportable occurrence into its source's accumulator of the frame (R351). -/
def evFold (old : Option EvAcc) (code sev cyc : Nat) (p1 p2 p3 : BitVec 32) : EvAcc :=
  match old with
  | none => { code := code, sev := sev, cycle := cyc, count := 1, mixed := false, p1 := p1, p2 := p2, p3 := p3 }
  | some a =>
    let mixed := a.mixed || decide (a.code ≠ code)
    if a.sev < sev ∨ (a.sev = sev ∧ a.cycle = cyc ∧ code < a.code) then
      { code := code, sev := sev, cycle := cyc, count := a.count + 1, mixed := mixed, p1 := p1, p2 := p2, p3 := p3 }
    else { a with count := a.count + 1, mixed := mixed }

/-- SRC_COUNT, SRC_STATUS and SRC_LAST_ of a source at an occurrence (R350, R351). -/
def srcNote (src code sev : Nat) (reportable : Bool) (s : State) : State :=
  let st := regVal s 0x4004 0x10 src
  let hi := max (st / 2 % 4) sev
  let b3 := if reportable then st / 8 % 2 else 1
  let same := decide (tabFind s.ev.lastAt src = some (now s))
  let last := if same then max code (regVal s 0x4004 0x12 src) else code
  let s := count1 0x4004 0x11 src s
  let s := regPut 0x4004 0x10 src (1 + 2 * hi + 8 * b3) s
  let s := regPut 0x4004 0x12 src last s
  let s := regPut 0x4004 0x13 src (frameNo s) s
  { s with ev := { s.ev with lastAt := tabSet s.ev.lastAt src (now s) } }

/-- True for a source of a link port that BIST holds down: it reports nothing (R346). -/
def srcDead (s : State) (src : Nat) : Bool := decide (src < 768) && (tabGet {} s.links (src / 6)).bistDown

/-- Capture an occurrence of an event on a source with a severity and three parameters (R349 to R354). -/
def raiseSev (e : Ev) (sev src p1 p2 p3 : Nat) (s : State) : State :=
  if srcDead s src then s
  else
  let code := (evInfo e).1
  let reportable := decide (cfgVal s 0x4004 0x01 src = 0) && decide (cfgVal s 0x4004 0x02 src ≤ sev)
  let s := srcNote src code sev reportable s
  if reportable then
    let a := evFold (tabFind s.ev.acc src) code sev s.clk.cycle (BitVec.ofNat 32 p1) (BitVec.ofNat 32 p2)
      (BitVec.ofNat 32 p3)
    alertSet (cfgVal s 0x4004 0x04 src) sev { s with ev := { s.ev with acc := tabSet s.ev.acc src a } }
  else s

/-- Capture an occurrence with the severity of Table 17.1. -/
def raise (e : Ev) (src p1 p2 p3 : Nat) (s : State) : State := raiseSev e (evInfo e).2 src p1 p2 p3 s

/-- The number under which a count "in the frame" stands: code and source. -/
def sumKey (e : Ev) (src : Nat) : Nat := (evInfo e).1 * 2048 + src

/-- The event of a count "in the frame", by its code, with its parameters (R391). EV_WARN_GLITCH is captured elsewhere
(Table 02.5). -/
def sumEvent (code : Nat) (f : FrameSum) : Option (Ev × Nat × Nat × Nat) :=
  match code with
  | 0x0506 => some (.counterSpent, f.a, f.b, f.count)
  | 0x0602 => some (.zeroizeGlitch, f.count, 0, 0)
  | 0x0902 => some (.qParity, f.a, f.b, f.count)
  | 0x0A01 => some (.linkLockLost, f.count, f.a, 0)
  | 0x0A03 => some (.linkNak, f.count, f.a, f.b)
  | 0x0A04 => some (.linkReplayTimer, f.count, f.a, f.b)
  | 0x0A05 => some (.fecUncorrectable, f.count, f.a, 0)
  | 0x0E01 => some (.pipeVote, f.a, f.b, f.count)
  | 0x0F05 => some (.msgAuth, f.count, f.a, f.b)
  | _ => none

/-- Capture one count "in the frame" of the frame that ends (R391). -/
def sumFlush (s : State) (e : Nat × FrameSum) : State :=
  match sumEvent (e.1 / 2048) e.2 with
  | some (v, p1, p2, p3) => raise v (e.1 % 2048) p1 p2 p3 s
  | none => s

/-- A happening of cycle 1,023 after the capture of its count: the occurrence takes the new totals (R391). -/
def sumAmend (s : State) (e : Nat × FrameSum) : State :=
  match sumEvent (e.1 / 2048) e.2, tabFind s.ev.acc (e.1 % 2048) with
  | some (v, p1, p2, p3), some x =>
    let y := { x with p1 := BitVec.ofNat 32 p1, p2 := BitVec.ofNat 32 p2, p3 := BitVec.ofNat 32 p3 }
    if x.code = (evInfo v).1 then { s with ev := { s.ev with acc := tabSet s.ev.acc (e.1 % 2048) y } } else s
  | _, _ => s

/-- Set a count "in the frame". Once cycle 1,023 is closed, a happening of that cycle is captured at once, or joins the
occurrence that was captured (R31, R391). -/
def sumSet (k : Nat) (f : FrameSum) (s : State) : State :=
  let seen := (tabFind s.ev.sums k).isSome
  let s := { s with ev := { s.ev with sums := tabSet s.ev.sums k f } }
  if s.ev.ended = false then s else if seen then sumAmend s (k, f) else sumFlush s (k, f)

/-- One more happening of an event that is captured once a frame; the other parameters are those of the first
happening (R391). -/
def sumUp (e : Ev) (src a b c : Nat) (s : State) : State :=
  let k := sumKey e src
  sumSet k (match tabFind s.ev.sums k with
    | some f => { f with count := f.count + 1 }
    | none => { count := 1, a := a, b := b, c := c }) s

/-- A line address as two parameters: bits [31:0] and bits [39:32] (Table 04.6). -/
def addrLo (a : Addr) : Nat := a.toNat % 2 ^ 32
/-- Bits [39:32] of a line address. -/
def addrHi (a : Addr) : Nat := a.toNat / 2 ^ 32

/-- alert_n is driven low while an alert at or above ALERT_PIN_MIN is pending (R355). -/
def alertNLow (s : State) : Bool := decide (2 ^ cfgVal s 0x2500 0x04 0 ≤ regVal s 0x2500 0x05 0)

/-- CFG_GEN. -/
def cfgGen (s : State) : Nat := regVal s 0x2200 0x01 0

/-- The source of Table 16.6 that a request source's refusals go to: Link k or Global 48 + n (Table 17.1). -/
def srcOfReq (r : Src) (k : Nat) : Nat :=
  match r with
  | .link p => srcLink p.val k
  | .master n => srcGlobal (48 + n.val)

end Sys2Proof.Machine
end

