-- ==== Sys2Proof/Machine/Events.lean ====
section
/-! DEFINITION. Records, the backlog, the recorder port and the frame's close (R351 to R358, R391), and the commands
RECORDER_ACCEPT, RECORDER_CLEAR_ACK and REC_ONLINE_CHANGE. -/

namespace Sys2Proof.Machine

/-- The 32 bytes of a record (Table 17.2). -/
def recBytes (r : EvRec) : List Byte :=
  leBytes 2 r.code ++
    leBytes 2 ((if r.sat then 0x8000 else 0) + (if r.mixed then 0x4000 else 0) + r.sev * 4096 + r.source) ++
    leBytes 2 r.count ++ leBytes 6 r.frame ++ leBytes 4 r.p1.toNat ++ leBytes 4 r.p2.toNat ++
    leBytes 4 r.p3.toNat ++ List.replicate 8 0#8

/-- Places of the backlog: 256 less those within bad rows of macros 752 to 767 (R356, Table 14.4; log 21). -/
def backlogPlaces (s : State) : Nat :=
  256 - (s.rep.badRows.filter (fun r => decide (752 * 1024 ≤ r) && Config.backlogRow r)).length

/-- Places of the backlog that a record other than EV_RECORDS_LOST may take (R356). -/
def backlogRoom (s : State) : Nat := if s.ev.lostCaptured then backlogPlaces s - 1 else backlogPlaces s

/-- Send a control record: into the backlog, or waiting for the next free place (R357). -/
def ctlSend (code : Nat) (p1 p2 p3 : BitVec 32) (s : State) : State :=
  let r : EvRec := { code := code, source := 0xFFF, frame := frameNo s % 2 ^ 48, p1 := p1, p2 := p2, p3 := p3 }
  if s.ev.backlog.length < backlogRoom s ∧ s.ev.ctlWait = [] then
    { s with ev := { s.ev with backlog := s.ev.backlog ++ [r] } }
  else { s with ev := { s.ev with ctlWait := s.ev.ctlWait ++ [r] } }

/-- The MODE control record (R357). -/
def modeSend (s : State) : State :=
  ctlSend 0xFF01 (BitVec.ofNat 32 (cfgVal s 0x2500 0x01 0)) (BitVec.ofNat 32 (cfgVal s 0x2500 0x02 0))
    (BitVec.ofNat 32 (cfgGen s)) s

/-- Waiting control records take free places, ahead of any record formed later (R357). -/
def ctlAdmit : Nat → State → State
  | 0, s => s
  | n + 1, s =>
    match s.ev.ctlWait with
    | [] => s
    | r :: t =>
      if s.ev.backlog.length < backlogRoom s then
        ctlAdmit n { s with ev := { s.ev with backlog := s.ev.backlog ++ [r], ctlWait := t } }
      else s

/-- One record into the backlog, or lost (R356). -/
def backlogPut (r : EvRec) (s : State) : State :=
  if s.ev.backlog.length < backlogRoom s ∧ s.ev.ctlWait = [] then
    { s with ev := { s.ev with backlog := s.ev.backlog ++ [r] } }
  else
    count1 0x2500 0x08 0
      { s with ev := { s.ev with
          lostNow := s.ev.lostNow + 1
          lostFirst := match s.ev.lostFirst with
            | some x => some x
            | none => some (r.frame, r.source) } }

/-- One record into the queue of one subscription, or dropped for it alone (R359). -/
def subOffer (r : EvRec) (sb : Subscr) : Subscr :=
  if sb.minSev ≤ r.sev ∧ sb.first ≤ r.source ∧ r.source ≤ sb.last then
    if sb.queue.length < 16 then { sb with queue := sb.queue ++ [r] } else { sb with dropped := sb.dropped + 1 }
  else sb

/-- Form the record of one source and send it on its ways (R351, R353). -/
def recForm (frame : Nat) (s : State) (e : Nat × EvAcc) : State :=
  let a := e.2
  let r : EvRec :=
    { code := a.code, sat := decide (65535 < a.count), mixed := a.mixed, sev := a.sev, source := e.1,
      count := min a.count 65535, frame := frame % 2 ^ 48, p1 := a.p1, p2 := a.p2, p3 := a.p3 }
  let s := if cfgVal s 0x4004 0x03 e.1 = 1 then backlogPut r s else s
  { s with ev := { s.ev with subs := s.ev.subs.map (fun k => (k.1, subOffer r k.2)) } }

/-- The source of EV_RECORDS_LOST. -/
def srcLost : Nat := srcGlobal 56

/-- Close frame F: its records in ascending source order, EV_RECORDS_LOST first into its reserved place (R353, R356).
The records form at once; the manual forms two in each cycle from cycle 0 on (log 17). -/
def evClose (frame : Nat) (s : State) : State :=
  let acc := s.ev.acc
  let s := { s with ev := { s.ev with acc := [], lostCaptured := false } }
  let s := (acc.filter (fun e => e.1 == srcLost)).foldl (recForm frame) s
  (acc.filter (fun e => e.1 != srcLost)).foldl (recForm frame) s

/-- The key of EV_WARN_GLITCH, which is captured in cycle 0 of the next frame (Table 02.5). -/
def warnGlitchKey : Nat := sumKey .warnGlitch (srcGlobal 1)

/-- Capture every count "in the frame" (R391). The counts stay until the strobe, for happenings still to come in this
cycle. -/
def sumsFlush (s : State) : State :=
  s.ev.sums.foldl sumFlush { s with ev := { s.ev with ended := true } }

/-- Counts "in the frame" restart with the new frame; the glitches of the old one are reported in its cycle 0
(Table 02.5). -/
def sumsRestart (s : State) : State :=
  { s with ev := { s.ev with sums := s.ev.sums.filter (fun e => e.1 == warnGlitchKey), ended := false } }

/-- Capture EV_SUB_LOST for a subscription that dropped records in the frame (R359). -/
def subFlush (s : State) (e : Nat × Subscr) : State :=
  if e.2.dropped = 0 then s
  else
    let s := raise .subLost (srcGlobal 58) e.1 e.2.dropped 0 s
    { s with ev := { s.ev with subs := tabSet s.ev.subs e.1 { e.2 with dropped := 0 } } }

/-- Capture EV_RECORDS_LOST when records were lost and a place is free, and reserve that place (R356). -/
def lostFlush (s : State) : State :=
  match s.ev.lostFirst with
  | none => s
  | some (fr, src) =>
    if s.ev.backlog.length < backlogPlaces s then
      let n := s.ev.lostNow
      let s := { s with ev := { s.ev with lostNow := 0, lostFirst := none, lostCaptured := true } }
      raise .recordsLost srcLost n (fr % 2 ^ 32) src s
    else s

/-- What the event unit captures in cycle 1,023 (R356, R359, R391). -/
def evFrameEnd (s : State) : State :=
  let s := sumsFlush s
  let s := s.ev.subs.foldl subFlush s
  lostFlush s

/-- The report of the last frame's pwr_warn_n glitches in cycle 0 (Table 02.5, R267). -/
def warnGlitchReport (s : State) : State :=
  match tabFind s.ev.sums warnGlitchKey with
  | none => s
  | some f =>
    raise .warnGlitch (srcGlobal 1) f.count f.a 0
      { s with ev := { s.ev with sums := tabDel s.ev.sums warnGlitchKey } }

/-- RECORDER_ACCEPT: the recorder takes the oldest record of the backlog while it is online (R356, R369). -/
def doRecorderAccept (s : State) : State :=
  if regVal s 0x2500 0x0A 0 = 0 then s
  else
    match s.ev.backlog with
    | [] => s
    | r :: t =>
      let s := count1 0x2500 0x09 0 { s with ev := { s.ev with backlog := t, recTx := some r } }
      ctlAdmit 1 s

/-- RECORDER_ACCEPT. -/
def execRecorderAccept (s : State) : Host.Outcome State Fault Refusal := .next (doRecorderAccept s)

/-- RECORDER_CLEAR's effect: a CLEAR record with the MKI, unless one is still unconfirmed (R357, R358). -/
def recorderClear (mki : Nat) (s : State) : State :=
  match s.ev.clearing with
  | some _ => s
  | none =>
    let p1 := BitVec.ofNat 32 mki
    let p2 := BitVec.ofNat 32 (cfgGen s)
    let p3 := BitVec.ofNat 32 (regVal s 0x2500 0x09 0)
    ctlSend 0xFF02 p1 p2 p3 { s with ev := { s.ev with clearing := some (p1, p2, p3) } }

/-- RECORDER_CLEAR_ACK: the recorder confirms the CLEAR (R358). -/
def doRecorderClearAck (s : State) : State :=
  match s.ev.clearing with
  | none => s
  | some (p1, p2, p3) =>
    raise .recorderCleared (srcGlobal 57) p1.toNat p2.toNat p3.toNat
      { s with ev := { s.ev with clearing := none } }

/-- RECORDER_CLEAR_ACK. -/
def execRecorderClearAck (s : State) : Host.Outcome State Fault Refusal := .next (doRecorderClearAck s)

/-- REC_ONLINE_CHANGE: RECORDER_READY follows rec_online; the first time sends MODE (R357, R369). -/
def doRecOnlineChange (online : Bool) (s : State) : State :=
  let s := regPut 0x2500 0x0A 0 (if online then 1 else 0) s
  if online = true ∧ s.clk.running = true ∧ s.ev.modeSent = false then modeSend { s with ev := { s.ev with modeSent := true } } else s

/-- REC_ONLINE_CHANGE. -/
def execRecOnlineChange (online : Bool) (s : State) : Host.Outcome State Fault Refusal :=
  .next (doRecOnlineChange online s)

end Sys2Proof.Machine
end

