-- ==== Sys2Proof/Machine/Serial.lean ====
section
/-! DEFINITION. The canonical serialisation of the FLEET objects and of the configuration image (R332, R337,
Table 13.11), and extents as the tables hold them (R127). -/

namespace Sys2Proof.Machine

/-- A view of the RWS objects: the bank in force, or the configuration after the apply of the staging set. -/
def viewVal (s : State) (after : Bool) (idx sub row : Nat) : Nat :=
  if after then stagedVal s idx sub row else cfgVal s idx sub row

/-- Insert a number into a rising list, once. -/
def insertNat (n : Nat) : List Nat → List Nat
  | [] => [n]
  | x :: t => if n < x then n :: x :: t else if n = x then x :: t else x :: insertNat n t

/-- The rows of a table that some store lists, rising. -/
def listedRows (s : State) (after : Bool) (idx : Nat) : List Nat :=
  let rowsOf := fun (t : Tab Nat) (acc : List Nat) =>
    t.foldl (fun acc e => if okeyIdx e.1 = idx then insertNat (okeyRow e.1) acc else acc) acc
  rowsOf s.cfg (if after then rowsOf s.staged [] else [])

/-- One object's record: INDEX, SUB, TYPE code, length of OCT and TEXT, value (R332). -/
def serScalar (idx sub v : Nat) : List Byte :=
  match objFind idx sub with
  | none => []
  | some o =>
    leBytes 2 idx ++ leBytes 1 sub ++ leBytes 1 o.ty.code ++
      (match o.ty with
       | .oct n => leBytes 1 n
       | .text n => leBytes 1 n
       | _ => []) ++
      leBytes o.ty.width v

/-- The row record of one row, or nothing where every FLEET field is at its default (R332). -/
def serRow (s : State) (after : Bool) (idx : Nat) (subs : List Nat) (row : Nat) : List Byte :=
  if subs.all (fun sub => viewVal s after idx sub row == objDefault idx sub) then []
  else
    leBytes 3 row ++ subs.flatMap (fun sub =>
      match objFind idx sub with
      | some o => leBytes o.ty.width (viewVal s after idx sub row)
      | none => [])

/-- One index of the serialisation: a table with its header and rows, or its scalar records (R332). -/
def serIndex (s : State) (after : Bool) (idx : Nat) : List Byte :=
  let subs := fleetSubs idx
  if tableRows idx = 0 then subs.flatMap (fun sub => serScalar idx sub (viewVal s after idx sub 0))
  else
    leBytes 2 idx ++ [0#8, 9#8] ++ leBytes 1 subs.length ++ subs.map (fun sub => BitVec.ofNat 8 sub) ++
      (listedRows s after idx).flatMap (serRow s after idx subs) ++ leBytes 3 0xFFFFFF

/-- The preamble: RKDG, SER_VERSION 0001h, 0000h (R332). -/
def serPreamble : List Byte := [0x52#8, 0x4B#8, 0x44#8, 0x47#8, 1#8, 0#8, 0#8, 0#8]

/-- The serialisation of the FLEET objects (R332). -/
def serialise (s : State) (after : Bool) : List Byte :=
  serPreamble ++ fleetIndices.flatMap (serIndex s after) ++ [0xFF#8, 0xFF#8]

/-- True for an index whose objects are in the configuration image (Table 13.11). -/
def inImage (idx : Nat) : Bool := !(decide (0x4000 ≤ idx ∧ idx ≤ 0x40FF)) && decide (idx ≠ 0x5000)

/-- The BODY of the configuration image (Table 13.11). -/
def serImage (s : State) : List Byte :=
  serPreamble ++ (fleetIndices.filter inImage).flatMap (serIndex s false) ++ [0xFF#8, 0xFF#8]

/-- The records of an image BODY after its preamble, in strictly rising order up to the terminator (R387); the
values as (store number, value). `n` bounds the records. -/
def parseImage : Nat → Nat → List Byte → Option (List (Nat × Nat))
  | 0, _, _ => none
  | n + 1, last, bs =>
    if bs = [0xFF#8, 0xFF#8] then some []
    else
      let idx := natOfLe (bs.take 2)
      let sub := natOfLe ((bs.drop 2).take 1)
      match objFind idx sub with
      | none => none
      | some o =>
        let w := o.ty.width
        let v := natOfLe ((bs.drop 4).take w)
        if last < idx * 256 + sub ∧ o.acc = .rws ∧ inImage idx = true ∧ tableRows idx = 0 ∧
            natOfLe ((bs.drop 3).take 1) = o.ty.code ∧ 4 + w ≤ bs.length ∧ o.admits v = true then
          match parseImage n (idx * 256 + sub) (bs.drop (4 + w)) with
          | some t => some ((okey idx sub 0, v) :: t)
          | none => none
        else none

/-- The values of an image BODY, when it is exactly one serialisation (R387). -/
def imageBody (body : List Byte) : Option (List (Nat × Nat)) :=
  if body.take 8 = serPreamble then parseImage (body.length + 1) 0 (body.drop 8) else none

/-- An extent: index, first line, last line. -/
structure Extent where
  e : Nat
  base : Nat
  limit : Nat
deriving DecidableEq, Repr

/-- The valid extents of a slot, by index (R127). -/
def extents (s : State) (after : Bool) (kidx : Nat) : List Extent :=
  (List.range 4).filterMap (fun e =>
    let row := kidx * 4 + e
    if viewVal s after 0x4003 3 row = 1 then
      some { e := e, base := viewVal s after 0x4003 1 row, limit := viewVal s after 0x4003 2 row }
    else none)

/-- Lines of an extent, n_e (R127). -/
def extLines (x : Extent) : Nat := x.limit + 1 - x.base

/-- True when a line lies in an extent. -/
def extHas (a : Nat) (x : Extent) : Bool := decide (x.base ≤ a ∧ a ≤ x.limit)

/-- The extent of a slot that holds a line. -/
def extentOf (s : State) (kidx a : Nat) : Option Extent := (extents s false kidx).find? (extHas a)

/-- The tag offset O_e of extent e (R77). -/
def tagOffset (s : State) (after : Bool) (kidx e : Nat) : Nat :=
  ((extents s after kidx).filter (fun x => decide (x.e < e))).foldl (fun acc x => acc + (extLines x + 7) / 8) 0

/-- The number of tag lines of a slot's tag region (R79). -/
def tagRegionLines (s : State) (after : Bool) (kidx : Nat) : Nat := tagOffset s after kidx 4

/-- Tag line address and entry number of a line of a CI slot: t = O_e + (a - b_e), tag line TAG_BASE + (t >> 3),
entry t mod 8, as the formulas and the worked example of R77 have it (log 19). -/
def tagPlace (s : State) (kidx a : Nat) : Option (Nat × Nat) :=
  match extentOf s kidx a with
  | none => none
  | some x =>
    let t := tagOffset s false kidx x.e + (a - x.base)
    some (cfgVal s 0x4000 8 kidx + t / 8, t % 8)

/-- The next line of a slot's walk at or after `a`, in rising line address; 2^40 stands for END (R146). -/
def walkFrom (s : State) (kidx a : Nat) : Nat :=
  (extents s false kidx).foldl (fun best x =>
    if x.limit < a then best else min best (max a x.base)) (2 ^ 40)

/-- Lines of the walk at or above `a`. -/
def walkLeft (s : State) (kidx a : Nat) : Nat :=
  (extents s false kidx).foldl (fun n x => n + (x.limit + 1 - max a x.base)) 0

/-- END as a boundary value. -/
def walkEnd : Nat := 2 ^ 40

/-- CLASS of a slot: 1 W, 2 C, 3 CI. -/
def slotClass (s : State) (kidx : Nat) : Nat := cfgVal s 0x4000 3 kidx

/-- The slot of a KIDX; row 0 is EMPTY (R122). -/
def slotOf (s : State) (kidx : Nat) : Slot := tabGet {} s.keys.slots kidx

/-- Put a slot. -/
def slotPut (kidx : Nat) (x : Slot) (s : State) : State :=
  { s with keys := { s.keys with slots := tabPut {} s.keys.slots kidx x } }

/-- The context c. -/
def ctxOf (s : State) (c : Nat) : Ctx := tabGet {} s.rk.ctxs c

/-- Put context c. -/
def ctxPut (c : Nat) (x : Ctx) (s : State) : State := { s with rk := { s.rk with ctxs := tabPut {} s.rk.ctxs c x } }

end Sys2Proof.Machine
end

