-- ==== Sys2Proof/Machine/Nv.lean ====
section
/-! DEFINITION. The NV store and the Wind-up form of its records: reading, choosing copies, encoding, page commits,
and the commands NV_PAGE_DONE and NV_READ_DONE (R276 to R283, R369). -/

namespace Sys2Proof.Machine

/-- One byte of the NV store; an unlisted byte is 00h (log 6). -/
def nvByteAt (s : State) (a : Nat) : Byte := tabGet 0#8 s.nv a

/-- `n` bytes of the NV store. -/
def nvBytes (s : State) (a n : Nat) : List Byte := (List.range n).map (fun i => nvByteAt s (a + i))

/-- A little-endian field of the NV store. -/
def nvNat (s : State) (a n : Nat) : Nat := natOfLe (nvBytes s a n)

/-- Write bytes of the NV store from `a` on. -/
def nvWrite : Nat → List Byte → List Host.Cell → List Host.Cell
  | _, [], m => m
  | a, b :: t, m => nvWrite (a + 1) t (tabPut 0#8 m a b)

/-- The CRC of a copy at address `a` over the bytes before it (R278). -/
def windupCrc (a : Nat) (body : List Byte) : List Byte :=
  leBytes 2 (crc16 0xFFFF#16 (leBytes 3 a ++ body)).toNat

/-- A copy of the Wind-up form: SEQ, the rest and the CRC (R278). -/
def windupCopy (a seq : Nat) (rest : List Byte) : List Byte :=
  let body := leBytes 1 seq ++ rest
  body ++ windupCrc a body

/-- True when the copy of `len` bytes at `a` has a matching CRC. -/
def windupOk (s : State) (a len : Nat) : Bool :=
  decide (nvBytes s (a + len - 2) 2 = windupCrc a (nvBytes s a (len - 2)))

/-- Choose the current copy of a record from its two copies: its address if any, and whether the case is irregular
(R280). -/
def nvSelect (s : State) (a b : Nat) (valid : Nat → Bool) : Option Nat × Bool :=
  match valid a, valid b with
  | true, true =>
    let d := (nvNat s b 1 + 256 - nvNat s a 1) % 256
    if d = 1 then (some b, false)
    else if d = 255 then (some a, false)
    else if 1 ≤ d ∧ d ≤ 127 then (some b, true)
    else (some a, true)
  | true, false => (some a, false)
  | false, true => (some b, false)
  | false, false => (none, false)

/-- Validity of a session record copy (Table 13.5). -/
def sessionValid (s : State) (a : Nat) : Bool :=
  windupOk s a 64 && decide (nvNat s (a + 1) 1 = 0xA1 ∧ nvNat s (a + 2) 2 = 1) &&
    (decide (nvNat s (a + 8) 1 = 1) || decide (nvNat s (a + 8) 1 = 2))

/-- Validity of a checkpoint record copy of context c (Table 13.8). -/
def ckptValid (s : State) (c a : Nat) : Bool :=
  windupOk s a 64 && decide (nvNat s (a + 1) 1 = 0xC1 ∧ nvNat s (a + 2) 1 = c ∧ 1 ≤ nvNat s (a + 3) 1 ∧
    nvNat s (a + 3) 1 ≤ 4 ∧ 1 ≤ nvNat s (a + 4) 2 ∧ nvNat s (a + 4) 2 < 32768 ∧ nvNat s (a + 6) 1 ≤ 2 ∧
    nvNat s (a + 17) 1 ≤ 3)

/-- Validity of a format entry copy (Table 13.9). -/
def fmtValid (s : State) (a : Nat) : Bool :=
  windupOk s a 16 && decide (nvNat s (a + 1) 1 = 0xF1 ∧ nvNat s (a + 2) 2 < 32768 ∧ nvNat s (a + 4) 1 ≤ 3)

/-- Validity of a slot record copy (Table 13.6). -/
def slotRecValid (s : State) (a : Nat) : Bool :=
  let f := nvNat s (a + 1) 1
  windupOk s a 8 && decide (f / 32 = 5) && [0, 2, 3, 4, 5].contains (f % 8)

/-- A repair log entry copy but for the ranges of its fields: CRC and type (R278, Table 13.10). -/
def rlogForm (s : State) (a : Nat) : Bool := windupOk s a 32 && decide (nvNat s (a + 1) 1 = 0xE1)

/-- Validity of a repair log entry copy (R278, Table 13.10). -/
def rlogValid (s : State) (a : Nat) : Bool :=
  rlogForm s a && decide (1 ≤ nvNat s (a + 2) 1 ∧ nvNat s (a + 2) 1 ≤ 4 ∧
    nvNat s (a + 3) 1 ≤ 3 ∧ nvNat s (a + 4) 2 < 768 ∧ nvNat s (a + 6) 2 < 1024 ∧ nvNat s (a + 8) 1 ≤ 16 ∧
    nvNat s (a + 9) 1 ≤ 11 ∧ nvNat s (a + 10) 1 ≤ 15)

/-- Validity of an image copy under R278 alone (Table 13.11). -/
def imageWindup (s : State) (a : Nat) : Bool := decide (nvNat s (a + 1) 1 = 0xB1) && windupOk s a 65536

/-- The values of an image copy whose BODY is valid (R387). -/
def imageVals (s : State) (a : Nat) : Option (List (Nat × Nat)) :=
  let len := nvNat s (a + 6) 4
  if 10 ≤ len ∧ len ≤ 0xFFBE then imageBody (nvBytes s (a + 64) len) else none

/-- Validity of an image copy (R278, R387). -/
def imageValid (s : State) (a : Nat) : Bool := imageWindup s a && (imageVals s a).isSome

/-- The two copies of the configuration image. -/
def imageA : Nat := 0x10000
/-- Copy B of the image. -/
def imageB : Nat := 0x20000

/-- Place and bytes of a KCV place (Table 13.7). -/
def kcvAddr (kidx place : Nat) : Nat := 0xB0000 + kidx * 8 + 4 * place

/-- The four bytes of a KCV place (Table 13.7). -/
def kcvBytes (kidx : Nat) (v : BitVec 24) : List Byte :=
  let b := beBytes 3 v.toNat
  b ++ [byteAt b 0 ^^^ byteAt b 1 ^^^ byteAt b 2 ^^^ BitVec.ofNat 8 kidx ^^^ BitVec.ofNat 8 (kidx / 256) ^^^ 0x5A#8]

/-- The copies of a Wind-up record, its length, and which copy is current. -/
def recPlaces (s : State) (r : NvRec) : Option (Nat × Nat × (Nat → Bool)) :=
  match r with
  | .session _ => some (0x0000, 0x0040, sessionValid s)
  | .ckpt c _ _ _ _ _ _ => some (0x1000 + c * 0x40, 0x2000 + c * 0x40, ckptValid s c)
  | .fmt j _ _ _ => some (0x3000 + j * 0x10, 0x4000 + j * 0x10, fmtValid s)
  | .slot k _ _ _ _ => some (0x30000 + k * 8, 0x70000 + k * 8, slotRecValid s)
  | _ => none

/-- The bytes of a Wind-up record between SEQ and CRC (Tables 13.5, 13.6, 13.8, 13.9). -/
def recRest (s : State) (r : NvRec) : List Byte :=
  match r with
  | .session sh =>
    [0xA1#8] ++ leBytes 2 1 ++ leBytes 4 s.nvu.powerCycles ++ leBytes 1 sh ++ leBytes 7 (frameNo s) ++
      List.replicate 46 0#8
  | .ckpt c cause kidx st two gen bound =>
    let fin := decide (bound = walkEnd)
    let ext := extentOf s kidx bound
    [0xC1#8] ++ leBytes 1 c ++ leBytes 1 cause ++ leBytes 2 kidx ++ leBytes 1 st ++
      leBytes 1 ((if fin then 1 else 0) + (if two then 2 else 0) + (if ext.isSome then 4 else 0)) ++ leBytes 4 gen ++
      leBytes 5 (if fin then 0 else bound) ++
      leBytes 1 (match ext with
        | some x => x.e
        | none => 0) ++
      leBytes 4 s.nvu.powerCycles ++ List.replicate 40 0#8
  | .fmt _ kidx ext mark =>
    [0xF1#8] ++ leBytes 2 kidx ++ leBytes 1 ext ++ [0#8] ++ leBytes 5 mark ++ List.replicate 3 0#8
  | .slot _ st brec asel gen =>
    leBytes 1 (0xA0 + (if brec then 16 else 0) + (if asel then 8 else 0) + st) ++ leBytes 4 gen
  | _ => []

/-- Where a record's next write goes, and its bytes: the non-current copy with SEQ one ahead, or copy A with SEQ 01h
when neither copy is valid (R279). -/
def nvEncode (s : State) (r : NvRec) : Nat × List Byte :=
  match r with
  | .kcv kidx place v => (kcvAddr kidx place, kcvBytes kidx v)
  | .rlog a body => (a, body)
  | .image page =>
    match s.nvu.image with
    | some im => (im.base + 64 * page, (im.bytes.drop (64 * page)).take 64)
    | none => (0, [])
  | _ =>
    match recPlaces s r with
    | none => (0, [])
    | some (a, b, valid) =>
      match (nvSelect s a b valid).1 with
      | none => (a, windupCopy a 1 (recRest s r))
      | some c =>
        let t := if c = a then b else a
        (t, windupCopy t ((nvNat s c 1 + 1) % 256) (recRest s r))

/-- EV_NV_RECORD with its cause, counted in NV_IRREGULAR (Table 13.15). -/
def nvNote (a cause : Nat) (s : State) : State := raise .nvRecord (srcGlobal 5) a cause 0 (countUp 0x6300 6 0 1 s)

/-- A selection between two valid copies of which neither is one ahead is reported (R280). -/
def selNote (r : Option Nat × Bool) (s : State) : State :=
  match r with
  | (some c, true) => nvNote c 1 s
  | _ => s

/-- The selection that the write of a change's next record makes (R279, R280). -/
def jobNote (s : State) (j : NvJob) : State :=
  match j.recs with
  | [] => s
  | r :: _ =>
    match recPlaces s r with
    | none => s
    | some (a, b, valid) => selNote (nvSelect s a b valid) s

/-- The head record of a change with its encoding. -/
def jobHead (s : State) (j : NvJob) : Option (Nat × List Byte) :=
  match j.recs with
  | [] => none
  | r :: _ => some (nvEncode s r)

/-- Take into one page commit every queued change whose next record's copy lies in the page and is not in it yet
(R279). The result is the commit and the changes left. -/
def nvGather (s : State) : List NvJob → NvPage → List Nat → NvPage × List NvJob
  | [], p, _ => (p, [])
  | j :: t, p, seen =>
    match jobHead s j with
    | some (a, bs) =>
      if a / 64 * 64 = p.addr ∧ seen.contains a = false then
        nvGather s t
          { p with data := p.data ++ (List.range bs.length).map (fun i => (a + i - p.addr, byteAt bs i)),
                   jobs := p.jobs ++ [j] } (a :: seen)
      else
        match nvGather s t p seen with
        | (q, rest) => (q, j :: rest)
    | none =>
      match nvGather s t p seen with
      | (q, rest) => (q, j :: rest)

/-- Present the next page commit when none is in progress: queued changes first, then the next image page (R279). A
presented PROGRAM counts as taken by the store (log 6). In PARKED nothing is written (R273). -/
def nvKick (s : State) : State :=
  if s.pwr.phase = .parked then s
  else
    match s.nvu.page with
    | some _ => s
    | none =>
      match s.nvu.jobs with
      | j :: _ =>
        match jobHead s j with
        | some (a, _) =>
          match nvGather s s.nvu.jobs { addr := a / 64 * 64, data := [], jobs := [] } [] with
          | (p, rest) => p.jobs.foldl jobNote { s with nvu := { s.nvu with page := some p, jobs := rest } }
        | none => s
      | [] =>
        match (if s.pwr.phase = .service then s.nvu.image else none) with
        | none => s
        | some im =>
          let j : NvJob := { recs := [.image im.page], act := .imageDone }
          let bs := (im.bytes.drop (64 * im.page)).take 64
          let pg : NvPage :=
            { addr := im.base + 64 * im.page, data := (List.range 64).map (fun i => (i, byteAt bs i)), jobs := [j] }
          { s with nvu := { s.nvu with page := some pg } }

/-- Queue a change. From qualification until the resume only the drain's own records are queued; others stay held
(Table 13.1). -/
def nvPush (j : NvJob) (s : State) : State :=
  if s.pwr.phase = .service ∨ j.own = true then
    nvKick { s with nvu := { s.nvu with jobs := s.nvu.jobs ++ [j] } }
  else { s with nvu := { s.nvu with held := s.nvu.held ++ [j] } }

/-- The bytes of the image copy that carries the configuration in force (Table 13.11). -/
def imageBytes (s : State) (a seq : Nat) : List Byte :=
  let body := serImage s
  let rest := [0xB1#8] ++ leBytes 4 (cfgGen s) ++ leBytes 4 body.length ++ List.replicate 54 0#8 ++ body ++
    List.replicate (65470 - body.length) 0#8
  windupCopy a seq rest

/-- The image write in progress is given up: a page of it that is being committed counts for nothing (Table 13.1,
Table 13.11). -/
def imageDrop (s : State) : State :=
  let page := s.nvu.page.map (fun p => { p with jobs := p.jobs.filter (fun j => j.act != .imageDone) })
  { s with nvu := { s.nvu with image := none, page := page } }

/-- Start, or restart, the write of the image's non-current copy; none from qualification until the resume (R281,
R384). -/
def imageStart (s : State) : State :=
  let sel := nvSelect s imageA imageB (imageValid s)
  let im : ImageJob :=
    match sel.1 with
    | none => { gen := cfgGen s, base := imageA, bytes := imageBytes s imageA 1, page := 0 }
    | some c =>
      let t := if c = imageA then imageB else imageA
      { gen := cfgGen s, base := t, bytes := imageBytes s t ((nvNat s c 1 + 1) % 256), page := 0 }
  match s.pwr.phase with
  | .service =>
    let s := selNote sel (imageDrop s)
    nvKick { s with nvu := { s.nvu with image := some im } }
  | _ => s

/-- The image is written when its generation lags CFG_GEN (R384). -/
def imageCatch (s : State) : State := if regVal s 0x2300 5 0 ≠ cfgGen s then imageStart s else s

/-- What a confirmed change does at once; the others take effect at the next frame strobe (R125). -/
def nvConfirm (act : NvAct) (s : State) : State :=
  match act with
  | .none => s
  | .ckpt c bound => ctxPut c { ctxOf s c with ckpt := bound } s
  | .passStart c => ctxPut c { ctxOf s c with startConf := some (frameNo s), ckpt := (ctxOf s c).bound } s
  | .passDone c => ctxPut c { ctxOf s c with doneConf := some (frameNo s), ckpt := walkEnd } s
  | .sessionClean => { s with pwr := { s.pwr with sessionDone := true } }
  | .sessionRun => imageCatch { s with pwr := { s.pwr with holdWrites := false } }
  | .imageDone => s
  | a => { s with nvu := { s.nvu with acts := s.nvu.acts ++ [a] } }

/-- What a change still has to write once the record at its front is written, if anything. -/
def nvJobRest (j : NvJob) : Option NvJob :=
  match j.recs with
  | _ :: r :: rest => some { j with recs := r :: rest }
  | _ => none

/-- One change of a confirmed page: if it has no record left to write (`nvJobRest`), it is confirmed. -/
def nvJobDone (s : State) (j : NvJob) : State :=
  match j.recs with
  | [] => s
  | [.image pg] =>
    match s.nvu.image with
    | none => s
    | some im =>
      if im.page = pg then
        if pg = 1023 then
          regPut 0x2300 0x05 0 im.gen { s with nvu := { s.nvu with image := none } }
        else { s with nvu := { s.nvu with image := some { im with page := pg + 1 } } }
      else s
  | [_] => nvConfirm j.act s
  | _ :: _ :: _ => s

/-- A failed read-back: write again up to three times in all, then give the changes up as unconfirmed (R279). -/
def nvRetry (p : NvPage) (s : State) : State :=
  if p.tries < 3 then
    count1 0x6300 0x05 0 { s with nvu := { s.nvu with page := some { p with tries := p.tries + 1, reading := false } } }
  else
    let a := match p.data with
      | [] => p.addr
      | (o, _) :: _ => p.addr + o
    let s := raise .nvFault (srcGlobal 6) a 3 0 s
    let s := regPut 0x2300 0x07 0 1 s
    nvKick { s with nvu := { s.nvu with page := none, failed := s.nvu.failed ++ p.jobs,
                                        image := if p.jobs.any (fun j => j.act == .imageDone) then none else s.nvu.image } }

/-- NV_PAGE_DONE: the store has committed the page, or reports a failed commit, which counts as a failed read-back
(R279, R369). The bytes of a failed commit are open: each takes a free value (log 6). -/
def doNvPageDone (err : Bool) (s : State) : State :=
  match s.nvu.page with
  | none => s
  | some p =>
    if p.reading then s
    else if err then
      match takeFree s with
      | (n, s) =>
        nvRetry p { s with nv := p.data.foldl (fun m e =>
          tabPut 0#8 m (p.addr + e.1) (Config.nvByte n e.1)) s.nv }
    else
      count1 0x6300 0x04 0
        { s with nv := p.data.foldl (fun m e => tabPut 0#8 m (p.addr + e.1) e.2) s.nv
                 nvu := { s.nvu with page := some { p with reading := true } } }

/-- NV_PAGE_DONE. -/
def execNvPageDone (err : Bool) (s : State) : Host.Outcome State Fault Refusal := .next (doNvPageDone err s)

/-- NV_READ_DONE's comparison: every byte that the commit loaded reads back as written (R279). -/
def nvMatches (p : NvPage) (page : BitVec 512) : Bool :=
  p.data.all (fun e => decide (page.extractLsb' (8 * e.1) 8 = e.2))

end Sys2Proof.Machine
end

