-- ==== Sys2Proof/Machine/Keys.lean ====
section
/-! DEFINITION. Key slots, materials and key ingest: the key-port commands LOAD_KEK, LOAD_KEY, LOAD_MGMT_KEY,
ERASE_SLOT and QUERY_KCV, and the shared operations on slots (R120 to R142). -/

namespace Sys2Proof.Machine

/-- The generation after g; 1 after 2^32 - 1 (R62). -/
def nextGen (g : BitVec 32) : BitVec 32 := if g = 0xFFFFFFFF#32 then 1#32 else g + 1#32

/-- The generation before g; 2^32 - 1 before 1 (R62, Table 13.8). -/
def prevGen (g : BitVec 32) : BitVec 32 := if g = 1#32 then 0xFFFFFFFF#32 else g - 1#32

/-- The live generations of a slot, newest first (R62). -/
def liveGens (x : Slot) : List (BitVec 32) :=
  if x.gen = 0#32 then [] else if x.two then [x.gen, prevGen x.gen] else [x.gen]

/-- The live generation that KGEN4 names, if any (R62, Table 03.7 row 5). -/
def genByKgen4 (x : Slot) (k4 : BitVec 4) : Option (BitVec 32) :=
  (liveGens x).find? (fun g => g.setWidth 4 == k4)

/-- True when the register that holds a generation is material B (R123). -/
def genInB (x : Slot) (g : BitVec 32) : Bool := x.newInB && x.two && decide (g = x.gen)

/-- The material that holds a live generation (R123). -/
def matOfGen (x : Slot) (g : BitVec 32) : Option Mat := if genInB x g then x.matB else x.matA

/-- A material's key once it is usable: from the strobe after the response of the command (R130). -/
def matKey (s : State) (m : Option Mat) : Option Key :=
  match m with
  | some m => if m.usable ≤ frameNo s then some m.key else none
  | none => none

/-- The derived keys of a live generation, when its material is present and usable (R63). -/
def genKeys (s : State) (kidx : Nat) (g : BitVec 32) : Option GenKeys :=
  match matKey s (matOfGen (slotOf s kidx) g) with
  | some k => some (deriveKeys k g)
  | none => none

/-- The check value of a material: under its data key of generation 0 (R124). -/
def matKcv (k : Key) : BitVec 24 := kcv (deriveKeys k 0#32).data

/-- True for a slot that R80 and R127 treat as EMPTY: EMPTY, or recorded and without any material since the start
(R284). -/
def slotAsEmpty (x : Slot) : Bool := decide (x.st = .empty) || x.restored

/-- The grant row of a slot back to its defaults (R137). -/
def grantReset (kidx : Nat) (s : State) : State :=
  (List.range 5).foldl (fun s i => cfgPut 0x5000 (i + 1) kidx (objDefault 0x5000 (i + 1)) s) s

/-- A slot's materials are erased and its state moves as Table 06.4 states for zeroize_n, ERASE_SLOT and an
uncorrectable key-store error. In EMPTY and ZEROIZED it changes nothing (R389). -/
def slotErase (kidx : Nat) (s : State) : State :=
  let x := slotOf s kidx
  match x.st with
  | .empty => s
  | .zeroized => s
  | .loaded => grantReset kidx (slotPut kidx { rowBad := x.rowBad } s)
  | st => slotPut kidx { x with st := .zeroized, prior := st, matA := none, matB := none } s

/-- A zeroization erases every material: also what a ZEROIZED slot has reloaded, and that of a discarded slot (R138). -/
def slotZeroize (kidx : Nat) (s : State) : State :=
  let x := slotOf s kidx
  if x.st = .empty ∨ x.st = .zeroized then slotPut kidx { x with matA := none, matB := none } s else slotErase kidx s

/-- True when an erase would move the slot. -/
def slotErasable (x : Slot) : Bool := decide (x.st ≠ .empty) && decide (x.st ≠ .zeroized)

/-- Every material of the live generations is present (Table 06.4, ZEROIZED row). -/
def liveMatsHere (x : Slot) : Bool := (liveGens x).all (fun g => (matOfGen x g).isSome)

/-- A reloaded slot leaves ZEROIZED once every live generation has its material (Table 06.4). -/
def slotReloaded (x : Slot) : Slot :=
  if x.st = .zeroized ∧ liveMatsHere x = true then { x with st := x.prior, prior := .empty } else x

/-- Queue a cause for a slot, once (R143, R144). -/
def rkEnqueue (kidx cause : Nat) (s : State) : State :=
  if s.rk.queue.any (fun e => e.kidx == kidx && e.cause == cause) then s
  else { s with rk := { s.rk with queue := s.rk.queue ++ [{ kidx := kidx, cause := cause }] } }

/-- Drop a queued cause of a slot. -/
def rkDequeue (kidx cause : Nat) (s : State) : State :=
  { s with rk := { s.rk with queue := s.rk.queue.filter (fun e => !(e.kidx == kidx && e.cause == cause)) } }

/-- Drop every queued cause of a slot (R144). -/
def rkClearQueue (kidx : Nat) (s : State) : State :=
  { s with rk := { s.rk with queue := s.rk.queue.filter (fun e => e.kidx != kidx) } }

-- Results of Table 06.9

/-- KP_OK. -/
def kpOk : Byte := 0x00#8
/-- KP_UNWRAP. -/
def kpUnwrap : Byte := 0x01#8
/-- KP_NO_KEK. -/
def kpNoKek : Byte := 0x02#8
/-- KP_KEK_HELD. -/
def kpKekHeld : Byte := 0x03#8
/-- KP_STATE. -/
def kpState : Byte := 0x04#8
/-- KP_KCV_MISMATCH. -/
def kpKcvMismatch : Byte := 0x05#8
/-- KP_HOLDOFF. -/
def kpHoldoff : Byte := 0x06#8
/-- KP_ZEROIZED. -/
def kpZeroized : Byte := 0x07#8
/-- KP_BAD_FIELD. -/
def kpBadField : Byte := 0x08#8
/-- KP_STARTING. -/
def kpStarting : Byte := 0x09#8

/-- Loads are refused while zeroize_n is qualified low and until its hold-off ends (R139). -/
def holdoffActive (s : State) : Bool :=
  s.keys.zer.lowQual ||
    (match s.keys.zer.returned with
     | some f => !framesOver s f 16
     | none => false)

/-- The OPC byte of a command of the row whose OPC is `opc`. -/
def kpOpc (opc : Byte) (k : KpCmd) : Byte := k.odd.getD opc

/-- The 64 bytes of a command (Table 06.6): OPC, SEQ, KIDX little-endian, MSEL, three reserved bytes, the payload. -/
def kpCmdBytes (opc : Byte) (k : KpCmd) : List Byte :=
  [kpOpc opc k, k.seq] ++ leBytes 2 k.kidx.toNat ++ [k.msel] ++ leBytes 3 k.resv.toNat ++ beBytes 56 k.payload.toNat

/-- The OPC and the fields of a command's 64 bytes (Table 06.6); a framing that R368 rejects comes beside them. -/
def kpCmdRead (bs : List Byte) (framed : Bool) : Byte × KpCmd :=
  (byteAt bs 0,
   { seq := byteAt bs 1, kidx := BitVec.ofNat 16 (natOfLe ((bs.drop 2).take 2)), msel := byteAt bs 4,
     resv := BitVec.ofNat 24 (natOfLe ((bs.drop 5).take 3)), payload := BitVec.ofNat 448 (natOfBe ((bs.drop 8).take 56)),
     framed := framed })

/-- The 8 bytes of a response (Table 06.7): the KCV goes with its bits [23:16] first (R128). -/
def kpRspBytes (r : KpRsp) : List Byte := [r.opc, r.seq, r.result] ++ beBytes 3 r.kcv.toNat ++ [0#8, 0#8]

/-- Put a key-port response (Table 06.7). -/
def kpRespond (opc : Byte) (k : KpCmd) (res : Byte) (v : BitVec 24) (s : State) : State :=
  { s with keys := { s.keys with
      kpRsp := some { opc := kpOpc opc k, seq := k.seq, result := res, kcv := v }, kpLast := none } }

/-- A refusal: counted, and EV_KEY_LOAD_FAIL with the KIDX, OPC, RESULT and MSEL of the command (R130). -/
def kpRefuse (opc : Byte) (k : KpCmd) (res : Byte) (s : State) : State :=
  let s := kpRespond opc k res 0#24 s
  let s := count1 0x6060 0x02 0 s
  raise .keyLoadFail (srcGlobal 10) k.kidx.toNat ((kpOpc opc k).toNat + 256 * res.toNat) k.msel.toNat s

/-- A command performed: `s0` is the state before it. -/
def kpDone (opc : Byte) (k : KpCmd) (v : BitVec 24) (s0 s : State) : State :=
  let s := count1 0x6060 0x01 0 (kpRespond opc k kpOk v s)
  let l : KpLast := { cyc := now s, cmd := k, slot := slotOf s0 k.kidx.toNat, high := s0.pins.zeroized }
  { s with keys := { s.keys with kpLast := some l } }

/-- The field checks of Table 06.9 (KP_BAD_FIELD): OPC, framing, reserved bytes, KIDX and MSEL ranges, zero payload parts.
DESIGN CHOICE: MSEL of LOAD_KEK and ERASE_SLOT, for which Table 06.6 gives it no meaning, is in range as 0 only (log 75). -/
def kpFieldsOk (opc : Nat) (k : KpCmd) : Bool :=
  k.odd.isNone && k.framed && decide (k.resv = 0#24) &&
    (match opc with
     | 1 => decide (k.kidx = 0#16 ∧ k.msel = 0#8 ∧ k.payload.extractLsb' 0 192 = 0#192)
     | 2 => decide (1 ≤ k.kidx.toNat ∧ k.kidx.toNat ≤ 32767 ∧ k.msel.toNat ≤ 1)
     | 3 => decide (k.kidx = 0#16 ∧ k.msel.toNat ≤ 7)
     | 4 => decide (1 ≤ k.kidx.toNat ∧ k.kidx.toNat ≤ 32767 ∧ k.msel = 0#8 ∧ k.payload = 0#448)
     | _ => decide (1 ≤ k.kidx.toNat ∧ k.kidx.toNat ≤ 32767 ∧ k.msel.toNat ≤ 1 ∧ k.payload = 0#448))

/-- The first refusal that every key-port command can meet: KP_STARTING, KP_BAD_FIELD, KP_HOLDOFF (R388). -/
def kpEarly (opc : Nat) (k : KpCmd) (load : Bool) (s : State) : Option Byte :=
  if s.pwr.stage ≠ .served then some kpStarting
  else if kpFieldsOk opc k = false then some kpBadField
  else if load = true ∧ holdoffActive s = true then some kpHoldoff
  else none

/-- Answer an early refusal; KP_STARTING counts nothing and raises nothing (R132). While a reset is asserted the port is
clamped. -/
def kpEarlyDo (opc : Byte) (k : KpCmd) (res : Byte) (s : State) : State :=
  if s.clk.running = false then s
  else if res = kpStarting then kpRespond opc k res 0#24 s
  else kpRefuse opc k res s

/-- LOAD_KEK: the KEK is accepted only when none is held; zeroized falls (R131, R138). -/
def doLoadKek (k : KpCmd) (s : State) : State :=
  match kpEarly 1 k true s with
  | some r => kpEarlyDo 0x01#8 k r s
  | none =>
    match s.keys.kek with
    | some _ => kpRefuse 0x01#8 k kpKekHeld s
    | none =>
      let kek : Key := k.payload.extractLsb' 192 256
      kpDone 0x01#8 k (kcv kek) s
        { s with keys := { s.keys with kek := some kek, zer := { s.keys.zer with erased := false } },
                 pins := { s.pins with zeroized := false } }

/-- LOAD_KEK. -/
def execLoadKek (k : KpCmd) (s : State) : Host.Outcome State Fault Refusal := .next (doLoadKek k s)

/-- The key inside a wrapped payload whose binding bytes are as given and whose reserved bytes are zero (R129,
Table 06.8). -/
def kpOpen (kek : Key) (k : KpCmd) (kidx msel cls prin use : Nat) : Option Key :=
  match kwUnwrap kek k.payload with
  | none => none
  | some pt =>
    let bind := leBytes 2 kidx ++ leBytes 1 msel ++ leBytes 1 cls ++ leBytes 2 prin ++ leBytes 1 use ++
      List.replicate 9 0#8
    if (List.range 16).map (fun i => pt.extractLsb' (8 * (15 - i)) 8) = bind then some (pt.extractLsb' 128 256)
    else none

/-- LOAD_MGMT_KEY: a management session key replaces the one at its index; the session value changes, so its last SEQ
restarts and its subscription ends (R129, R317, R318). -/
def doLoadMgmtKey (k : KpCmd) (s : State) : State :=
  match kpEarly 3 k true s with
  | some r => kpEarlyDo 0x03#8 k r s
  | none =>
    match s.keys.kek with
    | none => kpRefuse 0x03#8 k kpNoKek s
    | some kek =>
      match kpOpen kek k 0 k.msel.toNat 0 0 2 with
      | none => kpRefuse 0x03#8 k kpUnwrap s
      | some mk =>
        let i := k.msel.toNat
        let ss := tabGet {} s.sessions i
        let ss : Session := { loads := ss.loads + 1#16, lastSeq := 0#32 }
        kpDone 0x03#8 k 0#24 s
          { s with keys := { s.keys with mks := tabSet s.keys.mks i mk },
                   sessions := tabPut {} s.sessions i ss,
                   ev := { s.ev with subs := tabDel s.ev.subs i } }

/-- LOAD_MGMT_KEY. -/
def execLoadMgmtKey (k : KpCmd) (s : State) : Host.Outcome State Fault Refusal := .next (doLoadMgmtKey k s)

/-- How LOAD_KEY meets a slot (Table 06.10). -/
inductive KeyAdmit where
  | no
  | fresh
  | reload
  | rotate
deriving DecidableEq, Repr

/-- Table 06.10. -/
def keyAdmit (x : Slot) (toB : Bool) : KeyAdmit :=
  match x.st, toB with
  | .empty, false => .fresh
  | .loaded, false => .fresh
  | .active, false => if x.matA.isNone then .reload else .no
  | .spent, false => if x.matA.isNone then .reload else .no
  | .active, true => if x.matA.isSome ∧ x.matB.isNone then .rotate else .no
  | .spent, true => if x.matA.isSome ∧ x.matB.isNone then .rotate else .no
  | .rotating, false => if x.matA.isNone then .reload else .no
  | .rotating, true => if x.matB.isNone then .reload else .no
  | .zeroized, false => if x.matA.isNone then .reload else .no
  | .zeroized, true => if x.prior = .rotating ∧ x.matB.isNone then .reload else .no
  | _, _ => .no

/-- The fields of a slot record (Table 13.6). -/
structure SlotRec where
  st : Nat
  brec : Bool
  asel : Bool
  gen : Nat
deriving DecidableEq, Repr

/-- The state number of a slot record; a ZEROIZED slot is recorded in its prior state (Table 13.6). -/
def recSt (x : Slot) : Nat :=
  match (if x.st = .zeroized then x.prior else x.st) with
  | .active => 2
  | .rotating => 3
  | .retiring => 4
  | .spent => 5
  | _ => 0

/-- The lower generation that a slot record names (Table 13.6). -/
def recGen (x : Slot) : Nat := if x.two then (prevGen x.gen).toNat else x.gen.toNat

/-- The record of a slot after the completion of a pass of cause 1 or 2 that went to generation `g1`: a RETIRING slot stays
so (Table 13.12). -/
def recDone (cause g1 : Nat) (r : SlotRec) : SlotRec :=
  if cause = 1 then { st := if r.st = 4 then 4 else 2, brec := false, asel := !r.asel, gen := g1 } else { r with gen := g1 }

/-- The record of a slot after a confirmed change that waits for its strobe. -/
def recAct (k : Nat) (r : SlotRec) (a : NvAct) : SlotRec :=
  if a = .activate k then { st := 2, brec := false, asel := false, gen := 1 }
  else if a = .rotate k then { r with st := if r.st = 4 then 4 else 3, brec := true }
  else if a = .retire k then { r with st := 4 }
  else if a = .spent k then { r with st := if r.st = 4 then 4 else 5 }
  else r

/-- The last slot record of a slot among changes that wait to be written. -/
def recQueued (k : Nat) (l : List NvJob) : Option SlotRec :=
  ((l.flatMap (fun j => j.recs)).filterMap (fun r => match r with
    | .slot k' st b a g => if k' = k then some { st := st, brec := b, asel := a, gen := g } else none
    | _ => none)).getLast?

/-- The slot record as it will stand once every change of the slot that is confirmed or waits has been written: what the
next change of the slot starts from (R282). -/
def slotRecNow (s : State) (k : Nat) : SlotRec :=
  let x := slotOf s k
  let jobs := (match s.nvu.page with
    | some p => p.jobs
    | none => []) ++ s.nvu.jobs ++ s.nvu.held
  match recQueued k jobs with
  | some r => r
  | none =>
    let done := s.rk.ctxs.filter (fun e => e.2.kidx == k && e.2.doneConf.isSome && decide (e.2.cause ≤ 2))
    let r := done.foldl (fun r e => recDone e.2.cause (nextGen e.2.gen).toNat r)
      { st := recSt x, brec := x.brec, asel := x.asel, gen := recGen x }
    s.nvu.acts.foldl (recAct k) r

/-- Install material as Table 06.10 admits it; a rotation queues the records of Table 13.12. -/
def keyInstall (adm : KeyAdmit) (kidx : Nat) (toB : Bool) (key : Key) (s : State) : State :=
  let x := slotOf s kidx
  let m : Option Mat := some { key := key, usable := frameNo s + 1 }
  match adm with
  | .no => s
  | .fresh =>
    let s := { s with keys := { s.keys with eraseNext := s.keys.eraseNext.filter (fun i => i != kidx) } }
    slotPut kidx { x with st := .loaded, matA := m, kcvA := matKcv key } s
  | .reload =>
    let x := if toB then { x with matB := m } else { x with matA := m }
    slotPut kidx (slotReloaded { x with restored := false }) s
  | .rotate =>
    let v := matKcv key
    let s := slotPut kidx { x with matB := m, kcvB := v, kcvBBad := false } s
    let r := recAct kidx (slotRecNow s kidx) (.rotate kidx)
    nvPush { recs := [.kcv kidx (if r.asel then 0 else 1) v, .slot kidx r.st true r.asel r.gen], act := .rotate kidx } s

/-- The check value of a reload equals the recorded one (R133, Table 13.7). -/
def reloadOk (x : Slot) (toB : Bool) (key : Key) : Bool :=
  if toB then !x.kcvBBad && decide (matKcv key = x.kcvB) else !x.kcvABad && decide (matKcv key = x.kcvA)

/-- LOAD_KEY (R129, R130, R133). -/
def doLoadKey (k : KpCmd) (s : State) : State :=
  match kpEarly 2 k true s with
  | some r => kpEarlyDo 0x02#8 k r s
  | none =>
    match s.keys.kek with
    | none => kpRefuse 0x02#8 k kpNoKek s
    | some kek =>
      let kidx := k.kidx.toNat
      let toB := decide (k.msel = 1#8)
      let x := slotOf s kidx
      let adm := keyAdmit x toB
      if adm = .no then kpRefuse 0x02#8 k kpState s
      else
        match kpOpen kek k kidx k.msel.toNat (slotClass s kidx) (cfgVal s 0x4000 2 kidx) 1 with
        | none => kpRefuse 0x02#8 k kpUnwrap s
        | some key =>
          if adm = .reload ∧ reloadOk x toB key = false then kpRefuse 0x02#8 k kpKcvMismatch s
          else kpDone 0x02#8 k (matKcv key) s (keyInstall adm kidx toB key s)

/-- LOAD_KEY. -/
def execLoadKey (k : KpCmd) (s : State) : Host.Outcome State Fault Refusal := .next (doLoadKey k s)

/-- ERASE_SLOT: admitted in every state and during the hold-off (R389). -/
def doEraseSlot (k : KpCmd) (s : State) : State :=
  match kpEarly 4 k false s with
  | some r => kpEarlyDo 0x04#8 k r s
  | none => kpDone 0x04#8 k 0#24 s (slotErase k.kidx.toNat s)

/-- QUERY_KCV: the check value of a present material, KP_STATE for an absent one (R131). -/
def doQueryKcv (k : KpCmd) (s : State) : State :=
  match kpEarly 5 k false s with
  | some r => kpEarlyDo 0x05#8 k r s
  | none =>
    let x := slotOf s k.kidx.toNat
    match (if k.msel = 1#8 then x.matB else x.matA) with
    | none => kpRefuse 0x05#8 k kpState s
    | some m => kpDone 0x05#8 k (matKcv m.key) s s

/-- QUERY_KCV. -/
def execQueryKcv (k : KpCmd) (s : State) : Host.Outcome State Fault Refusal := .next (doQueryKcv k s)

-- SLOT_CMD (Table 06.4)

/-- The lowest free format entry (R283). -/
def fmtFree (s : State) : Option Nat := (List.range 256).find? (fun j => (tabFind s.nvu.fmtSlots j).isNone)

/-- The format entry of a slot, if it holds one. -/
def fmtOf (s : State) (kidx : Nat) : Option Nat :=
  match s.nvu.fmtSlots.find? (fun e => e.2 == kidx) with
  | some e => some e.1
  | none => none

/-- SLOT_CMD ACTIVATE is permitted: LOADED, a valid principal, a valid extent, and for CI a free format entry
(Table 06.4, R283). -/
def activateOk (s : State) (kidx : Nat) : Bool :=
  decide ((slotOf s kidx).st = .loaded) && decide (cfgVal s 0x4002 1 (cfgVal s 0x4000 2 kidx) = 1) &&
    decide (extents s false kidx ≠ []) &&
    (decide (slotClass s kidx ≠ 3) || (fmtOf s kidx).isSome || (fmtFree s).isSome)

/-- The records of ACTIVATE (Table 13.12). -/
def activateJob (s : State) (kidx j : Nat) : NvJob :=
  let x := slotOf s kidx
  let fmt : List NvRec :=
    if slotClass s kidx = 3 then
      match extents s false kidx with
      | [] => []
      | e :: _ => [.fmt j kidx e.e e.base]
    else []
  { recs := [.kcv kidx 0 x.kcvA] ++ fmt ++ [.slot kidx 2 false false 1], act := .activate kidx }

/-- SLOT_CMD ACTIVATE once permitted: its records are queued; the state changes at the strobe after they are confirmed
(R125). -/
def slotActivate (kidx : Nat) (s : State) : State :=
  let j := match fmtOf s kidx with
    | some j => j
    | none => (fmtFree s).getD 0
  let job := activateJob s kidx j
  let s := if slotClass s kidx = 3 then
      { s with nvu := { s.nvu with fmtSlots := tabSet s.nvu.fmtSlots j kidx } }
    else s
  nvPush job s

/-- SLOT_CMD DISCARD: EMPTY at once, the material erased in the next frame (Table 06.4). -/
def slotDiscard (kidx : Nat) (s : State) : State :=
  let x := slotOf s kidx
  let s := slotPut kidx { ({} : Slot) with matA := x.matA, rowBad := x.rowBad } s
  grantReset kidx { s with keys := { s.keys with eraseNext := kidx :: s.keys.eraseNext } }

/-- SLOT_CMD RETIRE is permitted (Table 06.4). -/
def retireOk (s : State) (kidx : Nat) : Bool :=
  match (slotOf s kidx).st with
  | .active => true
  | .rotating => true
  | .spent => true
  | .zeroized => true
  | _ => false

/-- SLOT_CMD RETIRE: the slot record RETIRING is queued; the rest follows when it takes effect (Table 13.12, R144). -/
def slotRetire (kidx : Nat) (s : State) : State :=
  let r := slotRecNow s kidx
  nvPush { recs := [.slot kidx 4 r.brec r.asel r.gen], act := .retire kidx } s

/-- A next-generation cause at generation 2^32 - 1 makes the slot SPENT once its record is confirmed (R116). -/
def slotSpent (kidx : Nat) (s : State) : State :=
  let r := recAct kidx (slotRecNow s kidx) (.spent kidx)
  nvPush { recs := [.slot kidx r.st r.brec r.asel r.gen], act := .spent kidx } s

-- A key-port command that a zeroization aborts (R388, Table 06.14)

/-- A change that waits to be written is given up. -/
def nvForget (a : NvAct) (s : State) : State :=
  let keep := fun (l : List NvJob) => l.filter (fun j => j.act != a)
  { s with nvu := { s.nvu with
      jobs := keep s.nvu.jobs, held := keep s.nvu.held, page := s.nvu.page.map (fun p => { p with jobs := keep p.jobs }) } }

/-- What a performed command did is undone. The erase that follows leaves an ERASE_SLOT nothing to undo. -/
def kpUndo (opc : Nat) (l : KpLast) (s : State) : State :=
  let k := l.cmd.kidx.toNat
  match opc with
  | 1 => { s with keys := { s.keys with kek := none, zer := { s.keys.zer with erased := l.high } },
                  pins := { s.pins with zeroized := l.high } }
  | 2 => slotPut k l.slot (if (slotOf s k).matB = l.slot.matB then s else nvForget (.rotate k) s)
  | 3 =>
    let i := l.cmd.msel.toNat
    let ss := tabGet {} s.sessions i
    { s with sessions := tabPut {} s.sessions i { ss with loads := ss.loads - 1#16 } }
  | _ => s

/-- A zeroization aborts the key-port command of its own cycle: KP_ZEROIZED, a refusal (R388, Table 06.14). DESIGN CHOICE: a
command is one step, so it executes in the cycle of its last beat and in no other (log 42). -/
def kpAbort (s : State) : State :=
  match s.keys.kpLast, s.keys.kpRsp with
  | some l, some r =>
    if l.cyc = now s then
      kpRefuse r.opc l.cmd kpZeroized (regPut 0x6060 1 0 (regVal s 0x6060 1 0 - 1) (kpUndo r.opc.toNat l s))
    else s
  | _, _ => s

end Sys2Proof.Machine
end

