-- ==== Sys2Proof/Machine/Respond.lean ====
section
/-! DEFINITION. Credits, egress queues, responses and the link drop (R165 to R169, R192, R193, R203, R213, R214, R238
to R246). -/

namespace Sys2Proof.Machine

/-- Link port p. -/
def linkOf (s : State) (p : Nat) : LinkSt := tabGet {} s.links p

/-- Put link port p. -/
def linkPut (p : Nat) (x : LinkSt) (s : State) : State := { s with links := tabPut {} s.links p x }

/-- Change link port p. -/
def linkMod (p : Nat) (f : LinkSt → LinkSt) (s : State) : State := linkPut p (f (linkOf s p)) s

/-- The index of group g of link port p (R347). -/
def linkIdx (p g : Nat) : Nat := 0x3000 + 16 * p + g

-- Streams and accounts

/-- The valid stream row of a (port, SID) in a view of the tables (R120). -/
def streamRowIn (s : State) (after : Bool) (p sid : Nat) : Option Nat :=
  (listedRows s after 0x4001).find? (fun r =>
    viewVal s after 0x4001 1 r == 1 && viewVal s after 0x4001 2 r == p && viewVal s after 0x4001 3 r == sid)

/-- The valid stream row of a (port, SID) in force. -/
def streamRow (s : State) (p sid : Nat) : Option Nat := streamRowIn s false p sid

/-- The key of an account. -/
def acctKey (p sid : Nat) : Nat := p * 4096 + sid

/-- S_WINDOW of an account's stream; a closing account has none (R239). -/
def acctWindow (s : State) (k : Nat) (a : Acct) : Nat :=
  if a.closing then 0
  else
    match streamRow s (k / 4096) (k % 4096) with
    | some r => cfgVal s 0x4001 0x10 r
    | none => 0

/-- Outstanding credits: (GRANTED - RECEIVED) mod 2^16. -/
def acctOut (a : Acct) : Nat := (a.granted + 65536 - a.received) % 65536

/-- INGRESS_CELLS for an EGRESS_CELLS value (Table 09.3). -/
def ingressCells (egress : Nat) : Nat := 262144 - 128 * egress - 1920

/-- INGRESS_CELLS less the cells that bad rows hold (Table 14.4). -/
def ingressNow (s : State) : Nat := ingressCells (cfgVal s 0x2080 1 0) - regVal s 0x2400 0x0F 0

/-- The sum of R239 over all valid streams and closing accounts. -/
def creditSum (s : State) : Nat :=
  s.accts.foldl (fun n e => n + max (acctWindow s e.1 e.2) (acctOut e.2 + e.2.held)) 0

/-- Raise GRANTED of one account towards its limit, and end a closing account that is spent: its counts are kept (R239,
R243). -/
def creditRaise (k : Nat) (s : State) : State :=
  match tabFind s.accts k with
  | none => s
  | some a =>
    if a.closing then
      if acctOut a = 0 ∧ a.held = 0 then { s with accts := tabDel s.accts k, pastAccts := tabSet s.pastAccts k a } else s
    else
      let room := acctWindow s k a - a.held - acctOut a
      if room = 0 ∨ creditSum s > ingressNow s then s
      else
        let adv := match a.advAt with
          | some f => some f
          | none => some (frameNo s)
        { s with accts := tabSet s.accts k { a with granted := (a.granted + room) % 65536, advAt := adv } }

/-- One entry of a CREDIT_GRANT or CREDIT_RETURN body: SID and count (R168). -/
def creditEntry (sid count : Nat) : List Byte := leBytes 2 sid ++ leBytes 2 count

/-- An empty entry: SID with bit 15 set. -/
def creditEmpty : List Byte := [0x00#8, 0x80#8, 0x00#8, 0x00#8]

/-- Bytes as a 128-bit slot, byte i in bits [8i+7:8i]. -/
def slotOfBytes (bs : List Byte) : BitVec 128 :=
  bs.foldr (fun b (acc : BitVec 128) => (acc <<< 8) ||| b.setWidth 128) 0

/-- True for a partner-agent item: CREDIT_GRANT and the RESYNC items (Table 08.1). -/
def rspPartner (r : Rsp) : Bool := decide (0x85 ≤ r.op.toNat)

/-- The items of EQ(p, RSP). -/
def eqOf (s : State) (p : Nat) : List Rsp := tabGet [] s.pool.eq p

/-- Put the items of EQ(p, RSP). -/
def eqPut (p : Nat) (l : List Rsp) (s : State) : State := { s with pool := { s.pool with eq := tabPut [] s.pool.eq p l } }

/-- Link a partner-agent item at the head of EQ(p, RSP), behind the partner items already there (R193). -/
def partnerLink (p : Nat) (r : Rsp) (s : State) : State :=
  let q := eqOf s p
  eqPut p (q.takeWhile rspPartner ++ r :: q.dropWhile rspPartner) s

/-- A kept cell of link p is free: the partner agent has 32 (R190, R193). -/
def keptFree (s : State) (p : Nat) : Bool := decide (((eqOf s p).filter rspPartner).length < 32)

/-- Place a partner-agent item in a kept cell, or let it wait for one (R193, R246). -/
def partnerPush (p : Nat) (r : Rsp) (s : State) : State :=
  if keptFree s p = true ∧ (linkOf s p).feed = [] then partnerLink p r s
  else linkMod p (fun x => { x with feed := x.feed ++ [r] }) s

/-- Refill the kept cells that the LFX has taken, in order; `n` bounds the items (R246). -/
def partnerFeed : Nat → Nat → State → State
  | 0, _, s => s
  | n + 1, p, s =>
    match (linkOf s p).feed with
    | [] => s
    | r :: t => if keptFree s p then partnerFeed n p (partnerLink p r (linkMod p (fun x => { x with feed := t }) s)) else s

/-- A CREDIT_GRANT item of up to three entries (R240). -/
def grantItem (es : List (Nat × Nat)) : Rsp :=
  let ent := fun i => match es[i]? with
    | some (sid, c) => creditEntry sid c
    | none => creditEmpty
  { op := 0x85#8, status := 0#8,
    raw := slotOfBytes ([0x85#8, 0#8] ++ ent 0 ++ ent 1 ++ ent 2 ++ [0#8, 0#8]) }

/-- Send the CREDIT_GRANT entries of some accounts of a port, three to an item; `n` bounds the items. -/
def grantSend : Nat → Nat → List Nat → State → State
  | 0, _, _, s => s
  | n + 1, p, ks, s =>
    match ks with
    | [] => s
    | _ =>
      let es := (ks.take 3).filterMap (fun k => match tabFind s.accts k with
        | some a => some (k % 4096, a.granted)
        | none => none)
      let accts := (ks.take 3).foldl (fun t k => match tabFind t k with
        | some a => tabSet t k { a with sent := a.granted, advAt := none }
        | none => t) s.accts
      grantSend n p (ks.drop 3) (partnerPush p (grantItem es) { s with accts := accts })

/-- True once a link may carry items besides the RESYNC list: it is up and its list has been sent (R246). -/
def linkServes (s : State) (p : Nat) : Bool := (linkOf s p).up && decide ((linkOf s p).resync ≠ 1)

/-- Send the grants of a port whose unsent advance has reached GRANT_BATCH, and with them every other unsent advance of
the port up to three entries (R240). -/
def grantBatch (p : Nat) (s : State) : State :=
  let batch := cfgVal s 0x20A0 6 0
  let due := s.accts.filter (fun e => e.1 / 4096 == p && !e.2.closing &&
    decide (batch ≤ (e.2.granted + 65536 - e.2.sent) % 65536))
  if linkServes s p then grantSend (due.length + 1) p (due.map (fun e => e.1)) s else s

/-- Raise every account that may be raised, and send what has become due (R239, R240). -/
def creditRaiseAll (s : State) : State :=
  let ks := s.accts.map (fun e => e.1)
  let s := ks.foldl (fun s k => creditRaise k s) s
  (ks.foldl (fun l k => insertNat (k / 4096) l) []).foldl (fun s p => grantBatch p s) s

/-- An account stands below its limit because the sum of R239 holds its grant back. -/
def creditWaits (s : State) : Bool :=
  s.accts.any (fun e => !e.2.closing && decide (e.2.held + acctOut e.2 < acctWindow s e.1 e.2))

/-- After a release or a return: the account is raised, then every other whose grant the sum held back, and what has become
due is sent (R239, R240). -/
def creditSettle (p k : Nat) (s : State) : State :=
  let s := creditRaise k s
  if creditWaits s then creditRaiseAll s else grantBatch p s

/-- Release `n` cells of a stream (R192, R239, R240). -/
def creditRelease (p sid n : Nat) (s : State) : State :=
  let k := acctKey p sid
  match tabFind s.accts k with
  | none => s
  | some a => creditSettle p k { s with accts := tabSet s.accts k { a with held := a.held - n } }

-- Responses

/-- Slots of an item of a request type (Table 08.1). -/
def opCells (op : ReqOp) : Nat :=
  match op with
  | .readLine => 1
  | .writeLine => 5
  | .writePartial => 6
  | .readRaw => 1
  | .writeRaw => 6
  | .readTag => 1
  | .writeTag => 6

/-- Opcode of a request type (Table 08.1). -/
def opCode (op : ReqOp) : Nat :=
  match op with
  | .readLine => 1
  | .writeLine => 2
  | .writePartial => 3
  | .readRaw => 4
  | .writeRaw => 5
  | .readTag => 6
  | .writeTag => 7

/-- True for the types that return data. -/
def opReads (op : ReqOp) : Bool :=
  match op with
  | .readLine => true
  | .readRaw => true
  | .readTag => true
  | _ => false

/-- True for the raw types. -/
def opRaw (op : ReqOp) : Bool :=
  match op with
  | .readRaw => true
  | .writeRaw => true
  | .readTag => true
  | .writeTag => true
  | _ => false

/-- True for the tag-line raw types. -/
def opTag (op : ReqOp) : Bool :=
  match op with
  | .readTag => true
  | .writeTag => true
  | _ => false

/-- Add an entry to a port's fates; a later entry of a tag replaces the earlier (R249). -/
def fateAdd (f : FateEnt) (l : List FateEnt) : List FateEnt := l.filter (fun e => e.tag != f.tag) ++ [f]

/-- The fate of a finished write (Table 11.7). -/
def writeFate (tag : BitVec 16) (st : Nat) : FateEnt :=
  { tag := tag, fate := if st ≤ 1 then 1 else 3, status := st }

/-- The fate that a response stands for (Table 11.7); partner items have none. -/
def rspFate (r : Rsp) : Option FateEnt :=
  if r.op = 0x81#8 ∨ r.op = 0x82#8 then some { tag := r.tag, fate := 2, status := 0 }
  else if r.op = 0x83#8 then some (writeFate r.tag r.status.toNat)
  else if r.op = 0x84#8 then some { tag := r.tag, fate := 3, status := 0 }
  else none

/-- Record a fate on a link. -/
def linkFate (p : Nat) (f : FateEnt) (s : State) : State := linkMod p (fun x => { x with fates := fateAdd f x.fates }) s

/-- A tag of a port is used anew: its older entry goes (R245, R249). -/
def fateDrop (p : Nat) (tag : BitVec 16) (s : State) : State :=
  linkMod p (fun x => { x with
    fates := x.fates.filter (fun e => e.tag != tag)
    kept := x.kept.filter (fun e => e.tag != tag)
    held := x.held.map (fun h => { h with fates := h.fates.filter (fun e => e.tag != tag) }) }) s

/-- True when a source is link p. -/
def srcIs (r : Src) (p : Nat) : Bool :=
  match r with
  | .link q => q.val == p
  | .master _ => false

-- Link down

/-- What the pool and the partner agent do at a drop: EQ(p, RSP) empties, its responses and those in unacknowledged
flits become fates, the released cells send no grant, and every request of the port is marked (R203, R244, R245). -/
def linkDropPool (p : Nat) (s : State) : State :=
  let x := linkOf s p
  let q := eqOf s p
  let fs := x.held.flatMap (fun h => h.fates) ++ q.filterMap rspFate
  let s := linkPut p { x with fates := fs.foldl (fun l f => fateAdd f l) x.fates, everUp := x.everUp || x.up, up := false } s
  let s := q.foldl (fun s r => if rspPartner r then s else creditRelease p r.sid.toNat 1 s) (eqPut p [] s)
  { s with pool := { s.pool with
      items := s.pool.items.map (fun i => if srcIs i.src p then { i with gone := true } else i)
      txns := s.pool.txns.map (fun t => if srcIs t.item.src p then { t with item := { t.item with gone := true } } else t)
      fences := s.pool.fences.map (fun f => if srcIs f.src p then { f with gone := true } else f)
      lost := s.pool.lost.map (fun e => (e.1, if srcIs e.2.src p then { e.2 with gone := true } else e.2)) } }

/-- Declare link p down with a cause (R213, R214, R203). -/
def linkDown (p cause : Nat) (s : State) : State :=
  let x := linkOf s p
  let frames := match x.lost with
    | some (f, _) => if cause = 1 then frameNo s - f else 0
    | none => 0
  let s := raise .linkDown (srcLink p 0) cause x.held.length frames s
  let s := count1 (linkIdx p 1) 8 0 s
  let s := count1 0x6000 8 0 s
  let s := regPut (linkIdx p 1) 9 0 cause s
  let s := linkDropPool p s
  linkMod p (fun x => { x with
    lock := false, light := false, up := false, first := false, nakAt := none,
    lost := none, downLeft := 16, downOn := true, downCause := cause, downLight := x.light, negOpen := false,
    select := none, selSent := false, selectDue := [], own := none, feed := [], timerAt := none, run := 0, nxt := 0, una := 0, held := [], replay := none, ack := 4095,
    e := 0, nakOwed := false, nakSent := false, retxSeen := false, uncovered := 0, ackDue := false, expiries := 0,
    mayData := false, hbDue := false, resync := 0 }) s

-- Responses

-- Queue resets of egress queues (R199, R201)

/-- The source of a queue's pointer event: its media port, or its link port (Table 09.8). -/
def queueSrc (q : Nat) : Nat := if q < 128 then srcMedia (q / 8) 5 else srcLink ((q - 128) / 2) 5

/-- Give a queue a fresh owner id; the old one is retired. False when no spare id is free (R199, R201). -/
def queueNewId (q : Nat) (s : State) : Bool × State :=
  match s.pool.spare with
  | [] => (false, s)
  | id :: t =>
    let old := tabGet q s.pool.owner q
    (true, { s with pool := { s.pool with owner := tabPut q s.pool.owner q id, spare := t,
                                          retired := s.pool.retired ++ [(old, false)] } })

/-- The copies of a queue's pointers agree again once the mismatch has been acted on. -/
def ptrMend (q : Nat) (s : State) : State := { s with pool := { s.pool with ptrBad := tabDel s.pool.ptrBad q } }

/-- Cells of one response in a queue: its header in the request's cell, and four of data; a partner item has one cell a
slot (Table 09.4). -/
def rspHeld (r : Rsp) : Nat := if rspPartner r then 1 else if r.data.isSome then 5 else 1

/-- A queue that found no spare id: its cells stay held until reset, and its tags are known by their fates (R199, R201). -/
def egressStuck (p : Nat) (s : State) : State :=
  let q := eqOf s p
  let s := (q.filterMap rspFate).foldl (fun s f => linkFate p f s) (eqPut p [] s)
  { s with pool := { s.pool with stuck := s.pool.stuck + q.foldl (fun n r => n + rspHeld r) 0 } }

/-- A mismatch of an egress queue in a field: EQ(p, RSP) takes its link down; without a spare id its cells stay held (R199,
R201). -/
def egressReset (q field : Nat) (s : State) : State :=
  let p := (q - 128) / 2
  let rsp := decide (q % 2 = 1)
  let n := if rsp then (eqOf s p).length else 0
  let s := raise .qPtrMismatch (queueSrc q) q field n (count1 0x6090 3 0 (ptrMend q s))
  match queueNewId q s with
  | (ok, s) =>
    let s := if ok then s
      else
        let s := raise .poolFault (srcGlobal 25) q 0 0 s
        if rsp then egressStuck p s else s
    if rsp then linkDown p 2 (count1 (0x3008 + 16 * p) 3 0 s) else s

/-- A response joins the tail of EQ(p, RSP); the enqueue reads the queue's pointers (R193, R199). -/
def eqJoin (p : Nat) (r : Rsp) (s : State) : State :=
  let s := eqPut p (eqOf s p ++ [r]) s
  match tabFind s.pool.ptrBad (129 + 2 * p) with
  | some fld => egressReset (129 + 2 * p) fld s
  | none => s

/-- Hand a response to the debug/DMA port. DESIGN CHOICE: no command carries dm_rsp_ready, so the port takes each response
in the cycle in which it is formed, and its cells are free then (R188; log 74). -/
def masterRespond (n : Nat) (r : Rsp) (s : State) : State :=
  let old := if s.pool.dmAt = now s then s.pool.dmOut else []
  { s with pool := { s.pool with dmOut := old ++ [(n, r)], dmAt := now s } }

/-- Send a response of a request to its source: into EQ(p, RSP), to the master, or, after a link drop, only into the
tag's fate (R193, R203, R244). `cells` are the request's cells still held. -/
def rspSend (src : Src) (sid : BitVec 12) (gone : Bool) (r : Rsp) (cells : Nat) (s : State) : State :=
  match src with
  | .link p =>
    if gone then
      let s := match rspFate r with
        | some f => linkFate p.val f s
        | none => s
      creditRelease p.val sid.toNat cells s
    else creditRelease p.val sid.toNat (cells - 1) (eqJoin p.val r s)
  | .master n => masterRespond n.val r s

/-- Statistics of a completion (Table 16.3). -/
def rspStats (src : Src) (op : ReqOp) (status : Nat) (s : State) : State :=
  let s := if 2 ≤ status then count1 0x6000 4 0 s else s
  if opReads op then
    match src with
    | .master _ => if op = .readTag then s else count1 0x6000 1 0 s
    | .link _ => s
  else if status ≤ 1 then count1 0x6000 2 0 s else s

/-- Complete a request: response with a status, and data where it returns any (R168, R180). -/
def complete (it : Item) (status : Nat) (data : Option Line) (psn : Bool) (extra : Side) (cells : Nat) (s : State) : State :=
  let op : Byte := if opReads it.op then (if data.isSome then 0x81#8 else 0x82#8) else 0x83#8
  let r : Rsp := { op := op, status := BitVec.ofNat 8 status, psn := psn && data.isSome, sid := it.h.sid, tag := it.h.tag,
                   extra := extra, data := data, arr := it.arr, counted := opReads it.op && it.op != .readTag }
  rspSend it.src it.h.sid it.gone r cells (rspStats it.src it.op status s)

/-- Complete a request without data. -/
def completeBare (it : Item) (status cells : Nat) (s : State) : State := complete it status none false 0 cells s

-- Status codes (Table 08.7)

/-- OK. -/
def stOk : Nat := 0x00
/-- OK_POISON. -/
def stOkPoison : Nat := 0x01
/-- TAG_FAIL. -/
def stTagFail : Nat := 0x02
/-- TORN_TAG. -/
def stTornTag : Nat := 0x03
/-- SIDECAR_FAULT. -/
def stSidecarFault : Nat := 0x04
/-- KEY_ABSENT. -/
def stKeyAbsent : Nat := 0x05
/-- KEY_DENIED. -/
def stKeyDenied : Nat := 0x06
/-- KEY_MISMATCH. -/
def stKeyMismatch : Nat := 0x07
/-- EXTENT_FAULT. -/
def stExtentFault : Nat := 0x08
/-- COUNTER_SPENT. -/
def stCounterSpent : Nat := 0x09
/-- FLUSHED. -/
def stFlushed : Nat := 0x0A
/-- MEDIA_ERROR. -/
def stMediaError : Nat := 0x0B
/-- LINK_RESYNC. -/
def stLinkResync : Nat := 0x0C
/-- COMMIT_HOLD. -/
def stCommitHold : Nat := 0x0D

end Sys2Proof.Machine
end

