-- ==== Sys2Proof/Machine/Requests.lean ====
section
/-! DEFINITION. Requests at receipt: the checks of Table 06.11 and R136, credits, enqueueing, flushes, FENCE, and the
request commands (R135, R165 to R184, R187 to R197). -/

namespace Sys2Proof.Machine

-- Where lines go

/-- XOR of the 4-bit fields of a granule index (R263); `n` bounds the fields. -/
def xorFold : Nat → Nat → Nat
  | 0, _ => 0
  | n + 1, g => (g % 16) ^^^ xorFold n (g / 16)

/-- The media port of a line address (R263). -/
def portOf (s : State) (a : Nat) : Nat :=
  let g := a / 2 ^ cfgVal s 0x2000 2 0
  if cfgVal s 0x2000 1 0 = 0 then xorFold 10 g else g % 16

/-- The media port m. -/
def mediaOf (s : State) (m : Nat) : Media := tabGet {} s.media m

/-- Put media port m. -/
def mediaPut (m : Nat) (x : Media) (s : State) : State := { s with media := tabPut {} s.media m x }

/-- Change media port m. -/
def mediaMod (m : Nat) (f : Media → Media) (s : State) : State := mediaPut m (f (mediaOf s m)) s

/-- The slots that extent rows name. -/
def extentSlots (s : State) : List Nat :=
  (listedRows s false 0x4003).foldl (fun l r => insertNat (r / 4) l) []

/-- True when a tag line lies in a slot's tag region (R77, R79). -/
def tagRegionHas (s : State) (kidx a : Nat) : Bool :=
  let b := cfgVal s 0x4000 8 kidx
  decide (slotClass s kidx = 3) && decide (b ≤ a ∧ a < b + tagRegionLines s false kidx)

/-- The slot whose extent or tag region holds an address (Table 06.11 step 5). -/
def slotByAddr (s : State) (a : Nat) : Option Nat :=
  (extentSlots s).find? (fun k => (extentOf s k a).isSome || tagRegionHas s k a)

/-- The format mark of an extent row; extents of class W and C read LIMIT + 1 (R159). -/
def fmtMark (s : State) (row : Nat) : Nat :=
  if slotClass s (row / 4) = 3 then regVal s 0x4003 4 row else cfgVal s 0x4003 2 row + 1

-- Checks

/-- Table 06.3 for a plain request. -/
def plainState (x : Slot) : Nat :=
  if x.rowBad then stKeyAbsent
  else
    match x.st with
    | .empty => stKeyAbsent
    | .loaded => stKeyAbsent
    | .zeroized => stKeyAbsent
    | .retiring => stKeyDenied
    | _ => stOk

/-- Table 06.3 for a raw request. -/
def rawState (x : Slot) (writes : Bool) : Nat :=
  if x.rowBad then stKeyAbsent
  else if writes ∧ (x.st = .retiring ∨ (x.st = .zeroized ∧ x.prior = .retiring)) then stKeyDenied
  else stOk

/-- Step 7 of Table 06.11. -/
def step7 (s : State) (op : ReqOp) (slot : Nat) : Nat :=
  if opRaw op then rawState (slotOf s slot) (!opReads op) else plainState (slotOf s slot)

/-- The outcome of the checks: the slot, or the failing step and the status. -/
inductive ChkRes where
  | pass (slot : Nat)
  | fail (step status : Nat)
deriving DecidableEq, Repr

/-- Step 6: the address lies in a valid extent below its format mark for a plain type, in a valid extent for a raw
type, or in the tag region (Table 06.11, R159). -/
def step6 (s : State) (op : ReqOp) (slot a : Nat) : Bool :=
  if opTag op then tagRegionHas s slot a
  else
    match extentOf s slot a with
    | none => false
    | some x => opRaw op || decide (a < fmtMark s (slot * 4 + x.e))

/-- Steps 6 and 7. -/
def chkTail (s : State) (op : ReqOp) (slot a : Nat) : ChkRes :=
  if step6 s op slot a = false then .fail 6 stExtentFault
  else if step7 s op slot ≠ stOk then .fail 7 (step7 s op slot)
  else .pass slot

/-- The slot of a request: its KIDX, or the slot found by address for a raw request with KIDX 0 (step 5). -/
def reqSlot (s : State) (h : Hdr) : Option Nat :=
  if h.kidx = 0#15 then slotByAddr s h.addr.toNat else some h.kidx.toNat

/-- P_VALID and no suspension (step 2). -/
def principalOk (s : State) (pr : Nat) : Bool :=
  decide (cfgVal s 0x4002 1 pr = 1) && decide (regVal s 0x4002 3 pr = 0)

/-- Table 06.11 for a host request on port p. `susp` is false in the recheck of R181, which leaves suspensions out. -/
def chkHost (s : State) (susp : Bool) (p : Nat) (op : ReqOp) (h : Hdr) : ChkRes :=
  match streamRow s p h.sid.toNat with
  | none => .fail 1 stKeyDenied
  | some row =>
    let pr := cfgVal s 0x4001 4 row
    let raw := cfgVal s 0x4002 2 pr
    if cfgVal s 0x4002 1 pr ≠ 1 ∨ (susp = true ∧ regVal s 0x4002 3 pr ≠ 0) then .fail 2 stKeyDenied
    else if opRaw op = true ∧ raw.testBit (if opReads op then 0 else 1) = false then .fail 3 stKeyDenied
    else if opRaw op = false ∧ h.kidx = 0#15 then .fail 4 stKeyDenied
    else
      match reqSlot s h with
      | none => .fail 5 stKeyDenied
      | some slot =>
        if cfgVal s 0x4000 2 slot ≠ pr then .fail 5 stKeyDenied else chkTail s op slot h.addr.toNat

/-- The grant bits of a master on a slot; debug_lock forces the plain bits of G_DEBUG to 0 (R136, R137). -/
def grantBits (s : State) (n slot : Nat) : Nat :=
  let g := cfgVal s 0x5000 (n + 1) slot
  if n = 0 ∧ s.keys.debugLock = true then g / 4 * 4 else g

/-- The grant bit of a request type (R136). -/
def grantBit (op : ReqOp) : Nat := (if opRaw op then 2 else 0) + (if opReads op then 0 else 1)

/-- The checks of a master's request (R136); a missing grant is reported as step 5. -/
def chkMaster (s : State) (n : Nat) (op : ReqOp) (h : Hdr) : ChkRes :=
  if opRaw op = false ∧ h.kidx = 0#15 then .fail 4 stKeyDenied
  else
    match reqSlot s h with
    | none => .fail 5 stKeyDenied
    | some slot =>
      if (grantBits s n slot).testBit (grantBit op) = false then .fail 5 stKeyDenied
      else chkTail s op slot h.addr.toNat

/-- The checks of a request by source. -/
def chkReq (s : State) (susp : Bool) (src : Src) (op : ReqOp) (h : Hdr) : ChkRes :=
  match src with
  | .link p => chkHost s susp p.val op h
  | .master n => chkMaster s n.val op h

/-- EV_KEY_DENIED and EV_EXTENT_FAULT on the link of a refused host request (Table 06.16). -/
def refuseEvent (src : Src) (h : Hdr) (step status : Nat) (s : State) : State :=
  match src with
  | .master _ => s
  | .link p =>
    if status = stKeyDenied then raise .keyDenied (srcLink p.val 4) h.sid.toNat h.kidx.toNat step s
    else if status = stExtentFault then
      raise .extentFault (srcLink p.val 4) h.kidx.toNat (addrLo h.addr) (addrHi h.addr) s
    else s

-- Tags (R169, R182, R184)

/-- True when two sources are the same link or master. -/
def srcEq (a b : Src) : Bool := decide (a = b)

/-- Requests of a source that hold a tag: (tag, dropped). Responses in an egress queue hold theirs too. -/
def tagsOf (s : State) (src : Src) : List (BitVec 16 × Bool) :=
  (s.pool.items.filter (fun i => srcEq i.src src)).map (fun i => (i.h.tag, i.gone)) ++
    (s.pool.txns.filter (fun t => srcEq t.item.src src)).map (fun t => (t.item.h.tag, t.item.gone)) ++
    (s.pool.fences.filter (fun f => srcEq f.src src)).map (fun f => (f.tag, f.gone)) ++
    (s.pool.lost.filter (fun e => srcEq e.2.src src)).map (fun e => (e.2.h.tag, e.2.gone)) ++
    (match src with
     | .link p => ((eqOf s p.val).filter (fun r => !rspPartner r)).map (fun r => (r.tag, false))
     | .master _ => [])

/-- The tag limit of a source: the negotiated limit, or 64 for a master. -/
def tagLimit (s : State) (src : Src) : Nat :=
  match src with
  | .link p => min (linkOf s p.val).force.maxTags 4096
  | .master _ => 64

/-- A tag still held from before a link drop (R182). -/
def tagHeld (s : State) (src : Src) (tag : BitVec 16) : Bool := (tagsOf s src).any (fun t => t.1 == tag && t.2)

/-- What a tag does to a new request: 3 outstanding, 4 beyond the limit (causes of EV_SLOT_ERROR), or none. The reuse of a
tag held from before a drop is no such error (R169, R182). -/
def tagError (s : State) (src : Src) (tag : BitVec 16) : Option Nat :=
  let ts := tagsOf s src
  if ts.any (fun t => t.1 == tag && !t.2) then some 3
  else if tagHeld s src tag then none
  else if tagLimit s src ≤ ts.length then some 4
  else none

/-- What a request header does at stage 1, if it is a protocol error: 0 a reserved opcode or a master that does not exist, 3
and 4 as for its tag (R170, R184). -/
def reqFault (s : State) (src : Src) (h : Hdr) : Option Nat :=
  if h.odd.isSome then some 0
  else
    match src with
    | .master n => if 5 ≤ n.val then some 0 else tagError s src h.tag
    | .link _ => tagError s src h.tag

/-- The opcode byte of a header whose command has opcode `opc`. -/
def hdrOpc (h : Hdr) (opc : Nat) : Nat := (h.odd.map (fun o => o.toNat)).getD opc

/-- A header as the engine takes it: for a master SID and TAG bits [15:6] are reserved, so they are ignored and go back as
zero (R10, R184). -/
def hdrTaken (src : Src) (h : Hdr) : Hdr :=
  match src with
  | .link _ => h
  | .master _ => { h with sid := 0, tag := h.tag &&& 0x3F#16 }

/-- A protocol error: EV_SLOT_ERROR, counted; a link goes down with cause 2, a master stops (R170, R184). -/
def slotError (src : Src) (cause pos opc tag : Nat) (s : State) : State :=
  let s := count1 0x6080 5 0 s
  match src with
  | .link p =>
    let s := linkDown p.val 2 (raise .slotError (srcLink p.val 3) cause (pos + 256 * opc) tag s)
    if cause = 4 then linkFate p.val { tag := BitVec.ofNat 16 tag, fate := 3, status := 0xFF } s else s
  | .master n =>
    if 5 ≤ n.val then s
    else
      let s := raise .slotError (srcGlobal (48 + n.val)) cause (pos + 256 * opc) tag s
      let stop := insertNat n.val s.pool.masterStop
      { s with pool := { s.pool with masterStop := stop } }

-- Credits at receipt

/-- A request within its credits: RECEIVED advances and HELD grows by its cells (R238). Masters use none. -/
def creditTake (src : Src) (sid : BitVec 12) (cells : Nat) (s : State) : State :=
  match src with
  | .master _ => s
  | .link p =>
    let k := acctKey p.val sid.toNat
    match tabFind s.accts k with
    | none => s
    | some a =>
      let a := { a with received := (a.received + cells) % 65536, held := a.held + cells }
      { s with accts := tabSet s.accts k a }

/-- A request item whose header was received but that is cut or fails in its flit: RECEIVED advances by its cost where its
credits cover it, and its cells are free (R170, R238, Table 11.7). -/
def creditCut (src : Src) (sid : BitVec 12) (cells : Nat) (s : State) : State :=
  match src with
  | .master _ => s
  | .link p =>
    let k := acctKey p.val sid.toNat
    match tabFind s.accts k with
    | none => s
    | some a =>
      if acctOut a < cells then s
      else creditSettle p.val k { s with accts := tabSet s.accts k { a with received := (a.received + cells) % 65536 } }

/-- True when an item's cost exceeds its stream's credits, or the (port, SID) has no account (R241). -/
def creditOver (s : State) (src : Src) (sid : BitVec 12) (cost : Nat) : Bool :=
  match src with
  | .master _ => false
  | .link p =>
    match tabFind s.accts (acctKey p.val sid.toNat) with
    | none => true
    | some a => decide (acctOut a < cost)

/-- A credit overrun: EV_CREDIT_OVERRUN, the link goes down with cause 6, and a tag is reported NOT_RECEIVED (R241). -/
def creditOverrun (p : Fin 128) (sid : BitVec 12) (cost : Nat) (tag : Option (BitVec 16)) (s : State) : State :=
  let out := match tabFind s.accts (acctKey p.val sid.toNat) with
    | some a => acctOut a
    | none => 0
  let s := raise .creditOverrun (srcLink p.val 3) sid.toNat cost out s
  let s := match streamRow s p.val sid.toNat with
    | some r => count1 0x4001 0x15 r s
    | none => s
  let s := linkDown p.val 6 s
  match tag with
  | some t => linkFate p.val { tag := t, fate := 3, status := 0xFF } s
  | none => s

-- Enqueueing

/-- The ingress priority of a source's items (R188, R184). -/
def prioOf (s : State) (src : Src) (sid : BitVec 12) : Nat :=
  match src with
  | .link p =>
    match streamRow s p.val sid.toNat with
    | some r => cfgVal s 0x4001 5 r
    | none => 0
  | .master n => cfgVal s 0x5010 (n.val + 2) 0

/-- The index of group 8 of a media port, the ingress queues (R348). -/
def iqIdx (m : Nat) : Nat := 0x3808 + 16 * m

/-- The flush state of queue q in force: a bit that is cleared still acts in the cycle of the write, and from qualification
until the resume no queue is flushed (R196, R197). -/
def flushing (s : State) (q : Nat) : Bool :=
  decide (s.pwr.phase = .service) &&
    ((regVal s (iqIdx (q / 8)) 1 0).testBit (q % 8) || decide (tabFind s.pool.flushEnd q = some (now s)))

/-- Cells of an item that have landed by now (R195). -/
def landed (s : State) (i : Item) : Nat := min (opCells i.op) (now s + 1 - i.t0)

/-- Cells of an item that are still to come. -/
def owedCells (s : State) (i : Item) : Nat := opCells i.op - landed s i

/-- The enqueue frame of an item: the frame in which its last cell lands (R42, R189). -/
def enqFrame (i : Item) : Nat := (i.t0 + opCells i.op - 1) / 1024

/-- The cells of an item that are still to come are orphans, discarded as each arrives (R196). -/
def orphanAdd (i : Item) (s : State) : State :=
  let n := landed s i
  let l := (List.range (owedCells s i)).map (fun k =>
    ({ cyc := i.t0 + n + k, m := i.q / 8, src := i.src, sid := i.h.sid } : Orphan))
  { s with pool := { s.pool with orphans := s.pool.orphans ++ l } }

/-- One orphan arrives: it is counted, and its credit goes back as if it had been stored and released (R196). -/
def orphanDrop (s : State) (o : Orphan) : State :=
  let s := count1 (iqIdx o.m) 0x20 0 s
  match o.src with
  | .link p => creditRelease p.val o.sid.toNat 1 s
  | .master _ => s

/-- The orphans that have arrived by cycle `t`. -/
def orphansDue (t : Nat) (s : State) : State :=
  let due := s.pool.orphans.filter (fun o => decide (o.cyc ≤ t))
  due.foldl orphanDrop { s with pool := { s.pool with orphans := s.pool.orphans.filter (fun o => !decide (o.cyc ≤ t)) } }

/-- An item that has left its queue ends with a status and no operation, its cells to come as orphans (R196, R262). -/
def itemOut (i : Item) (status : Nat) (s : State) : State :=
  completeBare i status (i.stored.getD (landed s i)) (if i.stored.isSome then s else orphanAdd i s)

/-- An item that has left its queue completes with FLUSHED (R196, R198, R199). -/
def itemFlushed (i : Item) (s : State) : State := itemOut i stFlushed (count1 (iqIdx (i.q / 8)) 0x21 0 s)

/-- Set bit p of a queue's sticky mask (R200). -/
def stickySet (q : Nat) (src : Src) (s : State) : State :=
  match src with
  | .master _ => s
  | .link p =>
    let sticky := tabPut [] s.pool.sticky q (insertNat p.val (tabGet [] s.pool.sticky q))
    { s with pool := { s.pool with sticky := sticky } }

/-- Clear the sticky mask of a queue that has become empty (R200). -/
def stickyTrim (q : Nat) (s : State) : State :=
  if s.pool.items.any (fun i => i.q == q) then s
  else { s with pool := { s.pool with sticky := tabPut [] s.pool.sticky q [] } }

/-- A mismatch of an ingress queue in a field: it empties under a fresh id, and its items wait for the sweep (R199).
Without a spare id the items' cells stay held (R201). The state of a waiting item is 0 for retired in this pass, 1
before it, 2 never. -/
def ingressReset (q field : Nat) (s : State) : State :=
  let l := s.pool.items.filter (fun i => i.q == q)
  let s := raise .qPtrMismatch (queueSrc q) q field l.length (count1 0x6090 3 0 (ptrMend q s))
  let s := count1 (iqIdx (q / 8)) 0x22 0 s
  let cells := l.map (fun i => landed s i)
  let old := tabGet q s.pool.owner q
  let s := l.foldl (fun s i => orphanAdd i s) s
  match queueNewId q s with
  | (ok, s) =>
    let s := if ok then s else raise .poolFault (srcGlobal 25) q 0 0 s
    let w := if ok then 0 else 2
    let mask := tabGet [] s.pool.sticky q
    let gone := (l.zip cells).map (fun e => (w, { e.1 with mask := mask, stored := some e.2, oid := old }))
    stickyTrim q { s with pool := { s.pool with items := s.pool.items.filter (fun i => i.q != q),
                                                lost := s.pool.lost ++ gone } }

/-- A mismatch of queue q in a field (R199, R201). -/
def queueReset (q field : Nat) (s : State) : State := if q < 128 then ingressReset q field s else egressReset q field s

/-- Put an item into its queue; the enqueue reads the queue's pointers (R199, R200). -/
def itemJoin (i : Item) (s : State) : State :=
  let s := stickySet i.q i.src { s with pool := { s.pool with items := s.pool.items ++ [i] } }
  match tabFind s.pool.ptrBad i.q with
  | some fld => queueReset i.q fld s
  | none => s

/-- Stage 4: flushed on arrival, refused for a FAILED port, or enqueued (Table 08.6, R196, R262). A header that lands
later in its flit meets its queue's flush bit when it lands. -/
def enqueueItem (i : Item) (s : State) : State :=
  if flushing s i.q = true ∧ i.t0 ≤ now s then itemFlushed i s
  else if (mediaOf s (i.q / 8)).failed ∨ (mediaOf s (i.q / 8)).unserved then
    completeBare i stMediaError (opCells i.op) s
  else itemJoin i s

/-- Items whose header has landed after cycle `t0` and by now, in a queue that is being flushed (R196). -/
def landFlush (t0 : Nat) (s : State) : State :=
  let l := s.pool.items.filter (fun i => flushing s i.q && decide (t0 < i.t0) && decide (i.t0 ≤ now s))
  let s := { s with pool := { s.pool with items := s.pool.items.filter (fun i => !l.any (fun j => j.arr == i.arr)) } }
  l.foldl (fun s i => itemFlushed i (stickyTrim i.q s)) s

/-- Refuse a request at stage 2 or 3 (Table 08.6). -/
def refuseReq (i : Item) (step status : Nat) (s : State) : State :=
  let s := match i.src with
    | .link p => count1 (linkIdx p.val 4) 2 0 s
    | .master _ => s
  completeBare i status (opCells i.op) (refuseEvent i.src i.h step status s)

/-- A new arrival number. -/
def takeArr (s : State) : Nat × State :=
  (s.pool.nextArr, { s with pool := { s.pool with nextArr := s.pool.nextArr + 1 } })

/-- Cells that a master holds (R190). -/
def masterCells (s : State) (n : Fin 8) : Nat :=
  (s.pool.items.filter (fun i => srcEq i.src (.master n))).foldl (fun c i => c + opCells i.op) 0 +
    (s.pool.txns.filter (fun t => srcEq t.item.src (.master n))).foldl
      (fun c t => c + (if opReads t.item.op then 5 else t.cells)) 0 +
    (s.pool.fences.filter (fun f => srcEq f.src (.master n))).length

/-- True when the port of a source takes no item now: a link that is not up, or a master that is stopped or holds 384
cells (R184, R369). -/
def srcClosed (s : State) (src : Src) : Bool :=
  match src with
  | .link p => !(linkOf s p.val).up
  | .master n => s.pool.masterStop.contains n.val || decide (384 ≤ masterCells s n)

/-- True for a closing account: its items pass only as far as step 1 (R243). -/
def acctClosing (s : State) (src : Src) (sid : BitVec 12) : Bool :=
  match src with
  | .master _ => false
  | .link p =>
    match tabFind s.accts (acctKey p.val sid.toNat) with
    | some a => a.closing
    | none => false

/-- A protocol error of a request item whose header was received (R170, R184, R238). -/
def reqError (src : Src) (cause pos opc cells : Nat) (h : Hdr) (s : State) : State :=
  slotError src cause pos opc h.tag.toNat (if cause = 0 then s else creditCut src h.sid cells s)

/-- A request that passed stage 1 on a link removes the entries of its tag's earlier request, unless that still runs (R245,
R249). -/
def tagAnew (src : Src) (tag : BitVec 16) (s : State) : State :=
  match src with
  | .link p => if tagHeld s src tag then s else fateDrop p.val tag s
  | .master _ => s

/-- Receive a request item (R135, R170, R180, R241): protocol and credit checks, the checks of Table 06.11, LINK_RESYNC
for a held tag, then the queue. `pos` is its slot position. -/
def reqReceive (src : Src) (op : ReqOp) (h : Hdr) (psn : Bool) (ext : Side) (data : Line) (pos : Nat) (s : State) : State :=
  if srcClosed s src then s
  else
    match src, decide (s.pwr.stage = .served) with
    | _, false => s
    | _, true =>
      let cells := opCells op
      let h := hdrTaken src h
      match reqFault s src h with
      | some cause => reqError src cause pos (hdrOpc h (opCode op)) cells h s
      | none =>
        if creditOver s src h.sid cells then
          match src with
          | .link p => creditOverrun p h.sid cells (some h.tag) s
          | .master _ => s
        else
          match takeArr s with
          | (arr, s) =>
            let held := tagHeld s src h.tag
            let s := creditTake src h.sid cells (tagAnew src h.tag s)
            let i : Item := { src := src, op := op, h := h, psn := psn, ext := ext, data := data, t0 := now s + pos, arr := arr }
            match chkReq s true src op h with
            | .fail step status => refuseReq i step status s
            | .pass slot =>
              let s := match src with
                | .link p => count1 (linkIdx p.val 4) 1 0 s
                | .master _ => s
              if held then
                match src with
                | .link p => refuseReq i 0 stLinkResync (raise .tagHeld (srcLink p.val 3) h.sid.toNat h.tag.toNat 0 s)
                | .master _ => s
              else
                let q := portOf s h.addr.toNat * 8 + prioOf s src h.sid
                enqueueItem { i with slot := slot, q := q } s

-- FENCE

/-- True when an earlier request of the stream or master has not had its response handed on (R176). -/
def fenceBlocked (s : State) (f : FenceEnt) : Bool :=
  let same := fun (src : Src) (sid : BitVec 12) =>
    srcEq src f.src && (match f.src with
      | .link _ => sid == f.sid
      | .master _ => true)
  s.pool.items.any (fun i => same i.src i.h.sid && decide (i.arr < f.arr)) ||
    s.pool.txns.any (fun t => same t.item.src t.item.h.sid && decide (t.item.arr < f.arr)) ||
    s.pool.lost.any (fun e => same e.2.src e.2.h.sid && decide (e.2.arr < f.arr)) ||
    s.pool.fences.any (fun g => same g.src g.sid && decide (g.arr < f.arr)) ||
    (match f.src with
     | .link p => (eqOf s p.val).any (fun r => !rspPartner r && r.sid == f.sid && decide (r.arr < f.arr))
     | .master _ => false)

/-- FENCE received: steps 1 and 2 only; then it waits (R176). -/
def fenceReceive (src : Src) (h : Hdr) (pos : Nat) (s : State) : State :=
  if srcClosed s src = true ∨ s.pwr.stage ≠ .served then s
  else
    let h := hdrTaken src h
    match reqFault s src h with
    | some cause => reqError src cause pos (hdrOpc h 8) 1 h s
    | none =>
      if creditOver s src h.sid 1 then
        match src with
        | .link p => creditOverrun p h.sid 1 (some h.tag) s
        | .master _ => s
      else
        match takeArr s with
        | (arr, s) =>
          let held := tagHeld s src h.tag
          let s := creditTake src h.sid 1 (tagAnew src h.tag s)
          let step := match src with
            | .master _ => 0
            | .link p =>
              match streamRow s p.val h.sid.toNat with
              | none => 1
              | some r => if principalOk s (cfgVal s 0x4001 4 r) then 0 else 2
          let refuse := fun (st : Nat) (s : State) =>
            let s := match src with
              | .link p => count1 (linkIdx p.val 4) 2 0 s
              | .master _ => s
            let s := count1 0x6000 4 0 s
            rspSend src h.sid false { op := 0x84#8, status := BitVec.ofNat 8 st, sid := h.sid, tag := h.tag, arr := arr } 1
              (refuseEvent src { h with kidx := 0#15 } step st s)
          if step ≠ 0 then refuse stKeyDenied s
          else
            let s := match src with
              | .link p => count1 (linkIdx p.val 4) 1 0 s
              | .master _ => s
            if held then
              match src with
              | .link p => refuse stLinkResync (raise .tagHeld (srcLink p.val 3) h.sid.toNat h.tag.toNat 0 s)
              | .master _ => s
            else
              { s with pool := { s.pool with fences := s.pool.fences ++ [{ src := src, sid := h.sid, tag := h.tag, arr := arr }] } }

/-- Complete one FENCE: FENCE_DONE (R176). -/
def fenceDone (f : FenceEnt) (s : State) : State :=
  let s := { s with pool := { s.pool with fences := s.pool.fences.filter (fun g => g.arr != f.arr) } }
  rspSend f.src f.sid f.gone { op := 0x84#8, status := 0#8, sid := f.sid, tag := f.tag, arr := f.arr } 1
    (count1 0x6080 3 0 s)

/-- FENCE_COMPLETE: the oldest FENCE of a stream whose earlier requests have all responded (R176). -/
def doFenceComplete (src : Src) (sid : BitVec 12) (s : State) : State :=
  match s.pool.fences.find? (fun f => srcEq f.src src && (match src with
      | .link _ => f.sid == sid
      | .master _ => true)) with
  | none => s
  | some f => if fenceBlocked s f then s else fenceDone f s

/-- FENCE_COMPLETE. -/
def execFenceComplete (src : Src) (sid : BitVec 12) (s : State) : Host.Outcome State Fault Refusal :=
  .next (doFenceComplete src sid s)

-- Request commands

/-- READ_LINE (R171). -/
def execReadLine (src : Src) (h : Hdr) (s : State) : Host.Outcome State Fault Refusal :=
  .next (reqReceive src .readLine h false 0 0 0 s)

/-- WRITE_LINE (R171). -/
def execWriteLine (src : Src) (h : Hdr) (psn : Bool) (data : Line) (s : State) : Host.Outcome State Fault Refusal :=
  .next (reqReceive src .writeLine h psn 0 data 0 s)

/-- WRITE_PARTIAL (R177). -/
def execWritePartial (src : Src) (h : Hdr) (psn : Bool) (mask : BitVec 64) (data : Line) (s : State) :
    Host.Outcome State Fault Refusal := .next (reqReceive src .writePartial h psn mask data 0 s)

/-- READ_RAW (R171). -/
def execReadRaw (src : Src) (h : Hdr) (s : State) : Host.Outcome State Fault Refusal :=
  .next (reqReceive src .readRaw h false 0 0 0 s)

/-- WRITE_RAW (R171). -/
def execWriteRaw (src : Src) (h : Hdr) (side : Side) (data : Line) (s : State) : Host.Outcome State Fault Refusal :=
  .next (reqReceive src .writeRaw h false side data 0 s)

/-- READ_TAGLINE_RAW (R87). -/
def execReadTaglineRaw (src : Src) (h : Hdr) (s : State) : Host.Outcome State Fault Refusal :=
  .next (reqReceive src .readTag h false 0 0 0 s)

/-- WRITE_TAGLINE_RAW (R87). -/
def execWriteTaglineRaw (src : Src) (h : Hdr) (trailer : Side) (data : Line) (s : State) :
    Host.Outcome State Fault Refusal := .next (reqReceive src .writeTag h false trailer data 0 s)

/-- FENCE (R176). -/
def execFence (src : Src) (h : Hdr) (s : State) : Host.Outcome State Fault Refusal := .next (fenceReceive src h 0 s)

end Sys2Proof.Machine
end

