-- ==== Sys2Proof/Machine/Flight.lean ====
section
/-! DEFINITION. Operations on their way to the medium: the record of issued writes (R100), issue into the FIFOs of a
media port (R252, R253), and when a direction is busy (R259). -/

namespace Sys2Proof.Machine

/-- A write that lies between counter resolution and PERSISTED. -/
structure Flight where
  kidx : Nat
  addr : Nat
  gen : BitVec 32
  lctr : BitVec 24
  owner : MOwner
deriving DecidableEq, Repr

/-- The write operations of a port that are issued and not PERSISTED. -/
def portWrites (s : State) (m : Nat) : List MOp :=
  (mediaOf s m).fifoW ++ (mediaOf s m).outW.map (fun e => e.2)

/-- An operation that carries a counter, as the record of R100 holds it. -/
def opFlight (o : MOp) : Option Flight :=
  if o.kind = .write ∧ o.counted = true then
    some { kidx := o.kidx, addr := o.addr, gen := o.gen, lctr := o.lctr, owner := o.owner }
  else none

/-- A write held for a vote after its counter was resolved (R296). -/
def holdFlight (h : Hold) : Option Flight :=
  if h.dir = .w then some { kidx := h.kidx, addr := h.addr, gen := h.gen, lctr := h.lctr, owner := h.owner } else none

/-- Every write of the engine between resolution and PERSISTED. -/
def flights (s : State) : List Flight :=
  (List.range 16).flatMap (fun m => (portWrites s m).filterMap opFlight) ++ s.rep.holds.filterMap holdFlight

/-- The writes of one line between resolution and PERSISTED (R100). -/
def lineFlights (s : State) (a : Nat) : List Flight :=
  ((portWrites s (portOf s a)).filterMap opFlight ++ s.rep.holds.filterMap holdFlight).filter (fun f => f.addr == a)

/-- The highest LCTR of a line's writes in flight under a generation of a slot (R99). -/
def flightMax (s : State) (a kidx : Nat) (g : BitVec 32) : Nat :=
  (lineFlights s a).foldl (fun n f => if f.kidx = kidx ∧ f.gen = g then max n f.lctr.toNat else n) 0

/-- True when a write of the line under a generation of the slot is in flight. -/
def flightUnder (s : State) (a kidx : Nat) (g : BitVec 32) : Bool :=
  (lineFlights s a).any (fun f => f.kidx == kidx && f.gen == g)

/-- Any WRITE_LINE of the line that is issued and not PERSISTED, raw writes included. -/
def writeOut (s : State) (a : Nat) : Bool :=
  (portWrites s (portOf s a)).any (fun o => o.kind == .write && o.addr == a)

/-- A write direction's operations granted and not yet issued: writes that wait for a probe or a vote. -/
def grantedW (s : State) (m : Nat) : Nat :=
  (s.pool.txns.filter (fun t => t.port == m && t.st == .probeWait)).length +
    (s.rep.holds.filter (fun h => h.port == m && h.dir == .w)).length

/-- A direction is busy when its FIFO and the operations granted and not issued number 64 (R259). -/
def dirBusy (s : State) (m : Nat) (d : Dir) : Bool :=
  match d with
  | .w => decide (64 ≤ (mediaOf s m).fifoW.length + grantedW s m)
  | .r => decide (64 ≤ (mediaOf s m).fifoR.length)

/-- Issue a write-direction operation: it enters the FIFO of port m under the next issue number (R252). -/
def issueW (m : Nat) (o : MOp) (s : State) : State :=
  let n := s.mseq
  mediaMod m (fun x => { x with fifoW := x.fifoW ++ [{ o with seq := n, cyc := now s }] }) { s with mseq := n + 1 }

/-- Issue a read-direction operation. -/
def issueR (m : Nat) (o : MOp) (s : State) : State :=
  let n := s.mseq
  mediaMod m (fun x => { x with fifoR := x.fifoR ++ [{ o with seq := n, cyc := now s }] }) { s with mseq := n + 1 }

/-- fault_n driven low (R371). -/
def faultLow (s : State) : State := { s with pins := { s.pins with faultLow := true } }

/-- Transactions of a table. -/
def txnFind (s : State) (id : Nat) : Option Txn := s.pool.txns.find? (fun t => t.id == id)

/-- Put a transaction back. -/
def txnPut (t : Txn) (s : State) : State :=
  { s with pool := { s.pool with txns := s.pool.txns.map (fun u => if u.id = t.id then t else u) } }

/-- A new transaction. -/
def txnAdd (t : Txn) (s : State) : State := { s with pool := { s.pool with txns := s.pool.txns ++ [t] } }

/-- A transaction ends. -/
def txnDel (id : Nat) (s : State) : State :=
  { s with pool := { s.pool with txns := s.pool.txns.filter (fun u => u.id != id) } }

end Sys2Proof.Machine
end

