-- ==== Sys2Proof/Machine/Jack.lean ====
section
/-! DEFINITION. Jack, the counter oracle: entries, lookups, fills, the comparison with sidecars, probes and look-ahead
(R101 to R111). -/

namespace Sys2Proof.Machine

-- Sidecars (Table 03.2)

/-- LCTR of a sidecar. -/
def scLctr (sc : Side) : BitVec 24 := sc.extractLsb' 40 24
/-- KGEN4 of a sidecar. -/
def scKgen4 (sc : Side) : BitVec 4 := sc.extractLsb' 36 4
/-- KIDX of a sidecar. -/
def scKidx (sc : Side) : Nat := (sc.extractLsb' 21 15).toNat
/-- PCLS of a sidecar. -/
def scPcls (sc : Side) : Nat := (sc.extractLsb' 19 2).toNat
/-- POISON of a sidecar. -/
def scPoison (sc : Side) : Bool := sc.getLsbD 18
/-- The reserved bits of a sidecar. -/
def scResv (sc : Side) : BitVec 2 := sc.extractLsb' 16 2
/-- SCHK of a sidecar. -/
def scSchk (sc : Side) : BitVec 16 := sc.extractLsb' 0 16

/-- A sidecar from its fields (Table 03.2). -/
def scPack (lctr : BitVec 24) (kgen4 : BitVec 4) (kidx : BitVec 15) (pcls : BitVec 2) (poison : Bool)
    (schk : BitVec 16) : Side :=
  lctr ++ kgen4 ++ kidx ++ pcls ++ BitVec.ofBool poison ++ 0#2 ++ schk

-- Entries (Table 05.2)

/-- The set of a line (R101). -/
def jackSet (a : Nat) : Nat := (a % 8192) ^^^ (a / 2 ^ 13 % 8192) ^^^ (a / 2 ^ 26 % 8192)

/-- The key of way w of a set of partition m. -/
def jackKey (m set w : Nat) : Nat := (m * 8192 + set) * 8 + w

/-- A Jack entry from its fields (Table 05.2). -/
def jackPack (a : Nat) (lctr : BitVec 24) (kgen4 : BitVec 4) (pcls : BitVec 2) (lead : Nat) : BitVec 64 :=
  BitVec.ofNat 27 (a / 8192) ++ lctr ++ kgen4 ++ pcls ++ BitVec.ofNat 5 lead ++ 0#2

/-- TAG of an entry. -/
def jeTag (e : BitVec 64) : Nat := (e.extractLsb' 37 27).toNat
/-- LCTR of an entry. -/
def jeLctr (e : BitVec 64) : BitVec 24 := e.extractLsb' 13 24
/-- KGEN4 of an entry. -/
def jeKgen4 (e : BitVec 64) : BitVec 4 := e.extractLsb' 9 4
/-- PCLS of an entry. -/
def jePcls (e : BitVec 64) : BitVec 2 := e.extractLsb' 7 2
/-- LEAD of an entry. -/
def jeLead (e : BitVec 64) : Nat := (e.extractLsb' 2 5).toNat
/-- An entry that says that its line is virgin (Table 05.2). -/
def jeVirgin (e : BitVec 64) : Bool := decide (jePcls e = 0#2) && decide (jeLctr e = 0#24)

/-- The valid entry of a line: its key and value, before the parity and generation tests of R103. -/
def jackEntry (s : State) (a : Nat) : Option (Nat × BitVec 64) :=
  let m := portOf s a
  let set := jackSet a
  (List.range 8).findSome? (fun w =>
    match tabFind s.jack.entries (jackKey m set w) with
    | some e => if jeTag e = a / 8192 then some (jackKey m set w, e) else none
    | none => none)

/-- Invalidate an entry. -/
def jackDrop (k : Nat) (s : State) : State := { s with jack := { s.jack with entries := tabDel s.jack.entries k } }

/-- Invalidate the entry of a line (R109). -/
def jackInvalidate (a : Nat) (s : State) : State :=
  match jackEntry s a with
  | some (k, _) => jackDrop k s
  | none => s

/-- A lookup of the line for a slot would hit, its parity apart: a valid entry under a live generation (R103). -/
def jackLive (s : State) (kidx a : Nat) : Bool :=
  match jackEntry s a with
  | some (_, e) => (genByKgen4 (slotOf s kidx) (jeKgen4 e)).isSome
  | none => false

/-- A lookup (R103): the entry on a hit. A parity error and a generation that is not live invalidate the entry. -/
def jackLookup (kidx a : Nat) (pe : Bool) (s : State) : Option (BitVec 64) × State :=
  match jackEntry s a with
  | none => (none, s)
  | some (k, e) =>
    if pe then
      (none, raise .jackPe (srcMedia (portOf s a) 3) (jackSet a) (k % 8) 0 (count1 0x6050 9 0 (jackDrop k s)))
    else
      match genByKgen4 (slotOf s kidx) (jeKgen4 e) with
      | none => (none, jackDrop k s)
      | some _ => (some e, s)

/-- True for a way whose SRAM row is bad: its entries are never valid (Table 14.4; macros in the order of Table 01.6,
log 21). -/
def jackWayBad (s : State) (k : Nat) : Bool := s.rep.badRows.contains (400 * 1024 + k / 4)

/-- The key under which a new entry of a line goes: an invalid way first, else the pseudo-LRU victim, which is open
(R101; log 7). None when every way of the set is bad. -/
def jackPlace (a : Nat) (s : State) : Option Nat × State :=
  let m := portOf s a
  let ways := ((List.range 8).map (fun w => jackKey m (jackSet a) w)).filter (fun k => !jackWayBad s k)
  match ways.find? (fun k => (tabFind s.jack.entries k).isNone) with
  | some k => (some k, s)
  | none =>
    match takeFree s with
    | (n, s) => (ways[Config.jackVictim n % max 1 ways.length]?, s)

/-- Write the entry of a line: over its valid entry, or in a new way. -/
def jackWrite (a : Nat) (e : BitVec 64) (s : State) : State :=
  match jackEntry s a with
  | some (k, _) => { s with jack := { s.jack with entries := tabSet s.jack.entries k e } }
  | none =>
    match jackPlace a s with
    | (some k, s) => { s with jack := { s.jack with entries := tabSet s.jack.entries k e } }
    | (none, s) => s

/-- The newest live generation's low bits. -/
def newestKgen4 (x : Slot) : BitVec 4 := x.gen.setWidth 4

/-- True when a sidecar stands for a virgin line to the slot: another KIDX, PCLS 00 or LCTR 0 (R99, R105). -/
def scBlank (kidx : Nat) (sc : Side) : Bool :=
  decide (scKidx sc ≠ kidx) || decide (scPcls sc = 0) || decide (scLctr sc = 0#24)

/-- The entry that a fill builds from a sidecar (R105). -/
def fillEntry (s : State) (kidx a : Nat) (sc : Side) : BitVec 64 :=
  if scBlank kidx sc then jackPack a 0#24 (newestKgen4 (slotOf s kidx)) 0#2 0
  else jackPack a (scLctr sc) (scKgen4 sc) (sc.extractLsb' 19 2) 0

/-- EV_JACK_REGRESS. -/
def jackRegress (kidx a : Nat) (sc : Side) (s : State) : State :=
  raise .jackRegress (srcMedia (portOf s a) 3) kidx (a % 2 ^ 32) (a / 2 ^ 32 + 256 * (scKgen4 sc).toNat)
    (count1 0x6050 10 0 s)

/-- The comparison of a sidecar with the valid entry of its line (R108, Table 05.3). -/
def jackCompare (kidx a : Nat) (sc : Side) (s : State) : State :=
  match jackEntry s a with
  | none => s
  | some (k, e) =>
    let put := fun (e : BitVec 64) (s : State) => { s with jack := { s.jack with entries := tabSet s.jack.entries k e } }
    let x := slotOf s kidx
    let outstanding := decide (lineFlights s a ≠ []) || writeOut s a
    let install := jackPack a (scLctr sc) (scKgen4 sc) (sc.extractLsb' 19 2) 0
    if scPcls sc = 0 then
      if jeVirgin e ∨ outstanding = true then s else jackRegress kidx a sc s
    else if scKidx sc ≠ kidx ∨ scPcls sc ≠ slotClass s kidx ∨ scResv sc ≠ 0#2 ∨ scLctr sc = 0#24 then s
    else
      match genByKgen4 x (scKgen4 sc), genByKgen4 x (jeKgen4 e) with
      | some gs, some ge =>
        if jeVirgin e then jackRegress kidx a sc (put install s)
        else if gs = ge then
          if (jeLctr e).toNat < (scLctr sc).toNat then jackRegress kidx a sc (put install s)
          else if outstanding then s
          else
            let d := (jeLctr e).toNat - (scLctr sc).toNat
            put (jackPack a (jeLctr e) (jeKgen4 e) (jePcls e) (min 31 d)) s
        else if gs = x.gen then jackRegress kidx a sc (put install s)
        else s
      | _, _ => s

/-- A fill (R105): a valid entry of the line is only compared. -/
def jackFill (kidx a : Nat) (sc : Side) (s : State) : State :=
  match jackEntry s a with
  | some _ => jackCompare kidx a sc s
  | none => jackWrite a (fillEntry s kidx a sc) s

/-- Clear Jack: every entry, and a prefill that runs; probes go on (R110, R111). -/
def jackClear (s : State) : State :=
  { s with jack := { s.jack with entries := [], prefill := none, clearNext := false } }

-- Probes (R106, R107)

/-- The probes of port m. -/
def probesOf (s : State) (m : Nat) : List Probe := tabGet [] s.jack.probes m

/-- Put the probes of port m. -/
def probesPut (m : Nat) (l : List Probe) (s : State) : State :=
  { s with jack := { s.jack with probes := tabPut [] s.jack.probes m l } }

/-- The probe of a line, if one is outstanding. -/
def probeOf (s : State) (a : Nat) : Option Probe := (probesOf s (portOf s a)).find? (fun p => p.addr == a && !p.void)

/-- True when a write to the line would find a probe place: one for the line, or fewer than 128 taken (R106). -/
def probeRoom (s : State) (a : Nat) : Bool :=
  (probeOf s a).isSome || decide ((probesOf s (portOf s a)).length < 128)

/-- The probe of the miss of a write, whose grant order is `ord`: at most one probe a line; a waiting look-ahead or prefill
probe becomes the write's, a write's stays in its own place (R39, R106). -/
def probeAdd (kidx a ord : Nat) (s : State) : State :=
  let m := portOf s a
  match probeOf s a with
  | some _ =>
    probesPut m ((probesOf s m).map (fun p =>
      if p.addr = a ∧ p.void = false ∧ p.kind ≠ .write then { p with kind := .write, ord := ord } else p)) s
  | none => probesPut m (probesOf s m ++ [{ addr := a, kidx := kidx, kind := .write, ord := ord }]) s

/-- Probes outstanding on port m: all but look-ahead probes that wait for their slot. -/
def probesOut (s : State) (m : Nat) : Nat := ((probesOf s m).filter (fun p => p.issued || p.kind != .look)).length

/-- One look-ahead probe, dropped when 96 are outstanding (R107). -/
def lookOne (kidx a : Nat) (s : State) : State :=
  let m := portOf s a
  if (jackEntry s a).isSome ∨ (probeOf s a).isSome then s
  else if 96 ≤ (probesOf s m).length then count1 0x6050 8 0 s
  else probesPut m (probesOf s m ++ [{ addr := a, kidx := kidx, kind := .look }]) s

/-- The look-ahead of a miss: the next LOOKAHEAD_DEPTH lines within the 4 KiB granule (R107). -/
def lookAhead (kidx a : Nat) (s : State) : State :=
  (List.range (cfgVal s 0x2050 2 0)).foldl (fun s i =>
    if (a + 1 + i) / 64 = a / 64 then lookOne kidx (a + 1 + i) s else s) s

/-- The waiting probe of port m that goes next of those that `want` picks: in the order in which their writes were granted,
else in the order of their requests (R39, R106). -/
def probeNext (s : State) (m : Nat) (want : Probe → Bool) : Option Probe :=
  match (probesOf s m).filter (fun p => !p.issued && !p.void && want p) with
  | [] => none
  | p :: t => some (t.foldl (fun b q => if q.ord < b.ord then q else b) p)

/-- Issue the next waiting probe of port m that `want` picks, and count it in LOOKAHEAD_PROBES or PROBES. -/
def probeIssue (m : Nat) (want : Probe → Bool) (ctr : Nat) (s : State) : State :=
  match probeNext s m want with
  | none => s
  | some p =>
    let l := (probesOf s m).map (fun q => if q.addr = p.addr ∧ q.void = false then { q with issued := true } else q)
    let o : MOp := { kind := .sidecar, addr := p.addr, owner := .probe, kidx := p.kidx }
    issueR m o (count1 0x6050 ctr 0 (probesPut m l s))

/-- A raw write voids the outstanding probe of its line: what it brings is discarded, and a write that waited on it
probes again (R109). -/
def probeVoid (a : Nat) (s : State) : State :=
  let m := portOf s a
  if (probesOf s m).any (fun p => p.addr == a && p.issued && !p.void) then
    let dead := fun (o : MOp) => if o.kind = .sidecar ∧ o.addr = a then { o with owner := .flush } else o
    let s := mediaMod m (fun x =>
      { x with fifoR := x.fifoR.map dead, outR := x.outR.map (fun e => (e.1, dead e.2)) }) s
    let s := probesPut m ((probesOf s m).map (fun p => if p.addr = a ∧ p.issued = true then { p with void := true } else p)) s
    match s.pool.txns.find? (fun t => t.st == .probeWait && t.item.h.addr.toNat == a) with
    | some t => probeAdd t.item.slot a t.id s
    | none => s
  else s

end Sys2Proof.Machine
end

