-- ==== Sys2Proof/Machine/Slices.lean ====
section
/-! DEFINITION. Cipher slices and their repair: pipes, checks and histories, retirement, the loss of a slice, the
repair log, and SRAM rows in service (R289 to R304). -/

namespace Sys2Proof.Machine

/-- Slice i before anything happened to it (R15, R16). -/
def sliceInit (i : Nat) : Slice := if i = 16 then { st := 1, port := 255 } else { port := i }

/-- Slice i. -/
def sliceOf (s : State) (i : Nat) : Slice := (tabFind s.rep.slices i).getD (sliceInit i)

/-- Put slice i. -/
def slicePut (i : Nat) (x : Slice) (s : State) : State :=
  { s with rep := { s.rep with slices := tabSet s.rep.slices i x } }

/-- The slice that serves port m (R15). -/
def sliceFor (s : State) (m : Nat) : Option Nat :=
  (List.range 17).find? (fun i => let x := sliceOf s i; x.port == m && (x.st == 0 || x.st == 2))

/-- The slice of port m, S0 where none serves it. -/
def sliceNo (s : State) (m : Nat) : Nat := (sliceFor s m).getD m

/-- The pipe of a duty in a duty map; 15 where the duty is not carried (Table 14.9). -/
def dutyIn (dm : BitVec 64) (d : Nat) : Nat := (dm.extractLsb' (4 * d) 4).toNat

/-- The pipe that carries duty d. -/
def dutyPipe (x : Slice) (d : Nat) : Nat := dutyIn x.duty d

/-- The duties that a pipe carries. -/
def pipeDuties (dm : BitVec 64) (p : Nat) : List Nat := (List.range 10).filter (fun d => dutyIn dm d == p)

/-- Pipe p of a slice. -/
def pipeOf (x : Slice) (p : Nat) : PipeSt := tabGet {} x.pipes p

/-- Put pipe p. -/
def pipePut (p : Nat) (v : PipeSt) (x : Slice) : Slice := { x with pipes := tabPut {} x.pipes p v }

/-- The pipes of a slice that are retired. -/
def retiredPipes (x : Slice) : List Nat := (List.range 12).filter (fun p => (pipeOf x p).st == 2)

/-- The pipes that are good. -/
def goodPipes (x : Slice) : List Nat := (List.range 12).filter (fun p => (pipeOf x p).st != 2)

/-- A set of pipes as a mask. -/
def pipeMask (l : List Nat) : Nat := l.foldl (fun n p => n ||| 2 ^ p) 0

/-- P10 takes recomputes: it is good, carries no duty and is not the checker (R296, R301). -/
def p10Free (x : Slice) : Bool :=
  decide ((pipeOf x 10).st ≠ 2) && decide (pipeDuties x.duty 10 = []) && decide (x.checker ≠ 10)

/-- The first duty of a direction. -/
def dirDuty (dir : Dir) : Nat :=
  match dir with
  | .w => 0
  | .r => 5

/-- The duty of block j of a line that enters a direction's pipes in cycle `k` of a group of five. A degraded slice computes
block 4 of the four lines of a group in the fifth cycle, each on its own pipe (R303; log 22). -/
def blockDuty (x : Slice) (dir : Dir) (k j : Nat) : Nat :=
  let d := dirDuty dir + j
  if dutyPipe x d = 15 then dirDuty dir + k % 4 else d

/-- The pipe whose output stands for a duty: the checker while it stands in (R298). -/
def blockPipe (x : Slice) (d : Nat) : Nat := if x.standIn = some d ∧ x.checker ≠ 255 then x.checker else dutyPipe x d

/-- The error that a pipe adds to the block that it computes (an operand of the command; log 9). -/
def pipeErr (f : Faults) (p : Nat) : Block := f.pipes.foldl (fun e q => if q.1 = p then e ^^^ q.2 else e) 0#128

/-- Blocks with those listed computed by pipe p. -/
def blocksOn (f : Faults) (p : Nat) (js : List Nat) (good ks : List Block) : List Block :=
  (List.range 5).map (fun j => if js.contains j then good.getD j 0#128 ^^^ pipeErr f p else ks.getD j 0#128)

/-- The blocks of a line that a duty computes. -/
def dutyBlocks (x : Slice) (dir : Dir) (k d : Nat) : List Nat := (List.range 5).filter (fun j => blockDuty x dir k j == d)

/-- What a direction's pipes deliver for one line: the blocks, and the blocks with the checker's for the shadowed duty where
the two differ, with the duty and its blocks (R295, R296, R298). -/
def pipeBlocks (x : Slice) (dir : Dir) (k : Nat) (f : Faults) (good : List Block) :
    List Block × Option (Nat × List Nat × List Block) :=
  let out := (List.range 5).map (fun j => good.getD j 0#128 ^^^ pipeErr f (blockPipe x (blockDuty x dir k j)))
  let js := dutyBlocks x dir k x.shadow
  let alt := blocksOn f x.checker js good out
  if x.checker ≠ 255 ∧ x.standIn = none ∧ x.noShadow = false ∧ out ≠ alt then (out, some (x.shadow, js, alt))
  else (out, none)

/-- The pipes that produced a line's blocks, as LAST_SCHK_PIPES shows them (Table 03.9). -/
def blockPipes (x : Slice) (dir : Dir) (k : Nat) : Nat :=
  pipeMask ((List.range 5).map (fun j => blockPipe x (blockDuty x dir k j)))

-- Repair log (R290, Table 13.10)

/-- Fields of a repair log entry. -/
structure LogEnt where
  kind : Nat
  spare : Nat := 0
  macroNo : Nat := 0
  row : Nat := 0
  slice : Nat := 0
  pipe : Nat := 0
  port : Nat := 0
deriving DecidableEq, Repr

/-- A copy of a repair log entry at an address (Table 13.10). -/
def logCopy (s : State) (a : Nat) (e : LogEnt) : List Byte :=
  windupCopy a 0 ([0xE1#8] ++ leBytes 1 e.kind ++ leBytes 1 e.spare ++ leBytes 2 e.macroNo ++ leBytes 2 e.row ++
    leBytes 1 e.slice ++ leBytes 1 e.pipe ++ leBytes 1 e.port ++ [0#8] ++ leBytes 4 s.nvu.powerCycles ++
    List.replicate 14 0#8)

/-- Append an entry for a repair in the first free place: copy A, then copy B; when all 256 are used it is counted, and
EV_REPAIR_LOG_FULL is raised once a start (R290). -/
def logAppend (e : LogEnt) (s : State) : State :=
  match (List.range 256).find? (fun i => !s.rep.logPlaces.contains i) with
  | none =>
    let n := s.rep.notLogged + 1
    let s' := { s with rep := { s.rep with notLogged := n, logFull := true } }
    if s.rep.logFull then s' else raise .repairLogFull (srcGlobal 34) n 0 0 s'
  | some i =>
    let a := 0x5000 + i * 0x20
    let b := 0x7000 + i * 0x20
    let j : NvJob := { recs := [.rlog a (logCopy s a e), .rlog b (logCopy s b e)], act := .none }
    nvPush j { s with rep := { s.rep with logPlaces := insertNat i s.rep.logPlaces } }

-- Pipes

/-- Ones in a three-bit history. -/
def histFaults (h : Nat) : Nat := h % 2 + h / 2 % 2 + h / 4 % 2

/-- A faulted check of pipe p of slice i, at most one a frame; two of the last three make the pipe retiring
(R299, R300). -/
def pipeCharge (i p : Nat) (s : State) : State :=
  let x := sliceOf s i
  if x.charged.contains p then s
  else
    let v := pipeOf x p
    let h := (v.hist * 2 + 1) % 8
    let st := if v.st = 0 ∧ 2 ≤ histFaults h then 1 else v.st
    let x := pipePut p { st := st, hist := h } { x with charged := p :: x.charged }
    count1 (0x3901 + 8 * i) (0x11 + p) 0 (slicePut i x s)

/-- Queue a priority check of a duty that the slice carries, once (R295, R303). -/
def prioCheck (i d : Nat) (s : State) : State :=
  let x := sliceOf s i
  if x.prio.contains d ∨ dutyPipe x d = 15 then s else slicePut i { x with prio := x.prio ++ [d] } s

/-- Priority checks of the five duties of a direction after an EV_SCHK_FAULT that names a pipe (R295). -/
def prioDirection (i : Nat) (dir : Dir) (s : State) : State :=
  (List.range 5).foldl (fun s j => prioCheck i (dirDuty dir + j) s) s

/-- The counts and the event of a vote: 0 charges the duty's pipe, 1 the checker, 2 both (R298, R299, Table 14.10). -/
def voteCharge (i duty pipe checker who : Nat) (s : State) : State :=
  let s := count1 (0x3900 + 8 * i) 6 0 s
  let s := if who = 0 then s else count1 (0x3900 + 8 * i) 7 0 s
  let s := sumUp .pipeVote (srcSlice i 2) duty who 0 s
  let s :=
    if who = 1 then s
    else
      let s := prioCheck i duty (pipeCharge i pipe s)
      slicePut i { sliceOf s i with standIn := some duty } s
  if who = 0 then s
  else
    let s := pipeCharge i checker s
    slicePut i { sliceOf s i with noShadow := true } s

/-- Replace the pipe of a duty in a duty map. -/
def dutySet (dm : BitVec 64) (d p : Nat) : BitVec 64 :=
  let mask : BitVec 64 := 0xF#64 <<< (4 * d)
  (dm &&& ~~~ mask) ||| (BitVec.ofNat 64 p <<< (4 * d))

/-- The bindings of a degraded slice: good pipes in ascending number, four to write blocks, four to read blocks, the
ninth the checker, the tenth the spare (R303). -/
def degradedMap (x : Slice) : Slice :=
  let g := goodPipes x
  let at' := fun i => g.getD i 15
  let dm := (List.range 4).foldl (fun dm i => dutySet (dutySet dm i (at' i)) (5 + i) (at' (4 + i))) 0xFFFFFFFFFF#64
  { x with duty := dm, checker := if 8 < g.length then at' 8 else 255, shadow := if x.shadow % 5 = 4 then 0 else x.shadow
           prio := x.prio.filter (fun d => d % 5 != 4) }

/-- Reassign the duty of a retired pipe of a slice that is not degraded: P10 takes it where P10 is good, not itself
retiring, and free (R301). -/
def retireAssign (p : Nat) (x : Slice) : Slice :=
  let free := p10Free x && decide ((pipeOf x 10).st = 0)
  let x := (pipeDuties x.duty p).foldl (fun x d => if free = true then { x with duty := dutySet x.duty d 10 } else x) x
  if x.checker = p then { x with checker := if free = true then 10 else 255 } else x

/-- What EV_PIPE_RETIRED names: the duty of a pipe, FFh for the checker or a spare (Table 14.10). -/
def retireDuty (x : Slice) (p : Nat) : Nat :=
  match pipeDuties x.duty p with
  | d :: _ => d
  | [] => 0xFF

/-- MEDIA_ERROR for everything that still waits on a port, and no slice: Table 14.6's last row. The port's queues empty
as those of a FAILED port; `portDead` of the media port does the rest. -/
def portUnserve (m : Nat) (s : State) : State := faultLow (mediaMod m (fun x => { x with unserved := true, degraded := false }) s)

/-- EV_TOP_LOST: S16 is no longer free (R304). -/
def topLose (s : State) : State :=
  raise .topLost (srcSlice 16 3) (pipeMask (retiredPipes (sliceOf s 16))) 0 0
    { s with rep := { s.rep with topGone := true } }

/-- Slice i is lost at a strobe: the first row of Table 14.6 that applies (R302). An unbound S16 that BIST fails serves
nothing and is no longer free; DESIGN CHOICE: its EV_SLICE_LOST names port FFh and outcome 2 (log 31). `log` is false where
the repair log itself is applied (R289). -/
def sliceLose (i : Nat) (log : Bool) (s : State) : State :=
  let x := sliceOf s i
  let m := x.port
  let mask := pipeMask (retiredPipes x)
  let top := sliceOf s 16
  let good := (goodPipes x).length
  let put := fun (e : LogEnt) (s : State) => if log then logAppend e s else s
  let s := put { kind := 3, slice := i } s
  if x.st = 1 then topLose (raise .sliceLost (srcSlice i 3) mask 0xFF 2 (slicePut i { x with st := 3, doomed := false } s))
  else if i ≠ 16 ∧ x.st = 0 ∧ s.rep.topGone = false ∧ top.st = 1 ∧ (retiredPipes top).length < 2 then
    let s := slicePut i { x with st := 3, port := 255, doomed := false } s
    let s := slicePut 16 { top with st := 0, port := m, shadow := 0, prio := [], standIn := none, noShadow := false } s
    put { kind := 4, slice := 16, port := m } (raise .sliceLost (srcSlice i 3) mask m 0 s)
  else if x.st = 0 ∧ 8 ≤ good then
    let s := slicePut i { degradedMap x with st := 2, doomed := false, standIn := none } s
    let s := mediaMod m (fun y => { y with degraded := true }) s
    raise .degraded (srcMedia m 1) i good 0 (raise .sliceLost (srcSlice i 3) mask m 1 s)
  else
    let s := slicePut i { x with st := 3, port := 255, doomed := false } s
    raise .portUnserved (srcMedia m 1) i good 0 (raise .sliceLost (srcSlice i 3) mask m 2 (portUnserve m s))

/-- Retire pipe p of slice i, with its log entry, at a strobe or at BIST (R300, R301, R303, R304). -/
def pipeRetire (i p : Nat) (bist log : Bool) (s : State) : State :=
  let x := sliceOf s i
  let d := retireDuty x p
  let suspect := if d = 0xFF then 0 else tabGet 0 x.lastPass d
  let v := pipeOf x p
  let x := pipePut p { v with st := 2 } x
  let hadChecker := decide (x.checker ≠ 255)
  let x := if x.st = 2 then degradedMap x else if x.st = 3 then x else retireAssign p x
  let s := slicePut i x s
  let s := raise .pipeRetired (srcSlice i 2) (p + 256 * d) (suspect % 2 ^ 32) (if bist then 1 else 0) s
  let s := if log then logAppend { kind := 2, slice := i, pipe := p } s else s
  if hadChecker = true ∧ x.checker = 255 then raise .checkerLost (srcSlice i 2) (pipeMask (retiredPipes x)) 0 0 s else s

/-- A slice that serves a port is lost: after two retired pipes, a degraded one below eight good pipes, or under R297
(R302, R303). -/
def sliceFails (x : Slice) : Bool :=
  (decide (x.st = 0) && (decide (2 ≤ (retiredPipes x).length) || x.doomed)) ||
    (decide (x.st = 2) && (decide ((goodPipes x).length < 8) || x.doomed))

/-- The consequences of a slice's retired pipes (R302 to R304): S16 unbound is no longer free after two, a slice that
fails is lost. -/
def sliceJudge (i : Nat) (log : Bool) (s : State) : State :=
  let x := sliceOf s i
  if x.st = 1 then if 2 ≤ (retiredPipes x).length ∧ s.rep.topGone = false then topLose s else s
  else if sliceFails x then sliceLose i log s
  else s

/-- The pipes whose check ended unfaulted in the frame: the shadowed duty's pipe and the checker unless R298 cut the
frame short, P10 while free, and every pipe of an unbound S16 (R299, R304). -/
def passedPipes (x : Slice) : List Nat :=
  if x.st = 1 then goodPipes x
  else
    let a := if x.checker ≠ 255 ∧ x.noShadow = false ∧ x.standIn = none then [dutyPipe x x.shadow] else []
    let b := if x.checker ≠ 255 ∧ x.noShadow = false then [x.checker] else []
    let c := if p10Free x then [10] else []
    (a ++ b ++ c).filter (fun p => !x.charged.contains p)

/-- The next shadowed duty: a priority check first, else the next of the ten, or of the eight of a degraded slice
(R295, R303). -/
def shadowNext (x : Slice) : Slice :=
  if x.checker = 255 then x
  else
    match x.prio with
    | d :: t => { x with shadow := d, prio := t }
    | [] =>
      let d := (x.shadow + 1) % 10
      { x with shadow := if x.st = 2 ∧ d % 5 = 4 then (d + 1) % 10 else d }

/-- The checks of slice i that end at a strobe: histories and retirements (R299 to R301, R304). `next` is the number of the
frame that begins. -/
def sliceChecks (next : Nat) (s : State) (i : Nat) : State :=
  let x := sliceOf s i
  let ok := passedPipes x
  let shadowOk := decide (x.st ≠ 1) && ok.contains (dutyPipe x x.shadow)
  let x := ok.foldl (fun x p => let v := pipeOf x p; pipePut p { v with hist := v.hist * 2 % 8 } x) x
  let x := if shadowOk = true then { x with lastPass := tabPut 0 x.lastPass x.shadow next } else x
  let s := slicePut i x s
  let dying := (List.range 12).filter (fun p => (pipeOf x p).st == 1)
  dying.foldl (fun s p => pipeRetire i p false true s) s

/-- The next frame of slice i: the next shadowed duty. In a slice that is lost the checker goes on standing in (R295, R298,
R302). -/
def sliceTurn (s : State) (i : Nat) : State :=
  let x := sliceOf s i
  let keep := sliceFails x || decide (x.st = 3)
  slicePut i { shadowNext x with standIn := if keep then x.standIn else none, noShadow := false, charged := [] } s

/-- Every slice at a strobe: its checks, its next duty, then the losses, S16's own first (R295 to R304, Table 02.5). A
Spinning Top that is bound at the strobe has its self-test checks entered, and starts at duty 0 (R302, R304). -/
def slicesStrobe (next : Nat) (s : State) : State :=
  let s := (List.range 17).foldl sliceTurn ((List.range 17).foldl (sliceChecks next) s)
  (16 :: List.range 16).foldl (fun s i => sliceJudge i true s) s

-- SRAM rows (R293, R294, Table 14.4)

/-- The number of a row. -/
def rowNo (mac row : Nat) : Nat := mac * 1024 + row

/-- The next free spare row of a macro. -/
def spareFree (s : State) (mac : Nat) : Option Nat := (List.range 4).find? (fun i => !s.rep.spares.contains (mac * 4 + i))

/-- Remap a row to a spare row. -/
def rowRemap (mac row spare : Nat) (s : State) : State :=
  { s with rep := { s.rep with remap := tabSet s.rep.remap (rowNo mac row) spare,
                               spares := insertNat (mac * 4 + spare) s.rep.spares } }

/-- Queue a row for repair, once, up to 16 (R293, R294). -/
def rowQueue (mac row : Nat) (s : State) : State :=
  if s.rep.queue.contains (mac, row) ∨ 16 ≤ s.rep.queue.length ∨ s.rep.outNoted.contains (rowNo mac row) then s
  else { s with rep := { s.rep with queue := s.rep.queue ++ [(mac, row)] } }

/-- The list after one more error of a row: a row not on it replaces the lowest count, the older on a tie (R293). -/
def watchAdd (l : List RowWatch) (row : Nat) : List RowWatch :=
  if l.any (fun w => w.row == row) then l.map (fun w => if w.row = row then { w with count := w.count + 1 } else w)
  else if l.length < 4 then l ++ [{ row := row, count := 1 }]
  else
    let lo := l.foldl (fun n w => min n w.count) (2 ^ 32)
    match l.find? (fun w => w.count == lo) with
    | some v => l.filter (fun w => w.row != v.row) ++ [{ row := row, count := 1 }]
    | none => l

/-- The slot whose key-store entry a row holds: 128 bytes a slot, macros 128 to 255 (Table 01.6; log 21). -/
def rowSlot (mac row : Nat) : Nat := ((mac - 128) * 1024 + row) / 4

/-- The cells of which a row of the queue pool holds bytes or parity, by number: 2 of a cell-byte macro, 16 of a cell-parity
macro (Table 14.4, Table 01.6; log 21). -/
def rowCells (mac row : Nat) : List Nat :=
  if 256 ≤ mac ∧ mac < 384 then (List.range 2).map (fun j => 2 * rowNo (mac - 256) row + j)
  else if 384 ≤ mac ∧ mac < 400 then (List.range 16).map (fun j => 16 * rowNo (mac - 384) row + j)
  else []

/-- A cell that some bad row already holds. -/
def cellHeld (s : State) (c : Nat) : Bool :=
  s.rep.badRows.contains (rowNo 256 0 + c / 2) || s.rep.badRows.contains (rowNo 384 0 + c / 16)

/-- A bad row of the key store: the requests of its slot are refused (R141, Table 14.4). -/
def keyRowBad (mac row : Nat) (s : State) : State :=
  let k := rowSlot mac row
  slotPut k { slotOf s k with rowBad := true } s

/-- Mark a row bad, with the effect of its region; a cell that two bad rows hold counts once (Table 14.4). -/
def rowBad (mac row : Nat) (s : State) : State :=
  let n := ((rowCells mac row).filter (fun c => !cellHeld s c)).length
  let s := { s with rep := { s.rep with badRows := insertNat (rowNo mac row) s.rep.badRows } }
  let s := countUp 0x2400 0x0E 0 1 s
  if 128 ≤ mac ∧ mac < 256 then keyRowBad mac row s else if n = 0 then s else countUp 0x2400 0x0F 0 n s

/-- An uncorrectable error in a row of the key store other than a slot's material or derived keys: the row is bad, its
slot's requests are refused, and EV_KEYSTORE_UE is raised (R141). -/
def keyRowUe (mac row : Nat) (s : State) : State :=
  if 128 ≤ mac ∧ mac < 256 then
    let s := if s.rep.badRows.contains (rowNo mac row) then s else rowBad mac row s
    raise .keystoreUe (srcGlobal 11) (rowSlot mac row) 0 0 s
  else s

/-- One error of a row that was read; the region's owner handles it first (R293). -/
def rowError (s : State) (e : Nat × Nat × Bool) : State :=
  let mac := e.1
  let row := e.2.1
  let s := if e.2.2 then keyRowUe mac row s else s
  let l := watchAdd (tabGet [] s.rep.watch mac) row
  let s := { s with rep := { s.rep with watch := tabPut [] s.rep.watch mac l } }
  let n := match l.find? (fun w => w.row == row) with
    | some w => w.count
    | none => 0
  if e.2.2 = true ∨ cfgVal s 0x2400 1 0 ≤ n then rowQueue mac row s else s

/-- The row errors that a command met, and the queue pointers that it leaves damaged (R199, R293; log 9). -/
def rowErrors (f : Faults) (s : State) : State :=
  let bad := f.upset.foldl (fun t e => if e.1 < 384 then tabSet t e.1 e.2.val else t) s.pool.ptrBad
  f.rows.foldl rowError { s with pool := { s.pool with ptrBad := bad } }

end Sys2Proof.Machine
end

