-- ==== Sys2Proof/Machine/RekeyCtl.lean ====
section
/-! DEFINITION. The rekey engine's control: causes and the queue, starts, walks, boundaries, checkpoints, completion and
suspension, and the commands REKEY_TAKE, REKEY_PASS_START, REKEY_COMPLETE, FORMAT_COMPLETE and PURGE_COMPLETE
(R143 to R162). -/

namespace Sys2Proof.Machine

-- Walks and marks (R146, R159)

/-- The first line of an extent that a context walks: a format pass starts at the mark (R159). -/
def walkLo (c : Ctx) (x : Extent) : Nat := if c.cause = 3 then max x.base (tabGet x.base c.marks x.e) else x.base

/-- The next line of a context's walk at or after `a`, or END. -/
def ctxWalk (s : State) (c : Ctx) (a : Nat) : Nat :=
  (extents s false c.kidx).foldl (fun best x =>
    let lo := max a (walkLo c x)
    if x.limit < lo then best else min best lo) walkEnd

/-- Lines of a context's walk from `a` on and below `b`. -/
def ctxLines (s : State) (c : Ctx) (a b : Nat) : Nat :=
  (extents s false c.kidx).foldl (fun n x => n + (min (x.limit + 1) b - max a (walkLo c x))) 0

/-- The format mark of an extent while its pass stands at boundary b (R159). -/
def markAt (c : Ctx) (b : Nat) (x : Extent) : Nat :=
  if x.limit < b then x.limit + 1 else max b (walkLo c x)

/-- Move BOUND of context n, and with it the marks of a format pass (R159). Lines that a commit added behind the pass are
left to the pass queued for them. -/
def boundSet (n b : Nat) (s : State) : State :=
  let c := ctxOf s n
  let s := ctxPut n { c with bound := b } s
  if c.cause = 3 then
    (extents s false c.kidx).foldl (fun s x =>
      if walkEnd ≤ walkLo c x then s else regPut 0x4003 4 (c.kidx * 4 + x.e) (markAt c b x) s) s
  else s

/-- The generation that a context's steps write under (R157). -/
def ctxTo (c : Ctx) : BitVec 32 := if c.cause ≤ 2 then nextGen c.gen else c.gen

/-- The context that runs over a slot, if any (R144). -/
def ctxFor (s : State) (kidx : Nat) : Option Nat :=
  (List.range 64).find? (fun n => let c := ctxOf s n; c.st != .free && c.kidx == kidx)

-- Materials (R145)

/-- The materials that a cause uses are present and usable; a purge needs none, for it writes zeros without (R160). -/
def ctxMats (s : State) (kidx cause : Nat) : Bool :=
  let x := slotOf s kidx
  match cause with
  | 1 => (matKey s x.matA).isSome && (matKey s x.matB).isSome
  | 2 => (matKey s x.matA).isSome
  | 3 => (matKey s (matOfGen x x.gen)).isSome
  | _ => true

/-- The rank of a cause within one slot: purge, format, new material, next generation (R144). -/
def causeRank (c : Nat) : Nat :=
  match c with
  | 4 => 0
  | 3 => 1
  | 1 => 2
  | _ => 3

/-- The start conditions of a queue entry (R144, R145), the record of the start apart. A slot whose extents are not
committed again after a start has no first line of a walk, so its pass waits (R145, R284; log 20). A purge needs no
material, so that of a slot zeroized while RETIRING starts too (R160). -/
def startOk (s : State) (e : RkEnt) : Bool :=
  let x := slotOf s e.kidx
  (ctxFor s e.kidx).isNone && ctxMats s e.kidx e.cause && decide (extents s false e.kidx ≠ []) &&
    !(s.rk.queue.any (fun f => f.kidx == e.kidx && decide (causeRank f.cause < causeRank e.cause))) &&
    (match e.cause with
     | 1 => decide (x.st = .rotating) && !x.two
     | 2 => (decide (x.st = .active) || decide (x.st = .rotating)) && !x.two && decide (x.gen ≠ 0xFFFFFFFF#32)
     | 3 => decide (x.st = .active) || decide (x.st = .rotating) || decide (x.st = .spent)
     | _ => decide (x.st = .retiring) || (decide (x.st = .zeroized) && decide (x.prior = .retiring)))

/-- The queue entry that the next free context takes: that of a promoted slot, else the oldest that may start (R144). -/
def rkPick (s : State) : Option RkEnt :=
  match s.rk.queue.find? (fun e => (slotOf s e.kidx).promoted && startOk s e) with
  | some e => some e
  | none => s.rk.queue.find? (startOk s)

/-- The checkpoint record of context n at a boundary, in a state (Table 13.8). -/
def ckptRec (n st b : Nat) (c : Ctx) : NvRec := .ckpt n c.cause c.kidx st c.two c.gen.toNat b

/-- Give a queue entry to the free context n: its start record is queued (R145). -/
def ctxStart (n : Nat) (e : RkEnt) (s : State) : State :=
  let x := slotOf s e.kidx
  let marks : Tab Nat :=
    if e.cause = 3 then
      (extents s false e.kidx).foldl (fun t y => tabSet t y.e (max y.base (regVal s 0x4003 4 (e.kidx * 4 + y.e)))) []
    else []
  let c : Ctx := { st := .starting, kidx := e.kidx, cause := e.cause, gen := x.gen, two := x.two, marks := marks }
  let b := ctxWalk s c 0
  let c := { c with bound := b, ckpt := b }
  let s := rkDequeue e.kidx e.cause (ctxPut n c s)
  nvPush { recs := [ckptRec n 0 b c], act := .passStart n } s

/-- Fill free contexts, lowest number first, from the queue (R144); `k` bounds them. -/
def rkFill : Nat → State → State
  | 0, s => s
  | k + 1, s =>
    match (List.range 64).find? (fun n => (ctxOf s n).st == .free) with
    | none => s
    | some n =>
      match rkPick s with
      | none => s
      | some e => rkFill k (ctxStart n e s)

/-- Serve the rekey queue while the engine is in service (R144, Table 13.1). -/
def rkSchedule (s : State) : State :=
  if s.pwr.stage = .served ∧ s.pwr.phase = .service then rkFill 64 s else s

/-- A next-generation cause of a slot arises (R112, R92, REKEY_REQ): queued, or at 2^32 - 1 the cause is dropped and the
slot goes to SPENT, at once with one live generation, at the completion of the pass with two (R116). Only ACTIVE leads to
SPENT: a slot whose new material waits is on its way out of the generation already (Table 06.4). -/
def nextGenCause (kidx : Nat) (s : State) : State :=
  let x := slotOf s kidx
  if x.st ≠ .active ∧ x.st ≠ .rotating then s
  else if x.gen = 0xFFFFFFFF#32 then
    if x.spentDue then s
    else if x.two then slotPut kidx { x with spentDue := true } s
    else if x.st = .active then slotSpent kidx (slotPut kidx { x with spentDue := true } s)
    else s
  else rkEnqueue kidx 2 s

-- Checkpoints (R154, R155)

/-- The checkpoint boundary (R154). -/
def ckptBound (s : State) (n : Nat) : Nat :=
  let c := ctxOf s n
  let open' := c.steps.foldl (fun b x => min b x.addr) c.bound
  let low := match c.drainLow with
    | some a => min open' a
    | none => open'
  c.ahead.foldl (fun b x => if x.isDone = false ∧ x.addr < c.bound then min b x.addr else b) low

/-- Queue a checkpoint of context n, running (0) or suspended (1) (R155). -/
def ckptPush (n st : Nat) (own : Bool) (s : State) : State :=
  let b := ckptBound s n
  nvPush { recs := [ckptRec n st b (ctxOf s n)], act := .ckpt n b, own := own } s

/-- The superframe checkpoint of context n in frame n of a superframe (R155, Table 02.6). -/
def ckptSuper (n : Nat) (s : State) : State :=
  if (ctxOf s n).st = .running ∧ s.pwr.phase = .service then
    ctxPut n { ctxOf s n with sinceCkpt := 0 } (ckptPush n 0 false s)
  else s

-- Completion (R153, R159, R160)

/-- A format write of context n enters its entry under an issue number: its tag line is owed a write-back (R94). -/
def tagOwe (n tl seq : Nat) (s : State) : State :=
  let c := ctxOf s n
  if c.cause = 3 then ctxPut n { c with tagOwed := tabSet c.tagOwed tl seq } s else s

/-- A write of a tag line with an issue number is reported PERSISTED: it has carried every entry that was entered before
it (R94). -/
def tagPaid (tl seq : Nat) (s : State) : State :=
  (List.range 64).foldl (fun s n =>
    let c := ctxOf s n
    if c.tagOwed = [] then s
    else ctxPut n { c with tagOwed := c.tagOwed.filter (fun e => e.1 != tl || decide (seq < e.2)) } s) s

/-- The completion conditions of a running context. -/
def ctxDone (s : State) (n : Nat) : Bool :=
  let c := ctxOf s n
  decide (c.st = .running) && decide (c.bound = walkEnd) && decide (c.steps = []) && decide (c.ahead = []) &&
    (match c.cause with
     | 3 => decide (c.tagOwed = [])
     | 4 => true
     | _ => !(flights s).any (fun f => f.kidx == c.kidx && f.gen == c.gen))

/-- Another format pass of the slot is queued, so the slot keeps its format entry (R283). -/
def fmtAgain (s : State) (kidx : Nat) : Bool := s.rk.queue.any (fun e => e.kidx == kidx && e.cause == 3)

/-- The format entry of a slot: its first extent that is not fully written, and that extent's mark (Table 13.9). -/
def fmtRec (s : State) (j kidx : Nat) : NvRec :=
  match (extents s false kidx).find? (fun x => decide (regVal s 0x4003 4 (kidx * 4 + x.e) ≤ x.limit)) with
  | some x => .fmt j kidx x.e (max x.base (regVal s 0x4003 4 (kidx * 4 + x.e)))
  | none => .fmt j kidx 3 walkEnd

/-- The records of a completion (Table 13.12). -/
def doneRecs (s : State) (n : Nat) : List NvRec :=
  let c := ctxOf s n
  let r := recDone c.cause (ctxTo c).toNat (slotRecNow s c.kidx)
  let ck := ckptRec n 2 walkEnd c
  let free : List NvRec := match fmtOf s c.kidx with
    | some j => if c.cause = 3 ∧ fmtAgain s c.kidx = true then [fmtRec s j c.kidx] else [.fmt j 0 0 0]
    | none => []
  match c.cause with
  | 1 => [ck, .slot c.kidx r.st r.brec r.asel r.gen]
  | 2 => [ck, .slot c.kidx r.st r.brec r.asel r.gen]
  | 3 => ck :: free
  | _ => [ck, .slot c.kidx 0 false false 0] ++ free

/-- Contexts whose conditions hold commit their completion records. -/
def rkPoll (s : State) : State :=
  if s.pwr.phase ≠ .service then s
  else
    (List.range 64).foldl (fun s n =>
      if ctxDone s n then
        let recs := doneRecs s n
        nvPush { recs := recs, act := .passDone n } (ctxPut n { ctxOf s n with st := .completing, doneQueued := true } s)
      else s) s

/-- Free a format entry of a slot. -/
def fmtRelease (kidx : Nat) (s : State) : State :=
  { s with nvu := { s.nvu with fmtSlots := s.nvu.fmtSlots.filter (fun e => e.2 != kidx) } }

/-- EV_REKEY_DONE: KIDX, cause, lines written. -/
def rekeyDone (n : Nat) (c : Ctx) (s : State) : State :=
  raise .rekeyDone (srcCtx n) c.kidx c.cause (regVal s (0x3A00 + 8 * n) 0x10 0 % 2 ^ 32) s

/-- True when context n's completion record was confirmed in an earlier frame (R125, R153). -/
def doneDue (s : State) (n : Nat) : Bool :=
  let c := ctxOf s n
  decide (c.st = .completing) && (match c.doneConf with
    | some f => decide (f < frameNo s)
    | none => false)

/-- REKEY_COMPLETE: g ceases to be live; for new material B moves into A and the slot is ACTIVE; the context is free
(R153, R123). -/
def doRekeyComplete (n : Nat) (s : State) : State :=
  let c := ctxOf s n
  if doneDue s n = true ∧ (c.cause = 1 ∨ c.cause = 2) then
    let x := slotOf s c.kidx
    let y : Slot :=
      if c.cause = 1 then
        { x with st := .active, two := false, newInB := false, matA := x.matB, matB := none, kcvB := 0, kcvA := x.kcvB,
                 kcvABad := x.kcvBBad, kcvBBad := false, asel := !x.asel, brec := false }
      else { x with two := false }
    let y := if x.st = .zeroized then { y with st := .zeroized, prior := if c.cause = 1 then .active else x.prior } else y
    let s := rekeyDone n c (ctxPut n {} (slotPut c.kidx { y with promoted := false } s))
    rkSchedule (if y.spentDue then slotSpent c.kidx s else s)
  else s

/-- REKEY_COMPLETE. -/
def execRekeyComplete (c : Fin 64) (s : State) : Host.Outcome State Fault Refusal := .next (doRekeyComplete c.val s)

/-- FORMAT_COMPLETE: every mark stands past its extent and the format entry is free (R159). -/
def doFormatComplete (n : Nat) (s : State) : State :=
  let c := ctxOf s n
  if doneDue s n = true ∧ c.cause = 3 then
    let s := boundSet n walkEnd s
    let s := if fmtAgain s c.kidx then s else fmtRelease c.kidx s
    rkSchedule (rekeyDone n c (ctxPut n {} s))
  else s

/-- FORMAT_COMPLETE. -/
def execFormatComplete (c : Fin 64) (s : State) : Host.Outcome State Fault Refusal := .next (doFormatComplete c.val s)

/-- The dirty tag lines of a slot that is EMPTY stay in the cache (R94 has no use for them); the purge changes none. -/
def purgeSlot (kidx : Nat) (s : State) : State := slotPut kidx { rowBad := (slotOf s kidx).rowBad } s

/-- PURGE_COMPLETE: the slot becomes EMPTY, with its materials erased and its grant row at defaults (R160, R137). -/
def doPurgeComplete (n : Nat) (s : State) : State :=
  let c := ctxOf s n
  if doneDue s n = true ∧ c.cause = 4 then
    let s := (extents s false c.kidx).foldl (fun s x => regPut 0x4003 4 (c.kidx * 4 + x.e) 0 s) s
    let s := grantReset c.kidx (purgeSlot c.kidx (fmtRelease c.kidx s))
    rkSchedule (rekeyDone n c (ctxPut n {} s))
  else s

/-- PURGE_COMPLETE. -/
def execPurgeComplete (c : Fin 64) (s : State) : Host.Outcome State Fault Refusal := .next (doPurgeComplete c.val s)

-- The ahead set and takes (R146 to R149, R152, R156)

/-- Entries of the ahead set are at most 64. -/
def aheadFull (c : Ctx) : Bool := decide (64 ≤ c.ahead.length)

/-- The line is in the context's ahead set. -/
def aheadHas (c : Ctx) (a : Nat) : Bool := c.ahead.any (fun e => e.addr == a)

/-- Enter a line as PENDING (Table 07.4); CX_PULLS counts the entries made. -/
def aheadAdd (n a : Nat) (s : State) : State :=
  let c := ctxOf s n
  if aheadHas c a then
    ctxPut n { c with ahead := c.ahead.map (fun e => if e.addr = a then { e with isDone := false } else e) } s
  else count1 (0x3A00 + 8 * n) 0x13 0 (ctxPut n { c with ahead := c.ahead ++ [{ addr := a }] } s)

/-- A line of the slot is taken, or is stepped from the ahead set, and its step has not ended (R146). -/
def lineTaken (s : State) (a : Nat) : Bool :=
  s.rk.ctxs.any (fun e => e.2.steps.any (fun x => x.addr == a && x.st != .written))

/-- CX_PAUSE or REKEY_PAUSE_ALL. -/
def ctxPaused (s : State) (n : Nat) : Bool :=
  decide (regVal s (0x3A00 + 8 * n) 9 0 = 1) || decide (regVal s 0x2070 1 0 = 1)

/-- A write of an owner is held for a vote: its counter is resolved (R296). -/
def writeHeld (s : State) (o : MOwner) : Bool := s.rep.holds.any (fun h => h.dir == .w && h.owner == o)

/-- A granted foreground write of the line whose counter is not resolved, a partial write in the merger included, its
read half held for a vote too (R148). -/
def unresolved (s : State) (a : Nat) : Bool :=
  s.pool.txns.any (fun t => t.item.h.addr.toNat == a && !opReads t.item.op && !opTag t.item.op && t.st != .writing &&
    !writeHeld s (.txn t.id))

/-- Taken lines of a context whose steps have not ended (R152). -/
def openSteps (c : Ctx) : Nat := (c.steps.filter (fun x => x.st != .written && !x.ahead)).length

/-- A take is held by R156: 8,192 lines lie between the last confirmed boundary and BOUND. -/
def takeHeld (s : State) (c : Ctx) : Bool := decide (8192 ≤ ctxLines s c c.ckpt c.bound)

/-- The walk moves on by one line: BOUND, the marks, and a checkpoint after 4,096 lines (R146, R155). -/
def takeMove (n : Nat) (s : State) : State :=
  let c := ctxOf s n
  let s := ctxPut n { c with takes := c.takes + 1, sinceCkpt := c.sinceCkpt + 1 } s
  let s := boundSet n (ctxWalk s c (c.bound + 1)) s
  if 4096 ≤ c.sinceCkpt + 1 then ctxPut n { ctxOf s n with sinceCkpt := 0 } (ckptPush n 0 false s) else s

/-- The take of a context that may take (R148, R149, R152, R156). -/
def takeLine (n : Nat) (s : State) : State :=
  let c := ctxOf s n
  let a := c.bound
  if c.cause ≤ 2 then
    if flightUnder s a c.kidx (ctxTo c) then takeMove n s
    else if flightUnder s a c.kidx c.gen then
      if aheadFull c ∧ aheadHas c a = false then s else takeMove n (aheadAdd n a s)
    else takeMove n (ctxPut n { c with steps := c.steps ++ [{ addr := a, port := portOf s a }] } s)
  else if lineFlights s a ≠ [] ∨ writeOut s a = true then s
  else takeMove n (ctxPut n { c with steps := c.steps ++ [{ addr := a, port := portOf s a }] } s)

/-- True when context n may take a line now. -/
def takeOk (s : State) (n : Nat) : Bool :=
  let c := ctxOf s n
  decide (c.st = .running) && decide (s.pwr.phase = .service) && decide (c.bound ≠ walkEnd) && !ctxPaused s n &&
    decide (c.takes < regVal s (0x3A00 + 8 * n) 8 0) && decide (openSteps c < 1024) && !takeHeld s c &&
    !unresolved s c.bound && ctxMats s c.kidx c.cause

/-- A step of context n ends (R146, R150). -/
def stepEnd (n a : Nat) (s : State) : State :=
  let c := ctxOf s n
  ctxPut n { c with steps := c.steps.filter (fun x => x.addr != a), ahead := c.ahead.filter (fun e => e.addr != a) }
    { s with tagc := { s.tagc with lostFor := s.tagc.lostFor.filter (fun o => o != .step n a) } }

/-- Change the step of a line. -/
def stepMod (n a : Nat) (f : StepLine → StepLine) (s : State) : State :=
  let c := ctxOf s n
  ctxPut n { c with steps := c.steps.map (fun x => if x.addr = a then f x else x) } s

/-- The step of a line. -/
def stepFind (s : State) (n a : Nat) : Option StepLine := (ctxOf s n).steps.find? (fun x => x.addr == a)

/-- The line lies in the uncertain band of a resumed pass: fewer than 8,192 lines of the walk from the boundary that it
resumed from (R156, R157). -/
def inBand (s : State) (c : Ctx) (a : Nat) : Bool :=
  c.resumed && decide (c.band ≤ a) && decide (ctxLines s c c.band a < 8192)

-- Stopping (R162)

/-- A media operation of a step of context n. -/
def stepOwner (n : Nat) (o : MOwner) : Bool :=
  match o with
  | .step k _ => k == n
  | _ => false

/-- The reads, held lines and fetches of a context's steps lose their owner: what arrives for them is dropped. A write
held for a vote stays (Table 07.6). -/
def stepsDrop (n : Nat) (s : State) : State :=
  let orphan := fun (o : MOp) => if stepOwner n o.owner ∧ o.kind = .read then { o with owner := .flush } else o
  let s := (s.media.map (fun e => e.1)).foldl (fun s m =>
    mediaMod m (fun x => { x with fifoR := x.fifoR.map orphan, outR := x.outR.map (fun e => (e.1, orphan e.2)) }) s) s
  { s with rep := { s.rep with holds := s.rep.holds.filter (fun h => h.dir == .w || !stepOwner n h.owner) },
           tagc := { s.tagc with
             fetches := s.tagc.fetches.map (fun f => { f with owners := f.owners.filter (fun o => !stepOwner n o) })
             lostFor := s.tagc.lostFor.filter (fun o => !stepOwner n o) } }

/-- A step whose write is on its way: issued and not PERSISTED, or held for a vote with its counter resolved. -/
def stepKept (s : State) (n : Nat) (x : StepLine) : Bool := decide (x.st = .written) || writeHeld s (.step n x.addr)

/-- Context n is suspended: taken lines and ahead set cleared, its checkpoint committed unless the engine is parked
(Table 06.14, Table 07.6). Writes that it has issued are still its own until they are PERSISTED (R153, R154). -/
def ctxSuspend (n : Nat) (s : State) : State :=
  let c := ctxOf s n
  if c.st = .running then
    let b := ckptBound s n
    let s := stepsDrop n (ctxPut n { c with st := .suspended, resumed := false, steps := c.steps.filter (stepKept s n),
                                            ahead := [], drainLow := none } s)
    if s.pwr.phase = .parked then s
    else nvPush { recs := [ckptRec n 1 b c], act := .ckpt n b, own := decide (s.pwr.phase = .draining) } s
  else s

/-- Suspend every running context whose materials are not all present. -/
def ctxSuspendAbsent (s : State) : State :=
  (List.range 64).foldl (fun s n =>
    let c := ctxOf s n
    if c.st = .running ∧ c.cause ≠ 4 ∧ ctxMats s c.kidx c.cause = false then ctxSuspend n s else s) s

/-- REKEY_PASS_START: at the strobe after the start record is confirmed CUR_GEN moves to g + 1 and the context runs. A
material erased meanwhile holds the start back until it has returned (R145, R144; log 70). -/
def doRekeyPassStart (n : Nat) (s : State) : State :=
  let c := ctxOf s n
  match c.startConf with
  | none => s
  | some f =>
    if c.st = .starting ∧ f < frameNo s ∧ ctxMats s c.kidx c.cause = true then
      let x := slotOf s c.kidx
      let y : Slot :=
        if c.cause = 1 then { x with gen := nextGen c.gen, two := true, newInB := true, hwQueued := false }
        else if c.cause = 2 then { x with gen := nextGen c.gen, two := true, newInB := false, hwQueued := false,
                                          promoted := false }
        else x
      let s := slotPut c.kidx y s
      let s := if c.cause = 1 then rkDequeue c.kidx 2 s else s
      let s := ctxPut n { c with st := .running } s
      let s := [0x10, 0x11, 0x12, 0x13, 0x14].foldl (fun s sub => regPut (0x3A00 + 8 * n) sub 0 0 s) s
      rkPoll (ctxSuspendAbsent (raise .rekeyStart (srcCtx n) c.kidx c.cause c.gen.toNat s))
    else s

/-- REKEY_PASS_START. -/
def execRekeyPassStart (c : Fin 64) (s : State) : Host.Outcome State Fault Refusal := .next (doRekeyPassStart c.val s)

/-- EV_REKEY_RESUME: KIDX, recorded boundary, cause. -/
def rekeyResumeEv (n : Nat) (s : State) : State :=
  let c := ctxOf s n
  let b := if c.ckpt = walkEnd then 0 else c.ckpt
  raise .rekeyResume (srcCtx n) c.kidx (b % 2 ^ 32) (b / 2 ^ 32 + 256 * c.cause) s

/-- A suspended context whose materials have returned continues from its recorded boundary (R157). -/
def ctxContinue (n : Nat) (s : State) : State :=
  let c := ctxOf s n
  if c.st = .suspended ∧ ctxMats s c.kidx c.cause = true ∧ extents s false c.kidx ≠ [] ∧ s.pwr.phase = .service then
    let s := if c.resumed then s else rekeyResumeEv n s
    boundSet n c.ckpt (ctxPut n { ctxOf s n with st := .running, resumed := true, band := c.ckpt } s)
  else s

/-- A RETIRE in effect frees the slot's context with its stop checkpoint (R162, Table 07.6). -/
def ctxStop (kidx : Nat) (s : State) : State :=
  match ctxFor s kidx with
  | none => s
  | some n =>
    let c := ctxOf s n
    let b := ckptBound s n
    nvPush { recs := [ckptRec n 2 (if b = walkEnd then c.ckpt else b) c], act := .none } (stepsDrop n (ctxPut n {} s))

-- Confirmed changes at the strobe (R125)

/-- Put a slot into a state, or, where it is ZEROIZED meanwhile, into its prior state. -/
def slotMove (x : Slot) (st : SlotSt) : Slot := if x.st = .zeroized then { x with prior := st } else { x with st := st }

/-- Effect of one confirmed change at a frame strobe (R125, Table 13.12). A slot that left LOADED while its ACTIVATE waited
has its record taken back (log 35). -/
def nvAct (act : NvAct) (s : State) : State :=
  match act with
  | .activate k =>
    let x := slotOf s k
    if x.st = .loaded then
      let s := slotPut k { x with st := .active, gen := 1#32, two := false, newInB := false, asel := false, brec := false } s
      if slotClass s k = 3 then
        let s := (extents s false k).foldl (fun s e => regPut 0x4003 4 (k * 4 + e.e) e.base s) s
        rkEnqueue k 3 s
      else s
    else
      let free : List NvRec := match fmtOf s k with
        | some j => [.fmt j 0 0 0]
        | none => []
      nvPush { recs := .slot k 0 false false 0 :: free, act := .none } (fmtRelease k s)
  | .rotate k =>
    let x := slotOf s k
    if x.st = .retiring then s else rkEnqueue k 1 (slotPut k { slotMove x .rotating with brec := true } s)
  | .retire k =>
    let x := slotOf s k
    let s := slotPut k { x with st := .retiring, prior := .empty, hwQueued := false, promoted := false } s
    rkEnqueue k 4 (rkClearQueue k (ctxStop k s))
  | .spent k =>
    let x := slotOf s k
    if x.st = .retiring then s
    else
      raise .keySpent (srcGlobal 12) k x.gen.toNat 0
        (slotPut k { slotMove x .spent with spentDue := false, hwQueued := false } s)
  | _ => s

/-- Every confirmed change takes effect, in order. -/
def nvActs (s : State) : State :=
  let l := s.nvu.acts
  l.foldl (fun s a => nvAct a s) { s with nvu := { s.nvu with acts := [] } }

/-- What the strobe does to the rekey engine: budgets, EV_REKEY_STALL for contexts held throughout the frame,
suspended contexts, the superframe's checkpoint duty (R152, R155, R156). -/
def rekeyStrobe (s : State) : State :=
  let s := (s.rk.ctxs.map (fun e => e.1)).foldl (fun s n =>
    let c := ctxOf s n
    let held := decide (c.st = .running) && takeHeld s c
    let s :=
      if c.stalled ∧ held = true ∧ c.takes = 0 then
        let s := count1 (0x3A00 + 8 * n) 0x14 0 s
        raise .rekeyStall (srcCtx n) c.kidx (regVal s (0x3A00 + 8 * n) 0x14 0) 0 s
      else s
    ctxContinue n (ctxPut n { ctxOf s n with takes := 0, stalled := held } s)) s
  let k := frameNo s % 1024
  let s := if k < 64 then ckptSuper k s else s
  rkPoll (rkSchedule s)

end Sys2Proof.Machine
end

