-- ==== Sys2Proof/Machine/TagCache.lean ====
section
/-! DEFINITION. The tag cache: ways, entries, readiness of writes and fills, write-backs, fetches, trailers, and the
storm count (R76 to R92). -/

namespace Sys2Proof.Machine

/-- The set of a tag line (Chapter 04, The tag cache). -/
def tagSet (tl : Nat) : Nat := (tl % 4096) ^^^ (tl / 2 ^ 12 % 4096) ^^^ (tl / 2 ^ 24 % 4096) ^^^ (tl / 2 ^ 36 % 16)

/-- The keys of a set's ways that SRAM can hold: a way within a bad row is never allocated (Table 14.4; log 21). -/
def tagWayKeys (s : State) (set : Nat) : List Nat :=
  ((List.range 8).map (fun w => set * 8 + w)).filter (fun k =>
    !s.rep.badRows.contains (656 * 1024 + 2 * k) && !s.rep.badRows.contains (656 * 1024 + 2 * k + 1))

/-- The way that holds a tag line. -/
def tagFind (s : State) (tl : Nat) : Option (Nat × TagWay) :=
  (List.range 8).findSome? (fun w =>
    match tabFind s.tagc.ways (tagSet tl * 8 + w) with
    | some x => if x.addr = tl then some (tagSet tl * 8 + w, x) else none
    | none => none)

/-- Put a way. -/
def wayPut (k : Nat) (x : TagWay) (s : State) : State := { s with tagc := { s.tagc with ways := tabSet s.tagc.ways k x } }

/-- Put a way that is being used: it is the most recently used of its set from here on (R83). -/
def wayUse (k : Nat) (x : TagWay) (s : State) : State :=
  wayPut k { x with used := s.tagc.uses } { s with tagc := { s.tagc with uses := s.tagc.uses + 1 } }

/-- The least recently used of some ways. -/
def leastUsed (l : List (Nat × TagWay)) : Option (Nat × TagWay) :=
  match l with
  | [] => none
  | e :: t => some (t.foldl (fun b y => if y.2.used < b.2.used then y else b) e)

/-- The ways of a list of keys that hold a line. -/
def waysAt (s : State) (l : List Nat) : List (Nat × TagWay) :=
  l.filterMap (fun k => (tabFind s.tagc.ways k).map (fun x => (k, x)))

/-- Empty a way. -/
def wayDel (k : Nat) (s : State) : State := { s with tagc := { s.tagc with ways := tabDel s.tagc.ways k } }

/-- Entry e of a tag line: bytes 8e to 8e + 7, little-endian (R76). -/
def tagEntryOf (d : Line) (e : Nat) : BitVec 64 := d.extractLsb' (64 * e) 64

/-- A tag line with entry e replaced. -/
def tagEntrySet (d : Line) (e : Nat) (v : BitVec 64) : Line :=
  (d &&& ~~~ ((BitVec.allOnes 64).setWidth 512 <<< (64 * e))) ||| (v.setWidth 512 <<< (64 * e))

/-- A tag line is reserved by a granted or accepted write, or a fetch will fill it (R83, R85). -/
def tagReserved (s : State) (tl : Nat) : Bool :=
  s.tagc.resv.any (fun r => r.2 == tl) || s.tagc.fetches.any (fun f => f.tl == tl)

/-- A way that a victim choice may take at once: clean, nothing pending, not reserved. -/
def wayClean (s : State) (x : TagWay) : Bool := !x.dirty && x.wb.isNone && x.pend.isEmpty && !tagReserved s x.addr

/-- Ways of a set that are empty or clean. -/
def wayFrees (s : State) (set : Nat) : List Nat :=
  (tagWayKeys s set).filter (fun k =>
    match tabFind s.tagc.ways k with
    | none => true
    | some x => wayClean s x)

/-- Tag lines of a set that are reserved and not cached, once each. -/
def resvIn (s : State) (set : Nat) : List Nat :=
  let l := (s.tagc.resv.map (fun r => r.2) ++ s.tagc.fetches.map (fun f => f.tl)).filter (fun t =>
    tagSet t == set && (tagFind s t).isNone)
  l.foldl (fun acc t => insertNat t acc) []

/-- A way stands ready for a tag line: it is cached or reserved, or its set has an empty or clean way that nothing else
has reserved (R83). -/
def tagRoom (s : State) (tl : Nat) : Bool :=
  (tagFind s tl).isSome || tagReserved s tl ||
    decide ((resvIn s (tagSet tl)).length < (wayFrees s (tagSet tl)).length)

/-- Dirty and cleaning tag lines of port m, with those that granted and accepted writes have reserved (R85). -/
def tagDirtyOn (s : State) (m : Nat) : Nat :=
  let d := (s.tagc.ways.filter (fun e => (e.2.dirty || e.2.wb.isSome) && portOf s e.2.addr == m)).map (fun e => e.2.addr)
  let r := (s.tagc.resv.map (fun x => x.2)).filter (fun t => portOf s t == m && !d.contains t)
  d.length + (r.foldl (fun acc t => insertNat t acc) []).length

/-- The line counts already against the limit of R85. -/
def tagCounted (s : State) (tl : Nat) : Bool :=
  s.tagc.resv.any (fun r => r.2 == tl) ||
    (match tagFind s tl with
     | some (_, x) => x.dirty || x.wb.isSome
     | none => false)

/-- A write that enters a tag entry is ready: a way, and room under TAG_DIRTY_MAX_PORT (R83, R85). -/
def tagReady (s : State) (tl : Nat) : Bool :=
  tagRoom s tl && (tagCounted s tl || decide (tagDirtyOn s (portOf s tl) < cfgVal s 0x2040 1 0))

/-- Reserve a way for a granted or accepted write (R83). -/
def tagReserve (o : MOwner) (tl : Nat) (s : State) : State :=
  { s with tagc := { s.tagc with resv := s.tagc.resv ++ [(o, tl)] } }

/-- The reservation of a write ends. -/
def tagUnreserve (o : MOwner) (s : State) : State :=
  { s with tagc := { s.tagc with resv := s.tagc.resv.filter (fun r => r.1 != o) } }

/-- A way for a tag line that is not cached: an empty way, else the least recently used clean way (R83; log 69). -/
def wayAlloc (tl kidx : Nat) (s : State) : Option Nat × State :=
  let l := wayFrees s (tagSet tl)
  match l.find? (fun k => (tabFind s.tagc.ways k).isNone) with
  | some k => (some k, wayPut k { addr := tl, kidx := kidx } s)
  | none =>
    match leastUsed (waysAt s l) with
    | some e => (some e.1, wayPut e.1 { addr := tl, kidx := kidx } s)
    | none => (none, s)

/-- A way of the set is on its way to clean: a write-back is out, or a victim waits for one with nothing pending. -/
def wayComing (s : State) (set : Nat) : Bool :=
  (tagWayKeys s set).any (fun k =>
    match tabFind s.tagc.ways k with
    | some x => x.wb.isSome || (x.evict && x.pend.isEmpty)
    | none => false)

/-- A tag line that finds no way wants a dirty victim written back: the least recently used dirty line of the set with
nothing pending, one at a time (R83; log 69). -/
def wayEvict (tl : Nat) (s : State) : State :=
  if wayComing s (tagSet tl) then s
  else
    match leastUsed ((waysAt s (tagWayKeys s (tagSet tl))).filter (fun e =>
        e.2.dirty && e.2.pend.isEmpty && e.2.wb.isNone && !tagReserved s e.2.addr)) with
    | some v => wayPut v.1 { v.2 with evict := true, askedAt := some (v.2.askedAt.getD (now s)) } s
    | none => s

/-- Write an entry: valid, pending on the write's issue number, and dirty (R81). -/
def tagWrite (kidx tl e seq : Nat) (v : BitVec 64) (s : State) : State :=
  let put := fun (k : Nat) (x : TagWay) (s : State) =>
    wayUse k { x with valid := x.valid ||| (1#8 <<< e), pend := tabSet x.pend e seq, dirty := true,
                      dirtyOf := x.dirtyOf ||| (1#8 <<< e), dirtyAt := if x.dirty then x.dirtyAt else frameNo s,
                      data := tagEntrySet x.data e v } s
  match tagFind s tl with
  | some (k, x) => put k x s
  | none =>
    match wayAlloc tl kidx s with
    | (some k, s) => put k { addr := tl, kidx := kidx } s
    | (none, s) => s

/-- An issue number no longer awaits its entry in a way; the way is quiet from the cycle in which its last one goes (R34,
R84). -/
def wayLetGo (seq t : Nat) (x : TagWay) : TagWay :=
  { x with pend := x.pend.filter (fun p => p.2 != seq), quietAt := if x.pend.any (fun p => p.2 == seq) then t else x.quietAt }

/-- The write of an issue number is PERSISTED: its entry is no longer pending (R84). -/
def tagPersisted (seq : Nat) (s : State) : State :=
  { s with tagc := { s.tagc with ways := s.tagc.ways.map (fun e => (e.1, wayLetGo seq (now s) e.2)) } }

/-- The write of an issue number is not performed: its entry is dropped (R81, Table 12.3). -/
def tagDrop (seq : Nat) (s : State) : State :=
  { s with tagc := { s.tagc with ways := s.tagc.ways.map (fun e =>
      let gone := (e.2.pend.filter (fun p => p.2 == seq)).foldl (fun v p => v ||| (1#8 <<< p.1)) 0#8
      (e.1, { wayLetGo seq (now s) e.2 with valid := e.2.valid &&& ~~~ gone, dirtyOf := e.2.dirtyOf &&& ~~~ gone })) } }

/-- Tag lines' entries are listed as two parameters. -/
def tlEv (e : Ev) (src tl p3 : Nat) (s : State) : State := raise e (srcGlobal src) (tl % 2 ^ 32) (tl / 2 ^ 32) p3 s

/-- Drop a cached tag line whole (R86, R87). -/
def tagDropLine (tl : Nat) (s : State) : State :=
  match tagFind s tl with
  | none => s
  | some (k, _) =>
    wayDel k { s with tagc := { s.tagc with flushSet := s.tagc.flushSet.filter (fun f => f.1 != tl) } }

/-- Entries marked in a valid mask. -/
def validCount (v : BitVec 8) : Nat := (List.range 8).foldl (fun n i => if v.getLsbD i then n + 1 else n) 0

/-- SECDED findings of a command that uses a cached tag line: a correctable error is counted, an uncorrectable one drops
the line; EV_TAGCACHE_UE carries the dirty entries lost (R86, R98). -/
def tagSecded (f : Faults) (tl : Nat) (s : State) : State :=
  match tagFind s tl with
  | none => s
  | some (_, x) =>
    let s := if f.tagCe then count1 0x6040 8 0 s else s
    if f.tagUe then tlEv .tagcacheUe 19 tl (validCount x.dirtyOf) (tagDropLine tl s) else s

/-- A read lookup that finds its entry valid: it is counted, and is a use of its line (R83, R97). -/
def tagHit (tl : Nat) (s : State) : State :=
  match tagFind s tl with
  | none => s
  | some (k, x) => wayUse k x (count1 0x6040 1 0 s)

/-- The trailer of a tag line (Table 04.1). -/
def tagTrailer (kidx tl : Nat) (d : Line) : Side :=
  0#28 ++ BitVec.ofNat 15 kidx ++ 1#2 ++ 0#3 ++ crc16 0 (lineBytes d ++ leBytes 5 tl)

/-- The failed fields of a fetched trailer (R91). A tag line never written passes (R82). -/
def trailerFaults (kidx tl : Nat) (d : Line) (tr : Side) : Nat :=
  let mark := (tr.extractLsb' 19 2).toNat
  if mark = 0 then 0
  else
    (if 2 ≤ mark then 1 else 0) + (if tr.extractLsb' 36 28 ≠ 0#28 ∨ tr.extractLsb' 16 3 ≠ 0#3 then 2 else 0) +
      (if (tr.extractLsb' 21 15).toNat ≠ kidx then 4 else 0) +
      (if tr.extractLsb' 0 16 ≠ crc16 0 (lineBytes d ++ leBytes 5 tl) then 8 else 0)

/-- Cached entries over fetched ones (R82). -/
def tagMergeData (x : TagWay) (d : Line) : Line :=
  (List.range 8).foldl (fun acc e => if x.valid.getLsbD e then tagEntrySet acc e (tagEntryOf x.data e) else acc) d

/-- The entry of a tag line when it is valid in the cache. -/
def tagCached (s : State) (tl e : Nat) : Option (BitVec 64) :=
  match tagFind s tl with
  | some (_, w) => if w.valid.getLsbD e then some (tagEntryOf w.data e) else none
  | none => none

/-- Merge a fetched tag line into the cache: every entry becomes valid (R82). -/
def tagMerge (kidx tl : Nat) (d : Line) (s : State) : State :=
  match tagFind s tl with
  | some (k, x) =>
    wayUse k { x with data := tagMergeData x d, valid := 0xFF#8, failedFetch := false, quietAt := now s } s
  | none =>
    match wayAlloc tl kidx s with
    | (some k, s) => wayUse k { addr := tl, kidx := kidx, data := d, valid := 0xFF#8, quietAt := now s } s
    | (none, s) => s

/-- A port that serves nothing: FAILED or without a slice (Tables 12.3 and 14.6). -/
def portDead (s : State) (m : Nat) : Bool := (mediaOf s m).failed || (mediaOf s m).unserved

/-- EV_TAGLINE_MEDIA and its count (R90): `w` is 1 for a zero-filled write-back. -/
def taglineMedia (tl w : Nat) (s : State) : State := tlEv .taglineMedia 18 tl w (count1 0x6040 7 0 s)

/-- Ask for a fetch of a tag line: join the fetch that waits or is out, or queue one, which TAG_FETCHES counts (R82, R84,
R87, R97). On a dead port the fetch fails at once, and its owners learn it when their lines arrive (Table 12.3, R90). -/
def fetchAsk (tl kidx : Nat) (owners : List MOwner) (wb : Bool) (s : State) : State :=
  if portDead s (portOf s tl) then
    if wb then s
    else taglineMedia tl 0 { s with tagc := { s.tagc with lostFor := s.tagc.lostFor ++ owners } }
  else if s.tagc.fetches.any (fun f => f.tl == tl) then
    { s with tagc := { s.tagc with fetches := s.tagc.fetches.map (fun f =>
        if f.tl = tl then
          { f with owners := f.owners ++ owners, forWb := f.forWb || wb }
        else f) } }
  else
    let f : TagFetch := { tl := tl, kidx := kidx, owners := owners, since := now s, forWb := wb }
    count1 0x6040 2 0 { s with tagc := { s.tagc with fetches := s.tagc.fetches ++ [f] } }

/-- The lookup of entry e of a tag line for a read that `o` verifies: a hit, or the fetch that the miss needs (R82, R86). -/
def tagLookup (o : MOwner) (kidx tl e : Nat) (f : Faults) (s : State) : State :=
  let s := tagSecded f tl s
  if (tagCached s tl e).isSome then tagHit tl s else fetchAsk tl kidx [o] false s

/-- A dirty line is due for write-back: at TAG_CLEAN_AGE, in a flush, as a victim, or in the drain (R84, R85, R97). -/
def wbDue (s : State) (x : TagWay) : Bool :=
  x.dirty && x.wb.isNone && (x.evict || decide (s.pwr.phase = .draining) ||
    s.tagc.flushSet.any (fun f => f.1 == x.addr) || decide (cfgVal s 0x2040 2 0 ≤ frameNo s - x.dirtyAt))

/-- A due line may be written back now: complete and nothing pending (R84). -/
def wbReady (s : State) (x : TagWay) : Bool := wbDue s x && decide (x.valid = 0xFF#8) && x.pend.isEmpty

/-- Ask for the fetches that due lines need because they are partly valid (R84, R270). -/
def wbFetches (s : State) : State :=
  s.tagc.ways.foldl (fun s e =>
    if wbDue s e.2 ∧ e.2.valid ≠ 0xFF#8 ∧ s.tagc.fetches.any (fun f => f.tl == e.2.addr) = false then
      fetchAsk e.2.addr e.2.kidx [] true s
    else s) s

/-- The cycle from which a line's write-back is eligible: it has been asked for, has aged or is drain work, and nothing
of it is pending or missing (R34, R84, R85). -/
def wbSince (s : State) (x : TagWay) : Nat :=
  let aged := (x.dirtyAt + cfgVal s 0x2040 2 0) * 1024
  let due := min aged (x.askedAt.getD aged)
  max x.quietAt (if s.pwr.phase = .draining then min due s.pwr.qualAt else due)

/-- The line of port m whose write-back became eligible first, of those that may be written back now; the one with the
oldest dirty entry among equals (R34, R85). -/
def wbPick (s : State) (m : Nat) : Option (Nat × TagWay) :=
  let l := s.tagc.ways.filter (fun e => wbReady s e.2 && portOf s e.2.addr == m)
  match l with
  | [] => none
  | e :: t =>
    some (t.foldl (fun b y =>
      let u := wbSince s y.2
      let v := wbSince s b.2
      if u < v ∨ (u = v ∧ y.2.dirtyAt < b.2.dirtyAt) then y else b) e)

/-- Issue the write-back of a way with a fresh trailer; the line is cleaning (R84). -/
def wbIssue (m k : Nat) (x : TagWay) (s : State) : State :=
  let seq := s.mseq
  let s := wayPut k { x with dirty := false, dirtyOf := 0, wb := some seq, evict := false, askedAt := none } s
  issueW m { kind := .write, addr := x.addr, data := mediaJoin x.data (tagTrailer x.kidx x.addr x.data),
             owner := .tagWb x.addr, kidx := x.kidx } s

/-- A write-back is PERSISTED: the line is clean unless written since, and a flush that it serves lets it go. -/
def wbPersisted (tl seq : Nat) (s : State) : State :=
  let s := tagPaid tl seq (count1 0x6040 3 0 s)
  let s := match tagFind s tl with
    | some (k, x) => if x.wb = some seq then wayPut k { x with wb := none, quietAt := now s } s else s
    | none => s
  { s with tagc := { s.tagc with flushSet := s.tagc.flushSet.filter (fun f => f.1 != tl || decide (seq < f.2)) } }

/-- TAG_CACHE_FLUSH: wait for every line that is dirty or cleaning now (R97). -/
def tagFlush (s : State) : State :=
  let l := s.tagc.ways.filterMap (fun e =>
    if e.2.dirty then some (e.2.addr, s.mseq)
    else
      match e.2.wb with
      | some q => some (e.2.addr, q)
      | none => none)
  let old := s.tagc.flushSet.filter (fun f => !l.any (fun g => g.1 == f.1))
  let asked := fun (x : TagWay) => if x.dirty then { x with askedAt := some (x.askedAt.getD (now s)) } else x
  wbFetches { s with tagc := { s.tagc with flushSet := old ++ l, ways := s.tagc.ways.map (fun e => (e.1, asked e.2)) } }

-- TAG_FAIL storms (R92)

/-- Count a TAG_FAIL of a slot; the limit raises EV_TAG_STORM once a window, and may queue a rekey, which the event's last
parameter says (R92, R98). -/
def tagFailCount (kidx : Nat) (s : State) : State :=
  let n := tabGet 0 s.tagc.fails kidx + 1
  let s := { s with tagc := { s.tagc with fails := tabPut 0 s.tagc.fails kidx n } }
  if cfgVal s 0x2040 3 0 ≤ n ∧ s.tagc.stormed.contains kidx = false then
    let s := { s with tagc := { s.tagc with stormed := insertNat kidx s.tagc.stormed } }
    let t := if cfgVal s 0x2040 5 0 = 1 then nextGenCause kidx s else s
    raise .tagStorm (srcGlobal 16) kidx n (if t.rk.queue = s.rk.queue then 0 else 1) t
  else s

/-- The counts restart at the first strobe of a window (R92, R33). -/
def tagWindow (s : State) : State :=
  if frameNo s % cfgVal s 0x2040 4 0 = 0 then { s with tagc := { s.tagc with fails := [], stormed := [] } } else s

end Sys2Proof.Machine
end

