-- ==== Sys2Proof/Machine/WritePath.lean ====
section
/-! DEFINITION. The write path: the generation of a write, counter resolution, encryption, the tag entry and the issue
of WRITE_LINE (R66, R67, R99, R104, R112 to R114, R147). -/

namespace Sys2Proof.Machine

/-- The generation of a write that is no step (R147, Table 07.2 rows 3 to 6). `e` is the Jack entry that resolution
uses. -/
def genForWrite (s : State) (kidx a : Nat) (e : Option (BitVec 64)) : BitVec 32 :=
  let x := slotOf s kidx
  if x.two then
    let row34 := match ctxFor s kidx with
      | some n =>
        let c := ctxOf s n
        decide (c.cause ≤ 2) && (decide (a < c.bound) || aheadHas c a)
      | none => false
    let row5 := (match e with
      | some e => decide (genByKgen4 x (jeKgen4 e) = some x.gen)
      | none => false) || flightUnder s a kidx x.gen
    if row34 || row5 then x.gen else prevGen x.gen
  else x.gen

/-- A next-generation pass of the slot has been taken from the queue and has not started. -/
def nextGenStarting (s : State) (kidx : Nat) : Bool :=
  match ctxFor s kidx with
  | some n => decide ((ctxOf s n).cause = 2) && decide ((ctxOf s n).st = .starting)
  | none => false

/-- EV_COUNTER_HW once a slot and generation, and the next-generation cause, of which a slot has at most one that has not
started (R112). -/
def highWater (kidx : Nat) (g : BitVec 32) (s : State) : State :=
  let x := slotOf s kidx
  let s :=
    if x.hwNoted = some g then s
    else
      raise .counterHw (srcGlobal 13) kidx g.toNat (if x.two then 1 else 0) (slotPut kidx { x with hwNoted := some g } s)
  if nextGenStarting s kidx then s
  else
    let s := nextGenCause kidx s
    if s.rk.queue.contains { kidx := kidx, cause := 2 } then slotPut kidx { slotOf s kidx with hwQueued := true } s else s

/-- The line that was issued its last counter is pulled into the ahead set of the context that moves the slot on, or
the queued rekey is promoted; EV_COUNTER_END says which (R113, Table 07.4). -/
def counterEnd (kidx a : Nat) (g : BitVec 32) (s : State) : State :=
  let ev := fun (o : Nat) (s : State) =>
    raise .counterEnd (srcMedia (portOf s a) 4) kidx (a % 2 ^ 32) (a / 2 ^ 32 + 256 * o) s
  let run := match ctxFor s kidx with
    | some n =>
      let c := ctxOf s n
      if c.st = .running ∧ c.cause ≤ 2 ∧ c.gen = g then some n else none
    | none => none
  match run with
  | some n =>
    if aheadFull (ctxOf s n) ∧ aheadHas (ctxOf s n) a = false then ev 2 s else ev 0 (aheadAdd n a s)
  | none => ev 1 (slotPut kidx { slotOf s kidx with promoted := true } s)

/-- Resolve the counter of a write under a generation from the entry that the lookup or the fill gave; none when the
line is spent (R99, R104, R114). -/
def nextLctr (kidx a : Nat) (g : BitVec 32) (e : BitVec 64) (s : State) : Option (BitVec 24) × State :=
  let x := slotOf s kidx
  let held := if genByKgen4 x (jeKgen4 e) = some g then (jeLctr e).toNat else 0
  let base := max held (flightMax s a kidx g)
  if 2 ^ 24 - 1 ≤ base then (none, s)
  else
    let c := base + 1
    let cls := BitVec.ofNat 2 (slotClass s kidx)
    let s := jackWrite a (jackPack a (BitVec.ofNat 24 c) (g.setWidth 4) cls 0) s
    let s := if cfgVal s 0x2050 1 0 ≤ c ∧ g = (slotOf s kidx).gen then highWater kidx g s else s
    let s := if c = 2 ^ 24 - 1 then counterEnd kidx a g s else s
    (some (BitVec.ofNat 24 c), s)

/-- A write refused because its line is spent (R114). -/
def spentNote (kidx a : Nat) (s : State) : State :=
  sumUp .counterSpent (srcMedia (portOf s a) 4) kidx (a % 2 ^ 32) 0 (count1 0x6050 11 0 s)

-- Keystreams

/-- The lane mixer's words as blocks: the pad as blocks 0 to 3, the SCHK mask in block 4 (R64). -/
def mixBlocks (w : BitVec 576) : List Block :=
  let bs := lineBytes (w.extractLsb' 0 512)
  (List.range 4).map (fun j => blockOfBytes ((bs.drop (16 * j)).take 16)) ++ [(w.extractLsb' 512 16).setWidth 128]

/-- The blocks of a line under its keys: five keystream blocks, or in class W the mixer's words (R57, R64). -/
def lineBlocks (cls kidx : Nat) (k : GenKeys) (g : BitVec 32) (a : Nat) (c : BitVec 24) : List Block :=
  if cls = 1 then mixBlocks (mixWords k.mix (BitVec.ofNat 40 a) g c)
  else (List.range 5).map (fun j => ksBlock k.data (BitVec.ofNat 15 kidx) g (BitVec.ofNat 40 a) c j)

/-- What the slice delivers for a line: the pipes' blocks, or the mixer's words, with the errors of the command; and a
mismatch of the checker (R295). -/
def sliceBlocks (s : State) (sl cls : Nat) (dir : Dir) (f : Faults) (good : List Block) :
    List Block × Option (Nat × List Nat × List Block) :=
  if cls = 1 then (List.zipWith (fun x y => x ^^^ y) good (mixBlocks f.mixer), none)
  else pipeBlocks (sliceOf s sl) dir s.clk.cycle f good

/-- The slice that works on a line: that of its grant, also where another serves its port since (R302). -/
def ownerSlice (s : State) (o : MOwner) (m : Nat) : Nat :=
  match o with
  | .txn id =>
    match txnFind s id with
    | some t => t.sl
    | none => sliceNo s m
  | .step n a =>
    match stepFind s n a with
    | some x => x.sl
    | none => sliceNo s m
  | _ => sliceNo s m

/-- Hold a line of a slice for a vote: the duty that differs, its blocks, and the blocks with the checker's (R296). -/
def voteHold (h : Hold) (mis : Nat × List Nat × List Block) (s : State) : State :=
  let h := { h with duty := mis.1, blks := mis.2.1, chk := mis.2.2 }
  { s with rep := { s.rep with holds := s.rep.holds ++ [h] } }

/-- Payload XOR pad (R58, R64). -/
def lineXor (pt : Line) (ks : List Block) : Line := pt ^^^ ksLine ks

/-- The SCHK of a plaintext under block 4 (R65). -/
def lineSchk (pt : Line) (a : Nat) (ks : List Block) : BitVec 16 :=
  lineCrc pt (BitVec.ofNat 40 a) ^^^ (ks.getD 4 0#128).extractLsb' 0 16

-- Issue

/-- What a write of a line is made of once its counter is resolved. -/
structure WriteReq where
  owner : MOwner
  kidx : Nat
  addr : Nat
  port : Nat
  pt : Line
  psn : Bool
  gen : BitVec 32
  lctr : BitVec 24
  h : Block
deriving DecidableEq, Repr

/-- A write under the newer generation makes an ahead-set entry of its line DONE (The ahead set). -/
def aheadIssued (kidx a : Nat) (g : BitVec 32) (s : State) : State :=
  match ctxFor s kidx with
  | none => s
  | some n =>
    let c := ctxOf s n
    if c.cause ≤ 2 ∧ g = ctxTo c then
      ctxPut n { c with ahead := c.ahead.map (fun e => if e.addr = a then { e with isDone := true } else e) } s
    else s

/-- Put back a transaction whose cells but the header's have been consumed: they are released (R192, Table 09.4). -/
def txnConsume (t : Txn) (s : State) : State :=
  let s := txnPut { t with cells := 1 } s
  match t.item.src with
  | .link p => creditRelease p.val t.item.h.sid.toNat (t.cells - 1) s
  | .master _ => s

/-- What the issue of its WRITE_LINE does to the write's owner: hazards clear (Table 08.5, R146). -/
def ownerIssued (o : MOwner) (g : BitVec 32) (c : BitVec 24) (s : State) : State :=
  match o with
  | .txn id =>
    match txnFind s id with
    | some t => txnConsume { t with st := .writing, gen := g, lctr := c } s
    | none => s
  | .step n a => stepMod n a (fun x => { x with st := .written }) s
  | _ => s

/-- The step of a context whose WRITE_LINE issues is counted in CX_WRITTEN and SF_REKEY_LINES (R163). -/
def stepWritten (o : MOwner) (s : State) : State :=
  match o with
  | .step n _ => count1 (0x3A00 + 8 * n) 0x10 0 (count1 0x6000 9 0 s)
  | _ => s

/-- A format step's entry is owed a write-back of its tag line (R94). -/
def ownerOwes (o : MOwner) (tl seq : Nat) (s : State) : State :=
  match o with
  | .step n _ => tagOwe n tl seq s
  | _ => s

/-- Encrypt, tag and issue one line (R66 from the keystream on); the tag cache finds the damage `f` as the entry is written
(R86). -/
def writeIssue (w : WriteReq) (ks : List Block) (f : Faults) (s : State) : State :=
  let cls := slotClass s w.kidx
  let ct := lineXor w.pt ks
  let sc := scPack w.lctr (w.gen.setWidth 4) (BitVec.ofNat 15 w.kidx) (BitVec.ofNat 2 cls) w.psn (lineSchk w.pt w.addr ks)
  let s :=
    if cls = 3 then
      match tagPlace s w.kidx w.addr with
      | some (tl, e) =>
        let mac := mac56 w.h ct sc (BitVec.ofNat 40 w.addr) (ks.getD 4 0#128)
        let s := ownerOwes w.owner tl s.mseq (tagWrite w.kidx tl e s.mseq (mac ++ w.lctr.setWidth 8) (tagSecded f tl s))
        if s.pwr.phase = .draining then wbFetches s else s
      | none => s
    else s
  let s := issueW w.port { kind := .write, addr := w.addr, data := mediaJoin ct sc, owner := w.owner, kidx := w.kidx,
                           gen := w.gen, lctr := w.lctr, counted := true } s
  ownerIssued w.owner w.gen w.lctr (stepWritten w.owner (tagUnreserve w.owner (aheadIssued w.kidx w.addr w.gen s)))

/-- The owner of a held write waits for the vote. -/
def ownerHeld (o : MOwner) (s : State) : State :=
  match o with
  | .txn id =>
    match txnFind s id with
    | some t => txnPut { t with st := .voteHold } s
    | none => s
  | _ => s

/-- Run a write through the slice: issued, or held for a vote (R66, R296). -/
def writeSlice (w : WriteReq) (k : GenKeys) (f : Faults) (s : State) : State :=
  let cls := slotClass s w.kidx
  let sl := ownerSlice s w.owner w.port
  let good := lineBlocks cls w.kidx k w.gen w.addr w.lctr
  match sliceBlocks s sl cls .w f good with
  | (ks, none) => writeIssue w ks f s
  | (ks, some mis) =>
    let x := sliceOf s sl
    let h : Hold := { slice := sl, kind := .vote, dir := .w, owner := w.owner, port := w.port, kidx := w.kidx,
                      addr := w.addr, gen := w.gen, lctr := w.lctr, line := w.pt.setWidth 576, h := w.h, poison := w.psn,
                      good := good, ks := ks, duties := x.duty, checker := x.checker, ten := p10Free x }
    let s := match tagPlace s w.kidx w.addr with
      | some (tl, _) => if cls = 3 then tagReserve w.owner tl (tagUnreserve w.owner s) else s
      | none => s
    ownerHeld w.owner (voteHold h mis s)

/-- A granted transaction ends with a status and no data, and the cells that it still holds are free (Tables 08.7, 09.4). -/
def txnFinish (t : Txn) (status : Nat) (s : State) : State :=
  completeBare t.item status t.cells (tagUnreserve (.txn t.id) (txnDel t.id s))

/-- A plain write with its entry in hand: key presence, the counter, the slice (R66, R180 stage 7). -/
def writeGo (t : Txn) (e : BitVec 64) (f : Faults) (s : State) : State :=
  let kidx := t.item.slot
  let a := t.item.h.addr.toNat
  let g := genForWrite s kidx a (some e)
  match genKeys s kidx g with
  | none => txnFinish t stKeyAbsent s
  | some k =>
    match nextLctr kidx a g e s with
    | (none, s) => txnFinish t stCounterSpent (spentNote kidx a s)
    | (some c, s) =>
      writeSlice { owner := .txn t.id, kidx := kidx, addr := a, port := t.port, pt := t.payload, psn := t.poison,
                   gen := g, lctr := c, h := k.tag } k f s

/-- The entry of a line whose sidecar has just been read: a fill, and the entry as it stands after it (R105). -/
def entryFromSide (kidx a : Nat) (sc : Side) (s : State) : BitVec 64 × State :=
  let s := jackFill kidx a sc s
  match jackEntry s a with
  | some (_, e) => (e, s)
  | none => (fillEntry s kidx a sc, s)

/-- The entry with which a write resolves whose sidecar has been read with its line: that of the lookup on a hit, else of
the fill (R104, R105). -/
def entryResolve (kidx a : Nat) (sc : Side) (pe : Bool) (s : State) : BitVec 64 × State :=
  match jackLookup kidx a pe s with
  | (some e, s) => (e, count1 0x6050 3 0 s)
  | (none, s) => entryFromSide kidx a sc (count1 0x6050 4 0 s)

/-- The counter resolution of a full-line write: a lookup, and on a miss a probe with its look-ahead (R104, R106,
R107). -/
def writeResolve (t : Txn) (f : Faults) (s : State) : State :=
  let kidx := t.item.slot
  let a := t.item.h.addr.toNat
  match jackLookup kidx a f.jackPe s with
  | (some e, s) => writeGo t e f (count1 0x6050 3 0 s)
  | (none, s) =>
    let s := txnPut { t with st := .probeWait } (count1 0x6050 4 0 s)
    let s := lookAhead kidx a (probeAdd kidx a t.id s)
    if slotClass s kidx = 3 then
      match tagPlace s kidx a with
      | some (tl, _) => tagReserve (.txn t.id) tl s
      | none => s
    else s

end Sys2Proof.Machine
end

