-- ==== Sys2Proof/Machine/ReadPath.lean ====
section
/-! DEFINITION. The read path: the checks of a line that has arrived, for reads, merges and pass steps (R68 to R70,
R88 to R93, R151, R159, R160, R177), and what each outcome does. -/

namespace Sys2Proof.Machine

/-- What rows 2 to 5 of Table 03.7 say of a line: a deciding row, or the live generation that KGEN4 names. -/
inductive EarlyRow where
  | virgin
  | foreign
  | badSide
  | noGen
  | gen (g : BitVec 32)
deriving DecidableEq, Repr

/-- Rows 2 to 5 of Table 03.7. -/
def earlyRow (s : State) (kidx : Nat) (sc : Side) : EarlyRow :=
  if scPcls sc = 0 then .virgin
  else if scKidx sc ≠ kidx then .foreign
  else if scPcls sc ≠ slotClass s kidx ∨ scResv sc ≠ 0#2 ∨ scLctr sc = 0#24 then .badSide
  else
    match genByKgen4 (slotOf s kidx) (scKgen4 sc) with
    | none => .noGen
    | some g => .gen g

/-- Payload of an arrived line. -/
def lnPay (line : BitVec 576) : Line := (mediaSplit line).1
/-- Sidecar of an arrived line. -/
def lnSide (line : BitVec 576) : Side := (mediaSplit line).2

-- Reads

/-- Answer a read. -/
def readReply (t : Txn) (status : Nat) (data : Option Line) (psn : Bool) (extra : Side) (s : State) : State :=
  complete t.item status data psn extra 1 (txnDel t.id s)

-- Merges

/-- Merge the old line and the item under its mask (R177). -/
def mergeLine (mask : BitVec 64) (new old : Line) : Line :=
  lineOfBytes ((List.range 64).map (fun k => if mask.getLsbD k then new.extractLsb' (8 * k) 8 else old.extractLsb' (8 * k) 8))

/-- A partial write is refused at its read half: line, sidecar, tag entry and Jack stay (R93). -/
def partialRefuse (t : Txn) (status : Nat) (s : State) : State :=
  txnFinish t status (count1 0x6080 2 0 s)

/-- The merge: the write half becomes due, and the item's cells but the header's are free (R177, R192). -/
def partialMerge (t : Txn) (old : Line) (oldPsn : Bool) (line : BitVec 576) (s : State) : State :=
  txnConsume { t with st := .merged, line := line, payload := mergeLine t.mask t.payload old,
                      poison := t.poison || oldPsn } s

-- Steps (Table 07.3)

/-- Count an outcome of a step in CX_SKIPPED (11h) or CX_LINE_FAULTS (12h). -/
def stepCount (n sub : Nat) (s : State) : State := count1 (0x3A00 + 8 * n) sub 0 s

/-- EV_REKEY_LINE_FAULT; CX_LINE_FAULTS counts the steps that rows 1, 4 and 6 decide (R163). -/
def lineFault (n a status row : Nat) (s : State) : State :=
  raise .rekeyLineFault (srcCtx n) (ctxOf s n).kidx (a % 2 ^ 32) (a / 2 ^ 32 + 256 * status + 65536 * row)
    (if row = 7 then s else stepCount n 0x12 s)

/-- A step that writes nothing ends (R146, R150). -/
def stepSkip (n a : Nat) (s : State) : State := rkPoll (stepEnd n a (stepCount n 0x11 s))

/-- A step that writes nothing and reports its line (Table 07.3 rows 1 and 4). -/
def stepFail (n a status row : Nat) (s : State) : State := rkPoll (stepEnd n a (lineFault n a status row s))

/-- Taken lines of the port that have not been written, and ahead-set entries of its lines that no write holds back, end
by row 1 of Table 07.3 (Table 12.3, R150). -/
def stepsLost (m : Nat) (s : State) : State :=
  (List.range 64).foldl (fun s n =>
    let l := ((ctxOf s n).steps.filter (fun x => x.port == m && x.st != .written)).map (fun x => x.addr)
    let s := l.foldl (fun s a => stepFail n a stMediaError 1 s) s
    let l := ((ctxOf s n).ahead.filter (fun e => portOf s e.addr == m && decide (lineFlights s e.addr = []))).map
      (fun e => e.addr)
    l.foldl (fun s a => stepFail n a stMediaError 1 s) s) s

/-- A step that writes: it waits for its RK write slot. -/
def stepWrite (n a : Nat) (pt : Line) (psn : Bool) (sc : Side) (s : State) : State :=
  stepMod n a (fun x => { x with st := .decided, data := pt, poison := psn, side := sc }) s

-- Delivery

/-- Rows 6 to 9 of Table 03.7 with the decrypted payload, for a read, a merge or a step. -/
def deliver (o : MOwner) (row status : Nat) (pt : Line) (line : BitVec 576) (s : State) : State :=
  match o with
  | .txn id =>
    match txnFind s id with
    | none => s
    | some t =>
      match t.item.op with
      | .writePartial =>
        if 8 ≤ row then partialMerge t pt (decide (row = 8)) line s else partialRefuse t status s
      | _ => readReply t status (some pt) (decide (row ≠ 9)) 0 s
  | .step n a =>
    if 8 ≤ row then stepWrite n a pt (scPoison (lnSide line)) (lnSide line) s
    else stepWrite n a pt true (lnSide line) (lineFault n a status 6 s)
  | _ => s

/-- An outcome without data: rows 3 to 5 of Table 03.7, step 8, a media report. For a step `row` is its row of
Table 07.3. -/
def deliverNone (o : MOwner) (row status : Nat) (s : State) : State :=
  match o with
  | .txn id =>
    match txnFind s id with
    | none => s
    | some t =>
      match t.item.op with
      | .writePartial => partialRefuse t status s
      | _ => readReply t status none false 0 s
  | .step n a => if row = 3 then stepSkip n a s else stepFail n a status row s
  | _ => s

/-- EV_TAG_FAIL or EV_TORN_TAG, with SF_TAG_FAILS; the totals count reads and partial writes only, not steps (R88,
Table 04.5, Table 04.6). -/
def tagFailNote (kidx a sl : Nat) (torn total : Bool) (cecho : Nat) (s : State) : State :=
  let s := count1 0x6000 5 0 s
  let s := if total then count1 0x6040 (if torn then 6 else 5) 0 s else s
  raise (if torn then .tornTag else .tagFail) (srcSlice sl 1) kidx (a % 2 ^ 32) (a / 2 ^ 32 + 256 * cecho) s

/-- A line of PCLS 00 has been read through a slice (VIRGIN_READS, R71). -/
def virginNote (sl : Nat) (sc : Side) (s : State) : State :=
  if scPcls sc = 0 then count1 (0x3900 + 8 * sl) 0x13 0 s else s

/-- A virgin line (R53): zeros, in CI poisoned with TAG_FAIL. A rekey step leaves it. -/
def deliverVirgin (o : MOwner) (kidx a m : Nat) (line : BitVec 576) (s : State) : State :=
  let s := virginNote (ownerSlice s o m) (lnSide line) s
  match o with
  | .step n a => stepSkip n a s
  | .txn id =>
    match txnFind s id with
    | none => s
    | some t =>
      if slotClass s kidx = 3 then
        let s := tagFailNote kidx a (ownerSlice s o m) false true 0 s
        match t.item.op with
        | .writePartial => partialRefuse t stTagFail s
        | _ => readReply t stTagFail (some 0) true 0 s
      else
        match t.item.op with
        | .writePartial => partialMerge t 0 false line s
        | _ => readReply t stOk (some 0) false 0 s
  | _ => s

/-- The SCHK check and rows 8 and 9: true when SCHK matches under the blocks. -/
def schkOk (a : Nat) (line : BitVec 576) (ks : List Block) : Bool :=
  decide (lineSchk (lineXor (lnPay line) ks) a ks = scSchk (lnSide line))

/-- Rows 8 and 9. -/
def deliverGood (o : MOwner) (line : BitVec 576) (ks : List Block) (s : State) : State :=
  let pt := lineXor (lnPay line) ks
  if scPoison (lnSide line) then deliver o 8 stOkPoison pt line s else deliver o 9 stOk pt line s

/-- Mark a transaction as held. -/
def ownerSt (o : MOwner) (st : TxSt) (s : State) : State :=
  match o with
  | .txn id =>
    match txnFind s id with
    | some t => txnPut { t with st := st } s
    | none => s
  | _ => s

/-- The tag entry that a transaction's lookup or fetch gave it. -/
def ownerEntry (s : State) (o : MOwner) : Option (BitVec 64) :=
  match o with
  | .txn id => (txnFind s id).bind (fun t => t.tagEnt)
  | _ => none

/-- The tag entry that a held line is checked with: its own lookup's, the cached one, or that of the tag line `d` just
fetched when no way could take it (R82). -/
def holdEntry (s : State) (h : Hold) (d : Line) : BitVec 64 :=
  match ownerEntry s h.owner with
  | some v => v
  | none =>
    match tagPlace s h.kidx h.addr with
    | some (tl, e) => (tagCached s tl e).getD (tagEntryOf d e)
    | none => 0#64

/-- Rows 6 to 9 for a line whose blocks and, in CI, whose tag entry are at hand (R68, R69, R88). -/
def readVerify (h : Hold) (d : Line) (s : State) : State :=
  let sc := lnSide h.line
  let cls := slotClass s h.kidx
  let entry : Option (BitVec 64) := if cls = 3 then some (holdEntry s h d) else none
  let bad : Option (BitVec 64) := match entry with
    | some e =>
      let mac := mac56 h.h (lnPay h.line) sc (BitVec.ofNat 40 h.addr) (h.ks.getD 4 0#128)
      if e.extractLsb' 8 56 = mac then none else some e
    | none => none
  match bad with
  | some e =>
    let cecho := e.extractLsb' 0 8
    let torn := decide (cecho = (scLctr sc - 1#24).setWidth 8)
    let st := if torn then stTornTag else stTagFail
    let total := match h.owner with
      | .txn _ => true
      | _ => false
    let s := tagFailNote h.kidx h.addr h.slice torn total cecho.toNat s
    let s := if torn then s else tagFailCount h.kidx s
    deliver h.owner 6 st (lineXor (lnPay h.line) h.ks) h.line s
  | none =>
    if schkOk h.addr h.line h.ks then deliverGood h.owner h.line h.ks s
    else ownerSt h.owner .schkHold { s with rep := { s.rep with holds := s.rep.holds ++ [{ h with kind := .schk }] } }

/-- A tag-line fetch failed: lines that have reached row 6 end with MEDIA_ERROR; a step writes its payload poisoned
(R90). -/
def tagFetchLost (h : Hold) (s : State) : State :=
  match h.owner with
  | .step n a =>
    stepWrite n a (lineXor (lnPay h.line) h.ks) true (lnSide h.line) (lineFault n a stMediaError 6 s)
  | o => deliverNone o 1 stMediaError s

/-- A CI line waits for its tag entry where it is not valid in the cache (R82, R89). -/
def readTagged (h : Hold) (s : State) : State :=
  if slotClass s h.kidx = 3 then
    match tagPlace s h.kidx h.addr with
    | none => readVerify h 0 s
    | some (tl, e) =>
      if (ownerEntry s h.owner).isSome ∨ (tagCached s tl e).isSome then readVerify h 0 s
      else if s.tagc.lostFor.contains h.owner then tagFetchLost h s
      else if portDead s (portOf s tl) then tagFetchLost h (taglineMedia tl 0 s)
      else
        let s := ownerSt h.owner .tagWait { s with rep := { s.rep with holds := s.rep.holds ++ [{ h with kind := .tag }] } }
        if s.tagc.fetches.any (fun f => f.tl == tl && f.owners.contains h.owner) then s
        else fetchAsk tl h.kidx [h.owner] false s
  else readVerify h 0 s

/-- Decryption of a line under a live generation with its material present; a checker mismatch holds it for a vote
(R296). -/
def readDecrypt (o : MOwner) (kidx a m : Nat) (g : BitVec 32) (k : GenKeys) (line : BitVec 576) (f : Faults)
    (s : State) : State :=
  let cls := slotClass s kidx
  let sl := ownerSlice s o m
  let x := sliceOf s sl
  let good := lineBlocks cls kidx k g a (scLctr (lnSide line))
  let mask := if cls = 1 then 4096 else blockPipes x .r s.clk.cycle
  match sliceBlocks s sl cls .r f good with
  | (ks, mis) =>
    let h : Hold := { slice := sl, kind := .vote, dir := .r, owner := o, port := m, kidx := kidx, addr := a, gen := g,
                      lctr := scLctr (lnSide line), line := line, h := k.tag, good := good, ks := ks,
                      duties := x.duty, checker := x.checker, ten := p10Free x, mask := mask }
    match mis with
    | none => readTagged h s
    | some mis => ownerSt o .voteHold (voteHold h mis s)

/-- The prediction of a read is tested after rows 2 to 5 (R19, R105, R108): MISPREDICTS, the entry's correction or the
fill. -/
def readJack (t : Txn) (line : BitVec 576) (row : EarlyRow) (s : State) : State :=
  let sc := lnSide line
  let kidx := t.item.slot
  let s := match row, t.pred with
    | .gen g, some p => if p = (scLctr sc, g) then s else count1 0x6050 5 0 s
    | _, _ => s
  jackFill kidx t.item.h.addr.toNat sc s

/-- A purge step decides by the line as read (R160). -/
def purgeDecide (n kidx a : Nat) (line : BitVec 576) (s : State) : State :=
  let sc := lnSide line
  if scPcls sc = 0 ∨ scKidx sc ≠ kidx then stepSkip n a s else stepWrite n a 0 false sc s

/-- A format step: every line is written with zeros, but for lines of the uncertain band that the pass, or host software
after it, has written already (R94, R159). -/
def formatDecide (n kidx a : Nat) (line : BitVec 576) (s : State) : State :=
  let sc := lnSide line
  let c := ctxOf s n
  let x := slotOf s kidx
  if inBand s c a ∧ scPcls sc = slotClass s kidx ∧ scKidx sc = kidx ∧ genByKgen4 x (scKgen4 sc) = some x.gen then
    stepSkip n a s
  else stepWrite n a 0 false sc s

/-- A zeroization came while the read's data was awaited: KEY_ABSENT without data, whatever the line holds and whatever
else befell it (Table 06.14, R382). -/
def ownerKeyless (s : State) (o : MOwner) : Bool :=
  match o with
  | .txn id => (txnFind s id).any (fun t => t.keyless)
  | _ => false

/-- A line has arrived without a media report: the checks of Table 03.7 in row order, with step 8 after row 5, for a
plain read, a merge or a rekey step (R68, R135, R151). -/
def lineChecks (o : MOwner) (kidx a m : Nat) (line : BitVec 576) (f : Faults) (s : State) : State :=
  let row := earlyRow s kidx (lnSide line)
  let reject := fun (s : State) => count1 (0x3900 + 8 * ownerSlice s o m) 0x12 0 s
  match row with
  | .virgin => deliverVirgin o kidx a m line s
  | .foreign => deliverNone o 3 stKeyMismatch s
  | .badSide => deliverNone o 4 stSidecarFault (reject s)
  | .noGen => deliverNone o 4 stSidecarFault (reject s)
  | .gen g =>
    let moved := match o with
      | .step n _ => decide (g = ctxTo (ctxOf s n))
      | _ => false
    if moved then deliverNone o 3 0 s
    else
      match genKeys s kidx g with
      | none =>
        match o with
        | .step n a => stepMod n a (fun x => { x with st := .taken }) s
        | _ => deliverNone o 0 stKeyAbsent s
      | some k => readDecrypt o kidx a m g k line f s

/-- A READ_LINE response that carries a line, by its owner (Table 12.2, R171). The line of a partial write or a step is
compared with its Jack entry as it arrives (R108); a fill waits for the resolution (R105). -/
def lineTake (o : MOwner) (m : Nat) (line : BitVec 576) (f : Faults) (s : State) : State :=
  match o with
  | .txn id =>
    match txnFind s id with
    | none => s
    | some t =>
      let a := t.item.h.addr.toNat
      match t.item.op with
      | .readRaw => readReply t stOk (some (lnPay line)) false (lnSide line) s
      | .readLine =>
        let row := earlyRow s t.item.slot (lnSide line)
        lineChecks o t.item.slot a m line f (readJack t line row s)
      | _ => lineChecks o t.item.slot a m line f (jackCompare t.item.slot a (lnSide line) s)
  | .step n a =>
    let c := ctxOf s n
    if (stepFind s n a).all (fun x => x.st != .reading) then s
    else
      let s := jackCompare c.kidx a (lnSide line) s
      match c.cause with
      | 3 => formatDecide n c.kidx a line (virginNote (ownerSlice s o m) (lnSide line) s)
      | 4 => purgeDecide n c.kidx a line (virginNote (ownerSlice s o m) (lnSide line) s)
      | _ => lineChecks o c.kidx a m line f s
  | _ => s

/-- An owner's mark of a failed fetch is forgotten once nothing of it is held (R90). -/
def lostForget (o : MOwner) (s : State) : State :=
  if s.rep.holds.any (fun h => h.owner == o) then s
  else { s with tagc := { s.tagc with lostFor := s.tagc.lostFor.filter (fun x => x != o) } }

/-- A READ_LINE response that carries a line. -/
def lineArrived (o : MOwner) (m : Nat) (line : BitVec 576) (f : Faults) (s : State) : State :=
  lostForget o (if ownerKeyless s o then deliverNone o 1 stKeyAbsent s else lineTake o m line f s)

/-- A read that the medium cannot deliver (Table 12.2, R179). A step whose line is no longer taken needs none. -/
def lineLost (o : MOwner) (s : State) : State :=
  match o with
  | .step n a =>
    lostForget o (if (stepFind s n a).all (fun x => x.st != .reading) then s else deliverNone o 1 stMediaError s)
  | o => lostForget o (deliverNone o 1 (if ownerKeyless s o then stKeyAbsent else stMediaError) s)

/-- Remove a hold. -/
def holdDel (h : Hold) (s : State) : State :=
  { s with rep := { s.rep with holds := s.rep.holds.filter (fun x => x != h) } }

-- SCHK_RECOMPUTE (R69)

/-- EV_SCHK_FAULT and LAST_SCHK_PIPES (R71, R72); priority checks where it names pipes (R295). -/
def schkFault (h : Hold) (persistent : Bool) (s : State) : State :=
  let i := h.slice
  let s := count1 (0x3900 + 8 * i) (if persistent then 0x11 else 0x10) 0 (regPut (0x3900 + 8 * i) 0x14 0 h.mask s)
  let s := count1 0x6000 6 0 s
  let p := if persistent then 1 else 0
  let s := raiseSev .schkFault (if persistent then sevError else sevNotice) (srcSlice i 0) p (h.addr % 2 ^ 32)
    (h.addr / 2 ^ 32 + 65536 * h.mask) s
  if h.mask = 4096 then s else prioDirection i .r s

/-- The blocks of a recompute: all on P10, or on the checker where P10 serves (R69). DESIGN CHOICE: where neither case of
R69 holds (P10 retired or itself the checker, another pipe or none the checker) the checker's number stands, and a slice
without a checker computes without error (log 72). -/
def recomputed (h : Hold) (f : Faults) : List Block :=
  let p := if h.ten then 10 else h.checker
  if h.mask = 4096 then List.zipWith (fun a b => a ^^^ b) h.good (mixBlocks f.mixer)
  else h.good.map (fun b => b ^^^ pipeErr f p)

/-- SCHK_RECOMPUTE on slice sl: the oldest line held for it passes the check again (R69). -/
def doSchkRecompute (sl : Nat) (f : Faults) (s : State) : State :=
  match s.rep.holds.find? (fun h => h.slice == sl && h.kind == .schk) with
  | none => s
  | some h =>
    let ks := recomputed h f
    let s := holdDel h s
    if schkOk h.addr h.line ks then deliverGood h.owner h.line ks (schkFault h false s)
    else deliver h.owner 7 stSidecarFault (lineXor (lnPay h.line) ks) h.line (schkFault h true s)

-- VOTE (R296 to R298)

/-- Issue a purge step's write: a payload under an all-zero sidecar, with the counter whose pad it is, if any (R160). -/
def purgePut (m n a : Nat) (pay : Line) (c : Option (BitVec 32 × BitVec 24)) (s : State) : State :=
  let x := c.getD (0#32, 0#24)
  let s := issueW m { kind := .write, addr := a, data := mediaJoin pay 0, owner := .step n a, kidx := (ctxOf s n).kidx,
                      gen := x.1, lctr := x.2, counted := c.isSome } s
  stepMod n a (fun y => { y with st := .written }) (stepWritten (.step n a) s)

/-- An owner is the step of a purge pass. -/
def ownerPurges (s : State) (o : MOwner) : Bool :=
  match o with
  | .step n _ => decide ((ctxOf s n).cause = 4)
  | _ => false

/-- The line of a decided vote continues with the blocks `ks`. DESIGN CHOICE: an SCHK check that follows names the duty
pipes that computed the line before the vote, also where the vote took the checker's block (log 71). -/
def voteContinue (h : Hold) (ks : List Block) (f : Faults) (s : State) : State :=
  match h.dir with
  | .w =>
    match h.owner, ownerPurges s h.owner with
    | .step n a, true => purgePut h.port n a (ksLine ks) (some (h.gen, h.lctr)) s
    | _, _ =>
      writeIssue { owner := h.owner, kidx := h.kidx, addr := h.addr, port := h.port, pt := h.line.setWidth 512,
                   psn := h.poison, gen := h.gen, lctr := h.lctr, h := h.h } ks f s
  | .r => readTagged { h with ks := ks } s

/-- An abandoned line (R297): SIDECAR_FAULT without data, nothing written, and the slice is lost at the next strobe. -/
def voteAbandon (h : Hold) (s : State) : State :=
  let s := count1 (0x3900 + 8 * h.slice) 8 0 s
  let s := slicePut h.slice { sliceOf s h.slice with doomed := true } s
  match h.owner with
  | .txn id =>
    match txnFind s id with
    | none => s
    | some t =>
      match h.dir with
      | .w => txnFinish t stSidecarFault s
      | .r => deliverNone h.owner 4 stSidecarFault s
  | .step n a => stepFail n a stSidecarFault (match h.dir with
      | .w => 7
      | .r => 4) s
  | _ => s

/-- The lines held for the same duty behind a decided vote continue without one: with the checker's blocks where the vote
charged the duty's pipe, else with the pipe's (R298). -/
def voteRelease (h : Hold) (chk : Bool) (s : State) : State :=
  let l := s.rep.holds.filter (fun y =>
    y.slice == h.slice && y.kind == .vote && y.dir == h.dir && y.duty == h.duty && !y.again && y != h)
  l.foldl (fun s y => voteContinue y (if chk then y.chk else y.ks) {} (holdDel y s)) s

/-- One vote on the oldest held line of slice sl and a direction (Table 14.5), on the pipes that took recomputes as the line
was held (R300). -/
def doVote (sl : Nat) (dir : Dir) (f : Faults) (s : State) : State :=
  match s.rep.holds.find? (fun h => h.slice == sl && h.kind == .vote && h.dir == dir) with
  | none => s
  | some h =>
    let on := fun (p : Nat) => blocksOn f p h.blks h.good h.ks
    let v := on (if h.ten then 10 else h.checker)
    let charge := voteCharge sl h.duty (dutyIn h.duties h.duty) h.checker
    if h.again then
      let s := holdDel h s
      if v = on h.checker then voteContinue h v f s else voteAbandon h s
    else if v = h.ks then voteRelease h false (voteContinue h h.ks f (charge 1 (holdDel h s)))
    else if v = h.chk then voteRelease h true (voteContinue h h.chk f (charge 0 (holdDel h s)))
    else
      let g := { h with again := true }
      let s := charge 2 s
      voteRelease g true { s with rep := { s.rep with holds := s.rep.holds.map (fun y => if y = h then g else y) } }

/-- The pipes that a self-test vector tests in a slice: the shadowed duty's while the checker shadows it, a free P10, or
every pipe of an unbound S16 (R295, R298, R299, R304). -/
def testPipes (x : Slice) : List Nat :=
  if x.st = 1 then goodPipes x
  else
    (if x.checker = 255 ∨ x.noShadow = true ∨ x.standIn ≠ none then [] else [dutyPipe x x.shadow]) ++
      (if p10Free x then [10] else [])

/-- The checker stands in for the shadowed duty once its pipe is retiring (R298, R300). -/
def standFor (sl : Nat) (s : State) : State :=
  let x := sliceOf s sl
  if x.st ≠ 1 ∧ (pipeOf x (dutyPipe x x.shadow)).st = 1 then slicePut sl { x with standIn := some x.shadow } s else s

/-- A self-test vector of the checker's frame differs from its value on a pipe: charged without a vote (R296, R299).
Where no line is held, VOTE stands for that comparison (log 23). -/
def selfTest (sl : Nat) (f : Faults) (s : State) : State :=
  let seen := testPipes (sliceOf s sl)
  standFor sl ((f.pipes.map (fun e => e.1)).foldl (fun s p =>
    if seen.contains p ∧ pipeErr f p ≠ 0#128 then pipeCharge sl p s else s) s)

end Sys2Proof.Machine
end

