-- ==== Sys2Proof/Machine/Slots.lean ====
section
/-! DEFINITION. Slots: the arbitration of a slot (R34 to R40), which items are ready (R173 to R179, R194, R195), what a
grant checks (R181, R198 to R200), and the grant commands. -/

namespace Sys2Proof.Machine

-- Slot maps (R35, R40)

/-- The slot classes (Table 02.1), numbered as the slot counts are. -/
inductive Cls where
  | fg
  | tg
  | sp
  | rk
  | mx
deriving DecidableEq, Repr

/-- The number of a class. -/
def clsNo (c : Cls) : Nat :=
  match c with
  | .fg => 0
  | .tg => 1
  | .sp => 2
  | .rk => 3
  | .mx => 4

/-- The key of a direction's slot count. -/
def slotKey (d : Dir) (n : Nat) : Nat :=
  (match d with
   | .w => 0
   | .r => 8) + n

/-- The index of the slot map in force on port m. -/
def mapIdx (s : State) (m : Nat) : Nat := if cfgVal s (0x2110 + m) 0x20 0 = 1 then 0x2110 + m else 0x2101

/-- Minimum and maximum of a non-FG class in a slot map (Table 02.7). -/
def mapLimits (s : State) (idx : Nat) (d : Dir) (c : Cls) : Nat × Nat :=
  let at' := fun sub => cfgVal s idx sub 0
  match d, c with
  | .w, .tg => (at' 2, at' 3)
  | .w, .rk => (at' 4, at' 5)
  | .w, .mx => (at' 6, at' 7)
  | .r, .tg => (at' 0x12, at' 0x13)
  | .r, .sp => (at' 0x14, at' 0x15)
  | .r, .rk => (at' 0x16, at' 0x17)
  | .r, .mx => (at' 0x18, at' 0x19)
  | _, _ => (0, 0)

/-- The limits in force on a port: scaled on a degraded one and rounded down, the MX minimum at least 1 (R35, R40). -/
def clsLimits (s : State) (m : Nat) (d : Dir) (c : Cls) : Nat × Nat :=
  let l := mapLimits s (mapIdx s m) d c
  if (mediaOf s m).degraded then
    let floor := fun v => v * 4 / 5
    match c with
    | .mx => (max 1 (floor l.1), floor l.2)
    | _ => (floor l.1, floor l.2)
  else l

/-- The FG minimum of a direction. DESIGN CHOICE: row 3 of Table 02.2 uses it unscaled on a degraded port too, since R40
scales non-FG limits only and R42 speaks of the FG minimum after scaling (log 63). -/
def fgMin (s : State) (m : Nat) (d : Dir) : Nat :=
  match d with
  | .w => cfgVal s (mapIdx s m) 1 0
  | .r => cfgVal s (mapIdx s m) 0x11 0

/-- Slots granted to a class in this frame. -/
def granted (s : State) (m : Nat) (d : Dir) (c : Cls) : Nat := tabGet 0 (mediaOf s m).slots (slotKey d (clsNo c))

/-- The owed count of a class at the current cycle (R36). -/
def owed (s : State) (m : Nat) (d : Dir) (c : Cls) : Nat := (s.clk.cycle + 1) * (clsLimits s m d c).1 / 1024

-- Readiness of ingress items

/-- A partial write that is performed as a full-line write or writes nothing (R178). -/
def partialPlain (i : Item) : Bool :=
  decide (i.op = .writePartial) && (decide (i.ext = BitVec.allOnes 64) || decide (i.ext = 0#64))

/-- The direction and class whose slot an item's first grant takes (Table 08.4). -/
def itemLane (i : Item) : Dir × Cls :=
  match i.op with
  | .readLine => (.r, .fg)
  | .readRaw => (.r, .fg)
  | .writeLine => (.w, .fg)
  | .writeRaw => (.w, .fg)
  | .writePartial => if partialPlain i then (.w, .fg) else (.r, .fg)
  | .readTag => (.r, .tg)
  | .writeTag => (.w, .tg)

/-- The line of an item. -/
def itemLine (i : Item) : Nat := i.h.addr.toNat

/-- Same stream, or same master (R173, R184). -/
def sameStream (i j : Item) : Bool :=
  srcEq i.src j.src && (match i.src with
    | .link _ => i.h.sid == j.h.sid
    | .master _ => true)

/-- Cells enough have landed: cut-through for a WRITE_LINE, the whole item otherwise (R177, R195). -/
def itemLanded (s : State) (i : Item) : Bool :=
  match i.op with
  | .writeLine => decide (min 20 (cfgVal s 0x2080 2 0) ≤ 4 * landed s i)
  | op => decide (opCells op ≤ landed s i)

/-- A FENCE of the item's stream that has not completed came before it (R176). -/
def itemFenced (s : State) (i : Item) : Bool :=
  s.pool.fences.any (fun f => decide (f.arr < i.arr) && srcEq f.src i.src && (match i.src with
    | .link _ => f.sid == i.h.sid
    | .master _ => true))

/-- An older item of the stream to the same line is not granted, a partial write's write half counting (R173). -/
def itemBehind (s : State) (i : Item) : Bool :=
  s.pool.items.any (fun j => decide (j.arr < i.arr) && sameStream i j && itemLine j == itemLine i) ||
    s.pool.txns.any (fun t => decide (t.item.arr < i.arr) && sameStream i t.item && itemLine t.item == itemLine i &&
      t.item.op == .writePartial && (t.st == .reading || t.st == .tagWait || t.st == .schkHold || t.st == .merged ||
        (t.st == .voteHold && !writeHeld s (.txn t.id))))

/-- A transaction is a partial write whose WRITE_LINE has not issued. -/
def inMerger (t : Txn) : Bool := decide (t.item.op = .writePartial) && !partialPlain t.item && decide (t.st ≠ .writing)

/-- A write that is granted and whose WRITE_LINE has not issued. -/
def notIssued (t : Txn) : Bool :=
  decide (t.st = .probeWait) || (decide (t.st = .voteHold) && !opReads t.item.op)

/-- The same-line hazards of Table 08.5. A write whose line is held for a vote waits as well (R296; log 10). -/
def itemHazard (s : State) (i : Item) : Bool :=
  let a := itemLine i
  let fullWrite := decide (i.op = .writeLine) || partialPlain i
  (!opTag i.op && lineTaken s a) ||
    s.pool.txns.any (fun t => itemLine t.item == a && (inMerger t ||
      (notIssued t && (!fullWrite || decide (t.st = .probeWait) || decide (t.st = .voteHold))))) ||
    s.rep.holds.any (fun h => h.addr == a && h.dir == .w)

/-- Egress cells that a link holds: four for each granted read and each RD_DATA (Table 09.4). -/
def egressHeld (s : State) (p : Nat) : Nat :=
  4 * (s.pool.txns.filter (fun t => srcIs t.item.src p && opReads t.item.op)).length +
    4 * ((eqOf s p).filter (fun r => r.data.isSome)).length

/-- A read of a link needs four egress cells (R193). -/
def egressRoom (s : State) (i : Item) : Bool :=
  match i.src with
  | .master _ => true
  | .link p => decide (egressHeld s p.val + 4 ≤ cfgVal s 0x2080 1 0 - 32)

/-- The tag line and entry of a plain item of a CI slot. -/
def itemTag (s : State) (i : Item) : Option (Nat × Nat) :=
  if opRaw i.op ∨ slotClass s i.slot ≠ 3 then none else tagPlace s i.slot (itemLine i)

/-- The entry of a tag line is valid in the cache. -/
def tagValid (s : State) (tl e : Nat) : Bool :=
  match tagFind s tl with
  | some (_, w) => w.valid.getLsbD e
  | none => false

/-- The tag conditions of R83 and R85. -/
def itemTagOk (s : State) (i : Item) : Bool :=
  match itemTag s i with
  | none => true
  | some (tl, e) =>
    match i.op with
    | .readLine => tagValid s tl e || tagRoom s tl
    | _ => decide (i.ext = 0#64 ∧ i.op = .writePartial) || tagReady s tl

/-- An item that writes its whole line: its counter resolves at the grant, by a lookup or a probe (R106, R178). -/
def itemWhole (i : Item) : Bool :=
  decide (i.op = .writeLine) || (decide (i.op = .writePartial) && decide (i.ext = BitVec.allOnes 64))

/-- A full-line write that would miss Jack needs a probe place (R106). -/
def itemProbeOk (s : State) (i : Item) : Bool :=
  !itemWhole i || jackLive s i.slot (itemLine i) || probeRoom s (itemLine i)

/-- Partial writes in the merger of port m (R177). -/
def mergerUsed (s : State) (m : Nat) : Nat := (s.pool.txns.filter (fun t => t.port == m && inMerger t)).length

/-- An item may be granted now: in service (Table 13.1, R275), landed, in order, without hazard, with the places that its
work needs. -/
def itemReady (s : State) (i : Item) : Bool :=
  decide (s.pwr.phase = .service) && (opReads i.op || !s.pwr.holdWrites) && itemLanded s i && !itemFenced s i &&
    !itemBehind s i && !itemHazard s i && (!opReads i.op || egressRoom s i) && itemTagOk s i && itemProbeOk s i &&
    (decide (i.op ≠ .writePartial) || partialPlain i || decide (mergerUsed s (i.q / 8) < 64))

/-- The enqueue frame as bytes 14 and 15 of the header hold it (R189). -/
def enqFrame16 (i : Item) : Nat := enqFrame i % 65536

/-- Older by enqueue frame, compared modulo 2^16, then by arrival (R42, R189). -/
def older (i j : Item) : Bool :=
  let d := (enqFrame16 j + 65536 - enqFrame16 i) % 65536
  decide (0 < d ∧ d < 32768) || (decide (d = 0) && decide (i.arr < j.arr))

/-- A due item (R42). -/
def itemDue (s : State) (i : Item) : Bool := decide (enqFrame i < frameNo s)

/-- The oldest of a list. -/
def oldest : List Item → Option Item
  | [] => none
  | i :: t =>
    match oldest t with
    | none => some i
    | some j => if older j i then some j else some i

/-- The items of port m that are ready for a lane. -/
def readyItems (s : State) (m : Nat) (d : Dir) (c : Cls) : List Item :=
  s.pool.items.filter (fun i => i.q / 8 == m && decide (itemLane i = (d, c)) && itemReady s i)

/-- Write halves of port m that are due (R177): drain work as well (R39). -/
def mergedTxns (s : State) (m : Nat) : List Txn :=
  s.pool.txns.filter (fun t => t.port == m && t.st == .merged && (decide (s.pwr.phase = .draining) || !s.pwr.holdWrites))

/-- What an FG slot is granted to. -/
inductive FgPick where
  | none
  | item (i : Item)
  | merged (t : Txn)
deriving DecidableEq, Repr

/-- The oldest write half. -/
def oldestTxn : List Txn → Option Txn
  | [] => none
  | t :: l =>
    match oldestTxn l with
    | none => some t
    | some u => if older u.item t.item then some u else some t

/-- The first ready item of the highest priority that has one (R194). -/
def byPriority (l : List Item) : Option Item :=
  (List.range 8).findSome? (fun k => l.find? (fun i => i.q % 8 == 7 - k))

/-- The choice of R194 among the ready items of a direction: the oldest due item or write half, else by priority. -/
def fgPick (s : State) (m : Nat) (d : Dir) : FgPick :=
  let l := readyItems s m d .fg
  let due := oldest (l.filter (itemDue s))
  let half := match d with
    | .w => oldestTxn (mergedTxns s m)
    | .r => none
  match due, half with
  | some i, some t => if older t.item i then .merged t else .item i
  | some i, none => .item i
  | none, some t => .merged t
  | none, none =>
    match byPriority l with
    | some i => .item i
    | none => .none

/-- A due FG item is ready (R36 row 2). -/
def fgDue (s : State) (m : Nat) (d : Dir) : Bool :=
  match fgPick s m d with
  | .none => false
  | .item i => itemDue s i
  | .merged _ => true

-- Work of the other classes

/-- The raw tag-line item of a direction that goes first: such items never become due, so by priority (R194). -/
def rawTagPick (s : State) (m : Nat) (d : Dir) : Option Item := byPriority (readyItems s m d .tg)

/-- The oldest fetch of port m that waits for its slot. -/
def fetchPick (s : State) (m : Nat) : Option TagFetch :=
  s.tagc.fetches.find? (fun f => !f.issued && portOf s f.tl == m)

/-- A probe of a kind waits on port m. -/
def probeWaits (s : State) (m : Nat) (want : Probe → Bool) : Bool :=
  (probesOf s m).any (fun p => !p.issued && !p.void && want p)

/-- A probe of a write. -/
def probeIsWrite (p : Probe) : Bool := decide (p.kind = .write)
/-- A look-ahead probe. -/
def probeIsLook (p : Probe) : Bool := decide (p.kind = .look)

/-- The next prefill line lies on port m, and fewer than 96 probes are outstanding there. DESIGN CHOICE: prefill takes no more places than
look-ahead, so that write misses find one (R106, R111; log 73). -/
def prefillDue (s : State) (m : Nat) : Bool :=
  match s.jack.prefill with
  | some (a, _) => portOf s a == m && decide (probesOut s m < 96)
  | none => false

/-- A look-ahead probe waits on port m, and fewer than 96 probes are outstanding there (R107). -/
def lookDue (s : State) (m : Nat) : Bool := probeWaits s m probeIsLook && decide (probesOut s m < 96)

/-- The fill of a step's read that verifies a CI line has a way, or none is needed (R83). -/
def stepFillOk (s : State) (n a : Nat) : Bool :=
  let c := ctxOf s n
  if slotClass s c.kidx = 3 ∧ c.cause ≤ 2 then
    match tagPlace s c.kidx a with
    | some (tl, e) => tagValid s tl e || tagRoom s tl
    | none => true
  else true

/-- A context has an RK read to do on port m: a PENDING ahead entry without a write in flight first, else a taken line,
with fewer than 32 steps open there (R149, R152). -/
def stepPick (s : State) (m n : Nat) : Option (Nat × Bool) :=
  let c := ctxOf s n
  if c.st ≠ .running ∨ s.pwr.phase ≠ .service then none
  else if 32 ≤ (c.steps.filter (fun x => x.port == m && (x.st == .reading || x.st == .decided))).length then none
  else
    match c.ahead.find? (fun e => !e.isDone && portOf s e.addr == m && decide (lineFlights s e.addr = []) &&
        !unresolved s e.addr && !c.steps.any (fun x => x.addr == e.addr) && stepFillOk s n e.addr) with
    | some e => some (e.addr, true)
    | none =>
      match c.steps.find? (fun x => x.port == m && x.st == .taken && stepFillOk s n x.addr) with
      | some x => some (x.addr, false)
      | none => none

/-- The tag conditions of a step that writes a CI line; a purge writes no entry (R83, R160). -/
def stepTagOk (s : State) (n a : Nat) : Bool :=
  let c := ctxOf s n
  if slotClass s c.kidx = 3 ∧ c.cause ≠ 4 then
    match tagPlace s c.kidx a with
    | some (tl, _) => tagReady s tl
    | none => true
  else true

/-- Tag lines that items and decided steps wait for a way of (R83). -/
def tagWants (s : State) : List Nat :=
  let l := s.pool.items.filterMap (fun i =>
    if itemLanded s i ∧ itemTagOk s i = false then (itemTag s i).map (fun p => p.1) else none)
  let c := s.rk.ctxs.flatMap (fun e =>
    if e.2.cause = 4 ∨ slotClass s e.2.kidx ≠ 3 then []
    else (e.2.steps.filter (fun x => x.st == .decided || (x.st == .taken && !stepFillOk s e.1 x.addr))).filterMap (fun x =>
      (tagPlace s e.2.kidx x.addr).map (fun p => p.1)))
  (l ++ c).filter (fun tl => !tagRoom s tl)

/-- Choose a victim for each tag line that waits for a way, and ask for the fetches that write-backs need (R83, R84;
log 39). -/
def tagMakeRoom (s : State) : State := wbFetches ((tagWants s).foldl (fun s tl => wayEvict tl s) s)

/-- A context's decided step on port m. -/
def stepWritePick (s : State) (m n : Nat) : Option StepLine :=
  let c := ctxOf s n
  if s.pwr.phase = .service ∧ s.pwr.holdWrites = false then
    c.steps.find? (fun x => x.port == m && x.st == .decided && stepTagOk s n x.addr &&
      !s.rep.holds.any (fun h => h.addr == x.addr))
  else none

/-- Contexts in round-robin order from the one after the last served (R34). -/
def rrOrder (s : State) (m : Nat) (d : Dir) : List Nat :=
  let last := tabGet 63 s.rk.rr (slotKey d 0 * 16 + m)
  (List.range 64).map (fun i => (last + 1 + i) % 64)

/-- The context whose read step takes the next RK read slot of port m. -/
def rkReadPick (s : State) (m : Nat) : Option (Nat × Nat × Bool) :=
  (rrOrder s m .r).findSome? (fun n => match stepPick s m n with
    | some (a, ah) => some (n, a, ah)
    | none => none)

/-- The context whose decided step takes the next RK write slot of port m. -/
def rkWritePick (s : State) (m : Nat) : Option (Nat × StepLine) :=
  (rrOrder s m .w).findSome? (fun n => match stepWritePick s m n with
    | some x => some (n, x)
    | none => none)

/-- The row repair that port m may do: the first of the queue, where its macro n is on port n mod 16 (R294). -/
def rowPick (s : State) (m : Nat) : Option (Nat × Nat) :=
  if s.pwr.phase = .service ∧ cfgVal s 0x2400 3 0 = 1 then
    match s.rep.queue with
    | [] => none
    | e :: _ => if e.1 % 16 = m then some e else none
  else none

/-- A class has work in a direction of port m. Look-ahead and prefill probes are work of SP only beyond its owed count
(R107, R111). -/
def clsWork (s : State) (m : Nat) (d : Dir) (c : Cls) : Bool :=
  match d, c with
  | .w, .tg => (wbPick s m).isSome || (rawTagPick s m .w).isSome
  | .r, .tg => (fetchPick s m).isSome || (rawTagPick s m .r).isSome
  | .r, .sp => probeWaits s m probeIsWrite ||
      ((lookDue s m || prefillDue s m) && decide (owed s m .r .sp ≤ granted s m .r .sp))
  | .w, .rk => (rkWritePick s m).isSome
  | .r, .rk => (rkReadPick s m).isSome
  | .w, .mx => (rowPick s m).isSome
  | _, _ => false

-- Arbitration (R36 to R40)

/-- A vote, a recompute or a service flush claims the direction's next slot (R38, R260). -/
def slotClaimed (s : State) (m : Nat) (d : Dir) : Bool :=
  s.rep.holds.any (fun h => h.port == m && h.dir == d && h.kind != .tag) ||
    (match d with
     | .w => (mediaOf s m).flushReq && !dirBusy s m .w && decide (s.pwr.phase = .service)
     | .r => false)

/-- The cycle is idle on a degraded port (R40). -/
def slotVoid (s : State) (m : Nat) : Bool := (mediaOf s m).degraded && decide (s.clk.cycle % 5 = 4)

/-- The cycle and line of a direction's last grant. -/
def stampOf (s : State) (m : Nat) (d : Dir) : Option (Nat × Nat) :=
  match d with
  | .w => (mediaOf s m).stampW
  | .r => (mediaOf s m).stampR

/-- The direction's slot of this cycle has been granted. -/
def slotTaken (s : State) (m : Nat) (d : Dir) : Bool :=
  match stampOf s m d with
  | some (c, _) => c == now s
  | none => false

/-- Non-FG classes in the order of R36. -/
def clsOrder : List Cls := [.mx, .tg, .sp, .rk]

/-- Non-FG slots granted in this frame. -/
def nonFg (s : State) (m : Nat) (d : Dir) : Nat := clsOrder.foldl (fun n c => n + granted s m d c) 0

/-- The class that Table 02.2 grants this slot to, or none for idle. While the direction is busy only MX is granted
(R259). -/
def arbitrate (s : State) (m : Nat) (d : Dir) : Option Cls :=
  let busy := dirBusy s m d
  let work := fun c => clsWork s m d c && (decide (c = .mx) || !busy)
  let fg := !busy && decide (fgPick s m d ≠ .none)
  match clsOrder.find? (fun c => work c && decide (granted s m d c < owed s m d c)) with
  | some c => some c
  | none =>
    if fg && fgDue s m d then some .fg
    else
      match clsOrder.find? (fun c => work c && decide (granted s m d c < (clsLimits s m d c).2) &&
          decide (nonFg s m d < 1024 - fgMin s m d)) with
      | some c => some c
      | none =>
        if fg then some .fg
        else clsOrder.find? (fun c => work c && decide (granted s m d c < (clsLimits s m d c).2))

/-- An accepted write of port m has not issued: it waits for a probe, a vote, its read half or its slot. -/
def acceptedWaits (s : State) (m : Nat) : Bool :=
  s.pool.txns.any (fun t => t.port == m && !opReads t.item.op && t.st != .writing) ||
    s.rep.holds.any (fun h => h.port == m && h.dir == .w)

/-- The drain's order of a direction: probes before tag fetches; accepted writes before write-backs (R39, R270). -/
def drainArb (s : State) (m : Nat) (d : Dir) : Option Cls :=
  if dirBusy s m d then none
  else
    match d with
    | .r => if probeWaits s m probeIsWrite then some .sp else if (fetchPick s m).isSome then some .tg else none
    | .w => if mergedTxns s m ≠ [] then some .fg else if acceptedWaits s m then none
      else if (wbPick s m).isSome then some .tg else none

/-- The class of the slot, under the slot map or in the drain; nothing in PARKED, on a port that serves nothing, in a
void slot, in a claimed one, or where the slot is taken. -/
def slotFor (s : State) (m : Nat) (d : Dir) : Option Cls :=
  let x := mediaOf s m
  if x.failed ∨ x.unserved ∨ slotVoid s m ∨ slotTaken s m d ∨ slotClaimed s m d ∨ s.pwr.stage ≠ .served then none
  else
    match s.pwr.phase with
    | .service => arbitrate s m d
    | .draining => drainArb s m d
    | .parked => none

/-- What a slot that issues no operation on a line is stamped with: a number that no line has. -/
def noLine : Nat := 2 ^ 40

/-- Use a slot for a class and a line. -/
def slotUse (m : Nat) (d : Dir) (c : Cls) (line : Nat) (s : State) : State :=
  let st := some (now s, line)
  mediaMod m (fun x =>
    let k := slotKey d (clsNo c)
    let x := { x with slots := tabPut 0 x.slots k (tabGet 0 x.slots k + 1) }
    match d with
    | .w => { x with stampW := st }
    | .r => { x with stampR := st }) s

/-- The other direction of the port has the same line in this cycle, for an older item or already granted: this item
waits a cycle (R174). DESIGN CHOICE: the slot that the younger may not take goes to nothing else in that cycle (log 64). -/
def lineClash (s : State) (m : Nat) (d : Dir) (i : Item) : Bool :=
  let o : Dir := match d with
    | .w => .r
    | .r => .w
  match stampOf s m o with
  | some (c, l) =>
    if c = now s then l == itemLine i
    else
      match slotFor s m o, fgPick s m o with
      | some .fg, .item j => itemLine j == itemLine i && older j i
      | some .fg, .merged t => itemLine t.item == itemLine i && older t.item i
      | _, _ => false
  | none =>
    match slotFor s m o, fgPick s m o with
    | some .fg, .item j => itemLine j == itemLine i && older j i
    | some .fg, .merged t => itemLine t.item == itemLine i && older t.item i
    | _, _ => false

-- What a grant checks

/-- A commit has applied since the item passed stage 2, as the enqueue frame tells (R181, R189). -/
def recheckDue (s : State) (i : Item) : Bool :=
  i.old || (match s.pool.lastApply with
    | some f => decide (enqFrame i ≤ f + 1)
    | none => false)

/-- The refusal at a grant, if any: COMMIT_HOLD with its step, or step 7 (R181). -/
def grantRefusal (s : State) (i : Item) : Option (Nat × Nat) :=
  let r := if recheckDue s i then
      match chkReq s false i.src i.op i.h with
      | .fail step st => if step = 7 then some (7, st) else some (step, stCommitHold)
      | .pass _ => none
    else none
  match r with
  | some x => some x
  | none =>
    let st := step7 s i.op i.slot
    if st = stOk then none else some (7, st)

/-- COMMIT_HOLD's count and event (Table 08.10). -/
def commitHoldNote (i : Item) (step : Nat) (s : State) : State :=
  raise .commitHold (srcOfReq i.src 4) i.h.sid.toNat i.h.kidx.toNat step (count1 0x6080 4 0 s)

/-- Remove an item from its queue. -/
def itemDel (i : Item) (s : State) : State :=
  stickyTrim i.q { s with pool := { s.pool with items := s.pool.items.filter (fun j => j.arr != i.arr) } }

/-- One more occurrence of a count "in the frame", several at once. -/
def sumUpN (e : Ev) (src a b c n : Nat) (s : State) : State := Nat.repeat (sumUp e src a b c) n s

/-- The header cell of an item as the decoder stored it: Table 08.2 with the source in byte 13 and the enqueue frame in
bytes 14 and 15 (R189). -/
def headCell (i : Item) : BitVec 128 :=
  let src := match i.src with
    | .link p => p.val
    | .master n => 0x80 + n.val
  slotOfBytes ([BitVec.ofNat 8 (opCode i.op), if i.psn then 1#8 else 0#8] ++ leBytes 2 i.h.sid.toNat ++ leBytes 2 i.h.tag.toNat ++
    leBytes 2 i.h.kidx.toNat ++ leBytes 5 i.h.addr.toNat ++ [BitVec.ofNat 8 src] ++ leBytes 2 (enqFrame i))

/-- The error pattern of a command on cell `k` of what it reads from the pool. -/
def cellFlip (f : Faults) (k : Nat) : BitVec 144 :=
  f.cells.foldl (fun x e => if e.1 = k then x ^^^ e.2 else x) 0

/-- An item as the reader gets it from the pool: its data and extension bytes as they come, the bad words of its header,
what of the header can be trusted (0 good, 1 bytes 2 to 5 and 13 good, 2 not), and the bad bytes of its extension cell
and of its data (Table 09.5). -/
structure ItemRead where
  item : Item
  head : BitVec 4 := 0
  hdr : Nat := 0
  ext : BitVec 16 := 0
  data : BitVec 64 := 0
deriving DecidableEq, Repr

/-- Read the cells of an item: every word is checked against its parity (R7, R187, R198). -/
def itemRead (i : Item) (f : Faults) : ItemRead :=
  if f.cells = [] then { item := i }
  else
    let h := (cellRead (headCell i) (cellFlip f 0)).2
    let n := opCells i.op
    let e := if n = 6 then cellRead (i.ext.setWidth 128) (cellFlip f 1) else (i.ext.setWidth 128, 0#16)
    let d := fun k => if 5 ≤ n then cellRead (i.data.extractLsb' (128 * k) 128) (cellFlip f (n - 4 + k))
      else (i.data.extractLsb' (128 * k) 128, 0#16)
    let line : Line := (d 3).1 ++ (d 2).1 ++ (d 1).1 ++ (d 0).1
    { item := { i with ext := e.1.setWidth 64, data := line }, head := cellWords h,
      hdr := if h = 0#16 then 0 else if h &&& 0x203C#16 = 0#16 then 1 else 2,
      ext := e.2, data := (d 3).2 ++ (d 2).2 ++ (d 1).2 ++ (d 0).2 }

/-- A data or extension word of an item is bad. -/
def readBad (r : ItemRead) : Bool := decide (r.ext ≠ 0#16) || decide (r.data ≠ 0#64)

/-- The bad mask bytes of a partial write: bit b for mask bits [8b+7:8b]. -/
def readMask (r : ItemRead) : BitVec 8 := r.ext.setWidth 8

/-- The bad words of an item's extension and data cells. -/
def readWords (r : ItemRead) : Nat :=
  bitCount 4 (cellWords r.ext).toNat +
    (List.range 4).foldl (fun n k => n + bitCount 4 (cellWords (r.data.extractLsb' (16 * k) 16)).toNat) 0

/-- Bad words of a kind of cell are counted and reported (R198). -/
def wordsNote (src q kind n : Nat) (s : State) : State :=
  if n = 0 then s else sumUpN .qParity src q kind 0 n (countUp 0x6090 1 0 n s)

/-- Parity errors of an item's data and extension words as they leave the pool: counted and reported (R198). KIND 10 is
2. -/
def wordFaults (i : Item) (f : Faults) (s : State) : State :=
  wordsNote (srcMedia (i.q / 8) 5) i.q 2 (readWords (itemRead i f)) s

/-- The mask of a partial write with the eight bits of each bad byte taken as ones (Table 09.5). -/
def maskFaults (mask : BitVec 64) (ext : BitVec 8) : BitVec 64 :=
  (List.range 8).foldl (fun m k => if ext.getLsbD k then m ||| (0xFF#64 <<< (8 * k)) else m) mask

/-- An uncorrectable key-store error on the slot of a grant erases its materials; a corrected one is counted (R141). -/
def keyFaults (kidx : Nat) (f : Faults) (s : State) : State :=
  let s := if f.keyCe then count1 0x6060 6 0 s else s
  if f.keyUe ∧ kidx ≠ 0 then
    let erased := (slotOf s kidx).matA.isSome || (slotOf s kidx).matB.isSome
    ctxSuspendAbsent (raise .keystoreUe (srcGlobal 11) kidx (if erased then 1 else 0) 0 (slotZeroize kidx s))
  else s

-- Lost headers (R200)

/-- An unreadable header of queue q: every link of the sticky mask that is not down already goes down, and EV_Q_HDR_LOST
counts them; a master's item stops the master, and no response can be formed for it (R200). A link's item has the fate
of one not performed. -/
def hdrLost (i : Item) (mask : List Nat) (s : State) : State :=
  let up := mask.filter (fun p => (linkOf s p).up || (linkOf s p).negOpen)
  let s := raise .qHdrLost (srcGlobal 24) i.q up.length 0 (count1 0x6090 2 0 s)
  let s := up.foldl (fun s p => linkDown p 2 s) s
  match i.src with
  | .master n => { s with pool := { s.pool with masterStop := insertNat n.val s.pool.masterStop } }
  | .link _ => completeBare { i with gone := true } stFlushed (i.stored.getD (opCells i.op)) s

/-- The field in which the dequeue of a queue finds its pointer copies to differ: damage of this command, or of an
earlier one (R199). -/
def ptrField (s : State) (q : Nat) (f : Faults) : Option Nat :=
  match f.ptr with
  | some x => some x.val
  | none => tabFind s.pool.ptrBad q

/-- What the pool finds when an item is read for its grant: a pointer mismatch, a bad header; true when the item is
still to be performed (R198 to R200). -/
def grantRead (i : Item) (f : Faults) (s : State) : Bool × State :=
  match ptrField s i.q f with
  | some fld => (false, queueReset i.q fld s)
  | none =>
    let r := itemRead i f
    let note := fun (s : State) => wordsNote (srcMedia (i.q / 8) 5) i.q 1 (bitCount 4 r.head.toNat) s
    match r.hdr with
    | 0 => (true, itemDel i s)
    | 1 =>
      (false, completeBare i stFlushed (opCells i.op) (itemDel i (count1 (iqIdx (i.q / 8)) 0x21 0 (note s))))
    | _ =>
      let s := note s
      let mask := tabGet [] s.pool.sticky i.q
      (false, hdrLost i mask (itemDel i s))

/-- The refusal of an item at its grant. DESIGN CHOICE: a KEY_DENIED of the repeated step 7 raises no second EV_KEY_DENIED
(log 78). -/
def grantRefuse (i : Item) (step st : Nat) (s : State) : State :=
  completeBare i st (opCells i.op) (if st = stCommitHold then commitHoldNote i step s else s)

/-- A fresh transaction for an item: it holds the item's cells (Table 09.4). -/
def txnOpen (i : Item) (st : TxSt) (s : State) : Txn × State :=
  let t : Txn := { id := s.pool.nextId, item := i, st := st, port := i.q / 8, payload := i.data, mask := i.ext,
                   cells := opCells i.op, sl := sliceNo s (i.q / 8) }
  (t, txnAdd t { s with pool := { s.pool with nextId := s.pool.nextId + 1 } })

/-- The common start of a grant: the slot is used, the item is read and checked; the rest runs when it passes. -/
def grantItemThen (m : Nat) (d : Dir) (c : Cls) (i : Item) (f : Faults) (go : Item → State → State) (s : State) : State :=
  let s := rowErrors f (slotUse m d c (itemLine i) s)
  match grantRead i f s with
  | (false, s) => s
  | (true, s) =>
    let s := keyFaults i.slot f s
    match grantRefusal s i with
    | some (step, st) => grantRefuse i step st s
    | none => go i s

-- FG_READ_GRANT (Table 01.3, R171)

/-- The grant of a READ_LINE or READ_RAW: the lookup and its prediction, the tag entry, and the READ_LINE. -/
def readGrant (m : Nat) (f : Faults) (i : Item) (s : State) : State :=
  match txnOpen i .reading s with
  | (t, s) =>
    let a := itemLine i
    let s :=
      if i.op = .readLine then
        let s := match itemTag s i with
          | some (tl, e) => tagLookup (.txn t.id) i.slot tl e f s
          | none => s
        let t := { t with tagEnt := (itemTag s i).bind (fun x => tagCached s x.1 x.2) }
        let s := txnPut t s
        match jackLookup i.slot a f.jackPe s with
        | (some e, s) =>
          let g := (genByKgen4 (slotOf s i.slot) (jeKgen4 e)).getD 0#32
          txnPut { t with pred := some (jeLctr e - BitVec.ofNat 24 (jeLead e), g) } (count1 0x6050 1 0 s)
        | (none, s) => lookAhead i.slot a (count1 0x6050 2 0 s)
      else s
    issueR m { kind := .read, addr := a, owner := .txn t.id } s

/-- FG_READ_GRANT. -/
def doFgReadGrant (m : Nat) (f : Faults) (s : State) : State :=
  if slotFor s m .r = some .fg then
    match fgPick s m .r with
    | .item i =>
      if i.op = .writePartial ∨ lineClash s m .r i = true then s else grantItemThen m .r .fg i f (readGrant m f) s
    | _ => s
  else s

/-- FG_READ_GRANT. -/
def execFgReadGrant (m : Fin 16) (f : Faults) (s : State) : Host.Outcome State Fault Refusal :=
  .next (doFgReadGrant m.val f s)

-- FG_WRITE_GRANT

/-- EV_RAW_POISON and RAW_POISONED (R172). -/
def rawPoisonNote (i : Item) (s : State) : State :=
  let a := itemLine i
  raise .rawPoison (srcMedia (i.q / 8) 7) i.slot (a % 2 ^ 32) (a / 2 ^ 32 + (if opTag i.op then 256 else 0))
    (count1 0x6080 6 0 s)

/-- A raw write below the boundary or DONE, that stores a sidecar of g, becomes PENDING (Table 07.5, R161). -/
def rawAhead (i : Item) (sc : Side) (s : State) : State :=
  let a := itemLine i
  match ctxFor s i.slot with
  | none => s
  | some n =>
    let c := ctxOf s n
    let behind := decide (a < c.bound) || c.ahead.any (fun e => e.addr == a && e.isDone)
    let old := decide (scPcls sc ≠ 0 ∧ scKidx sc = i.slot ∧ scKgen4 sc = c.gen.setWidth 4)
    if c.cause ≤ 2 ∧ c.st ≠ .starting ∧ behind = true ∧ old = true then
      if aheadFull c ∧ aheadHas c a = false then raise .aheadFull (srcCtx n) i.slot (a % 2 ^ 32) (a / 2 ^ 32) s
      else aheadAdd n a s
    else s

/-- The grant of a WRITE_RAW: the line and sidecar verbatim, Jack's entry invalid, probes of the line void (R109, R161,
R171, R172). -/
def rawWriteGrant (m : Nat) (f : Faults) (i : Item) (s : State) : State :=
  let r := itemRead i f
  let bad := readBad r
  let i := r.item
  let sc : Side := if bad then i.ext ||| (1#64 <<< 18) else i.ext
  match txnOpen i .writing (wordFaults i f s) with
  | (t, s) =>
    let s := if bad then rawPoisonNote i s else s
    let s := txnConsume { t with rawPoison := bad } s
    let s := rawAhead i sc (probeVoid (itemLine i) (jackInvalidate (itemLine i) s))
    issueW m { kind := .write, addr := itemLine i, data := mediaJoin i.data sc, owner := .txn t.id } s

/-- The grant of a full-line write: a WRITE_LINE, or a partial write with every mask bit set; one with none completes OK
without a media operation (R178). -/
def fullWriteGrant (f : Faults) (i : Item) (s : State) : State :=
  let s := wordFaults i f s
  let r := itemRead i f
  let mask := if i.op = .writePartial then maskFaults r.item.ext (readMask r) else BitVec.allOnes 64
  if mask = 0#64 then completeBare i stOk (opCells i.op) s
  else
    match txnOpen r.item .probeWait s with
    | (t, s) =>
      let t := { t with poison := i.psn || decide (r.data ≠ 0#64) || decide (readMask r ≠ 0#8) }
      writeResolve t f (txnPut t s)

/-- A zero mask in which a bad byte is found selects that byte's eight data bytes: the item is a partial write with a read
half from then on, poisoned; this slot issues nothing (R178, Table 09.5). -/
def maskRepair (m : Nat) (f : Faults) (i : Item) (s : State) : State :=
  let s := wordFaults i f (rowErrors f (slotUse m .w .fg (itemLine i) s))
  { s with pool := { s.pool with items := s.pool.items.map (fun j =>
      if j.arr = i.arr then { j with ext := maskFaults j.ext (readMask (itemRead i f)), psn := true } else j) } }

/-- The entry of a full-line write has a parity error and no probe place is free: the lookup drops the entry, and the write
is not ready (R103, R106). -/
def entryGone (s : State) (i : Item) (f : Faults) : Bool :=
  f.jackPe && itemWhole i && (jackEntry s (itemLine i)).isSome && !probeRoom s (itemLine i)

/-- FG_WRITE_GRANT. -/
def doFgWriteGrant (m : Nat) (f : Faults) (s : State) : State :=
  if slotFor s m .w = some .fg then
    match fgPick s m .w with
    | .item i =>
      if lineClash s m .w i then s
      else if entryGone s i f then (jackLookup i.slot (itemLine i) true s).2
      else if i.op = .writePartial ∧ i.ext = 0#64 ∧ readMask (itemRead i f) ≠ 0#8 ∧ (itemRead i f).hdr = 0 ∧
          ptrField s i.q f = none then maskRepair m f i s
      else if i.op = .writeRaw then grantItemThen m .w .fg i f (rawWriteGrant m f) s
      else grantItemThen m .w .fg i f (fullWriteGrant f) s
    | _ => s
  else s

/-- FG_WRITE_GRANT. -/
def execFgWriteGrant (m : Fin 16) (f : Faults) (s : State) : Host.Outcome State Fault Refusal :=
  .next (doFgWriteGrant m.val f s)

-- Partial writes (R177)

/-- The grant of a read half: accepted, a way reserved, the hazard set by the transaction itself, READ_LINE issued. -/
def partialReadStart (m : Nat) (f : Faults) (i : Item) (s : State) : State :=
  let s := wordFaults i f s
  let r := itemRead i f
  match txnOpen r.item .reading s with
  | (t, s) =>
    let s := txnPut { t with mask := maskFaults r.item.ext (readMask r),
                             poison := i.psn || decide (r.data ≠ 0#64) || decide (readMask r ≠ 0#8) } s
    let s := match itemTag s i with
      | some (tl, e) => tagReserve (.txn t.id) tl (tagLookup (.txn t.id) i.slot tl e f s)
      | none => s
    issueR m { kind := .read, addr := itemLine i, owner := .txn t.id } s

/-- PARTIAL_READ_GRANT. -/
def doPartialReadGrant (m : Nat) (f : Faults) (s : State) : State :=
  if slotFor s m .r = some .fg then
    match fgPick s m .r with
    | .item i =>
      if i.op ≠ .writePartial ∨ lineClash s m .r i = true then s
      else grantItemThen m .r .fg i f (partialReadStart m f) s
    | _ => s
  else s

/-- PARTIAL_READ_GRANT. -/
def execPartialReadGrant (m : Fin 16) (f : Faults) (s : State) : Host.Outcome State Fault Refusal :=
  .next (doPartialReadGrant m.val f s)

/-- PARTIAL_WRITE_GRANT: the write half resolves its counter from the line that was read and issues (R105, R177). -/
def doPartialWriteGrant (m : Nat) (f : Faults) (s : State) : State :=
  if slotFor s m .w = some .fg then
    match fgPick s m .w with
    | .merged t =>
      let s := rowErrors f (slotUse m .w .fg (itemLine t.item) s)
      let s := keyFaults t.item.slot f s
      let st := step7 s t.item.op t.item.slot
      if st ≠ stOk then txnFinish t st s
      else
        let t := { t with sl := sliceNo s m }
        match entryResolve t.item.slot (itemLine t.item) (lnSide t.line) f.jackPe (txnPut t s) with
        | (e, s) => writeGo t e f s
    | _ => s
  else s

/-- PARTIAL_WRITE_GRANT. -/
def execPartialWriteGrant (m : Fin 16) (f : Faults) (s : State) : Host.Outcome State Fault Refusal :=
  .next (doPartialWriteGrant m.val f s)

-- TG slots

/-- The cycle from which a raw tag-line item is ready: its last cell's (R195). -/
def itemSince (i : Item) : Nat := i.t0 + opCells i.op - 1

/-- Answer a READ_TAGLINE_RAW from the cache as a write-back would write the line (R87). -/
def rawTagReply (t : Txn) (d : Line) (s : State) : State :=
  let tl := itemLine t.item
  readReply t stOk (some d) false (tagTrailer t.item.slot tl d) s

/-- The grant of a READ_TAGLINE_RAW: from the cache when the line is whole there, else by a fetch in this slot (R87). -/
def rawTagRead (m : Nat) (f : Faults) (i : Item) (s : State) : State :=
  match txnOpen i .tagRead s with
  | (t, s) =>
    let tl := itemLine i
    let s := tagSecded f tl s
    let whole : Option Line := match tagFind s tl with
      | some (_, w) => if w.valid = 0xFF#8 then some w.data else none
      | none => none
    match whole with
    | some d => rawTagReply t d s
    | none =>
      if s.tagc.fetches.any (fun f => f.tl == tl) then fetchAsk tl i.slot [.txn t.id] false s
      else
        let s := fetchAsk tl i.slot [.txn t.id] false s
        let s := { s with tagc := { s.tagc with fetches := s.tagc.fetches.map (fun f =>
            if f.tl = tl then { f with issued := true } else f) } }
        issueR m { kind := .read, addr := tl, owner := .tagFetch tl, kidx := i.slot } s

/-- TG work of a port's direction: a waiting fetch, a due write-back with the key of its way, or a raw tag-line item. -/
inductive TgWork where
  | fetch (f : TagFetch)
  | back (k : Nat) (x : TagWay)
  | raw (i : Item)
deriving DecidableEq, Repr

/-- The tag line of a piece of TG work. -/
def tgLine (w : TgWork) : Nat :=
  match w with
  | .fetch f => f.tl
  | .back _ x => x.addr
  | .raw i => itemLine i

/-- The cycle from which a piece of TG work is ready (R34). -/
def tgSince (s : State) (w : TgWork) : Nat :=
  match w with
  | .fetch f => f.since
  | .back _ x => wbSince s x
  | .raw i => itemSince i

/-- The TG work of a direction of port m that goes first: the oldest, tag-cache work among equals (R34). -/
def tgPick (s : State) (m : Nat) (d : Dir) : Option TgWork :=
  let cache : Option TgWork := match d with
    | .r => (fetchPick s m).map .fetch
    | .w => (wbPick s m).map (fun e => .back e.1 e.2)
  match cache, rawTagPick s m d with
  | some w, some i => if itemSince i < tgSince s w then some (.raw i) else some w
  | some w, none => some w
  | none, some i => some (.raw i)
  | none, none => none

/-- The other direction of the port has the same tag line in this cycle, already granted or for older work, a read among
equals: this work waits a cycle (R174). -/
def tagClash (s : State) (m : Nat) (d : Dir) (w : TgWork) : Bool :=
  let o : Dir := match d with
    | .w => .r
    | .r => .w
  if slotTaken s m o then (stampOf s m o).any (fun x => x.2 == tgLine w)
  else
    match slotFor s m o, tgPick s m o with
    | some .tg, some v =>
      tgLine v == tgLine w && (decide (tgSince s v < tgSince s w) || (decide (tgSince s v = tgSince s w) && o == .r))
    | _, _ => false

/-- Issue the READ_LINE of a waiting fetch in its slot (R82). -/
def fetchIssue (m : Nat) (f : TagFetch) (s : State) : State :=
  let s := slotUse m .r .tg f.tl s
  let s := { s with tagc := { s.tagc with fetches := s.tagc.fetches.map (fun g =>
      if g.tl = f.tl then { g with issued := true } else g) } }
  issueR m { kind := .read, addr := f.tl, owner := .tagFetch f.tl, kidx := f.kidx } s

/-- TAGLINE_FETCH: a TG read slot, for the oldest of the waiting fetches and raw tag-line reads (R34, R82, R87). -/
def doTaglineFetch (m : Nat) (ft : Faults) (s : State) : State :=
  if slotFor s m .r = some .tg then
    match tgPick s m .r with
    | none => s
    | some w =>
      if tagClash s m .r w then s
      else
        match w with
        | .fetch f => fetchIssue m f s
        | .raw i => grantItemThen m .r .tg i ft (rawTagRead m ft) s
        | .back _ _ => s
  else s

/-- TAGLINE_FETCH. -/
def execTaglineFetch (m : Fin 16) (f : Faults) (s : State) : Host.Outcome State Fault Refusal :=
  .next (doTaglineFetch m.val f s)

/-- The grant of a WRITE_TAGLINE_RAW: any cached copy is dropped, bytes and trailer go out verbatim; damage in the pool
makes the mark 11 (R87, R172). -/
def rawTagWrite (m : Nat) (f : Faults) (i : Item) (s : State) : State :=
  let r := itemRead i f
  let bad := readBad r
  let i := r.item
  let tr : Side := if bad then i.ext ||| (3#64 <<< 19) else i.ext
  match txnOpen i .writing (wordFaults i f s) with
  | (t, s) =>
    let s := if bad then rawPoisonNote i s else s
    issueW m { kind := .write, addr := itemLine i, data := mediaJoin i.data tr, owner := .txn t.id }
      (tagDropLine (itemLine i) (txnConsume { t with rawPoison := bad } s))

/-- The write-back of a way in its slot, after the check of its words (R84, R86). -/
def wbSlot (m k : Nat) (x : TagWay) (f : Faults) (s : State) : State :=
  let s := tagSecded f x.addr (rowErrors f (slotUse m .w .tg x.addr s))
  if f.tagUe then s else wbIssue m k x s

/-- TAG_WRITEBACK: a TG write slot, for the oldest of the due write-backs and raw tag-line writes (R34, R84, R87). -/
def doTagWriteback (m : Nat) (f : Faults) (s : State) : State :=
  if slotFor s m .w = some .tg then
    match tgPick s m .w with
    | none => s
    | some w =>
      if tagClash s m .w w then s
      else
        match w with
        | .back k x => wbSlot m k x f s
        | .raw i => grantItemThen m .w .tg i f (rawTagWrite m f) s
        | .fetch _ => s
  else s

/-- TAG_WRITEBACK. -/
def execTagWriteback (m : Fin 16) (f : Faults) (s : State) : Host.Outcome State Fault Refusal :=
  .next (doTagWriteback m.val f s)

-- SP slots

/-- SIDECAR_PROBE: the oldest waiting probe of a write miss (R106). -/
def doSidecarProbe (m : Nat) (s : State) : State :=
  if slotFor s m .r = some .sp ∧ probeWaits s m probeIsWrite = true then
    probeIssue m probeIsWrite 6 (slotUse m .r .sp noLine s)
  else s

/-- SIDECAR_PROBE. -/
def execSidecarProbe (m : Fin 16) (s : State) : Host.Outcome State Fault Refusal := .next (doSidecarProbe m.val s)

/-- The slot is granted to SP beyond the class's owed count, and no write's probe waits for it (R107; log 36). -/
def spSpare (s : State) (m : Nat) : Bool :=
  decide (slotFor s m .r = some .sp) && decide (s.pwr.phase = .service) && !probeWaits s m probeIsWrite &&
    decide (owed s m .r .sp ≤ granted s m .r .sp)

/-- LOOKAHEAD_PROBE (R107). -/
def doLookaheadProbe (m : Nat) (s : State) : State :=
  if spSpare s m = true ∧ lookDue s m = true then probeIssue m probeIsLook 7 (slotUse m .r .sp noLine s) else s

/-- LOOKAHEAD_PROBE. -/
def execLookaheadProbe (m : Fin 16) (s : State) : Host.Outcome State Fault Refusal := .next (doLookaheadProbe m.val s)

/-- A prefill moves to its next line; it ends after the last (R111). DESIGN CHOICE: past line 2^40 - 1 it goes on at line 0
(log 67). -/
def prefillNext (a left : Nat) : Option (Nat × Nat) := if left ≤ 1 then none else some ((a + 1) % 2 ^ 40, left - 1)

/-- PREFILL_PROBE: the next line of a prefill is probed, on its own port (R111); a line whose probe is outstanding gets no
second one and takes no slot (R106). DESIGN CHOICE: the result is read for the slot that owns the line, and fills nothing
where none does (log 66). -/
def doPrefillProbe (m : Nat) (s : State) : State :=
  match s.jack.prefill with
  | none => s
  | some (a, left) =>
    if spSpare s m = true ∧ prefillDue s m = true then
      let s := { s with jack := { s.jack with prefill := prefillNext a left } }
      if (probeOf s a).isSome then s
      else
        let k := (slotByAddr s a).getD 0
        let s := probesPut m (probesOf s m ++ [{ addr := a, kidx := k, kind := .prefill, prefill := true }]) s
        probeIssue m (fun p => p.addr == a) 7 (slotUse m .r .sp noLine s)
    else s

/-- PREFILL_PROBE. -/
def execPrefillProbe (m : Fin 16) (s : State) : Host.Outcome State Fault Refusal := .next (doPrefillProbe m.val s)

-- RK slots

/-- REKEY_TAKE: the context takes the line at BOUND (R146). On a port that serves nothing its step ends at once by row 1
of Table 07.3 (Table 12.3). -/
def doRekeyTake (n : Nat) (s : State) : State :=
  if takeOk s n then
    let m := portOf s (ctxOf s n).bound
    let s := takeLine n s
    rkPoll (if portDead s m then stepsLost m s else s)
  else s

/-- REKEY_TAKE. -/
def execRekeyTake (c : Fin 64) (s : State) : Host.Outcome State Fault Refusal := .next (doRekeyTake c.val s)

/-- Remember the context served last (R34). -/
def rrSet (m : Nat) (d : Dir) (n : Nat) (s : State) : State :=
  { s with rk := { s.rk with rr := tabPut 63 s.rk.rr (slotKey d 0 * 16 + m) n } }

/-- The tag entry that a step's read will be verified with (R86, R151). -/
def stepTagAsk (n a : Nat) (f : Faults) (s : State) : State :=
  let c := ctxOf s n
  if slotClass s c.kidx = 3 ∧ c.cause ≤ 2 then
    match tagPlace s c.kidx a with
    | some (tl, e) => tagLookup (.step n a) c.kidx tl e f s
    | none => s
  else s

/-- REKEY_STEP: an RK read slot of port m reads a line of the next context in turn (R151, R159, R160). -/
def doRekeyStep (m : Nat) (f : Faults) (s : State) : State :=
  if slotFor s m .r = some .rk then
    match rkReadPick s m with
    | none => s
    | some (n, a, ah) =>
      let s := rowErrors f (rrSet m .r n (slotUse m .r .rk a s))
      let sl := sliceNo s m
      let s :=
        if ah then
          let c := ctxOf s n
          ctxPut n { c with steps := c.steps ++ [{ addr := a, st := .reading, ahead := true, port := m, sl := sl }] } s
        else stepMod n a (fun x => { x with st := .reading, sl := sl }) s
      issueR m { kind := .read, addr := a, owner := .step n a } (stepTagAsk n a f s)
  else s

/-- REKEY_STEP. -/
def execRekeyStep (m : Fin 16) (s : State) (f : Faults := {}) : Host.Outcome State Fault Refusal :=
  .next (doRekeyStep m.val f s)

/-- A purge step's write: the pad of a fresh counter under an all-zero sidecar, held for a vote where the checker differs,
or zeros where no key is left (R160, R296). -/
def purgeWrite (m n : Nat) (x : StepLine) (f : Faults) (s : State) : State :=
  let c := ctxOf s n
  let a := x.addr
  match genByKgen4 (slotOf s c.kidx) (scKgen4 x.side) with
  | none => purgePut m n a 0 none s
  | some g =>
    match genKeys s c.kidx g with
    | none => purgePut m n a 0 none s
    | some k =>
      match entryResolve c.kidx a x.side f.jackPe s with
      | (e, s) =>
        match nextLctr c.kidx a g e s with
        | (none, s) => purgePut m n a 0 none s
        | (some l, s) =>
          let good := (List.range 5).map (fun j => ksBlock k.data (BitVec.ofNat 15 c.kidx) g (BitVec.ofNat 40 a) l j)
          let sl := sliceNo s m
          let z := sliceOf s sl
          match pipeBlocks z .w s.clk.cycle f good with
          | (ks, none) => purgePut m n a (ksLine ks) (some (g, l)) s
          | (ks, some mis) =>
            voteHold { slice := sl, kind := .vote, dir := .w, owner := .step n a, port := m, kidx := c.kidx,
                       addr := a, gen := g, lctr := l, good := good, ks := ks, duties := z.duty, checker := z.checker,
                       ten := p10Free z } mis s

/-- A step's write under R66: the counter under g + 1, or under the newest generation for a format pass (R151, R94). -/
def stepWriteGo (m n : Nat) (x : StepLine) (f : Faults) (s : State) : State :=
  let c := ctxOf s n
  let g := ctxTo c
  let a := x.addr
  match genKeys s c.kidx g with
  | none => stepMod n a (fun y => { y with st := .taken }) s
  | some k =>
    match entryResolve c.kidx a x.side f.jackPe s with
    | (e, s) =>
      match nextLctr c.kidx a g e s with
      | (none, s) => stepFail n a stCounterSpent 7 (spentNote c.kidx a s)
      | (some l, s) =>
        writeSlice { owner := .step n a, kidx := c.kidx, addr := a, port := m, pt := x.data, psn := x.poison, gen := g,
                     lctr := l, h := k.tag } k f s

/-- REKEY_STEP_WRITE: an RK write slot of port m writes a decided step's line. -/
def doRekeyStepWrite (m : Nat) (f : Faults) (s : State) : State :=
  if slotFor s m .w = some .rk then
    match rkWritePick s m with
    | none => s
    | some (n, x) =>
      let s := rowErrors f (rrSet m .w n (slotUse m .w .rk x.addr s))
      let sl := sliceNo s m
      let s := stepMod n x.addr (fun y => { y with sl := sl }) s
      if (ctxOf s n).cause = 4 then purgeWrite m n x f s else stepWriteGo m n x f s
  else s

/-- REKEY_STEP_WRITE. -/
def execRekeyStepWrite (m : Fin 16) (f : Faults) (s : State) : Host.Outcome State Fault Refusal :=
  .next (doRekeyStepWrite m.val f s)

-- MX slots

/-- A claimed slot of a slice's port can be taken now (R38, R305). -/
def claimOk (s : State) (m : Nat) (d : Dir) : Bool :=
  !slotTaken s m d && !slotVoid s m && decide (s.pwr.phase ≠ .parked)

/-- The port on which slice sl holds a line of a kind in a direction. -/
def holdPort (s : State) (sl : Nat) (k : HoldKind) (d : Dir) : Option Nat :=
  match s.rep.holds.find? (fun h => h.slice == sl && h.kind == k && h.dir == d) with
  | some h => some h.port
  | none => none

/-- VOTE: the oldest held line of the slice and direction is recomputed in a claimed MX slot; with no line held, the
checker's self-test comparison (R38, R296). -/
def voteCmd (sl : Nat) (d : Dir) (f : Faults) (s : State) : State :=
  if s.clk.running = false then s
  else
  match holdPort s sl .vote d with
  | none => selfTest sl f s
  | some m => if claimOk s m d then doVote sl d f (slotUse m d .mx noLine s) else s

/-- VOTE. -/
def execVote (sl : Fin 17) (d : Dir) (f : Faults) (s : State) : Host.Outcome State Fault Refusal :=
  .next (rkPoll (voteCmd sl.val d f s))

/-- SCHK_RECOMPUTE: the line passes XOR and check again in a claimed MX slot (R69). -/
def schkCmd (sl : Nat) (f : Faults) (s : State) : State :=
  match holdPort s sl .schk .r with
  | none => s
  | some m => if claimOk s m .r then doSchkRecompute sl f (slotUse m .r .mx noLine s) else s

/-- SCHK_RECOMPUTE. -/
def execSchkRecompute (sl : Fin 17) (f : Faults) (s : State) : Host.Outcome State Fault Refusal :=
  .next (schkCmd sl.val f s)

/-- ROW_REPAIR: a queued row of a macro of port m is copied to its next spare row, or stays in service (R294). -/
def doRowRepair (m : Nat) (s : State) : State :=
  if slotFor s m .w = some .mx then
    match rowPick s m with
    | none => s
    | some (mac, row) =>
      let s := slotUse m .w .mx noLine s
      let s := { s with rep := { s.rep with queue := s.rep.queue.filter (fun e => e != (mac, row)) } }
      match spareFree s mac with
      | none =>
        raise .rowSparesOut (srcGlobal 33) mac row 0
          { s with rep := { s.rep with outNoted := insertNat (rowNo mac row) s.rep.outNoted } }
      | some sp =>
        let s := raise .rowRepair (srcGlobal 32) mac row sp (countUp 0x2400 0x0D 0 1 (rowRemap mac row sp s))
        logAppend { kind := 1, spare := sp, macroNo := mac, row := row } s
  else s

/-- ROW_REPAIR. -/
def execRowRepair (m : Fin 16) (s : State) : Host.Outcome State Fault Refusal := .next (doRowRepair m.val s)

/-- The tag line of a line of a slot belongs to port m: a write of the line will dirty it. -/
def tagOnPort (s : State) (m kidx a : Nat) : Bool :=
  decide (slotClass s kidx = 3) && (tagPlace s kidx a).any (fun p => portOf s p.1 == m)

/-- Every write of port m that the drain waits for has issued, no write of any port will dirty a tag line of it, and its tag
lines are clean (R270). -/
def drainPortDone (s : State) (m : Nat) : Bool :=
  !acceptedWaits s m &&
    s.pool.txns.all (fun t => opReads t.item.op || t.st == .writing || !tagOnPort s m t.item.slot (itemLine t.item)) &&
    s.rep.holds.all (fun h => h.dir == .r || !tagOnPort s m h.kidx h.addr) &&
    s.tagc.ways.all (fun e => portOf s e.2.addr != m || !e.2.dirty)

/-- Issue a FLUSH_PERSIST on port m for the service or the drain. DESIGN CHOICE: the drain's counts as an MX slot as the
service's does (log 65). -/
def flushIssue (m : Nat) (o : MOwner) (s : State) : State :=
  issueW m { kind := .flush, addr := 0, owner := o } (slotUse m .w .mx noLine s)

/-- FLUSH_PERSIST: at the end of the drain after the port's last drain write, or on request, in a slot of a direction that
is not busy (R39, R259, R260). -/
def doFlushPersist (m : Nat) (s : State) : State :=
  let x := mediaOf s m
  if x.failed ∨ claimOk s m .w = false ∨ dirBusy s m .w then s
  else
    match s.pwr.phase with
    | .draining =>
      if x.drainFlush = false ∧ drainPortDone s m = true then
        flushIssue m .drainFlush (mediaMod m (fun y => { y with drainFlush := true, drainOut := true }) s)
      else s
    | .service =>
      if x.flushReq then
        flushIssue m .flush (mediaMod m (fun y => { y with flushReq := false, flushOut := true }) s)
      else s
    | .parked => s

/-- FLUSH_PERSIST. -/
def execFlushPersist (m : Fin 16) (s : State) : Host.Outcome State Fault Refusal := .next (doFlushPersist m.val s)

end Sys2Proof.Machine
end

