-- ==== Sys2Proof/Machine/Drain.lean ====
section
/-! DEFINITION. The drain's end: what each port still owes, the checkpoints of the contexts, and the clean session record
(R268 to R273, Table 13.1). -/

namespace Sys2Proof.Machine

/-- No tag line of port m is dirty or on its way to the medium. -/
def tagsClean (s : State) (m : Nat) : Bool :=
  s.tagc.ways.all (fun e => portOf s e.2.addr != m || (!e.2.dirty && e.2.wb.isNone))

/-- The drain has nothing left to wait for on port m: its tag lines are clean and the drain's own FLUSH_PERSIST is
PERSISTED, or the port is dead and no write awaits PERSISTED (R270, Table 12.3). -/
def portDrained (s : State) (m : Nat) : Bool :=
  let x := mediaOf s m
  if portDead s m then x.outW.isEmpty else x.drainFlush && !x.drainOut && tagsClean s m

/-- Every write of context n has been reported PERSISTED. -/
def ctxWritesDone (s : State) (n : Nat) : Bool :=
  (ctxOf s n).steps.isEmpty && !s.rep.holds.any (fun h => stepOwner n h.owner) &&
    !(flights s).any (fun f => stepOwner n f.owner)

/-- Commit the drain's checkpoint of context n as soon as its writes are persisted (R270). -/
def drainCkpt (s : State) (n : Nat) : State :=
  let c := ctxOf s n
  if c.st = .running ∧ c.drainCk = false ∧ ctxWritesDone s n = true then
    ckptPush n 0 true (ctxPut n { c with drainCk := true } s)
  else s

/-- No record is queued or being written; none of the drain's own was given up. -/
def nvIdle (s : State) : Bool :=
  s.nvu.jobs.isEmpty && s.nvu.page.isNone && !s.nvu.failed.any (fun j => j.own)

/-- Every condition of R270 for the clean session record. -/
def drainReady (s : State) : Bool :=
  (List.range 16).all (portDrained s) && nvIdle s &&
    (s.rk.ctxs.all (fun e => e.2.st != .running || e.2.drainCk))

/-- The drain moves on: checkpoints, then the session record with SHUTDOWN = clean (R270). A drain that began before the
end of recovery writes nothing (R285). -/
def drainPoll (s : State) : State :=
  if s.pwr.phase = .draining ∧ s.pwr.stage = .served then
    let s := (s.rk.ctxs.map (fun e => e.1)).foldl drainCkpt s
    if drainReady s = true ∧ s.pwr.sessionQueued = false then
      nvPush { recs := [.session 2], act := .sessionClean, own := true }
        { s with pwr := { s.pwr with sessionQueued := true } }
    else s
  else s

/-- A context at qualification: its steps without a granted RK write slot are abandoned and their hazards clear
(Table 07.6). -/
def ctxAbandon (s : State) (n : Nat) : State :=
  let c := ctxOf s n
  if c.st = .running then
    let low := (c.steps.filter (fun x => !stepKept s n x && !x.ahead)).foldl (fun b x => min b x.addr) c.bound
    stepsDrop n (ctxPut n { c with steps := c.steps.filter (stepKept s n), drainLow := some low, drainCk := false } s)
  else s

end Sys2Proof.Machine
end

