-- ==== Sys2Proof/Machine/MediaPort.lean ====
section
/-! DEFINITION. The media ports (R252 to R266): handshakes, transfer errors, ACCEPTED, PERSISTED, responses of reads,
timeouts, and the port that serves nothing. -/

namespace Sys2Proof.Machine

/-- The index of group 0 of media port m (R348). -/
def mpIdx (m : Nat) : Nat := 0x3800 + 16 * m
/-- The index of group 1 of media port m. -/
def mpStat (m : Nat) : Nat := 0x3801 + 16 * m

-- Tag-line fetches that end

/-- The tag line of the entry that a held line waits for. -/
def holdTagLine (s : State) (h : Hold) : Option Nat := (tagPlace s h.kidx h.addr).map (fun x => x.1)

/-- The line that an owner holds for a tag line. -/
def holdOn (s : State) (o : MOwner) (tl : Nat) : Option Hold :=
  s.rep.holds.find? (fun h => h.kind == .tag && h.owner == o && holdTagLine s h == some tl)

/-- One owner of a fetch that failed: a raw tag-line read and a held line end; an owner whose line has not arrived learns
it then (R90). -/
def fetchLostOwner (tl : Nat) (s : State) (o : MOwner) : State :=
  match holdOn s o tl with
  | some h => tagFetchLost h (holdDel h s)
  | none =>
    match o with
    | .txn id =>
      match txnFind s id with
      | none => s
      | some t =>
        if t.st = .tagRead then readReply t stMediaError none false 0 s
        else { s with tagc := { s.tagc with lostFor := s.tagc.lostFor ++ [o] } }
    | .step n a =>
      if (stepFind s n a).all (fun x => x.st != .reading) then s
      else { s with tagc := { s.tagc with lostFor := s.tagc.lostFor ++ [o] } }
    | _ => s

/-- Entries that are not valid, as zeros (R90). -/
def tagZeroFill (x : TagWay) : Line :=
  (List.range 8).foldl (fun d e => if x.valid.getLsbD e then d else tagEntrySet d e 0#64) x.data

/-- A fetch has failed (R90). The second failure for a write-back lets the line go out zero-filled. DESIGN CHOICE: the
zero-filled entries are valid in the cache from then on, so a read before the write-back meets them too (log 68). -/
def tagFetchFail (tl : Nat) (s : State) : State :=
  match s.tagc.fetches.find? (fun f => f.tl == tl) with
  | none => s
  | some f =>
    let s := { s with tagc := { s.tagc with fetches := s.tagc.fetches.filter (fun g => g.tl != tl) } }
    let s := match tagFind s tl with
      | none => taglineMedia tl 0 s
      | some (k, x) =>
        if f.forWb ∧ x.failedFetch then
          taglineMedia tl 1 (wayPut k { x with data := tagZeroFill x, valid := 0xFF#8, failedFetch := false,
                                               quietAt := now s } s)
        else taglineMedia tl 0 (wayPut k { x with failedFetch := true } s)
    let s := f.owners.foldl (fetchLostOwner tl) s
    if s.pwr.phase = .draining then wbFetches s else s

/-- One owner of a fetch that has brought its line (R82, R87, R89). -/
def fetchGotOwner (tl : Nat) (d : Line) (s : State) (o : MOwner) : State :=
  match holdOn s o tl with
  | some h => readVerify h d (holdDel h s)
  | none =>
    match o with
    | .txn id =>
      match txnFind s id with
      | none => s
      | some t =>
        if t.st = .tagRead then rawTagReply t d s
        else
          match tagPlace s t.item.slot (itemLine t.item) with
          | some (tl', e) =>
            if tl' = tl ∧ t.item.op = .readLine then
              txnPut { t with tagEnt := some ((tagCached s tl e).getD (tagEntryOf d e)) } s
            else s
          | none => s
    | _ => s

/-- The fetch of a READ_TAGLINE_RAW. -/
def rawTagOwner (s : State) (o : MOwner) : Bool :=
  match o with
  | .txn id => (txnFind s id).any (fun t => t.st == .tagRead)
  | _ => false

/-- A fetched tag line: its trailer is checked, it is merged, and what waited on it goes on (R82, R91). A fetch for raw
reads alone merges only into a copy that is cached (R87; log 38). -/
def tagFetchGot (tl : Nat) (line : BitVec 576) (s : State) : State :=
  match s.tagc.fetches.find? (fun f => f.tl == tl) with
  | none => s
  | some f =>
    let tr := lnSide line
    let d : Line := if tr.extractLsb' 19 2 = 0#2 then 0 else lnPay line
    let bad := trailerFaults f.kidx tl (lnPay line) tr
    let s := { s with tagc := { s.tagc with fetches := s.tagc.fetches.filter (fun g => g.tl != tl) } }
    let s := if bad = 0 then s else tlEv .taglineFault 17 tl bad (count1 0x6040 7 0 s)
    let s := if (tagFind s tl).isNone ∧ f.owners.all (rawTagOwner s) = true then s else tagMerge f.kidx tl d s
    let d := match tagFind s tl with
      | some (_, w) => w.data
      | none => d
    f.owners.foldl (fetchGotOwner tl d) s

-- Probes that end

/-- The probe of a line that is out. -/
def probeOut (s : State) (m a : Nat) : Option Probe := (probesOf s m).find? (fun p => p.addr == a && p.issued && !p.void)

/-- Remove the probe of a line, or one voided probe of it. -/
def probeDel (m a : Nat) (void : Bool) (s : State) : State :=
  probesPut m ((probesOf s m).eraseP (fun p => p.addr == a && p.issued && (p.void == void))) s

/-- Full-line writes that wait for the probe of a line, in arrival order. -/
def probeWaiters (s : State) (a : Nat) : List Txn :=
  s.pool.txns.filter (fun t => t.st == .probeWait && itemLine t.item == a)

/-- A probe that the medium cannot answer: waiting writes end with MEDIA_ERROR; a look-ahead or prefill probe is dropped
(R106, Table 12.2). -/
def probeFail (m a : Nat) (s : State) : State :=
  match probeOut s m a with
  | none => s
  | some p =>
    let s := probeDel m a false s
    match p.kind with
    | .write =>
      let l := probeWaiters s a
      let s := l.foldl (fun s t => txnFinish t stMediaError s) s
      raise .probeMedia (srcMedia m 4) p.kidx (a % 2 ^ 32) (a / 2 ^ 32 + 256 * l.length) s
    | _ => count1 0x6050 8 0 s

/-- One write that waited for the sidecar resolves its counter (R99, R106). -/
def probeRelease (sc : Side) (f : Faults) (s : State) (t : Txn) : State :=
  match entryFromSide t.item.slot (itemLine t.item) sc s with
  | (e, s) => writeGo t e f s

/-- A probe's sidecar has arrived: it fills Jack and releases the writes that waited (R105 to R107, R111). -/
def probeGot (m a : Nat) (sc : Side) (f : Faults) (s : State) : State :=
  match probeOut s m a with
  | none => s
  | some p =>
    let l := probeWaiters s a
    let s := probeDel m a false s
    let s := if p.kidx = 0 then s else jackFill p.kidx a sc s
    l.foldl (fun s t =>
      match jackEntry s a with
      | some (_, e) => writeGo t e f s
      | none => probeRelease sc f s t) s

-- Reads that end without data

/-- A read that ends as for d_stat = 10, by its owner (Table 12.2). -/
def readEnd (m : Nat) (s : State) (o : MOp) : State :=
  match o.owner with
  | .tagFetch tl => tagFetchFail tl s
  | .probe => probeFail m o.addr s
  | .flush => if o.kind = .sidecar then probeDel m o.addr true s else s
  | w => lineLost w s

-- A port that serves nothing (Table 12.3)

/-- A write in the FIFO that is not performed: its tag entry goes, and its owner ends with MEDIA_ERROR (R81). -/
def writeLost (m : Nat) (s : State) (o : MOp) : State :=
  match o.owner with
  | .txn id =>
    match txnFind s id with
    | none => s
    | some t => txnFinish t stMediaError (tagDrop o.seq s)
  | .step n a => stepFail n a stMediaError 1 (tagDrop o.seq s)
  | .tagWb tl =>
    match tagFind s tl with
    | some (k, x) => if x.wb = some o.seq then wayPut k { x with wb := none, dirty := true } s else s
    | none => s
  | .flush => if o.kind = .flush then mediaMod m (fun x => { x with flushOut := false, flushReq := true }) s else s
  | .drainFlush => mediaMod m (fun x => { x with drainOut := false, drainFlush := false }) s
  | _ => s

/-- A partial write whose line has arrived and whose read half is not yet decided. -/
def readHalfHeld (t : Txn) : Bool := inMerger t && decide (t.st ≠ .merged) && decide (t.st ≠ .reading)

/-- A write of the port that is held or waits and has not issued ends with MEDIA_ERROR, a partial write whose read half is
held among them. -/
def grantLost (m : Nat) (s : State) : State :=
  let hs := s.rep.holds.filter (fun h => h.port == m && h.dir == .w)
  let s := hs.foldl (fun s h =>
    match h.owner with
    | .txn id =>
      match txnFind s id with
      | some t => txnFinish t stMediaError (holdDel h s)
      | none => holdDel h s
    | .step n a => stepFail n a stMediaError 1 (holdDel h s)
    | _ => holdDel h s) s
  let s := (s.pool.txns.filter (fun t => t.port == m && (t.st == .merged || t.st == .probeWait))).foldl
    (fun s t => txnFinish t stMediaError s) s
  (s.pool.txns.filter (fun t => t.port == m && readHalfHeld t)).foldl (fun s t =>
    partialRefuse t stMediaError
      { s with rep := { s.rep with holds := s.rep.holds.filter (fun h => h.owner != .txn t.id) } }) s

/-- A read whose command has ended without its response: its id stays outstanding until the late response (R253, R261). -/
def readLate (e : Nat × MOp) : Nat × MOp := (e.1, { e.2 with timedOut := true })

/-- Table 12.3: ingress queues, reads and unhandshaken writes of the port end with MEDIA_ERROR; handshaken writes, and the
ids of handshaken reads, stay outstanding. Applied to a FAILED port and to one that no slice serves (Table 14.6). -/
def portEmpty (m : Nat) (s : State) : State :=
  let x := mediaOf s m
  let s := mediaPut m { x with fifoW := [], fifoR := [], outR := x.outR.map readLate } s
  let s := x.fifoW.foldl (writeLost m) s
  let s := x.outR.foldl (fun s e => if e.2.timedOut then s else readEnd m s e.2) s
  let s := x.fifoR.foldl (readEnd m) s
  let s := (s.tagc.fetches.filter (fun f => portOf s f.tl == m)).foldl (fun s f => tagFetchFail f.tl s) s
  let s := ((probesOf s m).filter (fun p => !p.issued)).foldl (fun s p =>
    probeFail m p.addr (probesPut m ((probesOf s m).map (fun q => if q = p then { q with issued := true } else q)) s)) s
  let s := stepsLost m (grantLost m s)
  let items := s.pool.items.filter (fun i => i.q / 8 == m)
  items.foldl (fun s i =>
    itemOut i stMediaError (itemDel i s)) s

/-- A port becomes FAILED with a cause: 0 transfer, 1 persist timeout, 2 protocol error (R262, Table 12.3). -/
def portFail (m cause : Nat) (s : State) : State :=
  if (mediaOf s m).failed then s
  else
    let s := mediaMod m (fun x => { x with failed := true }) s
    let s := faultLow (regPut (mpIdx m) 1 0 1 s)
    let s := raise .mpFailed (srcMedia m 1) cause (mediaOf s m).outW.length 0 s
    rkPoll (portEmpty m s)

-- Presentation and handshake (R253, R257)

/-- A read of a line is older than a write of it: issued before it, or in the same cycle (R257). -/
def readOlder (r w : MOp) : Bool := decide (r.seq < w.seq) || decide (r.cyc = w.cyc)

/-- A write-direction head may be presented: fewer than 64 wait for ACCEPTED, every older read of its line is
handshaken, and an id is free. -/
def writeMayGo (x : Media) (o : MOp) : Bool :=
  decide (x.accWait.length < 64) && decide (x.outW.length < 4096) &&
    (decide (o.kind = .flush) || !x.fifoR.any (fun r => r.addr == o.addr && readOlder r o))

/-- A read-direction head may be presented in cycle `t`: every older WRITE_LINE of its line was ACCEPTED in an earlier
cycle, and an id is free (R253, R257). -/
def readMayGo (x : Media) (t : Nat) (o : MOp) : Bool :=
  let blocks := fun (w : MOp) => decide (w.kind = .write) && w.addr == o.addr && !readOlder o w && !w.accepted
  decide (x.outR.length < 2048) && !x.fifoW.any blocks && !x.outW.any (fun e => blocks e.2) &&
    x.lastAcc != some (t, o.addr)

/-- The signals that the engine drives when it presents a write-direction operation under an id (Table 12.1). -/
structure WriteBus where
  op : BitVec 2
  id : BitVec 12
  addr : Addr
  apar : Bool
  data : BitVec 576
  wpar : BitVec 16
deriving DecidableEq, Repr

/-- The signals that the engine drives when it presents a read-direction operation under an id (Table 12.1). -/
structure ReadBus where
  op : BitVec 2
  id : BitVec 11
  addr : Addr
  apar : Bool
deriving DecidableEq, Repr

/-- A write-direction operation on the bus: w_apar is odd parity over w_op, w_id and w_addr. -/
def writeBus (id : Nat) (o : MOp) : WriteBus :=
  let op := if o.kind = .flush then 2#2 else 1#2
  let i := BitVec.ofNat 12 id
  let a := BitVec.ofNat 40 o.addr
  { op := op, id := i, addr := a, apar := oddPar (op ++ i ++ a), data := o.data, wpar := linePar o.data }

/-- A read-direction operation on the bus: r_apar is odd parity over r_op, r_id and r_addr. -/
def readBus (id : Nat) (o : MOp) : ReadBus :=
  let op := if o.kind = .sidecar then 2#2 else 1#2
  let i := BitVec.ofNat 11 id
  let a := BitVec.ofNat 40 o.addr
  { op := op, id := i, addr := a, apar := oddPar (op ++ i ++ a) }

/-- What the write direction of port m presents under a free id: its FIFO's head when it may go (R253 to R257). -/
def writeOnBus (s : State) (m id : Nat) : Option WriteBus :=
  let x := mediaOf s m
  match x.fifoW with
  | [] => none
  | o :: _ => if x.failed ∨ writeMayGo x o = false then none else some (writeBus id o)

/-- What the read direction of port m presents under a free id. -/
def readOnBus (s : State) (m id : Nat) : Option ReadBus :=
  let x := mediaOf s m
  match x.fifoR with
  | [] => none
  | o :: _ => if x.failed ∨ readMayGo x (now s) o = false then none else some (readBus id o)

/-- A write is handshaken under an id. -/
def handshakeW (m id : Nat) (s : State) : State :=
  let x := mediaOf s m
  match x.fifoW with
  | [] => s
  | o :: t =>
    if x.failed ∨ writeMayGo x o = false ∨ (tabFind x.outW id).isSome then s
    else
      let s := mediaPut m { x with fifoW := t, outW := tabSet x.outW id { o with tries := 0 },
                                   accWait := x.accWait ++ [id] } s
      if o.kind = .write then count1 (mpStat m) 2 0 s else s

/-- A read is handshaken under an id. -/
def handshakeR (m id : Nat) (s : State) : State :=
  let x := mediaOf s m
  match x.fifoR with
  | [] => s
  | o :: t =>
    if x.failed ∨ readMayGo x (now s) o = false ∨ 2048 ≤ id ∨ (tabFind x.outR id).isSome then s
    else
      let s := mediaPut m { x with fifoR := t, outR := tabSet x.outR id o } s
      count1 (mpStat m) (if o.kind = .sidecar then 3 else 1) 0 s

/-- MEDIA_HANDSHAKE: the head of a FIFO is taken by the controller under a free id (R253, R257). -/
def doMediaHandshake (m : Nat) (dir : Dir) (id : Nat) (s : State) : State :=
  match dir with
  | .w => handshakeW m id s
  | .r => handshakeR m id s

/-- MEDIA_HANDSHAKE. -/
def execMediaHandshake (m : Fin 16) (dir : Dir) (opId : BitVec 12) (s : State) : Host.Outcome State Fault Refusal :=
  .next (doMediaHandshake m.val dir opId.toNat s)

/-- EV_MP_XFER and its count: direction, line, failed presentations (R254, Table 12.6). -/
def xferNote (m dir : Nat) (o : MOp) (tries : Nat) (s : State) : State :=
  raise .mpXfer (srcMedia m 0) dir (o.addr % 2 ^ 32) (o.addr / 2 ^ 32 + 256 * tries) (count1 (mpStat m) 6 0 s)

/-- TRANSFER_ERROR: w_xerr on the presented write; after MP_XFER_RETRIES presentations the port is FAILED and the entry is
not performed (R254). -/
def doTransferError (m : Nat) (s : State) : State :=
  let x := mediaOf s m
  match x.fifoW with
  | [] => s
  | o :: t =>
    if x.failed ∨ writeMayGo x o = false then s
    else
      let o' := { o with tries := o.tries + 1 }
      let s := xferNote m 0 o o'.tries (mediaPut m { x with fifoW := o' :: t } s)
      if cfgVal s 0x20B0 3 0 ≤ o'.tries then drainPoll (portFail m 0 s) else s

/-- TRANSFER_ERROR. -/
def execTransferError (m : Fin 16) (s : State) : Host.Outcome State Fault Refusal := .next (doTransferError m.val s)

/-- ACCEPTED: for the oldest write-direction operation not yet accepted; without one it is a protocol error (R255,
R256). -/
def doAccepted (m : Nat) (s : State) : State :=
  let x := mediaOf s m
  match x.accWait with
  | [] => portFail m 2 s
  | id :: t =>
    match tabFind x.outW id with
    | none => s
    | some o =>
      let last := if o.kind = .write then some (now s, o.addr) else x.lastAcc
      mediaPut m { x with accWait := t, outW := tabSet x.outW id { o with accepted := true }, lastAcc := last } s

/-- ACCEPTED. -/
def execAccepted (m : Fin 16) (s : State) : Host.Outcome State Fault Refusal := .next (drainPoll (doAccepted m.val s))

-- PERSISTED (R255)

/-- A write under g + 1 is PERSISTED: the ahead-set entry of its line ends (R150). -/
def aheadPersisted (o : MOp) (s : State) : State :=
  if o.counted then
    match ctxFor s o.kidx with
    | none => s
    | some n =>
      let c := ctxOf s n
      if c.cause ≤ 2 ∧ o.gen = ctxTo c then ctxPut n { c with ahead := c.ahead.filter (fun e => e.addr != o.addr) } s
      else s
  else s

/-- The completion of a transaction's write: WR_DONE, OK_POISON for a raw item with a bad word (R17, R172). -/
def writeDone (t : Txn) (s : State) : State :=
  let s :=
    if t.item.op = .writePartial ∧ partialPlain t.item = false then count1 0x6000 3 0 (count1 0x6080 1 0 s) else s
  txnFinish t (if t.rawPoison then stOkPoison else stOk) s

/-- A raw tag-line write stores its tag line itself: what was owed to that line is paid (R94). -/
def rawPaid (t : Txn) (o : MOp) (s : State) : State := if t.item.op = .writeTag then tagPaid o.addr o.seq s else s

/-- What PERSISTED does for the operation's owner. -/
def persistedFor (m : Nat) (o : MOp) (s : State) : State :=
  match o.owner with
  | .txn id =>
    match txnFind s id with
    | none => s
    | some t => writeDone t (rawPaid t o s)
  | .step n a => stepEnd n a s
  | .tagWb tl => wbPersisted tl o.seq s
  | .flush => mediaMod m (fun x => { x with flushOut := false }) s
  | .drainFlush => mediaMod m (fun x => { x with drainOut := false }) s
  | _ => s

/-- Accepted writes that a drain performs are counted (DRAIN_WRITES). -/
def drainCount (o : MOp) (s : State) : State :=
  match o.owner with
  | .txn _ => { s with pwr := { s.pwr with drainWrites := s.pwr.drainWrites + 1 } }
  | .step _ _ => { s with pwr := { s.pwr with drainWrites := s.pwr.drainWrites + 1 } }
  | _ => s

/-- PERSISTED for a write id; for an id that is not outstanding or not yet ACCEPTED it is a protocol error (R255, R256,
R84, R150). -/
def doPersisted (m id : Nat) (s : State) : State :=
  let x := mediaOf s m
  match tabFind x.outW id with
  | none => portFail m 2 s
  | some o =>
    if o.accepted = false then portFail m 2 s
    else
      let s := mediaPut m { x with outW := tabDel x.outW id } s
      let s := tagPersisted o.seq (aheadPersisted o s)
      let s := if s.pwr.phase = .draining then drainCount o s else s
      let s := persistedFor m o s
      rkPoll (if portDead s m then stepsLost m s else s)

/-- PERSISTED. -/
def execPersisted (m : Fin 16) (opId : BitVec 12) (s : State) : Host.Outcome State Fault Refusal :=
  .next (drainPoll (tagMakeRoom (doPersisted m.val opId.toNat s)))

-- Responses of reads (R254, R256, R258)

/-- EV_MP_MEDIA_ERR with its counts (R258, Table 12.6). -/
def mediaErr (m stat : Nat) (o : MOp) (s : State) : State :=
  let op := if o.kind = .sidecar then 2 else 1
  let s := raise .mpMediaErr (srcMedia m 0) (stat + 256 * op) (o.addr % 2 ^ 32) (o.addr / 2 ^ 32) s
  regPut (mpStat m) 9 0 o.addr (count1 (mpStat m) (if stat = 1 then 4 else 5) 0 s)

/-- Which response command an operation takes: 0 LINE_ARRIVAL, 1 SIDECAR_ARRIVAL, 2 TAGLINE_ARRIVAL. -/
def respKind (o : MOp) : Nat :=
  if o.kind = .sidecar then 1
  else
    match o.owner with
    | .tagFetch _ => 2
    | _ => 0

/-- A line address is the tag line of some line of a slot of class CI: it lies from TAG_BASE over the slot's lines (R77). -/
def isTagLine (s : State) (a : Nat) : Bool :=
  s.keys.slots.any (fun e =>
    let base := cfgVal s 0x4000 8 e.1
    decide (slotClass s e.1 = 3) && decide (base ≤ a) && decide (a < base + (walkLeft s e.1 0 + 7) / 8))

/-- A read response: discarded after a timeout, a transfer error, a media report, or what `got` does with its data. An id
without an outstanding read, and a d_stat other than 00 on a sidecar read of a tag line, are protocol errors (R256). -/
def response (m id kind stat : Nat) (parOk : Bool) (got : MOp → State → State) (s : State) : State :=
  let x := mediaOf s m
  match tabFind x.outR id with
  | none => portFail m 2 s
  | some o =>
    if respKind o ≠ kind then s
    else
      let s := mediaPut m { x with outR := tabDel x.outR id } s
      if o.timedOut then s
      else if o.kind = .sidecar ∧ stat ≠ 0 ∧ isTagLine s o.addr then readEnd m (portFail m 2 s) o
      else if stat = 3 ∨ (stat = 0 ∧ parOk = false) then
        let o' := { o with tries := o.tries + 1 }
        let s := xferNote m 1 o o'.tries s
        if o'.tries < cfgVal s 0x20B0 3 0 then issueR m o' s else readEnd m (mediaErr m 3 o s) o
      else if stat ≠ 0 then readEnd m (mediaErr m stat o s) o
      else got o s

/-- LINE_ARRIVAL: a READ_LINE response for a request or a step (R68, Table 03.7). -/
def doLineArrival (m id stat : Nat) (data : BitVec 576) (wpar : BitVec 16) (f : Faults) (s : State) : State :=
  response m id 0 stat (wpar == linePar data) (fun o s => lineArrived o.owner m data f (rowErrors f s)) s

/-- LINE_ARRIVAL. -/
def execLineArrival (m : Fin 16) (opId : BitVec 11) (stat : BitVec 2) (data : BitVec 576) (wpar : BitVec 16) (f : Faults)
    (s : State) : Host.Outcome State Fault Refusal :=
  .next (drainPoll (rkPoll (doLineArrival m.val opId.toNat stat.toNat data wpar f s)))

/-- SIDECAR_ARRIVAL: a probe's response, of which bits [35:32] of each word carry meaning (R105 to R107, Table 12.1). -/
def doSidecarArrival (m id stat : Nat) (data : BitVec 576) (wpar : BitVec 16) (f : Faults) (s : State) : State :=
  response m id 1 stat (wpar == linePar data) (fun o s =>
    match o.owner with
    | .probe => probeGot m o.addr (lnSide data) f s
    | _ => probeDel m o.addr true s) s

/-- SIDECAR_ARRIVAL. -/
def execSidecarArrival (m : Fin 16) (opId : BitVec 11) (stat : BitVec 2) (data : BitVec 576) (wpar : BitVec 16) (f : Faults)
    (s : State) : Host.Outcome State Fault Refusal :=
  .next (drainPoll (doSidecarArrival m.val opId.toNat stat.toNat data wpar f s))

/-- TAGLINE_ARRIVAL: a fetched tag line (R82, R90, R91). -/
def doTaglineArrival (m id stat : Nat) (data : BitVec 576) (wpar : BitVec 16) (s : State) : State :=
  response m id 2 stat (wpar == linePar data) (fun o s =>
    match o.owner with
    | .tagFetch tl => tagFetchGot tl data s
    | _ => s) s

/-- TAGLINE_ARRIVAL. -/
def execTaglineArrival (m : Fin 16) (opId : BitVec 11) (stat : BitVec 2) (data : BitVec 576) (wpar : BitVec 16) (s : State) :
    Host.Outcome State Fault Refusal :=
  .next (drainPoll (rkPoll (doTaglineArrival m.val opId.toNat stat.toNat data wpar s)))

-- Timeouts and stalls (R259, R261)

/-- READ_TIMEOUT: the read ends as for d_stat = 10; its id stays outstanding until the late response (R261). -/
def doReadTimeout (m id : Nat) (s : State) : State :=
  let x := mediaOf s m
  match tabFind x.outR id with
  | none => s
  | some o =>
    if o.timedOut then s
    else
      let s := mediaPut m { x with outR := tabSet x.outR id { o with timedOut := true } } s
      let s := raise .mpTimeout (srcMedia m 0) 0 id (o.addr % 2 ^ 32) s
      readEnd m (count1 (mpStat m) 5 0 (count1 (mpStat m) 7 0 s)) o

/-- READ_TIMEOUT. -/
def execReadTimeout (m : Fin 16) (opId : BitVec 11) (s : State) : Host.Outcome State Fault Refusal :=
  .next (drainPoll (rkPoll (doReadTimeout m.val opId.toNat s)))

/-- PERSIST_TIMEOUT: the port becomes FAILED (R261). -/
def doPersistTimeout (m id : Nat) (s : State) : State :=
  let x := mediaOf s m
  match tabFind x.outW id with
  | none => s
  | some o =>
    if o.timedOut then s
    else
      let s := mediaPut m { x with outW := tabSet x.outW id { o with timedOut := true } } s
      let s := raise .mpTimeout (srcMedia m 0) 1 id (o.addr % 2 ^ 32) (count1 (mpStat m) 7 0 s)
      portFail m 1 s

/-- PERSIST_TIMEOUT. -/
def execPersistTimeout (m : Fin 16) (opId : BitVec 12) (s : State) : Host.Outcome State Fault Refusal :=
  .next (drainPoll (doPersistTimeout m.val opId.toNat s))

/-- MP_STALL: ready has stayed low for MP_STALL_LIMIT cycles, the moment at which EV_MP_STALL is raised (R259). -/
def doMpStall (m : Nat) (dir : Dir) (cycles : Nat) (s : State) : State :=
  if cycles = cfgVal s 0x20B0 4 0 ∧ (mediaOf s m).failed = false then
    let x := mediaOf s m
    match dir with
    | .w => raise .mpStall (srcMedia m 1) 0 cycles x.fifoW.length s
    | .r => raise .mpStall (srcMedia m 1) 1 cycles x.fifoR.length s
  else s

/-- MP_STALL. -/
def execMpStall (m : Fin 16) (dir : Dir) (cycles : BitVec 32) (s : State) : Host.Outcome State Fault Refusal :=
  .next (doMpStall m.val dir cycles.toNat s)

end Sys2Proof.Machine
end

