-- ==== Sys2Proof/Machine/Sweep.lean ====
section
/-! DEFINITION. The pool sweep, the flush of ingress queues, and the read-back of NV page commits (R196, R197, R199 to
R202, R279). -/

namespace Sys2Proof.Machine

-- POOL_SWEEP_PASS (R202)

/-- The header cell of an item as the sweep reads it: `hdr` gives the error patterns by arrival number. Bad words are
counted and reported (R198, R202). -/
def sweepRead (hdr : List (Nat × BitVec 144)) (i : Item) (s : State) : Nat × State :=
  let r := itemRead i { cells := (hdr.filter (fun e => e.1 == i.arr)).map (fun e => (0, e.2)) }
  (r.hdr, wordsNote (srcMedia (i.q / 8) 5) i.q 1 (bitCount 4 r.head.toNat) s)

/-- An item of a retired id that the sweep meets: FLUSHED, or a lost header (R199, R200). -/
def sweepItem (hdr : List (Nat × BitVec 144)) (s : State) (i : Item) : State :=
  match sweepRead hdr i s with
  | (c, s) => if c = 2 then hdrLost i i.mask s else itemFlushed i s

/-- Bitmaps that differ: `freed` cells become free and `held` cells held in both copies; the latter are counted, and
stay held until reset. -/
def sweepBitmaps (freed held : Nat) (s : State) : State :=
  let s := countUp 0x6090 4 0 held { s with pool := { s.pool with stuck := s.pool.stuck + held } }
  if freed + held = 0 then s else raise .poolSplit (srcGlobal 26) (freed + held) 0 0 s

/-- Set OLD on headers whose enqueue frame lies more than 16,384 frames back. -/
def sweepOld (s : State) : State :=
  { s with pool := { s.pool with items := s.pool.items.map (fun i =>
      if enqFrame i + 16384 < frameNo s then { i with old := true } else i) } }

/-- POOL_SWEEP_PASS: cells of ids retired before the pass are released, their items completed, and the ids return; `ptr`
lists the queues whose pointers the sweep finds in mismatch, `hdr` the damage of header cells (R198 to R202). -/
def doPoolSweepPass (ptr : List (Nat × Fin 5)) (freed held : Nat) (hdr : List (Nat × BitVec 144)) (s : State) : State :=
  let due := s.pool.lost.filter (fun e => e.1 == 1)
  let back := (s.pool.retired.filter (fun e => e.2)).map (fun e => e.1)
  let s := { s with pool := { s.pool with
      lost := (s.pool.lost.filter (fun e => e.1 != 1)).map (fun e => if e.1 = 0 then (1, e.2) else e)
      retired := (s.pool.retired.filter (fun e => !e.2)).map (fun e => (e.1, true))
      spare := s.pool.spare ++ back } }
  let s := due.foldl (fun s e => sweepItem hdr s e.2) s
  let s := s.pool.items.foldl (fun s i => (sweepRead hdr i s).2) s
  let s := sweepOld (sweepBitmaps freed held s)
  ptr.foldl (fun s e => if e.1 < 384 then queueReset e.1 e.2.val s else s) s

/-- POOL_SWEEP_PASS. -/
def execPoolSweepPass (ptr : List (Nat × Fin 5)) (freed held : Nat) (hdr : List (Nat × BitVec 144)) (s : State) :
    Host.Outcome State Fault Refusal := .next (if s.clk.running then doPoolSweepPass ptr freed held hdr s else s)

-- IQ_FLUSH (R196, R197)

/-- Empty queue q: every item not granted whose header has landed completes with FLUSHED; EV_Q_FLUSH with the items and the
orphans they owe (R196). -/
def queueFlush (q : Nat) (s : State) : State :=
  let l := s.pool.items.filter (fun i => i.q == q && decide (i.t0 ≤ now s))
  let owe := l.foldl (fun n i => n + owedCells s i) 0
  let s := stickyTrim q { s with pool := { s.pool with items := s.pool.items.filter (fun i => i.q != q || !decide (i.t0 ≤ now s)) } }
  raise .qFlush (srcMedia (q / 8) 6) q l.length owe (l.foldl (fun s i => itemFlushed i s) s)

/-- A write of the flush bits of port m: bits that change from 0 to 1 flush their queues, in service only; a bit that is
cleared ends its flush from the next cycle (R196, R197). -/
def iqFlushSet (m v : Nat) (s : State) : State :=
  let old := regVal s (iqIdx m) 1 0
  let ends := (List.range 8).filter (fun k => old.testBit k && !v.testBit k)
  let s := regPut (iqIdx m) 1 0 v s
  let s := { s with pool := { s.pool with
      flushEnd := ends.foldl (fun t k => tabSet t (m * 8 + k) (now s)) s.pool.flushEnd } }
  match s.pwr.phase with
  | .service =>
    (List.range 8).foldl (fun s k => if v.testBit k ∧ old.testBit k = false then queueFlush (m * 8 + k) s else s) s
  | _ => s

-- NV_READ_DONE (R279)

/-- NV_READ_DONE: the written copies are read back; a match confirms the changes, a mismatch writes again (R279). -/
def doNvReadDone (err : Bool) (page : BitVec 512) (s : State) : State :=
  match s.nvu.page with
  | none => s
  | some p =>
    if p.reading = false then s
    else if err = false ∧ nvMatches p page = true then
      let s := { s with nvu := { s.nvu with page := none, jobs := p.jobs.filterMap nvJobRest ++ s.nvu.jobs } }
      nvKick (p.jobs.foldl nvJobDone s)
    else nvRetry p s

/-- NV_READ_DONE. -/
def execNvReadDone (err : Bool) (page : BitVec 512) (s : State) : Host.Outcome State Fault Refusal :=
  .next (drainPoll (doNvReadDone err page s))

end Sys2Proof.Machine
end

