-- ==== Sys2Proof/Machine/LinkCode.lean ====
section
/-! DEFINITION. The coding of a flit on the lane: link control word, CRC-32, FEC parity and scrambling, and the slots of
items (R165 to R168, R206 to R211). -/

namespace Sys2Proof.Machine

-- Link control word (Table 10.2)

/-- TYPE of a link control word. -/
def lcwType (w : BitVec 64) : Nat := (w.extractLsb' 0 4).toNat
/-- SEQ. -/
def lcwSeq (w : BitVec 64) : Nat := (w.extractLsb' 4 12).toNat
/-- ACK. -/
def lcwAck (w : BitVec 64) : Nat := (w.extractLsb' 16 12).toNat
/-- NAK. -/
def lcwNak (w : BitVec 64) : Bool := w.getLsbD 28
/-- NSEQ. -/
def lcwNseq (w : BitVec 64) : Nat := (w.extractLsb' 29 12).toNat
/-- VCMASK. -/
def lcwVc (w : BitVec 64) : BitVec 15 := w.extractLsb' 41 15
/-- RXLOCK. -/
def lcwRxlock (w : BitVec 64) : Bool := w.getLsbD 56
/-- RETX. -/
def lcwRetx (w : BitVec 64) : Bool := w.getLsbD 57
/-- True when a reserved bit [63:59] is not zero. -/
def lcwReserved (w : BitVec 64) : Bool := decide (w.extractLsb' 59 5 ≠ 0#5)

/-- The link control word of a formed flit. -/
def lcwOf (x : FlitOut) : BitVec 64 :=
  let bit := fun (b : Bool) (k : Nat) => if b then 2 ^ k else 0
  BitVec.ofNat 64 (x.ty + x.seq * 2 ^ 4 + x.ack * 2 ^ 16 + bit x.nak 28 + x.nseq * 2 ^ 29 + x.vcmask.toNat * 2 ^ 41 +
    bit x.rxlock 56 + bit x.retx 57 + bit x.txfull 58)

-- Flit bytes, FEC and scrambler (R206, R209 to R211)

/-- Bytes of a body, byte i in bits [8i+7:8i]. -/
def bodyBytes (b : BitVec 1920) : List Byte := (List.range 240).map (fun i => b.extractLsb' (8 * i) 8)

/-- A body from its bytes. -/
def bodyOf (bs : List Byte) : BitVec 1920 :=
  bs.foldr (fun b (acc : BitVec 1920) => (acc <<< 8) ||| b.setWidth 1920) 0

/-- The 256 bytes of a flit (Table 10.1). -/
def flitBytes (x : FlitOut) : List Byte :=
  let head := leBytes 8 (lcwOf x).toNat ++ bodyBytes x.body ++ [0#8, 0#8, 0#8, 0#8]
  head ++ leBytes 4 (crc32 head).toNat

/-- Multiply by α = 02h in GF(2^8) with the polynomial 11Dh (R209). -/
def rsX (v : Byte) : Byte := (v <<< 1) ^^^ (if v.msb then 0x1D#8 else 0#8)

/-- Multiplication in GF(2^8) with the polynomial 11Dh; `n` bounds the bits of the second factor. -/
def rsMul : Nat → Byte → Byte → Byte
  | 0, _, _ => 0
  | n + 1, a, b => (if b.getLsbD 0 then a else 0#8) ^^^ rsMul n (rsX a) (b >>> 1)

/-- The coefficients of g(x) below its leading one, highest power first (Table 10.4). -/
def rsGen (light : Bool) : List Byte := if light then [0x03#8, 0x02#8] else [0x0F#8, 0x36#8, 0x78#8, 0x40#8]

/-- One message symbol into the parity register, highest power first. -/
def rsStep (g st : List Byte) (m : Byte) : List Byte :=
  let fb := m ^^^ st.headD 0#8
  List.zipWith (fun a c => a ^^^ rsMul 8 fb c) (st.drop 1 ++ [0#8]) g

/-- The parity symbols p_{i,0} to p_{i,r-1} of a message (R209). -/
def rsParity (light : Bool) (msg : List Byte) : List Byte :=
  let g := rsGen light
  msg.foldl (rsStep g) (g.map (fun _ => 0#8))

/-- The codeword of a flit: its bytes, then byte 256 + 4k + i is p_{i,k} (R209). -/
def codeword (light : Bool) (flit : List Byte) : List Byte :=
  let par := (List.range 4).map (fun i => rsParity light ((List.range 64).map (fun j => byteAt flit (4 * j + i))))
  flit ++ (List.range (if light then 2 else 4)).flatMap (fun k => par.map (fun p => byteAt p k))

/-- Wire bytes of a codeword (R209). -/
def wireLen (light : Bool) : Nat := if light then 264 else 272

/-- Decode a received codeword that has symbol errors at the given wire bytes: the number of corrected symbols, or none when
an interleave has more than r/2 and the flit is uncorrectable (R209). Byte n of the wire belongs to interleave n mod 4. -/
def fecDecode (light : Bool) (errs : List Nat) : Option Nat :=
  let l := errs.filter (fun n => decide (n < wireLen light))
  let most := if light then 1 else 2
  if (List.range 4).all (fun i => decide ((l.filter (fun n => n % 4 == i)).length ≤ most)) then some l.length else none

/-- The CRC of a decoded flit is right (R211). -/
def flitCrcOk (flit : BitVec 2048) : Bool :=
  let bs := (List.range 252).map (fun i => flit.extractLsb' (8 * i) 8)
  flit.extractLsb' 2016 32 == crc32 bs

/-- One step of the scrambling sequence: bit 30 - j of the register is b_(k+j) (R210). -/
def scrStep (r : BitVec 31) : BitVec 31 := (r <<< 1) ||| (if r.getLsbD 30 != r.getLsbD 27 then 1#31 else 0#31)

/-- The next eight bits of the sequence as a byte, first bit lowest, and the register after them. The register's
oldest bit, 30, is the bit sent next. -/
def scrByte (r : BitVec 31) : Byte × BitVec 31 :=
  (List.range 8).foldl (fun a i =>
    (a.1 ||| (if a.2.getLsbD 30 then BitVec.ofNat 8 (2 ^ i) else 0#8), scrStep a.2)) (0#8, r)

/-- Scramble bytes from a register on. -/
def scramble : BitVec 31 → List Byte → List Byte
  | _, [] => []
  | r, b :: t => (b ^^^ (scrByte r).1) :: scramble (scrByte r).2 t

/-- The wire image of a flit: bit k of the lane is bit k mod 8 of byte k / 8 (R209, R210). -/
def wireImage (x : FlitOut) : List Byte := scramble (BitVec.allOnes 31) (codeword x.light (flitBytes x))

-- Slots (R165 to R168)

/-- Slot k of a body. -/
def slotAt (b : BitVec 1920) (k : Nat) : BitVec 128 := b.extractLsb' (128 * k) 128

/-- Bytes a to a + n - 1 of a slot as a number (R8). -/
def slotNat (w : BitVec 128) (a n : Nat) : Nat := (w.extractLsb' (8 * a) (8 * n)).toNat

/-- The header of a request slot (Table 08.2). -/
def slotHdr (w : BitVec 128) : Hdr :=
  { sid := w.extractLsb' 16 12, tag := w.extractLsb' 32 16, kidx := w.extractLsb' 48 15, addr := w.extractLsb' 64 40 }

/-- Four data slots from slot k on (R167). -/
def slotLine (b : BitVec 1920) (k : Nat) : Line := b.extractLsb' (128 * k) 512

/-- Slots of a REQ opcode (Table 08.1); none for a reserved one. -/
def reqSlots (opc : Nat) : Option Nat :=
  match opc with
  | 1 => some 1
  | 2 => some 5
  | 3 => some 6
  | 4 => some 1
  | 5 => some 6
  | 6 => some 1
  | 7 => some 6
  | 8 => some 1
  | 9 => some 1
  | _ => none

/-- The request type of an opcode 01h to 07h. -/
def reqOpOf (opc : Nat) : Option ReqOp :=
  match opc with
  | 1 => some .readLine
  | 2 => some .writeLine
  | 3 => some .writePartial
  | 4 => some .readRaw
  | 5 => some .writeRaw
  | 6 => some .readTag
  | 7 => some .writeTag
  | _ => none

/-- The header slot of a response (Table 08.3), or a partner item as it stands. -/
def rspSlot (r : Rsp) : BitVec 128 :=
  if rspPartner r then r.raw
  else
    slotOfBytes ([r.op, r.status, if r.psn then 1#8 else 0#8, 0#8] ++ leBytes 2 r.sid.toNat ++ leBytes 2 r.tag.toNat ++
      leBytes 8 r.extra.toNat)

/-- Slots that a response takes. -/
def rspSlots (r : Rsp) : Nat := if r.data.isSome then 5 else 1

end Sys2Proof.Machine
end

