-- ==== Sys2Proof/Machine/Link.lean ====
section
/-! DEFINITION. The receive side of a link: lock, acknowledgements and NAKs, flits of every type, items by slot,
negotiation and heartbeats (R212 to R228, R231 to R237, R241, R242, R249, R366). -/

namespace Sys2Proof.Machine

/-- A link whose receiver runs: at a served rate, and BIST does not hold it down (R366, Table 14.3). -/
def linkHears (s : State) (p : Nat) : Bool :=
  let x := linkOf s p
  decide (x.rate ≠ 3) && !x.bistDown && s.clk.running

/-- Count symbols that the FEC corrected in a flit. -/
def fecCount (p n : Nat) (s : State) : State := countUp 0x6000 7 0 n (countUp (linkIdx p 1) 4 0 n s)

/-- An LCW error: EV_LCW_ERROR, and the link goes down with cause 2 (R218). -/
def lcwError (p cause : Nat) (w : BitVec 64) (s : State) : State :=
  linkDown p 2 (raise .lcwError (srcLink p 0) cause (w.toNat % 2 ^ 32) (w.toNat / 2 ^ 32) s)

-- Rate and lock (R212)

/-- Symbol lock is gained at the boundary under test; a loss whose t_LOS has run out is too late (R32, R212, R213). -/
def lockGain (p : Nat) (s : State) : State :=
  linkMod p (fun x => { x with lock := true, run := 0, lost := x.lost.filter (fun l => framesOver s l.1 l.2) }) s

/-- The loss that t_LOS runs from: the frame and the T_LOS in force (R213). -/
def losStart (s : State) : Nat × Nat := (frameNo s, cfgVal s 0x2090 1 0)

/-- Symbol lock is lost: t_LOS runs from the first loss, and the search starts again at the boundary just lost (R212,
R213). -/
def lockLose (p : Nat) (s : State) : State :=
  let s := sumUp .linkLockLost (srcLink p 0) (if (linkOf s p).light then 1 else 0) 0 0 (count1 (linkIdx p 1) 7 0 s)
  linkMod p (fun y => { y with
    lock := false, run := 0
    lost := y.lost.orElse (fun _ => if y.up || y.negOpen then some (losStart s) else none) }) s

/-- An uncorrectable flit: while lock is held it is counted, a NAK becomes owed and the fourth in a row loses lock;
while lock is searched the search moves on by one bit (R211, R212, R217). -/
def flitLost (p : Nat) (bad nak : State → State) (s : State) : State :=
  let x := linkOf s p
  if x.lock then
    let s := nak (bad s)
    if x.run + 1 < 4 then linkMod p (fun y => { y with run := x.run + 1 }) s else lockLose p s
  else linkPut p { x with run := 0, bitPos := (x.bitPos + 1) % (8 * wireLen x.light) } s

/-- A decodable flit: while lock is held it goes on with its corrected symbols counted; while lock is searched it is
discarded, until the eighth in a row gives lock and is the first to go on (R212). -/
def flitGood (p n : Nat) (go : State → State) (s : State) : State :=
  let x := linkOf s p
  if x.lock then go (fecCount p n (linkPut p { x with run := 0 } s))
  else if x.run + 1 < 8 then linkPut p { x with run := x.run + 1 } s
  else go (fecCount p n (lockGain p s))

/-- RATE_CHANGE: LANE_RATE follows rate; a link that is not down goes down with cause 6 (R366). -/
def doRateChange (p rate : Nat) (s : State) : State :=
  let x := linkOf s p
  if x.rate = rate then s
  else
    let s := linkPut p { x with rate := rate, lock := x.lock && decide (rate ≠ 3) } s
    if x.up ∨ x.negOpen then linkDown p 6 s else s

/-- RATE_CHANGE. -/
def execRateChange (p : Fin 128) (rate : BitVec 2) (s : State) : Host.Outcome State Fault Refusal :=
  .next (doRateChange p.val rate.toNat s)

/-- LOCK_GAINED: eight decodable flits at a boundary; none of them need have come as a command of its own (R212). -/
def doLockGained (p : Nat) (s : State) : State :=
  let x := linkOf s p
  if x.rate = 3 ∨ x.bistDown = true ∨ s.clk.running = false then s
  else lockGain p s

/-- LOCK_GAINED. -/
def execLockGained (p : Fin 128) (s : State) : Host.Outcome State Fault Refusal := .next (doLockGained p.val s)

/-- LOCK_LOST: four uncorrectable flits in a row; none of them need have come as a command of its own (R212, R213). -/
def doLockLost (p : Nat) (s : State) : State := if (linkOf s p).lock then lockLose p s else s

/-- LOCK_LOST. -/
def execLockLost (p : Fin 128) (s : State) : Host.Outcome State Fault Refusal := .next (doLockLost p.val s)

/-- T_LOS_EXPIRY: cycle 0 of frame F + 1 + T_LOS after a loss in frame F, where the lock has not come back before that
cycle (R32, R213). -/
def doTLosExpiry (p : Nat) (s : State) : State :=
  match (linkOf s p).lost with
  | none => s
  | some (f, t) => if framesEnd s f t then linkDown p 1 s else s

/-- T_LOS_EXPIRY. -/
def execTLosExpiry (p : Fin 128) (s : State) : Host.Outcome State Fault Refusal := .next (doTLosExpiry p.val s)

-- ACK and NAK fields (R218, R223, R226)

/-- Distance from b to a modulo 4,096. -/
def seqDist (a b : Nat) : Nat := (a + 4096 - b) % 4096

/-- Flits not yet acknowledged, NXT - UNA. -/
def seqOpen (x : LinkSt) : Nat := seqDist x.nxt x.una

/-- The LCW error of an ACK and NAK pair, if any: 1 ACK, 2 NSEQ. -/
def ackError (x : LinkSt) (w : BitVec 64) : Option Nat :=
  let d := seqDist (lcwAck w + 1) x.una
  if seqOpen x < d ∧ d ≤ 2048 then some 1
  else if lcwNak w then
    let k := seqDist (lcwNseq w) x.una
    if k ≤ seqOpen x then (if (lcwAck w + 1) % 4096 = lcwNseq w then none else some 2)
    else if 2049 ≤ k then none
    else some 2
  else none

/-- Apply an ACK that is not stale: acknowledged flits leave the replay buffer. -/
def ackTake (x : LinkSt) (ack : Nat) : LinkSt :=
  let d := seqDist (ack + 1) x.una
  if d = 0 ∨ seqOpen x < d then x
  else
    let una := (x.una + d) % 4096
    let replay := match x.replay with
      | some r => if una = x.nxt then none else if seqDist r x.una < d then some una else some r
      | none => none
    { x with una := una, held := x.held.drop d, replay := replay, expiries := 0 }

/-- The count "in the frame" of NAKs: sent with the first NSEQ, and received (Table 10.11). -/
def nakSum (p : Nat) (sent : Option Nat) (s : State) : State :=
  let k := sumKey .linkNak (srcLink p 1)
  let f := (tabFind s.ev.sums k).getD {}
  let f := match sent with
    | some n => { f with count := f.count + 1, a := if f.count = 0 then n else f.a }
    | none => { f with b := f.b + 1 }
  sumSet k f s

/-- The count "in the frame" of flits that fail: uncorrectable, or CRC (Table 10.11). -/
def badSum (p : Nat) (crc : Bool) (s : State) : State :=
  let k := sumKey .fecUncorrectable (srcLink p 0)
  let f := (tabFind s.ev.sums k).getD {}
  let f := if crc then { f with a := f.a + 1 } else { f with count := f.count + 1 }
  sumSet k f s

/-- A NAK in the cycle of a replay-timer expiry: the expiry is not counted (R226). -/
def timerUndo (p : Nat) (s : State) : State :=
  match (linkOf s p).timerAt with
  | none => s
  | some (c, n) =>
    if c ≠ now s then s
    else
      let k := sumKey .linkReplayTimer (srcLink p 1)
      let f := (tabFind s.ev.sums k).getD {}
      let sums := if f.count ≤ 1 then tabDel s.ev.sums k else tabSet s.ev.sums k { f with count := f.count - 1 }
      let s := { s with ev := { s.ev with sums := sums } }
      let s := regPut (linkIdx p 2) 6 0 (regVal s (linkIdx p 2) 6 0 - 1) s
      linkMod p (fun x => { x with expiries := n, timerAt := none }) s

/-- Act on a valid NAK: replay from NSEQ (R223). A NAK whose NSEQ lies behind UNA is stale. -/
def nakTake (p : Nat) (before : LinkSt) (w : BitVec 64) (s : State) : State :=
  if lcwNak w = true ∧ seqDist (lcwNseq w) before.una ≤ seqOpen before then
    let s := timerUndo p (nakSum p none (count1 (linkIdx p 2) 5 0 s))
    let t := now s
    linkMod p (fun x => { x with
      replay := if lcwNseq w = x.nxt then none else some (lcwNseq w)
      nakAt := some t }) s
  else s

/-- Process the ACK and NAK fields of a flit. -/
def ackFields (p : Nat) (w : BitVec 64) (s : State) : State :=
  let x := linkOf s p
  nakTake p x w (linkPut p (ackTake x (lcwAck w)) s)

/-- A NAK becomes owed for e, unless one has been sent and no replay has come since (R220). -/
def nakWant (x : LinkSt) : LinkSt := if x.nakSent && !x.retxSeen then x else { x with nakOwed := true }

/-- RXLOCK of a good flit lets DATA flits go (R215). -/
def rxlockNote (p : Nat) (w : BitVec 64) (s : State) : State :=
  linkMod p (fun x => { x with mayData := x.mayData || lcwRxlock w }) s

/-- The LCW error that a flit with a good CRC can have on any link: 3 reserved bits, 5 RETX in a type other than DATA
(R218). -/
def lcwForm (data : Bool) (w : BitVec 64) : Option Nat :=
  if lcwReserved w then some 3
  else if data = false ∧ lcwRetx w = true then some 5
  else none

/-- The LCW error of a flit that is received while the link is up (R218, Table 10.7). `data` is true for DATA, `acks`
where the type carries ACK and NAK. -/
def lcwCheck (x : LinkSt) (data acks : Bool) (w : BitVec 64) : Option Nat :=
  match lcwForm data w with
  | some c => some c
  | none =>
    match (if acks then ackError x w else none) with
    | some c => some c
    | none => if data = false ∧ 2049 ≤ seqDist (lcwSeq w) x.e then some 4 else none

-- Items by slot (R170, R227, R241, R242)

/-- The VC bits of an item's slots all equal its header's. -/
def vcSame (vcm : BitVec 15) (k n : Nat) : Bool :=
  (List.range n).all (fun i => vcm.getLsbD (k + i) == vcm.getLsbD k)

/-- The tag of an item: bytes 4 and 5 of a request, 6 and 7 of a response (Tables 08.2, 08.3). -/
def slotTag (w : BitVec 128) : BitVec 16 :=
  if 0x81 ≤ slotNat w 0 1 then w.extractLsb' 48 16 else w.extractLsb' 32 16

/-- The credit cost of a request item by its opcode (Table 08.1). -/
def opcCost (opc : Nat) : Nat := if 1 ≤ opc ∧ opc ≤ 8 then (reqSlots opc).getD 0 else 0

/-- A protocol error at slot k. An item cut after its header gets the fate NOT_RECEIVED, unless its tag belongs to an
earlier request (Table 11.7). -/
def slotCut (p : Fin 128) (cause k : Nat) (w : BitVec 128) (s : State) : State :=
  let opc := slotNat w 0 1
  let tag := slotTag w
  let known := (tagsOf s (.link p)).any (fun t => t.1 == tag)
  let s := if cause = 0 then s else creditCut (.link p) (slotHdr w).sid (opcCost opc) s
  let s := slotError (.link p) cause k opc tag.toNat s
  if (cause = 1 ∨ cause = 2) ∧ 1 ≤ opc ∧ opc ≤ 8 ∧ known = false then
    linkFate p.val { tag := tag, fate := 3, status := 0xFF } s
  else s

/-- The CREDIT_RETURN entries of an item, in order; an overrun takes the link down (R242). -/
def creditReturn (p : Fin 128) : List (BitVec 16 × BitVec 16) → State → State
  | [], s => s
  | (sid, count) :: t, s =>
    if sid.getLsbD 15 then creditReturn p t s
    else
      let sid12 := sid.extractLsb' 0 12
      let k := acctKey p.val sid12.toNat
      match tabFind s.accts k with
      | none => if count = 0#16 then creditReturn p t s else creditOverrun p sid12 count.toNat none s
      | some a =>
        let adv := (count.toNat + 65536 - a.returned) % 65536
        if acctOut a < adv then creditOverrun p sid12 adv none s
        else
          let a := { a with received := (a.received + adv) % 65536, returned := count.toNat }
          creditReturn p t (creditSettle p.val k { s with accts := tabSet s.accts k a })

/-- CREDIT_RETURN: an item on a link that is up (R242). -/
def doCreditReturn (p : Fin 128) (es : List (BitVec 16 × BitVec 16)) (s : State) : State :=
  if (linkOf s p.val).up then creditReturn p es s else s

/-- CREDIT_RETURN. -/
def execCreditReturn (p : Fin 128) (es : List (BitVec 16 × BitVec 16)) (s : State) : Host.Outcome State Fault Refusal :=
  .next (doCreditReturn p es s)

/-- RESYNC_DONE: the list with this DROP_COUNT is acted on and its entries go; any other is counted (R249). -/
def doResyncDone (p drop : Nat) (s : State) : State :=
  let x := linkOf s p
  if x.up = false then s
  else if x.resync = 3 ∧ drop = regVal s (linkIdx p 1) 8 0 % 65536 then linkPut p { x with resync := 0, kept := [] } s
  else count1 (linkIdx p 3) 8 0 s

/-- RESYNC_DONE. -/
def execResyncDone (p : Fin 128) (dropCount : BitVec 16) (s : State) : Host.Outcome State Fault Refusal :=
  .next (doResyncDone p.val dropCount.toNat s)

/-- The entries of a CREDIT_RETURN slot (R168). -/
def slotEntries (w : BitVec 128) : List (BitVec 16 × BitVec 16) :=
  [2, 6, 10].map (fun a => (w.extractLsb' (8 * a) 16, w.extractLsb' (8 * a + 16) 16))

/-- One request item of a flit, header in slot k. -/
def slotRequest (p : Fin 128) (body : BitVec 1920) (k : Nat) (s : State) : State :=
  let w := slotAt body k
  let h := slotHdr w
  let opc := slotNat w 0 1
  if opc = 9 then creditReturn p (slotEntries w) s
  else if opc = 8 then fenceReceive (.link p) h k s
  else
    match reqOpOf opc with
    | none => s
    | some op =>
      let psn := w.getLsbD 8 && (decide (op = .writeLine) || decide (op = .writePartial))
      let cells := opCells op
      let ext : Side := if cells = 6 then (slotAt body (k + 1)).extractLsb' 0 64 else 0
      let data : Line := if cells = 6 then slotLine body (k + 2) else if cells = 5 then slotLine body (k + 1) else 0
      reqReceive (.link p) op h psn ext data k s

/-- Slots of an item by its opcode, on either virtual channel; a reserved opcode has none (Table 08.1). -/
def opcSlots (opc : Nat) : Option Nat :=
  if opc = 0 then some 1
  else if opc = 0x81 then some 5
  else if (0x82 ≤ opc ∧ opc ≤ 0x85) ∨ (0x88 ≤ opc ∧ opc ≤ 0x8C) then some 1
  else reqSlots opc

/-- The items after a cut are not performed; each whose tag is not in use is reported NOT_RECEIVED (R170, Table 11.7). -/
def cutRest : Nat → Fin 128 → BitVec 1920 → Nat → State → State
  | 0, _, _, _, s => s
  | n + 1, p, body, k, s =>
    if 15 ≤ k then s
    else
      let w := slotAt body k
      let opc := slotNat w 0 1
      let tag := (slotHdr w).tag
      let known := (tagsOf s (.link p)).any (fun t => t.1 == tag)
      let s := creditCut (.link p) (slotHdr w).sid (opcCost opc) s
      let s := if 1 ≤ opc ∧ opc ≤ 8 ∧ known = false then linkFate p.val { tag := tag, fate := 3, status := 0xFF } s else s
      match opcSlots opc with
      | some c => cutRest n p body (k + c) s
      | none => s

/-- The slots of an accepted flit from slot k on, in order, while the link stays up; `n` bounds the slots left. -/
def slotRun : Nat → Fin 128 → BitVec 15 → BitVec 1920 → Nat → State → State
  | 0, _, _, _, _, s => s
  | n + 1, p, vcm, body, k, s =>
    if 15 ≤ k then s
    else if (linkOf s p.val).up = false then cutRest (n + 1) p body k s
    else
      let w := slotAt body k
      let opc := slotNat w 0 1
      let rsp := vcm.getLsbD k
      if opc = 0 then slotRun n p vcm body (k + 1) s
      else
        match reqSlots opc with
        | some c =>
          if 15 < k + c then slotCut p 1 k w s
          else if rsp = true ∨ vcSame vcm k c = false then cutRest n p body (k + c) (slotCut p 2 k w s)
          else slotRun n p vcm body (k + c) (slotRequest p body k s)
        | none =>
          if opc = 0x8C ∧ rsp = true then slotRun n p vcm body (k + 1) (doResyncDone p.val (slotNat w 6 2) s)
          else
            match opcSlots opc with
            | some c => cutRest n p body (k + c) (slotCut p (if rsp then 0 else 2) k w s)
            | none => slotCut p 0 k w s

-- Flits

/-- A DATA flit in sequence: accepted, covered by a later ACK, its slots to the decoder (Table 10.7, R219). -/
def dataAccept (p : Fin 128) (w : BitVec 64) (body : BitVec 1920) (s : State) : State :=
  let s := count1 (linkIdx p.val 4) 5 0 s
  let s := linkMod p.val (fun x => { x with
    e := (x.e + 1) % 4096, ack := x.e, nakOwed := false, nakSent := false, retxSeen := false
    uncovered := x.uncovered + 1
    ackDue := x.ackDue || decide (x.force.depth / 4 ≤ x.uncovered + 1) }) s
  slotRun 15 p (lcwVc w) body 0 s

/-- A flit of link p reaches its receiver: `errs` are the wire bytes with a symbol error. What an uncorrectable one and
a good one do is R212's; `go` handles one that is passed on. -/
def rxFlit (p : Nat) (errs : List Nat) (go : State → State) (s : State) : State :=
  if linkHears s p = false then s
  else
    match fecDecode (linkOf s p).light errs with
    | none =>
      flitLost p (fun s => badSum p false (count1 (linkIdx p 1) 5 0 s))
        (fun s => if (linkOf s p).up then linkMod p nakWant s else s) s
    | some n => flitGood p n go s

/-- A DATA flit that is passed on: ACK and NAK first, then the slots where the flit is in sequence (Table 10.7, R214). -/
def rxData (p : Fin 128) (w : BitVec 64) (body : BitVec 1920) (s : State) : State :=
    let x := linkOf s p.val
    if x.up = false then
      let s := count1 (linkIdx p.val 1) 0x0B 0 s
      match lcwForm true w with
      | some c => lcwError p.val c w s
      | none => s
    else
      match lcwCheck x true true w with
      | some c => lcwError p.val c w s
      | none =>
        let s := rxlockNote p.val w (ackFields p.val w s)
        let d := seqDist (lcwSeq w) x.e
        if d = 0 then dataAccept p w body s
        else if d ≤ 2048 then
          linkMod p.val (fun y =>
            let y := nakWant y
            { y with retxSeen := y.retxSeen || lcwRetx w }) s
        else
          linkMod p.val (fun y => { y with retxSeen := y.retxSeen || lcwRetx w }) (count1 (linkIdx p.val 2) 8 0 s)

/-- RX_DATA_FLIT. -/
def doRxDataFlit (p : Fin 128) (errs : List Nat) (w : BitVec 64) (body : BitVec 1920) (s : State) : State :=
  rxFlit p.val errs (rxData p w body) s

/-- RX_DATA_FLIT. -/
def execRxDataFlit (p : Fin 128) (errs : List Nat) (lcw : BitVec 64) (slots : BitVec 1920) (s : State) :
    Host.Outcome State Fault Refusal := .next (doRxDataFlit p errs lcw slots s)

/-- A flit of type ACK_ONLY, IDLE or HEARTBEAT: its fields, and a NAK where SEQ is ahead; `go` handles a good one. -/
def rxPlain (p : Nat) (errs : List Nat) (acks : Bool) (w : BitVec 64) (go : State → State) (s : State) : State :=
  rxFlit p errs (fun s =>
    let x := linkOf s p
    if x.up = false then
      match lcwForm false w with
      | some c => lcwError p c w s
      | none => s
    else
      match lcwCheck x false acks w with
      | some c => lcwError p c w s
      | none =>
        let s := rxlockNote p w (if acks then ackFields p w s else s)
        go (if seqDist (lcwSeq w) x.e = 0 then s else linkMod p nakWant s)) s

/-- RX_ACK_ONLY (R217, R218). -/
def doRxAckOnly (p : Nat) (errs : List Nat) (w : BitVec 64) (s : State) : State := rxPlain p errs true w id s

/-- RX_ACK_ONLY. -/
def execRxAckOnly (p : Fin 128) (errs : List Nat) (lcw : BitVec 64) (s : State) : Host.Outcome State Fault Refusal :=
  .next (doRxAckOnly p.val errs lcw s)

/-- RX_IDLE: no ACK or NAK field counts (R208, R217). -/
def doRxIdle (p : Nat) (errs : List Nat) (w : BitVec 64) (s : State) : State := rxPlain p errs false w id s

/-- RX_IDLE. -/
def execRxIdle (p : Fin 128) (errs : List Nat) (lcw : BitVec 64) (s : State) : Host.Outcome State Fault Refusal :=
  .next (doRxIdle p.val errs lcw s)

/-- The first eight bytes of the digest in force (R236). -/
def ownDigest64 (s : State) : BitVec 64 := s.commit.digest.setWidth 64

/-- The body of a partner's HEARTBEAT: digest and generation are recorded; a differing digest raises EV_PEER_DIGEST once
per link up (R237). -/
def peerNote (p : Nat) (dig : BitVec 64) (gen : BitVec 32) (s : State) : State :=
  let s := regPut (linkIdx p 3) 7 0 gen.toNat (regPut (linkIdx p 3) 6 0 dig.toNat s)
  if dig ≠ 0#64 ∧ dig ≠ ownDigest64 s ∧ (linkOf s p).peerNoted = false then
    raise .peerDigest (srcLink p 2) (dig.toNat % 2 ^ 32) (dig.toNat / 2 ^ 32) gen.toNat
      (linkMod p (fun x => { x with peerNoted := true }) s)
  else s

/-- RX_HEARTBEAT (R217, R237). -/
def doRxHeartbeat (p : Nat) (errs : List Nat) (w : BitVec 64) (dig : BitVec 64) (gen : BitVec 32) (s : State) : State :=
  rxPlain p errs true w (peerNote p dig gen) s

/-- RX_HEARTBEAT. -/
def execRxHeartbeat (p : Fin 128) (errs : List Nat) (lcw : BitVec 64) (digest64 : BitVec 64) (cfgGen : BitVec 32) (s : State) :
    Host.Outcome State Fault Refusal := .next (doRxHeartbeat p.val errs lcw digest64 cfgGen s)

/-- RX_BAD_FLIT: an uncorrectable flit, or one that decodes and whose CRC fails: it is discarded whole, and a NAK
becomes owed. A CRC failure does not count towards lock loss (R211, R212, R217). -/
def doRxBadFlit (p : Nat) (errs : List Nat) (flit : BitVec 2048) (s : State) : State :=
  rxFlit p errs (fun s =>
    if flitCrcOk flit then s
    else
      let s := badSum p true (count1 (linkIdx p 1) 6 0 s)
      if (linkOf s p).up then linkMod p nakWant s else s) s

/-- RX_BAD_FLIT. -/
def execRxBadFlit (p : Fin 128) (errs : List Nat) (flit : BitVec 2048) (s : State) : Host.Outcome State Fault Refusal :=
  .next (doRxBadFlit p.val errs flit s)

/-- A flit of a type that carries no ACK or NAK and is sent while the link is not up: its LCW is checked, then `go` (R208,
R218). -/
def rxNegotiate (p : Nat) (errs : List Nat) (w : BitVec 64) (go : State → State) (s : State) : State :=
  rxFlit p errs (fun s =>
    match lcwForm false w with
    | some c => lcwError p c w s
    | none => go s) s

/-- RX_DOWN: cause 5, while the link is up or a negotiation is outstanding (R213). -/
def doRxDown (p : Nat) (errs : List Nat) (w : BitVec 64) (s : State) : State :=
  rxNegotiate p errs w (fun s => if (linkOf s p).up ∨ (linkOf s p).negOpen then linkDown p 5 s else s) s

/-- RX_DOWN. -/
def execRxDown (p : Fin 128) (errs : List Nat) (s : State) (lcw : BitVec 64 := 0) : Host.Outcome State Fault Refusal :=
  .next (doRxDown p.val errs lcw s)

/-- RX_RESERVED_TYPE: an LCW error, cause 0 (R208, R218). -/
def doRxReservedType (p : Nat) (errs : List Nat) (w : BitVec 64) (s : State) : State := rxFlit p errs (lcwError p 0 w) s

/-- RX_RESERVED_TYPE. -/
def execRxReservedType (p : Fin 128) (errs : List Nat) (lcw : BitVec 64) (s : State) : Host.Outcome State Fault Refusal :=
  .next (doRxReservedType p.val errs lcw s)

-- Negotiation (R231 to R235)

/-- Replay places of link p without a bad row: 8 rows a place in macro p (Table 14.4, Table 01.6; log 21). -/
def replayPlaces (s : State) (p : Nat) : Nat :=
  ((List.range 128).filter (fun k => !s.rep.badRows.any (fun r => r / 8 == p * 128 + k))).length

/-- The engine's own values for Table 11.4 from the configuration in force; the depth is no larger than the usable places
(Table 14.4). -/
def ownVals (s : State) (p : Nat) : OwnVals :=
  { light := decide (cfgVal s 0x2090 6 0 = 1), classes := cfgVal s 0x20A0 4 0,
    depth := min (replayPlaces s p) (cfgVal s 0x2090 5 0), maxTags := cfgVal s 0x20A0 3 0, tAck := cfgVal s 0x2090 2 0,
    hbUs := cfgVal s 0x20A0 1 0, hbMiss := cfgVal s 0x20A0 2 0, tReplay := cfgVal s 0x2090 3 0,
    replayLimit := cfgVal s 0x2090 4 0, linkGen := cfgGen s }

/-- The values for an offer: those of its negotiation where it repeats one, else those in force (R234). -/
def ownFor (s : State) (p : Nat) (negId : BitVec 32) : OwnVals :=
  match (linkOf s p).own with
  | some (n, v) => if n = negId then v else ownVals s p
  | none => ownVals s p

/-- The RESULT of an offer (Tables 11.2 to 11.4). -/
def offerResult (v : OwnVals) (o : Offer) : Nat :=
  if o.resv = true ∨ o.versions.getLsbD 0 = true ∨ 2 ≤ o.flags.toNat ∨ o.classes &&& 0xF1#8 ≠ 0#8 ∨ o.depth.toNat < 16 ∨
      128 < o.depth.toNat ∨ o.maxTags = 0#16 ∨ 4096 < o.maxTags.toNat ∨ o.tAck.toNat < 250 ∨ 16000 < o.tAck.toNat ∨
      o.hbUs.toNat < 10 ∨ 10000 < o.hbUs.toNat then 3
  else if o.versions.getLsbD 1 = false then 1
  else if o.classes.toNat &&& v.classes = 0 then 2
  else 0

/-- The common mode that an offer leads to (Table 11.4, R234). -/
def offerVals (v : OwnVals) (rate : Nat) (o : Offer) : NegVals :=
  { version := 1, light := v.light && o.flags.getLsbD 0 && decide (rate = 0),
    classes := o.classes.toNat &&& v.classes, depth := min v.depth o.depth.toNat,
    maxTags := min o.maxTags.toNat v.maxTags, tAck := max o.tAck.toNat v.tAck,
    hbUs := max o.hbUs.toNat v.hbUs, negId := o.negId, linkGen := v.linkGen,
    hbMiss := v.hbMiss, tReplay := v.tReplay, replayLimit := v.replayLimit, peerId := o.partnerId }

/-- A refused offer: EV_NEG_REFUSED, counted, and a PARAM_SELECT with the RESULT (Table 11.5). -/
def offerRefuse (p res : Nat) (v : OwnVals) (o : Offer) (s : State) : State :=
  let s := raise .negRefused (srcLink p 2) res o.versions.toNat o.classes.toNat (count1 (linkIdx p 3) 8 0 s)
  linkMod p (fun x => { x with
    select := none, selSent := false, own := some (o.negId, v)
    selectDue := x.selectDue ++ [(res, { negId := o.negId, linkGen := v.linkGen })] }) s

/-- An accepted offer: the values of the negotiation, the first ones for a repeated NEG_ID (R234). -/
def offerAccept (p : Nat) (v : OwnVals) (o : Offer) (s : State) : State :=
  let s := regPut (linkIdx p 3) 5 0 o.partnerId.toNat s
  linkMod p (fun x =>
    let n := match x.select with
      | some u => if u.negId = o.negId then u else offerVals v x.rate o
      | none => offerVals v x.rate o
    { x with select := some n, selSent := x.selSent && decide (x.select = some n), own := some (o.negId, v)
             selectDue := x.selectDue ++ [(0, n)] }) s

/-- RX_PARAM_OFFER: each offer is answered while the link is not up; one while it is up takes it down with cause 6 (R231,
R233, R235). Until the dictionary is served no offer is answered (Table 13.13). -/
def rxOffer (p : Nat) (o : Offer) (s : State) : State :=
  if s.pwr.stage ≠ .served then s
  else if (linkOf s p).up then linkDown p 6 s
  else
    let s := linkMod p (fun x => { x with negOpen := true, downOn := false }) s
    let v := ownFor s p o.negId
    let res := offerResult v o
    if res = 0 then offerAccept p v o s else offerRefuse p res v o s

/-- RX_PARAM_OFFER. -/
def doRxParamOffer (p : Nat) (errs : List Nat) (w : BitVec 64) (o : Offer) (s : State) : State :=
  rxNegotiate p errs w (rxOffer p o) s

/-- RX_PARAM_OFFER. -/
def execRxParamOffer (p : Fin 128) (errs : List Nat) (o : Offer) (s : State) (lcw : BitVec 64 := 0) :
    Host.Outcome State Fault Refusal := .next (doRxParamOffer p.val errs lcw o s)

/-- True when a confirm repeats the values of a PARAM_SELECT (R232). -/
def confirmMatches (v : NegVals) (c : Confirm) : Bool :=
  decide (c.version.toNat = v.version ∧ c.flags = (if v.light then 1#8 else 0#8) ∧ c.classes.toNat = v.classes ∧
    c.depth.toNat = v.depth ∧ c.maxTags.toNat = v.maxTags ∧ c.tAck.toNat = v.tAck ∧ c.hbUs.toNat = v.hbUs ∧
    c.negId = v.negId)

/-- The link comes up (R231, R234, R215). A switch to LIGHT starts a new search for lock. -/
def linkUp (p : Nat) (v : NegVals) (s : State) : State :=
  let s := regPut (linkIdx p 0) 0x0F 0 v.linkGen s
  let los := losStart s
  let s := linkMod p (fun x => { x with
    up := true, first := true, force := v, negOpen := false, select := none, selSent := false, selectDue := [], own := none
    downOn := false, downLeft := 0, light := v.light, lock := x.lock && !v.light
    lost := if v.light then some los else none
    run := 0, mayData := false, resync := 1, hbCount := 0, peerNoted := false }) s
  raise .linkUp (srcLink p 2) v.linkGen ((if v.light then 1 else 0) + 256 * v.depth) v.maxTags s

/-- A PARAM_CONFIRM that is passed on (Table 11.5). -/
def rxConfirm (p : Nat) (c : Confirm) (s : State) : State :=
  if s.pwr.stage ≠ .served then s
  else
    let x := linkOf s p
    match x.selSent, x.select with
    | true, some v => if confirmMatches v c then linkUp p v s else linkDown p 6 s
    | _, _ => count1 (linkIdx p 3) 8 0 s

/-- RX_PARAM_CONFIRM. -/
def doRxParamConfirm (p : Nat) (errs : List Nat) (w : BitVec 64) (c : Confirm) (s : State) : State :=
  rxNegotiate p errs w (rxConfirm p c) s

/-- RX_PARAM_CONFIRM. -/
def execRxParamConfirm (p : Fin 128) (errs : List Nat) (c : Confirm) (s : State) (lcw : BitVec 64 := 0) :
    Host.Outcome State Fault Refusal := .next (doRxParamConfirm p.val errs lcw c s)

/-- T_NEG_EXPIRY: no matching PARAM_CONFIRM came within T_NEG of the PARAM_SELECT (R235). -/
def doTNegExpiry (p : Nat) (s : State) : State :=
  let x := linkOf s p
  if x.negOpen ∧ x.selSent then linkDown p 6 s else s

/-- T_NEG_EXPIRY. -/
def execTNegExpiry (p : Fin 128) (s : State) : Host.Outcome State Fault Refusal := .next (doTNegExpiry p.val s)

/-- HB_LOST: EV_HB_LOST, counted, and the link goes down with cause 6 (R237). -/
def doHbLost (p : Nat) (s : State) : State :=
  let x := linkOf s p
  if x.up then
    linkDown p 6 (raise .hbLost (srcLink p 2) x.force.hbMiss x.force.hbUs 0 (count1 (linkIdx p 3) 0x0B 0 s))
  else s

/-- HB_LOST. -/
def execHbLost (p : Fin 128) (s : State) : Host.Outcome State Fault Refusal := .next (doHbLost p.val s)

end Sys2Proof.Machine
end

