-- ==== Sys2Proof/Machine/LinkTx.lean ====
section
/-! DEFINITION. The transmit side of a link: the next flit, replay, the keeper's timers, the RESYNC list and grants that
wait (R208, R214 to R216, R219 to R226, R236, R240, R245 to R247). -/

namespace Sys2Proof.Machine

/-- The window is full: D flits are held (R222). -/
def winFull (x : LinkSt) : Bool := decide (x.force.depth ≤ x.held.length)

/-- Put the flit that was formed on the lane. -/
def flitSend (p : Nat) (o : FlitOut) (s : State) : State := linkMod p (fun x => { x with txLast := some o }) s

/-- A flit that carries no sequence field, in the mode given (Table 10.3). -/
def plainFlit (x : LinkSt) (ty : Nat) (body : BitVec 1920) (light : Bool) : FlitOut :=
  { ty := ty, body := body, rxlock := x.lock, light := light }

/-- An ack-bearing flit with the fields that the keeper holds now (R219, R220, R222). -/
def ackFlit (x : LinkSt) (ty seq : Nat) (vcm : BitVec 15) (body : BitVec 1920) (retx : Bool) : FlitOut :=
  { ty := ty, seq := seq, ack := x.ack, nak := x.nakOwed, nseq := if x.nakOwed then x.e else 0, vcmask := vcm,
    rxlock := x.lock, retx := retx, txfull := winFull x, body := body, light := x.light }

/-- Send an ack-bearing flit: accepted flits are covered, and an owed NAK has gone out (R219, R220). -/
def ackSend (p : Nat) (ty seq : Nat) (vcm : BitVec 15) (body : BitVec 1920) (retx : Bool) (s : State) : State :=
  let x := linkOf s p
  let s := if x.nakOwed then nakSum p (some x.e) (count1 (linkIdx p 2) 4 0 s) else s
  let s := flitSend p (ackFlit x ty seq vcm body retx) s
  linkMod p (fun y => { y with
    uncovered := 0, ackDue := false, nakOwed := false, nakSent := y.nakSent || y.nakOwed
    retxSeen := y.retxSeen && !y.nakOwed }) s

/-- The PARAM_SELECT body (Table 11.3). -/
def selectBody (s : State) (p res : Nat) (v : NegVals) : BitVec 1920 :=
  let f : List Byte :=
    if res = 0 then
      leBytes 1 v.version ++ leBytes 1 (if v.light then 1 else 0) ++ leBytes 1 v.classes ++ leBytes 1 v.depth ++ [0#8] ++
        leBytes 2 v.maxTags ++ leBytes 2 v.tAck ++ leBytes 2 v.hbUs
    else List.replicate 11 0#8
  bodyOf (leBytes 1 res ++ f ++ leBytes 8 (regVal s 0x1000 6 0) ++ leBytes 4 v.negId.toNat ++ leBytes 4 v.linkGen ++
    leBytes 1 p)

/-- The HEARTBEAT body (Table 11.6). -/
def heartbeatBody (s : State) (p count : Nat) : BitVec 1920 :=
  let r := (linkOf s p).resync
  let flags := (if s.pwr.phase = .draining then 1 else 0) + (if s.pwr.phase = .parked then 2 else 0) +
    (if s.pins.zeroized then 4 else 0) + (if r = 1 ∨ r = 2 then 8 else 0)
  bodyOf (leBytes 8 (ownDigest64 s).toNat ++ leBytes 4 (cfgGen s) ++ leBytes 4 (regVal s (linkIdx p 0) 0x0F 0) ++
    leBytes 7 (frameNo s) ++ leBytes 1 flags ++ leBytes 4 count)

/-- A flit of a link that is not up: DOWN flits of a drop, the PARAM_SELECTs that are due, one an offer, DOWN flits
until an offer comes, or IDLE (R208, R214, R231). -/
def sendDown (p : Nat) (s : State) : State :=
  let x := linkOf s p
  let down := bodyOf (leBytes 1 x.downCause)
  if 0 < x.downLeft then
    flitSend p (plainFlit x 7 down x.downLight) (linkPut p { x with downLeft := x.downLeft - 1 } s)
  else
    match x.selectDue with
    | (res, v) :: t =>
      flitSend p (plainFlit x 5 (selectBody s p res v) false)
        (linkPut p { x with selectDue := t, selSent := decide (res = 0) } s)
    | [] => flitSend p (plainFlit x (if x.downOn then 7 else 2) (if x.downOn then down else 0) false) s

/-- A parity error in a held flit that is read for a replay (R225). -/
def replayParity (p seq : Nat) (s : State) : State :=
  linkDown p 4 (raise .replayParity (srcLink p 0) seq (seq % 128) 0 s)

/-- The next flit of a replay (R223). -/
def sendReplay (p r : Nat) (parityBad : Bool) (s : State) : State :=
  let x := linkOf s p
  match x.held[seqDist r x.una]? with
  | none => s
  | some h =>
    if parityBad then replayParity p h.seq s
    else
      let nxt := (r + 1) % 4096
      let s := linkPut p { x with replay := if nxt = x.nxt then none else some nxt } s
      ackSend p 0 h.seq h.vcmask h.body true (count1 (linkIdx p 2) 7 0 s)

/-- The items at the head of a queue that fit in `n` slots, and the rest; `fuel` bounds the items. -/
def fillSlots : Nat → Nat → List Rsp → List Rsp × List Rsp
  | 0, _, l => ([], l)
  | _ + 1, _, [] => ([], [])
  | fuel + 1, n, r :: t =>
    if rspSlots r ≤ n then
      match fillSlots fuel (n - rspSlots r) t with
      | (a, b) => (r :: a, b)
    else ([], r :: t)

/-- The slots of an item on the wire (R167). -/
def itemSlots (r : Rsp) : List (BitVec 128) :=
  rspSlot r :: (match r.data with
    | some d => (List.range 4).map (fun i => d.extractLsb' (128 * i) 128)
    | none => [])

/-- Slots as a body, slot 0 lowest. -/
def slotsBody (l : List (BitVec 128)) : BitVec 1920 :=
  l.foldr (fun w (acc : BitVec 1920) => (acc <<< 128) ||| w.setWidth 1920) 0

/-- What handing an item to the LFX does: its header cell is released, counts, and the end of a list (R192, R247). -/
def handOver (p : Nat) (s : State) (r : Rsp) : State :=
  if rspPartner r then
    if r.op = 0x8B#8 then linkMod p (fun x => { x with resync := 3 }) s
    else if r.op = 0x85#8 then count1 (linkIdx p 4) 4 0 s
    else s
  else creditRelease p r.sid.toNat 1 (if r.counted then count1 0x6000 1 0 s else s)

/-- A response as the LFX reads it from slot k on: with a bad data word PSN is set; the bad words of its header and of its
data (R198, Table 09.5). -/
def rspRead (f : Faults) (k : Nat) (r : Rsp) : Rsp × Nat × Nat :=
  let h := bitCount 4 (cellWords (cellRead (rspSlot r) (cellFlip f k)).2).toNat
  match r.data with
  | none => (r, h, 0)
  | some d =>
    let c := fun j => cellRead (d.extractLsb' (128 * j) 128) (cellFlip f (k + 1 + j))
    let n := (List.range 4).foldl (fun n j => n + bitCount 4 (cellWords (c j).2).toNat) 0
    if n = 0 then (r, h, 0) else ({ r with data := some ((c 3).1 ++ (c 2).1 ++ (c 1).1 ++ (c 0).1), psn := true }, h, n)

/-- The items of a flit as the LFX reads them, the first in slot k. -/
def rspsRead (f : Faults) : Nat → List Rsp → List (Rsp × Nat × Nat)
  | _, [] => []
  | k, r :: t => rspRead f k r :: rspsRead f (k + rspSlots r) t

/-- A new DATA flit from the head of EQ(p, RSP), unless the pool finds the queue or a header damaged (R198, R199, R216,
R222, R245). -/
def sendData (p : Nat) (f : Faults) (s : State) : State :=
  match ptrField s (129 + 2 * p) f with
  | some fld => queueReset (129 + 2 * p) fld s
  | none =>
    match fillSlots 15 15 (eqOf s p) with
    | (items, rest) =>
      let l := rspsRead f 0 items
      let bad := l.foldl (fun n e => n + e.2.1) 0
      let s := wordsNote (srcLink p 5) (129 + 2 * p) 1 bad s
      if bad ≠ 0 then linkDown p 2 s
      else
          let took := l.map (fun e => e.1)
          let s := wordsNote (srcLink p 5) (129 + 2 * p) 3 (l.foldl (fun n e => n + e.2.2) 0) (eqPut p rest s)
          let slots := took.flatMap itemSlots
          let vcm := BitVec.ofNat 15 (2 ^ slots.length - 1)
          let body := slotsBody slots
          let x := linkOf s p
          let seq := x.nxt
          let h : HeldFlit := { seq := seq, vcmask := vcm, body := body, fates := took.filterMap rspFate }
          let s := ackSend p 0 seq vcm body false (count1 (linkIdx p 4) 6 0 s)
          let s := linkMod p (fun y =>
            let y := { y with nxt := (y.nxt + 1) % 4096, held := y.held ++ [h] }
            { y with stalled := y.stalled || winFull y }) s
          partnerFeed 15 p (took.foldl (handOver p) s)

/-- True when a new DATA flit may go: RXLOCK has been seen, the window is open, an item waits (R215, R222, R246). -/
def dataReady (s : State) (p : Nat) : Bool :=
  let x := linkOf s p
  x.mayData && !winFull x && linkServes s p && !(eqOf s p).isEmpty

/-- A flit of a link that is up, by what is due first (R216, R219, R220, R222, R223, R231, R236). -/
def sendUp (p : Nat) (parityBad : Bool) (f : Faults) (s : State) : State :=
  let x := linkOf s p
  if x.first then ackSend p 1 x.nxt 0 0 false (linkPut p { x with first := false } s)
  else if x.hbDue then
    ackSend p 3 x.nxt 0 (heartbeatBody s p (x.hbCount + 1)) false
      (linkPut p { x with hbDue := false, hbCount := x.hbCount + 1 } s)
  else
    match x.replay with
    | some r => sendReplay p r parityBad s
    | none =>
      if dataReady s p then sendData p f s
      else if x.nakOwed ∨ x.ackDue then ackSend p 1 x.nxt 0 0 false s
      else flitSend p { plainFlit x 2 0 x.light with seq := x.nxt, txfull := winFull x } s

/-- FLIT_TRANSMIT: the next flit of the lane is formed (R206 to R211); errors of the rows read count under R293. A lane
whose rate reads 11 carries zero words (R366). -/
def doFlitTransmit (p : Nat) (parityBad : Bool) (f : Faults) (s : State) : State :=
  let x := linkOf s p
  if s.clk.running = false then s
  else if x.rate = 3 then linkPut p { x with txLast := none } s
  else if x.bistDown then flitSend p (plainFlit x 2 0 false) s
  else if x.up then sendUp p parityBad f (rowErrors f s)
  else sendDown p s

/-- FLIT_TRANSMIT. -/
def execFlitTransmit (p : Fin 128) (parityBad : Bool) (f : Faults) (s : State) : Host.Outcome State Fault Refusal :=
  .next (doFlitTransmit p.val parityBad f s)

/-- The wire image of the flit last formed on link p (R209, R210). -/
def linkWire (s : State) (p : Nat) : Option (List Byte) := (linkOf s p).txLast.map wireImage

-- Timers of the keeper

/-- ACK_TIMER: t_ACK has run out for an accepted flit, so an ack-bearing flit is due (R219). -/
def doAckTimer (p : Nat) (s : State) : State :=
  linkMod p (fun x => if x.up && decide (0 < x.uncovered) then { x with ackDue := true } else x) s

/-- ACK_TIMER. -/
def execAckTimer (p : Fin 128) (s : State) : Host.Outcome State Fault Refusal := .next (doAckTimer p.val s)

/-- REPLAY_TIMER: a replay from UNA, or the link goes down at REPLAY_LIMIT; a NAK of the same cycle, before or after it,
wins (R224, R226). `parityBad` says that the first flit read for the replay is damaged (R225); the rows read count under
R293. -/
def doReplayTimer (p : Nat) (parityBad : Bool) (f : Faults) (s : State) : State :=
  let x := linkOf s p
  if x.up = false ∨ x.una = x.nxt ∨ x.nakAt = some (now s) then s
  else
    let n := x.expiries + 1
    let at' := some (now s, x.expiries)
    let s := sumUp .linkReplayTimer (srcLink p 1) x.una n 0 (linkPut p { x with expiries := n, timerAt := at' } s)
    if x.force.replayLimit ≤ n then linkDown p 3 s
    else
      let s := count1 (linkIdx p 2) 6 0 s
      let s := rowErrors f s
      if parityBad then replayParity p x.una s
      else linkMod p (fun y => { y with replay := some y.una }) s

/-- REPLAY_TIMER. -/
def execReplayTimer (p : Fin 128) (parityBad : Bool) (s : State) (f : Faults := {}) : Host.Outcome State Fault Refusal :=
  .next (doReplayTimer p.val parityBad f s)

/-- HEARTBEAT_DUE: the next flit is a HEARTBEAT (R236). -/
def doHeartbeatDue (p : Nat) (s : State) : State := linkMod p (fun x => if x.up then { x with hbDue := true } else x) s

/-- HEARTBEAT_DUE. -/
def execHeartbeatDue (p : Fin 128) (s : State) : Host.Outcome State Fault Refusal := .next (doHeartbeatDue p.val s)

-- RESYNC list (R246, R247)

/-- Every transaction of the drop has its fate and no write of the port lies between grant and PERSISTED (R246). -/
def resyncReady (s : State) (p : Nat) : Bool :=
  !s.pool.items.any (fun i => srcIs i.src p && i.gone) &&
    !s.pool.txns.any (fun t => srcIs t.item.src p && (t.item.gone || !opReads t.item.op)) &&
    !s.pool.fences.any (fun f => srcIs f.src p && f.gone) && !s.pool.lost.any (fun e => srcIs e.2.src p && e.2.gone)

/-- Insert an entry by ascending tag. -/
def fateInsert (f : FateEnt) : List FateEnt → List FateEnt
  | [] => [f]
  | g :: t => if f.tag.toNat < g.tag.toNat then f :: g :: t else g :: fateInsert f t

/-- The entries of a list: the kept ones and the new ones, each tag once with its latest fate, in ascending tag order
(R247, R249). -/
def resyncEntries (x : LinkSt) : List FateEnt :=
  (x.fates.foldl (fun l f => fateAdd f l) x.kept).foldl (fun l f => fateInsert f l) []

/-- A partner item from its bytes. -/
def partnerItem (op : Byte) (bs : List Byte) : Rsp := { op := op, status := 0#8, raw := slotOfBytes (op :: bs) }

/-- RESYNC_TAGS items, three entries to an item; `n` bounds the items. -/
def tagItems : Nat → List FateEnt → List Rsp
  | 0, _ => []
  | n + 1, l =>
    match l with
    | [] => []
    | _ =>
      let es := l.take 3
      partnerItem 0x89#8 (leBytes 1 es.length ++ [0#8, 0#8] ++
        es.flatMap (fun f => leBytes 2 f.tag.toNat ++ leBytes 1 f.fate ++ leBytes 1 f.status)) :: tagItems n (l.drop 3)

/-- RESYNC_CREDITS items, two entries to an item; `n` bounds the items. -/
def creditItems : Nat → List (Nat × Acct) → List Rsp
  | 0, _ => []
  | n + 1, l =>
    match l with
    | [] => []
    | _ =>
      let es := l.take 2
      partnerItem 0x8A#8 (leBytes 1 es.length ++
        es.flatMap (fun e => leBytes 2 (e.1 % 4096) ++ leBytes 2 e.2.received ++ leBytes 2 e.2.granted)) ::
        creditItems n (l.drop 2)

/-- The RESYNC list (Table 11.8): `cnt` holds the three counts that BEGIN and END carry. -/
def resyncList (s : State) (p : Nat) (rep : Bool) (es : List FateEnt) (accts : List (Nat × Acct)) : List Rsp :=
  let drop := regVal s (linkIdx p 1) 8 0 % 65536
  let cnt := leBytes 2 es.length ++ leBytes 2 accts.length ++ leBytes 2 drop
  let flags := (if (linkOf s p).everUp then 0 else 1) + (if rep then 2 else 0)
  [partnerItem 0x88#8 (leBytes 1 flags ++ cnt ++ leBytes 4 (regVal s (linkIdx p 0) 0x0F 0) ++
      leBytes 1 (regVal s (linkIdx p 1) 9 0))] ++
    tagItems es.length es ++ creditItems accts.length accts ++ [partnerItem 0x8B#8 (0#8 :: cnt)]

/-- RESYNC_SEND: the list, then a CREDIT_GRANT entry for every stream of the port (R240, R246, R247, R251). -/
def doResyncSend (p : Nat) (s : State) : State :=
  let x := linkOf s p
  if x.up = true ∧ x.resync = 1 ∧ resyncReady s p = true then
    let es := resyncEntries x
    let rep := !x.kept.isEmpty
    let accts := s.accts.filter (fun e => e.1 / 4096 == p)
    let l := resyncList s p rep es accts
    let drop := regVal s (linkIdx p 1) 8 0 % 65536
    let s := regPut (linkIdx p 3) 0x0A 0 es.length (linkPut p { x with resync := 2, kept := es, fates := [] } s)
    let s := l.foldl (fun s r => partnerPush p r s) s
    let s := raise .resyncSent (srcLink p 2) drop es.length (if rep then 1 else 0) s
    let live := (accts.filter (fun e => !e.2.closing)).map (fun e => e.1)
    grantSend live.length p live s
  else s

/-- RESYNC_SEND. -/
def execResyncSend (p : Fin 128) (s : State) : Host.Outcome State Fault Refusal := .next (doResyncSend p.val s)

/-- GRANT_HOLD_EXPIRY: at a frame strobe, unsent advances that are GRANT_HOLD_FR frames old go out (R32, R240). -/
def doGrantHoldExpiry (p : Nat) (s : State) : State :=
  let due := s.accts.filter (fun e => e.1 / 4096 == p && !e.2.closing && (match e.2.advAt with
    | some f => framesOver s f (cfgVal s 0x20A0 7 0)
    | none => false))
  if linkServes s p = true ∧ s.clk.cycle = 0 then grantSend due.length p (due.map (fun e => e.1)) s else s

/-- GRANT_HOLD_EXPIRY. -/
def execGrantHoldExpiry (p : Fin 128) (s : State) : Host.Outcome State Fault Refusal :=
  .next (doGrantHoldExpiry p.val s)

end Sys2Proof.Machine
end

