-- ==== Sys2Proof/Machine/Power.lean ====
section
/-! DEFINITION. The power warning, the drain and PARKED, and zeroization (R138 to R140, R158, R267 to R275, R384,
R385). -/

namespace Sys2Proof.Machine

-- ERASE_SLOT

/-- ERASE_SLOT, with the passes that its materials served suspended (R389, Table 07.6). -/
def execEraseSlot (k : KpCmd) (s : State) : Host.Outcome State Fault Refusal :=
  .next (ctxSuspendAbsent (doEraseSlot k s))

-- Zeroization (R138 to R140)

/-- A granted write whose keystream has not started: it waits for its probe, or is a partial write in the merger
(Table 06.14). -/
def zeroizeEnds (t : Txn) : Bool :=
  match t.item.op with
  | .writeLine => decide (t.st = .probeWait)
  | .writePartial => decide (t.st = .probeWait) || inMerger t
  | _ => false

/-- End such a write with KEY_ABSENT; no counter is consumed and the line is unchanged (Table 06.14). -/
def zeroizeTxn (s : State) (t : Txn) : State :=
  let s := { s with rep := { s.rep with holds := s.rep.holds.filter (fun h => h.owner != .txn t.id) } }
  if t.st = .probeWait ∨ t.st = .merged then txnFinish t stKeyAbsent s else partialRefuse t stKeyAbsent s

/-- True for a read whose data has not arrived. -/
def zeroizeWaits (t : Txn) : Bool := decide (t.item.op = .readLine) && decide (t.st = .reading)

/-- Suspend every running context (Table 06.14). -/
def ctxSuspendAll (s : State) : State := (List.range 64).foldl (fun s n => ctxSuspend n s) s

/-- ZEROIZE_QUALIFY: every key is erased, slots move, and work in flight ends as Table 06.14 states. The erase of the
first cycle stands for the whole erase (R138, R140). -/
def doZeroizeQualify (s : State) : State :=
  if s.keys.zer.lowQual ∨ s.clk.running = false then s
  else
    let s := kpAbort s
    let drain := decide (s.pwr.phase = .draining)
    let ends := s.pool.txns.filter zeroizeEnds
    let n := (s.keys.slots.filter (fun e => e.2.matA.isSome || e.2.matB.isSome)).length
    let disc := if drain then ends.length else 0
    let s := countUp 0x6060 5 0 disc (count1 0x6060 3 0 s)
    let s := (s.keys.slots.map (fun e => e.1)).foldl (fun s k => slotZeroize k s) s
    let s := { s with keys := { s.keys with
        kek := none, mks := [], eraseNext := []
        zer := { lowQual := true, erasing := true, erased := s.keys.zer.erased, returned := none, discards := disc,
                 slotsErased := n, drainRan := drain } }
                      ev := { s.ev with subs := [] } }
    let s := ends.foldl zeroizeTxn s
    let s := { s with pool := { s.pool with txns := s.pool.txns.map (fun t =>
        if zeroizeWaits t then { t with keyless := true } else t) } }
    drainPoll (ctxSuspendAll s)

/-- ZEROIZE_QUALIFY. -/
def execZeroizeQualify (s : State) : Host.Outcome State Fault Refusal := .next (doZeroizeQualify s)

/-- ZEROIZE_DONE: zeroized rises, and EV_ZEROIZE is raised (R138, R140). -/
def doZeroizeDone (s : State) : State :=
  let z := s.keys.zer
  if z.erasing then
    raise .zeroize (srcGlobal 8) z.slotsErased (if z.drainRan then 1 else 0) z.discards
      { s with keys := { s.keys with zer := { z with erasing := false, erased := true } },
               pins := { s.pins with zeroized := true } }
  else s

/-- ZEROIZE_DONE. -/
def execZeroizeDone (s : State) : Host.Outcome State Fault Refusal := .next (doZeroizeDone s)

/-- ZEROIZE_RETURN: the hold-off of 16 frames starts (R139). -/
def doZeroizeReturn (s : State) : State :=
  if s.keys.zer.lowQual then
    { s with keys := { s.keys with zer := { s.keys.zer with lowQual := false, returned := some (frameNo s) } } }
  else s

/-- ZEROIZE_RETURN. -/
def execZeroizeReturn (s : State) : Host.Outcome State Fault Refusal := .next (doZeroizeReturn s)

/-- HOLDOFF_END: cycle 0 of frame F + 17; loads are admitted again (R139). -/
def doHoldoffEnd (s : State) : State :=
  match s.keys.zer.returned with
  | none => s
  | some f =>
    if framesEnd s f 16 then { s with keys := { s.keys with zer := { s.keys.zer with returned := none } } } else s

/-- HOLDOFF_END. -/
def execHoldoffEnd (s : State) : Host.Outcome State Fault Refusal := .next (doHoldoffEnd s)

/-- ZEROIZE_SHORT_PULSE: counted, and reported once a frame (R138, Table 06.16). -/
def doZeroizeShortPulse (s : State) : State :=
  if s.keys.zer.lowQual = true ∨ s.clk.running = false then s else sumUp .zeroizeGlitch (srcGlobal 9) 0 0 0 (count1 0x6060 4 0 s)

/-- ZEROIZE_SHORT_PULSE. -/
def execZeroizeShortPulse (s : State) : Host.Outcome State Fault Refusal := .next (doZeroizeShortPulse s)

/-- Bits 0 and 1 of every G_DEBUG in a store forced to 0 (R137); an entry at its default is not listed when `all` is
false. -/
def debugMask (all : Bool) (t : Tab Nat) : Tab Nat :=
  t.filterMap (fun e =>
    if okeyIdx e.1 = 0x5000 ∧ okeySub e.1 = 1 then
      if e.2 / 4 = 0 ∧ all = false then none else some (e.1, e.2 / 4 * 4)
    else some e)

/-- DEBUG_LOCK_BLOWN: bits 0 and 1 of every G_DEBUG are forced to 0 from here on (R137, Table 18.12). -/
def doDebugLockBlown (s : State) : State :=
  { s with keys := { s.keys with debugLock := true }, cfg := debugMask false s.cfg, staged := debugMask true s.staged }

/-- DEBUG_LOCK_BLOWN. -/
def execDebugLockBlown (s : State) : Host.Outcome State Fault Refusal := .next (doDebugLockBlown s)

-- The power warning (R267 to R272)

/-- Steps of the contexts whose RK write slot has been granted and that are not PERSISTED (R268). -/
def acceptedSteps (s : State) : Nat :=
  s.rk.ctxs.foldl (fun n e => n + (e.2.steps.filter (fun x =>
    x.st == .written || s.rep.holds.any (fun h => h.dir == .w && h.owner == .step e.1 x.addr))).length) 0

/-- Accepted writes (R268). -/
def acceptedWrites (s : State) : Nat :=
  (s.pool.txns.filter (fun t => !opReads t.item.op)).length + acceptedSteps s

/-- Dirty lines of the tag cache. -/
def dirtyLines (s : State) : Nat := (s.tagc.ways.filter (fun e => e.2.dirty)).length

/-- NV records queued or being written. -/
def nvQueued (s : State) : Nat :=
  let n := fun (l : List NvJob) => l.foldl (fun n j => n + j.recs.length) 0
  n s.nvu.jobs + (match s.nvu.page with
    | some p => n p.jobs
    | none => 0)

/-- The drain is over: the clean session record is confirmed, or, where recovery was stopped, the page commit in
progress has ended (R270, R285). -/
def drainOver (s : State) : Bool := if s.pwr.interrupted then s.nvu.page.isNone else s.pwr.sessionDone

/-- DRAIN_COMPLETE: persist_ok rises and the engine is PARKED (R270). -/
def doDrainComplete (s : State) : State :=
  if s.pwr.phase = .draining ∧ drainOver s = true then
    let s := regPut 0x6300 2 0 (min (now s - s.pwr.qualAt) (2 ^ 32 - 1)) (regPut 0x6300 3 0 s.pwr.drainWrites s)
    { s with pins := { s.pins with persistOk := true }, pwr := { s.pwr with phase := .parked, parkedAt := frameNo s } }
  else s

/-- DRAIN_COMPLETE. -/
def execDrainComplete (s : State) : Host.Outcome State Fault Refusal := .next (doDrainComplete s)

/-- What a late drain still waits for (Table 13.15): bit 0 data writes, 1 tag write-backs, 2 FLUSH_PERSIST, 3 NV
records. -/
def drainMask (s : State) : Nat :=
  (if acceptedWrites s = 0 then 0 else 1) +
    (if s.tagc.ways.any (fun e => e.2.dirty || e.2.wb.isSome) then 2 else 0) +
    (if (List.range 16).all (fun m => (mediaOf s m).drainFlush && !(mediaOf s m).drainOut) then 0 else 4) +
    (if s.pwr.sessionDone = true ∧ nvIdle s = true then 0 else 8)

/-- DRAIN_LATE: t_DRAIN has passed without persist_ok (R272). -/
def doDrainLate (s : State) : State :=
  if s.pwr.phase = .draining ∧ s.pwr.late = false then
    let wait := (List.range 16).foldl (fun n m => n + ((mediaOf s m).outW.filter (fun e => e.2.kind == .write)).length) 0
    let ports := (List.range 16).foldl (fun n m => if portDrained s m then n else n + 2 ^ m) 0
    raise .drainLate (srcGlobal 2) (drainMask s) wait ports { s with pwr := { s.pwr with late := true } }
  else s

/-- DRAIN_LATE. -/
def execDrainLate (s : State) : Host.Outcome State Fault Refusal := .next (doDrainLate s)

/-- PWR_WARN_SHORT_PULSE: a glitch in service; from qualification on, a low sample that cancels a captured return
(R267, R274). -/
def doPwrWarnShortPulse (samples : Nat) (s : State) : State :=
  match s.pwr.phase, s.clk.running with
  | _, false => s
  | .service, true =>
    let s := count1 0x6300 1 0 s
    let f := (tabFind s.ev.sums warnGlitchKey).getD {}
    { s with ev := { s.ev with sums := tabSet s.ev.sums warnGlitchKey { f with count := f.count + 1, a := max f.a samples } } }
  | _, true => { s with pwr := { s.pwr with returned := none } }

/-- PWR_WARN_SHORT_PULSE. -/
def execPwrWarnShortPulse (samples : BitVec 32) (s : State) : Host.Outcome State Fault Refusal :=
  .next (doPwrWarnShortPulse samples.toNat s)

/-- PWR_WARN_RETURN: the input has been high for 64 samples; the count to the resume starts (R274). -/
def doPwrWarnReturn (s : State) : State :=
  match s.pwr.phase with
  | .service => s
  | _ => { s with pwr := { s.pwr with returned := some (frameNo s) } }

/-- PWR_WARN_RETURN. -/
def execPwrWarnReturn (s : State) : Host.Outcome State Fault Refusal := .next (doPwrWarnReturn s)

-- The resume (R274, R275)

/-- The resume is due: in cycle 0 of the frame that RESUME_FRAMES after the return names, or of the first frame after
persist_ok rose, whichever is later (R32, R274). -/
def resumeDue (s : State) : Bool :=
  let r := cfgVal s 0x2300 1 0
  decide (s.pwr.phase = .parked) && decide (r ≠ 0) && decide (s.clk.cycle = 0) &&
    (match s.pwr.returned with
     | some f => decide (frameNo s = max (f + 1 + r) (s.pwr.parkedAt + 1))
     | none => false)

/-- A context that the drain interrupted continues from the boundary that the drain committed (R158). -/
def ctxUnpark (s : State) (n : Nat) : State :=
  let c := ctxOf s n
  if c.st = .running then
    boundSet n c.ckpt (ctxPut n { c with resumed := true, band := c.ckpt, drainLow := none, drainCk := false }
      (rekeyResumeEv n s))
  else s

/-- Queues whose IQ_FLUSH bit is 1 at the resume strobe are flushed (R385). -/
def resumeFlush (s : State) : State :=
  (List.range 128).foldl (fun s q => if flushing s q then queueFlush q s else s) s

/-- RESUME: persist_ok falls, service returns, EV_RESUME, and a running session record is committed; no write is granted
until it is confirmed (R275). After an interrupted start, recovery runs again instead (R285). -/
def doResume (s : State) : State :=
  if resumeDue s then
    let early := s.pwr.interrupted
    let s := raise .resume (srcGlobal 3) (frameNo s - s.pwr.parkedAt) 0 0 s
    let s := { s with pins := { s.pins with persistOk := false },
                      pwr := { s.pwr with phase := .service, returned := none, interrupted := false,
                                          holdWrites := !early } }
    let held := s.nvu.held
    let s := { s with nvu := { s.nvu with held := [] } }
    if early then held.foldl (fun s j => nvPush j s) s
    else
      let s := nvPush { recs := [.session 1], act := .sessionRun } s
      let s := held.foldl (fun s j => nvPush j s) s
      let s := resumeFlush ((List.range 64).foldl ctxUnpark s)
      rkSchedule (rkPoll s)
  else s

/-- RESUME. -/
def execResume (s : State) : Host.Outcome State Fault Refusal := .next (doResume s)

end Sys2Proof.Machine
end

