-- ==== Sys2Proof/Machine/Startup.lean ====
section
/-! DEFINITION. Reset, start-up and recovery: RESET, RESET_RELEASE, FUSE_LOAD_DONE, BIST_DONE and RECOVERY_DONE
(R29, R285, R289 to R292, R371, R376, R390). -/

namespace Sys2Proof.Machine

-- Reset (R376, R369, R29)

/-- The bytes that a page commit loads reach the store. -/
def nvApply (p : NvPage) (m : List Host.Cell) : List Host.Cell :=
  p.data.foldl (fun m e => tabPut 0#8 m (p.addr + e.1) e.2) m

/-- RESET: everything but the NV store and the medium starts anew; a page commit that the store has taken completes
there (R369, R376). The rate and rec_online inputs keep their levels, the BIST mode last sampled stays, and debug_lock
holds until por_n. -/
def doReset (por : Bool) (s : State) : State :=
  let nv := match s.nvu.page with
    | some p => if p.reading then s.nv else nvApply p s.nv
    | none => s.nv
  let s' : State :=
    { free := s.free, pending := s.pending, clk := { running := false }, nv := nv
      keys := { debugLock := s.keys.debugLock && !por }
      pwr := { bistShort := s.pwr.bistShort }
      links := s.links.filterMap (fun e => if e.2.rate = 3 then none else some (e.1, { ({} : LinkSt) with rate := e.2.rate })) }
  regPut 0x2500 0x0A 0 (regVal s 0x2500 0x0A 0) s'

/-- RESET. -/
def execReset (por : Bool) (s : State) : Host.Outcome State Fault Refusal := .next (doReset por s)

/-- RESET_RELEASE: frame 0 begins and the fuse load starts; bist_short is sampled at the release of por_n (R29, R291). MODE
goes to a recorder that is online (R357). -/
def doResetRelease (por bistShort : Bool) (s : State) : State :=
  if s.clk.running then s
  else
    let s := { s with clk := { running := true, frame := 0, cycle := 0 }
                      pwr := { s.pwr with stage := .fuse, bistShort := if por then bistShort else s.pwr.bistShort } }
    if regVal s 0x2500 0x0A 0 = 1 then modeSend { s with ev := { s.ev with modeSent := true } } else s

/-- RESET_RELEASE. -/
def execResetRelease (por bistShort : Bool) (s : State) : Host.Outcome State Fault Refusal :=
  .next (doResetRelease por bistShort s)

-- Fuse and repair load (R289)

/-- A row repair that can stand: fields in range, the row not repaired, the spare not used. -/
def rowFree (s : State) (mac row spare : Nat) : Bool :=
  decide (mac < 768) && decide (row < 1024) && decide (spare < 4) && (tabFind s.rep.remap (rowNo mac row)).isNone &&
    !s.rep.spares.contains (mac * 4 + spare)

/-- The fuse image: ENGINE_ID, row and column repairs, or EV_FUSE_FAULT and fault_n low where its CRC fails (R289,
R344). -/
def fuseApply (img : FuseImage) (s : State) : State :=
  if img.ok then
    let s := { s with rep := { s.rep with cols := img.cols } }
    img.rows.foldl (fun s r =>
      if rowFree s r.1 r.2.1 r.2.2 then countUp 0x2400 0x0C 0 1 (rowRemap r.1 r.2.1 r.2.2 s) else s)
      (regPut 0x1000 6 0 img.engineId.toNat s)
  else faultLow (raise .fuseFault (srcGlobal 36) 0 0 0 s)

/-- The entry of the repair log at a copy's address (Table 13.10). -/
def logRead (s : State) (a : Nat) : LogEnt :=
  { kind := nvNat s (a + 2) 1, spare := nvNat s (a + 3) 1, macroNo := nvNat s (a + 4) 2, row := nvNat s (a + 6) 2,
    slice := nvNat s (a + 8) 1, pipe := nvNat s (a + 9) 1, port := nvNat s (a + 10) 1 }

/-- Entry i of the repair log, when either copy is valid (R289). -/
def logEntry (s : State) (i : Nat) : Option LogEnt :=
  if rlogValid s (0x5000 + i * 0x20) then some (logRead s (0x5000 + i * 0x20))
  else if rlogValid s (0x7000 + i * 0x20) then some (logRead s (0x7000 + i * 0x20))
  else none

/-- Entry i of the repair log is written in form and a field is out of range in every such copy (R289). -/
def logOut (s : State) (i : Nat) : Bool :=
  (logEntry s i).isNone && (rlogForm s (0x5000 + i * 0x20) || rlogForm s (0x7000 + i * 0x20))

/-- Count an ignored entry (R289). -/
def logIgnore (s : State) : State := countUp 0x2400 7 0 1 s

/-- Apply one entry of the repair log (Table 14.1). The loss that retired pipes cause has its own KIND 3 entry. A KIND 4
entry finds the binding that the loss before it made (log 31). -/
def logApply (e : LogEnt) (s : State) : State :=
  match e.kind with
  | 1 => if rowFree s e.macroNo e.row e.spare then countUp 0x2400 0x0D 0 1 (rowRemap e.macroNo e.row e.spare s) else logIgnore s
  | 2 =>
    if (pipeOf (sliceOf s e.slice) e.pipe).st = 2 ∨ (sliceOf s e.slice).st = 3 then logIgnore s
    else pipeRetire e.slice e.pipe false false s
  | 3 => if (sliceOf s e.slice).st = 3 then logIgnore s else sliceLose e.slice false s
  | _ =>
    let top := sliceOf s 16
    if e.slice ≠ 16 then logIgnore s
    else if top.st = 0 ∧ top.port = e.port then s
    else if top.st = 1 ∧ s.rep.topGone = false then
      slicePut 16 { top with st := 0, port := e.port, shadow := 0 }
        ((List.range 16).foldl (fun s i =>
          if (sliceOf s i).port = e.port then slicePut i { sliceOf s i with st := 3, port := 255 } s else s) s)
    else logIgnore s

/-- Numbers of the NV entries of a region that hold any byte, rising: entry size and number of entries of each copy. -/
def nvListed (s : State) (lo span size n : Nat) : List Nat :=
  s.nv.foldl (fun l e => if lo ≤ e.1 ∧ e.1 < lo + span then insertNat ((e.1 - lo) / size % n) l else l) []

/-- The places of the repair log that hold any byte, rising. -/
def logListed (s : State) : List Nat := nvListed s 0x5000 0x4000 0x20 256

/-- The places of the repair log in use, rising. -/
def logUsed (s : State) : List Nat := (logListed s).filter (fun i => (logEntry s i).isSome)

/-- Apply entry i of the repair log, or count it as ignored where its fields are out of range (R289). -/
def logPlace (s : State) (i : Nat) : State :=
  match logEntry s i with
  | some e => logApply e s
  | none => if logOut s i then logIgnore s else s

/-- The session record's current copy and whether the case is irregular. -/
def sessionSel (s : State) : Option Nat × Bool := nvSelect s 0 0x40 (sessionValid s)

/-- FUSE_LOAD_DONE: fuse repairs, then the repair log in ascending order; pin_oe rises and BIST starts (R289, R371). -/
def doFuseLoadDone (img : FuseImage) (s : State) : State :=
  if s.clk.running = true ∧ s.pwr.stage = .fuse then
    let n := match (sessionSel s).1 with
      | some a => nvNat s (a + 4) 4
      | none => 0
    let used := logUsed s
    let s := fuseApply img { s with nvu := { s.nvu with powerCycles := n }, rep := { s.rep with logPlaces := used } }
    let s := (logListed s).foldl logPlace s
    { s with pins := { s.pins with pinOe := true }, pwr := { s.pwr with stage := .bist } }
  else s

/-- FUSE_LOAD_DONE. -/
def execFuseLoadDone (img : FuseImage) (s : State) : Host.Outcome State Fault Refusal := .next (doFuseLoadDone img s)

-- BIST (R291, R292)

/-- The bit of BIST_RESULT of a failing target. -/
def bistBit (b : BistFail) : Nat :=
  match b with
  | .row _ _ => 0
  | .spare _ _ => 0
  | .pipe _ _ => 1
  | .ghash _ => 2
  | .mixer _ => 3
  | .lfx _ => 4

/-- A failing row: remapped and logged, or bad where no spare row is left; `soft` says whether it adds to SOFT_ROWS. -/
def bistRow (mac row : Nat) (soft : Bool) (s : State) : State :=
  match spareFree s mac with
  | some k =>
    logAppend { kind := 1, spare := k, macroNo := mac, row := row }
      (if soft then countUp 0x2400 0x0D 0 1 (rowRemap mac row k s) else rowRemap mac row k s)
  | none =>
    let s := { s with rep := { s.rep with outNoted := insertNat (rowNo mac row) s.rep.outNoted } }
    raise .rowSparesOut (srcGlobal 33) mac row 1 (rowBad mac row s)

/-- The row of a macro that a spare row serves. -/
def spareRow (s : State) (mac k : Nat) : Option Nat :=
  match s.rep.remap.find? (fun e => e.1 / 1024 == mac && e.2 == k) with
  | some e => some (e.1 % 1024)
  | none => none

/-- One failure is handled as Table 14.3 states. A spare row that fails is used no more, and a row that it serves is
remapped again (log 31). -/
def bistOne (s : State) (b : BistFail) : State :=
  match b with
  | .row mac row => if mac < 768 ∧ row < 1024 then bistRow mac row true s else s
  | .spare mac k =>
    if mac < 768 ∧ k < 4 then
      let t := { s with rep := { s.rep with spares := insertNat (mac * 4 + k) s.rep.spares } }
      match spareRow s mac k with
      | some row => bistRow mac row false t
      | none => t
    else s
  | .pipe i p =>
    if (pipeOf (sliceOf s i.val) p.val).st = 2 ∨ (sliceOf s i.val).st = 3 then s
    else sliceJudge i.val true (pipeRetire i.val p.val true true s)
  | .ghash i => if (sliceOf s i.val).st = 3 then s else sliceLose i.val true s
  | .mixer i => if (sliceOf s i.val).st = 3 then s else sliceLose i.val true s
  | .lfx p => linkMod p.val (fun x => { x with bistDown := true }) s

/-- A target that the engine repairs in full: a row with a free spare, a spare row that serves none or whose row has
another, or a pipe of a slice that stays (log 31). -/
def bistMends (s : State) (b : BistFail) : Bool :=
  match b with
  | .spare mac k =>
    (spareRow s mac k).isNone ||
      (spareFree { s with rep := { s.rep with spares := insertNat (mac * 4 + k) s.rep.spares } } mac).isSome
  | .row mac _ => (spareFree s mac).isSome
  | .pipe i p => decide ((sliceOf (sliceJudge i.val true (pipeRetire i.val p.val true true s)) i.val).st = (sliceOf s i.val).st)
  | _ => false

/-- Handle the failures in order; true while every one of them is mended. -/
def bistAll (s : State) (l : List BistFail) : State × Bool :=
  l.foldl (fun a b => (bistOne a.1 b, a.2 && bistMends a.1 b)) (s, true)

/-- The failures of one kind of target, with EV_BIST_FAIL: target, failures, mode (R292). -/
def bistKind (fails : List BistFail) (s : State) (k : Nat) : State :=
  let l := fails.filter (fun b => bistBit b == k)
  match l with
  | [] => s
  | _ =>
    let r := bistAll s l
    let s := regPut 0x2400 5 0 (regVal s 0x2400 5 0 ||| 2 ^ k) r.1
    raiseSev .bistFail (if r.2 then sevNotice else sevError) (srcGlobal 35) k l.length (if s.pwr.bistShort then 1 else 0) s

/-- BIST_DONE: failures are mended or marked, and recovery begins (R291, R292). -/
def doBistDone (fails : List BistFail) (s : State) : State :=
  if s.clk.running = true ∧ s.pwr.stage = .bist then
    let s := (List.range 5).foldl (bistKind fails) s
    regPut 0x2400 4 0 (if s.pwr.bistShort then 1 else 0) { s with pwr := { s.pwr with stage := .recovery } }
  else s

/-- BIST_DONE. -/
def execBistDone (fails : List BistFail) (s : State) : Host.Outcome State Fault Refusal := .next (doBistDone fails s)

-- Recovery (R285, R390)

/-- Choose a record's current copy; an irregular pair is noted (R280). -/
def recSelect (a b : Nat) (valid : Nat → Bool) (s : State) : Option Nat × State :=
  let r := nvSelect s a b valid
  (r.1, selNote r s)

/-- The state that a slot record names (Table 13.6). -/
def slotStOf (v : Nat) : SlotSt :=
  match v with
  | 2 => .active
  | 3 => .rotating
  | 4 => .retiring
  | 5 => .spent
  | _ => .empty

/-- Restore one slot from its record; it is recorded and without material (R284, R285). -/
def recSlot (s : State) (k : Nat) : State :=
  if k = 0 then s
  else
    match recSelect (0x30000 + k * 8) (0x70000 + k * 8) (slotRecValid s) s with
    | (none, s) => s
    | (some a, s) =>
      let f := nvNat s (a + 1) 1
      if f % 8 = 0 then s
      else
        slotPut k { st := slotStOf (f % 8), gen := BitVec.ofNat 32 (nvNat s (a + 2) 4), asel := f.testBit 3, brec := f.testBit 4,
                    restored := true, rowBad := (slotOf s k).rowBad } s

/-- Set the format marks of a slot from the extent and mark of a record: extents below are formatted, extents above
stand at their BASE (Table 13.9). Mark END stands for a fully written extent until its LIMIT is known. -/
def seedMarks (k ext mark : Nat) (s : State) : State :=
  (List.range 4).foldl (fun s e =>
    regPut 0x4003 4 (k * 4 + e) (if e < ext then walkEnd else if e = ext then mark else 0) s) s

/-- One format entry: freed where its slot is EMPTY, else held by the slot (R285, Table 13.12). -/
def recFmt (s : State) (j : Nat) : State :=
  match recSelect (0x3000 + j * 0x10) (0x4000 + j * 0x10) (fmtValid s) s with
  | (none, s) => s
  | (some a, s) =>
    let k := nvNat s (a + 2) 2
    if k = 0 then s
    else if (slotOf s k).st = .empty then nvPush { recs := [.fmt j 0 0 0], act := .none } s
    else if (fmtOf s k).isSome then s
    else seedMarks k (nvNat s (a + 4) 1) (nvNat s (a + 6) 5) { s with nvu := { s.nvu with fmtSlots := tabSet s.nvu.fmtSlots j k } }

/-- A checkpoint record as recovery reads it. -/
structure CkptRec where
  c : Nat
  a : Nat
  cause : Nat
  kidx : Nat
  st : Nat
  fin : Bool
  two : Bool
  extOk : Bool
  ext : Nat
  gen : BitVec 32
  bound : Nat
  cycles : Nat
deriving DecidableEq, Repr

/-- Read the checkpoint record at a copy's address (Table 13.8). -/
def ckptRead (s : State) (c a : Nat) : CkptRec :=
  let f := nvNat s (a + 7) 1
  { c := c, a := a, cause := nvNat s (a + 3) 1, kidx := nvNat s (a + 4) 2, st := nvNat s (a + 6) 1, fin := f.testBit 0,
    two := f.testBit 1, extOk := f.testBit 2, ext := nvNat s (a + 17) 1, gen := BitVec.ofNat 32 (nvNat s (a + 8) 4),
    bound := if f.testBit 0 then walkEnd else nvNat s (a + 12) 5, cycles := nvNat s (a + 18) 4 }

/-- The record agrees with the recorded slot (R390). -/
def ckptAgrees (s : State) (k : CkptRec) : Bool :=
  let x := slotOf s k.kidx
  match k.cause with
  | 1 => decide (x.st = .rotating) && decide (x.gen = k.gen)
  | 2 => (decide (x.st = .active) || decide (x.st = .rotating)) && decide (x.gen = k.gen)
  | 3 => decide (x.st = .active) || decide (x.st = .rotating) || decide (x.st = .spent)
  | _ => decide (x.st = .retiring)

/-- Free the format entry of a slot, with its record. -/
def recFree (k : Nat) (s : State) : State :=
  match fmtOf s k with
  | none => s
  | some j => seedMarks k 4 0 (fmtRelease k (nvPush { recs := [.fmt j 0 0 0], act := .none } s))

/-- Finish a completion that a cut left between its records (Table 13.12). -/
def recFinish (k : CkptRec) (s : State) : State :=
  let x := slotOf s k.kidx
  let g1 := nextGen k.gen
  match k.cause with
  | 1 =>
    nvPush { recs := [.slot k.kidx 2 false (!x.asel) g1.toNat], act := .none }
      (slotPut k.kidx { x with st := .active, gen := g1, asel := !x.asel, brec := false } s)
  | 2 =>
    nvPush { recs := [.slot k.kidx (if x.st = .rotating then 3 else 2) x.brec x.asel g1.toNat], act := .none }
      (slotPut k.kidx { x with gen := g1 } s)
  | 3 => recFree k.kidx s
  | _ =>
    recFree k.kidx (nvPush { recs := [.slot k.kidx 0 false false 0], act := .none } (slotPut k.kidx { rowBad := x.rowBad } s))

/-- Of two records that are not complete and agree with one slot, the one of the higher POWER_CYCLES, and between equals
the one of the lower context, is used; the other is stale (R390). -/
def ckptAdd (k : CkptRec) (a : List CkptRec × State) : List CkptRec × State :=
  match a.1.find? (fun o => o.kidx == k.kidx) with
  | none => (a.1 ++ [k], a.2)
  | some o =>
    if k.cycles ≤ o.cycles then (a.1, nvNote k.a 4 a.2)
    else (a.1.map (fun q => if q.kidx = k.kidx then k else q), nvNote o.a 4 a.2)

/-- One context's checkpoint record: finished, used or stale (R285, R390). `n` is the session's POWER_CYCLES. -/
def recCkpt (n : Nat) (acc : List CkptRec × State) (c : Nat) : List CkptRec × State :=
  match recSelect (0x1000 + c * 0x40) (0x2000 + c * 0x40) (ckptValid acc.2 c) acc.2 with
  | (none, s) => (acc.1, s)
  | (some a, s) =>
    let k := ckptRead s c a
    if k.st = 2 then (acc.1, if ckptAgrees s k = true ∧ k.fin = true ∧ k.cycles = n then recFinish k s else s)
    else if ckptAgrees s k then ckptAdd k (acc.1, s)
    else (acc.1, nvNote a 4 s)

/-- The live generations that a running record gives its slot (R285). -/
def recLive (k : CkptRec) (x : Slot) : Slot :=
  if k.cause = 1 then { x with gen := nextGen k.gen, two := true, newInB := true }
  else if k.cause = 2 then { x with gen := nextGen k.gen, two := true, newInB := false }
  else { x with gen := k.gen, two := k.two, newInB := k.two && x.brec }

/-- Restore the context of a record: suspended, at its boundary (R157). -/
def recResume (s : State) (k : CkptRec) : State :=
  let s := slotPut k.kidx (recLive k (slotOf s k.kidx)) s
  let s := if k.cause = 3 ∧ k.fin = true then seedMarks k.kidx 4 0 s
    else if k.cause = 3 ∧ k.extOk = true then seedMarks k.kidx k.ext k.bound s else s
  ctxPut k.c { st := .suspended, kidx := k.kidx, cause := k.cause, gen := k.gen, two := k.two, bound := k.bound,
               ckpt := k.bound, band := k.bound } s

/-- True when a context of cause `cause` runs over the slot. -/
def recRuns (l : List CkptRec) (k cause : Nat) : Bool := l.any (fun q => q.kidx == k && q.cause == cause)

/-- Causes that recovery queues for a slot (R285). -/
def recQueue (l : List CkptRec) (s : State) (k : Nat) : State :=
  let x := slotOf s k
  let s := if x.st = .retiring ∧ recRuns l k 4 = false then rkEnqueue k 4 s else s
  let s := if x.st = .rotating ∧ recRuns l k 1 = false then rkEnqueue k 1 s else s
  if (fmtOf s k).isSome ∧ recRuns l k 3 = false then rkEnqueue k 3 s else s

/-- Read one KCV place that the slot record refers to; a failed CHK is noted (Table 13.7). -/
def recKcv (k place : Nat) (s : State) : BitVec 24 × Bool × State :=
  let a := kcvAddr k place
  let v := BitVec.ofNat 24 (natOfBe (nvBytes s a 3))
  if nvBytes s a 4 = kcvBytes k v then (v, false, s) else (v, true, nvNote a 2 s)

/-- The check values of a restored slot (Table 13.7). -/
def recKcvs (s : State) (k : Nat) : State :=
  let x := slotOf s k
  if x.st = .empty then s
  else
    match recKcv k (if x.asel then 1 else 0) s with
    | (va, ba, s) =>
      let s := slotPut k { x with kcvA := va, kcvABad := ba } s
      if x.brec then
        match recKcv k (if x.asel then 0 else 1) s with
        | (vb, bb, s) => slotPut k { slotOf s k with kcvB := vb, kcvBBad := bb } s
      else s

/-- An image copy that only R387 makes invalid is noted; an absent image is noted (R285, R387). -/
def recImage (s : State) : Option Nat × State :=
  let s := [imageA, imageB].foldl (fun s a => if imageWindup s a = true ∧ (imageVals s a).isNone then nvNote a 3 s else s) s
  match recSelect imageA imageB (imageValid s) s with
  | (some a, s) => (some a, s)
  | (none, s) => (none, nvNote imageA 0 s)

/-- The tables and contexts as recovery restores them. The result is the number of contexts resumed. -/
def recTables (n : Nat) (s : State) : Nat × State :=
  let slots := nvListed s 0x30000 0x80000 8 32768
  let s := slots.foldl recSlot s
  let s := (nvListed s 0x3000 0x2000 0x10 256).foldl recFmt s
  let s := slots.foldl (fun s k => if (slotOf s k).st ≠ .empty ∧ (fmtOf s k).isNone then seedMarks k 4 0 s else s) s
  let r := (nvListed s 0x1000 0x2000 0x40 64).foldl (recCkpt n) ([], s)
  let s := slots.foldl recKcvs (r.1.foldl recResume r.2)
  (r.1.length, slots.foldl (recQueue r.1) s)

/-- RECOVERY_DONE: slots, format entries, contexts and causes are restored, the session record is written, and the
dictionary is served (R285). An interrupted start waits for the resume. -/
def doRecoveryDone (s : State) : State :=
  match s.pwr.stage, s.pwr.phase with
  | .recovery, .service =>
    match sessionSel s with
    | (ses, irr) =>
      let s := regPut 0x6300 6 0 0 s
      let s := match ses with
        | some a => if irr then nvNote a 1 s else s
        | none => s
      let prev := match ses with
        | some a => nvNat s (a + 8) 1
        | none => 0
      let n := match ses with
        | some a => nvNat s (a + 4) 4
        | none => 0
      match recTables n s with
      | (resumed, s) =>
        match recImage s with
        | (img, s) =>
          let gen := match img with
            | some a => nvNat s (a + 2) 4
            | none => 0
          let pc := (n + 1) % 2 ^ 32
          match takeFree s with
          | (i, s) =>
            let s := regPut 0x6300 7 0 (Config.recoveryUs i).toNat (regPut 0x2300 5 0 gen (regPut 0x2300 4 0 pc (regPut 0x2300 3 0 prev s)))
            let s := { s with nvu := { s.nvu with powerCycles := pc, prevShutdown := prev } }
            let s := nvPush { recs := [.session 1], act := .none } s
            let s := if prev = 1 then raise .uncleanStart (srcGlobal 4) pc resumed 0 s else s
            { s with pwr := { s.pwr with stage := .served, imageDue := some (frameNo s) } }
  | _, _ => s

/-- RECOVERY_DONE. -/
def execRecoveryDone (s : State) : Host.Outcome State Fault Refusal := .next (rkSchedule (doRecoveryDone s))

end Sys2Proof.Machine
end

