-- ==== Sys2Proof/Machine/Cells.lean ====
section
/-! DEFINITION. The cells of the queue pool as its link memory shows them: the entry of every held cell with its owner, kind
and OLD bit, the registers of the queues, and the free cells (R187 to R193, R204). -/

namespace Sys2Proof.Machine

/-- KIND of a link-memory entry (Table 09.1). -/
inductive CellKind where
  | free
  | header
  | request
  | response
deriving DecidableEq, Repr

/-- KIND as its two bits (Table 09.1). -/
def CellKind.bits (k : CellKind) : BitVec 2 :=
  match k with
  | .free => 0b00#2
  | .header => 0b01#2
  | .request => 0b10#2
  | .response => 0b11#2

/-- The link-memory entry of one cell but for NEXT: both copies hold it (R187). DESIGN CHOICE: which cell serves which
item is not given, so cells have no numbers in the state and are listed in the order of their chains (log 11). -/
structure LinkEnt where
  owner : Nat
  kind : CellKind
  old : Bool := false
deriving DecidableEq, Repr

/-- An entry as a word: NEXT in [31:14], OWNER in [13:5], KIND in [4:3], OLD in [2], two reserved bits (Table 09.1). -/
def LinkEnt.word (e : LinkEnt) (next : BitVec 18) : BitVec 32 :=
  next ++ BitVec.ofNat 9 e.owner ++ e.kind.bits ++ (if e.old then 1#1 else 0#1) ++ 0#2

/-- An entry as the link memory stores it, with its parity (R7, R187). -/
def LinkEnt.stored (e : LinkEnt) (next : BitVec 18) : BitVec 36 := nativeWord (e.word next)

/-- The entry of a free cell: owner id 511. -/
def freeEnt : LinkEnt := { owner := 511, kind := .free }

/-- The current owner id of a queue: its number until a reset gives it another (R188, R199). -/
def ownerId (s : State) (q : Nat) : Nat := tabGet q s.pool.owner q

/-- The owner id of cells that are held outside any queue (Table 09.1). -/
def ownerOut : Nat := 384

/-- A header and `n` further cells of a kind, chained in slot order. -/
def chainOf (owner : Nat) (old : Bool) (kind : CellKind) (n : Nat) : List LinkEnt :=
  { owner := owner, kind := .header, old := old } :: List.replicate n { owner := owner, kind := kind }

/-- The chain of a request of which `n` cells are held. -/
def requestChain (owner : Nat) (old : Bool) (n : Nat) : List LinkEnt :=
  if n = 0 then [] else chainOf owner old .request (n - 1)

/-- The cells of a queued item that have landed (R189, R195). -/
def itemChain (s : State) (i : Item) : List LinkEnt := requestChain (ownerId s i.q) i.old (landed s i)

/-- The cells of a granted request: what it still holds, and the four that a read has claimed (R192, R193). -/
def txnChain (t : Txn) : List LinkEnt :=
  requestChain ownerOut t.item.old t.cells ++
    (if opReads t.item.op then List.replicate 4 { owner := ownerOut, kind := .response } else [])

/-- The cells of a response in EQ(p, RSP) (Table 09.4). -/
def rspChain (s : State) (p : Nat) (r : Rsp) : List LinkEnt :=
  chainOf (ownerId s (129 + 2 * p)) false .response (rspHeld r - 1)

/-- The cells of an item that waits for the sweep, under the id that its queue had (R199). -/
def lostChain (i : Item) : List LinkEnt := requestChain i.oid i.old (i.stored.getD (opCells i.op))

/-- The entries of every cell that is held: of queued items, granted requests, fences, egress queues and items that wait
for the sweep, and those that no queue releases (Table 09.4, R201, R202). -/
def poolCells (s : State) : List LinkEnt :=
  s.pool.items.flatMap (itemChain s) ++ s.pool.txns.flatMap txnChain ++
    s.pool.fences.map (fun _ => { owner := ownerOut, kind := .header }) ++
    s.pool.eq.flatMap (fun e => e.2.flatMap (rspChain s e.1)) ++ s.pool.lost.flatMap (fun e => lostChain e.2) ++
    List.replicate s.pool.stuck { owner := ownerOut, kind := .request }

/-- Cells of the pool in use. -/
def poolHeld (s : State) : Nat := (poolCells s).length

/-- FREE_CELLS: the cells that both bitmaps mark free; a cell of a bad row is held in both (R187, R204, Table 14.4). -/
def freeCells (s : State) : Nat := 262144 - poolHeld s - regVal s 0x2400 0x0F 0

/-- The item count of a queue; EQ(p, REQ) stays empty (R188). -/
def queueCount (s : State) (q : Nat) : Nat :=
  if q < 128 then (s.pool.items.filter (fun i => i.q == q)).length
  else if q % 2 = 1 then (eqOf s ((q - 128) / 2)).length
  else 0

/-- The chain of a queue from head to tail, item by item (R187). -/
def queueChain (s : State) (q : Nat) : List LinkEnt :=
  if q < 128 then (s.pool.items.filter (fun i => i.q == q)).flatMap (itemChain s)
  else if q % 2 = 1 then (eqOf s ((q - 128) / 2)).flatMap (rspChain s ((q - 128) / 2))
  else []

end Sys2Proof.Machine
end

