-- ==== Sys2Proof/Machine/Frame.lean ====
section
/-! DEFINITION. The frame: its strobe with the duties of Tables 02.5 and 02.6, the snapshots of R342, the roll-over of
R343, and its last cycle (R29 to R37, R46, R47, R49). -/

namespace Sys2Proof.Machine

-- Snapshots (R342)

/-- Set a snapshot whose default is 0. -/
def snapPut (idx sub row v : Nat) (s : State) : State := { s with regs := tabPut 0 s.regs (okey idx sub row) v }

/-- Egress cells that a link holds, its partner agent's items included (R190). -/
def egressAll (s : State) (p : Nat) : Nat := egressHeld s p + ((eqOf s p).filter rspPartner).length

/-- The snapshots of link p. -/
def snapLink (s : State) (p : Nat) : State :=
  snapPut (linkIdx p 8) 1 0 (egressAll s p) (snapPut (linkIdx p 8) 2 0 (eqOf s p).length
    (snapPut (linkIdx p 2) 2 0 (linkOf s p).held.length (snapPut (linkIdx p 4) 3 0 (tagCount s p) s)))
where
  /-- Tags outstanding on link p (R169). -/
  tagCount (s : State) (p : Nat) : Nat := if h : p < 128 then (tagsOf s (.link ⟨p, h⟩)).length else 0

/-- The snapshots of media port m. -/
def snapMedia (s : State) (m : Nat) : State :=
  let x := mediaOf s m
  let s := (List.range 8).foldl (fun s k =>
    snapPut (iqIdx m) (0x10 + k) 0 (s.pool.items.filter (fun i => i.q == m * 8 + k)).length s) s
  snapPut (mpIdx m) 3 0 x.outR.length (snapPut (mpIdx m) 4 0 x.outW.length
    (snapPut (mpIdx m) 5 0 x.fifoW.length (snapPut (mpIdx m) 6 0 x.fifoR.length s)))

/-- S_HELD of every stream row that has an account. -/
def snapHeld (s : State) : State :=
  let s := { s with regs := s.regs.filter (fun e => !(okeyIdx e.1 == 0x4001 && okeySub e.1 == 0x13)) }
  s.accts.foldl (fun s e =>
    if e.2.closing then s
    else
      match streamRow s (e.1 / 4096) (e.1 % 4096) with
      | some r => snapPut 0x4001 0x13 r e.2.held s
      | none => s) s

/-- Latch every object that holds the state at the last frame strobe (R342). -/
def snapshots (s : State) : State :=
  let cached := (s.tagc.ways.filter (fun e => e.2.dirty || e.2.wb.isSome)).length
  let t := (List.range 16).foldl snapMedia ((List.range 128).foldl snapLink s)
  let t := snapPut 0x2500 7 0 s.ev.backlog.length (snapPut 0x6040 4 0 cached t)
  let t := snapPut 0x6080 7 0 (s.pool.txns.filter inMerger).length t
  let t := snapPut 0x60A0 1 0 (s.accts.filter (fun e => e.2.closing)).length t
  snapHeld (regPut 0x2080 5 0 (freeCells s) t)

-- The slots of the frame that ends (R36, R37, R259)

/-- Idle cycles of a degraded port in a frame: one in five (R40). -/
def voidCycles (x : Media) : Nat := if x.degraded then 204 else 0

/-- The slot counts of a direction in the order of SLOTS_LAST_FRAME: classes, then idle (Table 02.7). -/
def slotRow (x : Media) (d : Dir) : List Nat :=
  let n := fun (c : Cls) => tabGet 0 x.slots (slotKey d (clsNo c))
  let l := match d with
    | .w => [n .fg, n .tg, n .rk, n .mx]
    | .r => [n .fg, n .tg, n .sp, n .rk, n .mx]
  l ++ [1024 - voidCycles x - l.foldl (fun a b => a + b) 0]

/-- SLOTS_LAST_FRAME of port m, and counts at zero for the new frame (R37). -/
def slotsRestart (s : State) (m : Nat) : State :=
  let x := mediaOf s m
  let l := slotRow x .w ++ slotRow x .r ++ [voidCycles x, voidCycles x]
  let s := (List.range 13).foldl (fun s i => snapPut (0x6100 + m) (i + 1) 0 (l.getD i 0) s) s
  mediaPut m { x with slots := [] } s

/-- Cycles from a up to b of a frame that have a slot: on a degraded port one in five has none (R40). -/
def slotCycles (x : Media) (a b : Nat) : Nat := if x.degraded then (b - a) - (b / 5 - a / 5) else b - a

/-- Count the slots of the cycles from this one up to `c` that a busy direction of port m withheld: all but one that is
granted in this cycle (R259). -/
def busyPort (c : Nat) (s : State) (m : Nat) : State :=
  let n := fun (d : Dir) => slotCycles (mediaOf s m) s.clk.cycle c - (if slotTaken s m d then 1 else 0)
  let lost := fun (d : Dir) => if dirBusy s m d then n d else 0
  if lost .w + lost .r = 0 then s else countUp (mpStat m) 8 0 (lost .w + lost .r) s

/-- The clock stands at cycle `c` of the frame: withheld slots are counted (R259). -/
def clockTo (c : Nat) (s : State) : State :=
  let s := if c ≤ s.clk.cycle then s else (List.range 16).foldl (busyPort c) s
  { s with clk := { s.clk with cycle := max c s.clk.cycle } }

/-- What lands after cycle `t0`: headers in queues that are being flushed, and orphans. A flush bit cleared in an earlier
cycle acts no more (R195, R196). -/
def landings (t0 : Nat) (s : State) : State :=
  let s := orphansDue (now s) (landFlush t0 s)
  { s with pool := { s.pool with flushEnd := s.pool.flushEnd.filter (fun e => e.2 == now s) } }

/-- Cycles pass up to cycle `c` of the frame, with what lands in them (R195, R259). -/
def cyclesTo (c : Nat) (s : State) : State := landings (now s) (clockTo c s)

/-- The tick of an empty command queue: the next cycle begins. The last cycle of a frame stands until the strobe. -/
def doTick (s : State) : State :=
  if s.clk.running then cyclesTo (min 1023 (s.clk.cycle + 1)) s else s

-- The last cycle (R49, R356, R391)

/-- The due items of a direction of port m that are not granted: items of earlier frames, and in the write direction
the write halves of merged partial writes (R42, R49, R177). -/
def lateItems (s : State) (m : Nat) (d : Dir) : List Item :=
  s.pool.items.filter (fun i => i.q / 8 == m && itemLane i == (d, Cls.fg) && itemDue s i) ++
    (match d with
     | .w => (s.pool.txns.filter (fun t => t.port == m && t.st == .merged)).map (fun t => t.item)
     | .r => [])

/-- EV_GRANT_LATE of a direction of port m: direction, due items, the oldest enqueue frame (R49). -/
def lateDir (m : Nat) (s : State) (d : Dir) : State :=
  match lateItems s m d with
  | [] => s
  | i :: t =>
    let f := t.foldl (fun n j => min n (enqFrame j)) (enqFrame i)
    raise .grantLate (srcMedia m 2) (match d with
      | .w => 0
      | .r => 1) (i :: t).length (f % 2 ^ 32) s

/-- EV_GRANT_LATE of port m, counted once a frame (R49). -/
def latePort (s : State) (m : Nat) : State :=
  if lateItems s m .w = [] ∧ lateItems s m .r = [] then s
  else count1 (0x6100 + m) 0x10 0 (lateDir m (lateDir m s .w) .r)

/-- FRAME_END: cycle 1,023, once in a frame (R49, R356, R359, R391). -/
def doFrameEnd (s : State) : State :=
  if s.clk.running = false ∨ s.ev.ended = true then s
  else
    let s := cyclesTo 1023 s
    evFrameEnd (if s.pwr.phase = .service then (List.range 16).foldl latePort s else s)

-- The strobe (Tables 02.5 and 02.6)

/-- RW values that take effect at the strobe. -/
def rwApply (s : State) : State :=
  s.rwNext.foldl (fun s e => regPut (okeyIdx e.1) (okeySub e.1) (okeyRow e.1) e.2 s) { s with rwNext := [] }

/-- Materials of discarded slots are erased in the frame after (Table 06.4). -/
def eraseNow (s : State) : State :=
  s.keys.eraseNext.foldl (fun s k =>
    let x := slotOf s k
    if x.st = .empty then slotPut k { x with matA := none, matB := none } s else s)
    { s with keys := { s.keys with eraseNext := [] } }

/-- Ports that no slice serves from this strobe on lose their work as a FAILED port does (Table 14.6). -/
def newlyUnserved (before : State) (s : State) : State :=
  (List.range 16).foldl (fun s m =>
    if (mediaOf s m).unserved = true ∧ (mediaOf before m).unserved = false then portEmpty m s else s) s

/-- Every watch-list count restarts at zero. -/
def watchRestart (s : State) : State :=
  { s with rep := { s.rep with watch := s.rep.watch.map (fun e => (e.1, e.2.map (fun w => { w with count := 0 }))) } }

/-- Watch-list counts restart at the first strobe of a window; a changed length applies from the first aligned window after
the apply, and the old one until then (R293, R306, R33). -/
def rowWindow (s : State) : State :=
  let new := decide (frameNo s % cfgVal s 0x2400 2 0 = 0)
  match s.rep.rowBase with
  | none => if new then watchRestart s else s
  | some (old, f) =>
    if new = true ∧ f < frameNo s then watchRestart { s with rep := { s.rep with rowBase := none } }
    else if frameNo s % old = 0 then watchRestart s
    else s

/-- STALL_FRAMES of a link whose window was full in the frame that ends (R222). -/
def stallCount (s : State) (p : Nat) : State :=
  let x := linkOf s p
  let s := if x.stalled then count1 (linkIdx p 2) 9 0 s else s
  if x.up = true ∨ x.stalled = true then linkPut p { x with stalled := x.up && winFull x } s else s

/-- A master that MASTER_RESET re-enables comes back once its outstanding tags have completed (R184, R185). -/
def masterBack (s : State) (n : Nat) : State :=
  if h : n < 8 then
    if tagsOf s (.master ⟨n, h⟩) = [] then
      { s with pool := { s.pool with
          masterStop := s.pool.masterStop.filter (fun k => k != n)
          masterReset := s.pool.masterReset.filter (fun k => k != n) } }
    else s
  else s

/-- Statistics roll over (R343). -/
def statRoll (s : State) : State :=
  (List.range 9).foldl (fun s i =>
    snapPut 0x6000 (i + 1) 0 0 (snapPut 0x6000 (i + 0x11) 0 (regVal s 0x6000 (i + 1) 0) s)) s

/-- The superframe duties: roll-over, the measured clock (open, log 7), and the start of a digest refresh unless a commit
published a digest during the superframe that ends (Table 02.6). -/
def superDuties (s : State) : State :=
  if frameNo s % 1024 = 0 then
    match takeFree s with
    | (n, s) =>
      let s := snapPut 0x2100 3 0 (Config.engClkKhz n).toNat (statRoll s)
      { s with commit := { s.commit with refresh := !s.commit.digestInSf, digestInSf := false } }
  else s

/-- What the strobe does before the frame number advances: the close of cycle 1,023 where no FRAME_END has come, snapshots,
link stalls and the slot counts of the frame that ends (R391, R342, R222, R37). -/
def strobeEnds (s : State) : State :=
  (List.range 16).foldl slotsRestart ((List.range 128).foldl stallCount (snapshots (clockTo 1024 (doFrameEnd s))))

/-- The slices' duties at the strobe, and the ports that they leave unserved (Table 14.6). -/
def strobeSlices (s : State) : State := newlyUnserved s (slicesStrobe (frameNo s) s)

/-- Jack starts empty where a JACK_INVALIDATE or a commit asked for it. -/
def strobeJack (s : State) : State := if s.jack.clearNext then jackClear s else s

/-- Masters come back at the strobe (R185). -/
def strobeMasters (s : State) : State := s.pool.masterReset.foldl masterBack s

/-- The duties of cycle 0 of frame `last` + 1 (Tables 02.5 and 02.6). -/
def strobeDuties (last : Nat) (s : State) : State :=
  let s := strobeSlices (strobeJack (superDuties (warnGlitchReport (sumsRestart (evClose last s)))))
  let s := nvActs (eraseNow (rwApply (rowWindow (tagWindow s))))
  drainPoll (tagMakeRoom (rekeyStrobe (strobeMasters s)))

/-- Cycle 0 of the next frame (R28). -/
def frameNext (s : State) : State := { s with clk := { s.clk with frame := s.clk.frame + 1#56, cycle := 0 } }

/-- FRAME_STROBE: cycle 0 of the next frame, with the duties of Tables 02.5 and 02.6 (R46, R47). -/
def doFrameStrobe (s : State) : State :=
  if s.clk.running = false then s
  else strobeDuties (frameNo s) (landings (frameNo s * 1024 + 1023) (frameNext (strobeEnds s)))

/-- FRAME_STROBE. -/
def execFrameStrobe (s : State) : Host.Outcome State Fault Refusal := .next (doFrameStrobe s)

/-- FRAME_END. -/
def execFrameEnd (s : State) : Host.Outcome State Fault Refusal := .next (doFrameEnd s)

end Sys2Proof.Machine
end

