-- ==== Sys2Proof/Machine/Dict.lean ====
section
/-! DEFINITION. The dictionary: what every object reads as, the principal classes, and the refusals of Table 15.5
(R308 to R313, R324, R335, R337 to R348). -/

namespace Sys2Proof.Machine

-- Result codes (Table 15.5)

/-- OK. -/
def rcOk : Byte := 0x00#8
/-- NO_OBJECT. -/
def rcNoObject : Byte := 0x01#8
/-- NO_ACCESS. -/
def rcNoAccess : Byte := 0x02#8
/-- ACCESS. -/
def rcAccess : Byte := 0x03#8
/-- RANGE. -/
def rcRange : Byte := 0x04#8
/-- STAGE_OWNED. -/
def rcStageOwned : Byte := 0x05#8
/-- BUSY. -/
def rcBusy : Byte := 0x06#8
/-- NOT_PERMITTED. -/
def rcNotPermitted : Byte := 0x07#8
/-- SESSION. -/
def rcSession : Byte := 0x08#8
/-- SEQUENCE. -/
def rcSequence : Byte := 0x09#8
/-- FORMAT. -/
def rcFormat : Byte := 0x0A#8
/-- COMMIT_ABORTED. -/
def rcCommitAborted : Byte := 0x0B#8
/-- NOTHING_STAGED. -/
def rcNothingStaged : Byte := 0x0C#8

-- Principals (R309)

/-- A principal class: local firmware, debug, or the fleet manager under one management key. -/
inductive Who where
  | l
  | d
  | f (mki : Nat)
deriving DecidableEq, Repr

/-- The class is in a rights set. -/
def Who.allowed (w : Who) (r : Rights) : Bool :=
  match w with
  | .l => r.l
  | .d => r.d
  | .f _ => r.f

/-- STAGE_OWNER's number of a writer (Table 15.8). -/
def Who.owner (w : Who) : Nat :=
  match w with
  | .l => 1
  | .d => 0
  | .f k => 8 + k

-- Numbers of states

/-- COMMIT_STATE's number of a commit phase (Table 15.8). -/
def phaseNo (p : CommitPhase) : Nat :=
  match p with
  | .idle => 0
  | .staging => 1
  | .preparing => 2
  | .pending => 3

/-- STATE of a slot (Table 06.2). -/
def slotStNo (x : SlotSt) : Nat :=
  match x with
  | .empty => 0
  | .loaded => 1
  | .active => 2
  | .rotating => 3
  | .retiring => 4
  | .spent => 5
  | .zeroized => 6

/-- CX_STATE (Table 07.7). -/
def cxStNo (x : CxSt) : Nat :=
  match x with
  | .free => 0
  | .starting => 1
  | .running => 2
  | .suspended => 3
  | .completing => 4

/-- A truth value as an object value. -/
def bit (b : Bool) : Nat := if b then 1 else 0

/-- A mask of the numbers below n that satisfy a test. -/
def maskOf (n : Nat) (f : Nat → Bool) : Nat := (List.range n).foldl (fun m i => if f i then m + 2 ^ i else m) 0

/-- A boundary as CX_BOUND and CX_CKPT show it: bit 63 for END (Table 07.7). -/
def boundVal (b : Nat) : Nat := if b = walkEnd then 2 ^ 63 else b

-- Values computed from the state

/-- The commit objects (Table 15.8). -/
def roCommit (s : State) (sub : Nat) : Nat :=
  match sub with
  | 0x02 => phaseNo s.commit.phase + 16 * s.commit.cause
  | 0x03 => s.commit.owner
  | 0x04 => phaseNo s.commit.phase + 16 * s.commit.cause
  | 0x08 => s.commit.deferCount
  | 0x09 => s.commit.target
  | 0x0A => s.commit.lastApply
  | 0x0B => s.commit.lastAbortObj
  | 0x10 => s.commit.digest.toNat
  | 0x11 => s.commit.digestStaged.toNat
  | 0x12 => s.commit.digestCheck.toNat
  | 0x13 => s.commit.serBytes
  | 0x14 => (serialise s true).length
  | 0x15 => bit s.commit.drift
  | _ => regVal s 0x2200 sub 0

/-- The session value of MKk (R317). -/
def sessionVal (s : State) (k : Nat) : Nat := s.nvu.powerCycles % 65536 * 65536 + (tabGet {} s.sessions k).loads.toNat

/-- ZEROIZE_STATE (Table 06.15). -/
def zeroizeState (s : State) : Nat :=
  let z := s.keys.zer
  if z.lowQual then 1 else if holdoffActive s then 2 else if z.erased then 3 else 0

/-- PWR_STATE (Table 13.14). -/
def pwrState (s : State) : Nat :=
  match s.pwr.phase with
  | .service => if s.pwr.stage = .served then 1 else 0
  | .draining => 2
  | .parked => 3

/-- TOP_STATE (Table 14.9, R304). -/
def topState (s : State) : Nat := if s.rep.topGone then 2 else if (sliceOf s 16).st = 1 then 0 else if (sliceOf s 16).st = 3 then 2 else 1

/-- Objects of indices 2000 to 25FF that are computed from the state. -/
def roGlobal (s : State) (idx sub : Nat) : Nat :=
  match idx * 256 + sub with
  | 0x204006 => bit (s.tagc.flushSet != [])
  | 0x205005 => bit (s.jack.prefill.isSome || s.jack.probes.any (fun e => e.2.any (fun p => p.prefill)))
  | 0x206001 => bit s.keys.kek.isSome
  | 0x206002 => zeroizeState s
  | 0x206003 => maskOf 8 (fun k => (tabFind s.keys.mks k).isSome)
  | 0x207002 => s.rk.queue.length
  | 0x208003 => ingressNow s
  | 0x208004 => (listedRows s false 0x4001).foldl (fun n r =>
      if cfgVal s 0x4001 1 r = 1 then n + cfgVal s 0x4001 0x10 r else n) 0
  | 0x208006 => s.pool.spare.length
  | 0x210001 => frameNo s
  | 0x210002 => frameNo s / 1024
  | 0x230002 => pwrState s
  | 0x230006 => 256 - s.nvu.fmtSlots.length
  | 0x240006 => (logUsed s).length
  | 0x240008 => topState s
  | 0x240009 => (sliceOf s 16).port
  | 0x24000A => maskOf 16 (fun m => (mediaOf s m).degraded)
  | 0x24000B => maskOf 16 (fun m => (mediaOf s m).unserved)
  | 0x240010 => s.rep.queue.length
  | 0x250003 => bit s.ev.clearing.isSome
  | 0x25000B => maskOf 8 (fun k => (tabFind s.ev.subs k).isSome)
  | _ => regVal s idx sub 0

/-- LINK_STATE (Table 10.10); a link that BIST holds down reads 0 for ever (Table 14.3). -/
def linkState (x : LinkSt) : Nat :=
  if x.bistDown then 0 else if x.up then (if x.lock then 2 else 3) else if x.lock then 1 else 0

/-- Objects of the block of link p (Table 16.7). Values that a negotiation chose read 0 while the link is not up. -/
def roLink (s : State) (idx p g sub : Nat) : Nat :=
  let x := linkOf s p
  let neg := fun (v : Nat) => if x.up then v else 0
  match g * 256 + sub with
  | 0x001 => 6 * p
  | 0x002 => ((listedRows s false 0x4001).filter (fun r => cfgVal s 0x4001 1 r == 1 && cfgVal s 0x4001 2 r == p)).length
  | 0x101 => linkState x
  | 0x102 => bit x.light
  | 0x103 => x.rate
  | 0x201 => x.nxt
  | 0x203 => x.e
  | 0x20A => neg x.force.depth
  | 0x20B => neg x.force.tAck
  | 0x20C => neg (max x.force.tReplay (4 * x.force.tAck))
  | 0x301 => neg x.force.version
  | 0x302 => neg x.force.classes
  | 0x303 => neg x.force.maxTags
  | 0x304 => neg x.force.hbUs
  | 0x309 => x.resync
  | _ => regVal s idx sub 0

/-- Objects of the blocks of media port m, slice i and context c (Table 16.8). -/
def roBlock (s : State) (idx sub : Nat) : Nat :=
  if idx < 0x3900 then
    let x := mediaOf s ((idx - 0x3800) / 16)
    match idx % 16 * 256 + sub with
    | 0x001 => bit x.failed
    | 0x002 => bit (x.flushReq || x.flushOut || x.drainOut)
    | _ => regVal s idx sub 0
  else if idx < 0x3A00 then
    let x := sliceOf s ((idx - 0x3900) / 8)
    if idx % 8 = 1 then (if sub ≤ 12 then (pipeOf x (sub - 1)).st + 16 * (pipeOf x (sub - 1)).hist else regVal s idx sub 0)
    else
      match sub with
      | 1 => x.st
      | 2 => x.port
      | 3 => x.duty.toNat
      | 4 => x.checker
      | 5 => x.shadow
      | _ => regVal s idx sub 0
  else
    let c := ctxOf s ((idx - 0x3A00) / 8)
    match sub with
    | 0x01 => cxStNo c.st
    | 0x02 => c.kidx
    | 0x03 => c.cause
    | 0x04 => c.gen.toNat
    | 0x05 => boundVal c.bound
    | 0x06 => boundVal c.ckpt
    | 0x07 => c.ahead.length
    | 0x15 => if c.st = .free then 0 else ctxLines s c c.bound walkEnd
    | _ => regVal s idx sub 0

/-- Fields of the key slot table that are computed (Table 06.2, Table 07.7). -/
def roSlot (s : State) (sub k : Nat) : Nat :=
  let x := slotOf s k
  let q := fun (c : Nat) => s.rk.queue.any (fun e => e.kidx == k && e.cause == c)
  match sub with
  | 0x01 => slotStNo x.st
  | 0x04 => x.gen.toNat
  | 0x05 => bit x.matA.isSome + 2 * bit x.matB.isSome + 4 * bit x.two
  | 0x06 => x.kcvA.toNat
  | 0x07 => x.kcvB.toNat
  | 0x09 => bit x.hwQueued
  | 0x0B => slotStNo x.prior
  | 0x0D => bit (q 1) + 2 * bit (q 2) + 4 * bit (q 3) + 8 * bit (q 4)
  | _ => regVal s 0x4000 sub k

/-- Fields of the stream table that are computed from the row's account (Table 11.9). -/
def roStream (s : State) (sub row : Nat) : Nat :=
  let a := tabGet {} s.accts (acctKey (cfgVal s 0x4001 2 row) (cfgVal s 0x4001 3 row))
  if cfgVal s 0x4001 1 row = 1 ∧ a.closing = false then
    match sub with
    | 0x11 => a.granted
    | 0x12 => a.received
    | 0x14 => a.returned
    | _ => regVal s 0x4001 sub row
  else
    match sub with
    | 0x13 => regVal s 0x4001 sub row
    | 0x15 => regVal s 0x4001 sub row
    | _ => 0

/-- A value that is not RWS: computed where the state holds it elsewhere, else as it stands in `regs`. -/
def roVal (s : State) (idx sub row : Nat) : Nat :=
  if idx < 0x2000 then regVal s idx sub 0
  else if idx = 0x2200 then roCommit s sub
  else if idx = 0x2201 then
    (if sub ≤ 8 then sessionVal s (sub - 1)
     else if sub < 0x20 then (tabGet {} s.sessions (sub - 0x11)).lastSeq.toNat
     else regVal s idx sub 0)
  else if idx < 0x3000 then roGlobal s idx sub
  else if idx < 0x3800 then roLink s idx ((idx - 0x3000) / 16) (idx % 16) sub
  else if idx < 0x4000 then roBlock s idx sub
  else if idx = 0x4000 then roSlot s sub row
  else if idx = 0x4001 then roStream s sub row
  else if idx = 0x4002 ∧ sub = 4 then
    (s.keys.slots.filter (fun e => e.1 != 0 && e.2.st != .empty && cfgVal s 0x4000 2 e.1 == row)).length
  else if idx = 0x4003 then (if cfgVal s 0x4003 3 row = 1 then fmtMark s row % 2 ^ 40 else 0)
  else if idx = 0x5010 ∧ sub = 1 then bit s.keys.debugLock
  else regVal s idx sub row

/-- The CMD objects whose Effect states what they read as; the others read an open value (Table 15.2; log 24). -/
def cmdStated (idx sub : Nat) : Bool :=
  decide (idx = 0x2040) || (decide (idx = 0x2050) && decide (sub = 5)) || (decide (idx = 0x2200) && decide (sub = 4)) ||
    decide (idx = 0x2500) || (decide (0x3800 ≤ idx) && decide (idx < 0x3900))

/-- The value of an object in a view (R309, R324, Table 15.2); a WO object reads 0. -/
def objVal (staged : Bool) (o : Obj) (idx sub row : Nat) (s : State) : Nat × State :=
  match o.acc with
  | .rws => (viewVal s staged idx sub row, s)
  | .wo => (0, s)
  | .rw => (regVal s idx sub row, s)
  | .cmd =>
    if cmdStated idx sub then (roVal s idx sub row, s)
    else
      match takeFree s with
      | (n, s) => ((Config.cmdRead n).toNat % o.ty.bound, s)
  | _ => (roVal s idx sub row, s)

-- Which object an access reaches (R309, R339)

/-- The refusal of a read that Table 15.5 gives, or the object; `row` is 0 for objects that are no table. A row select is
listed and belongs to the window's classes: the window answers it before it asks here, and a message has no access to it
(R313, R339; log 56). -/
def objReach (w : Who) (idx sub row : Nat) : Except Byte Obj :=
  match objFind idx sub with
  | none => .error (if tableRows idx ≠ 0 ∧ (sub = 0xFE ∨ sub = 0xFF) then rcNoAccess else rcNoObject)
  | some o =>
    if tableRows idx ≠ 0 ∧ tableRows idx ≤ row then .error rcNoObject
    else if w.allowed o.rights then .ok o
    else .error rcNoAccess

end Sys2Proof.Machine
end

