-- ==== Sys2Proof/Machine/MsgSend.lean ====
section
/-! DEFINITION. Forming management messages: responses and EVENT messages, and the command EVENT_MESSAGE (R315, R316,
R318, R359). -/

namespace Sys2Proof.Machine

/-- The header of a message (Table 15.3). -/
def msgHead (op mki flags : Byte) (seq session gen : Nat) : List Byte :=
  [0x01#8, op, mki, flags] ++ leBytes 4 seq ++ leBytes 4 session ++ leBytes 4 gen

/-- The CMAC over the message type, the enterprise number and the payload before the CMAC (R316). -/
def msgMac (k : Key) (enterprise : Nat) (payload : List Byte) : Block := cmac k ([0x7F#8] ++ beBytes 4 enterprise ++ payload)

/-- ENTERPRISE_NO (Table 16.4). -/
def enterpriseNo : Nat := 0xF1B5

/-- Send a message under MKk; none can be formed without the key (Table 15.7). -/
def msgSend (eid op : Byte) (k : Nat) (result : Byte) (seq : BitVec 32) (body : List Byte) (s : State) : State :=
  match tabFind s.keys.mks k with
  | none => s
  | some key =>
    let mki := BitVec.ofNat 8 k
    let head := msgHead op mki result seq.toNat (sessionVal s k) (cfgGen s)
    let m : MsgOut :=
      { eid := eid, op := op, mki := mki, result := result, seq := seq, session := BitVec.ofNat 32 (sessionVal s k),
        cfgGen := BitVec.ofNat 32 (cfgGen s), body := body, cmac := msgMac key enterpriseNo (head ++ body) }
    { s with mmTx := s.mmTx ++ [m] }

/-- The key index that a request names. -/
def hdrKey (h : MsgHdr) : Nat := h.mki.toNat % 8

/-- Answer a request; an answer other than OK counts in MSG_REFUSED (R316, Table 15.8). `op` is the request's code. -/
def msgAnswer (h : MsgHdr) (op : Nat) (rc : Byte) (seq : BitVec 32) (body : List Byte) (s : State) : State :=
  if (tabFind s.keys.mks (hdrKey h)).isNone then s
  else
    let s := if rc = rcOk then s else count1 0x2201 0x21 0 s
    msgSend h.eid (BitVec.ofNat 8 (op + 0x80)) (hdrKey h) rc seq body s

/-- Take the oldest record of a subscription's queue. -/
def subTake (k : Nat) (s : State) : Option (EvRec × Subscr) × State :=
  match tabFind s.ev.subs k with
  | none => (none, s)
  | some sb =>
    match sb.queue with
    | [] => (none, s)
    | r :: t =>
      let sb := { sb with queue := t, seq := sb.seq + 1#32 }
      (some (r, sb), { s with ev := { s.ev with subs := tabSet s.ev.subs k sb } })

/-- EVENT_MESSAGE: the oldest matching record of subscription k goes to its endpoint, with the subscription's own count
in SEQ (R318, R359). -/
def doEventMessage (k : Nat) (s : State) : State :=
  match subTake k s with
  | (none, s) => s
  | (some (r, sb), s) => msgSend sb.eid 0x88#8 k 0x00#8 sb.seq (recBytes r) s

/-- EVENT_MESSAGE. -/
def execEventMessage (k : Fin 8) (s : State) : Host.Outcome State Fault Refusal := .next (doEventMessage k.val s)

end Sys2Proof.Machine
end

