-- ==== Sys2Proof/Machine/CommitUnit.lean ====
section
/-! DEFINITION. The commit and consistency unit: the staging set, the checks, the sample, the apply, copy-back, the digest and
its refresh, and the commands COMMIT_SAMPLE, COMMIT_DEFER_LIMIT, COMMIT_APPLY, COMMIT_PREPARED, COPY_BACK_DONE,
DIGEST_REFRESH_DONE, STAGE_BREAKABLE and STARTUP_IMAGE_APPLY (R319 to R334, R340, R341). -/

namespace Sys2Proof.Machine

-- The staging set (R319, R320)

/-- Discard the staging set: no changed bit, no owner. -/
def stageDiscard (s : State) : State :=
  { s with staged := [], commit := { s.commit with phase := .idle, owner := 0, breakable := false } }

/-- Another writer discards a breakable staging set and is the new owner: EV_STAGE_BROKEN with the owners and the entries
discarded (R320). -/
def stageBreak (w : Who) (s : State) : State :=
  let s := stageDiscard (raise .stageBroken (srcGlobal 42) s.commit.owner w.owner s.staged.length s)
  { s with commit := { s.commit with owner := w.owner, ownerSeen := frameNo s } }

/-- Any dictionary access of the owner restarts its idle time (R320). -/
def ownerSeen (w : Who) (s : State) : State :=
  if s.commit.owner ≠ 0 ∧ s.commit.owner = w.owner then
    { s with commit := { s.commit with ownerSeen := frameNo s, breakable := false } }
  else s

/-- The state that COMMIT or an RWS write by w works on once the owner's rights are settled, or a refusal (R320). -/
def stageEnter (w : Who) (s : State) : Except Byte State :=
  if s.commit.phase = .preparing ∨ s.commit.phase = .pending then .error rcBusy
  else if s.commit.owner = 0 ∨ s.commit.owner = w.owner ∨ s.staged = [] then .ok s
  else if s.commit.breakable then .ok (stageBreak w s)
  else .error rcStageOwned

/-- A write to an RWS object enters the staging set (R319, R321, R328). -/
def stageWrite (w : Who) (idx sub row v : Nat) (s : State) : Byte × State :=
  if (tabFind s.commit.copyBack (objUnit idx sub)).isSome then (rcBusy, s)
  else
    match stageEnter w s with
    | .error rc => (rc, s)
    | .ok s =>
      (rcOk, { s with staged := tabSet s.staged (okey idx sub row) v
                      commit := { s.commit with phase := .staging, owner := w.owner, ownerSeen := frameNo s,
                                                breakable := false } })

/-- STAGE_BREAKABLE: at a frame strobe, the owner has been idle for STAGE_IDLE_SF superframes (R32, R320). -/
def doStageBreakable (s : State) : State :=
  if s.commit.owner ≠ 0 ∧ s.clk.cycle = 0 ∧ framesOver s s.commit.ownerSeen (1024 * cfgVal s 0x2200 7 0) = true then
    { s with commit := { s.commit with breakable := true } }
  else s

/-- STAGE_BREAKABLE. -/
def execStageBreakable (s : State) : Host.Outcome State Fault Refusal := .next (doStageBreakable s)

/-- A staged entry is listed. -/
def isStaged (s : State) (k : Nat) : Bool := (tabFind s.staged k).isSome

/-- The staged entries whose value differs from the value in force. -/
def changedKeys (s : State) : List Nat :=
  (s.staged.filter (fun e => e.2 != cfgVal s (okeyIdx e.1) (okeySub e.1) (okeyRow e.1))).map (fun e => e.1)

/-- Some changed entry satisfies a test. -/
def changedAny (s : State) (f : Nat → Bool) : Bool := (changedKeys s).any f

-- Checks (R322). Each gives the objects that a breach concerns.

/-- The objects at fault among those that a rule concerns: those staged, or all where none is (log 32). -/
def blame (s : State) (l : List Nat) : List Nat :=
  match l.filter (isStaged s) with
  | [] => l
  | c => c

/-- The slot map that a port has after the apply: its override where enabled, else the default map (Table 02.7). -/
def mapAfter (s : State) (m : Nat) : Nat := if stagedVal s (0x2110 + m) 0x20 0 = 1 then 0x2110 + m else 0x2101

/-- The limits of R35 in one map: minima above maxima, FG and MX minima, RK maxima, and the sums of the minima. -/
def mapFaults (s : State) (idx : Nat) : List Nat :=
  let v := fun (sub : Nat) => stagedVal s idx sub 0
  let k := fun (sub : Nat) => okey idx sub 0
  let pair := fun (p : Nat × Nat) => if v p.2 < v p.1 then blame s [k p.1, k p.2] else []
  let one := fun (sub : Nat) (ok : Bool) => if ok then [] else [k sub]
  let sum := fun (l : List Nat) => if 1024 < l.foldl (fun n i => n + v i) 0 then blame s (l.map k) else []
  [(2, 3), (4, 5), (6, 7), (0x12, 0x13), (0x14, 0x15), (0x16, 0x17), (0x18, 0x19)].flatMap pair ++
    [1, 0x11].flatMap (fun i => one i (decide (768 ≤ v i ∧ v i ≤ 1024))) ++
    [6, 0x18].flatMap (fun i => one i (decide (1 ≤ v i))) ++
    [5, 0x17].flatMap (fun i => one i (decide (v i ≤ 128))) ++
    sum [1, 2, 4, 6] ++ sum [0x11, 0x12, 0x14, 0x16, 0x18]

/-- R35 over every port's map. -/
def chkMaps (s : State) : List Nat := (List.range 16).flatMap (fun m => mapFaults s (mapAfter s m))

/-- A valid extent after the apply, with its row. -/
def extentsAfter (s : State) : List (Nat × Extent) :=
  (listedRows s true 0x4003).filterMap (fun r =>
    if stagedVal s 0x4003 3 r = 1 then
      some (r, { e := r % 4, base := stagedVal s 0x4003 1 r, limit := stagedVal s 0x4003 2 r })
    else none)

/-- Two line ranges [a, b) and [c, d) that share a line. -/
def rangesMeet (a b c d : Nat) : Bool := decide (max a c < min b d)

/-- The objects of an extent row. -/
def extentKeys (r : Nat) : List Nat := [okey 0x4003 1 r, okey 0x4003 2 r, okey 0x4003 3 r]

/-- Pairs of a list, each with the elements after it. -/
def pairsOf {α : Type} : List α → List (α × α)
  | [] => []
  | x :: t => t.map (fun y => (x, y)) ++ pairsOf t

/-- R127 on the extents alone: order, rows of KIDX 0, shared lines. -/
def chkExtents (s : State) : List Nat :=
  let l := extentsAfter s
  l.flatMap (fun x => (if x.1 < 4 then [okey 0x4003 3 x.1] else []) ++
      (if x.2.limit < x.2.base ∨ 2 ^ 40 ≤ x.2.limit then blame s [okey 0x4003 1 x.1, okey 0x4003 2 x.1] else [])) ++
    (pairsOf l).flatMap (fun p =>
      if rangesMeet p.1.2.base (p.1.2.limit + 1) p.2.2.base (p.2.2.limit + 1) then
        blame s (extentKeys p.1.1 ++ extentKeys p.2.1)
      else [])

/-- R127 on the streams: no two valid rows with one (port, stream id), and a valid principal for each. -/
def chkStreams (s : State) : List Nat :=
  let l := (listedRows s true 0x4001).filter (fun r => stagedVal s 0x4001 1 r == 1)
  let v := fun (sub r : Nat) => stagedVal s 0x4001 sub r
  let keys := fun (r : Nat) => [okey 0x4001 1 r, okey 0x4001 2 r, okey 0x4001 3 r]
  (pairsOf l).flatMap (fun p =>
      if v 2 p.1 = v 2 p.2 ∧ v 3 p.1 = v 3 p.2 then blame s (keys p.1 ++ keys p.2) else []) ++
    l.flatMap (fun r =>
      if stagedVal s 0x4002 1 (v 4 r) = 1 then [] else blame s [okey 0x4001 1 r, okey 0x4001 4 r, okey 0x4002 1 (v 4 r)])

/-- A slot whose lines are live: ACTIVE, ROTATING, RETIRING, SPENT or ZEROIZED, and not treated as EMPTY (R80, R127,
R284). -/
def slotLive (x : Slot) : Bool := !slotAsEmpty x && decide (x.st ≠ .loaded)

/-- The state checks of R127: live extents keep BASE and validity and do not shrink, and a slot that is not EMPTY keeps
PRINCIPAL and CLASS. -/
def chkLive (s : State) : List Nat :=
  (changedKeys s).filter (fun k =>
    let idx := okeyIdx k
    let sub := okeySub k
    let row := okeyRow k
    if idx = 0x4000 then (decide (sub = 2) || decide (sub = 3)) && !slotAsEmpty (slotOf s row)
    else if idx = 0x4003 ∧ cfgVal s 0x4003 3 row = 1 ∧ slotLive (slotOf s (row / 4)) = true then
      (match sub with
       | 1 => true
       | 2 => decide (stagedVal s 0x4003 2 row < cfgVal s 0x4003 2 row)
       | _ => true)
    else false)

/-- The objects that place a slot's tag region. -/
def tagKeys (k : Nat) : List Nat := [okey 0x4000 3 k, okey 0x4000 8 k] ++ (List.range 4).flatMap (fun e => extentKeys (k * 4 + e))

/-- The tag regions after the apply: slot, first line, the line after the last (R79). -/
def tagRegionsAfter (s : State) : List (Nat × Nat × Nat) :=
  ((extentsAfter s).foldl (fun l x => insertNat (x.1 / 4) l) []).filterMap (fun k =>
    let b := stagedVal s 0x4000 8 k
    if stagedVal s 0x4000 3 k = 3 then some (k, b, b + tagRegionLines s true k) else none)

/-- R79: tag regions lie within the line addresses and overlap neither extents nor each other. -/
def chkTagRegions (s : State) : List Nat :=
  let l := tagRegionsAfter s
  l.flatMap (fun t =>
      (if 2 ^ 40 < t.2.2 then blame s (tagKeys t.1) else []) ++
        (extentsAfter s).flatMap (fun x =>
          if rangesMeet t.2.1 t.2.2 x.2.base (x.2.limit + 1) then blame s (tagKeys t.1 ++ extentKeys x.1) else [])) ++
    (pairsOf l).flatMap (fun p =>
      if rangesMeet p.1.2.1 p.1.2.2 p.2.2.1 p.2.2.2 then blame s (tagKeys p.1.1 ++ tagKeys p.2.1) else [])

/-- R80 for one live CI slot: TAG_BASE and the offsets of extents in use stay, and the region does not shrink. -/
def chkTagSlot (s : State) (k : Nat) : List Nat :=
  let moved := (extents s false k).filter (fun x => tagOffset s true k x.e != tagOffset s false k x.e)
  (if stagedVal s 0x4000 8 k ≠ cfgVal s 0x4000 8 k then [okey 0x4000 8 k] else []) ++
    (if moved ≠ [] ∨ tagRegionLines s true k < tagRegionLines s false k then
      blame s ((List.range 4).flatMap (fun e => extentKeys (k * 4 + e))) else [])

/-- The slots that the staging set touches, by rows of the slot and extent tables. -/
def stagedSlots (s : State) : List Nat :=
  s.staged.foldl (fun l e =>
    if okeyIdx e.1 = 0x4000 then insertNat (okeyRow e.1) l
    else if okeyIdx e.1 = 0x4003 then insertNat (okeyRow e.1 / 4) l else l) []

/-- R80 over the live CI slots that the staging set touches. -/
def chkTagLive (s : State) : List Nat :=
  (stagedSlots s).flatMap (fun k => if slotLive (slotOf s k) = true ∧ slotClass s k = 3 then chkTagSlot s k else [])

/-- R341: a principal that a slot which is not EMPTY names stays valid. -/
def chkPrincipals (s : State) : List Nat :=
  (changedKeys s).filter (fun k =>
    decide (okeyIdx k = 0x4002) && decide (okeySub k = 1) && decide (stagedVal s 0x4002 1 (okeyRow k) = 0) &&
      s.keys.slots.any (fun e => !slotAsEmpty e.2 && cfgVal s 0x4000 2 e.1 == okeyRow k))

/-- The checks that R326 repeats at every sample: the slot states of R80, R127 and R341. -/
def stateFaults (s : State) : List Nat := chkLive s ++ chkTagLive s ++ chkPrincipals s

/-- R190: the credit windows of the valid streams fit INGRESS_CELLS as it would stand, less BAD_CELLS (Table 14.4). -/
def chkWindows (s : State) : List Nat :=
  let l := (listedRows s true 0x4001).filter (fun r => stagedVal s 0x4001 1 r == 1)
  let sum := l.foldl (fun n r => n + stagedVal s 0x4001 0x10 r) 0
  if ingressCells (stagedVal s 0x2080 1 0) - regVal s 0x2400 0x0F 0 < sum then
    blame s (okey 0x2080 1 0 :: l.flatMap (fun r => [okey 0x4001 1 r, okey 0x4001 0x10 r]))
  else []

/-- R229: T_REPLAY_NS is at least twice T_ACK_NS. -/
def chkTimers (s : State) : List Nat :=
  if stagedVal s 0x2090 3 0 < 2 * stagedVal s 0x2090 2 0 then blame s [okey 0x2090 2 0, okey 0x2090 3 0] else []

/-- R264: the interleave changes only while every slot is EMPTY. -/
def chkInterleave (s : State) : List Nat :=
  if s.keys.slots.any (fun e => e.2.st != .empty) then (changedKeys s).filter (fun k => okeyIdx k == 0x2000) else []

/-- The rows of the macros that hold the stream, principal and extent tables and are bad (Table 01.6; log 21). -/
def badTableRows (s : State) : List Nat := s.rep.badRows.filter (fun r => decide (720 * 1024 ≤ r ∧ r < 752 * 1024))

/-- Table 14.4: no commit makes a table row valid that a bad row holds. -/
def chkBadRows (s : State) : List Nat :=
  (changedKeys s).filter (fun k =>
    let idx := okeyIdx k
    ((decide (idx = 0x4001) && decide (okeySub k = 1)) || (decide (idx = 0x4002) && decide (okeySub k = 1)) ||
        (decide (idx = 0x4003) && decide (okeySub k = 3))) &&
      decide (stagedVal s idx (okeySub k) (okeyRow k) = 1) &&
      (badTableRows s).any (fun r => Config.tableRowIn r idx (okeyRow k)))

-- Growth of CI extents (R159, R283)

/-- A slot whose growth queues a format pass: CI, live and not on its way to EMPTY. -/
def growSlot (s : State) (k : Nat) : Bool :=
  let x := slotOf s k
  slotLive x && decide (slotClass s k = 3) && decide (x.st ≠ .retiring) &&
    !(decide (x.st = .zeroized) && decide (x.prior = .retiring))

/-- The extents of a slot that grow: newly valid, or with LIMIT raised; with the limit before, if valid before. -/
def grownExtents (s : State) (k : Nat) : List (Extent × Option Nat) :=
  (extents s true k).filterMap (fun x =>
    match (extents s false k).find? (fun y => y.e == x.e) with
    | none => some (x, none)
    | some y => if y.limit < x.limit then some (x, some y.limit) else none)

/-- The slots of which a commit grows a CI extent. -/
def grownSlots (s : State) : List Nat := (stagedSlots s).filter (fun k => growSlot s k && !(grownExtents s k).isEmpty)

/-- The grown slots that hold no format entry (R283). -/
def needEntry (s : State) : List Nat := (grownSlots s).filter (fun k => (fmtOf s k).isNone)

/-- R283: the format entries suffice. -/
def chkFormat (s : State) : List Nat :=
  let l := needEntry s
  if 256 < s.nvu.fmtSlots.length + l.length then
    (s.staged.map (fun e => e.1)).filter (fun k => okeyIdx k == 0x4003 && l.contains (okeyRow k / 4))
  else []

/-- Every rule that refuses a commit at once (R322). -/
def commitFaults (s : State) : List Nat :=
  chkMaps s ++ chkExtents s ++ chkStreams s ++ stateFaults s ++ chkTagRegions s ++ chkWindows s ++ chkTimers s ++
    chkInterleave s ++ chkFormat s ++ chkBadRows s

/-- The first offending object in ascending (index, subindex, row) order. -/
def firstFault (l : List Nat) : Option Nat :=
  match l with
  | [] => none
  | k :: t => some (t.foldl min k)

-- The end of a commit that fails

/-- LAST_ABORT_OBJ of an object (Table 15.8). -/
def abortObj (k : Option Nat) : Nat :=
  match k with
  | some k => okeyIdx k + okeySub k * 2 ^ 16 + okeyRow k * 2 ^ 24
  | none => 0

/-- The body of a response with RESULT COMMIT_ABORTED (R315). -/
def abortBody (s : State) : List Byte :=
  leBytes 1 s.commit.cause ++ leBytes 1 s.commit.deferCount ++ leBytes 6 s.commit.lastAbortObj

/-- Answer the COMMIT message that waits for its outcome (R327, R329). -/
def commitReply (rc : Byte) (body : List Byte) (s : State) : State :=
  match s.commit.reply with
  | none => s
  | some h => msgAnswer h 5 rc h.seq body { s with commit := { s.commit with reply := none } }

/-- COMMIT_ABORTED: back to STAGING with the staging set kept, the cause, the offending object and the event
(Table 15.6, Table 15.9). -/
def commitAbort (cause : Nat) (obj : Option Nat) (s : State) : State :=
  let o := abortObj obj
  let s := { s with commit := { s.commit with phase := .staging, decided := .none, cause := cause, lastAbortObj := o } }
  let s := raise .commitAborted (srcGlobal 41) (cause + 256 * s.commit.deferCount) (o % 2 ^ 32) (o / 2 ^ 32) s
  commitReply rcCommitAborted (abortBody s) s

-- COMMIT (R320 to R323)

/-- The earliest frame of a commit received now (R323). -/
def earliestFrame (s : State) : Nat := frameNo s + ((serialise s true).length + 4095) / 4096 + 4

/-- A COMMIT towards a target, all ones for next. The checks of R322 are made at once (log 33). -/
def commitStart (w : Who) (target : Nat) (s : State) : Byte × State :=
  match stageEnter w s with
  | .error rc => (rc, s)
  | .ok s =>
    match s.staged with
    | [] => (rcNothingStaged, s)
    | _ =>
      let e := earliestFrame s
      let t := if target = 2 ^ 64 - 1 then e else target
      let s := { s with commit := { s.commit with deferCount := 0 } }
      if t < e then (rcCommitAborted, commitAbort 3 none s)
      else
        match firstFault (commitFaults s) with
        | some k => (rcCommitAborted, commitAbort 1 (some k) s)
        | none =>
          (rcOk, { s with commit := { s.commit with
            phase := .preparing, named := t, target := t, decided := .none } })

/-- ABORT (R320, R329). `force` discards the staging set of any owner. -/
def commitCancel (w : Who) (force : Bool) (s : State) : Byte × State :=
  if s.commit.decided = .apply then (rcOk, s)
  else if s.commit.owner ≠ 0 ∧ s.commit.owner ≠ w.owner ∧ force = false then (rcStageOwned, s)
  else
    match s.commit.phase with
    | .idle => (rcOk, stageDiscard s)
    | .staging => (rcOk, stageDiscard s)
    | _ =>
      let s := commitAbort 5 none s
      (rcOk, if force then stageDiscard s else s)

-- PREPARING to PENDING (R323, R333, R283)

/-- Bytes of a hash as an OCT value, first byte lowest. -/
def octOfHash (h : BitVec 256) : BitVec 256 := BitVec.ofNat 256 (natOfLe (beBytes 32 h.toNat))

/-- A format entry of a slot waits to be confirmed. -/
def entryWaits (s : State) (k : Nat) : Bool :=
  let f := fun (j : NvJob) => decide (j.act = .fmtEntry k)
  s.nvu.jobs.any f || s.nvu.held.any f || s.nvu.failed.any f ||
    (match s.nvu.page with
     | some p => p.jobs.any f
     | none => false)

/-- Ask for the format entries that a commit needs (R283, Table 13.9). -/
def entryAsk (s : State) : State :=
  (needEntry s).foldl (fun s k =>
    match fmtFree s, grownExtents s k with
    | some j, (x, old) :: _ =>
      let mark := match old with
        | none => x.base
        | some _ => regVal s 0x4003 4 (k * 4 + x.e)
      nvPush { recs := [.fmt j k x.e mark], act := .fmtEntry k }
        { s with nvu := { s.nvu with fmtSlots := tabSet s.nvu.fmtSlots j k } }
    | _, _ => s) s

/-- COMMIT_PREPARED: the digest is computed and the commit is PENDING (R323, R333). -/
def doCommitPrepared (s : State) : State :=
  if s.commit.phase = .preparing then
    let d := octOfHash (sha256 (serialise s true))
    entryAsk { s with commit := { s.commit with phase := .pending, digestStaged := d } }
  else s

/-- COMMIT_PREPARED. -/
def execCommitPrepared (s : State) : Host.Outcome State Fault Refusal := .next (doCommitPrepared s)

-- Readiness (R325)

/-- A line changes hands: it lies in exactly one of an extent row's ranges before and after (R110). -/
def lineMoves (s : State) (row a : Nat) : Bool :=
  let old := decide (cfgVal s 0x4003 3 row = 1 ∧ cfgVal s 0x4003 1 row ≤ a ∧ a ≤ cfgVal s 0x4003 2 row)
  let new := decide (stagedVal s 0x4003 3 row = 1 ∧ stagedVal s 0x4003 1 row ≤ a ∧ a ≤ stagedVal s 0x4003 2 row)
  old != new

/-- The extent rows that the staging set names. -/
def stagedExtentRows (s : State) : List Nat :=
  s.staged.foldl (fun l e => if okeyIdx e.1 = 0x4003 then insertNat (okeyRow e.1) l else l) []

/-- The counter manager is ready: no write to a line that changes hands is in flight (R110). -/
def readyJack (s : State) : Bool :=
  (stagedExtentRows s).all (fun r =>
    (List.range 16).all (fun m => (portWrites s m).all (fun o => o.kind != .write || !lineMoves s r o.addr)))

/-- The queue pool is ready for a new EGRESS_CELLS (R204). -/
def readyPool (s : State) : Bool :=
  !isStaged s (okey 0x2080 1 0) || (List.range 128).all (fun p => decide (egressAll s p ≤ stagedVal s 0x2080 1 0))

/-- The account key of a stream row in a view, if it is valid. -/
def rowAcct (s : State) (after : Bool) (r : Nat) : Option Nat :=
  if viewVal s after 0x4001 1 r = 1 then some (acctKey (viewVal s after 0x4001 2 r) (viewVal s after 0x4001 3 r)) else none

/-- The stream rows whose (port, SID) the commit changes: the keys left and the keys taken. -/
def acctMoves (s : State) : List Nat × List Nat :=
  let rows := s.staged.foldl (fun l e => if okeyIdx e.1 = 0x4001 then insertNat (okeyRow e.1) l else l) []
  let rows := rows.filter (fun r => rowAcct s false r != rowAcct s true r)
  (rows.filterMap (rowAcct s false), rows.filterMap (rowAcct s true))

/-- The accounts with the rows of the apply: rows that leave a (port, SID) leave closing accounts, and rows that come take
the counts over, also those of an account that has ended (R243). -/
def acctsMoved (s : State) : Tab Acct :=
  let mv := acctMoves s
  let t := mv.1.foldl (fun t k => match tabFind t k with
    | some a => tabSet t k { a with closing := true }
    | none => t) s.accts
  mv.2.foldl (fun t k => match tabFind t k with
    | some a => tabSet t k { a with closing := false }
    | none => tabSet t k { (tabFind s.pastAccts k).getD {} with closing := false }) t

/-- A closing account that is spent: it ends (R243). -/
def acctSpent (a : Acct) : Bool := a.closing && decide (acctOut a = 0) && decide (a.held = 0)

/-- The accounts after the apply (R243). -/
def acctsAfter (s : State) : Tab Acct := (acctsMoved s).filter (fun e => !acctSpent e.2)

/-- The counts of ended accounts after the apply: those that end with it join, those that a row has taken over leave
(R243). -/
def pastAfter (s : State) : Tab Acct :=
  (acctsMoved s).foldl (fun t e => if acctSpent e.2 then tabSet t e.1 e.2 else tabDel t e.1) s.pastAccts

/-- The stream table is ready: at most 256 closing accounts (R243). -/
def readyStreams (s : State) : Bool := decide (((acctsAfter s).filter (fun e => e.2.closing)).length ≤ 256)

/-- The media port interface is ready for a new interleave: nothing is outstanding or waits on any port (R264). -/
def readyMedia (s : State) : Bool :=
  !changedAny s (fun k => okeyIdx k == 0x2000) ||
    ((List.range 16).all (fun m =>
        let x := mediaOf s m
        x.fifoW.isEmpty && x.fifoR.isEmpty && x.outW.isEmpty && x.outR.isEmpty && !x.flushReq) &&
      s.jack.probes.all (fun e => e.2.isEmpty) && s.tagc.fetches.isEmpty)

/-- The rekey engine is ready: every format entry that the commit needs is confirmed, and no entry that it relies on is
about to be freed (R283). -/
def readyRekey (s : State) : Bool :=
  (grownSlots s).all (fun k => (fmtOf s k).isSome && !entryWaits s k &&
    (match ctxFor s k with
     | some n => !(decide ((ctxOf s n).cause = 3) && decide ((ctxOf s n).st = .completing))
     | none => true))

/-- Every Marionette is ready (R45, R110, R204, R243, R264, R283, R328). -/
def allReady (s : State) : Bool :=
  decide (s.pwr.phase = .service) && s.commit.copyBack.isEmpty && readyJack s && readyPool s && readyStreams s &&
    readyMedia s && readyRekey s

-- The sample (R325, R326)

/-- A commit is due at the sample of this frame. -/
def sampleDue (s : State) : Bool :=
  s.clk.running && decide (s.clk.cycle ≤ 1020) && decide (s.commit.phase = .pending) &&
    decide (s.commit.decided = .none) && decide (s.commit.target ≤ frameNo s + 1)

/-- The sample finds the limit F + COMMIT_DEFER_MAX reached (R325). -/
def deferLimit (s : State) : Bool := decide (s.commit.named + cfgVal s 0x2200 6 0 ≤ frameNo s + 1)

/-- A sample that finds a Marionette not ready: the commit is deferred by one frame, or aborted at the limit (R325). -/
def sampleDefer (s : State) : State :=
  if deferLimit s then commitAbort 2 none s
  else { s with commit := { s.commit with decided := .none, target := frameNo s + 2, deferCount := s.commit.deferCount + 1 } }

/-- The sample of a commit that is due. -/
def commitSample (s : State) : State :=
  match firstFault (stateFaults s) with
  | some k => commitAbort 4 (some k) s
  | none =>
    let t := frameNo s + 1
    if allReady s then { s with commit := { s.commit with decided := .apply, target := t } } else sampleDefer s

/-- COMMIT_SAMPLE: cycle 1,020 (R45, R325, R326). -/
def doCommitSample (s : State) : State :=
  if s.clk.running = true ∧ s.clk.cycle ≤ 1020 then
    let s := cyclesTo 1020 s
    if sampleDue s then commitSample (entryAsk s) else s
  else s

/-- COMMIT_SAMPLE. -/
def execCommitSample (s : State) : Host.Outcome State Fault Refusal := .next (doCommitSample s)

/-- COMMIT_DEFER_LIMIT: the sample that ends a commit with cause 2 (R325). -/
def doCommitDeferLimit (s : State) : State :=
  if sampleDue s = true ∧ deferLimit s = true ∧ firstFault (stateFaults s) = none ∧ allReady s = false then
    commitAbort 2 none (cyclesTo 1020 s)
  else s

/-- COMMIT_DEFER_LIMIT. -/
def execCommitDeferLimit (s : State) : Host.Outcome State Fault Refusal := .next (doCommitDeferLimit s)

-- The power warning and the sample (R45, R267)

/-- A qualification in cycle 1,020 makes the sample of that very cycle find the Puppeteer's Marionette not ready, also
where COMMIT_SAMPLE came first in the cycle; a later one withdraws nothing (R45, R383). -/
def sampleUndo (s : State) : State :=
  if s.clk.cycle = 1020 ∧ s.commit.decided = .apply then sampleDefer s else s

/-- PWR_WARN_QUALIFY: EV_PWR_WARN, and the drain begins (R267, R269). Before recovery ends, recovery stops and nothing
more is written (R285). -/
def doPwrWarnQualify (s : State) : State :=
  match s.pwr.phase, s.clk.running with
  | _, false => s
  | .service, true =>
    let s := raise .pwrWarn (srcGlobal 0) (acceptedWrites s) (dirtyLines s) (nvQueued s) s
    let t := now s
    let early := decide (s.pwr.stage ≠ .served)
    let s := { s with pwr := { s.pwr with phase := .draining, qualAt := t, late := false, sessionQueued := false,
                                          sessionDone := false, returned := none, interrupted := early, drainWrites := 0 } }
    if early then { s with nvu := { s.nvu with jobs := [], held := s.nvu.jobs ++ s.nvu.held } }
    else
      let s := imageDrop ((List.range 64).foldl ctxAbandon s)
      let s := (List.range 16).foldl (fun s m => mediaMod m (fun x => { x with drainFlush := false, drainOut := false }) s) s
      drainPoll (wbFetches (sampleUndo s))
  | _, true => { s with pwr := { s.pwr with returned := none } }

/-- PWR_WARN_QUALIFY. -/
def execPwrWarnQualify (s : State) : Host.Outcome State Fault Refusal := .next (doPwrWarnQualify s)

-- The apply (R327)

/-- Put the staged values in force. -/
def stagePut (s : State) : State :=
  s.staged.foldl (fun s e => cfgPut (okeyIdx e.1) (okeySub e.1) (okeyRow e.1) e.2 s) s

/-- Changed entries by the unit that copies them back (R328). -/
def copyBackOf (t : Tab Nat) : Tab Nat :=
  t.foldl (fun c e =>
    let u := objUnit (okeyIdx e.1) (okeySub e.1)
    tabSet c u ((tabFind c u).getD 0 + 1)) []

/-- A link-affecting object (R229, R250). -/
def linkAffecting (k : Nat) : Bool :=
  (decide (okeyIdx k = 0x2090) && decide (2 ≤ okeySub k ∧ okeySub k ≤ 6)) ||
    (decide (okeyIdx k = 0x20A0) && decide (okeySub k ≤ 4))

/-- LINK_GEN of every up link that runs the previous generation moves on with a commit that touches no link setting
(R327). -/
def linkGens (old new : Nat) (s : State) : State :=
  (List.range 128).foldl (fun s p =>
    if (linkOf s p).up = true ∧ regVal s (linkIdx p 0) 0x0F 0 = old then regPut (linkIdx p 0) 0x0F 0 new s else s) s

/-- The growth of one extent at the apply: a newly valid extent's mark is its BASE, and a running format pass that stands
beyond the new lines leaves them to the pass queued now (R159; log 20). -/
def growMark (k : Nat) (s : State) (g : Extent × Option Nat) : State :=
  let x := g.1
  let s := match g.2 with
    | none => regPut 0x4003 4 (k * 4 + x.e) x.base s
    | some _ => s
  match ctxFor s k with
  | none => rkEnqueue k 3 s
  | some n =>
    let c := ctxOf s n
    if c.cause ≠ 3 then rkEnqueue k 3 s
    else
      let passed := match g.2 with
        | none => decide (x.base < c.bound)
        | some l => decide (l < c.bound)
      if passed then rkEnqueue k 3 (ctxPut n { c with marks := tabSet c.marks x.e walkEnd } s) else s

/-- The growth of a slot's extents at the apply. -/
def growSlotMarks (s : State) (g : Nat × List (Extent × Option Nat)) : State := g.2.foldl (growMark g.1) s

/-- The marks of a restored slot's extent, committed again after a start: the mark of its records, at most LIMIT + 1
(R284, R285, Table 13.9). -/
def restoreMark (s : State) (row : Nat) : State :=
  let b := cfgVal s 0x4003 1 row
  let l := cfgVal s 0x4003 2 row
  regPut 0x4003 4 row (max b (min (l + 1) (regVal s 0x4003 4 row))) s

/-- Extent rows that become valid on a slot that R284 treats as EMPTY. -/
def restoredRows (s : State) : List Nat :=
  (stagedExtentRows s).filter (fun r =>
    (slotOf s (r / 4)).restored && decide (stagedVal s 0x4003 3 r = 1) && decide (cfgVal s 0x4003 3 r = 0))

/-- A changed ROW_CE_WINDOW waits for its first aligned window (R306). `old` is the value before the apply. -/
def windowNote (old : Nat) (s : State) : State :=
  if cfgVal s 0x2400 2 0 = old then s
  else
    let base := match s.rep.rowBase with
      | some (o, _) => o
      | none => old
    { s with rep := { s.rep with rowBase := some (base, frameNo s) } }

/-- EV_COMMIT_APPLIED and what every apply records (R327, R181). -/
def applyNote (s : State) : State :=
  let s := { s with pool := { s.pool with lastApply := some (frameNo s) } }
  raise .commitApplied (srcGlobal 40) (cfgGen s) (s.commit.digest.toNat % 2 ^ 32) (frameNo s % 2 ^ 32) s

/-- The apply of a commit in cycle 0 of its target frame. -/
def commitApply (s : State) : State :=
  let keys := changedKeys s
  let jack := keys.any (fun k => (okeyIdx k == 0x4003) || (okeyIdx k == 0x2000))
  let links := keys.any linkAffecting
  let mode := keys.any (fun k => okeyIdx k == 0x2500 && decide (okeySub k ≤ 2))
  let image := keys.any (fun k => inImage (okeyIdx k)) || s.nvu.image.isSome
  let accts := acctsAfter s
  let past := pastAfter s
  let grown := (grownSlots s).map (fun k => (k, grownExtents s k))
  let restored := restoredRows s
  let old := cfgGen s
  let new := (old + 1) % 2 ^ 32
  let s := windowNote (cfgVal s 0x2400 2 0) (stagePut s)
  let s := if jack then jackClear s else s
  let s := restored.foldl restoreMark (grown.foldl growSlotMarks { s with accts := accts, pastAccts := past })
  let s := regPut 0x2200 1 0 new s
  let s := if links then s else linkGens old new s
  let cb := copyBackOf s.staged
  let s := { s with staged := [], commit := { s.commit with
    phase := .idle, owner := 0, breakable := false, decided := .none, copyBack := cb, digest := s.commit.digestStaged
    serBytes := (serialise s false).length, lastApply := frameNo s, drift := false, published := true
    refresh := false, digestInSf := true } }
  let s := applyNote s
  let s := if mode then modeSend s else s
  let s := if image then imageStart s else s
  let s := creditRaiseAll s
  let s := rkSchedule s
  commitReply rcOk (leBytes 4 new ++ leBytes 8 s.commit.lastApply ++ leBytes 32 s.commit.digest.toNat) s

/-- COMMIT_APPLY: the commit that the sample decided applies, in cycle 0 of its target frame and in no other cycle (R27,
R41, R45, R327, R383). -/
def doCommitApply (s : State) : State :=
  if s.commit.decided = .apply ∧ s.commit.target = frameNo s ∧ s.clk.cycle = 0 then commitApply s else s

/-- COMMIT_APPLY. -/
def execCommitApply (s : State) : Host.Outcome State Fault Refusal := .next (doCommitApply s)

/-- COPY_BACK_DONE: the unit's copy-back ends and its Marionette is ready (R328). -/
def doCopyBackDone (u : Nat) (s : State) : State :=
  { s with commit := { s.commit with copyBack := tabDel s.commit.copyBack u } }

/-- COPY_BACK_DONE. -/
def execCopyBackDone (unitNo : Nat) (s : State) : Host.Outcome State Fault Refusal := .next (doCopyBackDone unitNo s)

-- The digest refresh (R334, R340)

/-- The first four bytes of an OCT value. -/
def octLow (d : BitVec 256) : Nat := d.toNat % 2 ^ 32

/-- DIGEST_REFRESH_DONE: the digest of the values in force; `err` is a fault that no check caught (log 9). The first one
after a start publishes DIGEST (R340); a later one that differs sets DIGEST_DRIFT, and raises EV_DIGEST_DRIFT once for
that value (R334). -/
def doDigestRefreshDone (err : BitVec 256) (s : State) : State :=
  if s.commit.refresh then
    let d := octOfHash (sha256 (serialise s false)) ^^^ err
    let seen := s.commit.drift && decide (s.commit.digestCheck = d)
    let s := { s with commit := { s.commit with refresh := false, digestCheck := d } }
    if s.commit.published = false then
      { s with commit := { s.commit with digest := d, serBytes := (serialise s false).length, published := true } }
    else if d ≠ s.commit.digest then
      let s := { s with commit := { s.commit with drift := true } }
      if seen then s else raise .digestDrift (srcGlobal 43) (octLow d) (octLow s.commit.digest) (cfgGen s) s
    else s
  else s

/-- DIGEST_REFRESH_DONE. -/
def execDigestRefreshDone (err : BitVec 256) (s : State) : Host.Outcome State Fault Refusal :=
  .next (doDigestRefreshDone err s)

-- The start-up apply (R330)

/-- The values of the current image. -/
def imageNow (s : State) : Option (Nat × List (Nat × Nat)) :=
  match (nvSelect s imageA imageB (imageValid s)).1 with
  | none => none
  | some a =>
    match imageVals s a with
    | some l => some (nvNat s (a + 2) 4, l)
    | none => none

/-- From the start-up apply on, DIGEST reads zeros until the first refresh publishes one; a refresh that runs is discarded.
So too where no image is found (R330, R340, Table 15.7; log 37). -/
def digestBlank (s : State) : State :=
  { s with commit := { s.commit with digest := 0, serBytes := 0, published := false, refresh := false } }

/-- The image in force: as a commit without owner, deferral or check; CFG_GEN takes the image's value and DIGEST stays
zero (R330). -/
def imageApply (gen : Nat) (l : List (Nat × Nat)) (s : State) : State :=
  let moved := l.filter (fun e => e.2 != cfgVal s (okeyIdx e.1) (okeySub e.1) (okeyRow e.1))
  let w := cfgVal s 0x2400 2 0
  let s := windowNote w (l.foldl (fun s e => cfgPut (okeyIdx e.1) (okeySub e.1) (okeyRow e.1) e.2 s) s)
  let s := regPut 0x2200 1 0 gen s
  let s := applyNote { s with commit := { s.commit with copyBack := copyBackOf l, lastApply := frameNo s } }
  if moved.any (fun e => okeyIdx e.1 == 0x2500 && decide (okeySub e.1 ≤ 2)) then modeSend s else s

/-- STARTUP_IMAGE_APPLY: cycle 0 of the first frame after recovery, and no other cycle (R330). -/
def doStartupImageApply (s : State) : State :=
  match s.pwr.imageDue with
  | none => s
  | some f =>
    if frameNo s = f + 1 ∧ s.clk.cycle = 0 then
      let s := digestBlank { s with pwr := { s.pwr with imageDue := none } }
      match imageNow s with
      | some (gen, l) => imageApply gen l s
      | none => s
    else s

/-- STARTUP_IMAGE_APPLY. -/
def execStartupImageApply (s : State) : Host.Outcome State Fault Refusal := .next (doStartupImageApply s)

end Sys2Proof.Machine
end

