-- ==== Sys2Proof/Machine/DictWrite.lean ====
section
/-! DEFINITION. Dictionary writes and reads by any principal: range and rights, RW and CMD objects, and rows of fields
(R309, R310, R122, R126, R137, R163, R197). -/

namespace Sys2Proof.Machine

-- CMD objects

/-- The records of a change are queued or in effect next. -/
def actWaits (s : State) (a : NvAct) : Bool :=
  let f := fun (j : NvJob) => decide (j.act = a)
  s.nvu.jobs.any f || s.nvu.held.any f || s.nvu.acts.contains a ||
    (match s.nvu.page with
     | some p => p.jobs.any f
     | none => false)

/-- SLOT_CMD (Table 06.4, R126). A change whose records already wait is not queued twice. -/
def slotCmd (kidx v : Nat) (s : State) : Byte × State :=
  match v with
  | 1 =>
    if activateOk s kidx then (rcOk, if actWaits s (.activate kidx) then s else slotActivate kidx s) else (rcNotPermitted, s)
  | 2 => if (slotOf s kidx).st = .loaded then (rcOk, slotDiscard kidx s) else (rcNotPermitted, s)
  | _ => if retireOk s kidx then (rcOk, if actWaits s (.retire kidx) then s else slotRetire kidx s) else (rcNotPermitted, s)

/-- REKEY_REQ: a next-generation cause of an ACTIVE or ROTATING slot (Table 07.7). -/
def rekeyReqCmd (kidx : Nat) (s : State) : Byte × State :=
  let st := (slotOf s kidx).st
  if st = .active ∨ st = .rotating then (rcOk, rkSchedule (nextGenCause kidx s)) else (rcNotPermitted, s)

/-- JACK_PREFILL: a prefill of PREFILL_COUNT lines from PREFILL_BASE starts (R111). -/
def prefillStart (s : State) : State :=
  let n := regVal s 0x2050 4 0
  { s with jack := { s.jack with prefill := if n = 0 then none else some (regVal s 0x2050 3 0, n) } }

/-- LINK_RESET: the link is declared down with cause 7 (Table 10.6); a link that BIST holds down stays as it is. -/
def linkResetCmd (p : Nat) (s : State) : State := if (linkOf s p).bistDown then s else linkDown p 7 s

/-- MP_FLUSH: a flush is requested unless one is outstanding (R260); a FAILED port issues none (Table 12.3). -/
def mpFlushCmd (m : Nat) (s : State) : State :=
  let x := mediaOf s m
  if x.failed ∨ x.flushReq ∨ x.flushOut ∨ x.drainOut then s else mediaPut m { x with flushReq := true } s

/-- MASTER_RESET: stopped masters come back once their tags have completed (R184, R185). -/
def masterResetCmd (v : Nat) (s : State) : State :=
  let l := (List.range 5).filter (fun n => v.testBit n && s.pool.masterStop.contains n)
  let s := { s with pool := { s.pool with masterReset := l.foldl (fun t n => insertNat n t) s.pool.masterReset } }
  l.foldl masterBack s

/-- A write of a CMD object with a value in its range. A BOOL command acts on 1. -/
def cmdWrite (w : Who) (idx sub row v : Nat) (s : State) : Byte × State :=
  let on := fun (f : State → State) => (rcOk, if v = 1 then f s else s)
  if idx = 0x2040 then on tagFlush
  else if idx = 0x2050 then
    (if sub = 5 then on prefillStart else on (fun s => { s with jack := { s.jack with clearNext := true } }))
  else if idx = 0x2200 then
    (if sub = 4 then commitStart w v s else if v = 1 then commitCancel w false s else (rcOk, s))
  else if idx = 0x2500 then
    on (recorderClear (match w with
      | .f k => k
      | _ => 0))
  else if idx < 0x3800 then on (linkResetCmd ((idx - 0x3001) / 16))
  else if idx < 0x4000 then on (mpFlushCmd ((idx - 0x3800) / 16))
  else if idx = 0x4000 then (if sub = 0x0A then slotCmd row v s else rekeyReqCmd row s)
  else (rcOk, masterResetCmd v s)

-- RW objects

/-- RW objects that act from the next frame strobe: P_SUSPEND and the rekey objects (Table 06.1, R163). -/
def rwAtStrobe (idx : Nat) : Bool := decide (idx = 0x4002) || decide (idx = 0x2070) || decide (0x3A00 ≤ idx ∧ idx < 0x3C00)

/-- A write of an RW object with a value in its range (Table 15.2, R118, R196, R197). -/
def rwWrite (idx sub row v : Nat) (s : State) : Byte × State :=
  if rwAtStrobe idx then (rcOk, { s with rwNext := tabSet s.rwNext (okey idx sub row) v })
  else if 0x3808 ≤ idx ∧ idx < 0x3900 then
    if s.pwr.phase = .draining then (rcBusy, s) else (rcOk, iqFlushSet ((idx - 0x3808) / 16) v s)
  else (rcOk, regPut idx sub row v s)

/-- ALERT_ACK: acknowledged levels are no longer pending (R354). -/
def alertAckWrite (v : Nat) (s : State) : State :=
  let old := regVal s 0x2500 5 0
  regPut 0x2500 5 0 (old - (old &&& v)) s

-- One write, one read

/-- A write to a field of row 0 of the key slot or grant table (R122). -/
def rowZero (idx row : Nat) : Bool := (decide (idx = 0x4000) || decide (idx = 0x5000)) && decide (row = 0)

/-- A write that would set bits 0 or 1 of G_DEBUG under debug_lock (R137). -/
def debugRefused (s : State) (idx sub v : Nat) : Bool :=
  s.keys.debugLock && decide (idx = 0x5000) && decide (sub = 1) && decide (v % 4 ≠ 0)

/-- A write by a principal to an object that it reaches (R309, R310). -/
def objWrite (w : Who) (o : Obj) (idx sub row v : Nat) (s : State) : Byte × State :=
  if rowZero idx row then (rcAccess, s)
  else if o.acc = .ro ∨ o.acc = .wk then (rcAccess, s)
  else if o.admits v = false ∨ debugRefused s idx sub v = true then (rcRange, s)
  else
    match o.acc with
    | .rws => stageWrite w idx sub row v s
    | .rw => rwWrite idx sub row v s
    | .cmd => cmdWrite w idx sub row v s
    | _ => (rcOk, alertAckWrite v s)

/-- A write by a principal. DESIGN CHOICE: a class D write to row 0 meets NO_ACCESS (R309) before ACCESS (R122) (log 77). -/
def dictWrite (w : Who) (idx sub row v : Nat) (s : State) : Byte × State :=
  match objReach w idx sub row with
  | .error rc => (rc, s)
  | .ok o => objWrite w o idx sub row v s

-- Rows of fields (READ_ROW, WRITE_ROW)

/-- The objects of n consecutive subindices of one row, or the first refusal. -/
def rowReach (w : Who) (idx row : Nat) : Nat → Nat → Except Byte (List (Nat × Obj))
  | _, 0 => .ok []
  | sub, n + 1 =>
    match objReach w idx sub row with
    | .error rc => .error rc
    | .ok o =>
      match rowReach w idx row (sub + 1) n with
      | .error rc => .error rc
      | .ok t => .ok ((sub, o) :: t)

/-- The values of a row's fields in order, at type width. -/
def rowRead (staged : Bool) (idx row : Nat) : List (Nat × Obj) → State → List Byte × State
  | [], s => ([], s)
  | (sub, o) :: t, s =>
    match objVal staged o idx sub row s with
    | (v, s) =>
      match rowRead staged idx row t s with
      | (bs, s) => (leBytes o.ty.width v ++ bs, s)

/-- Write a row's fields in order; the first refusal is the result. -/
def rowWrite (w : Who) (idx row : Nat) : List (Nat × Obj) → List Byte → State → Byte × State
  | [], _, s => (rcOk, s)
  | (sub, o) :: t, bs, s =>
    match objWrite w o idx sub row (natOfLe (bs.take o.ty.width)) s with
    | (rc, s) => if rc = rcOk then rowWrite w idx row t (bs.drop o.ty.width) s else (rc, s)

/-- A refused WRITE_ROW changes nothing (R310; log 34). -/
def rowWriteWhole (w : Who) (idx row : Nat) (l : List (Nat × Obj)) (bs : List Byte) (s : State) : Byte × State :=
  match rowWrite w idx row l bs s with
  | (rc, t) => (rc, if rc = rcOk then t else s)

/-- Bytes of a row's fields. -/
def rowWidth (l : List (Nat × Obj)) : Nat := l.foldl (fun n e => n + e.2.ty.width) 0

end Sys2Proof.Machine
end

