-- ==== Sys2Proof/Machine/Messages.lean ====
section
/-! DEFINITION. Management messages: authentication, sessions, and the commands READ, WRITE, READ_ROW, WRITE_ROW, COMMIT,
ABORT, SUBSCRIBE and RECORDER_CLEAR (R315 to R318, R329, R359, R368). -/

namespace Sys2Proof.Machine

-- Receipt (R316, R317, R368)

/-- The source of EV_MSG_AUTH. -/
def srcMsgAuth : Nat := srcGlobal 44

/-- A request dropped without a response: 0 absent key, 1 CMAC, 2 SVER or form (Table 15.9). EV_MSG_AUTH carries the MKI of
the last drop and the cause of the first drop of the frame (R391). -/
def msgDrop (mki reason : Nat) (s : State) : State :=
  let k := sumKey .msgAuth srcMsgAuth
  count1 0x2201 0x20 0 (sumSet k (match tabFind s.ev.sums k with
    | some f => { f with count := f.count + 1, a := mki }
    | none => { count := 1, a := mki, b := reason }) s)

/-- The payload of a request before its CMAC (Table 15.3). -/
def reqPayload (op : Nat) (h : MsgHdr) (body : List Byte) : List Byte :=
  [h.sver, BitVec.ofNat 8 op, h.mki, h.flags] ++ leBytes 4 h.seq.toNat ++ leBytes 4 h.session.toNat ++
    leBytes 4 h.cfgGen.toNat ++ body

/-- Why a request is dropped, if it is (R315, R316, R368): another message type, a foreign enterprise number or a
message longer than 1,093 bytes, an absent key, a wrong CMAC, a wrong SVER. -/
def msgFault (op : Nat) (h : MsgHdr) (body : List Byte) (s : State) : Option Nat :=
  if h.mtype ≠ 0x7F#8 ∨ h.enterprise.toNat ≠ enterpriseNo ∨ 1056 < body.length then some 2
  else
    match tabFind s.keys.mks (hdrKey h) with
    | none => some 0
    | some key =>
      if msgMac key h.enterprise.toNat (reqPayload op h body) ≠ h.cmac then some 1
      else if h.sver ≠ 0x01#8 then some 2
      else none

/-- Header fields that must be zero: MKI [7:3], FLAGS other than STAGED and, for ABORT, FORCE, and CFG_GEN
(Table 15.3). -/
def headOk (op : Nat) (h : MsgHdr) : Bool :=
  decide (h.mki.toNat < 8) && decide (h.flags.toNat < (if op = 6 then 4 else 2)) && decide (h.cfgGen = 0#32)

/-- The last SEQ accepted under MKk (R317). -/
def lastSeq (s : State) (k : Nat) : BitVec 32 := (tabGet {} s.sessions k).lastSeq

/-- Accept a SEQ under MKk. -/
def seqTake (k : Nat) (q : BitVec 32) (s : State) : State :=
  { s with sessions := tabPut {} s.sessions k { tabGet {} s.sessions k with lastSeq := q } }

/-- What a request does once it is authentic, in session and in sequence; else its drop or its answer (R316, R317). An OP
outside Table 15.3 is answered FORMAT (Table 15.5). `own` is the command's OP. Nothing
is received before the dictionary is served (Table 13.13). -/
def msgReceive (own : Nat) (h : MsgHdr) (body : List Byte) (go : State → State) (s : State) : State :=
  if s.clk.running = false ∨ s.pwr.stage ≠ .served then s
  else
    let op := (h.odd.map (fun o => o.toNat)).getD own
    let k := hdrKey h
    match msgFault op h body s with
    | some r => msgDrop h.mki.toNat r s
    | none =>
      if h.session.toNat ≠ sessionVal s k then msgAnswer h op rcSession h.seq [] s
      else if h.seq ≤ lastSeq s k then msgAnswer h op rcSequence (lastSeq s k) [] s
      else
        let s := ownerSeen (.f k) (seqTake k h.seq s)
        if h.odd = none ∧ headOk op h = true then go s else msgAnswer h op rcFormat h.seq [] s

/-- Answer with a result and no body. -/
def msgResult (h : MsgHdr) (op : Nat) (rc : Byte) (s : State) : State := msgAnswer h op rc h.seq [] s

-- Bodies (Table 15.4)

/-- The address part of READ, WRITE, READ_ROW and WRITE_ROW bodies: INDEX, SUB, byte 3, ROW; the reserved byte 7 is
zero. -/
def bodyAddr (body : List Byte) : Nat × Nat × Nat × Nat :=
  (natOfLe (body.take 2), (byteAt body 2).toNat, (byteAt body 3).toNat, natOfLe ((body.drop 4).take 3))

/-- ROW is reserved for objects that are not tables (R315). -/
def rowForm (idx row : Nat) : Bool := decide (tableRows idx ≠ 0) || decide (row = 0)

/-- LEN and value, as a response body carries them. -/
def lenBody (bs : List Byte) : List Byte := leBytes 2 bs.length ++ bs

/-- READ of one object. -/
def readBody (h : MsgHdr) (body : List Byte) (s : State) : State :=
  match bodyAddr body with
  | (idx, sub, r, row) =>
    if body.length ≠ 8 ∨ r ≠ 0 ∨ byteAt body 7 ≠ 0#8 then msgResult h 1 rcFormat s
    else
      match objReach (.f (hdrKey h)) idx sub row with
      | .error rc => msgResult h 1 rc s
      | .ok o =>
        if rowForm idx row = false then msgResult h 1 rcFormat s
        else
          match objVal (h.flags.getLsbD 0) o idx sub row s with
          | (v, s) => msgAnswer h 1 rcOk h.seq (lenBody (leBytes o.ty.width v)) s

/-- READ (R315). -/
def doRead (h : MsgHdr) (body : List Byte) (s : State) : State := msgReceive 1 h body (readBody h body) s

/-- READ. -/
def execRead (h : MsgHdr) (body : List Byte) (s : State) : Host.Outcome State Fault Refusal := .next (doRead h body s)

/-- WRITE of one object. -/
def writeBody (h : MsgHdr) (body : List Byte) (s : State) : State :=
  match bodyAddr body with
  | (idx, sub, r, row) =>
    let n := natOfLe ((body.drop 8).take 2)
    if body.length < 10 ∨ r ≠ 0 ∨ byteAt body 7 ≠ 0#8 ∨ body.length ≠ 10 + n then msgResult h 2 rcFormat s
    else
      match objReach (.f (hdrKey h)) idx sub row with
      | .error rc => msgResult h 2 rc s
      | .ok o =>
        if rowForm idx row = false ∨ n ≠ o.ty.width then msgResult h 2 rcFormat s
        else
          match objWrite (.f (hdrKey h)) o idx sub row (natOfLe (body.drop 10)) s with
          | (rc, s) => msgResult h 2 rc s

/-- WRITE (R315). -/
def doWrite (h : MsgHdr) (body : List Byte) (s : State) : State := msgReceive 2 h body (writeBody h body) s

/-- WRITE. -/
def execWrite (h : MsgHdr) (body : List Byte) (s : State) : Host.Outcome State Fault Refusal := .next (doWrite h body s)

/-- The body of a WRITE of RECORDER_CLEAR. -/
def clearBody (value : Bool) : List Byte := [0x00#8, 0x25#8, 0x03#8, 0#8, 0#8, 0#8, 0#8, 0#8, 1#8, 0#8, if value then 1#8 else 0#8]

/-- RECORDER_CLEAR: a WRITE of obj 2500:03 by a fleet manager (R345, R358). -/
def execRecorderClear (h : MsgHdr) (value : Bool) (s : State) : Host.Outcome State Fault Refusal :=
  .next (doWrite h (clearBody value) s)

/-- COUNT of a row operation is 1 to 253 (Table 15.4). -/
def countForm (n : Nat) : Bool := decide (1 ≤ n ∧ n ≤ 253)

/-- READ_ROW of consecutive fields. -/
def readRowBody (h : MsgHdr) (body : List Byte) (s : State) : State :=
  match bodyAddr body with
  | (idx, sub, n, row) =>
    if body.length ≠ 8 ∨ countForm n = false ∨ byteAt body 7 ≠ 0#8 then msgResult h 3 rcFormat s
    else
      match rowReach (.f (hdrKey h)) idx row sub n with
      | .error rc => msgResult h 3 rc s
      | .ok l =>
        if rowForm idx row = false then msgResult h 3 rcFormat s
        else
          match rowRead (h.flags.getLsbD 0) idx row l s with
          | (bs, s) => msgAnswer h 3 rcOk h.seq (lenBody bs) s

/-- READ_ROW (R315). -/
def doReadRow (h : MsgHdr) (body : List Byte) (s : State) : State := msgReceive 3 h body (readRowBody h body) s

/-- READ_ROW. -/
def execReadRow (h : MsgHdr) (body : List Byte) (s : State) : Host.Outcome State Fault Refusal := .next (doReadRow h body s)

/-- WRITE_ROW of consecutive fields. -/
def writeRowBody (h : MsgHdr) (body : List Byte) (s : State) : State :=
  match bodyAddr body with
  | (idx, sub, n, row) =>
    let len := natOfLe ((body.drop 8).take 2)
    if body.length < 10 ∨ countForm n = false ∨ byteAt body 7 ≠ 0#8 ∨ body.length ≠ 10 + len then msgResult h 4 rcFormat s
    else
      match rowReach (.f (hdrKey h)) idx row sub n with
      | .error rc => msgResult h 4 rc s
      | .ok l =>
        if rowForm idx row = false ∨ len ≠ rowWidth l then msgResult h 4 rcFormat s
        else
          match rowWriteWhole (.f (hdrKey h)) idx row l (body.drop 10) s with
          | (rc, s) => msgResult h 4 rc s

/-- WRITE_ROW (R315). -/
def doWriteRow (h : MsgHdr) (body : List Byte) (s : State) : State := msgReceive 4 h body (writeRowBody h body) s

/-- WRITE_ROW. -/
def execWriteRow (h : MsgHdr) (body : List Byte) (s : State) : Host.Outcome State Fault Refusal := .next (doWriteRow h body s)

-- COMMIT, ABORT, SUBSCRIBE

/-- COMMIT: accepted, its response waits for the outcome (R323, R327); refused, it is answered at once. -/
def commitBody (h : MsgHdr) (body : List Byte) (s : State) : State :=
  if body.length ≠ 8 then msgResult h 5 rcFormat s
  else
    match commitStart (.f (hdrKey h)) (natOfLe body) s with
    | (rc, s) =>
      if rc = rcOk then { s with commit := { s.commit with reply := some h } }
      else if rc = rcCommitAborted then msgAnswer h 5 rc h.seq (abortBody s) s
      else msgResult h 5 rc s

/-- COMMIT (R323). -/
def doCommit (h : MsgHdr) (body : List Byte) (s : State) : State := msgReceive 5 h body (commitBody h body) s

/-- COMMIT. -/
def execCommit (h : MsgHdr) (body : List Byte) (s : State) : Host.Outcome State Fault Refusal := .next (doCommit h body s)

/-- ABORT, with FORCE in FLAGS bit 1. -/
def abortMsg (h : MsgHdr) (body : List Byte) (s : State) : State :=
  if body ≠ [] then msgResult h 6 rcFormat s
  else
    match commitCancel (.f (hdrKey h)) (h.flags.getLsbD 1) s with
    | (rc, s) => msgResult h 6 rc s

/-- ABORT (R329). -/
def doAbort (h : MsgHdr) (body : List Byte) (s : State) : State := msgReceive 6 h body (abortMsg h body) s

/-- ABORT. -/
def execAbort (h : MsgHdr) (body : List Byte) (s : State) : Host.Outcome State Fault Refusal := .next (doAbort h body s)

/-- SUBSCRIBE sets, replaces or cancels the subscription under the key (R318, R359). -/
def subscribeBody (h : MsgHdr) (body : List Byte) (s : State) : State :=
  let sev := (byteAt body 0).toNat
  let lo := natOfLe ((body.drop 2).take 2)
  let hi := natOfLe ((body.drop 4).take 2)
  if body.length ≠ 6 ∨ byteAt body 1 ≠ 0#8 then msgResult h 7 rcFormat s
  else if hi < lo ∨ 1123 < hi ∨ (3 < sev ∧ sev ≠ 0xFF) then msgResult h 7 rcRange s
  else
    let k := hdrKey h
    let subs := if sev = 0xFF then tabDel s.ev.subs k
      else tabSet s.ev.subs k { minSev := sev, first := lo, last := hi, eid := h.eid }
    msgResult h 7 rcOk { s with ev := { s.ev with subs := subs } }

/-- SUBSCRIBE (R318). -/
def doSubscribe (h : MsgHdr) (body : List Byte) (s : State) : State := msgReceive 7 h body (subscribeBody h body) s

/-- SUBSCRIBE. -/
def execSubscribe (h : MsgHdr) (body : List Byte) (s : State) : Host.Outcome State Fault Refusal :=
  .next (doSubscribe h body s)

end Sys2Proof.Machine
end

