-- ==== Sys2Proof/Machine/Window.lean ====
section
/-! DEFINITION. The local window: WINDOW_WRITE, RWS_WRITE, WIDE_VALUE_READ, and the writes of CMD objects that have a
command of their own (R311 to R314, R368). -/

namespace Sys2Proof.Machine

/-- The class of an access: the debug qualifier names D (R312). -/
def winWho (dbg : Bool) : Who := if dbg then .d else .l

/-- The window registers of a class (R312, R313). -/
def winOf (s : State) (dbg : Bool) : WinClass := if dbg then s.winD else s.winL

/-- Put the window registers of a class. -/
def winPut (dbg : Bool) (x : WinClass) (s : State) : State := if dbg then { s with winD := x } else { s with winL := x }

/-- Acknowledge an access (R368). -/
def winAck (err : Bool) (v : Nat) (s : State) : State := { s with winOut := some { err := err, value := BitVec.ofNat 32 v } }

/-- A refused access: lw_err, and the result code with the address in WIN_ERR of the class (R311). -/
def winRefuse (dbg : Bool) (addr : Nat) (rc : Byte) (s : State) : State :=
  winAck true 0 (winPut dbg { winOf s dbg with err := BitVec.ofNat 32 (addr * 256 + rc.toNat) } s)

/-- Acknowledge a write by its result. -/
def winDone (dbg : Bool) (addr : Nat) (r : Byte × State) : State :=
  if r.1 = rcOk then winAck false 0 r.2 else winRefuse dbg addr r.1 r.2

/-- Index and subindex of a window word address (R311). -/
def winIdx (addr : Nat) : Nat := addr / 256
/-- The subindex. -/
def winSub (addr : Nat) : Nat := addr % 256

/-- A row select of a table object (R313). -/
def isRowSel (idx sub : Nat) : Bool := decide (tableRows idx ≠ 0) && (decide (sub = 0xFE) || decide (sub = 0xFF))

/-- The row that a class's row select names; objects that are no table have row 0. -/
def winRow (s : State) (dbg : Bool) (idx : Nat) : Nat :=
  if tableRows idx = 0 then 0 else (tabGet 0#32 (winOf s dbg).rowSel idx).toNat

/-- A write of a row select: each class writes its own, bits [23:0] (R313). -/
def rowSelWrite (dbg : Bool) (idx sub v : Nat) (s : State) : Byte × State :=
  if sub ≠ (if dbg then 0xFF else 0xFE) then (rcNoAccess, s)
  else if 2 ^ 24 ≤ v then (rcRange, s)
  else
    let x := winOf s dbg
    (rcOk, winPut dbg { x with rowSel := tabPut 0#32 x.rowSel idx (BitVec.ofNat 32 v) } s)

/-- A write of an object of index 20FF, which each class has for itself (Table 15.8). -/
def winRegWrite (dbg : Bool) (sub v : Nat) (s : State) : Byte × State :=
  let x := winOf s dbg
  if sub < 0x10 then (rcOk, winPut dbg { x with wide := tabPut 0#32 x.wide sub (BitVec.ofNat 32 v) } s)
  else if sub = 0x10 then (if v ≤ 1 then (rcOk, winPut dbg { x with view := BitVec.ofNat 8 v } s) else (rcRange, s))
  else if v = 0 then (rcOk, winPut dbg { x with err := 0#32 } s)
  else (rcRange, s)

/-- The value of a write: word 0 with the words above it from the wide buffer (R312). -/
def wideValue (x : WinClass) (words v : Nat) : Nat :=
  (List.range (words - 1)).foldl (fun n i => n + (tabGet 0#32 x.wide (i + 1)).toNat * 2 ^ (32 * (i + 1))) v

/-- The words above word 0 of a value into the wide buffer (R312). -/
def wideLatch (words v : Nat) (x : WinClass) : WinClass :=
  (List.range (words - 1)).foldl (fun x i =>
    { x with wide := tabPut 0#32 x.wide (i + 1) (BitVec.ofNat 32 (v / 2 ^ (32 * (i + 1)))) }) x

/-- A window write of word v at an address, by what it names. -/
def winWrite (dbg : Bool) (addr v : Nat) (s : State) : Byte × State :=
  let idx := winIdx addr
  let sub := winSub addr
  if isRowSel idx sub then rowSelWrite dbg idx sub v s
  else
    let row := winRow s dbg idx
    match objReach (winWho dbg) idx sub row with
    | .error rc => (rc, s)
    | .ok o =>
      if idx = 0x20FF then winRegWrite dbg sub v s
      else objWrite (winWho dbg) o idx sub row (wideValue (winOf s dbg) o.ty.words v) s

/-- What every window access meets first: an access before the dictionary is served is acknowledged with lw_err and leaves
WIN_ERR unchanged; an owner's access restarts its idle time (R368, R320). -/
def winAccess (dbg : Bool) (go : State → State) (s : State) : State :=
  if s.clk.running = false then s
  else if s.pwr.stage ≠ .served then winAck true 0 s
  else go (ownerSeen (winWho dbg) s)

/-- A window write (R311, R312). -/
def doWindowWrite (a : WinAcc) (v : Nat) (s : State) : State :=
  winAccess a.dbg (fun s =>
    if a.be ≠ 0xF#4 then winRefuse a.dbg a.addr.toNat rcAccess s
    else winDone a.dbg a.addr.toNat (winWrite a.dbg a.addr.toNat v s)) s

/-- WINDOW_WRITE. -/
def execWindowWrite (a : WinAcc) (value : BitVec 32) (s : State) : Host.Outcome State Fault Refusal :=
  .next (doWindowWrite a value.toNat s)

/-- RWS_WRITE: a window write to an RWS object enters the staging set (R319). -/
def execRwsWrite (a : WinAcc) (value : BitVec 32) (s : State) : Host.Outcome State Fault Refusal :=
  .next (doWindowWrite a value.toNat s)

/-- The value of an object of index 20FF. -/
def winReg (x : WinClass) (sub : Nat) : Nat :=
  if sub < 0x10 then (tabGet 0#32 x.wide sub).toNat else if sub = 0x10 then x.view.toNat else x.err.toNat

/-- The value that a window read returns, with its width in words, or a refusal (R311 to R313). -/
def winRead (dbg : Bool) (addr : Nat) (s : State) : Except Byte (Nat × Nat × State) :=
  let idx := winIdx addr
  let sub := winSub addr
  let x := winOf s dbg
  if isRowSel idx sub then
    .ok (((tabGet 0#32 (winOf s (decide (sub = 0xFF))).rowSel idx).toNat), 1, s)
  else
    let row := winRow s dbg idx
    match objReach (winWho dbg) idx sub row with
    | .error rc => .error rc
    | .ok o =>
      if idx = 0x20FF then .ok (winReg x sub, 1, s)
      else
        match objVal (decide (x.view = 1#8)) o idx sub row s with
        | (v, s) => .ok (v, o.ty.words, s)

/-- WIDE_VALUE_READ: a read at an object's address returns word 0 and latches the words above it (R312). -/
def doWideValueRead (a : WinAcc) (s : State) : State :=
  winAccess a.dbg (fun s =>
    if a.be ≠ 0xF#4 then winRefuse a.dbg a.addr.toNat rcAccess s
    else
      match winRead a.dbg a.addr.toNat s with
      | .error rc => winRefuse a.dbg a.addr.toNat rc s
      | .ok (v, n, s) => winAck false (v % 2 ^ 32) (winPut a.dbg (wideLatch n v (winOf s a.dbg)) s)) s

/-- WIDE_VALUE_READ. -/
def execWideValueRead (a : WinAcc) (s : State) : Host.Outcome State Fault Refusal := .next (doWideValueRead a s)

-- Commands with a row of their own: window writes of one object

/-- A window write of a whole value to one object, with its row. -/
def winCmd (dbg : Bool) (idx sub row v : Nat) (s : State) : State :=
  winAccess dbg (fun s => winDone dbg (idx * 256 + sub) (dictWrite (winWho dbg) idx sub row v s)) s

/-- A BOOL command's value. -/
def boolNat (b : Bool) : Nat := if b then 1 else 0

/-- COMMIT_REQ (R323). -/
def execCommitReq (dbg : Bool) (target : BitVec 64) (s : State) : Host.Outcome State Fault Refusal :=
  .next (winCmd dbg 0x2200 4 0 target.toNat s)

/-- ABORT_REQ (R320). -/
def execAbortReq (dbg : Bool) (value : Bool) (s : State) : Host.Outcome State Fault Refusal :=
  .next (winCmd dbg 0x2200 5 0 (boolNat value) s)

/-- ACTIVATE: SLOT_CMD 1 (R125). -/
def execActivate (dbg : Bool) (kidx : BitVec 15) (s : State) : Host.Outcome State Fault Refusal :=
  .next (winCmd dbg 0x4000 0x0A kidx.toNat 1 s)

/-- DISCARD: SLOT_CMD 2 (R125). -/
def execDiscard (dbg : Bool) (kidx : BitVec 15) (s : State) : Host.Outcome State Fault Refusal :=
  .next (winCmd dbg 0x4000 0x0A kidx.toNat 2 s)

/-- RETIRE: SLOT_CMD 3 (R125). -/
def execRetire (dbg : Bool) (kidx : BitVec 15) (s : State) : Host.Outcome State Fault Refusal :=
  .next (winCmd dbg 0x4000 0x0A kidx.toNat 3 s)

/-- REKEY_REQ (R143). -/
def execRekeyReq (dbg : Bool) (kidx : BitVec 15) (value : Byte) (s : State) : Host.Outcome State Fault Refusal :=
  .next (winCmd dbg 0x4000 0x0C kidx.toNat value.toNat s)

/-- TAG_CACHE_FLUSH (R97). -/
def execTagCacheFlush (dbg : Bool) (value : Bool) (s : State) : Host.Outcome State Fault Refusal :=
  .next (winCmd dbg 0x2040 6 0 (boolNat value) s)

/-- JACK_PREFILL (R111). -/
def execJackPrefill (dbg : Bool) (value : Bool) (s : State) : Host.Outcome State Fault Refusal :=
  .next (winCmd dbg 0x2050 5 0 (boolNat value) s)

/-- JACK_INVALIDATE (R118). -/
def execJackInvalidate (dbg : Bool) (value : Bool) (s : State) : Host.Outcome State Fault Refusal :=
  .next (winCmd dbg 0x2050 6 0 (boolNat value) s)

/-- LINK_RESET (R213). -/
def execLinkReset (dbg : Bool) (p : Fin 128) (value : Bool) (s : State) : Host.Outcome State Fault Refusal :=
  .next (winCmd dbg (linkIdx p.val 1) 0x0A 0 (boolNat value) s)

/-- MP_FLUSH (R260). -/
def execMpFlush (dbg : Bool) (m : Fin 16) (value : Bool) (s : State) : Host.Outcome State Fault Refusal :=
  .next (winCmd dbg (mpIdx m.val) 2 0 (boolNat value) s)

/-- MASTER_RESET (R185). -/
def execMasterReset (dbg : Bool) (value : Byte) (s : State) : Host.Outcome State Fault Refusal :=
  .next (winCmd dbg 0x5010 7 0 value.toNat s)

/-- ALERT_ACK (R354). -/
def execAlertAck (dbg : Bool) (value : Byte) (s : State) : Host.Outcome State Fault Refusal :=
  .next (winCmd dbg 0x2500 6 0 value.toNat s)

/-- IQ_FLUSH (R196, R197). -/
def execIqFlush (dbg : Bool) (m : Fin 16) (value : Byte) (s : State) : Host.Outcome State Fault Refusal :=
  .next (winCmd dbg (iqIdx m.val) 1 0 value.toNat s)

end Sys2Proof.Machine
end

