-- ==== Sys2Proof/Machine/Dispatch.lean ====
section
/-! DEFINITION. The dispatch of commands to their meanings: one arm for each constructor of Instr. -/

namespace Sys2Proof.Machine

/-- The effect of a command on everything but the queue of waiting commands. -/
def exec (i : Instr) (s : State) : Host.Outcome State Fault Refusal :=
  match i with
  | .reset por => Sys2Proof.Machine.execReset por s
  | .resetRelease por bistShort => Sys2Proof.Machine.execResetRelease por bistShort s
  | .fuseLoadDone img => Sys2Proof.Machine.execFuseLoadDone img s
  | .bistDone fails => Sys2Proof.Machine.execBistDone fails s
  | .recoveryDone => Sys2Proof.Machine.execRecoveryDone s
  | .startupImageApply => Sys2Proof.Machine.execStartupImageApply s
  | .frameStrobe => Sys2Proof.Machine.execFrameStrobe s
  | .frameEnd => Sys2Proof.Machine.execFrameEnd s
  | .commitSample => Sys2Proof.Machine.execCommitSample s
  | .commitDeferLimit => Sys2Proof.Machine.execCommitDeferLimit s
  | .commitApply => Sys2Proof.Machine.execCommitApply s
  | .commitPrepared => Sys2Proof.Machine.execCommitPrepared s
  | .copyBackDone unitNo => Sys2Proof.Machine.execCopyBackDone unitNo s
  | .digestRefreshDone err => Sys2Proof.Machine.execDigestRefreshDone err s
  | .stageBreakable => Sys2Proof.Machine.execStageBreakable s
  | .pwrWarnQualify => Sys2Proof.Machine.execPwrWarnQualify s
  | .drainComplete => Sys2Proof.Machine.execDrainComplete s
  | .drainLate => Sys2Proof.Machine.execDrainLate s
  | .pwrWarnReturn => Sys2Proof.Machine.execPwrWarnReturn s
  | .resume => Sys2Proof.Machine.execResume s
  | .zeroizeQualify => Sys2Proof.Machine.execZeroizeQualify s
  | .zeroizeDone => Sys2Proof.Machine.execZeroizeDone s
  | .zeroizeReturn => Sys2Proof.Machine.execZeroizeReturn s
  | .holdoffEnd => Sys2Proof.Machine.execHoldoffEnd s
  | .debugLockBlown => Sys2Proof.Machine.execDebugLockBlown s
  | .rateChange p rate => Sys2Proof.Machine.execRateChange p rate s
  | .lockGained p => Sys2Proof.Machine.execLockGained p s
  | .lockLost p => Sys2Proof.Machine.execLockLost p s
  | .tLosExpiry p => Sys2Proof.Machine.execTLosExpiry p s
  | .rxDataFlit p errs lcw slots => Sys2Proof.Machine.execRxDataFlit p errs lcw slots s
  | .rxAckOnly p errs lcw => Sys2Proof.Machine.execRxAckOnly p errs lcw s
  | .rxIdle p errs lcw => Sys2Proof.Machine.execRxIdle p errs lcw s
  | .rxHeartbeat p errs lcw digest64 cfgGen => Sys2Proof.Machine.execRxHeartbeat p errs lcw digest64 cfgGen s
  | .rxParamOffer p errs o lcw => Sys2Proof.Machine.execRxParamOffer p errs o s lcw
  | .rxParamConfirm p errs c lcw => Sys2Proof.Machine.execRxParamConfirm p errs c s lcw
  | .rxDown p errs lcw => Sys2Proof.Machine.execRxDown p errs s lcw
  | .rxBadFlit p errs flit => Sys2Proof.Machine.execRxBadFlit p errs flit s
  | .flitTransmit p parityBad f => Sys2Proof.Machine.execFlitTransmit p parityBad f s
  | .ackTimer p => Sys2Proof.Machine.execAckTimer p s
  | .replayTimer p parityBad f => Sys2Proof.Machine.execReplayTimer p parityBad s f
  | .heartbeatDue p => Sys2Proof.Machine.execHeartbeatDue p s
  | .hbLost p => Sys2Proof.Machine.execHbLost p s
  | .tNegExpiry p => Sys2Proof.Machine.execTNegExpiry p s
  | .resyncSend p => Sys2Proof.Machine.execResyncSend p s
  | .resyncDone p dropCount => Sys2Proof.Machine.execResyncDone p dropCount s
  | .creditReturn p entries => Sys2Proof.Machine.execCreditReturn p entries s
  | .grantHoldExpiry p => Sys2Proof.Machine.execGrantHoldExpiry p s
  | .readLine src h => Sys2Proof.Machine.execReadLine src h s
  | .writeLine src h psn data => Sys2Proof.Machine.execWriteLine src h psn data s
  | .writePartial src h psn mask data => Sys2Proof.Machine.execWritePartial src h psn mask data s
  | .readRaw src h => Sys2Proof.Machine.execReadRaw src h s
  | .writeRaw src h side data => Sys2Proof.Machine.execWriteRaw src h side data s
  | .readTaglineRaw src h => Sys2Proof.Machine.execReadTaglineRaw src h s
  | .writeTaglineRaw src h trailer data => Sys2Proof.Machine.execWriteTaglineRaw src h trailer data s
  | .fence src h => Sys2Proof.Machine.execFence src h s
  | .fenceComplete src sid => Sys2Proof.Machine.execFenceComplete src sid s
  | .fgReadGrant m f => Sys2Proof.Machine.execFgReadGrant m f s
  | .fgWriteGrant m f => Sys2Proof.Machine.execFgWriteGrant m f s
  | .partialReadGrant m f => Sys2Proof.Machine.execPartialReadGrant m f s
  | .partialWriteGrant m f => Sys2Proof.Machine.execPartialWriteGrant m f s
  | .taglineFetch m f => Sys2Proof.Machine.execTaglineFetch m f s
  | .tagWriteback m f => Sys2Proof.Machine.execTagWriteback m f s
  | .sidecarProbe m => Sys2Proof.Machine.execSidecarProbe m s
  | .lookaheadProbe m => Sys2Proof.Machine.execLookaheadProbe m s
  | .prefillProbe m => Sys2Proof.Machine.execPrefillProbe m s
  | .rekeyTake c => Sys2Proof.Machine.execRekeyTake c s
  | .rekeyStep m f => Sys2Proof.Machine.execRekeyStep m s f
  | .rekeyStepWrite m f => Sys2Proof.Machine.execRekeyStepWrite m f s
  | .rekeyPassStart c => Sys2Proof.Machine.execRekeyPassStart c s
  | .rekeyComplete c => Sys2Proof.Machine.execRekeyComplete c s
  | .formatComplete c => Sys2Proof.Machine.execFormatComplete c s
  | .purgeComplete c => Sys2Proof.Machine.execPurgeComplete c s
  | .vote sl dir f => Sys2Proof.Machine.execVote sl dir f s
  | .schkRecompute sl f => Sys2Proof.Machine.execSchkRecompute sl f s
  | .rowRepair m => Sys2Proof.Machine.execRowRepair m s
  | .flushPersist m => Sys2Proof.Machine.execFlushPersist m s
  | .mediaHandshake m dir opId => Sys2Proof.Machine.execMediaHandshake m dir opId s
  | .transferError m => Sys2Proof.Machine.execTransferError m s
  | .accepted m => Sys2Proof.Machine.execAccepted m s
  | .persisted m opId => Sys2Proof.Machine.execPersisted m opId s
  | .lineArrival m opId stat data wpar f => Sys2Proof.Machine.execLineArrival m opId stat data wpar f s
  | .sidecarArrival m opId stat data wpar f => Sys2Proof.Machine.execSidecarArrival m opId stat data wpar f s
  | .taglineArrival m opId stat data wpar => Sys2Proof.Machine.execTaglineArrival m opId stat data wpar s
  | .readTimeout m opId => Sys2Proof.Machine.execReadTimeout m opId s
  | .persistTimeout m opId => Sys2Proof.Machine.execPersistTimeout m opId s
  | .mpStall m dir cycles => Sys2Proof.Machine.execMpStall m dir cycles s
  | .poolSweepPass ptr freed held hdr => Sys2Proof.Machine.execPoolSweepPass ptr freed held hdr s
  | .nvPageDone err => Sys2Proof.Machine.execNvPageDone err s
  | .nvReadDone err page => Sys2Proof.Machine.execNvReadDone err page s
  | .recorderAccept => Sys2Proof.Machine.execRecorderAccept s
  | .eventMessage k => Sys2Proof.Machine.execEventMessage k s
  | .recorderClearAck => Sys2Proof.Machine.execRecorderClearAck s
  | .recOnlineChange online => Sys2Proof.Machine.execRecOnlineChange online s
  | .read h body => Sys2Proof.Machine.execRead h body s
  | .write h body => Sys2Proof.Machine.execWrite h body s
  | .readRow h body => Sys2Proof.Machine.execReadRow h body s
  | .writeRow h body => Sys2Proof.Machine.execWriteRow h body s
  | .commit h body => Sys2Proof.Machine.execCommit h body s
  | .abort h body => Sys2Proof.Machine.execAbort h body s
  | .subscribe h body => Sys2Proof.Machine.execSubscribe h body s
  | .loadKek k => Sys2Proof.Machine.execLoadKek k s
  | .loadKey k => Sys2Proof.Machine.execLoadKey k s
  | .loadMgmtKey k => Sys2Proof.Machine.execLoadMgmtKey k s
  | .eraseSlot k => Sys2Proof.Machine.execEraseSlot k s
  | .queryKcv k => Sys2Proof.Machine.execQueryKcv k s
  | .windowWrite a value => Sys2Proof.Machine.execWindowWrite a value s
  | .wideValueRead a => Sys2Proof.Machine.execWideValueRead a s
  | .rwsWrite a value => Sys2Proof.Machine.execRwsWrite a value s
  | .commitReq dbg target => Sys2Proof.Machine.execCommitReq dbg target s
  | .abortReq dbg value => Sys2Proof.Machine.execAbortReq dbg value s
  | .activate dbg kidx => Sys2Proof.Machine.execActivate dbg kidx s
  | .discard dbg kidx => Sys2Proof.Machine.execDiscard dbg kidx s
  | .retire dbg kidx => Sys2Proof.Machine.execRetire dbg kidx s
  | .rekeyReq dbg kidx value => Sys2Proof.Machine.execRekeyReq dbg kidx value s
  | .tagCacheFlush dbg value => Sys2Proof.Machine.execTagCacheFlush dbg value s
  | .jackPrefill dbg value => Sys2Proof.Machine.execJackPrefill dbg value s
  | .jackInvalidate dbg value => Sys2Proof.Machine.execJackInvalidate dbg value s
  | .linkReset dbg p value => Sys2Proof.Machine.execLinkReset dbg p value s
  | .mpFlush dbg m value => Sys2Proof.Machine.execMpFlush dbg m value s
  | .masterReset dbg value => Sys2Proof.Machine.execMasterReset dbg value s
  | .recorderClear h value => Sys2Proof.Machine.execRecorderClear h value s
  | .alertAck dbg value => Sys2Proof.Machine.execAlertAck dbg value s
  | .iqFlush dbg m value => Sys2Proof.Machine.execIqFlush dbg m value s
  | .rxReservedType p errs lcw => Sys2Proof.Machine.execRxReservedType p errs lcw s
  | .zeroizeShortPulse => Sys2Proof.Machine.execZeroizeShortPulse s
  | .pwrWarnShortPulse samples => Sys2Proof.Machine.execPwrWarnShortPulse samples s

end Sys2Proof.Machine
end

