-- ==== Sys2Proof/Safety.lean ====
section
/-! DEFINITION. What holds in every state that the block can stand in, and the notions that the statements use: kinds of
commands, the drop of a link, a request that its port takes, a message in session, an access of the window. -/

namespace Sys2Proof.Machine

/-- The byte of the NV store at an address; a byte that is not listed is 00h (R276; log 6). -/
def nvByteOf (s : State) (a : Nat) : Byte := tabGet 0#8 s.nv a

/-- A management message (Table 15.4). -/
def isMessage : Instr → Bool
  | .read _ _ | .write _ _ | .readRow _ _ | .writeRow _ _ | .commit _ _ | .abort _ _ | .subscribe _ _
  | .recorderClear _ _ => true
  | _ => false

/-- An access of the local window (R311): the plain accesses, and the writes of CMD, W1A and IQ_FLUSH objects. -/
def isWindow : Instr → Bool
  | .windowWrite _ _ | .wideValueRead _ | .rwsWrite _ _ | .commitReq _ _ | .abortReq _ _ | .activate _ _ | .discard _ _
  | .retire _ _ | .rekeyReq _ _ _ | .tagCacheFlush _ _ | .jackPrefill _ _ | .jackInvalidate _ _ | .linkReset _ _ _
  | .mpFlush _ _ _ | .masterReset _ _ | .alertAck _ _ | .iqFlush _ _ _ => true
  | _ => false

/-- A happening of the commit unit (R319 to R333), with the strobe, the debug lock and the power warning that act on it. -/
def isCommitUnit : Instr → Bool
  | .pwrWarnQualify | .startupImageApply | .frameStrobe | .commitSample | .commitDeferLimit | .commitApply | .commitPrepared
  | .copyBackDone _ | .digestRefreshDone _ | .stageBreakable | .debugLockBlown => true
  | _ => false

/-- What a drop of link p with a cause leaves: the link is down and starts anew, 16 DOWN flits are due, nothing of its
replay buffer, its queue of responses or its negotiation is left, its waiting requests are marked, the drop is counted with
its cause, and no other link is touched but by grants for which the released cells make room (R203, R213, R214, R239,
R244). -/
structure LinkDropped (s t : State) (p cause : Nat) : Prop where
  isDown : (linkOf t p).up = false ∧ (linkOf t p).lock = false ∧ (linkOf t p).light = false
  downFlits : (linkOf t p).downLeft = 16 ∧ (linkOf t p).downOn = true ∧ (linkOf t p).downCause = cause ∧
    (linkOf t p).downLight = (linkOf s p).light
  startsAnew : (linkOf t p).nxt = 0 ∧ (linkOf t p).una = 0 ∧ (linkOf t p).ack = 4095 ∧ (linkOf t p).e = 0 ∧
    (linkOf t p).held = [] ∧ (linkOf t p).replay = none ∧ (linkOf t p).negOpen = false ∧ (linkOf t p).select = none ∧
    (linkOf t p).selectDue = [] ∧ (linkOf t p).feed = []
  wasUp : (linkOf t p).everUp = ((linkOf s p).everUp || (linkOf s p).up)
  noResponses : eqOf t p = []
  marked : ∀ i ∈ t.pool.items, srcIs i.src p = true → i.gone = true
  counted : regVal t (linkIdx p 1) 9 0 = cause
  others : ∀ q, q ≠ p → linkOf t q = { linkOf s q with feed := (linkOf t q).feed } ∧
    (eqOf t q).filter (fun r => !rspPartner r) = (eqOf s q).filter (fun r => !rspPartner r) ∧
    ((∀ r ∈ eqOf s p, rspPartner r = true) → linkOf t q = linkOf s q ∧ eqOf t q = eqOf s q)
  kept : t = { s with regs := t.regs, ev := t.ev, links := t.links, accts := t.accts, pastAccts := t.pastAccts,
                      pool := t.pool }

/-- A flit of link p is passed on by its receiver: the link hears, the flit decodes, and symbol lock is held or this flit is
the eighth decodable one in a row (R209, R212). -/
structure FlitPasses (s : State) (p : Nat) (errs : List Nat) : Prop where
  hears : linkHears s p = true
  decodes : (fecDecode (linkOf s p).light errs).isSome = true
  locked : (linkOf s p).lock = true ∨ 7 ≤ (linkOf s p).run

/-- The link and the wire bytes in error of a command that is a flit received. -/
def flitOf : Instr → Option (Nat × List Nat)
  | .rxDataFlit p errs _ _ => some (p.val, errs)
  | .rxAckOnly p errs _ => some (p.val, errs)
  | .rxIdle p errs _ => some (p.val, errs)
  | .rxHeartbeat p errs _ _ _ => some (p.val, errs)
  | .rxParamOffer p errs _ _ => some (p.val, errs)
  | .rxParamConfirm p errs _ _ => some (p.val, errs)
  | .rxDown p errs _ => some (p.val, errs)
  | .rxBadFlit p errs _ => some (p.val, errs)
  | .rxReservedType p errs _ => some (p.val, errs)
  | _ => none

/-- A state of link p in which only what finding lock changes differs: lock is held, no run of failed flits, and a loss that
t_LOS still covers is over (R212, R213). -/
def linkHeld (s : State) (x : LinkSt) : LinkSt :=
  { x with lock := true, run := 0, lost := if x.lock then x.lost else x.lost.filter (fun l => framesOver s l.1 l.2) }

/-- The command by which a request of a type is received; `ext` is the byte mask, the sidecar or the trailer of the types
that have one. -/
def requestOf (op : ReqOp) (src : Src) (h : Hdr) (psn : Bool) (ext : Side) (data : Line) : Instr :=
  match op with
  | .readLine => .readLine src h
  | .writeLine => .writeLine src h psn data
  | .writePartial => .writePartial src h psn ext data
  | .readRaw => .readRaw src h
  | .writeRaw => .writeRaw src h ext data
  | .readTag => .readTaglineRaw src h
  | .writeTag => .writeTaglineRaw src h ext data

/-- The port of a source takes an item of `cells` cells with a header: it is open, the block serves, the header is no
protocol error (its opcode is known, its master exists, its tag is free and within the limit), the credits reach, and no
request from before a drop holds the tag (R135, R169, R170, R182, R184, R241). -/
structure TakesItem (s : State) (src : Src) (h : Hdr) (cells : Nat) : Prop where
  isOpen : srcClosed s src = false
  served : s.pwr.stage = .served
  noFault : reqFault s src (hdrTaken src h) = none
  credits : creditOver s src (hdrTaken src h).sid cells = false
  notHeld : tagHeld s src (hdrTaken src h).tag = false

/-- The copies of the pointers of the response queue of a source agree, so that a response joins it; a master has no such
queue (R188, R199). -/
def eqSound (s : State) (src : Src) : Prop := ∀ p, src = .link p → tabFind s.pool.ptrBad (129 + 2 * p.val) = none

/-- The highest counter that a line is known to have used under a generation: that of its Jack entry where the entry is
of the generation, and those of its writes in flight (R99, R104). -/
def counterBase (s : State) (kidx a : Nat) (g : BitVec 32) (e : BitVec 64) : Nat :=
  max (if genByKgen4 (slotOf s kidx) (jeKgen4 e) = some g then (jeLctr e).toNat else 0) (flightMax s a kidx g)

/-- A write operation carries a line of a slot as R66 makes it: the payload XORed with the blocks of the slot's class under
the keys, generation and counter, and the sidecar of Table 03.2; it is in the record of issued writes (R57, R58, R64, R65,
R100). -/
structure LineWritten (s : State) (o : MOp) (kidx a : Nat) (k : GenKeys) (g : BitVec 32) (c : BitVec 24) (pt : Line)
    (psn : Bool) : Prop where
  isWrite : o.kind = .write ∧ o.addr = a
  recorded : o.kidx = kidx ∧ o.gen = g ∧ o.lctr = c ∧ o.counted = true
  carries : o.data = mediaJoin (lineXor pt (lineBlocks (slotClass s kidx) kidx k g a c))
    (scPack c (g.setWidth 4) (BitVec.ofNat 15 kidx) (BitVec.ofNat 2 (slotClass s kidx)) psn
      (lineSchk pt a (lineBlocks (slotClass s kidx) kidx k g a c)))

/-- The responses that a state holds for a source: those in the queue of its link, or those handed to its master. -/
def rspsOf (s : State) (src : Src) : List Rsp :=
  match src with
  | .link p => eqOf s p.val
  | .master n => (s.pool.dmOut.filter (fun e => e.1 == n.val)).map (fun e => e.2)

/-- The management message of an operation 1 to 7 (Table 15.4). -/
def messageOf (op : Nat) (h : MsgHdr) (body : List Byte) : Instr :=
  match op with
  | 1 => .read h body
  | 2 => .write h body
  | 3 => .readRow h body
  | 4 => .writeRow h body
  | 5 => .commit h body
  | 6 => .abort h body
  | _ => .subscribe h body

/-- A message carries the operation of its command and is authentic, in session, in sequence and well formed at its head
(R316, R317). -/
structure InSession (s : State) (op : Nat) (h : MsgHdr) (body : List Byte) : Prop where
  running : s.clk.running = true
  served : s.pwr.stage = .served
  authentic : msgFault op h body s = none
  ownOp : h.odd = none
  session : h.session.toNat = sessionVal s (hdrKey h)
  sequence : lastSeq s (hdrKey h) < h.seq
  head : headOk op h = true

/-- The state on which an accepted message works: its SEQ is taken, and its sender's idle time restarts (R317, R320). -/
def msgTaken (h : MsgHdr) (s : State) : State := ownerSeen (.f (hdrKey h)) (seqTake (hdrKey h) h.seq s)

/-- One message is sent: its key's endpoint, operation, result, sequence number and body (R315, R316). -/
def sends (s t : State) (h : MsgHdr) (op : Nat) (rc : Byte) (seq : BitVec 32) (body : List Byte) : Prop :=
  ∃ m, t.mmTx = s.mmTx ++ [m] ∧ m.eid = h.eid ∧ m.op = BitVec.ofNat 8 (op + 0x80) ∧ m.result = rc ∧ m.seq = seq ∧
    m.body = body

/-- A window access is served: the clock runs and start-up has ended (R368). -/
def winServed (s : State) : Prop := s.clk.running = true ∧ s.pwr.stage = .served

/-- The state on which a window access of a class works (R320). -/
def winTaken (dbg : Bool) (s : State) : State := ownerSeen (winWho dbg) s

/-- An access is acknowledged without lw_err. -/
def winOk (t : State) : Prop := t.winOut = some { err := false, value := 0#32 }

/-- An access of a class is refused with a result code: lw_err, and the code with the address in WIN_ERR (R311). -/
def winNo (t : State) (dbg : Bool) (addr : Nat) (rc : Byte) : Prop :=
  t.winOut = some { err := true, value := 0#32 } ∧ (winOf t dbg).err = BitVec.ofNat 32 (addr * 256 + rc.toNat)

/-- The write that a command of the local window with a row of its own stands for: its class, the object's index, subindex
and row, and the value (Table 15.8, Tables 16.2 to 16.8). -/
def winCommand : Instr → Option (Bool × Nat × Nat × Nat × Nat)
  | .commitReq dbg v => some (dbg, 0x2200, 4, 0, v.toNat)
  | .abortReq dbg v => some (dbg, 0x2200, 5, 0, v.toNat)
  | .activate dbg k => some (dbg, 0x4000, 0x0A, k.toNat, 1)
  | .discard dbg k => some (dbg, 0x4000, 0x0A, k.toNat, 2)
  | .retire dbg k => some (dbg, 0x4000, 0x0A, k.toNat, 3)
  | .rekeyReq dbg k v => some (dbg, 0x4000, 0x0C, k.toNat, v.toNat)
  | .tagCacheFlush dbg v => some (dbg, 0x2040, 6, 0, v.toNat)
  | .jackPrefill dbg v => some (dbg, 0x2050, 5, 0, v.toNat)
  | .jackInvalidate dbg v => some (dbg, 0x2050, 6, 0, v.toNat)
  | .linkReset dbg p v => some (dbg, linkIdx p 1, 0x0A, 0, v.toNat)
  | .mpFlush dbg m v => some (dbg, mpIdx m, 2, 0, v.toNat)
  | .masterReset dbg v => some (dbg, 0x5010, 7, 0, v.toNat)
  | .alertAck dbg v => some (dbg, 0x2500, 6, 0, v.toNat)
  | .iqFlush dbg m v => some (dbg, iqIdx m, 1, 0, v.toNat)
  | _ => none

/-- The first eight bytes of a READ or WRITE body: INDEX, SUB, a byte (COUNT in a row operation), ROW (Table 15.4). -/
def bodyHead (idx sub n row : Nat) : List Byte := leBytes 2 idx ++ leBytes 1 sub ++ leBytes 1 n ++ leBytes 3 row ++ [0#8]

/-- The fields of such a body fit their bytes. -/
def headFits (idx sub n row : Nat) : Prop := idx < 2 ^ 16 ∧ sub < 2 ^ 8 ∧ n < 2 ^ 8 ∧ row < 2 ^ 24

/-- An index, subindex or row that the map does not list; a table's row selects are listed (R339). -/
def notListed (idx sub row : Nat) : Prop :=
  isRowSel idx sub = false ∧ (objFind idx sub = none ∨ tableRows idx ≠ 0 ∧ tableRows idx ≤ row)

/-- A full-word access of the window at an object's address, with the row that its class selects (R311, R313). -/
structure WinAt (s : State) (a : WinAcc) (idx sub row : Nat) : Prop where
  served : winServed s
  enables : a.be = 0xF#4
  address : a.addr.toNat = idx * 256 + sub ∧ sub < 256
  rowIs : row = winRow s a.dbg idx
  noSelect : isRowSel idx sub = false

/-- The invariant of the block: the NV store is in its canonical form, a frame has cycles 0 to 1,023 (R28), persist_ok is
high exactly in PARKED (R270), pin_oe is high exactly from the end of the fuse load (R371), zeroized shows that an
erase has completed and no KEK has been loaded since (R138), and a block held in reset has not begun to start (R376). -/
structure State.Inv (s : State) : Prop where
  nvCanonical : tabWf 0#8 s.nv = true
  cycleInFrame : s.clk.cycle ≤ 1023
  persistOkIsParked : s.pins.persistOk = decide (s.pwr.phase = .parked)
  pinOeAfterFuses : s.pins.pinOe = decide (s.pwr.stage ≠ .fuse)
  zeroizedIsErased : s.pins.zeroized = s.keys.zer.erased
  stoppedIsUnstarted : s.clk.running = false → s.pwr.stage = .fuse

end Sys2Proof.Machine
end

