-- ==== Sys2Proof/Certificates/Slice0/Obligations.lean ====
section
/-! DEFINITION. The statements for the provers. -/

open Sys2Proof Sys2Proof.Machine

-- The block as a whole

/-- One step takes the command at the front of the queue and runs its effect with the rest of the queue. -/
def Obligations.StepRunsFrontCommand : Prop :=
  ∀ (c : Instr) (rest : List Instr) (s : State), s.pending = c :: rest → step s = exec c { s with pending := rest }

/-- On an empty queue one cycle of the clock passes: the model's choice (log 2). The last cycle of a frame stands until its
strobe, and a block held in reset does not move. -/
def Obligations.StepTicksWhenQueueIsEmpty : Prop :=
  ∀ s : State, s.pending = [] →
    ∃ t, step s = .next t ∧ t.pending = [] ∧ t.clk.running = s.clk.running ∧ t.clk.frame = s.clk.frame ∧
      (s.clk.running = false → t = s) ∧
      (s.clk.running = true → s.clk.cycle ≤ 1023 → t.clk.cycle = min 1023 (s.clk.cycle + 1))

/-- The state after reset: frame 0, every pin low, no key, no slot in use, every RWS object at its default, nothing queued,
granted or outstanding, and no command waiting (R29, R376). -/
def Obligations.ResetStateIsBlank : Prop :=
  State.reset.pending = [] ∧ State.reset.clk.frame = 0#56 ∧ State.reset.clk.cycle = 0 ∧ State.reset.pins = {} ∧
    State.reset.keys.kek = none ∧ (∀ k, slotOf State.reset k = {}) ∧
    (∀ idx sub row, cfgVal State.reset idx sub row = objDefault idx sub) ∧ State.reset.staged = [] ∧
    State.reset.pool.items = [] ∧ State.reset.pool.txns = [] ∧ (∀ m, mediaOf State.reset m = {}) ∧
    (∀ p, (linkOf State.reset p).up = false) ∧ State.reset.ev.backlog = [] ∧ State.reset.rk.queue = [] ∧
    State.reset.jack.entries = [] ∧ State.reset.tagc.ways = [] ∧ State.reset.accts = [] ∧ State.reset.pastAccts = [] ∧
    ∀ a, nvByteOf State.reset a = 0#8

/-- The invariant holds in the state after reset. -/
def Obligations.InvariantHoldsAtReset : Prop :=
  State.reset.Inv

/-- Every step keeps the invariant. -/
def Obligations.EveryStepKeepsInvariant : Prop :=
  ∀ s t : State, s.Inv → step s = .next t → t.Inv

/-- No command touches the commands that wait behind it. -/
def Obligations.CommandsLeaveTheQueue : Prop :=
  ∀ (c : Instr) (s t : State), exec c s = .next t → t.pending = s.pending

/-- Only a page commit and a reset change a byte of the NV store (R276, R279, R376). -/
def Obligations.NvStoreIsWrittenByPageCommits : Prop :=
  ∀ (c : Instr) (s t : State), exec c s = .next t → (∀ e, c ≠ .nvPageDone e) → (∀ p, c ≠ .reset p) →
    ∀ a, nvByteOf t a = nvByteOf s a

/-- The KEK changes by LOAD_KEK, zeroization and reset alone, a management key by LOAD_MGMT_KEY, zeroization and reset
(R131, R138). -/
def Obligations.KeysAreReplacedByLoadsAndZeroization : Prop :=
  ∀ (c : Instr) (s t : State), exec c s = .next t → c ≠ .zeroizeQualify → (∀ p, c ≠ .reset p) →
    ((∀ k, c ≠ .loadKek k) → t.keys.kek = s.keys.kek) ∧ ((∀ k, c ≠ .loadMgmtKey k) → t.keys.mks = s.keys.mks)

/-- A management session changes by a message, LOAD_MGMT_KEY, reset and a zeroization that aborts the key-port command of
its own cycle alone; the registers and the answer of the local
window change by an access of the window and reset alone (R311 to R313, R317). The staging set and the commit unit change
by messages, window accesses, the commit unit's own happenings, a power warning in the cycle of the sample and reset alone
(R45, R319, R320, Table 06.14). -/
def Obligations.SessionsWindowAndStagingHaveTheirWriters : Prop :=
  (∀ (c : Instr) (s t : State), exec c s = .next t → (∀ p, c ≠ .reset p) →
    (isMessage c = false → (∀ k, c ≠ .loadMgmtKey k) →
      (c = .zeroizeQualify → ∀ l, s.keys.kpLast = some l → l.cyc ≠ now s) → t.sessions = s.sessions) ∧
    (isWindow c = false → t.winL = s.winL ∧ t.winD = s.winD ∧ t.winOut = s.winOut)) ∧
  (∀ (c : Instr) (s t : State), exec c s = .next t → isMessage c = false → isWindow c = false →
    isCommitUnit c = false → (∀ p, c ≠ .reset p) → t.staged = s.staged ∧ t.commit = s.commit)

/-- The frame number moves at the strobe, by one, and with a reset; no other command moves it, and none but the strobe,
the last cycle and the commit sample moves the cycle (R28, R29). persist_ok and the power phase change by PWR_WARN_QUALIFY,
DRAIN_COMPLETE, RESUME and reset alone (R267 to R275). -/
def Obligations.FrameNumberAndPowerPhaseHaveTheirMovers : Prop :=
  (∀ (c : Instr) (s t : State), exec c s = .next t → (∀ p, c ≠ .reset p) → (∀ p b, c ≠ .resetRelease p b) →
    (c ≠ .frameStrobe → t.clk.frame = s.clk.frame ∧ t.clk.running = s.clk.running) ∧
    (c ≠ .frameStrobe → c ≠ .frameEnd → c ≠ .commitSample → c ≠ .commitDeferLimit → t.clk = s.clk)) ∧
  (∀ (c : Instr) (s t : State), exec c s = .next t → c ≠ .pwrWarnQualify → c ≠ .drainComplete → c ≠ .resume →
    (∀ p, c ≠ .reset p) → t.pwr.phase = s.pwr.phase ∧ t.pins.persistOk = s.pins.persistOk)

-- Reset and start-up

/-- RESET abandons everything but the NV store, the inputs' levels and the debug lock, which por_n alone clears;
RESET_RELEASE begins frame 0 and the fuse load (R29, R137, R376). -/
def Obligations.ResetAndReleaseStartAnew : Prop :=
  (∀ (por : Bool) (s : State), ∃ t, exec (.reset por) s = .next t ∧ t.clk.running = false ∧ t.pins = {} ∧
    t.keys.kek = none ∧ t.keys.mks = [] ∧ t.keys.slots = [] ∧ t.keys.debugLock = (s.keys.debugLock && !por) ∧
    t.cfg = [] ∧ t.staged = [] ∧ t.commit = {} ∧ t.sessions = [] ∧ t.ev = {} ∧ t.pool = {} ∧ t.media = [] ∧
    t.jack = {} ∧ t.tagc = {} ∧ t.accts = [] ∧ t.pastAccts = [] ∧ t.rk = {} ∧ t.rep = {} ∧ t.nvu = {} ∧ t.pwr.stage = .fuse ∧
    t.pwr.phase = .service ∧ t.pending = s.pending ∧ (s.nvu.page = none → t.nv = s.nv)) ∧
  (∀ (por bistShort : Bool) (s : State), s.clk.running = false → ∃ t, exec (.resetRelease por bistShort) s = .next t ∧
    t.clk = { running := true, frame := 0#56, cycle := 0 } ∧ t.pwr.stage = .fuse ∧
    (por = true → t.pwr.bistShort = bistShort) ∧ t.nv = s.nv ∧ t.pending = s.pending ∧ t.pins = s.pins ∧
    t.keys = s.keys ∧ t.cfg = s.cfg ∧ t.links = s.links)

/-- Start-up goes from the fuse load to BIST, to recovery and to service. The fuse load puts ENGINE_ID and the repairs of a
good image in force, reports a bad one, and lets pin_oe rise (R289, R344, R371). BIST leaves its mode and a bit for each
kind of target that failed; a row with a free spare is remapped, a pipe retired, a lane held down (R291, R292). Recovery
counts the power cycle of the session record, restores the slots of their records without material, and makes the image
due; the image is put in force in cycle 0 of the next frame, and in no other cycle (R282, R284, R285, R330). -/
def Obligations.StartUpPassesItsStages : Prop :=
  (∀ (img : FuseImage) (s : State), s.clk.running = true → s.pwr.stage = .fuse →
    ∃ t, exec (.fuseLoadDone img) s = .next t ∧ t.pins.pinOe = true ∧ t.pwr.stage = .bist ∧
      (img.ok = false → t.pins.faultLow = true ∧ regVal t 0x1000 6 0 = regVal s 0x1000 6 0) ∧
      (img.ok = true → regVal t 0x1000 6 0 = img.engineId.toNat ∧ t.rep.cols = img.cols ∧
        (s.rep.remap = [] → s.rep.spares = [] → (∀ r ∈ img.rows, r.1 < 768 ∧ r.2.1 < 1024 ∧ r.2.2 < 4) →
          (img.rows.map (fun r => rowNo r.1 r.2.1)).Nodup → (img.rows.map (fun r => r.1 * 4 + r.2.2)).Nodup →
          ∀ r ∈ img.rows, tabFind t.rep.remap (rowNo r.1 r.2.1) = some r.2.2)) ∧
      t.nv = s.nv ∧ t.clk = s.clk ∧ t.pending = s.pending) ∧
  (∀ (fails : List BistFail) (s : State), s.clk.running = true → s.pwr.stage = .bist →
    ∃ t, exec (.bistDone fails) s = .next t ∧ t.pwr.stage = .recovery ∧
      regVal t 0x2400 4 0 = (if s.pwr.bistShort then 1 else 0) ∧ t.nv = s.nv ∧ t.clk = s.clk ∧ t.pins.pinOe = s.pins.pinOe ∧
      t.keys.kek = s.keys.kek ∧ t.cfg = s.cfg ∧ t.rk = s.rk ∧ t.pool = s.pool ∧
      (fails = [] → t = regPut 0x2400 4 0 (if s.pwr.bistShort then 1 else 0) { s with pwr := t.pwr }) ∧
      (∀ b ∈ fails, (regVal t 0x2400 5 0).testBit (bistBit b) = true) ∧
      (∀ p : Fin 128, .lfx p ∈ fails → (linkOf t p).bistDown = true) ∧
      (∀ (i : Fin 17) (p : Fin 12), .pipe i p ∈ fails → (pipeOf (sliceOf t i) p).st = 2 ∨ (sliceOf t i).st = 3) ∧
      (∀ mac k, .spare mac k ∈ fails → mac < 768 → k < 4 → mac * 4 + k ∈ t.rep.spares) ∧
      (∀ mac row k, fails = [.row mac row] → mac < 768 → row < 1024 → spareFree s mac = some k →
        tabFind t.rep.remap (rowNo mac row) = some k)) ∧
  (∀ s : State, s.pwr.stage = .recovery → s.pwr.phase = .service →
    ∃ t, exec .recoveryDone s = .next t ∧ t.pwr.stage = .served ∧ t.pwr.imageDue = some (frameNo s) ∧ t.nv = s.nv ∧
      t.clk = s.clk ∧ t.pins = s.pins ∧ t.keys.kek = s.keys.kek ∧ t.cfg = s.cfg ∧ t.staged = s.staged ∧
      (∀ a, (sessionSel s).1 = some a → t.nvu.powerCycles = (nvNat s (a + 4) 4 + 1) % 2 ^ 32 ∧
        t.nvu.prevShutdown = nvNat s (a + 8) 1) ∧
      ((sessionSel s).1 = none → t.nvu.powerCycles = 1 ∧ t.nvu.prevShutdown = 0) ∧
      ((∀ e ∈ s.nv, e.1 < 0x1000 ∨ 0x3000 ≤ e.1) → ∀ k a, 0 < k → k < 2 ^ 15 →
        (nvSelect s (0x30000 + k * 8) (0x70000 + k * 8) (slotRecValid s)).1 = some a → nvNat s (a + 1) 1 % 8 ≠ 0 →
        (slotOf t k).st = slotStOf (nvNat s (a + 1) 1 % 8) ∧ (slotOf t k).gen = BitVec.ofNat 32 (nvNat s (a + 2) 4) ∧
        (slotOf t k).matA = none ∧ (slotOf t k).matB = none ∧ (slotOf t k).restored = true)) ∧
  (∀ (f : Nat) (s : State), s.pwr.imageDue = some f → frameNo s = f + 1 → s.clk.cycle = 0 →
    ∃ t, exec .startupImageApply s = .next t ∧ t.pwr.imageDue = none ∧ t.staged = s.staged ∧ t.keys = s.keys ∧
      t.nv = s.nv ∧ t.commit.digest = 0 ∧ t.commit.published = false ∧
      (imageNow s = none → t.cfg = s.cfg ∧ t.regs = s.regs) ∧
      (∀ gen l, imageNow s = some (gen, l) → regVal t 0x2200 1 0 = gen ∧ t.commit.lastApply = frameNo s ∧
        t.commit.copyBack = copyBackOf l ∧
        ((l.map (fun e => e.1)).Nodup → ∀ e ∈ l, cfgVal t (okeyIdx e.1) (okeySub e.1) (okeyRow e.1) = e.2) ∧
        ∀ idx sub row, (∀ e ∈ l, e.1 ≠ okey idx sub row) → cfgVal t idx sub row = cfgVal s idx sub row)) ∧
  (∀ s : State, s.pwr.imageDue = none ∨ s.clk.cycle ≠ 0 ∨ (∀ f, s.pwr.imageDue = some f → frameNo s ≠ f + 1) →
    exec .startupImageApply s = .next s)

-- Frame and commit

/-- FRAME_STROBE begins the next frame at cycle 0, and FRAME_END and COMMIT_SAMPLE stand at the cycles that R28 and R325
give them; none touches the NV store. -/
def Obligations.FrameHappeningsMoveTheClock : Prop :=
  (∀ s : State, s.clk.running = true → ∃ t, exec .frameStrobe s = .next t ∧
    t.clk = { running := true, frame := s.clk.frame + 1#56, cycle := 0 } ∧ t.nv = s.nv ∧ t.pending = s.pending ∧
    t.sessions = s.sessions ∧ t.keys.kek = s.keys.kek) ∧
  (∀ s : State, s.clk.running = true → s.clk.cycle ≤ 1023 → ∃ t, exec .frameEnd s = .next t ∧
    t.clk = { s.clk with cycle := 1023 } ∧ t.nv = s.nv ∧ t.pending = s.pending ∧ t.staged = s.staged ∧
    t.commit = s.commit ∧ t.keys.kek = s.keys.kek) ∧
  (∀ s : State, s.clk.running = true → s.clk.cycle ≤ 1020 → s.commit.phase ≠ .pending →
    ∃ t, exec .commitSample s = .next t ∧ t.clk = { s.clk with cycle := 1020 } ∧ t.nv = s.nv ∧ t.commit = s.commit ∧
      t.staged = s.staged)

/-- A commit that its units have prepared is PENDING with the digest of its set; one that the sample of cycle 1,020
finds valid and ready is decided for the next frame, one that its deferral limit reaches goes back to STAGING with cause
2 and keeps its set; the apply puts the set in force, empties it and frees its owner; a unit that has copied back is
ready (R321 to R328). The apply falls in cycle 0 of the target frame and in no other cycle (R27, R41, R45). A digest
refresh that finds another digest than the published one raises EV_DIGEST_DRIFT once, keeps the published digest and
remembers the drift; a first refresh publishes (R333). A staging set whose owner has been silent for STAGE_IDLE_SF
superframes may be broken, and stays; it becomes so at a frame strobe (R32, R320). -/
def Obligations.CommitsPrepareSampleAndApply : Prop :=
  (∀ s : State, s.commit.phase = .preparing → ∃ t, exec .commitPrepared s = .next t ∧ t.commit.phase = .pending ∧
    t.commit.digestStaged = octOfHash (sha256 (serialise s true)) ∧ t.staged = s.staged ∧ t.cfg = s.cfg ∧
    t.regs = s.regs ∧ t.keys = s.keys) ∧
  (∀ s : State, sampleDue s = true → needEntry (cyclesTo 1020 s) = [] → firstFault (stateFaults (cyclesTo 1020 s)) = none →
    allReady (cyclesTo 1020 s) = true → ∃ t, exec .commitSample s = .next t ∧ t.commit.decided = .apply ∧
      t.commit.target = frameNo s + 1 ∧ t.staged = s.staged ∧ t.cfg = s.cfg) ∧
  (∀ s : State, sampleDue s = true → deferLimit s = true → firstFault (stateFaults s) = none → allReady s = false →
    ∃ t, exec .commitDeferLimit s = .next t ∧ t.commit.phase = .staging ∧ t.commit.cause = 2 ∧
      t.commit.owner = s.commit.owner ∧ t.staged = s.staged ∧ t.cfg = s.cfg) ∧
  (∀ s : State, s.commit.decided = .apply → s.commit.target = frameNo s → s.clk.cycle = 0 →
    ∃ t, exec .commitApply s = .next t ∧ t.cfg = (stagePut s).cfg ∧ t.staged = [] ∧ t.commit.phase = .idle ∧
      t.commit.owner = 0 ∧ t.commit.digest = s.commit.digestStaged ∧ t.commit.lastApply = frameNo s ∧
      regVal t 0x2200 1 0 = (cfgGen s + 1) % 2 ^ 32 ∧ t.clk = s.clk ∧ t.nv = s.nv) ∧
  (∀ s : State, s.commit.decided ≠ .apply ∨ s.commit.target ≠ frameNo s ∨ s.clk.cycle ≠ 0 →
    exec .commitApply s = .next s) ∧
  (∀ (u : Nat) (s : State), ∃ t, exec (.copyBackDone u) s = .next t ∧ tabFind t.commit.copyBack u = none ∧
    (∀ v, v ≠ u → tabFind t.commit.copyBack v = tabFind s.commit.copyBack v) ∧ t = { s with commit := t.commit }) ∧
  (∀ (err : BitVec 256) (s : State), s.commit.refresh = true → ∃ t, exec (.digestRefreshDone err) s = .next t ∧
    t.commit.refresh = false ∧ t.commit.digestCheck = octOfHash (sha256 (serialise s false)) ^^^ err ∧
    t.commit.published = true ∧ (s.commit.published = true → t.commit.digest = s.commit.digest) ∧
    (s.commit.published = false → t.commit.digest = t.commit.digestCheck) ∧
    (s.commit.published = true → t.commit.digestCheck ≠ s.commit.digest → t.commit.drift = true) ∧
    t.staged = s.staged ∧ t.cfg = s.cfg) ∧
  (∀ s : State, s.commit.owner ≠ 0 → s.clk.cycle = 0 →
    framesOver s s.commit.ownerSeen (1024 * cfgVal s 0x2200 7 0) = true →
    ∃ t, exec .stageBreakable s = .next t ∧ t = { s with commit := { s.commit with breakable := true } }) ∧
  (∀ s : State, s.commit.owner = 0 ∨ s.clk.cycle ≠ 0 ∨
    framesOver s s.commit.ownerSeen (1024 * cfgVal s 0x2200 7 0) = false → exec .stageBreakable s = .next s)

-- Power warning and zeroization

/-- A qualified warning in service begins the drain and keeps the instant and whether start-up was interrupted; in cycle
1,020 it makes the sample of that cycle find the block not ready, and in any other it leaves the commit alone (R45);
while the engine drains or is parked a qualified warning or a short pulse cancels a captured return, and a return
captures its frame; a short pulse in service counts WARN_GLITCHES (R267, R269, R274, R285). The drain ends in PARKED:
persist_ok rises once the clean session record is confirmed (after an interrupted start, once no page commit is in
progress), and the drain's cycles and writes stay readable; a late drain raises EV_DRAIN_LATE once and goes on (R270,
R272, R285). -/
def Obligations.PowerWarningDrainsToParked : Prop :=
  (∀ s : State, s.clk.running = true → s.pwr.phase = .service → ∃ t, exec .pwrWarnQualify s = .next t ∧
    t.pwr.phase = .draining ∧ t.pwr.qualAt = now s ∧ t.pwr.interrupted = decide (s.pwr.stage ≠ .served) ∧
    (s.pwr.stage = .served → s.clk.cycle = 1020 → t.commit.decided ≠ .apply ∧ t.staged = s.staged) ∧
    (s.pwr.stage ≠ .served ∨ s.clk.cycle ≠ 1020 ∨ s.commit.decided ≠ .apply → t.commit = s.commit) ∧
    t.pins = s.pins ∧ t.keys = s.keys ∧ t.nv = s.nv ∧ t.clk = s.clk) ∧
  (∀ s : State, s.clk.running = true → s.pwr.phase ≠ .service →
    exec .pwrWarnQualify s = .next { s with pwr := { s.pwr with returned := none } } ∧
    ∀ n, exec (.pwrWarnShortPulse n) s = .next { s with pwr := { s.pwr with returned := none } }) ∧
  (∀ s : State, s.pwr.phase ≠ .service →
    exec .pwrWarnReturn s = .next { s with pwr := { s.pwr with returned := some (frameNo s) } }) ∧
  (∀ (n : BitVec 32) (s : State), s.clk.running = true → s.pwr.phase = .service →
    ∃ t, exec (.pwrWarnShortPulse n) s = .next t ∧
      t = { regPut 0x6300 1 0 (min (regVal s 0x6300 1 0 + 1) (2 ^ 32 - 1)) s with ev := t.ev } ∧
      ∀ f, tabFind s.ev.sums warnGlitchKey = some f →
        tabFind t.ev.sums warnGlitchKey = some { f with count := f.count + 1, a := max f.a n.toNat }) ∧
  (∀ s : State, s.pwr.phase = .draining →
    (s.pwr.interrupted = false → s.pwr.sessionDone = true) → (s.pwr.interrupted = true → s.nvu.page = none) →
    ∃ t, exec .drainComplete s = .next t ∧ t.pins = { s.pins with persistOk := true } ∧
      t.pwr = { s.pwr with phase := .parked, parkedAt := frameNo s } ∧ regVal t 0x6300 3 0 = s.pwr.drainWrites ∧
      regVal t 0x6300 2 0 = min (now s - s.pwr.qualAt) (2 ^ 32 - 1) ∧
      t = { s with pins := t.pins, pwr := t.pwr, regs := t.regs }) ∧
  (∀ s : State, s.pwr.phase = .draining → s.pwr.interrupted = false → s.pwr.sessionDone = false →
    exec .drainComplete s = .next s) ∧
  (∀ s : State, s.pwr.phase = .draining → s.pwr.late = false → ∃ wait ports,
    exec .drainLate s =
      .next (raise .drainLate (srcGlobal 2) (drainMask s) wait ports { s with pwr := { s.pwr with late := true } })) ∧
  (∀ s : State, s.pwr.late = true → exec .drainLate s = .next s)

/-- A resume that is due lets persist_ok fall and brings service back: a running session record is to be committed, no write
is granted until it is confirmed, and a context that ran goes on from the boundary that the drain recorded; the keys, the NV
store and the clock stay. After an interrupted start nothing of that is queued, and recovery runs again (R158, R275, R285).
It is due in cycle 0 of the frame RESUME_FRAMES full frames after the return of the input, at the earliest a frame after
persist_ok rose, in no other cycle, and never with RESUME_FRAMES 0 (R32, R274). -/
def Obligations.ResumeReturnsToService : Prop :=
  (∀ (f : Nat) (s : State), s.pwr.phase = .parked → cfgVal s 0x2300 1 0 ≠ 0 → s.clk.cycle = 0 →
    s.pwr.returned = some f → frameNo s = max (f + 1 + cfgVal s 0x2300 1 0) (s.pwr.parkedAt + 1) →
    ∃ t, exec .resume s = .next t ∧ t.pins = { s.pins with persistOk := false } ∧ t.pwr.phase = .service ∧
      t.pwr.returned = none ∧ t.pwr.interrupted = false ∧ t.pwr.stage = s.pwr.stage ∧
      t.keys.kek = s.keys.kek ∧ t.keys.mks = s.keys.mks ∧ t.nv = s.nv ∧ t.clk = s.clk ∧ t.sessions = s.sessions ∧
      t.staged = s.staged ∧ t.commit = s.commit ∧
      (s.pwr.interrupted = false → t.pwr.holdWrites = true ∧ actWaits t .sessionRun = true ∧
        ∀ n, n < 64 → (ctxOf s n).st = .running → (ctxOf t n).bound = (ctxOf s n).ckpt) ∧
      (s.pwr.interrupted = true → t.pwr.holdWrites = false ∧ t.rk = s.rk ∧ t.pool = s.pool ∧ t.media = s.media)) ∧
  (∀ s : State, s.pwr.phase ≠ .parked ∨ cfgVal s 0x2300 1 0 = 0 ∨ s.pwr.returned = none ∨ s.clk.cycle ≠ 0 ∨
    (∀ f, s.pwr.returned = some f → frameNo s ≠ max (f + 1 + cfgVal s 0x2300 1 0) (s.pwr.parkedAt + 1)) →
    exec .resume s = .next s)

/-- A qualified zeroization erases the KEK, every management key and every key material, and ends every subscription
(log 40); a key-port command of its cycle is aborted with KP_ZEROIZED (R388, log 42); the input that is already
qualified erases nothing twice (R131, R138). The end of the erase raises `zeroized` and EV_ZEROIZE; the return of the
input starts the hold-off, in which loads are refused, and 16 full frames later the hold-off ends; a short pulse is
counted and changes no key; the debug lock, once blown, forces bits 0 and 1 of every G_DEBUG to 0 (R32, R137 to R140). -/
def Obligations.ZeroizationErasesEveryKey : Prop :=
  (∀ s : State, s.clk.running = true → s.keys.zer.lowQual = false → ∃ t, exec .zeroizeQualify s = .next t ∧
    t.keys.kek = none ∧ t.keys.mks = [] ∧ (∀ k, (slotOf t k).matA = none ∧ (slotOf t k).matB = none) ∧
    t.keys.zer.lowQual = true ∧ t.keys.zer.erasing = true ∧ t.keys.zer.returned = none ∧ t.keys.eraseNext = [] ∧
    t.nv = s.nv ∧ t.clk = s.clk ∧ t.pins = { s.pins with zeroized := t.pins.zeroized } ∧
    ((∀ l, s.keys.kpLast = some l → l.cyc ≠ now s) → t.pins = s.pins ∧ t.keys.kpRsp = s.keys.kpRsp) ∧
    (∀ l r, s.keys.kpLast = some l → s.keys.kpRsp = some r → l.cyc = now s →
      t.keys.kpRsp = some { opc := kpOpc r.opc l.cmd, seq := l.cmd.seq, result := kpZeroized, kcv := 0#24 } ∧
      regVal t 0x6060 1 0 = regVal s 0x6060 1 0 - 1 ∧
      regVal t 0x6060 2 0 = min (regVal s 0x6060 2 0 + 1) (2 ^ 32 - 1)) ∧ t.keys.debugLock = s.keys.debugLock) ∧
  (∀ s : State, s.keys.zer.lowQual = true → exec .zeroizeQualify s = .next s) ∧
  (∀ s : State, s.keys.zer.erasing = true → ∃ p2,
    exec .zeroizeDone s = .next (raise .zeroize (srcGlobal 8) s.keys.zer.slotsErased p2 s.keys.zer.discards
      { s with keys := { s.keys with zer := { s.keys.zer with erasing := false, erased := true } },
               pins := { s.pins with zeroized := true } })) ∧
  (∀ s : State, s.keys.zer.lowQual = true → ∃ t, exec .zeroizeReturn s = .next t ∧
    t = { s with keys := { s.keys with zer :=
      { s.keys.zer with lowQual := false, returned := some (frameNo s) } } } ∧ holdoffActive t = true) ∧
  (∀ (f : Nat) (s : State), s.keys.zer.returned = some f →
    (frameNo s = f + 17 → s.clk.cycle = 0 →
      exec .holdoffEnd s = .next { s with keys := { s.keys with zer := { s.keys.zer with returned := none } } }) ∧
    (frameNo s ≠ f + 17 ∨ s.clk.cycle ≠ 0 → exec .holdoffEnd s = .next s) ∧
    (s.keys.zer.lowQual = false → holdoffActive s = decide (frameNo s < f + 17))) ∧
  (∀ s : State, s.clk.running = true → s.keys.zer.lowQual = false → ∃ t, exec .zeroizeShortPulse s = .next t ∧
    t = { regPut 0x6060 4 0 (min (regVal s 0x6060 4 0 + 1) (2 ^ 32 - 1)) s with ev := t.ev }) ∧
  (∀ s : State, ∃ t, exec .debugLockBlown s = .next t ∧ t.keys = { s.keys with debugLock := true } ∧
    t = { s with keys := t.keys, cfg := t.cfg, staged := t.staged } ∧
    (∀ row, row < 2 ^ 24 → cfgVal t 0x5000 1 row % 4 = 0) ∧
    ∀ idx sub row, okeyIdx (okey idx sub row) ≠ 0x5000 ∨ okeySub (okey idx sub row) ≠ 1 →
      cfgVal t idx sub row = cfgVal s idx sub row)

-- Key port

/-- LOAD_KEK that passes its early checks is accepted only when no KEK is held; it answers the KEK's check value, counts the
command and lets `zeroized` fall; with a KEK held it answers KP_KEK_HELD and changes no key (R131, R138). LOAD_MGMT_KEY that
unwraps puts its key at MKk, counts a load of the session, restarts its SEQ and ends its subscription; every other
management key, session and subscription stays (R129, R317, R318). -/
def Obligations.KekAndManagementKeysLoad : Prop :=
  (∀ (k : KpCmd) (s : State), kpEarly 1 k true s = none →
    (s.keys.kek = none → ∃ t, exec (.loadKek k) s = .next t ∧
      t.keys.kek = some (k.payload.extractLsb' 192 256) ∧ t.pins = { s.pins with zeroized := false } ∧
      t.keys.zer = { s.keys.zer with erased := false } ∧
      t.keys.kpRsp = some { opc := 1#8, seq := k.seq, result := kpOk, kcv := kcv (k.payload.extractLsb' 192 256) } ∧
      regVal t 0x6060 1 0 = min (regVal s 0x6060 1 0 + 1) (2 ^ 32 - 1) ∧ t.keys.mks = s.keys.mks ∧
      t.keys.slots = s.keys.slots ∧ t = { s with keys := t.keys, pins := t.pins, regs := t.regs }) ∧
    (s.keys.kek ≠ none → ∃ t, exec (.loadKek k) s = .next t ∧
      t.keys = { s.keys with
        kpRsp := some { opc := 1#8, seq := k.seq, result := kpKekHeld, kcv := 0#24 }, kpLast := none } ∧
      t = { s with keys := t.keys, regs := t.regs, ev := t.ev })) ∧
  (∀ (k : KpCmd) (s : State) (kek mk : Key), kpEarly 3 k true s = none → s.keys.kek = some kek →
    kpOpen kek k 0 k.msel.toNat 0 0 2 = some mk → ∃ t, exec (.loadMgmtKey k) s = .next t ∧
      tabFind t.keys.mks k.msel.toNat = some mk ∧
      (∀ j, j ≠ k.msel.toNat → tabFind t.keys.mks j = tabFind s.keys.mks j ∧
        tabGet {} t.sessions j = tabGet {} s.sessions j ∧ tabFind t.ev.subs j = tabFind s.ev.subs j) ∧
      tabGet {} t.sessions k.msel.toNat =
        { loads := (tabGet {} s.sessions k.msel.toNat).loads + 1#16, lastSeq := 0#32 } ∧
      tabFind t.ev.subs k.msel.toNat = none ∧
      t.keys.kpRsp = some { opc := 3#8, seq := k.seq, result := kpOk, kcv := 0#24 } ∧
      t.keys = { s.keys with mks := t.keys.mks, kpRsp := t.keys.kpRsp, kpLast := t.keys.kpLast } ∧
      t = { s with keys := t.keys, sessions := t.sessions, ev := t.ev, regs := t.regs })

/-- LOAD_KEY that passes its early checks, that Table 06.10 admits and whose payload unwraps under the KEK to the binding of
its slot, puts the key into its register, usable from the next frame: a fresh load makes the slot LOADED with its check
value, a reload needs the recorded check value, a rotation fills B with its check value; the other slots stay. Without a KEK
it answers KP_NO_KEK, and where Table 06.10 admits it not, KP_STATE (R129, R130, R133). -/
def Obligations.LoadKeyFillsItsRegister : Prop :=
  ∀ (k : KpCmd) (s : State), kpEarly 2 k true s = none →
    (∀ (kek key : Key) (x : Slot) (toB : Bool), s.keys.kek = some kek → x = slotOf s k.kidx.toNat →
      toB = decide (k.msel = 1#8) →
      kpOpen kek k k.kidx.toNat k.msel.toNat (slotClass s k.kidx.toNat) (cfgVal s 0x4000 2 k.kidx.toNat) 1 = some key →
      ∃ t, exec (.loadKey k) s = .next t ∧ (∀ j, j ≠ k.kidx.toNat → slotOf t j = slotOf s j) ∧ t.nv = s.nv ∧
        t.clk = s.clk ∧ t.pins = s.pins ∧ t.cfg = s.cfg ∧ t.keys.kek = s.keys.kek ∧
        (keyAdmit x toB = .fresh →
          t.keys.kpRsp = some { opc := 2#8, seq := k.seq, result := kpOk, kcv := matKcv key } ∧
          slotOf t k.kidx.toNat =
            { x with st := .loaded, matA := some { key := key, usable := frameNo s + 1 }, kcvA := matKcv key }) ∧
        (keyAdmit x toB = .reload → reloadOk x toB key = true → toB = false →
          t.keys.kpRsp = some { opc := 2#8, seq := k.seq, result := kpOk, kcv := matKcv key } ∧
          (slotOf t k.kidx.toNat).matA = some { key := key, usable := frameNo s + 1 } ∧
          (slotOf t k.kidx.toNat).matB = x.matB) ∧
        (keyAdmit x toB = .reload → reloadOk x toB key = true → toB = true →
          (slotOf t k.kidx.toNat).matB = some { key := key, usable := frameNo s + 1 } ∧
          (slotOf t k.kidx.toNat).matA = x.matA) ∧
        (keyAdmit x toB = .reload → reloadOk x toB key = false →
          t.keys.kpRsp = some { opc := 2#8, seq := k.seq, result := kpKcvMismatch, kcv := 0#24 } ∧
          slotOf t k.kidx.toNat = x) ∧
        (keyAdmit x toB = .rotate →
          slotOf t k.kidx.toNat =
            { x with matB := some { key := key, usable := frameNo s + 1 }, kcvB := matKcv key, kcvBBad := false }) ∧
        (keyAdmit x toB = .no →
          t.keys = { s.keys with
            kpRsp := some { opc := 2#8, seq := k.seq, result := kpState, kcv := 0#24 }, kpLast := none })) ∧
    (s.keys.kek = none → ∃ t, exec (.loadKey k) s = .next t ∧
      t.keys = { s.keys with
        kpRsp := some { opc := 2#8, seq := k.seq, result := kpNoKek, kcv := 0#24 }, kpLast := none } ∧
      t = { s with keys := t.keys, regs := t.regs, ev := t.ev })

/-- ERASE_SLOT that passes its early checks, during the hold-off too, removes both materials of a slot that is neither EMPTY
nor ZEROIZED, empties a LOADED one, and moves an ACTIVE one to ZEROIZED with its state remembered; the other slots' materials stay. QUERY_KCV answers
the check value of a present material and KP_STATE for an absent one, and changes no key (R131, R389, Table 06.4). A command
of the key port whose OPC or fields are out of range is answered KP_BAD_FIELD with its own OPC and counted, and changes no
key (R130, R388). A command's 64 bytes give its fields back, and a response lies in its 8 bytes with the KCV's first byte
first (R128, Tables 06.6, 06.7). -/
def Obligations.EraseSlotAndQueryKcv : Prop :=
  (∀ (k : KpCmd) (s : State), kpEarly 4 k false s = none → ∃ t, exec (.eraseSlot k) s = .next t ∧
    ((slotOf s k.kidx.toNat).st ≠ .empty → (slotOf s k.kidx.toNat).st ≠ .zeroized →
      (slotOf t k.kidx.toNat).matA = none ∧ (slotOf t k.kidx.toNat).matB = none) ∧
    ((slotOf s k.kidx.toNat).st = .active →
      (slotOf t k.kidx.toNat).st = .zeroized ∧ (slotOf t k.kidx.toNat).prior = .active) ∧
    ((slotOf s k.kidx.toNat).st = .loaded → (slotOf t k.kidx.toNat).st = .empty) ∧
    (∀ j, j ≠ k.kidx.toNat → slotOf t j = slotOf s j) ∧ t.keys.kek = s.keys.kek ∧ t.keys.mks = s.keys.mks ∧
    t.nv = s.nv ∧ t.clk = s.clk ∧ t.pins = s.pins ∧
    t.keys.kpRsp = some { opc := 4#8, seq := k.seq, result := kpOk, kcv := 0#24 }) ∧
  (∀ (k : KpCmd) (s : State), kpEarly 5 k false s = none → ∃ t, exec (.queryKcv k) s = .next t ∧
    (∀ m, (if k.msel = 1#8 then (slotOf s k.kidx.toNat).matB else (slotOf s k.kidx.toNat).matA) = some m →
      t.keys = { s.keys with
        kpRsp := some { opc := 5#8, seq := k.seq, result := kpOk, kcv := matKcv m.key }, kpLast := t.keys.kpLast } ∧
      regVal t 0x6060 1 0 = min (regVal s 0x6060 1 0 + 1) (2 ^ 32 - 1)) ∧
    ((if k.msel = 1#8 then (slotOf s k.kidx.toNat).matB else (slotOf s k.kidx.toNat).matA) = none →
      t.keys = { s.keys with
        kpRsp := some { opc := 5#8, seq := k.seq, result := kpState, kcv := 0#24 }, kpLast := none }) ∧
    t = { s with keys := t.keys, regs := t.regs, ev := t.ev }) ∧
  (∀ (op : Nat) (c : Instr) (k : KpCmd) (s : State),
    (op, c) ∈ [(1, .loadKek k), (2, .loadKey k), (3, .loadMgmtKey k), (4, .eraseSlot k), (5, .queryKcv k)] →
    s.clk.running = true → s.pwr.stage = .served → kpFieldsOk op k = false → ∃ t, exec c s = .next t ∧
      t.keys = { s.keys with kpRsp := some { opc := kpOpc (BitVec.ofNat 8 op) k, seq := k.seq, result := kpBadField, kcv := 0#24 },
                             kpLast := none } ∧
      regVal t 0x6060 2 0 = min (regVal s 0x6060 2 0 + 1) (2 ^ 32 - 1) ∧ t.nv = s.nv ∧ t.clk = s.clk ∧ t.pins = s.pins) ∧
  (∀ (opc : Byte) (k : KpCmd), (kpCmdBytes opc k).length = 64 ∧
    kpCmdRead (kpCmdBytes opc k) k.framed = (kpOpc opc k, { k with odd := none })) ∧
  (∀ r : KpRsp, (kpRspBytes r).length = 8 ∧ (kpRspBytes r).take 3 = [r.opc, r.seq, r.result] ∧
    natOfBe (((kpRspBytes r).drop 3).take 3) = r.kcv.toNat ∧ (kpRspBytes r).drop 6 = [0#8, 0#8])

-- Links

/-- LANE_RATE follows the rate input, and a link that is up or negotiating drops with cause 6; a link at a served rate
that BIST does not hold down gains lock, which ends a loss unless it comes too late; a lost lock is counted and starts
t_LOS, in whose last cycle, and in no other, the link drops with cause 1 (R32, R212, R213, R366). t_ACK makes an
ack-bearing flit due, the heartbeat interval a HEARTBEAT; the replay timer starts a replay from UNA, drops the link with
cause 3 at the limit, and with cause 4 where the first held flit is damaged (R219, R224, R225, R236). -/
def Obligations.RateLockAndTimersOfALink : Prop :=
  (∀ (p : Fin 128) (rate : BitVec 2) (s : State),
    ((linkOf s p).rate = rate.toNat → exec (.rateChange p rate) s = .next s) ∧
    ((linkOf s p).rate ≠ rate.toNat → ∃ t, exec (.rateChange p rate) s = .next t ∧ (linkOf t p).rate = rate.toNat ∧
      ((linkOf s p).up = true ∨ (linkOf s p).negOpen = true → LinkDropped s t p 6) ∧
      ((linkOf s p).up = false → (linkOf s p).negOpen = false →
        t = linkPut p { linkOf s p with rate := rate.toNat, lock := (linkOf s p).lock && decide (rate.toNat ≠ 3) } s))) ∧
  (∀ (p : Fin 128) (s : State), s.clk.running = true → (linkOf s p).rate ≠ 3 → (linkOf s p).bistDown = false →
    exec (.lockGained p) s = .next (linkPut p { linkOf s p with
      lock := true, run := 0, lost := (linkOf s p).lost.filter (fun l => framesOver s l.1 l.2) } s)) ∧
  (∀ (p : Fin 128) (s : State), (linkOf s p).lock = true → ∃ t, exec (.lockLost p) s = .next t ∧
    linkOf t p = { linkOf s p with
      lock := false, run := 0
      lost := match (linkOf s p).lost with
        | some l => some l
        | none => if (linkOf s p).up || (linkOf s p).negOpen then some (frameNo s, cfgVal s 0x2090 1 0) else none } ∧
    regVal t (linkIdx p 1) 7 0 = min (regVal s (linkIdx p 1) 7 0 + 1) (2 ^ 32 - 1) ∧
    (∀ q, q ≠ p.val → linkOf t q = linkOf s q) ∧ t = { s with regs := t.regs, ev := t.ev, links := t.links }) ∧
  (∀ (p : Fin 128) (f los : Nat) (s : State), (linkOf s p).lost = some (f, los) →
    (frameNo s = f + 1 + los → s.clk.cycle = 0 → ∃ t, exec (.tLosExpiry p) s = .next t ∧ LinkDropped s t p 1) ∧
    (frameNo s ≠ f + 1 + los ∨ s.clk.cycle ≠ 0 → exec (.tLosExpiry p) s = .next s)) ∧
  (∀ (p : Fin 128) (s : State), (linkOf s p).lost = none → exec (.tLosExpiry p) s = .next s) ∧
  (∀ (p : Fin 128) (s : State), (linkOf s p).up = true →
    (0 < (linkOf s p).uncovered → exec (.ackTimer p) s = .next (linkPut p { linkOf s p with ackDue := true } s)) ∧
    exec (.heartbeatDue p) s = .next (linkPut p { linkOf s p with hbDue := true } s) ∧
    ((linkOf s p).una ≠ (linkOf s p).nxt → (linkOf s p).nakAt ≠ some (now s) →
      ∀ f : Faults,
      ((linkOf s p).expiries + 1 < (linkOf s p).force.replayLimit → ∃ t, exec (.replayTimer p false f) s = .next t ∧
        linkOf t p = { linkOf s p with
          expiries := (linkOf s p).expiries + 1, replay := some (linkOf s p).una
          timerAt := some (now s, (linkOf s p).expiries) } ∧
        regVal t (linkIdx p 2) 6 0 = min (regVal s (linkIdx p 2) 6 0 + 1) (2 ^ 32 - 1) ∧
        (∀ q, q ≠ p.val → linkOf t q = linkOf s q) ∧
        t = { rowErrors f s with regs := t.regs, ev := t.ev, links := t.links }) ∧
      ((linkOf s p).expiries + 1 < (linkOf s p).force.replayLimit →
        ∃ t, exec (.replayTimer p true f) s = .next t ∧ LinkDropped (rowErrors f s) t p 4) ∧
      ((linkOf s p).force.replayLimit ≤ (linkOf s p).expiries + 1 →
        ∀ bad, ∃ t, exec (.replayTimer p bad f) s = .next t ∧ LinkDropped s t p 3)))

/-- A good DATA flit in sequence advances the expected SEQ and the ACK and gives its slots to the decoder; a later one
makes a NAK owed and a repeated one is dropped, and neither gives the decoder anything; a flit with an LCW error drops
the link with cause 2 (R214, R218 to R220, Table 10.7). ACK_ONLY and HEARTBEAT flits release the held flits that they
acknowledge, an IDLE flit releases none; each takes the partner's RXLOCK; a HEARTBEAT leaves the partner's digest and
generation readable; none enters the decoder (R215, R217, R218, R237). On a link that is not up a DATA flit is dropped
and counted, and its reserved bits are checked all the same (R214, R218). -/
def Obligations.FlitsAreTakenInSequence : Prop :=
  (∀ (p : Fin 128) (fec : List Nat) (w : BitVec 64) (body : BitVec 1920) (s : State), FlitPasses s p fec →
    (linkOf s p).up = true →
    (lcwCheck (linkOf s p) true true w = none → seqDist (lcwSeq w) (linkOf s p).e = 0 → ∃ u,
      exec (.rxDataFlit p fec w body) s = .next (slotRun 15 p (lcwVc w) body 0 u) ∧
      (linkOf u p).e = ((linkOf s p).e + 1) % 4096 ∧ (linkOf u p).ack = (linkOf s p).e ∧
      (linkOf u p).uncovered = (linkOf s p).uncovered + 1 ∧ (linkOf u p).nakOwed = false ∧
      (linkOf u p).una = (ackTake (linkOf s p) (lcwAck w)).una ∧ (∀ q, q ≠ p.val → linkOf u q = linkOf s q) ∧
      u = { s with regs := u.regs, ev := u.ev, links := u.links }) ∧
    (lcwCheck (linkOf s p) true true w = none → seqDist (lcwSeq w) (linkOf s p).e ≠ 0 → ∃ t,
      exec (.rxDataFlit p fec w body) s = .next t ∧ (linkOf t p).e = (linkOf s p).e ∧ (linkOf t p).ack = (linkOf s p).ack ∧
      (seqDist (lcwSeq w) (linkOf s p).e ≤ 2048 → (linkOf s p).nakSent = false → (linkOf t p).nakOwed = true) ∧
      (2048 < seqDist (lcwSeq w) (linkOf s p).e → (linkOf t p).nakOwed = (linkOf s p).nakOwed) ∧
      (∀ q, q ≠ p.val → linkOf t q = linkOf s q) ∧ t = { s with regs := t.regs, ev := t.ev, links := t.links }) ∧
    (lcwCheck (linkOf s p) true true w ≠ none → ∃ t,
      exec (.rxDataFlit p fec w body) s = .next t ∧ LinkDropped s t p 2)) ∧
  (∀ (p : Fin 128) (fec : List Nat) (w : BitVec 64) (body : BitVec 1920) (s : State), FlitPasses s p fec →
    (linkOf s p).up = false →
    (lcwForm true w = none → ∃ t, exec (.rxDataFlit p fec w body) s = .next t ∧
      regVal t (linkIdx p 1) 0x0B 0 = min (regVal s (linkIdx p 1) 0x0B 0 + 1) (2 ^ 32 - 1) ∧
      linkOf t p = linkHeld s (linkOf s p) ∧ (∀ q, q ≠ p.val → linkOf t q = linkOf s q) ∧
      t = { s with regs := t.regs, links := t.links }) ∧
    (lcwForm true w ≠ none → ∃ t, exec (.rxDataFlit p fec w body) s = .next t ∧ LinkDropped s t p 2)) ∧
  (∀ (p : Fin 128) (fec : List Nat) (w dig : BitVec 64) (gen : BitVec 32) (s : State), FlitPasses s p fec →
    (linkOf s p).up = true →
    (lcwCheck (linkOf s p) false true w = none →
      (∃ t, exec (.rxAckOnly p fec w) s = .next t ∧ (linkOf t p).una = (ackTake (linkOf s p) (lcwAck w)).una ∧
        (linkOf t p).held = (ackTake (linkOf s p) (lcwAck w)).held ∧
        (linkOf t p).mayData = ((linkOf s p).mayData || lcwRxlock w) ∧ (linkOf t p).e = (linkOf s p).e ∧
        (∀ q, q ≠ p.val → linkOf t q = linkOf s q) ∧ t = { s with regs := t.regs, ev := t.ev, links := t.links }) ∧
      (∃ t, exec (.rxHeartbeat p fec w dig gen) s = .next t ∧
        (linkOf t p).una = (ackTake (linkOf s p) (lcwAck w)).una ∧
        (linkOf t p).mayData = ((linkOf s p).mayData || lcwRxlock w) ∧
        regVal t (linkIdx p 3) 6 0 = dig.toNat ∧ regVal t (linkIdx p 3) 7 0 = gen.toNat ∧
        (dig ≠ 0#64 → dig ≠ ownDigest64 s → (linkOf t p).peerNoted = true) ∧
        (∀ q, q ≠ p.val → linkOf t q = linkOf s q) ∧ t = { s with regs := t.regs, ev := t.ev, links := t.links })) ∧
    (lcwCheck (linkOf s p) false true w ≠ none → (∃ t, exec (.rxAckOnly p fec w) s = .next t ∧ LinkDropped s t p 2) ∧
      ∃ t, exec (.rxHeartbeat p fec w dig gen) s = .next t ∧ LinkDropped s t p 2) ∧
    (lcwCheck (linkOf s p) false false w = none → ∃ t, exec (.rxIdle p fec w) s = .next t ∧
      (linkOf t p).una = (linkOf s p).una ∧ (linkOf t p).held = (linkOf s p).held ∧
      (linkOf t p).mayData = ((linkOf s p).mayData || lcwRxlock w) ∧
      (∀ q, q ≠ p.val → linkOf t q = linkOf s q) ∧ t = { s with regs := t.regs, ev := t.ev, links := t.links }) ∧
    (lcwCheck (linkOf s p) false false w ≠ none → ∃ t, exec (.rxIdle p fec w) s = .next t ∧ LinkDropped s t p 2))

/-- What drops a link: a DOWN flit while it is up or negotiating (cause 5), a flit of a reserved type or with reserved LCW
bits (cause 2), lost heartbeats (cause 6), and a negotiation without a confirm (cause 6); a flit whose CRC fails is counted
and makes a NAK owed (R208, R211, R213, R218, R220, R235, R237). While lock is searched eight decodable flits in a row give
it and an uncorrectable one moves the search on by a bit; while it is held an uncorrectable flit of any type is counted and
makes a NAK owed, and the fourth in a row loses lock; a link that does not hear takes no flit (R209, R212, R366). -/
def Obligations.WhatDropsALink : Prop :=
  (∀ (p : Fin 128) (fec : List Nat) (w : BitVec 64) (s : State),
    (FlitPasses s p fec → lcwForm false w = none → (linkOf s p).up = true ∨ (linkOf s p).negOpen = true →
      ∃ t, exec (.rxDown p fec w) s = .next t ∧ LinkDropped s t p 5) ∧
    (FlitPasses s p fec → lcwForm false w = none → (linkOf s p).up = false → (linkOf s p).negOpen = false →
      ∃ t, exec (.rxDown p fec w) s = .next t ∧ linkOf t p = linkHeld s (linkOf s p) ∧
        (∀ q, q ≠ p.val → linkOf t q = linkOf s q) ∧ t = { s with regs := t.regs, links := t.links }) ∧
    (FlitPasses s p fec → lcwForm false w ≠ none → ∃ t, exec (.rxDown p fec w) s = .next t ∧ LinkDropped s t p 2) ∧
    (FlitPasses s p fec → ∃ t, exec (.rxReservedType p fec w) s = .next t ∧ LinkDropped s t p 2) ∧
    ((linkOf s p).up = true → ∃ t, exec (.hbLost p) s = .next t ∧ LinkDropped s t p 6) ∧
    ((linkOf s p).negOpen = true → (linkOf s p).selSent = true →
      ∃ t, exec (.tNegExpiry p) s = .next t ∧ LinkDropped s t p 6) ∧
    (FlitPasses s p fec → ∀ flit, ∃ t, exec (.rxBadFlit p fec flit) s = .next t ∧
      (flitCrcOk flit = false → regVal t (linkIdx p 1) 6 0 = min (regVal s (linkIdx p 1) 6 0 + 1) (2 ^ 32 - 1) ∧
        ((linkOf s p).up = true → linkOf t p = nakWant (linkHeld s (linkOf s p)))) ∧
      (flitCrcOk flit = true ∨ (linkOf s p).up = false → linkOf t p = linkHeld s (linkOf s p)) ∧
      (∀ q, q ≠ p.val → linkOf t q = linkOf s q) ∧ t = { s with regs := t.regs, ev := t.ev, links := t.links })) ∧
  (∀ (c : Instr) (p : Nat) (fec : List Nat) (s : State), flitOf c = some (p, fec) →
    (linkHears s p = false → exec c s = .next s) ∧
    (linkHears s p = true →
      ((fecDecode (linkOf s p).light fec).isSome = true → (linkOf s p).lock = false → (linkOf s p).run < 7 →
        exec c s = .next (linkPut p { linkOf s p with run := (linkOf s p).run + 1 } s)) ∧
      (fecDecode (linkOf s p).light fec = none → (linkOf s p).lock = false →
        exec c s = .next (linkPut p { linkOf s p with
          run := 0, bitPos := ((linkOf s p).bitPos + 1) % (8 * wireLen (linkOf s p).light) } s)) ∧
      (fecDecode (linkOf s p).light fec = none → (linkOf s p).lock = true → ∃ t, exec c s = .next t ∧
        regVal t (linkIdx p 1) 5 0 = min (regVal s (linkIdx p 1) 5 0 + 1) (2 ^ 32 - 1) ∧
        ((linkOf s p).up = true → (linkOf t p).nakOwed = (nakWant (linkOf s p)).nakOwed) ∧
        ((linkOf s p).run < 3 → (linkOf t p).lock = true ∧ (linkOf t p).run = (linkOf s p).run + 1) ∧
        (3 ≤ (linkOf s p).run → (linkOf t p).lock = false ∧ (linkOf t p).run = 0 ∧
          regVal t (linkIdx p 1) 7 0 = min (regVal s (linkIdx p 1) 7 0 + 1) (2 ^ 32 - 1)) ∧
        (∀ q, q ≠ p → linkOf t q = linkOf s q) ∧ t = { s with regs := t.regs, ev := t.ev, links := t.links })))

/-- An offer on a link that is not up is answered with the values chosen for it, or with the RESULT that refuses it; the
confirm that repeats the values brings the link up with them, any other drops it with cause 6, and one that comes without a
select is counted; an offer on a link that is up drops it with cause 6. Each offer gets a select of its own, and an offer
that repeats a NEG_ID the values with which that negotiation began (R231 to R235). Reserved LCW bits drop the link with
cause 2 (R218). -/
def Obligations.NegotiationBringsALinkUp : Prop :=
  (∀ (p : Fin 128) (fec : List Nat) (w : BitVec 64) (o : Offer) (own : OwnVals) (n : NegVals) (s : State),
    FlitPasses s p fec → lcwForm false w = none → s.pwr.stage = .served → own = ownFor s p o.negId →
    n = offerVals own (linkOf s p).rate o →
    ((linkOf s p).up = false → offerResult own o = 0 → (∀ v, (linkOf s p).select = some v → v.negId ≠ o.negId) →
      ∃ t, exec (.rxParamOffer p fec o w) s = .next t ∧
        linkOf t p = { linkHeld s (linkOf s p) with
          negOpen := true, downOn := false, selSent := false, select := some n, own := some (o.negId, own)
          selectDue := (linkOf s p).selectDue ++ [(0, n)] } ∧
        regVal t (linkIdx p 3) 5 0 = o.partnerId.toNat ∧ (∀ q, q ≠ p.val → linkOf t q = linkOf s q) ∧
        t = { s with regs := t.regs, links := t.links }) ∧
    ((linkOf s p).up = false → offerResult own o = 0 → ∀ v, (linkOf s p).select = some v → v.negId = o.negId →
      ∃ t, exec (.rxParamOffer p fec o w) s = .next t ∧
        linkOf t p = { linkHeld s (linkOf s p) with
          negOpen := true, downOn := false, own := some (o.negId, own)
          selectDue := (linkOf s p).selectDue ++ [(0, v)] } ∧
        t = { s with regs := t.regs, links := t.links }) ∧
    ((linkOf s p).up = false → offerResult own o ≠ 0 → ∃ t, exec (.rxParamOffer p fec o w) s = .next t ∧
      linkOf t p = { linkHeld s (linkOf s p) with
        negOpen := true, downOn := false, selSent := false, select := none, own := some (o.negId, own)
        selectDue := (linkOf s p).selectDue ++ [(offerResult own o, { negId := o.negId, linkGen := own.linkGen })] } ∧
      (∀ q, q ≠ p.val → linkOf t q = linkOf s q) ∧ t = { s with regs := t.regs, ev := t.ev, links := t.links }) ∧
    ((linkOf s p).up = true → ∃ t, exec (.rxParamOffer p fec o w) s = .next t ∧ LinkDropped s t p 6) ∧
    (∀ v, (linkOf s p).own = some (o.negId, v) → own = v) ∧ ((linkOf s p).own = none → own = ownVals s p)) ∧
  (∀ (p : Fin 128) (fec : List Nat) (w : BitVec 64) (c : Confirm) (v : NegVals) (s : State), FlitPasses s p fec →
    lcwForm false w = none → s.pwr.stage = .served → (linkOf s p).selSent = true → (linkOf s p).select = some v →
    (confirmMatches v c = true → ∃ t, exec (.rxParamConfirm p fec c w) s = .next t ∧ (linkOf t p).up = true ∧
      (linkOf t p).force = v ∧ (linkOf t p).first = true ∧ (linkOf t p).light = v.light ∧ (linkOf t p).resync = 1 ∧
      (linkOf t p).lock = !v.light ∧ (linkOf t p).select = none ∧ (linkOf t p).selectDue = [] ∧
      regVal t (linkIdx p 0) 0x0F 0 = v.linkGen ∧ (∀ q, q ≠ p.val → linkOf t q = linkOf s q) ∧
      t = { s with regs := t.regs, ev := t.ev, links := t.links }) ∧
    (confirmMatches v c = false → ∃ t, exec (.rxParamConfirm p fec c w) s = .next t ∧ LinkDropped s t p 6)) ∧
  (∀ (p : Fin 128) (fec : List Nat) (w : BitVec 64) (c : Confirm) (s : State), FlitPasses s p fec →
    lcwForm false w = none → s.pwr.stage = .served → (linkOf s p).selSent = false ∨ (linkOf s p).select = none →
    ∃ t, exec (.rxParamConfirm p fec c w) s = .next t ∧ linkOf t p = linkHeld s (linkOf s p) ∧
      regVal t (linkIdx p 3) 8 0 = min (regVal s (linkIdx p 3) 8 0 + 1) (2 ^ 32 - 1) ∧
      (∀ q, q ≠ p.val → linkOf t q = linkOf s q) ∧ t = { s with regs := t.regs, links := t.links }) ∧
  (∀ (p : Fin 128) (fec : List Nat) (w : BitVec 64) (o : Offer) (c : Confirm) (s : State), FlitPasses s p fec →
    lcwForm false w ≠ none → (∃ t, exec (.rxParamOffer p fec o w) s = .next t ∧ LinkDropped s t p 2) ∧
      ∃ t, exec (.rxParamConfirm p fec c w) s = .next t ∧ LinkDropped s t p 2)

/-- The next flit of a lane: none at rate 11; a DOWN flit with the cause while DOWN flits of a drop are left; on a link
that is up, first the ACK_ONLY after the link up, then a due HEARTBEAT, then the next flit of a replay with RETX, then a
new DATA flit, which is held until it is acknowledged, then an ACK_ONLY that is due, and otherwise IDLE; a damaged queue
is reset and a damaged header drops the link (R198, R199, R208, R216, R219, R222, R223, R231, R236, R366). -/
def Obligations.TheNextFlitOfALane : Prop :=
  ∀ (p : Fin 128) (bad : Bool) (f : Faults) (s : State), s.clk.running = true →
    ((linkOf s p).rate = 3 →
      exec (.flitTransmit p bad f) s = .next (linkPut p { linkOf s p with txLast := none } s)) ∧
    ((linkOf s p).rate ≠ 3 → (linkOf s p).bistDown = false → (linkOf s p).up = false → 0 < (linkOf s p).downLeft →
      ∃ t o, exec (.flitTransmit p bad f) s = .next t ∧
        linkOf t p = { linkOf s p with downLeft := (linkOf s p).downLeft - 1, txLast := some o } ∧ o.ty = 7 ∧
        o.light = (linkOf s p).downLight ∧ t = { s with links := t.links }) ∧
    ((linkOf s p).rate ≠ 3 → (linkOf s p).bistDown = false → (linkOf s p).up = false → (linkOf s p).downLeft = 0 →
      (∀ res v rest, (linkOf s p).selectDue = (res, v) :: rest → ∃ t o, exec (.flitTransmit p bad f) s = .next t ∧
        linkOf t p = { linkOf s p with selectDue := rest, selSent := decide (res = 0), txLast := some o } ∧ o.ty = 5 ∧
        o.body = selectBody s p res v ∧ t = { s with links := t.links }) ∧
      ((linkOf s p).selectDue = [] → ∃ t o, exec (.flitTransmit p bad f) s = .next t ∧
        linkOf t p = { linkOf s p with txLast := some o } ∧ o.ty = (if (linkOf s p).downOn then 7 else 2) ∧
        t = { s with links := t.links })) ∧
    ((linkOf s p).rate ≠ 3 → (linkOf s p).bistDown = true → ∃ t o, exec (.flitTransmit p bad f) s = .next t ∧
      linkOf t p = { linkOf s p with txLast := some o } ∧ o.ty = 2 ∧ t = { s with links := t.links }) ∧
    ((linkOf s p).rate ≠ 3 → (linkOf s p).bistDown = false → (linkOf s p).up = true →
      ((linkOf s p).first = true → ∃ t o, exec (.flitTransmit p bad f) s = .next t ∧ (linkOf t p).txLast = some o ∧
        o.ty = 1 ∧ o.seq = (linkOf s p).nxt ∧ o.ack = (linkOf s p).ack ∧ o.nak = (linkOf s p).nakOwed ∧
        (linkOf t p).first = false ∧ t = { rowErrors f s with regs := t.regs, ev := t.ev, links := t.links }) ∧
      ((linkOf s p).first = false → (linkOf s p).hbDue = true → ∃ t o, exec (.flitTransmit p bad f) s = .next t ∧
        (linkOf t p).txLast = some o ∧ o.ty = 3 ∧ o.ack = (linkOf s p).ack ∧ (linkOf t p).hbDue = false ∧
        (linkOf t p).hbCount = (linkOf s p).hbCount + 1 ∧
        t = { rowErrors f s with regs := t.regs, ev := t.ev, links := t.links }) ∧
      ((linkOf s p).first = false → (linkOf s p).hbDue = false → ∀ r h, (linkOf s p).replay = some r →
        (linkOf s p).held[seqDist r (linkOf s p).una]? = some h →
        (bad = false → ∃ t o, exec (.flitTransmit p bad f) s = .next t ∧ (linkOf t p).txLast = some o ∧ o.ty = 0 ∧
          o.seq = h.seq ∧ o.body = h.body ∧ o.retx = true ∧ (linkOf t p).held = (linkOf s p).held ∧
          (linkOf t p).replay = (if (r + 1) % 4096 = (linkOf s p).nxt then none else some ((r + 1) % 4096)) ∧
          t = { rowErrors f s with regs := t.regs, ev := t.ev, links := t.links }) ∧
        (bad = true → ∃ t, exec (.flitTransmit p bad f) s = .next t ∧ LinkDropped (rowErrors f s) t p 4)) ∧
      ((linkOf s p).first = false → (linkOf s p).hbDue = false → (linkOf s p).replay = none → dataReady s p = true →
        (ptrField (rowErrors f s) (129 + 2 * p.val) f = none →
          (∃ e ∈ rspsRead f 0 (fillSlots 15 15 (eqOf s p)).1, e.2.1 ≠ 0) →
          ∃ t, exec (.flitTransmit p bad f) s = .next t ∧ LinkDropped (rowErrors f s) t p 2) ∧
        (∀ fld, ptrField (rowErrors f s) (129 + 2 * p.val) f = some fld →
          exec (.flitTransmit p bad f) s = .next (queueReset (129 + 2 * p.val) fld (rowErrors f s)))) ∧
      ((linkOf s p).first = false → (linkOf s p).hbDue = false → (linkOf s p).replay = none → dataReady s p = true →
        ptrField (rowErrors f s) (129 + 2 * p.val) f = none →
        (∀ e ∈ rspsRead f 0 (fillSlots 15 15 (eqOf s p)).1, e.2.1 = 0) → ∃ t o h, exec (.flitTransmit p bad f) s = .next t ∧
          (linkOf t p).txLast = some o ∧ o.ty = 0 ∧ o.seq = (linkOf s p).nxt ∧ o.ack = (linkOf s p).ack ∧
          o.retx = false ∧ o.body = h.body ∧ h.seq = (linkOf s p).nxt ∧ (linkOf t p).held = (linkOf s p).held ++ [h] ∧
          (linkOf t p).nxt = ((linkOf s p).nxt + 1) % 4096 ∧
          (∀ q, q ≠ p.val → linkOf t q = { linkOf s q with feed := (linkOf t q).feed }) ∧
          t = { rowErrors f s with regs := t.regs, ev := t.ev, links := t.links, accts := t.accts,
                                   pastAccts := t.pastAccts, pool := t.pool }) ∧
      ((linkOf s p).first = false → (linkOf s p).hbDue = false → (linkOf s p).replay = none → dataReady s p = false →
        ∃ t o, exec (.flitTransmit p bad f) s = .next t ∧ (linkOf t p).txLast = some o ∧
          o.ty = (if (linkOf s p).nakOwed || (linkOf s p).ackDue then 1 else 2) ∧ o.seq = (linkOf s p).nxt ∧
          t = { rowErrors f s with regs := t.regs, ev := t.ev, links := t.links }))

/-- The RESYNC list goes out once every transaction of the drop has its fate: it is queued for the link, at most 32
cells of it at a time (R190, R193), and its entries are kept until RESYNC_DONE names this drop; any other RESYNC_DONE is
counted (R246, R247, R249). -/
def Obligations.ResyncListIsSentAndAcknowledged : Prop :=
  (∀ (p : Fin 128) (s : State), (linkOf s p).up = true → (linkOf s p).resync = 1 → resyncReady s p = true →
    ∃ t, exec (.resyncSend p) s = .next t ∧
      linkOf t p = { linkOf s p with
        resync := 2, kept := resyncEntries (linkOf s p), fates := [], feed := (linkOf t p).feed } ∧
      regVal t (linkIdx p 3) 0x0A 0 = (resyncEntries (linkOf s p)).length ∧
      (∀ r ∈ resyncList s p (!(linkOf s p).kept.isEmpty) (resyncEntries (linkOf s p))
        (s.accts.filter (fun e => e.1 / 4096 == p)), r ∈ eqOf t p ∨ r ∈ (linkOf t p).feed) ∧
      (((eqOf s p).filter rspPartner).length ≤ 32 → ((eqOf t p).filter rspPartner).length ≤ 32) ∧
      (∀ q, q ≠ p.val → linkOf t q = linkOf s q) ∧
      t = { s with regs := t.regs, ev := t.ev, links := t.links, accts := t.accts, pool := t.pool }) ∧
  (∀ (p : Fin 128) (drop : BitVec 16) (s : State), (linkOf s p).up = true →
    ((linkOf s p).resync = 3 → drop.toNat = regVal s (linkIdx p 1) 8 0 % 65536 →
      exec (.resyncDone p drop) s = .next (linkPut p { linkOf s p with resync := 0, kept := [] } s)) ∧
    ((linkOf s p).resync ≠ 3 ∨ drop.toNat ≠ regVal s (linkIdx p 1) 8 0 % 65536 →
      exec (.resyncDone p drop) s = .next (count1 (linkIdx p 3) 8 0 s)))

/-- A CREDIT_RETURN acts on its entries in order: an entry that is not valid is skipped, one within the credits out is
counted as returned, and one beyond them or without an account drops the link with cause 6; a grant that has waited
GRANT_HOLD_FR frames goes out at a frame strobe (R32, R240, R242). -/
def Obligations.CreditsAreReturnedAndGranted : Prop :=
  (∀ (p : Fin 128) (sid count : BitVec 16) (rest : List (BitVec 16 × BitVec 16)) (s : State), (linkOf s p).up = true →
    exec (.creditReturn p []) s = .next s ∧
    (sid.getLsbD 15 = true → exec (.creditReturn p ((sid, count) :: rest)) s = exec (.creditReturn p rest) s) ∧
    (sid.getLsbD 15 = false → ∀ a, tabFind s.accts (acctKey p (sid.extractLsb' 0 12).toNat) = some a →
      ((count.toNat + 65536 - a.returned) % 65536 ≤ acctOut a → ∃ u, exec (.creditReturn p [(sid, count)]) s = .next u ∧
        (a.closing = false → (tabFind u.accts (acctKey p (sid.extractLsb' 0 12).toNat)).isSome = true) ∧
        (∀ b, tabFind u.accts (acctKey p (sid.extractLsb' 0 12).toNat) = some b → b.returned = count.toNat ∧
          b.received = (a.received + (count.toNat + 65536 - a.returned) % 65536) % 65536 ∧ b.held = a.held) ∧
        u = { s with accts := u.accts, pastAccts := u.pastAccts, links := u.links, pool := u.pool } ∧
        exec (.creditReturn p ((sid, count) :: rest)) s = exec (.creditReturn p rest) u) ∧
      (acctOut a < (count.toNat + 65536 - a.returned) % 65536 →
        ∃ t, exec (.creditReturn p ((sid, count) :: rest)) s = .next t ∧ LinkDropped s t p 6)) ∧
    (sid.getLsbD 15 = false → tabFind s.accts (acctKey p (sid.extractLsb' 0 12).toNat) = none → count ≠ 0#16 →
      ∃ t, exec (.creditReturn p ((sid, count) :: rest)) s = .next t ∧ LinkDropped s t p 6)) ∧
  (∀ (p : Fin 128) (s : State), linkServes s p = true → s.clk.cycle = 0 → ∃ t, exec (.grantHoldExpiry p) s = .next t ∧
    (∀ k a f, tabFind s.accts k = some a → k / 4096 = p.val → a.closing = false → a.advAt = some f →
      framesOver s f (cfgVal s 0x20A0 7 0) = true →
      tabFind t.accts k = some { a with sent := a.granted, advAt := none }) ∧
    t = { s with accts := t.accts, links := t.links, pool := t.pool }) ∧
  (∀ (p : Fin 128) (s : State), linkServes s p = false ∨ s.clk.cycle ≠ 0 → exec (.grantHoldExpiry p) s = .next s)

-- Requests

/-- A request that its port takes and whose checks pass enters the queue of its line's media port and its stream's priority
as the youngest item, with its header, its data and its slot; nothing that waits is lost, and no key, line map, media
queue or NV byte is touched (R135, R165, R171, R187, R188). One whose checks fail is answered with their status and no
data, and waits nowhere; one for a queue that is being flushed is answered FLUSHED, and one for a failed or unserved port
MEDIA_ERROR (R135, R180, R196, R262). A protocol error is counted, takes the link down or stops the master (R170, R184); a
queue whose pointers are found in mismatch at an enqueue is reset (R199). -/
def Obligations.RequestsEnterTheirQueueOrAreAnswered : Prop :=
  (∀ (op : ReqOp) (src : Src) (h g : Hdr) (psn : Bool) (ext : Side) (data : Line) (slot q : Nat) (s : State),
    TakesItem s src h (opCells op) → g = hdrTaken src h → chkReq s true src op g = .pass slot →
    q = portOf s g.addr.toNat * 8 + prioOf s src g.sid → flushing s q = false → (mediaOf s (q / 8)).failed = false →
    (mediaOf s (q / 8)).unserved = false →
    (tabFind s.pool.ptrBad q = none → ∃ t i, exec (requestOf op src h psn ext data) s = .next t ∧
      t.pool.items = s.pool.items ++ [i] ∧ i.src = src ∧ i.op = op ∧ i.h = g ∧ i.slot = slot ∧ i.q = q ∧ i.t0 = now s ∧
      i.arr = s.pool.nextArr ∧ i.gone = false ∧
      (op = .writeLine ∨ op = .writePartial → i.psn = psn) ∧ (opReads op = false → i.data = data) ∧
      (op = .writePartial ∨ op = .writeRaw ∨ op = .writeTag → i.ext = ext) ∧ t.pool.txns = s.pool.txns ∧
      t.pool.fences = s.pool.fences ∧ (∀ r ∈ rspsOf s src, r ∈ rspsOf t src) ∧
      t = { s with pool := t.pool, accts := t.accts, links := t.links, regs := t.regs }) ∧
    (∀ fld, tabFind s.pool.ptrBad q = some fld → ∃ u i, exec (requestOf op src h psn ext data) s =
      .next (queueReset q fld u) ∧ u.pool.items = s.pool.items ++ [i] ∧ i.h = g ∧ i.op = op ∧ i.q = q ∧
      u.pool.txns = s.pool.txns)) ∧
  (∀ (op : ReqOp) (src : Src) (h g : Hdr) (psn : Bool) (ext : Side) (data : Line) (s : State),
    TakesItem s src h (opCells op) → g = hdrTaken src h →
    (eqSound s src →
      (∀ step status, chkReq s true src op g = .fail step status →
        ∃ t, exec (requestOf op src h psn ext data) s = .next t ∧ t.pool.items = s.pool.items ∧
          t.pool.txns = s.pool.txns ∧
          ∃ r ∈ rspsOf t src, r.tag = g.tag ∧ r.sid = g.sid ∧ r.status = BitVec.ofNat 8 status ∧ r.data = none) ∧
      (∀ slot q, chkReq s true src op g = .pass slot → q = portOf s g.addr.toNat * 8 + prioOf s src g.sid →
        (flushing s q = true → ∃ t, exec (requestOf op src h psn ext data) s = .next t ∧ t.pool.items = s.pool.items ∧
          ∃ r ∈ rspsOf t src, r.tag = g.tag ∧ r.status = BitVec.ofNat 8 stFlushed ∧ r.data = none) ∧
        (flushing s q = false → (mediaOf s (q / 8)).failed = true ∨ (mediaOf s (q / 8)).unserved = true →
          ∃ t, exec (requestOf op src h psn ext data) s = .next t ∧ t.pool.items = s.pool.items ∧
            ∃ r ∈ rspsOf t src, r.tag = g.tag ∧ r.status = BitVec.ofNat 8 stMediaError ∧ r.data = none))) ∧
    (∀ p fld step status, src = .link p → tabFind s.pool.ptrBad (129 + 2 * p.val) = some fld →
      chkReq s true src op g = .fail step status → ∃ t, exec (requestOf op src h psn ext data) s = .next t ∧
        (linkOf t p).up = false ∧ eqOf t p = [])) ∧
  (∀ (op : ReqOp) (src : Src) (h : Hdr) (psn : Bool) (ext : Side) (data : Line) (cause : Nat) (s : State),
    srcClosed s src = false → s.pwr.stage = .served → reqFault s src (hdrTaken src h) = some cause →
    ∃ t, exec (requestOf op src h psn ext data) s = .next t ∧
      regVal t 0x6080 5 0 = min (regVal s 0x6080 5 0 + 1) (2 ^ 32 - 1) ∧ t.pool.items.length = s.pool.items.length ∧
      (∀ p, src = .link p → (linkOf t p).up = false) ∧
      (∀ n, src = .master n → n.val < 5 → n.val ∈ t.pool.masterStop) ∧ t.keys = s.keys ∧ t.media = s.media ∧ t.nv = s.nv)

/-- A FENCE that its port takes and whose principal may send waits behind the earlier requests of its stream; it completes
with FENCE_DONE once none of them is left, and waits until then (R176). -/
def Obligations.FencesWaitForEarlierRequests : Prop :=
  (∀ (src : Src) (h g : Hdr) (s : State), TakesItem s src h 1 → g = hdrTaken src h →
    (∀ p, src = .link p → ∃ r, streamRow s p.val g.sid.toNat = some r ∧ principalOk s (cfgVal s 0x4001 4 r) = true) →
    ∃ t, exec (.fence src h) s = .next t ∧
      t.pool.fences = s.pool.fences ++ [{ src := src, sid := g.sid, tag := g.tag, arr := s.pool.nextArr }] ∧
      t.pool.items = s.pool.items ∧ t.pool.txns = s.pool.txns ∧
      t = { s with pool := t.pool, accts := t.accts, links := t.links, regs := t.regs }) ∧
  (∀ (f : FenceEnt) (s : State), s.pool.fences.find? (fun g => srcEq g.src f.src && (match f.src with
      | .link _ => g.sid == f.sid
      | .master _ => true)) = some f →
    (fenceBlocked s f = true → exec (.fenceComplete f.src f.sid) s = .next s) ∧
    (fenceBlocked s f = false → f.gone = false → eqSound s f.src → ∃ t, exec (.fenceComplete f.src f.sid) s = .next t ∧
      t.pool.fences = s.pool.fences.filter (fun g => g.arr != f.arr) ∧ t.pool.items = s.pool.items ∧
      (∃ r ∈ rspsOf t f.src, r.op = 0x84#8 ∧ r.tag = f.tag ∧ r.sid = f.sid ∧ r.status = 0#8) ∧
      t = { s with pool := t.pool, accts := t.accts, pastAccts := t.pastAccts, links := t.links, regs := t.regs }) ∧
    (fenceBlocked s f = false → f.gone = true → ∃ t, exec (.fenceComplete f.src f.sid) s = .next t ∧
      t.pool.fences = s.pool.fences.filter (fun g => g.arr != f.arr) ∧
      (∀ p, f.src = .link p → { tag := f.tag, fate := 3, status := 0 } ∈ (linkOf t p).fates)))

-- Grants

/-- A read slot granted to a READ_LINE, a READ_RAW or the read half of a partial write, with nothing damaged and the
checks of the grant passed, takes the item from its queue, opens its transaction and issues its READ_LINE as the last
operation of the port's read queue; a raw read leaves Jack alone (R171, R177, R181, R252). An item whose checks of the grant
fail is answered with their status and no media operation is issued; a header cell that fails parity outside its bytes 2 to
5 and 13 makes it FLUSHED (R181, R198, Table 09.5). -/
def Obligations.ReadGrantsIssueOrAnswer : Prop :=
  (∀ (m : Fin 16) (i : Item) (s : State), slotFor s m .r = some .fg → fgPick s m .r = .item i →
    lineClash s m .r i = false → grantRefusal s i = none → tabFind s.pool.ptrBad i.q = none →
    ∃ t, exec (if i.op = .writePartial then .partialReadGrant m {} else .fgReadGrant m {}) s = .next t ∧
      t.pool.items = s.pool.items.filter (fun j => j.arr != i.arr) ∧
      (∃ x ∈ t.pool.txns, x.id = s.pool.nextId ∧ x.item = i ∧ x.st = .reading) ∧
      (mediaOf t m).fifoR = (mediaOf s m).fifoR ++
        [{ kind := .read, addr := itemLine i, owner := .txn s.pool.nextId, seq := s.mseq, cyc := now s }] ∧
      (mediaOf t m).stampR = some (now s, itemLine i) ∧ (mediaOf t m).fifoW = (mediaOf s m).fifoW ∧
      (i.op = .readRaw → t.jack = s.jack) ∧ t.keys = s.keys ∧ t.nv = s.nv ∧ t.clk = s.clk ∧ t.cfg = s.cfg) ∧
  (∀ (m : Fin 16) (i : Item) (s : State), slotFor s m .r = some .fg → fgPick s m .r = .item i →
    i.op ≠ .writePartial → lineClash s m .r i = false → i.gone = false → tabFind s.pool.ptrBad i.q = none →
    eqSound s i.src →
    (∀ step status, grantRefusal s i = some (step, status) → ∃ t, exec (.fgReadGrant m {}) s = .next t ∧
      t.pool.items = s.pool.items.filter (fun j => j.arr != i.arr) ∧ t.pool.txns = s.pool.txns ∧
      (mediaOf t m).fifoR = (mediaOf s m).fifoR ∧
      ∃ r ∈ rspsOf t i.src, r.tag = i.h.tag ∧ r.status = BitVec.ofNat 8 status ∧ r.data = none) ∧
    (∀ cells, (itemRead i { cells := cells }).hdr = 1 → ∃ t, exec (.fgReadGrant m { cells := cells }) s = .next t ∧
      t.pool.items = s.pool.items.filter (fun j => j.arr != i.arr) ∧ t.pool.txns = s.pool.txns ∧
      (mediaOf t m).fifoR = (mediaOf s m).fifoR ∧
      ∃ r ∈ rspsOf t i.src, r.tag = i.h.tag ∧ r.status = BitVec.ofNat 8 stFlushed ∧ r.data = none))

/-- A write slot: a WRITE_RAW goes out as it stands and its line leaves Jack; a full-line write (a WRITE_LINE or a partial
write whose mask is all ones) that misses Jack waits for its probe, one that hits goes on to counter resolution and
encryption with its line and entry, and under a usable key and a counter that is not spent its WRITE_LINE is issued in this
slot; a partial write whose mask is zero answers OK without a media operation (R66, R104, R106, R109, R171, R178). A write
half that is due ends with the status of its slot where that refuses it, and otherwise its merged line is issued in the
same way, with the entry of its line in Jack or, where there is none, of the sidecar that was read (R105, R177, R181). -/
def Obligations.WriteGrantsStartTheirWrite : Prop :=
  (∀ (m : Fin 16) (i : Item) (s : State), slotFor s m .w = some .fg → fgPick s m .w = .item i →
    lineClash s m .w i = false → grantRefusal s i = none → tabFind s.pool.ptrBad i.q = none →
    (i.op = .writeRaw → ∃ t, exec (.fgWriteGrant m {}) s = .next t ∧
      t.pool.items = s.pool.items.filter (fun j => j.arr != i.arr) ∧
      (mediaOf t m).fifoW = (mediaOf s m).fifoW ++
        [{ kind := .write, addr := itemLine i, data := mediaJoin i.data i.ext, owner := .txn s.pool.nextId,
           seq := s.mseq, cyc := now s }] ∧
      (∀ k e, jackEntry s (itemLine i) = some (k, e) → tabFind t.jack.entries k = none) ∧ t.keys = s.keys ∧
      t.nv = s.nv) ∧
    (itemWhole i = true → jackLive s i.slot (itemLine i) = false → ∃ t, exec (.fgWriteGrant m {}) s = .next t ∧
      t.pool.items = s.pool.items.filter (fun j => j.arr != i.arr) ∧
      (∃ x ∈ t.pool.txns, x.id = s.pool.nextId ∧ x.item = i ∧ x.st = .probeWait ∧ x.payload = i.data ∧
        x.poison = i.psn) ∧
      (probeOf t (itemLine i)).isSome = true ∧ (mediaOf t m).fifoW = (mediaOf s m).fifoW ∧ t.keys = s.keys) ∧
    (itemWhole i = true → ∀ k e, jackEntry s (itemLine i) = some (k, e) →
      (genByKgen4 (slotOf s i.slot) (jeKgen4 e)).isSome = true →
      (∃ u x, exec (.fgWriteGrant m {}) s = .next (writeGo x e {} u) ∧
        x.id = s.pool.nextId ∧ x.item = i ∧ x.payload = i.data ∧ x.poison = i.psn ∧ x.port = m.val ∧ x ∈ u.pool.txns ∧
        u = { s with pool := u.pool, media := u.media, regs := u.regs }) ∧
      (∀ g gk base, g = genForWrite s i.slot (itemLine i) (some e) → genKeys s i.slot g = some gk →
        base = counterBase s i.slot (itemLine i) g e → base < 2 ^ 24 - 1 → ∃ t o, exec (.fgWriteGrant m {}) s = .next t ∧
          (mediaOf t m).fifoW = (mediaOf s m).fifoW ++ [o] ∧ o.owner = .txn s.pool.nextId ∧
          LineWritten s o i.slot (itemLine i) gk g (BitVec.ofNat 24 (base + 1)) i.data i.psn ∧
          t.pool.items = s.pool.items.filter (fun j => j.arr != i.arr) ∧
          ((∀ y ∈ s.pool.txns, y.id ≠ s.pool.nextId) → ∃ x ∈ t.pool.txns, x.id = s.pool.nextId ∧ x.item = i ∧
            x.st = .writing ∧ x.gen = g ∧ x.lctr = BitVec.ofNat 24 (base + 1)))) ∧
    (i.op = .writePartial → i.ext = 0#64 → i.gone = false → eqSound s i.src → ∃ t, exec (.fgWriteGrant m {}) s = .next t ∧
      t.pool.items = s.pool.items.filter (fun j => j.arr != i.arr) ∧ t.pool.txns = s.pool.txns ∧
      (mediaOf t m).fifoW = (mediaOf s m).fifoW ∧
      ∃ r ∈ rspsOf t i.src, r.tag = i.h.tag ∧ r.status = BitVec.ofNat 8 stOk)) ∧
  (∀ (m : Fin 16) (x : Txn) (s : State), slotFor s m .w = some .fg → fgPick s m .w = .merged x →
    (step7 s x.item.op x.item.slot ≠ stOk → ∃ u,
      exec (.partialWriteGrant m {}) s = .next (txnFinish x (step7 s x.item.op x.item.slot) u) ∧
      u = { s with media := u.media }) ∧
    (step7 s x.item.op x.item.slot = stOk →
      (∃ e u, exec (.partialWriteGrant m {}) s = .next (writeGo { x with sl := sliceNo s m } e {} u) ∧
        (∀ n, (mediaOf u n).fifoW = (mediaOf s n).fifoW) ∧ u.keys = s.keys ∧ u.pool.items = s.pool.items ∧
        u = { s with free := u.free, media := u.media, jack := u.jack, regs := u.regs, ev := u.ev, pool := u.pool }) ∧
      (∀ e g gk base, (jackEntry s (itemLine x.item) = none ∧
          e = fillEntry s x.item.slot (itemLine x.item) (lnSide x.line) ∨
          (∃ k, jackEntry s (itemLine x.item) = some (k, e)) ∧
            (genByKgen4 (slotOf s x.item.slot) (jeKgen4 e)).isSome = true) →
        g = genForWrite s x.item.slot (itemLine x.item) (some e) → genKeys s x.item.slot g = some gk →
        base = counterBase s x.item.slot (itemLine x.item) g e → base < 2 ^ 24 - 1 →
        ∃ t o, exec (.partialWriteGrant m {}) s = .next t ∧
          (mediaOf t x.port).fifoW = (mediaOf s x.port).fifoW ++ [o] ∧ o.owner = .txn x.id ∧
          LineWritten s o x.item.slot (itemLine x.item) gk g (BitVec.ofNat 24 (base + 1)) x.payload x.poison ∧
          t.pool.items = s.pool.items)))

/-- Counter resolution and encryption of a write with its Jack entry: without a usable key it ends with KEY_ABSENT, on a
spent line with COUNTER_SPENT, and otherwise its WRITE_LINE issues as the last write of the port, under the generation of
the write and the LCTR one above everything that the entry and the writes in flight hold, its payload XORed with the blocks
of its class and its sidecar as Table 03.2 packs it (R57, R58, R64 to R66, R99, R114). -/
def Obligations.WritesAreEncryptedUnderAFreshCounter : Prop :=
  ∀ (x : Txn) (e : BitVec 64) (kidx a : Nat) (g : BitVec 32) (s : State), kidx = x.item.slot →
    a = x.item.h.addr.toNat → g = genForWrite s kidx a (some e) →
    (genKeys s kidx g = none → writeGo x e {} s = txnFinish x stKeyAbsent s) ∧
    (∀ k base, genKeys s kidx g = some k → base = counterBase s kidx a g e →
      (2 ^ 24 - 1 ≤ base → writeGo x e {} s = txnFinish x stCounterSpent (spentNote kidx a s)) ∧
      (base < 2 ^ 24 - 1 → ∃ o, (mediaOf (writeGo x e {} s) x.port).fifoW = (mediaOf s x.port).fifoW ++ [o] ∧
        o.owner = .txn x.id ∧ LineWritten s o kidx a k g (BitVec.ofNat 24 (base + 1)) x.payload x.poison))

/-- What a write stored reads back: a media line made of a payload XORed with blocks and of the sidecar of that write gives
the same payload and passes SCHK under the same blocks, and its sidecar names the counter, generation, slot, class and
poison that were packed (R57, R58, R65, R68, Table 03.2). -/
def Obligations.WrittenLinesReadBack : Prop :=
  ∀ (pt : Line) (a kidx cls : Nat) (c : BitVec 24) (g : BitVec 4) (psn : Bool) (ks : List Block) (line : BitVec 576),
    line = mediaJoin (lineXor pt ks)
      (scPack c g (BitVec.ofNat 15 kidx) (BitVec.ofNat 2 cls) psn (lineSchk pt a ks)) →
    lineXor (lnPay line) ks = pt ∧ schkOk a line ks = true ∧ scLctr (lnSide line) = c ∧ scKgen4 (lnSide line) = g ∧
    scPoison (lnSide line) = psn ∧ scResv (lnSide line) = 0#2 ∧ (kidx < 2 ^ 15 → scKidx (lnSide line) = kidx) ∧
    (cls < 4 → scPcls (lnSide line) = cls)

/-- A TG read slot issues the waiting fetch, or serves the raw tag-line read, that goes first: the latter from the cache
when all its entries are valid there, else by its own fetch. A TG write slot writes the due line that goes first back
with a fresh trailer and marks it clean and on its way, or sends a raw tag line out as it stands and drops the cached
copy (R34, R82, R84, R87). Of two pieces of work on one tag line in one cycle the younger waits (R174). -/
def Obligations.TagLineSlotsFetchAndWriteBack : Prop :=
  (∀ (m : Fin 16) (s : State), slotFor s m .r = some .tg →
    (∀ w, tgPick s m .r = some w → tagClash s m .r w = true → exec (.taglineFetch m {}) s = .next s) ∧
    (∀ f, tgPick s m .r = some (.fetch f) → tagClash s m .r (.fetch f) = false →
      ∃ t, exec (.taglineFetch m {}) s = .next t ∧
      (mediaOf t m).fifoR = (mediaOf s m).fifoR ++
        [{ kind := .read, addr := f.tl, owner := .tagFetch f.tl, kidx := f.kidx, seq := s.mseq, cyc := now s }] ∧
      (∀ g ∈ t.tagc.fetches, g.tl = f.tl → g.issued = true) ∧
      t = { s with media := t.media, tagc := t.tagc, mseq := t.mseq }) ∧
    (∀ i, tgPick s m .r = some (.raw i) → tagClash s m .r (.raw i) = false → grantRefusal s i = none →
      tabFind s.pool.ptrBad i.q = none → ∃ t, exec (.taglineFetch m {}) s = .next t ∧
        t.pool.items = s.pool.items.filter (fun j => j.arr != i.arr) ∧
        (∀ k w, tagFind s (itemLine i) = some (k, w) → w.valid = 0xFF#8 → i.gone = false → eqSound s i.src →
          (mediaOf t m).fifoR = (mediaOf s m).fifoR ∧
          ∃ r ∈ rspsOf t i.src, r.tag = i.h.tag ∧ r.status = BitVec.ofNat 8 stOk ∧ r.data = some w.data) ∧
        (tagFind s (itemLine i) = none → s.tagc.fetches.any (fun f => f.tl == itemLine i) = false →
          (mediaOf t m).fifoR = (mediaOf s m).fifoR ++
            [{ kind := .read, addr := itemLine i, owner := .tagFetch (itemLine i), kidx := i.slot, seq := s.mseq,
               cyc := now s }] ∧
          ∃ x ∈ t.pool.txns, x.id = s.pool.nextId ∧ x.item = i ∧ x.st = .tagRead))) ∧
  (∀ (m : Fin 16) (s : State), slotFor s m .w = some .tg →
    (∀ w, tgPick s m .w = some w → tagClash s m .w w = true → exec (.tagWriteback m {}) s = .next s) ∧
    (∀ k x, tgPick s m .w = some (.back k x) → tagClash s m .w (.back k x) = false →
      ∃ t, exec (.tagWriteback m {}) s = .next t ∧
      (mediaOf t m).fifoW = (mediaOf s m).fifoW ++
        [{ kind := .write, addr := x.addr, data := mediaJoin x.data (tagTrailer x.kidx x.addr x.data),
           owner := .tagWb x.addr, kidx := x.kidx, seq := s.mseq, cyc := now s }] ∧
      tabFind t.tagc.ways k =
        some { x with dirty := false, dirtyOf := 0, wb := some s.mseq, evict := false, askedAt := none } ∧
      t = { s with media := t.media, tagc := t.tagc, mseq := t.mseq }) ∧
    (∀ i, tgPick s m .w = some (.raw i) → tagClash s m .w (.raw i) = false → grantRefusal s i = none →
      tabFind s.pool.ptrBad i.q = none → ∃ t, exec (.tagWriteback m {}) s = .next t ∧
        t.pool.items = s.pool.items.filter (fun j => j.arr != i.arr) ∧
        (mediaOf t m).fifoW = (mediaOf s m).fifoW ++
          [{ kind := .write, addr := itemLine i, data := mediaJoin i.data i.ext, owner := .txn s.pool.nextId,
             seq := s.mseq, cyc := now s }] ∧
        ∀ k w, tagFind s (itemLine i) = some (k, w) → tabFind t.tagc.ways k = none))

/-- An SP slot issues the waiting probe of the write miss that was granted first; beyond the class's owed count, with no
such probe waiting and fewer than 96 outstanding, it issues a look-ahead probe, or the probe of the prefill's next line,
each counted and marked issued (log 36); a prefill takes no slot for a line whose probe is outstanding (R39, R106, R107,
R111). -/
def Obligations.ProbesAreIssued : Prop :=
  (∀ (m : Fin 16) (p : Probe) (s : State), slotFor s m .r = some .sp →
    probeNext s m probeIsWrite = some p → ∃ t, exec (.sidecarProbe m) s = .next t ∧
      (∀ q ∈ probesOf s m, q.kind = .write → q.issued = false → q.void = false → p.ord ≤ q.ord) ∧
      (mediaOf t m).fifoR = (mediaOf s m).fifoR ++
        [{ kind := .sidecar, addr := p.addr, owner := .probe, kidx := p.kidx, seq := s.mseq, cyc := now s }] ∧
      regVal t 0x6050 6 0 = (regVal s 0x6050 6 0 + 1) % 2 ^ 64 ∧
      (∀ q ∈ probesOf t m, q.addr = p.addr → q.void = false → q.issued = true) ∧
      t = { s with media := t.media, mseq := t.mseq, jack := t.jack, regs := t.regs }) ∧
  (∀ (m : Fin 16) (p : Probe) (s : State), spSpare s m = true → lookDue s m = true →
    probeNext s m probeIsLook = some p → ∃ t, exec (.lookaheadProbe m) s = .next t ∧
      (mediaOf t m).fifoR = (mediaOf s m).fifoR ++
        [{ kind := .sidecar, addr := p.addr, owner := .probe, kidx := p.kidx, seq := s.mseq, cyc := now s }] ∧
      regVal t 0x6050 7 0 = (regVal s 0x6050 7 0 + 1) % 2 ^ 64 ∧
      t = { s with media := t.media, mseq := t.mseq, jack := t.jack, regs := t.regs }) ∧
  (∀ (m : Fin 16) (a left : Nat) (s : State), spSpare s m = true → s.jack.prefill = some (a, left) →
    prefillDue s m = true → ∃ t, exec (.prefillProbe m) s = .next t ∧ t.jack.prefill = prefillNext a left ∧
      (probeOf s a = none → ∃ o, (mediaOf t m).fifoR = (mediaOf s m).fifoR ++ [o] ∧ o.kind = .sidecar ∧ o.addr = a ∧
        o.owner = .probe ∧ ∃ q ∈ probesOf t m, q.addr = a ∧ q.prefill = true ∧ q.issued = true) ∧
      ((probeOf s a).isSome = true → (mediaOf t m).fifoR = (mediaOf s m).fifoR) ∧
      t = { s with media := t.media, mseq := t.mseq, jack := t.jack, regs := t.regs })

-- Rekey engine

/-- A context that may take a line takes the line at its boundary and moves the boundary to the next line of its walk: a
line without writes in flight gets a step, one with a write in flight under the old generation goes into the ahead set,
and one under the new generation needs neither; with a full ahead set the line is not taken (R146, R148, R149). -/
def Obligations.ContextsTakeLines : Prop :=
  ∀ (n : Fin 64) (c : Ctx) (s : State), takeOk s n = true → c = ctxOf s n → c.cause ≤ 2 →
    portDead s (portOf s c.bound) = false → ∃ t, exec (.rekeyTake n) s = .next t ∧ t.keys = s.keys ∧ t.nv = s.nv ∧
      t.media = s.media ∧
      (flightUnder s c.bound c.kidx (ctxTo c) = false → flightUnder s c.bound c.kidx c.gen = false →
        (ctxOf t n).steps = c.steps ++ [{ addr := c.bound, port := portOf s c.bound }] ∧
        (ctxOf t n).bound = ctxWalk s c (c.bound + 1) ∧ (ctxOf t n).takes = c.takes + 1) ∧
      (flightUnder s c.bound c.kidx (ctxTo c) = true → (ctxOf t n).steps = c.steps ∧
        (ctxOf t n).bound = ctxWalk s c (c.bound + 1)) ∧
      (flightUnder s c.bound c.kidx (ctxTo c) = false → flightUnder s c.bound c.kidx c.gen = true →
        (aheadHas c c.bound = true ∨ aheadFull c = false →
          aheadHas (ctxOf t n) c.bound = true ∧ (ctxOf t n).bound = ctxWalk s c (c.bound + 1)) ∧
        (aheadHas c c.bound = false → aheadFull c = true → (ctxOf t n).bound = c.bound))

/-- An RK read slot reads a line for the next context in turn, whose step is then reading (R34, R151). An RK write slot
writes a decided step's line under the generation of its context and the counter above everything that its entry and the
writes in flight hold, encrypted as any write, and the step is then written; a purge writes zeros where no live
generation is named (R66, R94, R99, R105, R151, R160). -/
def Obligations.StepsReadAndWrite : Prop :=
  (∀ (m : Fin 16) (n a : Nat) (ah : Bool) (s : State), slotFor s m .r = some .rk → rkReadPick s m = some (n, a, ah) →
    ∃ t, exec (.rekeyStep m {}) s = .next t ∧
      (mediaOf t m).fifoR = (mediaOf s m).fifoR ++
        [{ kind := .read, addr := a, owner := .step n a, seq := s.mseq, cyc := now s }] ∧
      (∃ x ∈ (ctxOf t n).steps, x.addr = a ∧ x.st = .reading) ∧
      t = { s with media := t.media, mseq := t.mseq, rk := t.rk, tagc := t.tagc, regs := t.regs, ev := t.ev }) ∧
  (∀ (m : Fin 16) (n : Nat) (x : StepLine) (c : Ctx) (k : GenKeys) (e : BitVec 64) (base : Nat) (s : State),
    slotFor s m .w = some .rk → rkWritePick s m = some (n, x) → c = ctxOf s n → c.cause ≠ 4 →
    genKeys s c.kidx (ctxTo c) = some k →
    (jackEntry s x.addr = none ∧ e = fillEntry s c.kidx x.addr x.side ∨
      (∃ w, jackEntry s x.addr = some (w, e)) ∧ (genByKgen4 (slotOf s c.kidx) (jeKgen4 e)).isSome = true) →
    x.addr < 2 ^ 40 → base = counterBase s c.kidx x.addr (ctxTo c) e → base < 2 ^ 24 - 1 →
    ∃ t o, exec (.rekeyStepWrite m {}) s = .next t ∧ (mediaOf t m).fifoW = (mediaOf s m).fifoW ++ [o] ∧
      o.owner = .step n x.addr ∧
      LineWritten s o c.kidx x.addr k (ctxTo c) (BitVec.ofNat 24 (base + 1)) x.data x.poison ∧
      (∃ y ∈ (ctxOf t n).steps, y.addr = x.addr ∧ y.st = .written) ∧ t.nv = s.nv ∧ t.clk = s.clk) ∧
  (∀ (m : Fin 16) (n : Nat) (x : StepLine) (s : State), slotFor s m .w = some .rk → rkWritePick s m = some (n, x) →
    (ctxOf s n).cause = 4 → genByKgen4 (slotOf s (ctxOf s n).kidx) (scKgen4 x.side) = none →
    ∃ t, exec (.rekeyStepWrite m {}) s = .next t ∧
      (mediaOf t m).fifoW = (mediaOf s m).fifoW ++
        [{ kind := .write, addr := x.addr, data := mediaJoin 0 0, owner := .step n x.addr,
           kidx := (ctxOf s n).kidx, seq := s.mseq, cyc := now s }] ∧
      (∃ y ∈ (ctxOf t n).steps, y.addr = x.addr ∧ y.st = .written) ∧ t.keys = s.keys)

/-- A pass whose start record was confirmed in an earlier frame, and whose materials are present, moves its slot to the
next generation, with the older one live beside it, and runs (R62, R145); with a material absent its start waits (log
70). At its completion the older generation ceases to be live, and for new material B moves into A and the slot is
ACTIVE; a format pass leaves every mark past its extent and frees its format entry; a purge leaves the slot EMPTY, with
its grant row at defaults and its format entry free (R137, R153, R159, R160, R283). -/
def Obligations.PassesStartAndComplete : Prop :=
  (∀ (n : Fin 64) (c : Ctx) (x : Slot) (f : Nat) (s : State), c = ctxOf s n → x = slotOf s c.kidx →
    c.startConf = some f → c.st = .starting → f < frameNo s →
    (ctxMats s c.kidx c.cause = false → exec (.rekeyPassStart n) s = .next s) ∧
    (ctxMats s c.kidx c.cause = true → ∃ t, exec (.rekeyPassStart n) s = .next t ∧
      (c.cause = 1 ∨ c.cause = 2 → (slotOf t c.kidx).gen = nextGen c.gen ∧ (slotOf t c.kidx).two = true ∧
        (slotOf t c.kidx).newInB = decide (c.cause = 1)) ∧
      (c.cause = 3 ∨ c.cause = 4 → slotOf t c.kidx = x) ∧ (slotOf t c.kidx).matA = x.matA ∧
      (slotOf t c.kidx).matB = x.matB ∧ (slotOf t c.kidx).st = x.st ∧ (∀ k, k ≠ c.kidx → slotOf t k = slotOf s k) ∧
      (c.bound ≠ walkEnd → (ctxOf t n).st = .running) ∧ t.nv = s.nv)) ∧
  (∀ (n : Fin 64) (c : Ctx) (x : Slot) (s : State), c = ctxOf s n → x = slotOf s c.kidx → doneDue s n = true →
    (c.cause = 1 → x.st ≠ .zeroized → ∃ t, exec (.rekeyComplete n) s = .next t ∧ (slotOf t c.kidx).st = .active ∧
      (slotOf t c.kidx).matA = x.matB ∧ (slotOf t c.kidx).matB = none ∧ (slotOf t c.kidx).two = false ∧
      (slotOf t c.kidx).gen = x.gen ∧ (slotOf t c.kidx).kcvA = x.kcvB ∧ (ctxOf t n).st ≠ .completing ∧
      (∀ k, k ≠ c.kidx → slotOf t k = slotOf s k) ∧ t.nv = s.nv) ∧
    (c.cause = 2 → ∃ t, exec (.rekeyComplete n) s = .next t ∧
      slotOf t c.kidx = { x with two := false, promoted := false } ∧ (ctxOf t n).st ≠ .completing ∧
      (∀ k, k ≠ c.kidx → slotOf t k = slotOf s k) ∧ t.nv = s.nv) ∧
    (c.cause = 3 → ∃ t, exec (.formatComplete n) s = .next t ∧ (ctxOf t n).st ≠ .completing ∧
      (∀ y ∈ extents s false c.kidx, y.limit < walkEnd → walkLo c y < walkEnd →
        regVal t 0x4003 4 (c.kidx * 4 + y.e) = y.limit + 1) ∧
      (fmtAgain s c.kidx = false → fmtOf t c.kidx = none) ∧ t.keys = s.keys ∧ t.nv = s.nv) ∧
    (c.cause = 4 → ∃ t, exec (.purgeComplete n) s = .next t ∧ slotOf t c.kidx = { rowBad := x.rowBad } ∧
      (∀ i, i < 5 → cfgVal t 0x5000 (i + 1) c.kidx = objDefault 0x5000 (i + 1)) ∧ fmtOf t c.kidx = none ∧
      (ctxOf t n).st ≠ .completing ∧ (∀ k, k ≠ c.kidx → slotOf t k = slotOf s k) ∧ t.nv = s.nv))

-- Slices, repair and the media ports

/-- A vote on the oldest held line of a slice and direction: recomputed blocks of the checked duty that equal those of its
pipe or those of the checker settle it, and the line goes on with them; others keep it for a second recompute on the pipe
and on the checker, and where those differ the line is abandoned and the slice is lost at the next strobe. A write that goes
on is issued with its own counter and the settled blocks (R296, R297). Without a held
line the checker's self-test is compared: the model's reading (log 23). A line held after an SCHK mismatch passes the check
again: where it now matches, its read gets its data with OK, or with OK_POISON for a poisoned line, and otherwise
SIDECAR_FAULT with the payload (R68, R69, Table 03.7). -/
def Obligations.VotesAndRecomputesSettleHeldLines : Prop :=
  (∀ (sl : Fin 17) (d : Dir) (m : Nat) (h : Hold) (f : Faults) (v : List Block) (s : State),
    s.clk.running = true → holdPort s sl .vote d = some m → claimOk s m d = true →
    s.rep.holds.find? (fun y => y.slice == sl.val && y.kind == .vote && y.dir == d) = some h →
    v = blocksOn f (if h.ten then 10 else h.checker) h.blks h.good h.ks → (∀ n a, h.owner = .step n a → a = h.addr) →
    ∃ t, exec (.vote sl d f) s = .next t ∧
      (h.again = false → v ≠ h.ks → v ≠ h.chk → { h with again := true } ∈ t.rep.holds) ∧
      (h.again = false → v = h.ks ∨ v = h.chk → h ∉ t.rep.holds ∧
        (d = .w → ∃ o ∈ (mediaOf t m).fifoW, o.kind = .write ∧ o.addr = h.addr ∧ o.gen = h.gen ∧ o.lctr = h.lctr ∧
          o.owner = h.owner ∧
          (ownerPurges s h.owner = false → o.data = mediaJoin (lineXor (h.line.setWidth 512) v)
            (scPack h.lctr (h.gen.setWidth 4) (BitVec.ofNat 15 h.kidx) (BitVec.ofNat 2 (slotClass s h.kidx)) h.poison
              (lineSchk (h.line.setWidth 512) h.addr v))))) ∧
      (h.again = true → h ∉ t.rep.holds ∧
        (v ≠ blocksOn f h.checker h.blks h.good h.ks → (sliceOf t sl).doomed = true)) ∧
      t.nv = s.nv ∧ t.clk = s.clk) ∧
  (∀ (sl : Fin 17) (d : Dir) (f : Faults) (s : State), s.clk.running = true → holdPort s sl .vote d = none →
    exec (.vote sl d f) s = .next (rkPoll (selfTest sl f s))) ∧
  (∀ (sl : Fin 17) (m id : Nat) (h : Hold) (x : Txn) (f : Faults) (ks : List Block) (s : State),
    holdPort s sl .schk .r = some m → claimOk s m .r = true →
    s.rep.holds.find? (fun y => y.slice == sl.val && y.kind == .schk) = some h → ks = recomputed h f →
    h.owner = .txn id → txnFind s id = some x → x.item.op = .readLine → x.item.gone = false → eqSound s x.item.src →
    ∃ t, exec (.schkRecompute sl f) s = .next t ∧ h ∉ t.rep.holds ∧ txnFind t id = none ∧
      (∃ r ∈ rspsOf t x.item.src, r.tag = x.item.h.tag ∧ r.data = some (lineXor (lnPay h.line) ks) ∧
        r.status = BitVec.ofNat 8 (if schkOk h.addr h.line ks then
          (if scPoison (lnSide h.line) then stOkPoison else stOk) else stSidecarFault)) ∧
      (mediaOf t m).stampR = some (now s, noLine) ∧ t.keys = s.keys ∧ t.nv = s.nv)

/-- A row repair in its slot moves the row to the macro's next spare row, counts and logs it; without a spare row
EV_ROW_SPARES_OUT is raised and the row stays in service. A FLUSH_PERSIST issues once in the drain, after the port's last
drain write, and in service on request (R39, R260, R270, R294). -/
def Obligations.RepairsAndFlushesTakeTheirSlots : Prop :=
  (∀ (m : Fin 16) (mac row : Nat) (s : State), slotFor s m .w = some .mx → rowPick s m = some (mac, row) →
    ∃ t, exec (.rowRepair m) s = .next t ∧ t.rep.queue = s.rep.queue.filter (fun e => e != (mac, row)) ∧
      (∀ sp, spareFree s mac = some sp → tabFind t.rep.remap (rowNo mac row) = some sp ∧
        mac * 4 + sp ∈ t.rep.spares) ∧
      (spareFree s mac = none → t.rep.remap = s.rep.remap ∧ t.rep.spares = s.rep.spares) ∧
      t = { s with media := t.media, rep := t.rep, regs := t.regs, ev := t.ev, nvu := t.nvu }) ∧
  (∀ (m : Fin 16) (s : State), (mediaOf s m).failed = false → claimOk s m .w = true → dirBusy s m .w = false →
    (s.pwr.phase = .draining → (mediaOf s m).drainFlush = false → drainPortDone s m = true →
      ∃ t, exec (.flushPersist m) s = .next t ∧
        (mediaOf t m).fifoW = (mediaOf s m).fifoW ++
          [{ kind := .flush, addr := 0, owner := .drainFlush, seq := s.mseq, cyc := now s }] ∧
        (mediaOf t m).drainFlush = true ∧ (mediaOf t m).drainOut = true ∧
        t = { s with media := t.media, mseq := t.mseq }) ∧
    (s.pwr.phase = .service → (mediaOf s m).flushReq = true →
      ∃ t, exec (.flushPersist m) s = .next t ∧
        (mediaOf t m).fifoW = (mediaOf s m).fifoW ++
          [{ kind := .flush, addr := 0, owner := .flush, seq := s.mseq, cyc := now s }] ∧
        (mediaOf t m).flushReq = false ∧ (mediaOf t m).flushOut = true ∧
        t = { s with media := t.media, mseq := t.mseq }))

/-- A handshake moves the head of a port's queue to its outstanding operations under the id of the controller; a write
then waits for ACCEPTED, in order, and one that PERSISTED reports is no longer outstanding and answers its request; a
PERSISTED or an ACCEPTED that nothing waits for makes the port FAILED and drives fault_n low (R172, R253, R255 to R257,
R262, R371). -/
def Obligations.MediaWritesAreTakenAndPersisted : Prop :=
  (∀ (m : Fin 16) (id : BitVec 12) (o : MOp) (rest : List MOp) (s : State), (mediaOf s m).failed = false →
    ((mediaOf s m).fifoW = o :: rest → writeMayGo (mediaOf s m) o = true → tabFind (mediaOf s m).outW id.toNat = none →
      ∃ t, exec (.mediaHandshake m .w id) s = .next t ∧
        mediaOf t m = { mediaOf s m with
          fifoW := rest, outW := tabSet (mediaOf s m).outW id.toNat { o with tries := 0 }
          accWait := (mediaOf s m).accWait ++ [id.toNat] } ∧ (∀ n, n ≠ m.val → mediaOf t n = mediaOf s n) ∧
        t = { s with media := t.media, regs := t.regs }) ∧
    ((mediaOf s m).fifoR = o :: rest → readMayGo (mediaOf s m) (now s) o = true → id.toNat < 2048 →
      tabFind (mediaOf s m).outR id.toNat = none → ∃ t, exec (.mediaHandshake m .r id) s = .next t ∧
        mediaOf t m = { mediaOf s m with fifoR := rest, outR := tabSet (mediaOf s m).outR id.toNat o } ∧
        (∀ n, n ≠ m.val → mediaOf t n = mediaOf s n) ∧ t = { s with media := t.media, regs := t.regs })) ∧
  (∀ (m : Fin 16) (s : State),
    (∀ id rest o, (mediaOf s m).accWait = id :: rest → tabFind (mediaOf s m).outW id = some o →
      ∃ t, exec (.accepted m) s = .next t ∧ (mediaOf t m).accWait = rest ∧
        tabFind (mediaOf t m).outW id = some { o with accepted := true } ∧
        (o.kind = .write → (mediaOf t m).lastAcc = some (now s, o.addr)) ∧ t.keys = s.keys ∧ t.pool = s.pool) ∧
    ((mediaOf s m).accWait = [] → (mediaOf s m).failed = false → ∃ t, exec (.accepted m) s = .next t ∧
      (mediaOf t m).failed = true ∧ t.pins.faultLow = true ∧ t.pins.persistOk = s.pins.persistOk)) ∧
  (∀ (m : Fin 16) (id : BitVec 12) (s : State),
    (∀ o k x, tabFind (mediaOf s m).outW id.toNat = some o → o.accepted = true → o.owner = .txn k →
      txnFind s k = some x → opReads x.item.op = false → x.item.gone = false → portDead s m = false →
      eqSound s x.item.src →
      ∃ t, exec (.persisted m id) s = .next t ∧ tabFind (mediaOf t m).outW id.toNat = none ∧ txnFind t k = none ∧
        (∃ r ∈ rspsOf t x.item.src, r.op = 0x83#8 ∧ r.tag = x.item.h.tag ∧ r.data = none ∧
          r.status = BitVec.ofNat 8 (if x.rawPoison then stOkPoison else stOk)) ∧ t.keys = s.keys ∧ t.nv = s.nv) ∧
    (tabFind (mediaOf s m).outW id.toNat = none → (mediaOf s m).failed = false →
      ∃ t, exec (.persisted m id) s = .next t ∧ (mediaOf t m).failed = true ∧ t.pins.faultLow = true))

/-- A transfer error presents the write again until the retries are used up, and then the port is FAILED; a persist timeout
makes the port FAILED, which drives fault_n low and leaves nothing in its queues; a stall of MP_STALL_LIMIT cycles raises
EV_MP_STALL (R254, R259, R261, R262, Table 12.3). -/
def Obligations.PortsFailAndStall : Prop :=
  (∀ (m : Fin 16) (o : MOp) (rest : List MOp) (s : State), (mediaOf s m).fifoW = o :: rest → (mediaOf s m).failed = false →
    writeMayGo (mediaOf s m) o = true →
    (o.tries + 1 < cfgVal s 0x20B0 3 0 → ∃ t, exec (.transferError m) s = .next t ∧
      (mediaOf t m).fifoW = { o with tries := o.tries + 1 } :: rest ∧ (mediaOf t m).failed = false ∧
      t = { s with media := t.media, regs := t.regs, ev := t.ev }) ∧
    (cfgVal s 0x20B0 3 0 ≤ o.tries + 1 → ∃ t, exec (.transferError m) s = .next t ∧ (mediaOf t m).failed = true ∧
      (mediaOf t m).fifoW = [] ∧ (mediaOf t m).fifoR = [] ∧ t.pins.faultLow = true ∧ t.nv = s.nv)) ∧
  (∀ (m : Fin 16) (id : BitVec 12) (o : MOp) (s : State), tabFind (mediaOf s m).outW id.toNat = some o →
    o.timedOut = false → (mediaOf s m).failed = false → ∃ t, exec (.persistTimeout m id) s = .next t ∧
      (mediaOf t m).failed = true ∧ (mediaOf t m).fifoW = [] ∧ (mediaOf t m).fifoR = [] ∧ t.pins.faultLow = true ∧
      tabFind (mediaOf t m).outW id.toNat = some { o with timedOut := true } ∧ t.nv = s.nv) ∧
  (∀ (m : Fin 16) (d : Dir) (n : BitVec 32) (s : State), n.toNat = cfgVal s 0x20B0 4 0 → (mediaOf s m).failed = false →
    exec (.mpStall m d n) s = .next (raise .mpStall (srcMedia m 1) (match d with
      | .w => 0
      | .r => 1) n.toNat (match d with
      | .w => (mediaOf s m).fifoW.length
      | .r => (mediaOf s m).fifoR.length) s))

/-- A line that arrives for a READ_RAW is returned with its sidecar unchecked; one for a READ_LINE of class W or C under a
live generation with its key, which passes SCHK, is returned decrypted, with OK or, for a poisoned line, OK_POISON; a
zeroization while it was awaited makes the answer KEY_ABSENT without data, and an error of the medium MEDIA_ERROR (R57,
R68, R171, R258, Table 03.7, Table 06.14). -/
def Obligations.LinesThatArriveAnswerReads : Prop :=
  ∀ (m : Fin 16) (id : BitVec 11) (stat : BitVec 2) (line : BitVec 576) (wpar : BitVec 16) (o : MOp) (k : Nat)
    (x : Txn) (s : State), tabFind (mediaOf s m).outR id.toNat = some o → respKind o = 0 → o.timedOut = false →
    o.owner = .txn k → txnFind s k = some x → x.item.gone = false → opReads x.item.op = true →
    eqSound s x.item.src → ∃ t, exec (.lineArrival m id stat line wpar {}) s = .next t ∧ t.nv = s.nv ∧ t.clk = s.clk ∧ t.keys.kek = s.keys.kek ∧
      (stat = 0#2 → wpar = linePar line → x.keyless = false → x.item.op = .readRaw → txnFind t k = none ∧
        ∃ r ∈ rspsOf t x.item.src, r.tag = x.item.h.tag ∧ r.status = BitVec.ofNat 8 stOk ∧ r.data = some (lnPay line) ∧
          r.extra = lnSide line) ∧
      (stat = 0#2 → wpar = linePar line → x.keyless = false → x.item.op = .readLine → slotClass s x.item.slot ≠ 3 →
        ∀ g gk ks, earlyRow s x.item.slot (lnSide line) = .gen g → genKeys s x.item.slot g = some gk →
        ks = lineBlocks (slotClass s x.item.slot) x.item.slot gk g (itemLine x.item) (scLctr (lnSide line)) →
        schkOk (itemLine x.item) line ks = true → txnFind t k = none ∧
          ∃ r ∈ rspsOf t x.item.src, r.tag = x.item.h.tag ∧ r.data = some (lineXor (lnPay line) ks) ∧
            r.psn = scPoison (lnSide line) ∧
            r.status = BitVec.ofNat 8 (if scPoison (lnSide line) then stOkPoison else stOk)) ∧
      (stat = 0#2 ∧ wpar = linePar line ∨ stat = 1#2 ∨ stat = 2#2 → x.keyless = true → ∃ r ∈ rspsOf t x.item.src, r.tag = x.item.h.tag ∧
        r.status = BitVec.ofNat 8 stKeyAbsent ∧ r.data = none) ∧
      (stat = 1#2 ∨ stat = 2#2 → x.keyless = false → ∃ r ∈ rspsOf t x.item.src, r.tag = x.item.h.tag ∧
        r.status = BitVec.ofNat 8 stMediaError ∧ r.data = none)

/-- A probe's sidecar gives its line a Jack entry and ends the probe; a fetched tag line completes the cached way, whose
valid entries keep their values, and ends the fetch; a read that times out answers MEDIA_ERROR, and its id stays taken
until the late response, which is discarded (R82, R105 to R107, R256, R261). -/
def Obligations.ProbesFetchesAndTimeoutsEnd : Prop :=
  (∀ (m : Fin 16) (id : BitVec 11) (line : BitVec 576) (o : MOp) (p : Probe) (s : State),
    tabFind (mediaOf s m).outR id.toNat = some o → o.kind = .sidecar → o.owner = .probe → o.timedOut = false →
    probeOut s m o.addr = some p → p.kidx ≠ 0 → portOf s o.addr = m.val → o.addr < 2 ^ 40 → s.rep.badRows = [] →
    ∃ t, exec (.sidecarArrival m id 0 line (linePar line) {}) s = .next t ∧ (jackEntry t o.addr).isSome = true ∧
      probesOf t m = (probesOf s m).eraseP (fun q => q.addr == o.addr && q.issued && (q.void == false)) ∧
      tabFind (mediaOf t m).outR id.toNat = none ∧ t.nv = s.nv ∧ t.clk = s.clk) ∧
  (∀ (m : Fin 16) (id : BitVec 11) (line : BitVec 576) (o : MOp) (tl k : Nat) (x : TagWay) (s : State),
    tabFind (mediaOf s m).outR id.toNat = some o → o.kind = .read → o.owner = .tagFetch tl → o.timedOut = false →
    s.tagc.fetches.any (fun f => f.tl == tl) = true → tagFind s tl = some (k, x) →
    ∃ t, exec (.taglineArrival m id 0 line (linePar line)) s = .next t ∧
      tabFind t.tagc.ways k = some { x with
        data := tagMergeData x (if (lnSide line).extractLsb' 19 2 = 0#2 then 0 else lnPay line)
        valid := 0xFF#8, failedFetch := false, quietAt := now s, used := s.tagc.uses } ∧
      (∀ f ∈ t.tagc.fetches, f.tl ≠ tl) ∧ t.nv = s.nv ∧ t.clk = s.clk) ∧
  (∀ (m : Fin 16) (id : BitVec 11) (o : MOp) (k : Nat) (x : Txn) (s : State),
    tabFind (mediaOf s m).outR id.toNat = some o → o.timedOut = false → o.owner = .txn k → txnFind s k = some x →
    opReads x.item.op = true → x.keyless = false → x.item.gone = false → eqSound s x.item.src →
    ∃ t, exec (.readTimeout m id) s = .next t ∧
      tabFind (mediaOf t m).outR id.toNat = some { o with timedOut := true } ∧ txnFind t k = none ∧
      ∃ r ∈ rspsOf t x.item.src, r.tag = x.item.h.tag ∧ r.status = BitVec.ofNat 8 stMediaError ∧ r.data = none)

/-- A sweep pass completes the items of ids retired before it, gives those ids back, and lets the ids retired since wait
for the next pass; it marks headers that have grown old, and cells that only one bitmap marks free are held; each queue
whose pointers it finds in mismatch is then reset (R199, R202). -/
def Obligations.SweepsReturnRetiredIds : Prop :=
  ∀ (ptr : List (Nat × Fin 5)) (freed held : Nat) (hdr : List (Nat × BitVec 144)) (s : State), s.clk.running = true →
    (∀ e ∈ s.pool.lost, e.1 = 1 → eqSound s e.2.src) → ∃ u, exec (.poolSweepPass [] freed held hdr) s = .next u ∧
      u.pool.spare = s.pool.spare ++ (s.pool.retired.filter (fun e => e.2)).map (fun e => e.1) ∧
      u.pool.retired = (s.pool.retired.filter (fun e => !e.2)).map (fun e => (e.1, true)) ∧
      u.pool.lost.map (fun e => e.1) =
        (s.pool.lost.filter (fun e => e.1 != 1)).map (fun e => if e.1 = 0 then 1 else e.1) ∧
      (hdr = [] → u.pool.lost =
        (s.pool.lost.filter (fun e => e.1 != 1)).map (fun e => if e.1 = 0 then (1, e.2) else e)) ∧
      u.pool.stuck = s.pool.stuck + held ∧
      (∀ i ∈ u.pool.items, enqFrame i + 16384 < frameNo s → i.old = true) ∧
      u.pool.txns.length = s.pool.txns.length ∧
      exec (.poolSweepPass ptr freed held hdr) s =
        .next (ptr.foldl (fun v e => if e.1 < 384 then queueReset e.1 e.2.val v else v) u) ∧
      u = { s with pool := u.pool, links := u.links, accts := u.accts, pastAccts := u.pastAccts, regs := u.regs,
                   ev := u.ev }

-- NV store, recorder and alerts

/-- A page commit stores the page's bytes at its address plus their offsets and no other byte, and its read-back begins; a
failed commit leaves every byte outside the page's as it was (R277, R279). The read-back that matches confirms the
changes whose last record it holds; one that does not is written again, three times in all, and then given up (R279). -/
def Obligations.PageCommitsStoreAndConfirm : Prop :=
  (∀ (p : NvPage) (s : State), s.nvu.page = some p → p.reading = false →
    (∃ t, exec (.nvPageDone false) s = .next t ∧ t.nvu = { s.nvu with page := some { p with reading := true } } ∧
      (∀ a, (∀ e ∈ p.data, p.addr + e.1 ≠ a) → nvByteOf t a = nvByteOf s a) ∧
      ((p.data.map (fun e => e.1)).Nodup → ∀ e ∈ p.data, nvByteOf t (p.addr + e.1) = e.2) ∧
      t = { s with nv := t.nv, nvu := t.nvu, regs := t.regs }) ∧
    (∃ t, exec (.nvPageDone true) s = .next t ∧
      (∀ a, (∀ e ∈ p.data, p.addr + e.1 ≠ a) → nvByteOf t a = nvByteOf s a) ∧
      (p.tries < 3 → t.nvu = { s.nvu with page := some { p with tries := p.tries + 1, reading := false } }) ∧
      t = { s with nv := t.nv, nvu := t.nvu, regs := t.regs, ev := t.ev, free := t.free })) ∧
  (∀ (p : NvPage) (page : BitVec 512) (s : State), s.nvu.page = some p → p.reading = true →
    (nvMatches p page = true → ∃ t, exec (.nvReadDone false page) s = .next t ∧
      (∀ j ∈ p.jobs, ∀ r k, j.recs = [r] → (∀ n, r ≠ .image n) → j.act = .activate k → j.act ∈ t.nvu.acts) ∧
      (∀ j ∈ p.jobs, ∀ r, j.recs = [r] → (∀ n, r ≠ .image n) → j.act = .sessionClean → t.pwr.sessionDone = true) ∧
      t.nv = s.nv ∧ t.keys = s.keys ∧ t.pins = s.pins ∧ t.clk = s.clk) ∧
    (∀ err, err = true ∨ nvMatches p page = false → ∃ t, exec (.nvReadDone err page) s = .next t ∧
      (3 ≤ p.tries → ∀ j ∈ p.jobs, j ∈ t.nvu.failed) ∧ t.nv = s.nv ∧ t.keys = s.keys ∧ t.pins = s.pins ∧
      (s.pwr.phase = .service → p.tries < 3 →
        t.nvu.page = some { p with tries := p.tries + 1, reading := false } ∧ t.nvu.acts = s.nvu.acts)))

/-- The recorder takes the oldest record while it is online; a subscription's oldest record goes out as an EVENT message
with the subscription's own count; a confirmed CLEAR is reported; RECORDER_READY follows rec_online (R318, R356 to R359,
R369). -/
def Obligations.RecordsGoToTheirReaders : Prop :=
  (∀ (r : EvRec) (rest : List EvRec) (s : State), regVal s 0x2500 0x0A 0 ≠ 0 → s.ev.backlog = r :: rest →
    ∃ t, exec .recorderAccept s = .next t ∧ t.ev.recTx = some r ∧ (s.ev.ctlWait = [] → t.ev.backlog = rest) ∧
      t = { s with regs := t.regs, ev := t.ev }) ∧
  (∀ (k : Fin 8) (sb : Subscr) (r : EvRec) (rest : List EvRec) (key : Key) (s : State),
    tabFind s.ev.subs k.val = some sb → sb.queue = r :: rest → tabFind s.keys.mks k.val = some key →
    ∃ t m, exec (.eventMessage k) s = .next t ∧ t.mmTx = s.mmTx ++ [m] ∧ m.eid = sb.eid ∧ m.op = 0x88#8 ∧
      m.seq = sb.seq + 1#32 ∧ m.body = recBytes r ∧
      tabFind t.ev.subs k.val = some { sb with queue := rest, seq := sb.seq + 1#32 } ∧
      t = { s with mmTx := t.mmTx, ev := t.ev }) ∧
  (∀ (p1 p2 p3 : BitVec 32) (s : State), s.ev.clearing = some (p1, p2, p3) →
    exec .recorderClearAck s = .next (raise .recorderCleared (srcGlobal 57) p1.toNat p2.toNat p3.toNat
      { s with ev := { s.ev with clearing := none } })) ∧
  (∀ (online : Bool) (s : State), ∃ t, exec (.recOnlineChange online) s = .next t ∧
    regVal t 0x2500 0x0A 0 = (if online then 1 else 0) ∧
    (online = true → s.clk.running = true → t.ev.modeSent = true) ∧ t = { s with regs := t.regs, ev := t.ev })

/-- An occurrence of an event is counted on its source, sets the source's live bit, its code and its frame, and, where the
source is enabled and the severity reaches its minimum, is folded into the source's accumulator of the frame and raises the
alert level of its route; it changes nothing but registers and the event unit, and a source of a link that BIST holds down
reports nothing (R346, R349 to R354). -/
def Obligations.OccurrencesAreCaptured : Prop :=
  ∀ (e : Ev) (sev src p1 p2 p3 : Nat) (s : State), sev < 4 → src < 1124 →
    raiseSev e sev src p1 p2 p3 s =
      { s with regs := (raiseSev e sev src p1 p2 p3 s).regs, ev := (raiseSev e sev src p1 p2 p3 s).ev } ∧
    (srcDead s src = true → raiseSev e sev src p1 p2 p3 s = s) ∧
    (srcDead s src = false →
      regVal (raiseSev e sev src p1 p2 p3 s) 0x4004 0x13 src = frameNo s ∧
      regVal (raiseSev e sev src p1 p2 p3 s) 0x4004 0x10 src % 2 = 1 ∧
      regVal (raiseSev e sev src p1 p2 p3 s) 0x4004 0x11 src = min (regVal s 0x4004 0x11 src + 1) (2 ^ 32 - 1) ∧
      (cfgVal s 0x4004 1 src = 0 → cfgVal s 0x4004 2 src ≤ sev →
        (tabFind (raiseSev e sev src p1 p2 p3 s).ev.acc src).isSome = true ∧
        (tabFind s.ev.acc src = none → tabFind (raiseSev e sev src p1 p2 p3 s).ev.acc src = some
          { code := (evInfo e).1, sev := sev, cycle := s.clk.cycle, count := 1, mixed := false,
            p1 := BitVec.ofNat 32 p1, p2 := BitVec.ofNat 32 p2, p3 := BitVec.ofNat 32 p3 }) ∧
        ∀ k, alertLevel (cfgVal s 0x4004 4 src) sev = some k →
          (regVal (raiseSev e sev src p1 p2 p3 s) 0x2500 5 0).testBit k = true) ∧
      (cfgVal s 0x4004 1 src ≠ 0 ∨ sev < cfgVal s 0x4004 2 src →
        (raiseSev e sev src p1 p2 p3 s).ev.acc = s.ev.acc ∧
        regVal (raiseSev e sev src p1 p2 p3 s) 0x2500 5 0 = regVal s 0x2500 5 0))

-- The dictionary: messages

/-- A message is taken only once the dictionary is served; one that is not authentic, or of another message type than
7Fh, is dropped and counted without an answer, one out of session or out of sequence is answered so, and one with a head
that is not formed or an operation outside Table 15.3 takes its SEQ and is answered FORMAT (R316, R317, R368, Table
15.5). -/
def Obligations.MessagesAreCheckedBeforeTheyAct : Prop :=
  ∀ (op w : Nat) (h : MsgHdr) (body : List Byte) (s : State), 1 ≤ op → op ≤ 7 →
    w = (h.odd.map (fun o => o.toNat)).getD op →
    (s.clk.running = false ∨ s.pwr.stage ≠ .served → exec (messageOf op h body) s = .next s) ∧
    (s.clk.running = true → s.pwr.stage = .served →
      (msgFault w h body s ≠ none ∨ h.mtype ≠ 0x7F#8 → ∃ t, exec (messageOf op h body) s = .next t ∧
        regVal t 0x2201 0x20 0 = min (regVal s 0x2201 0x20 0 + 1) (2 ^ 32 - 1) ∧
        t = { s with regs := t.regs, ev := t.ev }) ∧
      (msgFault w h body s = none →
        (h.session.toNat ≠ sessionVal s (hdrKey h) → ∃ t, exec (messageOf op h body) s = .next t ∧
          sends s t h w rcSession h.seq [] ∧ t = { s with mmTx := t.mmTx, regs := t.regs }) ∧
        (h.session.toNat = sessionVal s (hdrKey h) → h.seq ≤ lastSeq s (hdrKey h) →
          ∃ t, exec (messageOf op h body) s = .next t ∧ sends s t h w rcSequence (lastSeq s (hdrKey h)) [] ∧
            t = { s with mmTx := t.mmTx, regs := t.regs }) ∧
        (h.session.toNat = sessionVal s (hdrKey h) → lastSeq s (hdrKey h) < h.seq →
          h.odd ≠ none ∨ headOk op h = false →
          ∃ t, exec (messageOf op h body) s = .next t ∧ sends s t h w rcFormat h.seq [] ∧
            lastSeq t (hdrKey h) = h.seq ∧
            t = { msgTaken h s with mmTx := t.mmTx, regs := t.regs })))

/-- READ and READ_ROW answer the values of the objects that they reach at type width, or the refusal of the first that they
do not reach, and change nothing but the session, the owner's idle time and the counters; SUBSCRIBE sets, replaces or
cancels the subscription of its key alone, or is refused for its range (R309, R315, R317, R318, R359). -/
def Obligations.MessagesReadAndSubscribe : Prop :=
  (∀ (h : MsgHdr) (idx sub row : Nat) (s : State), headFits idx sub 0 row → InSession s 1 h (bodyHead idx sub 0 row) →
    (∀ o, objReach (.f (hdrKey h)) idx sub row = .ok o → rowForm idx row = true →
      ∃ t, exec (.read h (bodyHead idx sub 0 row)) s = .next t ∧
        sends s t h 1 rcOk h.seq
          (lenBody (leBytes o.ty.width (objVal (h.flags.getLsbD 0) o idx sub row (msgTaken h s)).1)) ∧
        t = { msgTaken h s with mmTx := t.mmTx, free := t.free }) ∧
    (∀ rc, objReach (.f (hdrKey h)) idx sub row = .error rc →
      ∃ t, exec (.read h (bodyHead idx sub 0 row)) s = .next t ∧ sends s t h 1 rc h.seq [] ∧
        t = { msgTaken h s with mmTx := t.mmTx, regs := t.regs })) ∧
  (∀ (h : MsgHdr) (idx sub n row : Nat) (s : State), headFits idx sub n row → 1 ≤ n → n ≤ 253 →
    InSession s 3 h (bodyHead idx sub n row) →
    (∀ l, rowReach (.f (hdrKey h)) idx row sub n = .ok l → rowForm idx row = true →
      ∃ t, exec (.readRow h (bodyHead idx sub n row)) s = .next t ∧
        sends s t h 3 rcOk h.seq (lenBody (rowRead (h.flags.getLsbD 0) idx row l (msgTaken h s)).1) ∧
        t = { msgTaken h s with mmTx := t.mmTx, free := t.free }) ∧
    (∀ rc, rowReach (.f (hdrKey h)) idx row sub n = .error rc →
      ∃ t, exec (.readRow h (bodyHead idx sub n row)) s = .next t ∧ sends s t h 3 rc h.seq [] ∧
        t = { msgTaken h s with mmTx := t.mmTx, regs := t.regs })) ∧
  (∀ (h : MsgHdr) (sev lo hi : Nat) (body : List Byte) (s : State), sev < 2 ^ 8 → lo < 2 ^ 16 → hi < 2 ^ 16 →
    body = leBytes 1 sev ++ [0#8] ++ leBytes 2 lo ++ leBytes 2 hi → InSession s 7 h body →
    (sev ≤ 3 ∨ sev = 0xFF → lo ≤ hi → hi ≤ 1123 → ∃ t, exec (.subscribe h body) s = .next t ∧
      sends s t h 7 rcOk h.seq [] ∧
      tabFind t.ev.subs (hdrKey h) =
        (if sev = 0xFF then none else some { minSev := sev, first := lo, last := hi, eid := h.eid }) ∧
      (∀ k, k ≠ hdrKey h → tabFind t.ev.subs k = tabFind s.ev.subs k) ∧
      t = { msgTaken h s with mmTx := t.mmTx, ev := t.ev }) ∧
    ((3 < sev ∧ sev ≠ 0xFF) ∨ hi < lo ∨ 1123 < hi → ∃ t, exec (.subscribe h body) s = .next t ∧
      sends s t h 7 rcRange h.seq [] ∧ t = { msgTaken h s with mmTx := t.mmTx, regs := t.regs }))

/-- WRITE and WRITE_ROW do to the objects that they reach what a write of them does, and answer its result; RECORDER_CLEAR
sends a CLEAR record with the key index, CFG_GEN and the count of records, unless one is still unconfirmed or its value is
0 (R309, R310, R315, R319, R357, R358). -/
def Obligations.MessagesWriteObjects : Prop :=
  (∀ (h : MsgHdr) (idx sub row : Nat) (vs body : List Byte) (o : Obj) (rc : Byte) (u s : State), headFits idx sub 0 row →
    body = bodyHead idx sub 0 row ++ leBytes 2 vs.length ++ vs → InSession s 2 h body →
    objReach (.f (hdrKey h)) idx sub row = .ok o → rowForm idx row = true → vs.length = o.ty.width →
    objWrite (.f (hdrKey h)) o idx sub row (natOfLe vs) (msgTaken h s) = (rc, u) →
    ∃ t, exec (.write h body) s = .next t ∧ sends u t h 2 rc h.seq [] ∧
      t = { u with mmTx := t.mmTx, regs := t.regs } ∧ (rc = rcOk → t.regs = u.regs)) ∧
  (∀ (h : MsgHdr) (idx sub n row : Nat) (vs body : List Byte) (l : List (Nat × Obj)) (rc : Byte) (u s : State),
    headFits idx sub n row → 1 ≤ n → n ≤ 253 → body = bodyHead idx sub n row ++ leBytes 2 vs.length ++ vs →
    InSession s 4 h body → rowReach (.f (hdrKey h)) idx row sub n = .ok l → rowForm idx row = true →
    vs.length = rowWidth l → rowWriteWhole (.f (hdrKey h)) idx row l vs (msgTaken h s) = (rc, u) →
    ∃ t, exec (.writeRow h body) s = .next t ∧ sends u t h 4 rc h.seq [] ∧
      t = { u with mmTx := t.mmTx, regs := t.regs } ∧ (rc = rcOk → t.regs = u.regs) ∧
      (rc ≠ rcOk → u = msgTaken h s)) ∧
  (∀ (h : MsgHdr) (s : State),
    (InSession s 2 h (clearBody true) → s.ev.clearing = none → ∃ t r, exec (.recorderClear h true) s = .next t ∧
      sends s t h 2 rcOk h.seq [] ∧
      t.ev.clearing = some (BitVec.ofNat 32 (hdrKey h), BitVec.ofNat 32 (cfgGen s),
        BitVec.ofNat 32 (regVal s 0x2500 9 0)) ∧
      r ∈ t.ev.backlog ++ t.ev.ctlWait ∧ r.code = 0xFF02 ∧ r.p1 = BitVec.ofNat 32 (hdrKey h) ∧
      t = { msgTaken h s with mmTx := t.mmTx, ev := t.ev }) ∧
    (InSession s 2 h (clearBody true) → s.ev.clearing ≠ none → ∃ t, exec (.recorderClear h true) s = .next t ∧
      sends s t h 2 rcOk h.seq [] ∧ t = { msgTaken h s with mmTx := t.mmTx }) ∧
    (InSession s 2 h (clearBody false) → ∃ t, exec (.recorderClear h false) s = .next t ∧
      sends s t h 2 rcOk h.seq [] ∧ t = { msgTaken h s with mmTx := t.mmTx }))

-- The dictionary: commits

/-- A COMMIT by a fleet manager or by local firmware that may use the staging set begins to prepare towards its target, or
towards the earliest frame where it names none; its message is answered at the outcome. A target before the earliest frame
is refused with cause 3, a set that breaks a rule with cause 1 and the first offending object, and both keep the set. It is
refused with BUSY while a commit is on its way, with STAGE_OWNED for another owner's set, and with NOTHING_STAGED for an
empty one; another owner's set that has become breakable is discarded, and the sender is the new owner (R320 to R323, R327,
Table 15.5). ABORT by the owner discards the staging set in STAGING and cancels a commit that
is not yet decided, keeping the set; another principal is refused with STAGE_OWNED, unless its message has FORCE (R320,
R329). Once the sample has decided, an ABORT changes nothing. -/
def Obligations.CommitsAndAbortsAreTakenOrRefused : Prop :=
  (∀ (h : MsgHdr) (target : Nat) (s : State), target < 2 ^ 64 → InSession s 5 h (leBytes 8 target) →
    (s.commit.phase = .preparing ∨ s.commit.phase = .pending → ∃ t, exec (.commit h (leBytes 8 target)) s = .next t ∧
      sends s t h 5 rcBusy h.seq [] ∧ t = { msgTaken h s with mmTx := t.mmTx, regs := t.regs }) ∧
    (s.commit.phase = .idle ∨ s.commit.phase = .staging →
      (s.staged ≠ [] → s.commit.owner ≠ 0 → s.commit.owner ≠ 8 + hdrKey h →
        (s.commit.breakable = false → ∃ t, exec (.commit h (leBytes 8 target)) s = .next t ∧
          sends s t h 5 rcStageOwned h.seq [] ∧ t = { msgTaken h s with mmTx := t.mmTx, regs := t.regs }) ∧
        (s.commit.breakable = true → ∃ t, exec (.commit h (leBytes 8 target)) s = .next t ∧
          sends s t h 5 rcNothingStaged h.seq [] ∧ t.staged = [] ∧ t.commit.owner = 8 + hdrKey h ∧
          t.commit.breakable = false ∧
          t = { msgTaken h s with mmTx := t.mmTx, regs := t.regs, ev := t.ev, staged := t.staged,
                                  commit := t.commit })) ∧
      (s.staged = [] → ∃ t, exec (.commit h (leBytes 8 target)) s = .next t ∧
        sends s t h 5 rcNothingStaged h.seq [] ∧ t = { msgTaken h s with mmTx := t.mmTx, regs := t.regs }) ∧
      (s.commit.owner = 0 ∨ s.commit.owner = 8 + hdrKey h →
        (s.staged ≠ [] → target < earliestFrame s → target ≠ 2 ^ 64 - 1 → ∃ t m, exec (.commit h (leBytes 8 target)) s = .next t ∧
          m ∈ t.mmTx ∧ m.eid = h.eid ∧ m.result = rcCommitAborted ∧ m.seq = h.seq ∧ m.body = abortBody t ∧
          t.commit.phase = .staging ∧ t.commit.cause = 3 ∧ t.staged = s.staged ∧ t.cfg = s.cfg) ∧
        (s.staged ≠ [] → earliestFrame s ≤ target ∨ target = 2 ^ 64 - 1 →
          (∀ k, firstFault (commitFaults s) = some k → ∃ t m, exec (.commit h (leBytes 8 target)) s = .next t ∧
            m ∈ t.mmTx ∧ m.eid = h.eid ∧ m.result = rcCommitAborted ∧ m.seq = h.seq ∧ m.body = abortBody t ∧
            t.commit.phase = .staging ∧ t.commit.cause = 1 ∧ t.commit.lastAbortObj = abortObj (some k) ∧
            t.staged = s.staged ∧ t.cfg = s.cfg) ∧
          (firstFault (commitFaults s) = none → ∃ t, exec (.commit h (leBytes 8 target)) s = .next t ∧
            t.commit.phase = .preparing ∧ t.commit.reply = some h ∧
            t.commit.target = (if target = 2 ^ 64 - 1 then earliestFrame s else target) ∧
            t = { msgTaken h s with commit := t.commit }))))) ∧
  (∀ (target : BitVec 64) (s : State), winServed s →
    (s.commit.phase = .preparing ∨ s.commit.phase = .pending → ∃ t, exec (.commitReq false target) s = .next t ∧
      winNo t false 0x220004 rcBusy ∧ t = { winTaken false s with winL := t.winL, winOut := t.winOut }) ∧
    (s.commit.phase = .idle ∨ s.commit.phase = .staging →
      (s.staged ≠ [] → s.commit.owner ≠ 0 → s.commit.owner ≠ 1 →
        (s.commit.breakable = false → ∃ t, exec (.commitReq false target) s = .next t ∧
          winNo t false 0x220004 rcStageOwned ∧ t = { winTaken false s with winL := t.winL, winOut := t.winOut }) ∧
        (s.commit.breakable = true → ∃ t, exec (.commitReq false target) s = .next t ∧
          winNo t false 0x220004 rcNothingStaged ∧ t.staged = [] ∧ t.commit.owner = 1 ∧ t.commit.breakable = false ∧
          t = { winTaken false s with winL := t.winL, winOut := t.winOut, regs := t.regs, ev := t.ev,
                                      staged := t.staged, commit := t.commit })) ∧
      (s.staged = [] → ∃ t, exec (.commitReq false target) s = .next t ∧ winNo t false 0x220004 rcNothingStaged ∧
        t = { winTaken false s with winL := t.winL, winOut := t.winOut }) ∧
      (s.commit.owner = 0 ∨ s.commit.owner = 1 →
        (s.staged ≠ [] → target.toNat < earliestFrame s → target.toNat ≠ 2 ^ 64 - 1 →
          ∃ t, exec (.commitReq false target) s = .next t ∧
          winNo t false 0x220004 rcCommitAborted ∧ t.commit.phase = .staging ∧ t.commit.cause = 3 ∧
          t.staged = s.staged ∧ t.cfg = s.cfg) ∧
        (s.staged ≠ [] → earliestFrame s ≤ target.toNat ∨ target.toNat = 2 ^ 64 - 1 →
          (∀ k, firstFault (commitFaults s) = some k → ∃ t, exec (.commitReq false target) s = .next t ∧
            winNo t false 0x220004 rcCommitAborted ∧ t.commit.phase = .staging ∧ t.commit.cause = 1 ∧
            t.commit.lastAbortObj = abortObj (some k) ∧ t.staged = s.staged ∧ t.cfg = s.cfg) ∧
          (firstFault (commitFaults s) = none → ∃ t, exec (.commitReq false target) s = .next t ∧ winOk t ∧
            t.commit.phase = .preparing ∧ t.commit.reply = s.commit.reply ∧
            t.commit.target = (if target.toNat = 2 ^ 64 - 1 then earliestFrame s else target.toNat) ∧
            t = { winTaken false s with commit := t.commit, winOut := t.winOut }))))) ∧
  (∀ (h : MsgHdr) (s : State), InSession s 6 h [] →
    (s.commit.decided = .apply → ∃ t, exec (.abort h []) s = .next t ∧ sends s t h 6 rcOk h.seq [] ∧
      t = { msgTaken h s with mmTx := t.mmTx }) ∧
    (s.commit.decided ≠ .apply →
      (s.commit.owner ≠ 0 → s.commit.owner ≠ 8 + hdrKey h → h.flags.getLsbD 1 = false →
        ∃ t, exec (.abort h []) s = .next t ∧ sends s t h 6 rcStageOwned h.seq [] ∧
          t = { msgTaken h s with mmTx := t.mmTx, regs := t.regs }) ∧
      (s.commit.owner = 0 ∨ s.commit.owner = 8 + hdrKey h ∨ h.flags.getLsbD 1 = true →
        (s.commit.phase = .idle ∨ s.commit.phase = .staging → ∃ t, exec (.abort h []) s = .next t ∧ sends s t h 6 rcOk h.seq [] ∧
          t.staged = [] ∧ t.commit.phase = .idle ∧ t.commit.owner = 0 ∧
          t = { msgTaken h s with mmTx := t.mmTx, staged := t.staged, commit := t.commit }) ∧
        (s.commit.phase = .preparing ∨ s.commit.phase = .pending → ∃ t m, exec (.abort h []) s = .next t ∧
          m ∈ t.mmTx ∧ m.eid = h.eid ∧ m.result = rcOk ∧ m.seq = h.seq ∧ t.commit.cause = 5 ∧ t.cfg = s.cfg ∧
          (h.flags.getLsbD 1 = false → t.commit.phase = .staging ∧ t.staged = s.staged ∧
            t.commit.owner = s.commit.owner) ∧
          (h.flags.getLsbD 1 = true → t.staged = [] ∧ t.commit.phase = .idle))))) ∧
  (∀ s : State, winServed s →
    exec (.abortReq false false) s = .next { winTaken false s with winOut := some { err := false, value := 0#32 } } ∧
    (s.commit.decided = .apply →
      exec (.abortReq false true) s = .next { winTaken false s with winOut := some { err := false, value := 0#32 } }) ∧
    (s.commit.decided ≠ .apply →
      (s.commit.owner ≠ 0 → s.commit.owner ≠ 1 → ∃ t, exec (.abortReq false true) s = .next t ∧
        winNo t false 0x220005 rcStageOwned ∧ t = { winTaken false s with winL := t.winL, winOut := t.winOut }) ∧
      (s.commit.owner = 0 ∨ s.commit.owner = 1 →
        (s.commit.phase = .idle ∨ s.commit.phase = .staging → ∃ t, exec (.abortReq false true) s = .next t ∧ winOk t ∧ t.staged = [] ∧
          t.commit.phase = .idle ∧ t.commit.owner = 0 ∧
          t = { winTaken false s with staged := t.staged, commit := t.commit, winOut := t.winOut }) ∧
        (s.commit.phase = .preparing ∨ s.commit.phase = .pending → ∃ t, exec (.abortReq false true) s = .next t ∧
          winOk t ∧ t.commit.phase = .staging ∧ t.commit.cause = 5 ∧ t.staged = s.staged ∧ t.cfg = s.cfg))))

-- The local window

/-- A window access before the dictionary is served gets lw_err; one with a byte enable clear or to an object that its class
does not reach is refused with WIN_ERR and changes nothing else. A write does to its object what a write of it does, and is
acknowledged by its result; a read returns word 0 of the value and latches the words above it; the registers of a class and
its row selects are its own (R311 to R313, R320, R368). -/
def Obligations.WindowAccessesReachTheirObject : Prop :=
  (∀ (a : WinAcc) (v : BitVec 32) (c : Instr) (s : State),
    c = .windowWrite a v ∨ c = .rwsWrite a v ∨ c = .wideValueRead a → s.clk.running = true →
    (s.pwr.stage ≠ .served → exec c s = .next { s with winOut := some { err := true, value := 0#32 } }) ∧
    (s.pwr.stage = .served → a.be ≠ 0xF#4 → ∃ t, exec c s = .next t ∧ winNo t a.dbg a.addr.toNat rcAccess ∧
      t = { winTaken a.dbg s with winL := t.winL, winD := t.winD, winOut := t.winOut }) ∧
    (∀ idx sub row rc, WinAt s a idx sub row → objReach (winWho a.dbg) idx sub row = .error rc →
      ∃ t, exec c s = .next t ∧ winNo t a.dbg a.addr.toNat rc ∧
        t = { winTaken a.dbg s with winL := t.winL, winD := t.winD, winOut := t.winOut })) ∧
  (∀ (a : WinAcc) (v : BitVec 32) (c : Instr) (idx sub row : Nat) (o : Obj) (rc : Byte) (u s : State),
    c = .windowWrite a v ∨ c = .rwsWrite a v → WinAt s a idx sub row → idx ≠ 0x20FF →
    objReach (winWho a.dbg) idx sub row = .ok o →
    objWrite (winWho a.dbg) o idx sub row (wideValue (winOf s a.dbg) o.ty.words v.toNat) (winTaken a.dbg s) = (rc, u) →
    ∃ t, exec c s = .next t ∧
      (rc = rcOk → winOk t ∧ t = { u with winOut := t.winOut }) ∧
      (rc ≠ rcOk → winNo t a.dbg a.addr.toNat rc ∧
        t = { u with winL := t.winL, winD := t.winD, winOut := t.winOut })) ∧
  (∀ (a : WinAcc) (idx sub row : Nat) (o : Obj) (v : Nat) (s : State), WinAt s a idx sub row → idx ≠ 0x20FF →
    objReach (winWho a.dbg) idx sub row = .ok o →
    v = (objVal (decide ((winOf s a.dbg).view = 1#8)) o idx sub row (winTaken a.dbg s)).1 →
    ∃ t, exec (.wideValueRead a) s = .next t ∧
      t.winOut = some { err := false, value := BitVec.ofNat 32 (v % 2 ^ 32) } ∧
      (∀ i, 1 ≤ i → i < o.ty.words → tabGet 0#32 (winOf t a.dbg).wide i = BitVec.ofNat 32 (v / 2 ^ (32 * i))) ∧
      winOf t (!a.dbg) = winOf s (!a.dbg) ∧
      t = { winTaken a.dbg s with winL := t.winL, winD := t.winD, winOut := t.winOut, free := t.free }) ∧
  (∀ (a : WinAcc) (v : BitVec 32) (idx sub : Nat) (s : State), winServed s → a.be = 0xF#4 →
    a.addr.toNat = idx * 256 + sub → sub < 256 →
    (idx = 0x20FF → 1 ≤ sub → sub ≤ 0x0F → ∃ t, exec (.windowWrite a v) s = .next t ∧ winOk t ∧
      winOf t a.dbg = { winOf s a.dbg with wide := (winOf t a.dbg).wide } ∧
      tabGet 0#32 (winOf t a.dbg).wide sub = v ∧ winOf t (!a.dbg) = winOf s (!a.dbg)) ∧
    (idx = 0x20FF → sub = 0x10 → v.toNat ≤ 1 → ∃ t, exec (.windowWrite a v) s = .next t ∧ winOk t ∧
      winOf t a.dbg = { winOf s a.dbg with view := v.setWidth 8 } ∧ winOf t (!a.dbg) = winOf s (!a.dbg)) ∧
    (tableRows idx ≠ 0 → sub = (if a.dbg then 0xFF else 0xFE) → v.toNat < 2 ^ 24 →
      ∃ t, exec (.windowWrite a v) s = .next t ∧ winOk t ∧ winRow t a.dbg idx = v.toNat ∧
        winOf t a.dbg = { winOf s a.dbg with rowSel := (winOf t a.dbg).rowSel } ∧
        winOf t (!a.dbg) = winOf s (!a.dbg)) ∧
    (tableRows idx ≠ 0 → sub = (if a.dbg then 0xFE else 0xFF) → ∃ t, exec (.windowWrite a v) s = .next t ∧
      winNo t a.dbg a.addr.toNat rcNoAccess ∧ winOf t (!a.dbg) = winOf s (!a.dbg)))

/-- A command of the window is an access to its object: before the dictionary is served it gets lw_err; where its class or
its row does not reach the object, its value is out of range, or it names slot 0, it is refused with the result code and
changes nothing else (R122, R309 to R311, R368). -/
def Obligations.WindowCommandsMeetTheDictionary : Prop :=
  ∀ (c : Instr) (dbg : Bool) (idx sub row v : Nat) (s : State), winCommand c = some (dbg, idx, sub, row, v) →
    (s.clk.running = true → s.pwr.stage ≠ .served →
      exec c s = .next { s with winOut := some { err := true, value := 0#32 } }) ∧
    (winServed s → ∀ rc,
      (objReach (winWho dbg) idx sub row = .error rc ∨
        (∃ o, objReach (winWho dbg) idx sub row = .ok o ∧
          (rowZero idx row = true ∧ rc = rcAccess ∨ rowZero idx row = false ∧ o.admits v = false ∧ rc = rcRange))) →
      ∃ t, exec c s = .next t ∧ winNo t dbg (idx * 256 + sub) rc ∧
        t = { winTaken dbg s with winL := t.winL, winD := t.winD, winOut := t.winOut })

/-- SLOT_CMD and REKEY_REQ by local firmware: ACTIVATE and RETIRE, where Table 06.4 permits them, queue their records
and leave the slot until these are confirmed; DISCARD empties a LOADED slot, whose material is erased at the next
strobe; REKEY_REQ queues or starts a next-generation pass, or at the last generation makes the slot spent, unless new
material already waits for its pass; what is not permitted is refused with NOT_PERMITTED (R116, R125, R126, R143, R144,
Table 06.4). -/
def Obligations.SlotCommandsActOnTheirSlot : Prop :=
  ∀ (k : BitVec 15) (x : Slot) (s : State), winServed s → k ≠ 0#15 → x = slotOf s k.toNat →
    (activateOk s k.toNat = true → ∃ t, exec (.activate false k) s = .next t ∧ winOk t ∧
      actWaits t (.activate k.toNat) = true ∧
      t = { winTaken false s with nvu := t.nvu, regs := t.regs, ev := t.ev, winOut := t.winOut }) ∧
    (activateOk s k.toNat = false → ∃ t, exec (.activate false k) s = .next t ∧ winNo t false 0x40000A rcNotPermitted ∧
      t = { winTaken false s with winL := t.winL, winOut := t.winOut }) ∧
    (x.st = .loaded → ∃ t, exec (.discard false k) s = .next t ∧ winOk t ∧
      slotOf t k.toNat = { matA := x.matA, rowBad := x.rowBad } ∧ (∀ j, j ≠ k.toNat → slotOf t j = slotOf s j) ∧
      k.toNat ∈ t.keys.eraseNext ∧ (∀ i, i < 5 → cfgVal t 0x5000 (i + 1) k.toNat = objDefault 0x5000 (i + 1)) ∧
      t = { winTaken false s with keys := t.keys, cfg := t.cfg, winOut := t.winOut }) ∧
    (x.st ≠ .loaded → ∃ t, exec (.discard false k) s = .next t ∧ winNo t false 0x40000A rcNotPermitted ∧
      t = { winTaken false s with winL := t.winL, winOut := t.winOut }) ∧
    (retireOk s k.toNat = true → ∃ t, exec (.retire false k) s = .next t ∧ winOk t ∧
      actWaits t (.retire k.toNat) = true ∧
      t = { winTaken false s with nvu := t.nvu, regs := t.regs, ev := t.ev, winOut := t.winOut }) ∧
    (retireOk s k.toNat = false → ∃ t, exec (.retire false k) s = .next t ∧ winNo t false 0x40000A rcNotPermitted ∧
      t = { winTaken false s with winL := t.winL, winOut := t.winOut }) ∧
    (x.st = .active ∨ x.st = .rotating → ∃ t, exec (.rekeyReq false k 1) s = .next t ∧ winOk t ∧
      (x.gen ≠ 0xFFFFFFFF#32 → (∃ e ∈ t.rk.queue, e.kidx = k.toNat ∧ e.cause = 2) ∨
        ∃ n, (ctxOf t n).kidx = k.toNat ∧ (ctxOf t n).cause = 2 ∧ (ctxOf t n).st = .starting) ∧
      (x.gen = 0xFFFFFFFF#32 → x.st = .active ∨ x.two = true → (slotOf t k.toNat).spentDue = true) ∧
      (x.gen = 0xFFFFFFFF#32 → x.st = .rotating → x.two = false → slotOf t k.toNat = x) ∧
      t = { winTaken false s with keys := t.keys, nvu := t.nvu, rk := t.rk, regs := t.regs, ev := t.ev,
                                  winOut := t.winOut }) ∧
    (x.st ≠ .active → x.st ≠ .rotating → ∃ t, exec (.rekeyReq false k 1) s = .next t ∧
      winNo t false 0x40000C rcNotPermitted ∧ t = { winTaken false s with winL := t.winL, winOut := t.winOut })

/-- The commands of the units by local firmware: a tag cache flush waits for every dirty line, a prefill starts over
PREFILL_COUNT lines, an invalidation is due at the next strobe, a link reset drops its link with cause 7, a flush of a
media port is requested, stopped masters come back once their tags have completed, acknowledged alerts are no longer
pending, and a queue whose flush bit rises is emptied of every item whose header has landed; a BOOL command of value 0
is only acknowledged (R97, R111, R118, R184, R185, R196, R197, R213, R260, R354). -/
def Obligations.UnitCommandsHaveTheirEffect : Prop :=
  ∀ (s : State), winServed s →
    (∃ t, exec (.tagCacheFlush false true) s = .next t ∧ winOk t ∧
      t.tagc.ways.map (fun e => (e.1, { e.2 with askedAt := none })) =
        s.tagc.ways.map (fun e => (e.1, { e.2 with askedAt := none })) ∧
      (∀ e ∈ s.tagc.ways, e.2.dirty = true → ∃ f ∈ t.tagc.flushSet, f.1 = e.2.addr) ∧
      t = { winTaken false s with tagc := t.tagc, regs := t.regs, winOut := t.winOut }) ∧
    (∃ t, exec (.jackPrefill false true) s = .next t ∧ winOk t ∧
      t.jack = { s.jack with
        prefill := if regVal s 0x2050 4 0 = 0 then none else some (regVal s 0x2050 3 0, regVal s 0x2050 4 0) } ∧
      t = { winTaken false s with jack := t.jack, winOut := t.winOut }) ∧
    (∃ t, exec (.jackInvalidate false true) s = .next t ∧ winOk t ∧ t.jack = { s.jack with clearNext := true } ∧
      t = { winTaken false s with jack := t.jack, winOut := t.winOut }) ∧
    (∀ p : Fin 128,
      ((linkOf s p).bistDown = false → ∃ t v, exec (.linkReset false p true) s = .next t ∧ winOk t ∧
        LinkDropped (winTaken false s) v p 7 ∧ t = { v with winOut := t.winOut }) ∧
      ((linkOf s p).bistDown = true → ∃ t, exec (.linkReset false p true) s = .next t ∧ winOk t ∧
        t = { winTaken false s with winOut := t.winOut })) ∧
    (∀ m : Fin 16,
      ((mediaOf s m).failed = false → (mediaOf s m).flushReq = false → (mediaOf s m).flushOut = false →
        (mediaOf s m).drainOut = false → ∃ t, exec (.mpFlush false m true) s = .next t ∧ winOk t ∧
          mediaOf t m = { mediaOf s m with flushReq := true } ∧ (∀ n, n ≠ m.val → mediaOf t n = mediaOf s n) ∧
          t = { winTaken false s with media := t.media, winOut := t.winOut }) ∧
      ((mediaOf s m).failed = true ∨ (mediaOf s m).flushReq = true ∨ (mediaOf s m).flushOut = true ∨
          (mediaOf s m).drainOut = true → ∃ t, exec (.mpFlush false m true) s = .next t ∧ winOk t ∧
          t = { winTaken false s with winOut := t.winOut })) ∧
    (∀ v : Byte, v.toNat ≤ 31 → ∃ t, exec (.masterReset false v) s = .next t ∧ winOk t ∧
      (∀ n : Fin 5, v.toNat.testBit n.val = true → n.val ∈ s.pool.masterStop →
        (tagsOf s (.master (n.castLE (by decide))) = [] → n.val ∉ t.pool.masterStop) ∧
        (tagsOf s (.master (n.castLE (by decide))) ≠ [] →
          n.val ∈ t.pool.masterStop ∧ n.val ∈ t.pool.masterReset)) ∧
      (∀ n, v.toNat.testBit n = false → (n ∈ t.pool.masterStop ↔ n ∈ s.pool.masterStop)) ∧
      t = { winTaken false s with pool := t.pool, winOut := t.winOut }) ∧
    (∀ v : Byte, v.toNat ≤ 15 → ∃ t, exec (.alertAck false v) s = .next t ∧ winOk t ∧
      regVal t 0x2500 5 0 = regVal s 0x2500 5 0 - (regVal s 0x2500 5 0 &&& v.toNat) ∧
      t = { winTaken false s with regs := t.regs, winOut := t.winOut }) ∧
    (∀ (m : Fin 16) (v : Byte),
      (s.pwr.phase = .draining → ∃ t, exec (.iqFlush false m v) s = .next t ∧
        winNo t false (iqIdx m * 256 + 1) rcBusy ∧ t = { winTaken false s with winL := t.winL, winOut := t.winOut }) ∧
      (s.pwr.phase = .service → ∃ t, exec (.iqFlush false m v) s = .next t ∧ winOk t ∧
        regVal t (iqIdx m) 1 0 = v.toNat ∧
        (∀ k, k < 8 → v.toNat.testBit k = true → (regVal s (iqIdx m) 1 0).testBit k = false →
          ∀ i ∈ t.pool.items, i.q = m.val * 8 + k → now s < i.t0) ∧
        ((∀ i ∈ s.pool.items, i.q / 8 = m.val → eqSound s i.src) →
          ∀ i ∈ s.pool.items, i.q / 8 ≠ m.val ∨ now s < i.t0 → i ∈ t.pool.items) ∧
        t = { winTaken false s with pool := t.pool, accts := t.accts, pastAccts := t.pastAccts, links := t.links,
                                    regs := t.regs, ev := t.ev, winOut := t.winOut })) ∧
    (∀ c, c = .tagCacheFlush false false ∨ c = .jackPrefill false false ∨ c = .jackInvalidate false false ∨
        (∃ p, c = .linkReset false p false) ∨ (∃ m, c = .mpFlush false m false) →
      exec c s = .next { winTaken false s with winOut := some { err := false, value := 0#32 } })

-- Rules of the dictionary and of tag entries

/-- R319, over every write that the engine accepts of an RWS object, by whichever principal and route. -/
def Obligations.StagedWritesEnterTheStagingSet : Prop :=
  (∀ (w : Who) (o : Obj) (idx sub row v : Nat) (s u : State), o.acc = .rws →
    objWrite w o idx sub row v s = (rcOk, u) →
    stagedVal u idx sub row = v ∧ tabFind u.staged (okey idx sub row) = some v ∧ u.cfg = s.cfg ∧ u.nv = s.nv ∧
    u.nvu = s.nvu ∧
    (s.commit.owner = 0 ∨ s.commit.owner = w.owner →
      ∀ k, k ≠ okey idx sub row → tabFind u.staged k = tabFind s.staged k)) ∧
  (∀ (por : Bool) (s : State), ∃ t, exec (.reset por) s = .next t ∧ t.staged = [] ∧ t.commit.owner = 0)

/-- R324, over READ by message and over reads of the local window. -/
def Obligations.StagedViewReturnsTheStagingBank : Prop :=
  (∀ (h : MsgHdr) (idx sub row : Nat) (o : Obj) (s : State), headFits idx sub 0 row →
    InSession s 1 h (bodyHead idx sub 0 row) → objReach (.f (hdrKey h)) idx sub row = .ok o → rowForm idx row = true →
    ∃ t v, exec (.read h (bodyHead idx sub 0 row)) s = .next t ∧
      sends s t h 1 rcOk h.seq (lenBody (leBytes o.ty.width v)) ∧ t.staged = s.staged ∧
      t.commit.owner = s.commit.owner ∧ (o.acc = .rws → h.flags.getLsbD 0 = true → v = stagedVal s idx sub row) ∧
      (o.acc = .rws → h.flags.getLsbD 0 = false → v = cfgVal s idx sub row) ∧
      (o.acc ≠ .rws → v = (objVal false o idx sub row (msgTaken h s)).1)) ∧
  (∀ (a : WinAcc) (idx sub row : Nat) (o : Obj) (s : State), WinAt s a idx sub row → idx ≠ 0x20FF →
    objReach (winWho a.dbg) idx sub row = .ok o →
    ∃ t v, exec (.wideValueRead a) s = .next t ∧
      t.winOut = some { err := false, value := BitVec.ofNat 32 (v % 2 ^ 32) } ∧ t.staged = s.staged ∧
      t.commit.owner = s.commit.owner ∧
      (o.acc = .rws → (winOf s a.dbg).view = 1#8 → v = stagedVal s idx sub row) ∧
      (o.acc = .rws → (winOf s a.dbg).view ≠ 1#8 → v = cfgVal s idx sub row) ∧
      (o.acc ≠ .rws → v = (objVal false o idx sub row (winTaken a.dbg s)).1))

/-- R339, over READ and WRITE by message and over every plain access of the local window. -/
def Obligations.UnlistedObjectsAnswerNoObject : Prop :=
  (∀ (h : MsgHdr) (idx sub row : Nat) (s : State), headFits idx sub 0 row → notListed idx sub row →
    (InSession s 1 h (bodyHead idx sub 0 row) → ∃ t, exec (.read h (bodyHead idx sub 0 row)) s = .next t ∧
      sends s t h 1 rcNoObject h.seq [] ∧ t = { msgTaken h s with mmTx := t.mmTx, regs := t.regs }) ∧
    (∀ vs body, body = bodyHead idx sub 0 row ++ leBytes 2 vs.length ++ vs → InSession s 2 h body →
      ∃ t, exec (.write h body) s = .next t ∧ sends s t h 2 rcNoObject h.seq [] ∧
        t = { msgTaken h s with mmTx := t.mmTx, regs := t.regs })) ∧
  (∀ (a : WinAcc) (v : BitVec 32) (c : Instr) (idx sub row : Nat) (s : State),
    c = .windowWrite a v ∨ c = .rwsWrite a v ∨ c = .wideValueRead a → WinAt s a idx sub row → notListed idx sub row →
    ∃ t, exec c s = .next t ∧ winNo t a.dbg a.addr.toNat rcNoObject ∧
      t = { winTaken a.dbg s with winL := t.winL, winD := t.winD, winOut := t.winOut }) ∧
  (∀ idx row, notListed idx 0 row) ∧
  (∀ idx sub row, tableRows idx ≠ 0 → objFind idx sub = none → notListed idx sub row ∨ isRowSel idx sub = true)

/-- R76, over the issue of a CI write whose tag line is cached, and over the bytes of a tag line. -/
def Obligations.TagEntriesHaveTheirFields : Prop :=
  (∀ (w : WriteReq) (ks : List Block) (tl e k : Nat) (x : TagWay) (s : State), slotClass s w.kidx = 3 →
    tagPlace s w.kidx w.addr = some (tl, e) → tagFind s tl = some (k, x) →
    ∃ v, tagCached (writeIssue w ks {} s) tl e = some v ∧ v.extractLsb' 0 8 = w.lctr.extractLsb' 0 8 ∧
      v.extractLsb' 8 56 =
        mac56 w.h (lineXor w.pt ks)
          (scPack w.lctr (w.gen.setWidth 4) (BitVec.ofNat 15 w.kidx) (BitVec.ofNat 2 (slotClass s w.kidx)) w.psn
            (lineSchk w.pt w.addr ks)) (BitVec.ofNat 40 w.addr) (ks.getD 4 0#128)) ∧
  (∀ (d : Line) (v : BitVec 64) (e : Nat), e < 8 →
    ((lineBytes d).drop (8 * e)).take 8 = leBytes 8 (tagEntryOf d e).toNat ∧
    tagEntryOf (tagEntrySet d e v) e = v ∧ ∀ f, f < 8 → f ≠ e → tagEntryOf (tagEntrySet d e v) f = tagEntryOf d f)
end

