-- ==== Sys2Proof/Laws/Kept.lean ====
section
/-! SUPPORT. What nearly every operation leaves alone: the queue of waiting commands, the NV store and the clock. One
lemma an operation, in the order of the definitions. -/

namespace Sys2Proof.Machine

set_option linter.all false

/-- The queue, the NV store and the clock. -/
def State.kept (s : State) : List Instr × List Host.Cell × Clk := (s.pending, s.nv, s.clk)

theorem kept_eta (s : State) : (s.pending, s.nv, s.clk) = s.kept := rfl

theorem kept_mk (a1 : Nat) (p : List Instr) (a3 : Clk) (a4 : Pins) (a5 a6 a7 : Tab Nat) (a8 a9 : WinClass)
    (a10 : Option WinOut) (a11 : Commit) (a12 : Tab Session) (a13 : List MsgOut) (a14 : EvUnit) (a15 : KeyStore)
    (n : List Host.Cell) (a17 : NvUnit) (a18 : Pwr) (a19 : Rekey) (a20 : Pool) (a21 : Tab Media) (a22 : Nat) (a23 : Jack)
    (a24 : TagCache) (a25 : Tab LinkSt) (a26 a27 : Tab Acct) (a28 : Tab Nat) (a29 : Repair) :
    State.kept ⟨a1, p, a3, a4, a5, a6, a7, a8, a9, a10, a11, a12, a13, a14, a15, n, a17, a18, a19, a20, a21, a22, a23, a24,
      a25, a26, a27, a28, a29⟩ = (p, n, a3) := rfl

theorem foldl_kept {α : Type} (f : State → α → State) (h : ∀ s x, (f s x).kept = s.kept) (l : List α) (s : State) :
    (l.foldl f s).kept = s.kept := by
  induction l generalizing s with
  | nil => rfl
  | cons x t ih => simp only [List.foldl_cons, ih, h]

theorem takeFree_kept (s : State) :
    (takeFree s).2.kept = s.kept := by
  unfold takeFree
  simp only [kept_mk, kept_eta]

theorem takeFree_of {s : State} {pp} (h : takeFree s = pp) : pp.2.kept = s.kept := h ▸ takeFree_kept s

theorem cfgPut_kept (idx sub row v : Nat) (s : State) :
    (cfgPut idx sub row v s).kept = s.kept := by
  unfold cfgPut
  simp only [kept_mk, kept_eta]

theorem regPut_kept (idx sub row v : Nat) (s : State) :
    (regPut idx sub row v s).kept = s.kept := by
  unfold regPut
  simp only [kept_mk, kept_eta]

theorem countUp_kept (idx sub row n : Nat) (s : State) :
    (countUp idx sub row n s).kept = s.kept := by
  unfold countUp
  simp only [kept_mk, kept_eta, regPut_kept]

theorem count1_kept (idx sub row : Nat) (s : State) :
    (count1 idx sub row s).kept = s.kept := by
  unfold count1
  simp only [kept_mk, kept_eta, countUp_kept]

theorem alertSet_kept (route sev : Nat) (s : State) :
    (alertSet route sev s).kept = s.kept := by
  unfold alertSet
  (try dsimp only); (repeat' split) <;> simp only [kept_mk, kept_eta, regPut_kept]

theorem srcNote_kept (src code sev : Nat) (reportable : Bool) (s : State) :
    (srcNote src code sev reportable s).kept = s.kept := by
  unfold srcNote
  simp only [kept_mk, kept_eta, count1_kept, regPut_kept]

theorem raiseSev_kept (e : Ev) (sev src p1 p2 p3 : Nat) (s : State) :
    (raiseSev e sev src p1 p2 p3 s).kept = s.kept := by
  unfold raiseSev
  simp only [kept_mk, kept_eta, apply_ite State.kept, ite_self, srcNote_kept, alertSet_kept]

theorem raise_kept (e : Ev) (src p1 p2 p3 : Nat) (s : State) :
    (raise e src p1 p2 p3 s).kept = s.kept := by
  unfold raise
  simp only [kept_mk, kept_eta, raiseSev_kept]

theorem sumFlush_kept (s : State) (e : Nat × FrameSum) :
    (sumFlush s e).kept = s.kept := by
  unfold sumFlush
  (try dsimp only); (repeat' split) <;> simp only [kept_mk, kept_eta, raise_kept]

theorem sumAmend_kept (s : State) (e : Nat × FrameSum) :
    (sumAmend s e).kept = s.kept := by
  unfold sumAmend
  first
  | with_reducible rfl
  | ((try dsimp only); repeat' split) <;> (first | (with_reducible rfl) | (simp only [kept_mk, kept_eta, apply_ite State.kept, ite_self]; done) | (simp only [kept_mk, kept_eta, apply_ite State.kept, ite_self, foldl_kept, implies_true]; done) | (simp_all only [kept_mk, kept_eta, apply_ite State.kept, ite_self, foldl_kept, implies_true]; done))

theorem sumSet_kept (k : Nat) (f : FrameSum) (s : State) :
    (sumSet k f s).kept = s.kept := by
  unfold sumSet
  first
  | with_reducible rfl
  | ((try dsimp only); repeat' split) <;> (first | (with_reducible rfl) | (simp only [kept_mk, kept_eta, apply_ite State.kept, ite_self, sumAmend_kept, sumFlush_kept]; done) | (simp only [kept_mk, kept_eta, apply_ite State.kept, ite_self, foldl_kept, implies_true, sumAmend_kept, sumFlush_kept]; done) | (simp_all only [kept_mk, kept_eta, apply_ite State.kept, ite_self, foldl_kept, implies_true, sumAmend_kept, sumFlush_kept]; done))

theorem sumUp_kept (e : Ev) (src a b c : Nat) (s : State) :
    (sumUp e src a b c s).kept = s.kept := by
  unfold sumUp
  simp only [kept_mk, kept_eta, sumSet_kept]

theorem ctlSend_kept (code : Nat) (p1 p2 p3 : BitVec 32) (s : State) :
    (ctlSend code p1 p2 p3 s).kept = s.kept := by
  unfold ctlSend
  simp only [kept_mk, kept_eta, apply_ite State.kept, ite_self]

theorem modeSend_kept (s : State) :
    (modeSend s).kept = s.kept := by
  unfold modeSend
  simp only [kept_mk, kept_eta, ctlSend_kept]

theorem ctlAdmit_kept (n : Nat) (s : State) : (ctlAdmit n s).kept = s.kept := by
  induction n generalizing s with
  | zero => rfl
  | succ n ih =>
    unfold ctlAdmit
    (repeat' split) <;> simp only [ih, kept_mk, kept_eta]

theorem backlogPut_kept (r : EvRec) (s : State) :
    (backlogPut r s).kept = s.kept := by
  unfold backlogPut
  simp only [kept_mk, kept_eta, apply_ite State.kept, ite_self, count1_kept]

theorem recForm_kept (frame : Nat) (s : State) (e : Nat × EvAcc) :
    (recForm frame s e).kept = s.kept := by
  unfold recForm
  simp only [kept_mk, kept_eta, apply_ite State.kept, ite_self, backlogPut_kept]

theorem evClose_kept (frame : Nat) (s : State) :
    (evClose frame s).kept = s.kept := by
  unfold evClose
  (try dsimp only); (repeat' split) <;>
    simp only [kept_mk, kept_eta, apply_ite State.kept, ite_self, foldl_kept, implies_true, recForm_kept]

theorem sumsFlush_kept (s : State) :
    (sumsFlush s).kept = s.kept := by
  unfold sumsFlush
  (try dsimp only); (repeat' split) <;>
    simp only [kept_mk, kept_eta, apply_ite State.kept, ite_self, foldl_kept, implies_true, sumFlush_kept]

theorem sumsRestart_kept (s : State) :
    (sumsRestart s).kept = s.kept := by
  unfold sumsRestart
  first
  | with_reducible rfl
  | ((try dsimp only); repeat' split) <;> (first | (with_reducible rfl) | (simp only [kept_mk, kept_eta, apply_ite State.kept, ite_self]; done) | (simp only [kept_mk, kept_eta, apply_ite State.kept, ite_self, foldl_kept, implies_true]; done) | (simp_all only [kept_mk, kept_eta, apply_ite State.kept, ite_self, foldl_kept, implies_true]; done))

theorem subFlush_kept (s : State) (e : Nat × Subscr) :
    (subFlush s e).kept = s.kept := by
  unfold subFlush
  simp only [kept_mk, kept_eta, apply_ite State.kept, ite_self, raise_kept]

theorem lostFlush_kept (s : State) :
    (lostFlush s).kept = s.kept := by
  unfold lostFlush
  (try dsimp only); (repeat' split) <;> simp only [kept_mk, kept_eta, raise_kept]

theorem evFrameEnd_kept (s : State) :
    (evFrameEnd s).kept = s.kept := by
  unfold evFrameEnd
  (try dsimp only); (repeat' split) <;>
    simp only [kept_mk, kept_eta, apply_ite State.kept, ite_self, foldl_kept, implies_true, sumsFlush_kept, subFlush_kept, lostFlush_kept]

theorem warnGlitchReport_kept (s : State) :
    (warnGlitchReport s).kept = s.kept := by
  unfold warnGlitchReport
  (try dsimp only); (repeat' split) <;> simp only [kept_mk, kept_eta, raise_kept]

theorem doRecorderAccept_kept (s : State) :
    (doRecorderAccept s).kept = s.kept := by
  unfold doRecorderAccept
  (try dsimp only); (repeat' split) <;> simp only [kept_mk, kept_eta, count1_kept, ctlAdmit_kept]

theorem recorderClear_kept (mki : Nat) (s : State) :
    (recorderClear mki s).kept = s.kept := by
  unfold recorderClear
  (try dsimp only); (repeat' split) <;> simp only [kept_mk, kept_eta, ctlSend_kept]

theorem doRecorderClearAck_kept (s : State) :
    (doRecorderClearAck s).kept = s.kept := by
  unfold doRecorderClearAck
  (try dsimp only); (repeat' split) <;> simp only [kept_mk, kept_eta, raise_kept]

theorem doRecOnlineChange_kept (online : Bool) (s : State) :
    (doRecOnlineChange online s).kept = s.kept := by
  unfold doRecOnlineChange
  simp only [kept_mk, kept_eta, apply_ite State.kept, ite_self, regPut_kept, modeSend_kept]

theorem slotPut_kept (kidx : Nat) (x : Slot) (s : State) :
    (slotPut kidx x s).kept = s.kept := by
  unfold slotPut
  simp only [kept_mk, kept_eta]

theorem ctxPut_kept (c : Nat) (x : Ctx) (s : State) :
    (ctxPut c x s).kept = s.kept := by
  unfold ctxPut
  simp only [kept_mk, kept_eta]

theorem nvNote_kept (a cause : Nat) (s : State) :
    (nvNote a cause s).kept = s.kept := by
  unfold nvNote
  simp only [kept_mk, kept_eta, raise_kept, countUp_kept]

theorem selNote_kept (r : Option Nat × Bool) (s : State) :
    (selNote r s).kept = s.kept := by
  unfold selNote
  first
  | with_reducible rfl
  | ((try dsimp only); repeat' split) <;> (first | (with_reducible rfl) | (simp only [kept_mk, kept_eta, apply_ite State.kept, ite_self, nvNote_kept]; done) | (simp only [kept_mk, kept_eta, apply_ite State.kept, ite_self, foldl_kept, implies_true, nvNote_kept]; done) | (simp_all only [kept_mk, kept_eta, apply_ite State.kept, ite_self, foldl_kept, implies_true, nvNote_kept]; done))

theorem jobNote_kept (s : State) (j : NvJob) :
    (jobNote s j).kept = s.kept := by
  unfold jobNote
  first
  | with_reducible rfl
  | ((try dsimp only); repeat' split) <;> (first | (with_reducible rfl) | (simp only [kept_mk, kept_eta, apply_ite State.kept, ite_self, selNote_kept]; done) | (simp only [kept_mk, kept_eta, apply_ite State.kept, ite_self, foldl_kept, implies_true, selNote_kept]; done) | (simp_all only [kept_mk, kept_eta, apply_ite State.kept, ite_self, foldl_kept, implies_true, selNote_kept]; done))

theorem nvKick_kept (s : State) :
    (nvKick s).kept = s.kept := by
  unfold nvKick
  first
  | with_reducible rfl
  | ((try dsimp only); repeat' split) <;> (first | (with_reducible rfl) | (simp only [kept_mk, kept_eta, apply_ite State.kept, ite_self, jobNote_kept]; done) | (simp only [kept_mk, kept_eta, apply_ite State.kept, ite_self, foldl_kept, implies_true, jobNote_kept]; done) | (simp_all only [kept_mk, kept_eta, apply_ite State.kept, ite_self, foldl_kept, implies_true, jobNote_kept]; done))

theorem nvPush_kept (j : NvJob) (s : State) :
    (nvPush j s).kept = s.kept := by
  unfold nvPush
  simp only [kept_mk, kept_eta, apply_ite State.kept, ite_self, nvKick_kept]

theorem imageDrop_kept (s : State) :
    (imageDrop s).kept = s.kept := by
  unfold imageDrop
  simp only [kept_mk, kept_eta]

theorem imageStart_kept (s : State) :
    (imageStart s).kept = s.kept := by
  unfold imageStart
  (try dsimp only); (repeat' split) <;> simp only [kept_mk, kept_eta, selNote_kept, imageDrop_kept, nvKick_kept]

theorem imageCatch_kept (s : State) :
    (imageCatch s).kept = s.kept := by
  unfold imageCatch
  simp only [kept_mk, kept_eta, apply_ite State.kept, ite_self, imageStart_kept]

theorem nvConfirm_kept (act : NvAct) (s : State) :
    (nvConfirm act s).kept = s.kept := by
  unfold nvConfirm
  (try dsimp only); (repeat' split) <;> simp only [kept_mk, kept_eta, ctxPut_kept, imageCatch_kept]

theorem nvJobDone_kept (s : State) (j : NvJob) :
    (nvJobDone s j).kept = s.kept := by
  unfold nvJobDone
  (try dsimp only); (repeat' split) <;> simp only [kept_mk, kept_eta, regPut_kept, nvConfirm_kept]

theorem nvRetry_kept (p : NvPage) (s : State) :
    (nvRetry p s).kept = s.kept := by
  unfold nvRetry
  simp only [kept_mk, kept_eta, apply_ite State.kept, ite_self, count1_kept, raise_kept, regPut_kept, nvKick_kept]

theorem grantReset_kept (kidx : Nat) (s : State) :
    (grantReset kidx s).kept = s.kept := by
  unfold grantReset
  (try dsimp only); (repeat' split) <;>
    simp only [kept_mk, kept_eta, apply_ite State.kept, ite_self, foldl_kept, implies_true, cfgPut_kept]

theorem slotErase_kept (kidx : Nat) (s : State) :
    (slotErase kidx s).kept = s.kept := by
  unfold slotErase
  (try dsimp only); (repeat' split) <;> simp only [kept_mk, kept_eta, grantReset_kept, slotPut_kept]

theorem slotZeroize_kept (kidx : Nat) (s : State) :
    (slotZeroize kidx s).kept = s.kept := by
  unfold slotZeroize
  first
  | with_reducible rfl
  | ((try dsimp only); repeat' split) <;> (first | (with_reducible rfl) | (simp only [kept_mk, kept_eta, apply_ite State.kept, ite_self, slotPut_kept, slotErase_kept]; done) | (simp only [kept_mk, kept_eta, apply_ite State.kept, ite_self, foldl_kept, implies_true, slotPut_kept, slotErase_kept]; done) | (simp_all only [kept_mk, kept_eta, apply_ite State.kept, ite_self, foldl_kept, implies_true, slotPut_kept, slotErase_kept]; done))

theorem rkEnqueue_kept (kidx cause : Nat) (s : State) :
    (rkEnqueue kidx cause s).kept = s.kept := by
  unfold rkEnqueue
  simp only [kept_mk, kept_eta, apply_ite State.kept, ite_self]

theorem rkDequeue_kept (kidx cause : Nat) (s : State) :
    (rkDequeue kidx cause s).kept = s.kept := by
  unfold rkDequeue
  simp only [kept_mk, kept_eta]

theorem rkClearQueue_kept (kidx : Nat) (s : State) :
    (rkClearQueue kidx s).kept = s.kept := by
  unfold rkClearQueue
  simp only [kept_mk, kept_eta]

theorem kpRespond_kept (opc : Byte) (k : KpCmd) (res : Byte) (v : BitVec 24) (s : State) :
    (kpRespond opc k res v s).kept = s.kept := by
  unfold kpRespond
  simp only [kept_mk, kept_eta]

theorem kpRefuse_kept (opc : Byte) (k : KpCmd) (res : Byte) (s : State) :
    (kpRefuse opc k res s).kept = s.kept := by
  unfold kpRefuse
  simp only [kept_mk, kept_eta, kpRespond_kept, count1_kept, raise_kept]

theorem kpDone_kept (opc : Byte) (k : KpCmd) (v : BitVec 24) (s0 s : State) :
    (kpDone opc k v s0 s).kept = s.kept := by
  unfold kpDone
  simp only [kept_mk, kept_eta, count1_kept, kpRespond_kept]

theorem kpEarlyDo_kept (opc : Byte) (k : KpCmd) (res : Byte) (s : State) :
    (kpEarlyDo opc k res s).kept = s.kept := by
  unfold kpEarlyDo
  simp only [kept_mk, kept_eta, apply_ite State.kept, ite_self, kpRespond_kept, kpRefuse_kept]

theorem doLoadKek_kept (k : KpCmd) (s : State) :
    (doLoadKek k s).kept = s.kept := by
  unfold doLoadKek
  (try dsimp only); (repeat' split) <;> simp only [kept_mk, kept_eta, kpEarlyDo_kept, kpRefuse_kept, kpDone_kept]

theorem doLoadMgmtKey_kept (k : KpCmd) (s : State) :
    (doLoadMgmtKey k s).kept = s.kept := by
  unfold doLoadMgmtKey
  (try dsimp only); (repeat' split) <;> simp only [kept_mk, kept_eta, kpEarlyDo_kept, kpRefuse_kept, kpDone_kept]

theorem keyInstall_kept (adm : KeyAdmit) (kidx : Nat) (toB : Bool) (key : Key) (s : State) :
    (keyInstall adm kidx toB key s).kept = s.kept := by
  unfold keyInstall
  (try dsimp only); (repeat' split) <;> simp only [kept_mk, kept_eta, slotPut_kept, nvPush_kept]

theorem doLoadKey_kept (k : KpCmd) (s : State) :
    (doLoadKey k s).kept = s.kept := by
  unfold doLoadKey
  (try dsimp only); (repeat' split) <;> simp only [kept_mk, kept_eta, kpEarlyDo_kept, kpRefuse_kept, kpDone_kept, keyInstall_kept]

theorem doEraseSlot_kept (k : KpCmd) (s : State) :
    (doEraseSlot k s).kept = s.kept := by
  unfold doEraseSlot
  (try dsimp only); (repeat' split) <;> simp only [kept_mk, kept_eta, kpEarlyDo_kept, kpDone_kept, slotErase_kept]

theorem doQueryKcv_kept (k : KpCmd) (s : State) :
    (doQueryKcv k s).kept = s.kept := by
  unfold doQueryKcv
  (try dsimp only); (repeat' split) <;> simp only [kept_mk, kept_eta, kpEarlyDo_kept, kpRefuse_kept, kpDone_kept]

theorem slotActivate_kept (kidx : Nat) (s : State) :
    (slotActivate kidx s).kept = s.kept := by
  unfold slotActivate
  simp only [kept_mk, kept_eta, apply_ite State.kept, ite_self, nvPush_kept]

theorem slotDiscard_kept (kidx : Nat) (s : State) :
    (slotDiscard kidx s).kept = s.kept := by
  unfold slotDiscard
  simp only [kept_mk, kept_eta, slotPut_kept, grantReset_kept]

theorem slotRetire_kept (kidx : Nat) (s : State) :
    (slotRetire kidx s).kept = s.kept := by
  unfold slotRetire
  simp only [kept_mk, kept_eta, nvPush_kept]

theorem slotSpent_kept (kidx : Nat) (s : State) :
    (slotSpent kidx s).kept = s.kept := by
  unfold slotSpent
  simp only [kept_mk, kept_eta, nvPush_kept]

theorem nvForget_kept (a : NvAct) (s : State) :
    (nvForget a s).kept = s.kept := by
  unfold nvForget
  first
  | with_reducible rfl
  | ((try dsimp only); repeat' split) <;> (first | (with_reducible rfl) | (simp only [kept_mk, kept_eta, apply_ite State.kept, ite_self]; done) | (simp only [kept_mk, kept_eta, apply_ite State.kept, ite_self, foldl_kept, implies_true]; done) | (simp_all only [kept_mk, kept_eta, apply_ite State.kept, ite_self, foldl_kept, implies_true]; done))

theorem kpUndo_kept (opc : Nat) (l : KpLast) (s : State) :
    (kpUndo opc l s).kept = s.kept := by
  unfold kpUndo
  first
  | with_reducible rfl
  | ((try dsimp only); repeat' split) <;> (first | (with_reducible rfl) | (simp only [kept_mk, kept_eta, apply_ite State.kept, ite_self, slotPut_kept, nvForget_kept]; done) | (simp only [kept_mk, kept_eta, apply_ite State.kept, ite_self, foldl_kept, implies_true, slotPut_kept, nvForget_kept]; done) | (simp_all only [kept_mk, kept_eta, apply_ite State.kept, ite_self, foldl_kept, implies_true, slotPut_kept, nvForget_kept]; done))

theorem kpAbort_kept (s : State) :
    (kpAbort s).kept = s.kept := by
  unfold kpAbort
  first
  | with_reducible rfl
  | ((try dsimp only); repeat' split) <;> (first | (with_reducible rfl) | (simp only [kept_mk, kept_eta, apply_ite State.kept, ite_self, kpRefuse_kept, regPut_kept, kpUndo_kept]; done) | (simp only [kept_mk, kept_eta, apply_ite State.kept, ite_self, foldl_kept, implies_true, kpRefuse_kept, regPut_kept, kpUndo_kept]; done) | (simp_all only [kept_mk, kept_eta, apply_ite State.kept, ite_self, foldl_kept, implies_true, kpRefuse_kept, regPut_kept, kpUndo_kept]; done))

theorem linkPut_kept (p : Nat) (x : LinkSt) (s : State) :
    (linkPut p x s).kept = s.kept := by
  unfold linkPut
  simp only [kept_mk, kept_eta]

theorem linkMod_kept (p : Nat) (f : LinkSt → LinkSt) (s : State) :
    (linkMod p f s).kept = s.kept := by
  unfold linkMod
  simp only [kept_mk, kept_eta, linkPut_kept]

theorem creditRaise_kept (k : Nat) (s : State) :
    (creditRaise k s).kept = s.kept := by
  unfold creditRaise
  (try dsimp only); (repeat' split) <;> simp only [kept_mk, kept_eta]

theorem eqPut_kept (p : Nat) (l : List Rsp) (s : State) :
    (eqPut p l s).kept = s.kept := by
  unfold eqPut
  simp only [kept_mk, kept_eta]

theorem partnerLink_kept (p : Nat) (r : Rsp) (s : State) :
    (partnerLink p r s).kept = s.kept := by
  unfold partnerLink
  first
  | with_reducible rfl
  | ((try dsimp only); repeat' split) <;> (first | (with_reducible rfl) | (simp only [kept_mk, kept_eta, apply_ite State.kept, ite_self, eqPut_kept]; done) | (simp only [kept_mk, kept_eta, apply_ite State.kept, ite_self, foldl_kept, implies_true, eqPut_kept]; done) | (simp_all only [kept_mk, kept_eta, apply_ite State.kept, ite_self, foldl_kept, implies_true, eqPut_kept]; done))

theorem partnerPush_kept (p : Nat) (r : Rsp) (s : State) :
    (partnerPush p r s).kept = s.kept := by
  unfold partnerPush
  first
  | with_reducible rfl
  | ((try dsimp only); repeat' split) <;> (first | (with_reducible rfl) | (simp only [kept_mk, kept_eta, apply_ite State.kept, ite_self, partnerLink_kept, linkMod_kept]; done) | (simp only [kept_mk, kept_eta, apply_ite State.kept, ite_self, foldl_kept, implies_true, partnerLink_kept, linkMod_kept]; done) | (simp_all only [kept_mk, kept_eta, apply_ite State.kept, ite_self, foldl_kept, implies_true, partnerLink_kept, linkMod_kept]; done))

theorem partnerFeed_kept (n p : Nat) (s : State) : (partnerFeed n p s).kept = s.kept := by
  induction n generalizing s with
  | zero => rfl
  | succ n ih =>
    unfold partnerFeed
    (repeat' split) <;> simp only [ih, partnerLink_kept, linkMod_kept]

theorem grantSend_kept (n p : Nat) (ks : List Nat) (s : State) : (grantSend n p ks s).kept = s.kept := by
  induction n generalizing ks s with
  | zero => rfl
  | succ n ih =>
    unfold grantSend
    split
    · rfl
    · simp only [ih, partnerPush_kept, kept_mk, kept_eta]

theorem grantBatch_kept (p : Nat) (s : State) :
    (grantBatch p s).kept = s.kept := by
  unfold grantBatch
  simp only [kept_mk, kept_eta, apply_ite State.kept, ite_self, grantSend_kept]

theorem creditRaiseAll_kept (s : State) :
    (creditRaiseAll s).kept = s.kept := by
  unfold creditRaiseAll
  (try dsimp only); (repeat' split) <;>
    simp only [kept_mk, kept_eta, apply_ite State.kept, ite_self, foldl_kept, implies_true, creditRaise_kept, grantBatch_kept]

theorem creditSettle_kept (p k : Nat) (s : State) :
    (creditSettle p k s).kept = s.kept := by
  unfold creditSettle
  first
  | with_reducible rfl
  | ((try dsimp only); repeat' split) <;> (first | (with_reducible rfl) | (simp only [kept_mk, kept_eta, apply_ite State.kept, ite_self, creditRaise_kept, creditRaiseAll_kept, grantBatch_kept]; done) | (simp only [kept_mk, kept_eta, apply_ite State.kept, ite_self, foldl_kept, implies_true, creditRaise_kept, creditRaiseAll_kept, grantBatch_kept]; done) | (simp_all only [kept_mk, kept_eta, apply_ite State.kept, ite_self, foldl_kept, implies_true, creditRaise_kept, creditRaiseAll_kept, grantBatch_kept]; done))

theorem creditRelease_kept (p sid n : Nat) (s : State) :
    (creditRelease p sid n s).kept = s.kept := by
  unfold creditRelease
  (try dsimp only); (repeat' split) <;> simp only [kept_mk, kept_eta, creditSettle_kept]

theorem linkFate_kept (p : Nat) (f : FateEnt) (s : State) :
    (linkFate p f s).kept = s.kept := by
  unfold linkFate
  simp only [kept_mk, kept_eta, linkMod_kept]

theorem fateDrop_kept (p : Nat) (tag : BitVec 16) (s : State) :
    (fateDrop p tag s).kept = s.kept := by
  unfold fateDrop
  simp only [kept_mk, kept_eta, linkMod_kept]

theorem linkDropPool_kept (p : Nat) (s : State) :
    (linkDropPool p s).kept = s.kept := by
  unfold linkDropPool
  (try dsimp only); (repeat' split) <;>
    simp only [kept_mk, kept_eta, apply_ite State.kept, ite_self, foldl_kept, implies_true, linkPut_kept, creditRelease_kept, eqPut_kept]

theorem linkDown_kept (p cause : Nat) (s : State) :
    (linkDown p cause s).kept = s.kept := by
  unfold linkDown
  simp only [kept_mk, kept_eta, raise_kept, count1_kept, regPut_kept, linkDropPool_kept, linkMod_kept]

theorem queueNewId_kept (q : Nat) (s : State) :
    (queueNewId q s).2.kept = s.kept := by
  unfold queueNewId
  (try dsimp only); (repeat' split) <;> simp only [kept_mk, kept_eta]

theorem queueNewId_of {q : Nat} {s : State} {pp} (h : queueNewId q s = pp) : pp.2.kept = s.kept := h ▸ queueNewId_kept q s

theorem ptrMend_kept (q : Nat) (s : State) :
    (ptrMend q s).kept = s.kept := by
  unfold ptrMend
  first
  | with_reducible rfl
  | ((try dsimp only); repeat' split) <;> (first | (with_reducible rfl) | (simp only [kept_mk, kept_eta, apply_ite State.kept, ite_self]; done) | (simp only [kept_mk, kept_eta, apply_ite State.kept, ite_self, foldl_kept, implies_true]; done) | (simp_all only [kept_mk, kept_eta, apply_ite State.kept, ite_self, foldl_kept, implies_true]; done))

theorem egressStuck_kept (p : Nat) (s : State) :
    (egressStuck p s).kept = s.kept := by
  unfold egressStuck
  first
  | with_reducible rfl
  | ((try dsimp only); repeat' split) <;> (first | (with_reducible rfl) | (simp only [kept_mk, kept_eta, apply_ite State.kept, ite_self, linkFate_kept, eqPut_kept]; done) | (simp only [kept_mk, kept_eta, apply_ite State.kept, ite_self, foldl_kept, implies_true, linkFate_kept, eqPut_kept]; done) | (simp_all only [kept_mk, kept_eta, apply_ite State.kept, ite_self, foldl_kept, implies_true, linkFate_kept, eqPut_kept]; done))

theorem egressReset_kept (q field : Nat) (s : State) :
    (egressReset q field s).kept = s.kept := by
  unfold egressReset
  first
  | with_reducible rfl
  | ((try dsimp only); repeat' split) <;> (first | (with_reducible rfl) | (simp only [kept_mk, kept_eta, apply_ite State.kept, ite_self, raise_kept, count1_kept, ptrMend_kept, queueNewId_kept, egressStuck_kept, linkDown_kept]; done) | ((try have hk_queueNewId := queueNewId_of (by assumption : queueNewId _ _ = _)); simp_all only [kept_mk, kept_eta, apply_ite State.kept, foldl_kept, ite_self, raise_kept, count1_kept, ptrMend_kept, queueNewId_kept, egressStuck_kept, linkDown_kept]; done) | (simp only [kept_mk, kept_eta, apply_ite State.kept, ite_self, foldl_kept, implies_true, raise_kept, count1_kept, ptrMend_kept, queueNewId_kept, egressStuck_kept, linkDown_kept]; done) | (simp_all only [kept_mk, kept_eta, apply_ite State.kept, ite_self, foldl_kept, implies_true, raise_kept, count1_kept, ptrMend_kept, queueNewId_kept, egressStuck_kept, linkDown_kept]; done))

theorem eqJoin_kept (p : Nat) (r : Rsp) (s : State) :
    (eqJoin p r s).kept = s.kept := by
  unfold eqJoin
  first
  | with_reducible rfl
  | ((try dsimp only); repeat' split) <;> (first | (with_reducible rfl) | (simp only [kept_mk, kept_eta, apply_ite State.kept, ite_self, eqPut_kept, egressReset_kept]; done) | (simp only [kept_mk, kept_eta, apply_ite State.kept, ite_self, foldl_kept, implies_true, eqPut_kept, egressReset_kept]; done) | (simp_all only [kept_mk, kept_eta, apply_ite State.kept, ite_self, foldl_kept, implies_true, eqPut_kept, egressReset_kept]; done))

theorem masterRespond_kept (n : Nat) (r : Rsp) (s : State) :
    (masterRespond n r s).kept = s.kept := by
  unfold masterRespond
  first
  | with_reducible rfl
  | ((try dsimp only); repeat' split) <;> (first | (with_reducible rfl) | (simp only [kept_mk, kept_eta, apply_ite State.kept, ite_self]; done) | (simp only [kept_mk, kept_eta, apply_ite State.kept, ite_self, foldl_kept, implies_true]; done) | (simp_all only [kept_mk, kept_eta, apply_ite State.kept, ite_self, foldl_kept, implies_true]; done))

theorem rspSend_kept (src : Src) (sid : BitVec 12) (gone : Bool) (r : Rsp) (cells : Nat) (s : State) :
    (rspSend src sid gone r cells s).kept = s.kept := by
  unfold rspSend
  (try dsimp only); (repeat' split) <;> simp only [kept_mk, kept_eta, linkFate_kept, creditRelease_kept, eqJoin_kept, masterRespond_kept]

theorem rspStats_kept (src : Src) (op : ReqOp) (status : Nat) (s : State) :
    (rspStats src op status s).kept = s.kept := by
  unfold rspStats
  (try dsimp only); (repeat' split) <;> simp only [kept_mk, kept_eta, count1_kept]

theorem complete_kept (it : Item) (status : Nat) (data : Option Line) (psn : Bool) (extra : Side) (cells : Nat) (s : State) :
    (complete it status data psn extra cells s).kept = s.kept := by
  unfold complete
  simp only [kept_mk, kept_eta, rspSend_kept, rspStats_kept]

theorem completeBare_kept (it : Item) (status cells : Nat) (s : State) :
    (completeBare it status cells s).kept = s.kept := by
  unfold completeBare
  simp only [kept_mk, kept_eta, complete_kept]

theorem mediaPut_kept (m : Nat) (x : Media) (s : State) :
    (mediaPut m x s).kept = s.kept := by
  unfold mediaPut
  simp only [kept_mk, kept_eta]

theorem mediaMod_kept (m : Nat) (f : Media → Media) (s : State) :
    (mediaMod m f s).kept = s.kept := by
  unfold mediaMod
  simp only [kept_mk, kept_eta, mediaPut_kept]

theorem refuseEvent_kept (src : Src) (h : Hdr) (step status : Nat) (s : State) :
    (refuseEvent src h step status s).kept = s.kept := by
  unfold refuseEvent
  (try dsimp only); (repeat' split) <;> simp only [kept_mk, kept_eta, raise_kept]

theorem slotError_kept (src : Src) (cause pos opc tag : Nat) (s : State) :
    (slotError src cause pos opc tag s).kept = s.kept := by
  unfold slotError
  (try dsimp only); (repeat' split) <;> simp only [kept_mk, kept_eta, count1_kept, linkDown_kept, raise_kept, linkFate_kept]

theorem creditTake_kept (src : Src) (sid : BitVec 12) (cells : Nat) (s : State) :
    (creditTake src sid cells s).kept = s.kept := by
  unfold creditTake
  (try dsimp only); (repeat' split) <;> simp only [kept_mk, kept_eta]

theorem creditCut_kept (src : Src) (sid : BitVec 12) (cells : Nat) (s : State) :
    (creditCut src sid cells s).kept = s.kept := by
  unfold creditCut
  first
  | with_reducible rfl
  | ((try dsimp only); repeat' split) <;> (first | (with_reducible rfl) | (simp only [kept_mk, kept_eta, apply_ite State.kept, ite_self, creditSettle_kept]; done) | (simp only [kept_mk, kept_eta, apply_ite State.kept, ite_self, foldl_kept, implies_true, creditSettle_kept]; done) | (simp_all only [kept_mk, kept_eta, apply_ite State.kept, ite_self, foldl_kept, implies_true, creditSettle_kept]; done))

theorem creditOverrun_kept (p : Fin 128) (sid : BitVec 12) (cost : Nat) (tag : Option (BitVec 16)) (s : State) :
    (creditOverrun p sid cost tag s).kept = s.kept := by
  unfold creditOverrun
  (try dsimp only); (repeat' split) <;> simp only [kept_mk, kept_eta, raise_kept, count1_kept, linkDown_kept, linkFate_kept]

theorem orphanAdd_kept (i : Item) (s : State) :
    (orphanAdd i s).kept = s.kept := by
  unfold orphanAdd
  first
  | with_reducible rfl
  | ((try dsimp only); repeat' split) <;> (first | (with_reducible rfl) | (simp only [kept_mk, kept_eta, apply_ite State.kept, ite_self]; done) | (simp only [kept_mk, kept_eta, apply_ite State.kept, ite_self, foldl_kept, implies_true]; done) | (simp_all only [kept_mk, kept_eta, apply_ite State.kept, ite_self, foldl_kept, implies_true]; done))

theorem orphanDrop_kept (s : State) (o : Orphan) :
    (orphanDrop s o).kept = s.kept := by
  unfold orphanDrop
  first
  | with_reducible rfl
  | ((try dsimp only); repeat' split) <;> (first | (with_reducible rfl) | (simp only [kept_mk, kept_eta, apply_ite State.kept, ite_self, count1_kept, creditRelease_kept]; done) | (simp only [kept_mk, kept_eta, apply_ite State.kept, ite_self, foldl_kept, implies_true, count1_kept, creditRelease_kept]; done) | (simp_all only [kept_mk, kept_eta, apply_ite State.kept, ite_self, foldl_kept, implies_true, count1_kept, creditRelease_kept]; done))

theorem orphansDue_kept (t : Nat) (s : State) :
    (orphansDue t s).kept = s.kept := by
  unfold orphansDue
  first
  | with_reducible rfl
  | ((try dsimp only); repeat' split) <;> (first | (with_reducible rfl) | (simp only [kept_mk, kept_eta, apply_ite State.kept, ite_self, orphanDrop_kept]; done) | (simp only [kept_mk, kept_eta, apply_ite State.kept, ite_self, foldl_kept, implies_true, orphanDrop_kept]; done) | (simp_all only [kept_mk, kept_eta, apply_ite State.kept, ite_self, foldl_kept, implies_true, orphanDrop_kept]; done))

theorem itemOut_kept (i : Item) (status : Nat) (s : State) :
    (itemOut i status s).kept = s.kept := by
  unfold itemOut
  first
  | with_reducible rfl
  | ((try dsimp only); repeat' split) <;> (first | (with_reducible rfl) | (simp only [kept_mk, kept_eta, apply_ite State.kept, ite_self, completeBare_kept, orphanAdd_kept]; done) | (simp only [kept_mk, kept_eta, apply_ite State.kept, ite_self, foldl_kept, implies_true, completeBare_kept, orphanAdd_kept]; done) | (simp_all only [kept_mk, kept_eta, apply_ite State.kept, ite_self, foldl_kept, implies_true, completeBare_kept, orphanAdd_kept]; done))

theorem itemFlushed_kept (i : Item) (s : State) :
    (itemFlushed i s).kept = s.kept := by
  unfold itemFlushed
  simp only [kept_mk, kept_eta, itemOut_kept, count1_kept]

theorem stickySet_kept (q : Nat) (src : Src) (s : State) :
    (stickySet q src s).kept = s.kept := by
  unfold stickySet
  (try dsimp only); (repeat' split) <;> simp only [kept_mk, kept_eta]

theorem stickyTrim_kept (q : Nat) (s : State) :
    (stickyTrim q s).kept = s.kept := by
  unfold stickyTrim
  simp only [kept_mk, kept_eta, apply_ite State.kept, ite_self]

theorem ingressReset_kept (q field : Nat) (s : State) :
    (ingressReset q field s).kept = s.kept := by
  unfold ingressReset
  first
  | with_reducible rfl
  | ((try dsimp only); repeat' split) <;> (first | (with_reducible rfl) | (simp only [kept_mk, kept_eta, apply_ite State.kept, ite_self, raise_kept, count1_kept, ptrMend_kept, orphanAdd_kept, queueNewId_kept, stickyTrim_kept]; done) | ((try have hk_queueNewId := queueNewId_of (by assumption : queueNewId _ _ = _)); simp_all only [kept_mk, kept_eta, apply_ite State.kept, foldl_kept, ite_self, raise_kept, count1_kept, ptrMend_kept, orphanAdd_kept, queueNewId_kept, stickyTrim_kept]; done) | (simp only [kept_mk, kept_eta, apply_ite State.kept, ite_self, foldl_kept, implies_true, raise_kept, count1_kept, ptrMend_kept, orphanAdd_kept, queueNewId_kept, stickyTrim_kept]; done) | (simp_all only [kept_mk, kept_eta, apply_ite State.kept, ite_self, foldl_kept, implies_true, raise_kept, count1_kept, ptrMend_kept, orphanAdd_kept, queueNewId_kept, stickyTrim_kept]; done))

theorem queueReset_kept (q field : Nat) (s : State) :
    (queueReset q field s).kept = s.kept := by
  unfold queueReset
  simp only [kept_mk, kept_eta, apply_ite State.kept, ite_self, ingressReset_kept, egressReset_kept]

theorem itemJoin_kept (i : Item) (s : State) :
    (itemJoin i s).kept = s.kept := by
  unfold itemJoin
  first
  | with_reducible rfl
  | ((try dsimp only); repeat' split) <;> (first | (with_reducible rfl) | (simp only [kept_mk, kept_eta, apply_ite State.kept, ite_self, stickySet_kept, queueReset_kept]; done) | (simp only [kept_mk, kept_eta, apply_ite State.kept, ite_self, foldl_kept, implies_true, stickySet_kept, queueReset_kept]; done) | (simp_all only [kept_mk, kept_eta, apply_ite State.kept, ite_self, foldl_kept, implies_true, stickySet_kept, queueReset_kept]; done))

theorem enqueueItem_kept (i : Item) (s : State) :
    (enqueueItem i s).kept = s.kept := by
  unfold enqueueItem
  simp only [kept_mk, kept_eta, apply_ite State.kept, ite_self, itemFlushed_kept, completeBare_kept, itemJoin_kept]

theorem landFlush_kept (t0 : Nat) (s : State) :
    (landFlush t0 s).kept = s.kept := by
  unfold landFlush
  first
  | with_reducible rfl
  | ((try dsimp only); repeat' split) <;> (first | (with_reducible rfl) | (simp only [kept_mk, kept_eta, apply_ite State.kept, ite_self, itemFlushed_kept, stickyTrim_kept]; done) | (simp only [kept_mk, kept_eta, apply_ite State.kept, ite_self, foldl_kept, implies_true, itemFlushed_kept, stickyTrim_kept]; done) | (simp_all only [kept_mk, kept_eta, apply_ite State.kept, ite_self, foldl_kept, implies_true, itemFlushed_kept, stickyTrim_kept]; done))

theorem refuseReq_kept (i : Item) (step status : Nat) (s : State) :
    (refuseReq i step status s).kept = s.kept := by
  unfold refuseReq
  (try dsimp only); (repeat' split) <;> simp only [kept_mk, kept_eta, count1_kept, completeBare_kept, refuseEvent_kept]

theorem takeArr_kept (s : State) :
    (takeArr s).2.kept = s.kept := by
  unfold takeArr
  simp only [kept_mk, kept_eta]

theorem takeArr_of {s : State} {pp} (h : takeArr s = pp) : pp.2.kept = s.kept := h ▸ takeArr_kept s

theorem reqError_kept (src : Src) (cause pos opc cells : Nat) (h : Hdr) (s : State) :
    (reqError src cause pos opc cells h s).kept = s.kept := by
  unfold reqError
  first
  | with_reducible rfl
  | ((try dsimp only); repeat' split) <;> (first | (with_reducible rfl) | (simp only [kept_mk, kept_eta, apply_ite State.kept, ite_self, slotError_kept, creditCut_kept]; done) | (simp only [kept_mk, kept_eta, apply_ite State.kept, ite_self, foldl_kept, implies_true, slotError_kept, creditCut_kept]; done) | (simp_all only [kept_mk, kept_eta, apply_ite State.kept, ite_self, foldl_kept, implies_true, slotError_kept, creditCut_kept]; done))

theorem tagAnew_kept (src : Src) (tag : BitVec 16) (s : State) :
    (tagAnew src tag s).kept = s.kept := by
  unfold tagAnew
  first
  | with_reducible rfl
  | ((try dsimp only); repeat' split) <;> (first | (with_reducible rfl) | (simp only [kept_mk, kept_eta, apply_ite State.kept, ite_self, fateDrop_kept]; done) | (simp only [kept_mk, kept_eta, apply_ite State.kept, ite_self, foldl_kept, implies_true, fateDrop_kept]; done) | (simp_all only [kept_mk, kept_eta, apply_ite State.kept, ite_self, foldl_kept, implies_true, fateDrop_kept]; done))

theorem reqReceive_kept (src : Src) (op : ReqOp) (h : Hdr) (psn : Bool) (ext : Side) (data : Line) (pos : Nat) (s : State) :
    (reqReceive src op h psn ext data pos s).kept = s.kept := by
  unfold reqReceive
  (try dsimp only); (repeat' split) <;> simp only [kept_mk, kept_eta, reqError_kept, creditOverrun_kept, takeArr_kept, creditTake_kept, tagAnew_kept, refuseReq_kept, count1_kept, raise_kept, enqueueItem_kept]

theorem fenceReceive_kept (src : Src) (h : Hdr) (pos : Nat) (s : State) :
    (fenceReceive src h pos s).kept = s.kept := by
  unfold fenceReceive
  (try dsimp only); (repeat' split) <;> simp only [kept_mk, kept_eta, reqError_kept, creditOverrun_kept, takeArr_kept, creditTake_kept, tagAnew_kept, count1_kept, rspSend_kept, refuseEvent_kept, raise_kept]

theorem fenceDone_kept (f : FenceEnt) (s : State) :
    (fenceDone f s).kept = s.kept := by
  unfold fenceDone
  simp only [kept_mk, kept_eta, rspSend_kept, count1_kept]

theorem doFenceComplete_kept (src : Src) (sid : BitVec 12) (s : State) :
    (doFenceComplete src sid s).kept = s.kept := by
  unfold doFenceComplete
  (try dsimp only); (repeat' split) <;> simp only [kept_mk, kept_eta, fenceDone_kept]

theorem issueW_kept (m : Nat) (o : MOp) (s : State) :
    (issueW m o s).kept = s.kept := by
  unfold issueW
  simp only [kept_mk, kept_eta, mediaMod_kept]

theorem issueR_kept (m : Nat) (o : MOp) (s : State) :
    (issueR m o s).kept = s.kept := by
  unfold issueR
  simp only [kept_mk, kept_eta, mediaMod_kept]

theorem faultLow_kept (s : State) :
    (faultLow s).kept = s.kept := by
  unfold faultLow
  simp only [kept_mk, kept_eta]

theorem txnPut_kept (t : Txn) (s : State) :
    (txnPut t s).kept = s.kept := by
  unfold txnPut
  simp only [kept_mk, kept_eta]

theorem txnAdd_kept (t : Txn) (s : State) :
    (txnAdd t s).kept = s.kept := by
  unfold txnAdd
  simp only [kept_mk, kept_eta]

theorem txnDel_kept (id : Nat) (s : State) :
    (txnDel id s).kept = s.kept := by
  unfold txnDel
  simp only [kept_mk, kept_eta]

theorem jackDrop_kept (k : Nat) (s : State) :
    (jackDrop k s).kept = s.kept := by
  unfold jackDrop
  simp only [kept_mk, kept_eta]

theorem jackInvalidate_kept (a : Nat) (s : State) :
    (jackInvalidate a s).kept = s.kept := by
  unfold jackInvalidate
  (try dsimp only); (repeat' split) <;> simp only [kept_mk, kept_eta, jackDrop_kept]

theorem jackLookup_kept (kidx a : Nat) (pe : Bool) (s : State) :
    (jackLookup kidx a pe s).2.kept = s.kept := by
  unfold jackLookup
  (try dsimp only); (repeat' split) <;> simp only [kept_mk, kept_eta, raise_kept, count1_kept, jackDrop_kept]

theorem jackLookup_of {kidx a : Nat} {pe : Bool} {s : State} {pp} (h : jackLookup kidx a pe s = pp) : pp.2.kept = s.kept := h ▸ jackLookup_kept kidx a pe s

theorem jackPlace_kept (a : Nat) (s : State) :
    (jackPlace a s).2.kept = s.kept := by
  unfold jackPlace
  (try dsimp only); (repeat' split) <;> simp only [kept_mk, kept_eta, takeFree_kept]

theorem jackPlace_of {a : Nat} {s : State} {pp} (h : jackPlace a s = pp) : pp.2.kept = s.kept := h ▸ jackPlace_kept a s

theorem jackWrite_kept (a : Nat) (e : BitVec 64) (s : State) :
    (jackWrite a e s).kept = s.kept := by
  unfold jackWrite
  (try dsimp only); (repeat' split) <;>
    ((try have hk_jackPlace := jackPlace_of (by assumption : jackPlace _ _ = _)); simp_all only [kept_mk, kept_eta, apply_ite State.kept, foldl_kept, ite_self, jackPlace_kept])

theorem jackRegress_kept (kidx a : Nat) (sc : Side) (s : State) :
    (jackRegress kidx a sc s).kept = s.kept := by
  unfold jackRegress
  simp only [kept_mk, kept_eta, raise_kept, count1_kept]

theorem jackCompare_kept (kidx a : Nat) (sc : Side) (s : State) :
    (jackCompare kidx a sc s).kept = s.kept := by
  unfold jackCompare
  (try dsimp only); (repeat' split) <;> simp only [kept_mk, kept_eta, jackRegress_kept]

theorem jackFill_kept (kidx a : Nat) (sc : Side) (s : State) :
    (jackFill kidx a sc s).kept = s.kept := by
  unfold jackFill
  (try dsimp only); (repeat' split) <;> simp only [kept_mk, kept_eta, jackCompare_kept, jackWrite_kept]

theorem jackClear_kept (s : State) :
    (jackClear s).kept = s.kept := by
  unfold jackClear
  simp only [kept_mk, kept_eta]

theorem probesPut_kept (m : Nat) (l : List Probe) (s : State) :
    (probesPut m l s).kept = s.kept := by
  unfold probesPut
  simp only [kept_mk, kept_eta]

theorem probeAdd_kept (kidx a ord : Nat) (s : State) :
    (probeAdd kidx a ord s).kept = s.kept := by
  unfold probeAdd
  (try dsimp only); (repeat' split) <;> simp only [kept_mk, kept_eta, probesPut_kept]

theorem lookOne_kept (kidx a : Nat) (s : State) :
    (lookOne kidx a s).kept = s.kept := by
  unfold lookOne
  simp only [kept_mk, kept_eta, apply_ite State.kept, ite_self, count1_kept, probesPut_kept]

theorem lookAhead_kept (kidx a : Nat) (s : State) :
    (lookAhead kidx a s).kept = s.kept := by
  unfold lookAhead
  (try dsimp only); (repeat' split) <;>
    simp only [kept_mk, kept_eta, apply_ite State.kept, ite_self, foldl_kept, implies_true, lookOne_kept]

theorem probeIssue_kept (m : Nat) (want : Probe → Bool) (ctr : Nat) (s : State) :
    (probeIssue m want ctr s).kept = s.kept := by
  unfold probeIssue
  (try dsimp only); (repeat' split) <;> simp only [kept_mk, kept_eta, issueR_kept, count1_kept, probesPut_kept]

theorem probeVoid_kept (a : Nat) (s : State) :
    (probeVoid a s).kept = s.kept := by
  unfold probeVoid
  (try dsimp only); (repeat' split) <;> simp only [kept_mk, kept_eta, mediaMod_kept, probesPut_kept, probeAdd_kept]

theorem slicePut_kept (i : Nat) (x : Slice) (s : State) :
    (slicePut i x s).kept = s.kept := by
  unfold slicePut
  simp only [kept_mk, kept_eta]

theorem logAppend_kept (e : LogEnt) (s : State) :
    (logAppend e s).kept = s.kept := by
  unfold logAppend
  (try dsimp only); (repeat' split) <;> simp only [kept_mk, kept_eta, raise_kept, nvPush_kept]

theorem pipeCharge_kept (i p : Nat) (s : State) :
    (pipeCharge i p s).kept = s.kept := by
  unfold pipeCharge
  simp only [kept_mk, kept_eta, apply_ite State.kept, ite_self, count1_kept, slicePut_kept]

theorem prioCheck_kept (i d : Nat) (s : State) :
    (prioCheck i d s).kept = s.kept := by
  unfold prioCheck
  simp only [kept_mk, kept_eta, apply_ite State.kept, ite_self, slicePut_kept]

theorem prioDirection_kept (i : Nat) (dir : Dir) (s : State) :
    (prioDirection i dir s).kept = s.kept := by
  unfold prioDirection
  (try dsimp only); (repeat' split) <;>
    simp only [kept_mk, kept_eta, apply_ite State.kept, ite_self, foldl_kept, implies_true, prioCheck_kept]

theorem voteCharge_kept (i duty pipe checker who : Nat) (s : State) :
    (voteCharge i duty pipe checker who s).kept = s.kept := by
  unfold voteCharge
  simp only [kept_mk, kept_eta, apply_ite State.kept, ite_self, count1_kept, sumUp_kept, prioCheck_kept, pipeCharge_kept, slicePut_kept]

theorem portUnserve_kept (m : Nat) (s : State) :
    (portUnserve m s).kept = s.kept := by
  unfold portUnserve
  simp only [kept_mk, kept_eta, faultLow_kept, mediaMod_kept]

theorem topLose_kept (s : State) :
    (topLose s).kept = s.kept := by
  unfold topLose
  simp only [kept_mk, kept_eta, raise_kept]

theorem sliceLose_kept (i : Nat) (log : Bool) (s : State) :
    (sliceLose i log s).kept = s.kept := by
  unfold sliceLose
  simp only [kept_mk, kept_eta, apply_ite State.kept, ite_self, logAppend_kept, topLose_kept, raise_kept, slicePut_kept, mediaMod_kept, portUnserve_kept]

theorem pipeRetire_kept (i p : Nat) (bist log : Bool) (s : State) :
    (pipeRetire i p bist log s).kept = s.kept := by
  unfold pipeRetire
  simp only [kept_mk, kept_eta, apply_ite State.kept, ite_self, slicePut_kept, raise_kept, logAppend_kept]

theorem sliceJudge_kept (i : Nat) (log : Bool) (s : State) :
    (sliceJudge i log s).kept = s.kept := by
  unfold sliceJudge
  simp only [kept_mk, kept_eta, apply_ite State.kept, ite_self, topLose_kept, sliceLose_kept]

theorem sliceChecks_kept (next : Nat) (s : State) (i : Nat) :
    (sliceChecks next s i).kept = s.kept := by
  unfold sliceChecks
  first
  | with_reducible rfl
  | ((try dsimp only); repeat' split) <;> (first | (with_reducible rfl) | (simp only [kept_mk, kept_eta, apply_ite State.kept, ite_self, slicePut_kept, pipeRetire_kept]; done) | (simp only [kept_mk, kept_eta, apply_ite State.kept, ite_self, foldl_kept, implies_true, slicePut_kept, pipeRetire_kept]; done) | (simp_all only [kept_mk, kept_eta, apply_ite State.kept, ite_self, foldl_kept, implies_true, slicePut_kept, pipeRetire_kept]; done))

theorem sliceTurn_kept (s : State) (i : Nat) :
    (sliceTurn s i).kept = s.kept := by
  unfold sliceTurn
  first
  | with_reducible rfl
  | ((try dsimp only); repeat' split) <;> (first | (with_reducible rfl) | (simp only [kept_mk, kept_eta, apply_ite State.kept, ite_self, slicePut_kept]; done) | (simp only [kept_mk, kept_eta, apply_ite State.kept, ite_self, foldl_kept, implies_true, slicePut_kept]; done) | (simp_all only [kept_mk, kept_eta, apply_ite State.kept, ite_self, foldl_kept, implies_true, slicePut_kept]; done))

theorem slicesStrobe_kept (next : Nat) (s : State) :
    (slicesStrobe next s).kept = s.kept := by
  unfold slicesStrobe
  (try dsimp only); (repeat' split) <;>
    simp only [kept_mk, kept_eta, apply_ite State.kept, ite_self, foldl_kept, implies_true, sliceTurn_kept, sliceChecks_kept, sliceJudge_kept]

theorem rowRemap_kept (mac row spare : Nat) (s : State) :
    (rowRemap mac row spare s).kept = s.kept := by
  unfold rowRemap
  simp only [kept_mk, kept_eta]

theorem rowQueue_kept (mac row : Nat) (s : State) :
    (rowQueue mac row s).kept = s.kept := by
  unfold rowQueue
  simp only [kept_mk, kept_eta, apply_ite State.kept, ite_self]

theorem keyRowBad_kept (mac row : Nat) (s : State) :
    (keyRowBad mac row s).kept = s.kept := by
  unfold keyRowBad
  first
  | with_reducible rfl
  | ((try dsimp only); repeat' split) <;> (first | (with_reducible rfl) | (simp only [kept_mk, kept_eta, apply_ite State.kept, ite_self, slotPut_kept]; done) | (simp only [kept_mk, kept_eta, apply_ite State.kept, ite_self, foldl_kept, implies_true, slotPut_kept]; done) | (simp_all only [kept_mk, kept_eta, apply_ite State.kept, ite_self, foldl_kept, implies_true, slotPut_kept]; done))

theorem rowBad_kept (mac row : Nat) (s : State) :
    (rowBad mac row s).kept = s.kept := by
  unfold rowBad
  simp only [kept_mk, kept_eta, apply_ite State.kept, ite_self, countUp_kept, keyRowBad_kept]

theorem keyRowUe_kept (mac row : Nat) (s : State) :
    (keyRowUe mac row s).kept = s.kept := by
  unfold keyRowUe
  first
  | with_reducible rfl
  | ((try dsimp only); repeat' split) <;> (first | (with_reducible rfl) | (simp only [kept_mk, kept_eta, apply_ite State.kept, ite_self, rowBad_kept, raise_kept]; done) | (simp only [kept_mk, kept_eta, apply_ite State.kept, ite_self, foldl_kept, implies_true, rowBad_kept, raise_kept]; done) | (simp_all only [kept_mk, kept_eta, apply_ite State.kept, ite_self, foldl_kept, implies_true, rowBad_kept, raise_kept]; done))

theorem rowError_kept (s : State) (e : Nat × Nat × Bool) :
    (rowError s e).kept = s.kept := by
  unfold rowError
  simp only [kept_mk, kept_eta, apply_ite State.kept, ite_self, keyRowUe_kept, rowQueue_kept]

theorem rowErrors_kept (f : Faults) (s : State) :
    (rowErrors f s).kept = s.kept := by
  unfold rowErrors
  (try dsimp only); (repeat' split) <;>
    simp only [kept_mk, kept_eta, apply_ite State.kept, ite_self, foldl_kept, implies_true, rowError_kept]

theorem boundSet_kept (n b : Nat) (s : State) :
    (boundSet n b s).kept = s.kept := by
  unfold boundSet
  (try dsimp only); (repeat' split) <;>
    simp only [kept_mk, kept_eta, apply_ite State.kept, ite_self, foldl_kept, implies_true, ctxPut_kept, regPut_kept]

theorem ctxStart_kept (n : Nat) (e : RkEnt) (s : State) :
    (ctxStart n e s).kept = s.kept := by
  unfold ctxStart
  simp only [kept_mk, kept_eta, rkDequeue_kept, ctxPut_kept, nvPush_kept]

theorem rkFill_kept (k : Nat) (s : State) : (rkFill k s).kept = s.kept := by
  induction k generalizing s with
  | zero => rfl
  | succ k ih =>
    unfold rkFill
    (repeat' split) <;> simp only [ih, ctxStart_kept]

theorem rkSchedule_kept (s : State) :
    (rkSchedule s).kept = s.kept := by
  unfold rkSchedule
  simp only [kept_mk, kept_eta, apply_ite State.kept, ite_self, rkFill_kept]

theorem nextGenCause_kept (kidx : Nat) (s : State) :
    (nextGenCause kidx s).kept = s.kept := by
  unfold nextGenCause
  simp only [kept_mk, kept_eta, apply_ite State.kept, ite_self, slotPut_kept, slotSpent_kept, rkEnqueue_kept]

theorem ckptPush_kept (n st : Nat) (own : Bool) (s : State) :
    (ckptPush n st own s).kept = s.kept := by
  unfold ckptPush
  simp only [kept_mk, kept_eta, nvPush_kept]

theorem ckptSuper_kept (n : Nat) (s : State) :
    (ckptSuper n s).kept = s.kept := by
  unfold ckptSuper
  simp only [kept_mk, kept_eta, apply_ite State.kept, ite_self, ctxPut_kept, ckptPush_kept]

theorem tagOwe_kept (n tl seq : Nat) (s : State) :
    (tagOwe n tl seq s).kept = s.kept := by
  unfold tagOwe
  first
  | with_reducible rfl
  | ((try dsimp only); repeat' split) <;> (first | (with_reducible rfl) | (simp only [kept_mk, kept_eta, apply_ite State.kept, ite_self, ctxPut_kept]; done) | (simp only [kept_mk, kept_eta, apply_ite State.kept, ite_self, foldl_kept, implies_true, ctxPut_kept]; done) | (simp_all only [kept_mk, kept_eta, apply_ite State.kept, ite_self, foldl_kept, implies_true, ctxPut_kept]; done))

theorem tagPaid_kept (tl seq : Nat) (s : State) :
    (tagPaid tl seq s).kept = s.kept := by
  unfold tagPaid
  first
  | with_reducible rfl
  | ((try dsimp only); repeat' split) <;> (first | (with_reducible rfl) | (simp only [kept_mk, kept_eta, apply_ite State.kept, ite_self, ctxPut_kept]; done) | (simp only [kept_mk, kept_eta, apply_ite State.kept, ite_self, foldl_kept, implies_true, ctxPut_kept]; done) | (simp_all only [kept_mk, kept_eta, apply_ite State.kept, ite_self, foldl_kept, implies_true, ctxPut_kept]; done))

theorem rkPoll_kept (s : State) :
    (rkPoll s).kept = s.kept := by
  unfold rkPoll
  (try dsimp only); (repeat' split) <;>
    simp only [kept_mk, kept_eta, apply_ite State.kept, ite_self, foldl_kept, implies_true, nvPush_kept, ctxPut_kept]

theorem fmtRelease_kept (kidx : Nat) (s : State) :
    (fmtRelease kidx s).kept = s.kept := by
  unfold fmtRelease
  simp only [kept_mk, kept_eta]

theorem rekeyDone_kept (n : Nat) (c : Ctx) (s : State) :
    (rekeyDone n c s).kept = s.kept := by
  unfold rekeyDone
  simp only [kept_mk, kept_eta, raise_kept]

theorem doRekeyComplete_kept (n : Nat) (s : State) :
    (doRekeyComplete n s).kept = s.kept := by
  unfold doRekeyComplete
  simp only [kept_mk, kept_eta, apply_ite State.kept, ite_self, rekeyDone_kept, ctxPut_kept, slotPut_kept, rkSchedule_kept, slotSpent_kept]

theorem doFormatComplete_kept (n : Nat) (s : State) :
    (doFormatComplete n s).kept = s.kept := by
  unfold doFormatComplete
  simp only [kept_mk, kept_eta, apply_ite State.kept, ite_self, boundSet_kept, fmtRelease_kept, rkSchedule_kept, rekeyDone_kept, ctxPut_kept]

theorem purgeSlot_kept (kidx : Nat) (s : State) :
    (purgeSlot kidx s).kept = s.kept := by
  unfold purgeSlot
  simp only [kept_mk, kept_eta, slotPut_kept, rowBad_kept]

theorem doPurgeComplete_kept (n : Nat) (s : State) :
    (doPurgeComplete n s).kept = s.kept := by
  unfold doPurgeComplete
  (try dsimp only); (repeat' split) <;>
    simp only [kept_mk, kept_eta, apply_ite State.kept, ite_self, foldl_kept, implies_true, regPut_kept, grantReset_kept, purgeSlot_kept, fmtRelease_kept, rkSchedule_kept, rekeyDone_kept, ctxPut_kept]

theorem aheadAdd_kept (n a : Nat) (s : State) :
    (aheadAdd n a s).kept = s.kept := by
  unfold aheadAdd
  simp only [kept_mk, kept_eta, apply_ite State.kept, ite_self, ctxPut_kept, count1_kept]

theorem takeMove_kept (n : Nat) (s : State) :
    (takeMove n s).kept = s.kept := by
  unfold takeMove
  simp only [kept_mk, kept_eta, apply_ite State.kept, ite_self, ctxPut_kept, boundSet_kept, ckptPush_kept]

theorem takeLine_kept (n : Nat) (s : State) :
    (takeLine n s).kept = s.kept := by
  unfold takeLine
  simp only [kept_mk, kept_eta, apply_ite State.kept, ite_self, takeMove_kept, aheadAdd_kept, ctxPut_kept]

theorem stepEnd_kept (n a : Nat) (s : State) :
    (stepEnd n a s).kept = s.kept := by
  unfold stepEnd
  simp only [kept_mk, kept_eta, ctxPut_kept]

theorem stepMod_kept (n a : Nat) (f : StepLine → StepLine) (s : State) :
    (stepMod n a f s).kept = s.kept := by
  unfold stepMod
  simp only [kept_mk, kept_eta, ctxPut_kept]

theorem stepsDrop_kept (n : Nat) (s : State) :
    (stepsDrop n s).kept = s.kept := by
  unfold stepsDrop
  (try dsimp only); (repeat' split) <;>
    simp only [kept_mk, kept_eta, apply_ite State.kept, ite_self, foldl_kept, implies_true, mediaMod_kept]

theorem ctxSuspend_kept (n : Nat) (s : State) :
    (ctxSuspend n s).kept = s.kept := by
  unfold ctxSuspend
  simp only [kept_mk, kept_eta, apply_ite State.kept, ite_self, stepsDrop_kept, ctxPut_kept, nvPush_kept]

theorem ctxSuspendAbsent_kept (s : State) :
    (ctxSuspendAbsent s).kept = s.kept := by
  unfold ctxSuspendAbsent
  (try dsimp only); (repeat' split) <;>
    simp only [kept_mk, kept_eta, apply_ite State.kept, ite_self, foldl_kept, implies_true, ctxSuspend_kept]

theorem doRekeyPassStart_kept (n : Nat) (s : State) :
    (doRekeyPassStart n s).kept = s.kept := by
  unfold doRekeyPassStart
  (try dsimp only); (repeat' split) <;>
    simp only [kept_mk, kept_eta, apply_ite State.kept, ite_self, foldl_kept, implies_true, slotPut_kept, rkDequeue_kept, ctxPut_kept, regPut_kept, rkPoll_kept, ctxSuspendAbsent_kept, raise_kept]

theorem rekeyResumeEv_kept (n : Nat) (s : State) :
    (rekeyResumeEv n s).kept = s.kept := by
  unfold rekeyResumeEv
  simp only [kept_mk, kept_eta, raise_kept]

theorem ctxContinue_kept (n : Nat) (s : State) :
    (ctxContinue n s).kept = s.kept := by
  unfold ctxContinue
  simp only [kept_mk, kept_eta, apply_ite State.kept, ite_self, rekeyResumeEv_kept, boundSet_kept, ctxPut_kept]

theorem ctxStop_kept (kidx : Nat) (s : State) :
    (ctxStop kidx s).kept = s.kept := by
  unfold ctxStop
  (try dsimp only); (repeat' split) <;> simp only [kept_mk, kept_eta, nvPush_kept, stepsDrop_kept, ctxPut_kept]

theorem nvAct_kept (act : NvAct) (s : State) :
    (nvAct act s).kept = s.kept := by
  unfold nvAct
  (try dsimp only); (repeat' split) <;>
    simp only [kept_mk, kept_eta, apply_ite State.kept, ite_self, foldl_kept, implies_true, slotPut_kept, regPut_kept, rkEnqueue_kept, nvPush_kept, fmtRelease_kept, rkClearQueue_kept, ctxStop_kept, raise_kept]

theorem nvActs_kept (s : State) :
    (nvActs s).kept = s.kept := by
  unfold nvActs
  (try dsimp only); (repeat' split) <;>
    simp only [kept_mk, kept_eta, apply_ite State.kept, ite_self, foldl_kept, implies_true, nvAct_kept]

theorem rekeyStrobe_kept (s : State) :
    (rekeyStrobe s).kept = s.kept := by
  unfold rekeyStrobe
  (try dsimp only); (repeat' split) <;>
    simp only [kept_mk, kept_eta, apply_ite State.kept, ite_self, foldl_kept, implies_true, count1_kept, raise_kept, ctxContinue_kept, ctxPut_kept, ckptSuper_kept, rkPoll_kept, rkSchedule_kept]

theorem wayPut_kept (k : Nat) (x : TagWay) (s : State) :
    (wayPut k x s).kept = s.kept := by
  unfold wayPut
  simp only [kept_mk, kept_eta]

theorem wayUse_kept (k : Nat) (x : TagWay) (s : State) :
    (wayUse k x s).kept = s.kept := by
  unfold wayUse
  first
  | with_reducible rfl
  | ((try dsimp only); repeat' split) <;> (first | (with_reducible rfl) | (simp only [kept_mk, kept_eta, apply_ite State.kept, ite_self, wayPut_kept]; done) | (simp only [kept_mk, kept_eta, apply_ite State.kept, ite_self, foldl_kept, implies_true, wayPut_kept]; done) | (simp_all only [kept_mk, kept_eta, apply_ite State.kept, ite_self, foldl_kept, implies_true, wayPut_kept]; done))

theorem wayDel_kept (k : Nat) (s : State) :
    (wayDel k s).kept = s.kept := by
  unfold wayDel
  simp only [kept_mk, kept_eta]

theorem tagReserve_kept (o : MOwner) (tl : Nat) (s : State) :
    (tagReserve o tl s).kept = s.kept := by
  unfold tagReserve
  simp only [kept_mk, kept_eta]

theorem tagUnreserve_kept (o : MOwner) (s : State) :
    (tagUnreserve o s).kept = s.kept := by
  unfold tagUnreserve
  simp only [kept_mk, kept_eta]

theorem wayAlloc_kept (tl kidx : Nat) (s : State) :
    (wayAlloc tl kidx s).2.kept = s.kept := by
  unfold wayAlloc
  (try dsimp only); (repeat' split) <;> simp only [kept_mk, kept_eta, wayPut_kept]

theorem wayAlloc_of {tl kidx : Nat} {s : State} {pp} (h : wayAlloc tl kidx s = pp) : pp.2.kept = s.kept := h ▸ wayAlloc_kept tl kidx s

theorem wayEvict_kept (tl : Nat) (s : State) :
    (wayEvict tl s).kept = s.kept := by
  unfold wayEvict
  (try dsimp only); (repeat' split) <;> simp only [kept_mk, kept_eta, wayPut_kept]

theorem tagWrite_kept (kidx tl e seq : Nat) (v : BitVec 64) (s : State) :
    (tagWrite kidx tl e seq v s).kept = s.kept := by
  unfold tagWrite
  (try dsimp only); (repeat' split) <;>
    ((try have hk_wayAlloc := wayAlloc_of (by assumption : wayAlloc _ _ _ = _)); simp_all only [kept_mk, kept_eta, apply_ite State.kept, foldl_kept, ite_self, wayUse_kept, wayAlloc_kept])

theorem tagPersisted_kept (seq : Nat) (s : State) :
    (tagPersisted seq s).kept = s.kept := by
  unfold tagPersisted
  simp only [kept_mk, kept_eta]

theorem tagDrop_kept (seq : Nat) (s : State) :
    (tagDrop seq s).kept = s.kept := by
  unfold tagDrop
  simp only [kept_mk, kept_eta]

theorem tlEv_kept (e : Ev) (src tl p3 : Nat) (s : State) :
    (tlEv e src tl p3 s).kept = s.kept := by
  unfold tlEv
  simp only [kept_mk, kept_eta, raise_kept]

theorem tagDropLine_kept (tl : Nat) (s : State) :
    (tagDropLine tl s).kept = s.kept := by
  unfold tagDropLine
  (try dsimp only); (repeat' split) <;> simp only [kept_mk, kept_eta, wayDel_kept]

theorem tagSecded_kept (f : Faults) (tl : Nat) (s : State) :
    (tagSecded f tl s).kept = s.kept := by
  unfold tagSecded
  (try dsimp only); (repeat' split) <;> simp only [kept_mk, kept_eta, count1_kept, tlEv_kept, tagDropLine_kept]

theorem tagHit_kept (tl : Nat) (s : State) :
    (tagHit tl s).kept = s.kept := by
  unfold tagHit
  first
  | with_reducible rfl
  | ((try dsimp only); repeat' split) <;> (first | (with_reducible rfl) | (simp only [kept_mk, kept_eta, apply_ite State.kept, ite_self, wayUse_kept, count1_kept]; done) | (simp only [kept_mk, kept_eta, apply_ite State.kept, ite_self, foldl_kept, implies_true, wayUse_kept, count1_kept]; done) | (simp_all only [kept_mk, kept_eta, apply_ite State.kept, ite_self, foldl_kept, implies_true, wayUse_kept, count1_kept]; done))

theorem tagMerge_kept (kidx tl : Nat) (d : Line) (s : State) :
    (tagMerge kidx tl d s).kept = s.kept := by
  unfold tagMerge
  (try dsimp only); (repeat' split) <;>
    ((try have hk_wayAlloc := wayAlloc_of (by assumption : wayAlloc _ _ _ = _)); simp_all only [kept_mk, kept_eta, apply_ite State.kept, foldl_kept, ite_self, wayUse_kept, wayAlloc_kept])

theorem taglineMedia_kept (tl w : Nat) (s : State) :
    (taglineMedia tl w s).kept = s.kept := by
  unfold taglineMedia
  simp only [kept_mk, kept_eta, tlEv_kept, count1_kept]

theorem fetchAsk_kept (tl kidx : Nat) (owners : List MOwner) (wb : Bool) (s : State) :
    (fetchAsk tl kidx owners wb s).kept = s.kept := by
  unfold fetchAsk
  simp only [kept_mk, kept_eta, apply_ite State.kept, ite_self, taglineMedia_kept, count1_kept]

theorem tagLookup_kept (o : MOwner) (kidx tl e : Nat) (f : Faults) (s : State) :
    (tagLookup o kidx tl e f s).kept = s.kept := by
  unfold tagLookup
  first
  | with_reducible rfl
  | ((try dsimp only); repeat' split) <;> (first | (with_reducible rfl) | (simp only [kept_mk, kept_eta, apply_ite State.kept, ite_self, tagSecded_kept, tagHit_kept, fetchAsk_kept]; done) | (simp only [kept_mk, kept_eta, apply_ite State.kept, ite_self, foldl_kept, implies_true, tagSecded_kept, tagHit_kept, fetchAsk_kept]; done) | (simp_all only [kept_mk, kept_eta, apply_ite State.kept, ite_self, foldl_kept, implies_true, tagSecded_kept, tagHit_kept, fetchAsk_kept]; done))

theorem wbFetches_kept (s : State) :
    (wbFetches s).kept = s.kept := by
  unfold wbFetches
  (try dsimp only); (repeat' split) <;>
    simp only [kept_mk, kept_eta, apply_ite State.kept, ite_self, foldl_kept, implies_true, fetchAsk_kept]

theorem wbIssue_kept (m k : Nat) (x : TagWay) (s : State) :
    (wbIssue m k x s).kept = s.kept := by
  unfold wbIssue
  simp only [kept_mk, kept_eta, wayPut_kept, issueW_kept]

theorem wbPersisted_kept (tl seq : Nat) (s : State) :
    (wbPersisted tl seq s).kept = s.kept := by
  unfold wbPersisted
  (try dsimp only); (repeat' split) <;> simp only [kept_mk, kept_eta, tagPaid_kept, count1_kept, wayPut_kept]

theorem tagFlush_kept (s : State) :
    (tagFlush s).kept = s.kept := by
  unfold tagFlush
  simp only [kept_mk, kept_eta, wbFetches_kept]

theorem tagFailCount_kept (kidx : Nat) (s : State) :
    (tagFailCount kidx s).kept = s.kept := by
  unfold tagFailCount
  simp only [kept_mk, kept_eta, apply_ite State.kept, ite_self, nextGenCause_kept, raise_kept]

theorem tagWindow_kept (s : State) :
    (tagWindow s).kept = s.kept := by
  unfold tagWindow
  simp only [kept_mk, kept_eta, apply_ite State.kept, ite_self]

theorem highWater_kept (kidx : Nat) (g : BitVec 32) (s : State) :
    (highWater kidx g s).kept = s.kept := by
  unfold highWater
  simp only [kept_mk, kept_eta, apply_ite State.kept, ite_self, raise_kept, slotPut_kept, nextGenCause_kept]

theorem counterEnd_kept (kidx a : Nat) (g : BitVec 32) (s : State) :
    (counterEnd kidx a g s).kept = s.kept := by
  unfold counterEnd
  (try dsimp only); (repeat' split) <;> simp only [kept_mk, kept_eta, raise_kept, aheadAdd_kept, slotPut_kept]

theorem nextLctr_kept (kidx a : Nat) (g : BitVec 32) (e : BitVec 64) (s : State) :
    (nextLctr kidx a g e s).2.kept = s.kept := by
  unfold nextLctr
  (try dsimp only); (repeat' split) <;> simp only [kept_mk, kept_eta, jackWrite_kept, highWater_kept, counterEnd_kept]

theorem nextLctr_of {kidx a : Nat} {g : BitVec 32} {e : BitVec 64} {s : State} {pp} (h : nextLctr kidx a g e s = pp) : pp.2.kept = s.kept := h ▸ nextLctr_kept kidx a g e s

theorem spentNote_kept (kidx a : Nat) (s : State) :
    (spentNote kidx a s).kept = s.kept := by
  unfold spentNote
  simp only [kept_mk, kept_eta, sumUp_kept, count1_kept]

theorem voteHold_kept (h : Hold) (mis : Nat × List Nat × List Block) (s : State) :
    (voteHold h mis s).kept = s.kept := by
  unfold voteHold
  first
  | with_reducible rfl
  | ((try dsimp only); repeat' split) <;> (first | (with_reducible rfl) | (simp only [kept_mk, kept_eta, apply_ite State.kept, ite_self]; done) | (simp only [kept_mk, kept_eta, apply_ite State.kept, ite_self, foldl_kept, implies_true]; done) | (simp_all only [kept_mk, kept_eta, apply_ite State.kept, ite_self, foldl_kept, implies_true]; done))

theorem aheadIssued_kept (kidx a : Nat) (g : BitVec 32) (s : State) :
    (aheadIssued kidx a g s).kept = s.kept := by
  unfold aheadIssued
  (try dsimp only); (repeat' split) <;> simp only [kept_mk, kept_eta, ctxPut_kept]

theorem txnConsume_kept (t : Txn) (s : State) :
    (txnConsume t s).kept = s.kept := by
  unfold txnConsume
  first
  | with_reducible rfl
  | ((try dsimp only); repeat' split) <;> (first | (with_reducible rfl) | (simp only [kept_mk, kept_eta, apply_ite State.kept, ite_self, txnPut_kept, creditRelease_kept]; done) | (simp only [kept_mk, kept_eta, apply_ite State.kept, ite_self, foldl_kept, implies_true, txnPut_kept, creditRelease_kept]; done) | (simp_all only [kept_mk, kept_eta, apply_ite State.kept, ite_self, foldl_kept, implies_true, txnPut_kept, creditRelease_kept]; done))

theorem ownerIssued_kept (o : MOwner) (g : BitVec 32) (c : BitVec 24) (s : State) :
    (ownerIssued o g c s).kept = s.kept := by
  unfold ownerIssued
  (try dsimp only); (repeat' split) <;> simp only [kept_mk, kept_eta, txnConsume_kept, stepMod_kept]

theorem stepWritten_kept (o : MOwner) (s : State) :
    (stepWritten o s).kept = s.kept := by
  unfold stepWritten
  first
  | with_reducible rfl
  | ((try dsimp only); repeat' split) <;> (first | (with_reducible rfl) | (simp only [kept_mk, kept_eta, apply_ite State.kept, ite_self, count1_kept]; done) | (simp only [kept_mk, kept_eta, apply_ite State.kept, ite_self, foldl_kept, implies_true, count1_kept]; done) | (simp_all only [kept_mk, kept_eta, apply_ite State.kept, ite_self, foldl_kept, implies_true, count1_kept]; done))

theorem ownerOwes_kept (o : MOwner) (tl seq : Nat) (s : State) :
    (ownerOwes o tl seq s).kept = s.kept := by
  unfold ownerOwes
  first
  | with_reducible rfl
  | ((try dsimp only); repeat' split) <;> (first | (with_reducible rfl) | (simp only [kept_mk, kept_eta, apply_ite State.kept, ite_self, tagOwe_kept]; done) | (simp only [kept_mk, kept_eta, apply_ite State.kept, ite_self, foldl_kept, implies_true, tagOwe_kept]; done) | (simp_all only [kept_mk, kept_eta, apply_ite State.kept, ite_self, foldl_kept, implies_true, tagOwe_kept]; done))

theorem writeIssue_kept (w : WriteReq) (ks : List Block) (f : Faults) (s : State) :
    (writeIssue w ks f s).kept = s.kept := by
  unfold writeIssue
  (try dsimp only); (repeat' split) <;> simp only [kept_mk, kept_eta, ownerOwes_kept, tagWrite_kept, tagSecded_kept, wbFetches_kept, issueW_kept, ownerIssued_kept, stepWritten_kept, tagUnreserve_kept, aheadIssued_kept]

theorem ownerHeld_kept (o : MOwner) (s : State) :
    (ownerHeld o s).kept = s.kept := by
  unfold ownerHeld
  (try dsimp only); (repeat' split) <;> simp only [kept_mk, kept_eta, txnPut_kept, voteHold_kept]

theorem writeSlice_kept (w : WriteReq) (k : GenKeys) (f : Faults) (s : State) :
    (writeSlice w k f s).kept = s.kept := by
  unfold writeSlice
  (try dsimp only); (repeat' split) <;> simp only [kept_mk, kept_eta, writeIssue_kept, tagReserve_kept, tagUnreserve_kept, ownerHeld_kept, voteHold_kept]

theorem txnFinish_kept (t : Txn) (status : Nat) (s : State) :
    (txnFinish t status s).kept = s.kept := by
  unfold txnFinish
  simp only [kept_mk, kept_eta, completeBare_kept, tagUnreserve_kept, txnDel_kept]

theorem writeGo_kept (t : Txn) (e : BitVec 64) (f : Faults) (s : State) :
    (writeGo t e f s).kept = s.kept := by
  unfold writeGo
  (try dsimp only); (repeat' split) <;>
    ((try have hk_nextLctr := nextLctr_of (by assumption : nextLctr _ _ _ _ _ = _)); simp_all only [kept_mk, kept_eta, apply_ite State.kept, foldl_kept, ite_self, txnFinish_kept, nextLctr_kept, spentNote_kept, writeSlice_kept])

theorem entryFromSide_kept (kidx a : Nat) (sc : Side) (s : State) :
    (entryFromSide kidx a sc s).2.kept = s.kept := by
  unfold entryFromSide
  (try dsimp only); (repeat' split) <;> simp only [kept_mk, kept_eta, jackFill_kept]

theorem entryFromSide_of {kidx a : Nat} {sc : Side} {s : State} {pp} (h : entryFromSide kidx a sc s = pp) : pp.2.kept = s.kept := h ▸ entryFromSide_kept kidx a sc s

theorem entryResolve_kept (kidx a : Nat) (sc : Side) (pe : Bool) (s : State) :
    (entryResolve kidx a sc pe s).2.kept = s.kept := by
  unfold entryResolve
  first
  | with_reducible rfl
  | ((try dsimp only); repeat' split) <;> (first | (with_reducible rfl) | (simp only [kept_mk, kept_eta, apply_ite State.kept, ite_self, jackLookup_kept, count1_kept, entryFromSide_kept]; done) | ((try have hk_jackLookup := jackLookup_of (by assumption : jackLookup _ _ _ _ = _)); (try have hk_entryFromSide := entryFromSide_of (by assumption : entryFromSide _ _ _ _ = _)); simp_all only [kept_mk, kept_eta, apply_ite State.kept, foldl_kept, ite_self, jackLookup_kept, count1_kept, entryFromSide_kept]; done) | (simp only [kept_mk, kept_eta, apply_ite State.kept, ite_self, foldl_kept, implies_true, jackLookup_kept, count1_kept, entryFromSide_kept]; done) | (simp_all only [kept_mk, kept_eta, apply_ite State.kept, ite_self, foldl_kept, implies_true, jackLookup_kept, count1_kept, entryFromSide_kept]; done))

theorem entryResolve_of {kidx a : Nat} {sc : Side} {pe : Bool} {s : State} {pp} (h : entryResolve kidx a sc pe s = pp) : pp.2.kept = s.kept := h ▸ entryResolve_kept kidx a sc pe s

theorem writeResolve_kept (t : Txn) (f : Faults) (s : State) :
    (writeResolve t f s).kept = s.kept := by
  unfold writeResolve
  (try dsimp only); (repeat' split) <;>
    ((try have hk_jackLookup := jackLookup_of (by assumption : jackLookup _ _ _ _ = _)); simp_all only [kept_mk, kept_eta, apply_ite State.kept, foldl_kept, ite_self, jackLookup_kept, writeGo_kept, count1_kept, txnPut_kept, lookAhead_kept, probeAdd_kept, tagReserve_kept])

theorem readReply_kept (t : Txn) (status : Nat) (data : Option Line) (psn : Bool) (extra : Side) (s : State) :
    (readReply t status data psn extra s).kept = s.kept := by
  unfold readReply
  simp only [kept_mk, kept_eta, complete_kept, txnDel_kept]

theorem partialRefuse_kept (t : Txn) (status : Nat) (s : State) :
    (partialRefuse t status s).kept = s.kept := by
  unfold partialRefuse
  simp only [kept_mk, kept_eta, txnFinish_kept, count1_kept]

theorem partialMerge_kept (t : Txn) (old : Line) (oldPsn : Bool) (line : BitVec 576) (s : State) :
    (partialMerge t old oldPsn line s).kept = s.kept := by
  unfold partialMerge
  (try dsimp only); (repeat' split) <;> simp only [kept_mk, kept_eta, txnConsume_kept]

theorem stepCount_kept (n sub : Nat) (s : State) :
    (stepCount n sub s).kept = s.kept := by
  unfold stepCount
  simp only [kept_mk, kept_eta, count1_kept]

theorem lineFault_kept (n a status row : Nat) (s : State) :
    (lineFault n a status row s).kept = s.kept := by
  unfold lineFault
  first
  | with_reducible rfl
  | ((try dsimp only); repeat' split) <;> (first | (with_reducible rfl) | (simp only [kept_mk, kept_eta, apply_ite State.kept, ite_self, raise_kept, stepCount_kept]; done) | (simp only [kept_mk, kept_eta, apply_ite State.kept, ite_self, foldl_kept, implies_true, raise_kept, stepCount_kept]; done) | (simp_all only [kept_mk, kept_eta, apply_ite State.kept, ite_self, foldl_kept, implies_true, raise_kept, stepCount_kept]; done))

theorem stepSkip_kept (n a : Nat) (s : State) :
    (stepSkip n a s).kept = s.kept := by
  unfold stepSkip
  simp only [kept_mk, kept_eta, rkPoll_kept, stepEnd_kept, stepCount_kept]

theorem stepFail_kept (n a status row : Nat) (s : State) :
    (stepFail n a status row s).kept = s.kept := by
  unfold stepFail
  simp only [kept_mk, kept_eta, rkPoll_kept, stepEnd_kept, lineFault_kept]

theorem stepsLost_kept (m : Nat) (s : State) :
    (stepsLost m s).kept = s.kept := by
  unfold stepsLost
  (try dsimp only); (repeat' split) <;>
    simp only [kept_mk, kept_eta, apply_ite State.kept, ite_self, foldl_kept, implies_true, stepFail_kept]

theorem stepWrite_kept (n a : Nat) (pt : Line) (psn : Bool) (sc : Side) (s : State) :
    (stepWrite n a pt psn sc s).kept = s.kept := by
  unfold stepWrite
  simp only [kept_mk, kept_eta, stepMod_kept]

theorem deliver_kept (o : MOwner) (row status : Nat) (pt : Line) (line : BitVec 576) (s : State) :
    (deliver o row status pt line s).kept = s.kept := by
  unfold deliver
  (try dsimp only); (repeat' split) <;> simp only [kept_mk, kept_eta, partialMerge_kept, partialRefuse_kept, readReply_kept, stepWrite_kept, lineFault_kept]

theorem deliverNone_kept (o : MOwner) (row status : Nat) (s : State) :
    (deliverNone o row status s).kept = s.kept := by
  unfold deliverNone
  (try dsimp only); (repeat' split) <;> simp only [kept_mk, kept_eta, partialRefuse_kept, readReply_kept, stepSkip_kept, stepFail_kept]

theorem tagFailNote_kept (kidx a sl : Nat) (torn total : Bool) (cecho : Nat) (s : State) :
    (tagFailNote kidx a sl torn total cecho s).kept = s.kept := by
  unfold tagFailNote
  simp only [kept_mk, kept_eta, apply_ite State.kept, ite_self, count1_kept, raise_kept]

theorem virginNote_kept (sl : Nat) (sc : Side) (s : State) :
    (virginNote sl sc s).kept = s.kept := by
  unfold virginNote
  first
  | with_reducible rfl
  | ((try dsimp only); repeat' split) <;> (first | (with_reducible rfl) | (simp only [kept_mk, kept_eta, apply_ite State.kept, ite_self, count1_kept]; done) | (simp only [kept_mk, kept_eta, apply_ite State.kept, ite_self, foldl_kept, implies_true, count1_kept]; done) | (simp_all only [kept_mk, kept_eta, apply_ite State.kept, ite_self, foldl_kept, implies_true, count1_kept]; done))

theorem deliverVirgin_kept (o : MOwner) (kidx a m : Nat) (line : BitVec 576) (s : State) :
    (deliverVirgin o kidx a m line s).kept = s.kept := by
  unfold deliverVirgin
  (try dsimp only); (repeat' split) <;> simp only [kept_mk, kept_eta, virginNote_kept, stepSkip_kept, tagFailNote_kept, partialRefuse_kept, readReply_kept, partialMerge_kept]

theorem deliverGood_kept (o : MOwner) (line : BitVec 576) (ks : List Block) (s : State) :
    (deliverGood o line ks s).kept = s.kept := by
  unfold deliverGood
  simp only [kept_mk, kept_eta, apply_ite State.kept, ite_self, deliver_kept]

theorem ownerSt_kept (o : MOwner) (st : TxSt) (s : State) :
    (ownerSt o st s).kept = s.kept := by
  unfold ownerSt
  (try dsimp only); (repeat' split) <;> simp only [kept_mk, kept_eta, txnPut_kept]

theorem readVerify_kept (h : Hold) (d : Line) (s : State) :
    (readVerify h d s).kept = s.kept := by
  unfold readVerify
  (try dsimp only); (repeat' split) <;> simp only [kept_mk, kept_eta, tagFailNote_kept, tagFailCount_kept, deliver_kept, deliverGood_kept, ownerSt_kept]

theorem tagFetchLost_kept (h : Hold) (s : State) :
    (tagFetchLost h s).kept = s.kept := by
  unfold tagFetchLost
  (try dsimp only); (repeat' split) <;> simp only [kept_mk, kept_eta, stepWrite_kept, lineFault_kept, deliverNone_kept]

theorem readTagged_kept (h : Hold) (s : State) :
    (readTagged h s).kept = s.kept := by
  unfold readTagged
  (try dsimp only); (repeat' split) <;> simp only [kept_mk, kept_eta, readVerify_kept, tagFetchLost_kept, taglineMedia_kept, ownerSt_kept, fetchAsk_kept]

theorem readDecrypt_kept (o : MOwner) (kidx a m : Nat) (g : BitVec 32) (k : GenKeys) (line : BitVec 576) (f : Faults) (s : State) :
    (readDecrypt o kidx a m g k line f s).kept = s.kept := by
  unfold readDecrypt
  (try dsimp only); (repeat' split) <;> simp only [kept_mk, kept_eta, readTagged_kept, ownerSt_kept, voteHold_kept]

theorem readJack_kept (t : Txn) (line : BitVec 576) (row : EarlyRow) (s : State) :
    (readJack t line row s).kept = s.kept := by
  unfold readJack
  (try dsimp only); (repeat' split) <;> simp only [kept_mk, kept_eta, count1_kept, jackFill_kept]

theorem purgeDecide_kept (n kidx a : Nat) (line : BitVec 576) (s : State) :
    (purgeDecide n kidx a line s).kept = s.kept := by
  unfold purgeDecide
  simp only [kept_mk, kept_eta, apply_ite State.kept, ite_self, stepSkip_kept, stepWrite_kept]

theorem formatDecide_kept (n kidx a : Nat) (line : BitVec 576) (s : State) :
    (formatDecide n kidx a line s).kept = s.kept := by
  unfold formatDecide
  simp only [kept_mk, kept_eta, apply_ite State.kept, ite_self, stepSkip_kept, stepWrite_kept]

theorem lineChecks_kept (o : MOwner) (kidx a m : Nat) (line : BitVec 576) (f : Faults) (s : State) :
    (lineChecks o kidx a m line f s).kept = s.kept := by
  unfold lineChecks
  (try dsimp only); (repeat' split) <;> simp only [kept_mk, kept_eta, count1_kept, deliverVirgin_kept, deliverNone_kept, stepMod_kept, readDecrypt_kept]

theorem lineTake_kept (o : MOwner) (m : Nat) (line : BitVec 576) (f : Faults) (s : State) :
    (lineTake o m line f s).kept = s.kept := by
  unfold lineTake
  (try dsimp only); (repeat' split) <;> simp only [kept_mk, kept_eta, readReply_kept, lineChecks_kept, readJack_kept, jackCompare_kept, formatDecide_kept, virginNote_kept, purgeDecide_kept]

theorem lostForget_kept (o : MOwner) (s : State) :
    (lostForget o s).kept = s.kept := by
  unfold lostForget
  simp only [kept_mk, kept_eta, apply_ite State.kept, ite_self]

theorem lineArrived_kept (o : MOwner) (m : Nat) (line : BitVec 576) (f : Faults) (s : State) :
    (lineArrived o m line f s).kept = s.kept := by
  unfold lineArrived
  simp only [kept_mk, kept_eta, apply_ite State.kept, ite_self, lostForget_kept, deliverNone_kept, lineTake_kept]

theorem lineLost_kept (o : MOwner) (s : State) :
    (lineLost o s).kept = s.kept := by
  unfold lineLost
  (try dsimp only); (repeat' split) <;> simp only [kept_mk, kept_eta, lostForget_kept, deliverNone_kept]

theorem holdDel_kept (h : Hold) (s : State) :
    (holdDel h s).kept = s.kept := by
  unfold holdDel
  simp only [kept_mk, kept_eta]

theorem schkFault_kept (h : Hold) (persistent : Bool) (s : State) :
    (schkFault h persistent s).kept = s.kept := by
  unfold schkFault
  simp only [kept_mk, kept_eta, apply_ite State.kept, ite_self, count1_kept, regPut_kept, raiseSev_kept, prioDirection_kept]

theorem doSchkRecompute_kept (sl : Nat) (f : Faults) (s : State) :
    (doSchkRecompute sl f s).kept = s.kept := by
  unfold doSchkRecompute
  (try dsimp only); (repeat' split) <;> simp only [kept_mk, kept_eta, holdDel_kept, deliverGood_kept, schkFault_kept, deliver_kept]

theorem purgePut_kept (m n a : Nat) (pay : Line) (c : Option (BitVec 32 × BitVec 24)) (s : State) :
    (purgePut m n a pay c s).kept = s.kept := by
  unfold purgePut
  first
  | with_reducible rfl
  | ((try dsimp only); repeat' split) <;> (first | (with_reducible rfl) | (simp only [kept_mk, kept_eta, apply_ite State.kept, ite_self, issueW_kept, stepMod_kept, stepWritten_kept]; done) | (simp only [kept_mk, kept_eta, apply_ite State.kept, ite_self, foldl_kept, implies_true, issueW_kept, stepMod_kept, stepWritten_kept]; done) | (simp_all only [kept_mk, kept_eta, apply_ite State.kept, ite_self, foldl_kept, implies_true, issueW_kept, stepMod_kept, stepWritten_kept]; done))

theorem voteContinue_kept (h : Hold) (ks : List Block) (f : Faults) (s : State) :
    (voteContinue h ks f s).kept = s.kept := by
  unfold voteContinue
  (try dsimp only); (repeat' split) <;> simp only [kept_mk, kept_eta, purgePut_kept, writeIssue_kept, readTagged_kept]

theorem voteAbandon_kept (h : Hold) (s : State) :
    (voteAbandon h s).kept = s.kept := by
  unfold voteAbandon
  (try dsimp only); (repeat' split) <;> simp only [kept_mk, kept_eta, count1_kept, slicePut_kept, txnFinish_kept, deliverNone_kept, stepFail_kept]

theorem voteRelease_kept (h : Hold) (chk : Bool) (s : State) :
    (voteRelease h chk s).kept = s.kept := by
  unfold voteRelease
  first
  | with_reducible rfl
  | ((try dsimp only); repeat' split) <;> (first | (with_reducible rfl) | (simp only [kept_mk, kept_eta, apply_ite State.kept, ite_self, voteContinue_kept, holdDel_kept]; done) | (simp only [kept_mk, kept_eta, apply_ite State.kept, ite_self, foldl_kept, implies_true, voteContinue_kept, holdDel_kept]; done) | (simp_all only [kept_mk, kept_eta, apply_ite State.kept, ite_self, foldl_kept, implies_true, voteContinue_kept, holdDel_kept]; done))

theorem doVote_kept (sl : Nat) (dir : Dir) (f : Faults) (s : State) :
    (doVote sl dir f s).kept = s.kept := by
  unfold doVote
  (try dsimp only); (repeat' split) <;> simp only [kept_mk, kept_eta, voteCharge_kept, holdDel_kept, voteContinue_kept, voteAbandon_kept, voteRelease_kept]

theorem standFor_kept (sl : Nat) (s : State) :
    (standFor sl s).kept = s.kept := by
  unfold standFor
  first
  | with_reducible rfl
  | ((try dsimp only); repeat' split) <;> (first | (with_reducible rfl) | (simp only [kept_mk, kept_eta, apply_ite State.kept, ite_self, slicePut_kept]; done) | (simp only [kept_mk, kept_eta, apply_ite State.kept, ite_self, foldl_kept, implies_true, slicePut_kept]; done) | (simp_all only [kept_mk, kept_eta, apply_ite State.kept, ite_self, foldl_kept, implies_true, slicePut_kept]; done))

theorem selfTest_kept (sl : Nat) (f : Faults) (s : State) :
    (selfTest sl f s).kept = s.kept := by
  unfold selfTest
  (try dsimp only); (repeat' split) <;>
    simp only [kept_mk, kept_eta, apply_ite State.kept, ite_self, foldl_kept, implies_true, standFor_kept, pipeCharge_kept]

theorem tagMakeRoom_kept (s : State) :
    (tagMakeRoom s).kept = s.kept := by
  unfold tagMakeRoom
  (try dsimp only); (repeat' split) <;>
    simp only [kept_mk, kept_eta, apply_ite State.kept, ite_self, foldl_kept, implies_true, wbFetches_kept, wayEvict_kept]

theorem slotUse_kept (m : Nat) (d : Dir) (c : Cls) (line : Nat) (s : State) :
    (slotUse m d c line s).kept = s.kept := by
  unfold slotUse
  simp only [kept_mk, kept_eta, mediaMod_kept]

theorem commitHoldNote_kept (i : Item) (step : Nat) (s : State) :
    (commitHoldNote i step s).kept = s.kept := by
  unfold commitHoldNote
  simp only [kept_mk, kept_eta, raise_kept, count1_kept]

theorem itemDel_kept (i : Item) (s : State) :
    (itemDel i s).kept = s.kept := by
  unfold itemDel
  simp only [kept_mk, kept_eta, stickyTrim_kept]

theorem sumUpN_kept (e : Ev) (src a b c n : Nat) (s : State) : (sumUpN e src a b c n s).kept = s.kept := by
  unfold sumUpN
  induction n with
  | zero => rfl
  | succ n ih => simp only [Nat.repeat, sumUp_kept, ih]

theorem wordsNote_kept (src q kind n : Nat) (s : State) :
    (wordsNote src q kind n s).kept = s.kept := by
  unfold wordsNote
  first
  | with_reducible rfl
  | ((try dsimp only); repeat' split) <;> (first | (with_reducible rfl) | (simp only [kept_mk, kept_eta, apply_ite State.kept, ite_self, sumUpN_kept, countUp_kept]; done) | (simp only [kept_mk, kept_eta, apply_ite State.kept, ite_self, foldl_kept, implies_true, sumUpN_kept, countUp_kept]; done) | (simp_all only [kept_mk, kept_eta, apply_ite State.kept, ite_self, foldl_kept, implies_true, sumUpN_kept, countUp_kept]; done))

theorem wordFaults_kept (i : Item) (f : Faults) (s : State) :
    (wordFaults i f s).kept = s.kept := by
  unfold wordFaults
  simp only [kept_mk, kept_eta, apply_ite State.kept, ite_self, wordsNote_kept]

theorem keyFaults_kept (kidx : Nat) (f : Faults) (s : State) :
    (keyFaults kidx f s).kept = s.kept := by
  unfold keyFaults
  simp only [kept_mk, kept_eta, apply_ite State.kept, ite_self, count1_kept, ctxSuspendAbsent_kept, raise_kept, slotZeroize_kept]

theorem hdrLost_kept (i : Item) (mask : List Nat) (s : State) :
    (hdrLost i mask s).kept = s.kept := by
  unfold hdrLost
  (try dsimp only); (repeat' split) <;>
    simp only [kept_mk, kept_eta, apply_ite State.kept, ite_self, foldl_kept, implies_true, raise_kept, count1_kept, linkDown_kept, completeBare_kept]

theorem grantRead_kept (i : Item) (f : Faults) (s : State) :
    (grantRead i f s).2.kept = s.kept := by
  unfold grantRead
  (try dsimp only); (repeat' split) <;> simp only [kept_mk, kept_eta, queueReset_kept, wordsNote_kept, itemDel_kept, completeBare_kept, count1_kept, hdrLost_kept]

theorem grantRead_of {i : Item} {f : Faults} {s : State} {pp} (h : grantRead i f s = pp) : pp.2.kept = s.kept := h ▸ grantRead_kept i f s

theorem grantRefuse_kept (i : Item) (step st : Nat) (s : State) :
    (grantRefuse i step st s).kept = s.kept := by
  unfold grantRefuse
  simp only [kept_mk, kept_eta, apply_ite State.kept, ite_self, completeBare_kept, commitHoldNote_kept]

theorem txnOpen_kept (i : Item) (st : TxSt) (s : State) :
    (txnOpen i st s).2.kept = s.kept := by
  unfold txnOpen
  (try dsimp only); (repeat' split) <;> simp only [kept_mk, kept_eta, txnAdd_kept]

theorem txnOpen_of {i : Item} {st : TxSt} {s : State} {pp} (h : txnOpen i st s = pp) : pp.2.kept = s.kept := h ▸ txnOpen_kept i st s

theorem grantItemThen_kept (m : Nat) (d : Dir) (c : Cls) (i : Item) (f : Faults) (go : Item → State → State) (s : State)
    (hgo : ∀ i s, (go i s).kept = s.kept) : (grantItemThen m d c i f go s).kept = s.kept := by
  unfold grantItemThen
  dsimp only
  split
  · rename_i heq; have hk := grantRead_of heq; simp only [rowErrors_kept, slotUse_kept] at hk; exact hk
  · rename_i heq
    have hk := grantRead_of heq
    simp only [rowErrors_kept, slotUse_kept] at hk
    split <;> simp only [hgo, grantRefuse_kept, keyFaults_kept, hk]

theorem readGrant_kept (m : Nat) (f : Faults) (i : Item) (s : State) : (readGrant m f i s).kept = s.kept := by
  unfold readGrant
  split
  rename_i t s1 heq
  have hk : s1.kept = s.kept := txnOpen_of heq
  dsimp only
  rw [issueR_kept]
  split
  · split <;> (rename_i hj; have hk2 := jackLookup_of hj; simp only [txnPut_kept] at hk2) <;>
      simp only [txnPut_kept, count1_kept, lookAhead_kept, hk2] <;> split <;> simp only [tagLookup_kept, hk]
  · exact hk

theorem doFgReadGrant_kept (m : Nat) (f : Faults) (s : State) :
    (doFgReadGrant m f s).kept = s.kept := by
  unfold doFgReadGrant
  (try dsimp only); (repeat' split) <;>
    simp only [kept_mk, kept_eta, apply_ite State.kept, ite_self, foldl_kept, implies_true, grantItemThen_kept, readGrant_kept]

theorem rawPoisonNote_kept (i : Item) (s : State) :
    (rawPoisonNote i s).kept = s.kept := by
  unfold rawPoisonNote
  simp only [kept_mk, kept_eta, raise_kept, count1_kept]

theorem rawAhead_kept (i : Item) (sc : Side) (s : State) :
    (rawAhead i sc s).kept = s.kept := by
  unfold rawAhead
  (try dsimp only); (repeat' split) <;> simp only [kept_mk, kept_eta, raise_kept, aheadAdd_kept]

theorem rawWriteGrant_kept (m : Nat) (f : Faults) (i : Item) (s : State) :
    (rawWriteGrant m f i s).kept = s.kept := by
  unfold rawWriteGrant
  simp only [kept_mk, kept_eta, apply_ite State.kept, ite_self, txnOpen_kept, wordFaults_kept, rawPoisonNote_kept, txnConsume_kept, rawAhead_kept, probeVoid_kept, jackInvalidate_kept, issueW_kept]

theorem fullWriteGrant_kept (f : Faults) (i : Item) (s : State) :
    (fullWriteGrant f i s).kept = s.kept := by
  unfold fullWriteGrant
  simp only [kept_mk, kept_eta, apply_ite State.kept, ite_self, wordFaults_kept, completeBare_kept, txnOpen_kept, writeResolve_kept, txnPut_kept]

theorem maskRepair_kept (m : Nat) (f : Faults) (i : Item) (s : State) :
    (maskRepair m f i s).kept = s.kept := by
  unfold maskRepair
  first
  | with_reducible rfl
  | ((try dsimp only); repeat' split) <;> (first | (with_reducible rfl) | (simp only [kept_mk, kept_eta, apply_ite State.kept, ite_self, wordFaults_kept, rowErrors_kept, slotUse_kept]; done) | (simp only [kept_mk, kept_eta, apply_ite State.kept, ite_self, foldl_kept, implies_true, wordFaults_kept, rowErrors_kept, slotUse_kept]; done) | (simp_all only [kept_mk, kept_eta, apply_ite State.kept, ite_self, foldl_kept, implies_true, wordFaults_kept, rowErrors_kept, slotUse_kept]; done))

theorem doFgWriteGrant_kept (m : Nat) (f : Faults) (s : State) :
    (doFgWriteGrant m f s).kept = s.kept := by
  unfold doFgWriteGrant
  (try dsimp only); (repeat' split) <;>
    simp only [kept_mk, kept_eta, apply_ite State.kept, ite_self, foldl_kept, implies_true, jackLookup_kept, maskRepair_kept, grantItemThen_kept, rawWriteGrant_kept, fullWriteGrant_kept]

theorem partialReadStart_kept (m : Nat) (f : Faults) (i : Item) (s : State) :
    (partialReadStart m f i s).kept = s.kept := by
  unfold partialReadStart
  (try dsimp only); (repeat' split) <;> simp only [kept_mk, kept_eta, wordFaults_kept, txnOpen_kept, txnPut_kept, tagReserve_kept, tagLookup_kept, issueR_kept]

theorem doPartialReadGrant_kept (m : Nat) (f : Faults) (s : State) :
    (doPartialReadGrant m f s).kept = s.kept := by
  unfold doPartialReadGrant
  (try dsimp only); (repeat' split) <;>
    simp only [kept_mk, kept_eta, apply_ite State.kept, ite_self, foldl_kept, implies_true, grantItemThen_kept, partialReadStart_kept]

theorem doPartialWriteGrant_kept (m : Nat) (f : Faults) (s : State) :
    (doPartialWriteGrant m f s).kept = s.kept := by
  unfold doPartialWriteGrant
  (try dsimp only); (repeat' split) <;> simp only [kept_mk, kept_eta, rowErrors_kept, slotUse_kept, keyFaults_kept, txnFinish_kept, entryResolve_kept, txnPut_kept, writeGo_kept]

theorem rawTagReply_kept (t : Txn) (d : Line) (s : State) :
    (rawTagReply t d s).kept = s.kept := by
  unfold rawTagReply
  simp only [kept_mk, kept_eta, readReply_kept]

theorem rawTagRead_kept (m : Nat) (f : Faults) (i : Item) (s : State) :
    (rawTagRead m f i s).kept = s.kept := by
  unfold rawTagRead
  (try dsimp only); (repeat' split) <;> simp only [kept_mk, kept_eta, txnOpen_kept, tagSecded_kept, rawTagReply_kept, fetchAsk_kept, issueR_kept]

theorem fetchIssue_kept (m : Nat) (f : TagFetch) (s : State) :
    (fetchIssue m f s).kept = s.kept := by
  unfold fetchIssue
  first
  | with_reducible rfl
  | ((try dsimp only); repeat' split) <;> (first | (with_reducible rfl) | (simp only [kept_mk, kept_eta, apply_ite State.kept, ite_self, slotUse_kept, issueR_kept]; done) | (simp only [kept_mk, kept_eta, apply_ite State.kept, ite_self, foldl_kept, implies_true, slotUse_kept, issueR_kept]; done) | (simp_all only [kept_mk, kept_eta, apply_ite State.kept, ite_self, foldl_kept, implies_true, slotUse_kept, issueR_kept]; done))

theorem doTaglineFetch_kept (m : Nat) (ft : Faults) (s : State) :
    (doTaglineFetch m ft s).kept = s.kept := by
  unfold doTaglineFetch
  (try dsimp only); (repeat' split) <;>
    simp only [kept_mk, kept_eta, apply_ite State.kept, ite_self, foldl_kept, implies_true, fetchIssue_kept, grantItemThen_kept, rawTagRead_kept]

theorem rawTagWrite_kept (m : Nat) (f : Faults) (i : Item) (s : State) :
    (rawTagWrite m f i s).kept = s.kept := by
  unfold rawTagWrite
  simp only [kept_mk, kept_eta, apply_ite State.kept, ite_self, txnOpen_kept, wordFaults_kept, rawPoisonNote_kept, issueW_kept, tagDropLine_kept, txnConsume_kept]

theorem wbSlot_kept (m k : Nat) (x : TagWay) (f : Faults) (s : State) :
    (wbSlot m k x f s).kept = s.kept := by
  unfold wbSlot
  simp only [kept_mk, kept_eta, apply_ite State.kept, ite_self, tagSecded_kept, rowErrors_kept, slotUse_kept, wbIssue_kept]

theorem doTagWriteback_kept (m : Nat) (f : Faults) (s : State) :
    (doTagWriteback m f s).kept = s.kept := by
  unfold doTagWriteback
  (try dsimp only); (repeat' split) <;>
    simp only [kept_mk, kept_eta, apply_ite State.kept, ite_self, foldl_kept, implies_true, wbSlot_kept, grantItemThen_kept, rawTagWrite_kept]

theorem doSidecarProbe_kept (m : Nat) (s : State) :
    (doSidecarProbe m s).kept = s.kept := by
  unfold doSidecarProbe
  simp only [kept_mk, kept_eta, apply_ite State.kept, ite_self, probeIssue_kept, slotUse_kept]

theorem doLookaheadProbe_kept (m : Nat) (s : State) :
    (doLookaheadProbe m s).kept = s.kept := by
  unfold doLookaheadProbe
  simp only [kept_mk, kept_eta, apply_ite State.kept, ite_self, probeIssue_kept, slotUse_kept]

theorem doPrefillProbe_kept (m : Nat) (s : State) :
    (doPrefillProbe m s).kept = s.kept := by
  unfold doPrefillProbe
  (try dsimp only); (repeat' split) <;> simp only [kept_mk, kept_eta, probesPut_kept, probeIssue_kept, slotUse_kept]

theorem doRekeyTake_kept (n : Nat) (s : State) :
    (doRekeyTake n s).kept = s.kept := by
  unfold doRekeyTake
  simp only [kept_mk, kept_eta, apply_ite State.kept, ite_self, takeLine_kept, rkPoll_kept, stepsLost_kept]

theorem rrSet_kept (m : Nat) (d : Dir) (n : Nat) (s : State) :
    (rrSet m d n s).kept = s.kept := by
  unfold rrSet
  simp only [kept_mk, kept_eta]

theorem stepTagAsk_kept (n a : Nat) (f : Faults) (s : State) :
    (stepTagAsk n a f s).kept = s.kept := by
  unfold stepTagAsk
  (try dsimp only); (repeat' split) <;> simp only [kept_mk, kept_eta, tagLookup_kept]

theorem doRekeyStep_kept (m : Nat) (f : Faults) (s : State) :
    (doRekeyStep m f s).kept = s.kept := by
  unfold doRekeyStep
  (try dsimp only); (repeat' split) <;> simp only [kept_mk, kept_eta, rowErrors_kept, rrSet_kept, slotUse_kept, ctxPut_kept, stepMod_kept, issueR_kept, stepTagAsk_kept]

theorem purgeWrite_kept (m n : Nat) (x : StepLine) (f : Faults) (s : State) :
    (purgeWrite m n x f s).kept = s.kept := by
  unfold purgeWrite
  (try dsimp only); (repeat' split) <;>
    ((try have hk_entryResolve := entryResolve_of (by assumption : entryResolve _ _ _ _ _ = _)); (try have hk_nextLctr := nextLctr_of (by assumption : nextLctr _ _ _ _ _ = _)); simp_all only [kept_mk, kept_eta, apply_ite State.kept, foldl_kept, ite_self, purgePut_kept, entryResolve_kept, nextLctr_kept, voteHold_kept])

theorem stepWriteGo_kept (m n : Nat) (x : StepLine) (f : Faults) (s : State) :
    (stepWriteGo m n x f s).kept = s.kept := by
  unfold stepWriteGo
  (try dsimp only); (repeat' split) <;>
    ((try have hk_entryResolve := entryResolve_of (by assumption : entryResolve _ _ _ _ _ = _)); (try have hk_nextLctr := nextLctr_of (by assumption : nextLctr _ _ _ _ _ = _)); simp_all only [kept_mk, kept_eta, apply_ite State.kept, foldl_kept, ite_self, stepMod_kept, entryResolve_kept, nextLctr_kept, stepFail_kept, spentNote_kept, writeSlice_kept])

theorem doRekeyStepWrite_kept (m : Nat) (f : Faults) (s : State) :
    (doRekeyStepWrite m f s).kept = s.kept := by
  unfold doRekeyStepWrite
  (try dsimp only); (repeat' split) <;> simp only [kept_mk, kept_eta, rowErrors_kept, rrSet_kept, slotUse_kept, stepMod_kept, purgeWrite_kept, stepWriteGo_kept]

theorem voteCmd_kept (sl : Nat) (d : Dir) (f : Faults) (s : State) :
    (voteCmd sl d f s).kept = s.kept := by
  unfold voteCmd
  (try dsimp only); (repeat' split) <;> simp only [kept_mk, kept_eta, selfTest_kept, doVote_kept, slotUse_kept]

theorem schkCmd_kept (sl : Nat) (f : Faults) (s : State) :
    (schkCmd sl f s).kept = s.kept := by
  unfold schkCmd
  (try dsimp only); (repeat' split) <;> simp only [kept_mk, kept_eta, doSchkRecompute_kept, slotUse_kept]

theorem doRowRepair_kept (m : Nat) (s : State) :
    (doRowRepair m s).kept = s.kept := by
  unfold doRowRepair
  (try dsimp only); (repeat' split) <;> simp only [kept_mk, kept_eta, slotUse_kept, raise_kept, countUp_kept, rowRemap_kept, logAppend_kept]

theorem flushIssue_kept (m : Nat) (o : MOwner) (s : State) :
    (flushIssue m o s).kept = s.kept := by
  unfold flushIssue
  simp only [kept_mk, kept_eta, issueW_kept, slotUse_kept]

theorem doFlushPersist_kept (m : Nat) (s : State) :
    (doFlushPersist m s).kept = s.kept := by
  unfold doFlushPersist
  (try dsimp only); (repeat' split) <;> simp only [kept_mk, kept_eta, flushIssue_kept, mediaMod_kept]

theorem drainCkpt_kept (s : State) (n : Nat) :
    (drainCkpt s n).kept = s.kept := by
  unfold drainCkpt
  simp only [kept_mk, kept_eta, apply_ite State.kept, ite_self, ckptPush_kept, ctxPut_kept]

theorem drainPoll_kept (s : State) :
    (drainPoll s).kept = s.kept := by
  unfold drainPoll
  (try dsimp only); (repeat' split) <;>
    simp only [kept_mk, kept_eta, apply_ite State.kept, ite_self, foldl_kept, implies_true, drainCkpt_kept, nvPush_kept]

theorem ctxAbandon_kept (s : State) (n : Nat) :
    (ctxAbandon s n).kept = s.kept := by
  unfold ctxAbandon
  simp only [kept_mk, kept_eta, apply_ite State.kept, ite_self, stepsDrop_kept, ctxPut_kept]

theorem fetchLostOwner_kept (tl : Nat) (s : State) (o : MOwner) :
    (fetchLostOwner tl s o).kept = s.kept := by
  unfold fetchLostOwner
  (try dsimp only); (repeat' split) <;> simp only [kept_mk, kept_eta, tagFetchLost_kept, holdDel_kept, readReply_kept]

theorem tagFetchFail_kept (tl : Nat) (s : State) :
    (tagFetchFail tl s).kept = s.kept := by
  unfold tagFetchFail
  (try dsimp only); (repeat' split) <;>
    simp only [kept_mk, kept_eta, apply_ite State.kept, ite_self, foldl_kept, implies_true, taglineMedia_kept, wayPut_kept, fetchLostOwner_kept, wbFetches_kept]

theorem fetchGotOwner_kept (tl : Nat) (d : Line) (s : State) (o : MOwner) :
    (fetchGotOwner tl d s o).kept = s.kept := by
  unfold fetchGotOwner
  (try dsimp only); (repeat' split) <;> simp only [kept_mk, kept_eta, readVerify_kept, holdDel_kept, rawTagReply_kept, txnPut_kept]

theorem tagFetchGot_kept (tl : Nat) (line : BitVec 576) (s : State) :
    (tagFetchGot tl line s).kept = s.kept := by
  unfold tagFetchGot
  (try dsimp only); (repeat' split) <;>
    simp only [kept_mk, kept_eta, apply_ite State.kept, ite_self, foldl_kept, implies_true, tlEv_kept, count1_kept, tagMerge_kept, fetchGotOwner_kept]

theorem probeDel_kept (m a : Nat) (void : Bool) (s : State) :
    (probeDel m a void s).kept = s.kept := by
  unfold probeDel
  simp only [kept_mk, kept_eta, probesPut_kept]

theorem probeFail_kept (m a : Nat) (s : State) :
    (probeFail m a s).kept = s.kept := by
  unfold probeFail
  (try dsimp only); (repeat' split) <;>
    simp only [kept_mk, kept_eta, apply_ite State.kept, ite_self, foldl_kept, implies_true, probeDel_kept, txnFinish_kept, raise_kept, count1_kept]

theorem probeRelease_kept (sc : Side) (f : Faults) (s : State) (t : Txn) :
    (probeRelease sc f s t).kept = s.kept := by
  unfold probeRelease
  simp only [kept_mk, kept_eta, entryFromSide_kept, writeGo_kept]

theorem probeGot_kept (m a : Nat) (sc : Side) (f : Faults) (s : State) : (probeGot m a sc f s).kept = s.kept := by
  unfold probeGot
  split
  · rfl
  · dsimp only
    rw [foldl_kept _ (fun s t => by split <;> simp only [writeGo_kept, probeRelease_kept])]
    split <;> simp only [jackFill_kept, probeDel_kept]

theorem readEnd_kept (m : Nat) (s : State) (o : MOp) :
    (readEnd m s o).kept = s.kept := by
  unfold readEnd
  (try dsimp only); (repeat' split) <;> simp only [kept_mk, kept_eta, tagFetchFail_kept, probeFail_kept, probeDel_kept, lineLost_kept]

theorem writeLost_kept (m : Nat) (s : State) (o : MOp) :
    (writeLost m s o).kept = s.kept := by
  unfold writeLost
  (try dsimp only); (repeat' split) <;> simp only [kept_mk, kept_eta, txnFinish_kept, tagDrop_kept, stepFail_kept, wayPut_kept, mediaMod_kept]

theorem grantLost_kept (m : Nat) (s : State) : (grantLost m s).kept = s.kept := by
  unfold grantLost
  dsimp only
  rw [foldl_kept _ (fun s t => by simp only [partialRefuse_kept, kept_mk, kept_eta]),
    foldl_kept _ (fun s t => by simp only [txnFinish_kept]), foldl_kept _ (fun s h => by
      (repeat' split) <;> simp only [txnFinish_kept, holdDel_kept, stepFail_kept])]

theorem portEmpty_kept (m : Nat) (s : State) :
    (portEmpty m s).kept = s.kept := by
  unfold portEmpty
  (try dsimp only); (repeat' split) <;>
    simp only [kept_mk, kept_eta, apply_ite State.kept, ite_self, foldl_kept, implies_true, mediaPut_kept, writeLost_kept, readEnd_kept, tagFetchFail_kept, probeFail_kept, probesPut_kept, stepsLost_kept, grantLost_kept, itemOut_kept, itemDel_kept]

theorem portFail_kept (m cause : Nat) (s : State) :
    (portFail m cause s).kept = s.kept := by
  unfold portFail
  simp only [kept_mk, kept_eta, apply_ite State.kept, ite_self, mediaMod_kept, faultLow_kept, regPut_kept, raise_kept, rkPoll_kept, portEmpty_kept]

theorem handshakeW_kept (m id : Nat) (s : State) :
    (handshakeW m id s).kept = s.kept := by
  unfold handshakeW
  (try dsimp only); (repeat' split) <;> simp only [kept_mk, kept_eta, mediaPut_kept, count1_kept]

theorem handshakeR_kept (m id : Nat) (s : State) :
    (handshakeR m id s).kept = s.kept := by
  unfold handshakeR
  (try dsimp only); (repeat' split) <;> simp only [kept_mk, kept_eta, mediaPut_kept, count1_kept]

theorem doMediaHandshake_kept (m : Nat) (dir : Dir) (id : Nat) (s : State) :
    (doMediaHandshake m dir id s).kept = s.kept := by
  unfold doMediaHandshake
  (try dsimp only); (repeat' split) <;> simp only [kept_mk, kept_eta, handshakeW_kept, handshakeR_kept]

theorem xferNote_kept (m dir : Nat) (o : MOp) (tries : Nat) (s : State) :
    (xferNote m dir o tries s).kept = s.kept := by
  unfold xferNote
  simp only [kept_mk, kept_eta, raise_kept, count1_kept]

theorem doTransferError_kept (m : Nat) (s : State) :
    (doTransferError m s).kept = s.kept := by
  unfold doTransferError
  (try dsimp only); (repeat' split) <;> simp only [kept_mk, kept_eta, xferNote_kept, mediaPut_kept, drainPoll_kept, portFail_kept]

theorem doAccepted_kept (m : Nat) (s : State) :
    (doAccepted m s).kept = s.kept := by
  unfold doAccepted
  (try dsimp only); (repeat' split) <;> simp only [kept_mk, kept_eta, portFail_kept, mediaPut_kept]

theorem aheadPersisted_kept (o : MOp) (s : State) :
    (aheadPersisted o s).kept = s.kept := by
  unfold aheadPersisted
  (try dsimp only); (repeat' split) <;> simp only [kept_mk, kept_eta, ctxPut_kept]

theorem writeDone_kept (t : Txn) (s : State) :
    (writeDone t s).kept = s.kept := by
  unfold writeDone
  simp only [kept_mk, kept_eta, apply_ite State.kept, ite_self, count1_kept, txnFinish_kept]

theorem rawPaid_kept (t : Txn) (o : MOp) (s : State) :
    (rawPaid t o s).kept = s.kept := by
  unfold rawPaid
  first
  | with_reducible rfl
  | ((try dsimp only); repeat' split) <;> (first | (with_reducible rfl) | (simp only [kept_mk, kept_eta, apply_ite State.kept, ite_self, tagPaid_kept]; done) | (simp only [kept_mk, kept_eta, apply_ite State.kept, ite_self, foldl_kept, implies_true, tagPaid_kept]; done) | (simp_all only [kept_mk, kept_eta, apply_ite State.kept, ite_self, foldl_kept, implies_true, tagPaid_kept]; done))

theorem persistedFor_kept (m : Nat) (o : MOp) (s : State) :
    (persistedFor m o s).kept = s.kept := by
  unfold persistedFor
  (try dsimp only); (repeat' split) <;> simp only [kept_mk, kept_eta, writeDone_kept, rawPaid_kept, stepEnd_kept, wbPersisted_kept, mediaMod_kept]

theorem drainCount_kept (o : MOp) (s : State) :
    (drainCount o s).kept = s.kept := by
  unfold drainCount
  (try dsimp only); (repeat' split) <;> simp only [kept_mk, kept_eta]

theorem doPersisted_kept (m id : Nat) (s : State) :
    (doPersisted m id s).kept = s.kept := by
  unfold doPersisted
  (try dsimp only); (repeat' split) <;> simp only [kept_mk, kept_eta, portFail_kept, mediaPut_kept, tagPersisted_kept, aheadPersisted_kept, drainCount_kept, persistedFor_kept, rkPoll_kept, stepsLost_kept]

theorem mediaErr_kept (m stat : Nat) (o : MOp) (s : State) :
    (mediaErr m stat o s).kept = s.kept := by
  unfold mediaErr
  simp only [kept_mk, kept_eta, raise_kept, regPut_kept, count1_kept]

theorem response_kept (m id kind stat : Nat) (parOk : Bool) (got : MOp → State → State) (s : State)
    (hgot : ∀ o s, (got o s).kept = s.kept) : (response m id kind stat parOk got s).kept = s.kept := by
  unfold response
  (try dsimp only); (repeat' split) <;>
    simp only [hgot, portFail_kept, mediaPut_kept, xferNote_kept, issueR_kept, readEnd_kept, mediaErr_kept]

theorem doLineArrival_kept (m id stat : Nat) (data : BitVec 576) (wpar : BitVec 16) (f : Faults) (s : State) :
    (doLineArrival m id stat data wpar f s).kept = s.kept := by
  unfold doLineArrival
  (try dsimp only); (repeat' split) <;>
    simp only [kept_mk, kept_eta, apply_ite State.kept, ite_self, foldl_kept, implies_true, response_kept, lineArrived_kept, rowErrors_kept]

theorem doSidecarArrival_kept (m id stat : Nat) (data : BitVec 576) (wpar : BitVec 16) (f : Faults) (s : State) :
    (doSidecarArrival m id stat data wpar f s).kept = s.kept :=
  response_kept _ _ _ _ _ _ _ (fun o s => by split <;> simp only [probeGot_kept, probeDel_kept])

theorem doTaglineArrival_kept (m id stat : Nat) (data : BitVec 576) (wpar : BitVec 16) (s : State) :
    (doTaglineArrival m id stat data wpar s).kept = s.kept :=
  response_kept _ _ _ _ _ _ _ (fun o s => by split <;> simp only [tagFetchGot_kept])

theorem doReadTimeout_kept (m id : Nat) (s : State) :
    (doReadTimeout m id s).kept = s.kept := by
  unfold doReadTimeout
  (try dsimp only); (repeat' split) <;> simp only [kept_mk, kept_eta, mediaPut_kept, raise_kept, readEnd_kept, count1_kept]

theorem doPersistTimeout_kept (m id : Nat) (s : State) :
    (doPersistTimeout m id s).kept = s.kept := by
  unfold doPersistTimeout
  (try dsimp only); (repeat' split) <;> simp only [kept_mk, kept_eta, mediaPut_kept, raise_kept, count1_kept, portFail_kept]

theorem doMpStall_kept (m : Nat) (dir : Dir) (cycles : Nat) (s : State) :
    (doMpStall m dir cycles s).kept = s.kept := by
  unfold doMpStall
  (try dsimp only); (repeat' split) <;> simp only [kept_mk, kept_eta, raise_kept]

theorem sweepRead_kept (hdr : List (Nat × BitVec 144)) (i : Item) (s : State) :
    (sweepRead hdr i s).2.kept = s.kept := by
  unfold sweepRead
  first
  | with_reducible rfl
  | ((try dsimp only); repeat' split) <;> (first | (with_reducible rfl) | (simp only [kept_mk, kept_eta, apply_ite State.kept, ite_self, wordsNote_kept]; done) | (simp only [kept_mk, kept_eta, apply_ite State.kept, ite_self, foldl_kept, implies_true, wordsNote_kept]; done) | (simp_all only [kept_mk, kept_eta, apply_ite State.kept, ite_self, foldl_kept, implies_true, wordsNote_kept]; done))

theorem sweepRead_of {hdr : List (Nat × BitVec 144)} {i : Item} {s : State} {pp} (h : sweepRead hdr i s = pp) : pp.2.kept = s.kept := h ▸ sweepRead_kept hdr i s

theorem sweepItem_kept (hdr : List (Nat × BitVec 144)) (s : State) (i : Item) :
    (sweepItem hdr s i).kept = s.kept := by
  unfold sweepItem
  simp only [kept_mk, kept_eta, apply_ite State.kept, ite_self, sweepRead_kept, hdrLost_kept, itemFlushed_kept]

theorem sweepBitmaps_kept (freed held : Nat) (s : State) :
    (sweepBitmaps freed held s).kept = s.kept := by
  unfold sweepBitmaps
  simp only [kept_mk, kept_eta, apply_ite State.kept, ite_self, countUp_kept, raise_kept]

theorem sweepOld_kept (s : State) :
    (sweepOld s).kept = s.kept := by
  unfold sweepOld
  simp only [kept_mk, kept_eta]

theorem doPoolSweepPass_kept (ptr : List (Nat × Fin 5)) (freed held : Nat) (hdr : List (Nat × BitVec 144)) (s : State) :
    (doPoolSweepPass ptr freed held hdr s).kept = s.kept := by
  unfold doPoolSweepPass
  (try dsimp only); (repeat' split) <;>
    simp only [kept_mk, kept_eta, apply_ite State.kept, ite_self, foldl_kept, implies_true, sweepItem_kept, sweepRead_kept, sweepOld_kept, sweepBitmaps_kept, queueReset_kept]

theorem queueFlush_kept (q : Nat) (s : State) :
    (queueFlush q s).kept = s.kept := by
  unfold queueFlush
  (try dsimp only); (repeat' split) <;>
    simp only [kept_mk, kept_eta, apply_ite State.kept, ite_self, foldl_kept, implies_true, stickyTrim_kept, raise_kept, itemFlushed_kept]

theorem iqFlushSet_kept (m v : Nat) (s : State) :
    (iqFlushSet m v s).kept = s.kept := by
  unfold iqFlushSet
  (try dsimp only); (repeat' split) <;>
    simp only [kept_mk, kept_eta, apply_ite State.kept, ite_self, foldl_kept, implies_true, regPut_kept, queueFlush_kept]

theorem doNvReadDone_kept (err : Bool) (page : BitVec 512) (s : State) :
    (doNvReadDone err page s).kept = s.kept := by
  unfold doNvReadDone
  (try dsimp only); (repeat' split) <;>
    simp only [kept_mk, kept_eta, apply_ite State.kept, ite_self, foldl_kept, implies_true, nvKick_kept, nvJobDone_kept, nvRetry_kept]

theorem fecCount_kept (p n : Nat) (s : State) :
    (fecCount p n s).kept = s.kept := by
  unfold fecCount
  simp only [kept_mk, kept_eta, countUp_kept]

theorem lcwError_kept (p cause : Nat) (w : BitVec 64) (s : State) :
    (lcwError p cause w s).kept = s.kept := by
  unfold lcwError
  simp only [kept_mk, kept_eta, linkDown_kept, raise_kept]

theorem lockGain_kept (p : Nat) (s : State) :
    (lockGain p s).kept = s.kept := by
  unfold lockGain
  first
  | with_reducible rfl
  | ((try dsimp only); repeat' split) <;> (first | (with_reducible rfl) | (simp only [kept_mk, kept_eta, apply_ite State.kept, ite_self, linkMod_kept]; done) | (simp only [kept_mk, kept_eta, apply_ite State.kept, ite_self, foldl_kept, implies_true, linkMod_kept]; done) | (simp_all only [kept_mk, kept_eta, apply_ite State.kept, ite_self, foldl_kept, implies_true, linkMod_kept]; done))

theorem lockLose_kept (p : Nat) (s : State) :
    (lockLose p s).kept = s.kept := by
  unfold lockLose
  first
  | with_reducible rfl
  | ((try dsimp only); repeat' split) <;> (first | (with_reducible rfl) | (simp only [kept_mk, kept_eta, apply_ite State.kept, ite_self, sumUp_kept, count1_kept, linkMod_kept]; done) | (simp only [kept_mk, kept_eta, apply_ite State.kept, ite_self, foldl_kept, implies_true, sumUp_kept, count1_kept, linkMod_kept]; done) | (simp_all only [kept_mk, kept_eta, apply_ite State.kept, ite_self, foldl_kept, implies_true, sumUp_kept, count1_kept, linkMod_kept]; done))

theorem flitLost_kept (p : Nat) (bad nak : State → State) (s : State) (hb : ∀ s, (bad s).kept = s.kept)
    (hn : ∀ s, (nak s).kept = s.kept) : (flitLost p bad nak s).kept = s.kept := by
  unfold flitLost
  (try dsimp only); (repeat' split) <;> simp only [hb, hn, linkMod_kept, linkPut_kept, lockLose_kept]

theorem flitGood_kept (p n : Nat) (go : State → State) (s : State) (hgo : ∀ s, (go s).kept = s.kept) :
    (flitGood p n go s).kept = s.kept := by
  unfold flitGood
  (try dsimp only); (repeat' split) <;> simp only [hgo, linkPut_kept, fecCount_kept, lockGain_kept]

theorem doRateChange_kept (p rate : Nat) (s : State) :
    (doRateChange p rate s).kept = s.kept := by
  unfold doRateChange
  simp only [kept_mk, kept_eta, apply_ite State.kept, ite_self, linkPut_kept, linkDown_kept]

theorem doLockGained_kept (p : Nat) (s : State) :
    (doLockGained p s).kept = s.kept := by
  unfold doLockGained
  simp only [kept_mk, kept_eta, apply_ite State.kept, ite_self, lockGain_kept]

theorem doLockLost_kept (p : Nat) (s : State) :
    (doLockLost p s).kept = s.kept := by
  unfold doLockLost
  simp only [kept_mk, kept_eta, apply_ite State.kept, ite_self, lockLose_kept]

theorem doTLosExpiry_kept (p : Nat) (s : State) :
    (doTLosExpiry p s).kept = s.kept := by
  unfold doTLosExpiry
  (try dsimp only); (repeat' split) <;> simp only [kept_mk, kept_eta, linkDown_kept]

theorem nakSum_kept (p : Nat) (sent : Option Nat) (s : State) :
    (nakSum p sent s).kept = s.kept := by
  unfold nakSum
  simp only [kept_mk, kept_eta, sumSet_kept]

theorem badSum_kept (p : Nat) (crc : Bool) (s : State) :
    (badSum p crc s).kept = s.kept := by
  unfold badSum
  simp only [kept_mk, kept_eta, sumSet_kept]

theorem timerUndo_kept (p : Nat) (s : State) :
    (timerUndo p s).kept = s.kept := by
  unfold timerUndo
  first
  | with_reducible rfl
  | ((try dsimp only); repeat' split) <;> (first | (with_reducible rfl) | (simp only [kept_mk, kept_eta, apply_ite State.kept, ite_self, regPut_kept, linkMod_kept]; done) | (simp only [kept_mk, kept_eta, apply_ite State.kept, ite_self, foldl_kept, implies_true, regPut_kept, linkMod_kept]; done) | (simp_all only [kept_mk, kept_eta, apply_ite State.kept, ite_self, foldl_kept, implies_true, regPut_kept, linkMod_kept]; done))

theorem nakTake_kept (p : Nat) (before : LinkSt) (w : BitVec 64) (s : State) :
    (nakTake p before w s).kept = s.kept := by
  unfold nakTake
  simp only [kept_mk, kept_eta, apply_ite State.kept, ite_self, timerUndo_kept, nakSum_kept, count1_kept, linkMod_kept]

theorem ackFields_kept (p : Nat) (w : BitVec 64) (s : State) :
    (ackFields p w s).kept = s.kept := by
  unfold ackFields
  simp only [kept_mk, kept_eta, nakTake_kept, linkPut_kept]

theorem rxlockNote_kept (p : Nat) (w : BitVec 64) (s : State) :
    (rxlockNote p w s).kept = s.kept := by
  unfold rxlockNote
  simp only [kept_mk, kept_eta, linkMod_kept]

theorem slotCut_kept (p : Fin 128) (cause k : Nat) (w : BitVec 128) (s : State) :
    (slotCut p cause k w s).kept = s.kept := by
  unfold slotCut
  simp only [kept_mk, kept_eta, apply_ite State.kept, ite_self, creditCut_kept, slotError_kept, linkFate_kept]

theorem creditReturn_kept (p : Fin 128) (l : List (BitVec 16 × BitVec 16)) (s : State) :
    (creditReturn p l s).kept = s.kept := by
  induction l generalizing s with
  | nil => rfl
  | cons e t ih =>
    unfold creditReturn
    (try dsimp only); (repeat' split) <;>
      simp only [ih, creditOverrun_kept, creditSettle_kept, kept_mk, kept_eta]

theorem doCreditReturn_kept (p : Fin 128) (es : List (BitVec 16 × BitVec 16)) (s : State) :
    (doCreditReturn p es s).kept = s.kept := by
  unfold doCreditReturn
  simp only [kept_mk, kept_eta, apply_ite State.kept, ite_self, creditReturn_kept]

theorem doResyncDone_kept (p drop : Nat) (s : State) :
    (doResyncDone p drop s).kept = s.kept := by
  unfold doResyncDone
  simp only [kept_mk, kept_eta, apply_ite State.kept, ite_self, linkPut_kept, count1_kept]

theorem slotRequest_kept (p : Fin 128) (body : BitVec 1920) (k : Nat) (s : State) :
    (slotRequest p body k s).kept = s.kept := by
  unfold slotRequest
  (try dsimp only); (repeat' split) <;> simp only [kept_mk, kept_eta, creditReturn_kept, fenceReceive_kept, reqReceive_kept]

theorem cutRest_kept (n : Nat) (p : Fin 128) (body : BitVec 1920) (k : Nat) (s : State) :
    (cutRest n p body k s).kept = s.kept := by
  induction n generalizing k s with
  | zero => rfl
  | succ n ih =>
    unfold cutRest
    (try dsimp only); (repeat' split) <;> simp only [ih, linkFate_kept, creditCut_kept]

theorem slotRun_kept (n : Nat) (p : Fin 128) (vcm : BitVec 15) (body : BitVec 1920) (k : Nat) (s : State) :
    (slotRun n p vcm body k s).kept = s.kept := by
  induction n generalizing k s with
  | zero => rfl
  | succ n ih =>
    unfold slotRun
    (try dsimp only); (repeat' split) <;>
      simp only [ih, slotCut_kept, cutRest_kept, slotRequest_kept, doResyncDone_kept]

theorem dataAccept_kept (p : Fin 128) (w : BitVec 64) (body : BitVec 1920) (s : State) :
    (dataAccept p w body s).kept = s.kept := by
  unfold dataAccept
  simp only [kept_mk, kept_eta, count1_kept, linkMod_kept, slotRun_kept]

theorem rxFlit_kept (p : Nat) (errs : List Nat) (go : State → State) (s : State) (hgo : ∀ s, (go s).kept = s.kept) :
    (rxFlit p errs go s).kept = s.kept := by
  unfold rxFlit
  split
  · rfl
  · split
    · exact flitLost_kept _ _ _ _ (fun s => by simp only [badSum_kept, count1_kept])
        (fun s => by split <;> simp only [linkMod_kept])
    · exact flitGood_kept _ _ _ _ hgo

theorem rxData_kept (p : Fin 128) (w : BitVec 64) (body : BitVec 1920) (s : State) :
    (rxData p w body s).kept = s.kept := by
  unfold rxData
  first
  | with_reducible rfl
  | ((try dsimp only); repeat' split) <;> (first | (with_reducible rfl) | (simp only [kept_mk, kept_eta, apply_ite State.kept, ite_self, count1_kept, lcwError_kept, rxlockNote_kept, ackFields_kept, dataAccept_kept, linkMod_kept]; done) | (simp only [kept_mk, kept_eta, apply_ite State.kept, ite_self, foldl_kept, implies_true, count1_kept, lcwError_kept, rxlockNote_kept, ackFields_kept, dataAccept_kept, linkMod_kept]; done) | (simp_all only [kept_mk, kept_eta, apply_ite State.kept, ite_self, foldl_kept, implies_true, count1_kept, lcwError_kept, rxlockNote_kept, ackFields_kept, dataAccept_kept, linkMod_kept]; done))

theorem doRxDataFlit_kept (p : Fin 128) (errs : List Nat) (w : BitVec 64) (body : BitVec 1920) (s : State) :
    (doRxDataFlit p errs w body s).kept = s.kept := rxFlit_kept _ _ _ _ (fun _ => rxData_kept _ _ _ _)

theorem rxPlain_kept (p : Nat) (errs : List Nat) (acks : Bool) (w : BitVec 64) (go : State → State) (s : State)
    (hgo : ∀ s, (go s).kept = s.kept) : (rxPlain p errs acks w go s).kept = s.kept := by
  unfold rxPlain
  exact rxFlit_kept _ _ _ _ (fun s => by
    (try dsimp only); (repeat' split) <;>
      simp only [hgo, lcwError_kept, rxlockNote_kept, linkMod_kept, ackFields_kept, apply_ite State.kept, ite_self])

theorem doRxAckOnly_kept (p : Nat) (errs : List Nat) (w : BitVec 64) (s : State) : (doRxAckOnly p errs w s).kept = s.kept :=
  rxPlain_kept _ _ _ _ _ _ (fun _ => rfl)

theorem doRxIdle_kept (p : Nat) (errs : List Nat) (w : BitVec 64) (s : State) : (doRxIdle p errs w s).kept = s.kept :=
  rxPlain_kept _ _ _ _ _ _ (fun _ => rfl)

theorem peerNote_kept (p : Nat) (dig : BitVec 64) (gen : BitVec 32) (s : State) :
    (peerNote p dig gen s).kept = s.kept := by
  unfold peerNote
  simp only [kept_mk, kept_eta, apply_ite State.kept, ite_self, regPut_kept, raise_kept, linkMod_kept]

theorem doRxHeartbeat_kept (p : Nat) (errs : List Nat) (w : BitVec 64) (dig : BitVec 64) (gen : BitVec 32) (s : State) :
    (doRxHeartbeat p errs w dig gen s).kept = s.kept :=
  rxPlain_kept _ _ _ _ _ _ (fun _ => peerNote_kept _ _ _ _)

theorem doRxBadFlit_kept (p : Nat) (errs : List Nat) (flit : BitVec 2048) (s : State) :
    (doRxBadFlit p errs flit s).kept = s.kept := by
  unfold doRxBadFlit
  exact rxFlit_kept _ _ _ _ (fun s => by
    (try dsimp only); (repeat' split) <;> simp only [linkMod_kept, badSum_kept, count1_kept])

theorem rxNegotiate_kept (p : Nat) (errs : List Nat) (w : BitVec 64) (go : State → State) (s : State)
    (hgo : ∀ s, (go s).kept = s.kept) : (rxNegotiate p errs w go s).kept = s.kept := by
  unfold rxNegotiate
  exact rxFlit_kept _ _ _ _ (fun s => by split <;> simp only [lcwError_kept, hgo])

theorem doRxDown_kept (p : Nat) (errs : List Nat) (w : BitVec 64) (s : State) : (doRxDown p errs w s).kept = s.kept :=
  rxNegotiate_kept _ _ _ _ _ (fun s => by split <;> simp only [linkDown_kept])

theorem doRxReservedType_kept (p : Nat) (errs : List Nat) (w : BitVec 64) (s : State) :
    (doRxReservedType p errs w s).kept = s.kept := rxFlit_kept _ _ _ _ (fun _ => lcwError_kept _ _ _ _)

theorem offerRefuse_kept (p res : Nat) (v : OwnVals) (o : Offer) (s : State) :
    (offerRefuse p res v o s).kept = s.kept := by
  unfold offerRefuse
  simp only [kept_mk, kept_eta, raise_kept, count1_kept, linkMod_kept]

theorem offerAccept_kept (p : Nat) (v : OwnVals) (o : Offer) (s : State) :
    (offerAccept p v o s).kept = s.kept := by
  unfold offerAccept
  (try dsimp only); (repeat' split) <;> simp only [kept_mk, kept_eta, regPut_kept, linkMod_kept]

theorem rxOffer_kept (p : Nat) (o : Offer) (s : State) :
    (rxOffer p o s).kept = s.kept := by
  unfold rxOffer
  first
  | with_reducible rfl
  | ((try dsimp only); repeat' split) <;> (first | (with_reducible rfl) | (simp only [kept_mk, kept_eta, apply_ite State.kept, ite_self, linkDown_kept, linkMod_kept, offerAccept_kept, offerRefuse_kept]; done) | (simp only [kept_mk, kept_eta, apply_ite State.kept, ite_self, foldl_kept, implies_true, linkDown_kept, linkMod_kept, offerAccept_kept, offerRefuse_kept]; done) | (simp_all only [kept_mk, kept_eta, apply_ite State.kept, ite_self, foldl_kept, implies_true, linkDown_kept, linkMod_kept, offerAccept_kept, offerRefuse_kept]; done))

theorem doRxParamOffer_kept (p : Nat) (errs : List Nat) (w : BitVec 64) (o : Offer) (s : State) :
    (doRxParamOffer p errs w o s).kept = s.kept := rxNegotiate_kept _ _ _ _ _ (fun _ => rxOffer_kept _ _ _)

theorem linkUp_kept (p : Nat) (v : NegVals) (s : State) :
    (linkUp p v s).kept = s.kept := by
  unfold linkUp
  simp only [kept_mk, kept_eta, regPut_kept, linkMod_kept, raise_kept]

theorem rxConfirm_kept (p : Nat) (c : Confirm) (s : State) :
    (rxConfirm p c s).kept = s.kept := by
  unfold rxConfirm
  first
  | with_reducible rfl
  | ((try dsimp only); repeat' split) <;> (first | (with_reducible rfl) | (simp only [kept_mk, kept_eta, apply_ite State.kept, ite_self, linkUp_kept, linkDown_kept, count1_kept]; done) | (simp only [kept_mk, kept_eta, apply_ite State.kept, ite_self, foldl_kept, implies_true, linkUp_kept, linkDown_kept, count1_kept]; done) | (simp_all only [kept_mk, kept_eta, apply_ite State.kept, ite_self, foldl_kept, implies_true, linkUp_kept, linkDown_kept, count1_kept]; done))

theorem doRxParamConfirm_kept (p : Nat) (errs : List Nat) (w : BitVec 64) (c : Confirm) (s : State) :
    (doRxParamConfirm p errs w c s).kept = s.kept := rxNegotiate_kept _ _ _ _ _ (fun _ => rxConfirm_kept _ _ _)

theorem doTNegExpiry_kept (p : Nat) (s : State) :
    (doTNegExpiry p s).kept = s.kept := by
  unfold doTNegExpiry
  simp only [kept_mk, kept_eta, apply_ite State.kept, ite_self, linkDown_kept]

theorem doHbLost_kept (p : Nat) (s : State) :
    (doHbLost p s).kept = s.kept := by
  unfold doHbLost
  simp only [kept_mk, kept_eta, apply_ite State.kept, ite_self, linkDown_kept, raise_kept, count1_kept]

theorem flitSend_kept (p : Nat) (o : FlitOut) (s : State) :
    (flitSend p o s).kept = s.kept := by
  unfold flitSend
  simp only [kept_mk, kept_eta, linkMod_kept]

theorem ackSend_kept (p : Nat) (ty seq : Nat) (vcm : BitVec 15) (body : BitVec 1920) (retx : Bool) (s : State) :
    (ackSend p ty seq vcm body retx s).kept = s.kept := by
  unfold ackSend
  simp only [kept_mk, kept_eta, apply_ite State.kept, ite_self, nakSum_kept, count1_kept, flitSend_kept, linkMod_kept]

theorem sendDown_kept (p : Nat) (s : State) :
    (sendDown p s).kept = s.kept := by
  unfold sendDown
  (try dsimp only); (repeat' split) <;> simp only [kept_mk, kept_eta, flitSend_kept, linkPut_kept]

theorem replayParity_kept (p seq : Nat) (s : State) :
    (replayParity p seq s).kept = s.kept := by
  unfold replayParity
  simp only [kept_mk, kept_eta, linkDown_kept, raise_kept]

theorem sendReplay_kept (p r : Nat) (parityBad : Bool) (s : State) :
    (sendReplay p r parityBad s).kept = s.kept := by
  unfold sendReplay
  (try dsimp only); (repeat' split) <;> simp only [kept_mk, kept_eta, replayParity_kept, linkPut_kept, ackSend_kept, count1_kept]

theorem handOver_kept (p : Nat) (s : State) (r : Rsp) :
    (handOver p s r).kept = s.kept := by
  unfold handOver
  simp only [kept_mk, kept_eta, apply_ite State.kept, ite_self, linkMod_kept, count1_kept, creditRelease_kept]

theorem sendData_kept (p : Nat) (f : Faults) (s : State) :
    (sendData p f s).kept = s.kept := by
  unfold sendData
  first
  | with_reducible rfl
  | ((try dsimp only); repeat' split) <;> (first | (with_reducible rfl) | (simp only [kept_mk, kept_eta, apply_ite State.kept, ite_self, queueReset_kept, wordsNote_kept, linkDown_kept, eqPut_kept, ackSend_kept, count1_kept, linkMod_kept, partnerFeed_kept, handOver_kept]; done) | (simp only [kept_mk, kept_eta, apply_ite State.kept, ite_self, foldl_kept, implies_true, queueReset_kept, wordsNote_kept, linkDown_kept, eqPut_kept, ackSend_kept, count1_kept, linkMod_kept, partnerFeed_kept, handOver_kept]; done) | (simp_all only [kept_mk, kept_eta, apply_ite State.kept, ite_self, foldl_kept, implies_true, queueReset_kept, wordsNote_kept, linkDown_kept, eqPut_kept, ackSend_kept, count1_kept, linkMod_kept, partnerFeed_kept, handOver_kept]; done))

theorem sendUp_kept (p : Nat) (parityBad : Bool) (f : Faults) (s : State) :
    (sendUp p parityBad f s).kept = s.kept := by
  unfold sendUp
  (try dsimp only); (repeat' split) <;> simp only [kept_mk, kept_eta, ackSend_kept, linkPut_kept, sendReplay_kept, sendData_kept, flitSend_kept]

theorem doFlitTransmit_kept (p : Nat) (parityBad : Bool) (f : Faults) (s : State) :
    (doFlitTransmit p parityBad f s).kept = s.kept := by
  unfold doFlitTransmit
  simp only [kept_mk, kept_eta, apply_ite State.kept, ite_self, linkPut_kept, flitSend_kept, sendUp_kept, rowErrors_kept, sendDown_kept]

theorem doAckTimer_kept (p : Nat) (s : State) :
    (doAckTimer p s).kept = s.kept := by
  unfold doAckTimer
  simp only [kept_mk, kept_eta, linkMod_kept]

theorem doReplayTimer_kept (p : Nat) (parityBad : Bool) (f : Faults) (s : State) :
    (doReplayTimer p parityBad f s).kept = s.kept := by
  unfold doReplayTimer
  simp only [kept_mk, kept_eta, apply_ite State.kept, ite_self, sumUp_kept, linkPut_kept, linkDown_kept, count1_kept, rowErrors_kept, replayParity_kept, linkMod_kept]

theorem doHeartbeatDue_kept (p : Nat) (s : State) :
    (doHeartbeatDue p s).kept = s.kept := by
  unfold doHeartbeatDue
  simp only [kept_mk, kept_eta, linkMod_kept]

theorem doResyncSend_kept (p : Nat) (s : State) : (doResyncSend p s).kept = s.kept := by
  unfold doResyncSend
  dsimp only
  split
  · rw [grantSend_kept, raise_kept, foldl_kept _ (fun s r => by simp only [partnerPush_kept])]
    simp only [regPut_kept, linkPut_kept]
  · rfl

theorem doGrantHoldExpiry_kept (p : Nat) (s : State) :
    (doGrantHoldExpiry p s).kept = s.kept := by
  unfold doGrantHoldExpiry
  simp only [kept_mk, kept_eta, apply_ite State.kept, ite_self, grantSend_kept]

theorem zeroizeTxn_kept (s : State) (t : Txn) :
    (zeroizeTxn s t).kept = s.kept := by
  unfold zeroizeTxn
  simp only [kept_mk, kept_eta, apply_ite State.kept, ite_self, txnFinish_kept, partialRefuse_kept]

theorem ctxSuspendAll_kept (s : State) :
    (ctxSuspendAll s).kept = s.kept := by
  unfold ctxSuspendAll
  (try dsimp only); (repeat' split) <;>
    simp only [kept_mk, kept_eta, apply_ite State.kept, ite_self, foldl_kept, implies_true, ctxSuspend_kept]

theorem doZeroizeQualify_kept (s : State) :
    (doZeroizeQualify s).kept = s.kept := by
  unfold doZeroizeQualify
  (try dsimp only); (repeat' split) <;>
    simp only [kept_mk, kept_eta, apply_ite State.kept, ite_self, foldl_kept, implies_true, kpAbort_kept, countUp_kept, count1_kept, slotZeroize_kept, zeroizeTxn_kept, drainPoll_kept, ctxSuspendAll_kept]

theorem doZeroizeDone_kept (s : State) :
    (doZeroizeDone s).kept = s.kept := by
  unfold doZeroizeDone
  simp only [kept_mk, kept_eta, apply_ite State.kept, ite_self, raise_kept]

theorem doZeroizeReturn_kept (s : State) :
    (doZeroizeReturn s).kept = s.kept := by
  unfold doZeroizeReturn
  simp only [kept_mk, kept_eta, apply_ite State.kept, ite_self]

theorem doHoldoffEnd_kept (s : State) :
    (doHoldoffEnd s).kept = s.kept := by
  unfold doHoldoffEnd
  (try dsimp only); (repeat' split) <;> simp only [kept_mk, kept_eta]

theorem doZeroizeShortPulse_kept (s : State) :
    (doZeroizeShortPulse s).kept = s.kept := by
  unfold doZeroizeShortPulse
  simp only [kept_mk, kept_eta, apply_ite State.kept, ite_self, sumUp_kept, count1_kept]

theorem doDebugLockBlown_kept (s : State) :
    (doDebugLockBlown s).kept = s.kept := by
  unfold doDebugLockBlown
  simp only [kept_mk, kept_eta]

theorem doDrainComplete_kept (s : State) :
    (doDrainComplete s).kept = s.kept := by
  unfold doDrainComplete
  simp only [kept_mk, kept_eta, apply_ite State.kept, ite_self, regPut_kept]

theorem doDrainLate_kept (s : State) :
    (doDrainLate s).kept = s.kept := by
  unfold doDrainLate
  simp only [kept_mk, kept_eta, apply_ite State.kept, ite_self, raise_kept]

theorem doPwrWarnShortPulse_kept (samples : Nat) (s : State) :
    (doPwrWarnShortPulse samples s).kept = s.kept := by
  unfold doPwrWarnShortPulse
  (try dsimp only); (repeat' split) <;> simp only [kept_mk, kept_eta, count1_kept]

theorem doPwrWarnReturn_kept (s : State) :
    (doPwrWarnReturn s).kept = s.kept := by
  unfold doPwrWarnReturn
  (try dsimp only); (repeat' split) <;> simp only [kept_mk, kept_eta]

theorem ctxUnpark_kept (s : State) (n : Nat) :
    (ctxUnpark s n).kept = s.kept := by
  unfold ctxUnpark
  simp only [kept_mk, kept_eta, apply_ite State.kept, ite_self, boundSet_kept, ctxPut_kept, rekeyResumeEv_kept]

theorem resumeFlush_kept (s : State) :
    (resumeFlush s).kept = s.kept := by
  unfold resumeFlush
  (try dsimp only); (repeat' split) <;>
    simp only [kept_mk, kept_eta, apply_ite State.kept, ite_self, foldl_kept, implies_true, queueFlush_kept]

theorem doResume_kept (s : State) :
    (doResume s).kept = s.kept := by
  unfold doResume
  (try dsimp only); (repeat' split) <;>
    simp only [kept_mk, kept_eta, apply_ite State.kept, ite_self, foldl_kept, implies_true, raise_kept, nvPush_kept, resumeFlush_kept, ctxUnpark_kept, rkSchedule_kept, rkPoll_kept]

theorem fuseApply_kept (img : FuseImage) (s : State) :
    (fuseApply img s).kept = s.kept := by
  unfold fuseApply
  (try dsimp only); (repeat' split) <;>
    simp only [kept_mk, kept_eta, apply_ite State.kept, ite_self, foldl_kept, implies_true, countUp_kept, rowRemap_kept, regPut_kept, faultLow_kept, raise_kept]

theorem logIgnore_kept (s : State) :
    (logIgnore s).kept = s.kept := by
  unfold logIgnore
  simp only [kept_mk, kept_eta, countUp_kept]

theorem logApply_kept (e : LogEnt) (s : State) :
    (logApply e s).kept = s.kept := by
  unfold logApply
  (try dsimp only); (repeat' split) <;>
    simp only [kept_mk, kept_eta, apply_ite State.kept, ite_self, foldl_kept, implies_true, countUp_kept, rowRemap_kept, logIgnore_kept, pipeRetire_kept, sliceLose_kept, slicePut_kept]

theorem logPlace_kept (s : State) (i : Nat) :
    (logPlace s i).kept = s.kept := by
  unfold logPlace
  first
  | with_reducible rfl
  | ((try dsimp only); repeat' split) <;> (first | (with_reducible rfl) | (simp only [kept_mk, kept_eta, apply_ite State.kept, ite_self, logApply_kept, logIgnore_kept]; done) | (simp only [kept_mk, kept_eta, apply_ite State.kept, ite_self, foldl_kept, implies_true, logApply_kept, logIgnore_kept]; done) | (simp_all only [kept_mk, kept_eta, apply_ite State.kept, ite_self, foldl_kept, implies_true, logApply_kept, logIgnore_kept]; done))

theorem doFuseLoadDone_kept (img : FuseImage) (s : State) : (doFuseLoadDone img s).kept = s.kept := by
  unfold doFuseLoadDone
  split
  · dsimp only
    rw [kept_mk, kept_eta, foldl_kept _ (fun s i => logPlace_kept s i), fuseApply_kept, kept_mk, kept_eta]
  · rfl

theorem bistRow_kept (mac row : Nat) (soft : Bool) (s : State) :
    (bistRow mac row soft s).kept = s.kept := by
  unfold bistRow
  first
  | with_reducible rfl
  | ((try dsimp only); repeat' split) <;> (first | (with_reducible rfl) | (simp only [kept_mk, kept_eta, apply_ite State.kept, ite_self, logAppend_kept, countUp_kept, rowRemap_kept, raise_kept, rowBad_kept]; done) | (simp only [kept_mk, kept_eta, apply_ite State.kept, ite_self, foldl_kept, implies_true, logAppend_kept, countUp_kept, rowRemap_kept, raise_kept, rowBad_kept]; done) | (simp_all only [kept_mk, kept_eta, apply_ite State.kept, ite_self, foldl_kept, implies_true, logAppend_kept, countUp_kept, rowRemap_kept, raise_kept, rowBad_kept]; done))

theorem bistOne_kept (s : State) (b : BistFail) :
    (bistOne s b).kept = s.kept := by
  unfold bistOne
  (try dsimp only); (repeat' split) <;> simp only [kept_mk, kept_eta, bistRow_kept, sliceJudge_kept, pipeRetire_kept, sliceLose_kept, linkMod_kept]

theorem bistAll_kept (s : State) (l : List BistFail) : (bistAll s l).1.kept = s.kept := by
  have h : ∀ (l : List BistFail) (a : State × Bool),
      (l.foldl (fun a b => (bistOne a.1 b, a.2 && bistMends a.1 b)) a).1.kept = a.1.kept := by
    intro l
    induction l with
    | nil => intro a; rfl
    | cons b t ih => intro a; simp only [List.foldl_cons, ih, bistOne_kept]
  exact h l (s, true)

theorem bistKind_kept (fails : List BistFail) (s : State) (k : Nat) : (bistKind fails s k).kept = s.kept := by
  unfold bistKind
  (try dsimp only); (repeat' split) <;> simp only [raiseSev_kept, regPut_kept, bistAll_kept]

theorem doBistDone_kept (fails : List BistFail) (s : State) :
    (doBistDone fails s).kept = s.kept := by
  unfold doBistDone
  (try dsimp only); (repeat' split) <;>
    simp only [kept_mk, kept_eta, apply_ite State.kept, ite_self, foldl_kept, implies_true, bistKind_kept, regPut_kept]

theorem recSelect_kept (a b : Nat) (valid : Nat → Bool) (s : State) : (recSelect a b valid s).2.kept = s.kept :=
  selNote_kept _ s

theorem recSelect_of {a b : Nat} {valid : Nat → Bool} {s : State} {pp} (h : recSelect a b valid s = pp) : pp.2.kept = s.kept := h ▸ recSelect_kept a b valid s

theorem recSlot_kept (s : State) (k : Nat) :
    (recSlot s k).kept = s.kept := by
  unfold recSlot
  (try dsimp only); (repeat' split) <;>
    ((try have hk_recSelect := recSelect_of (by assumption : recSelect _ _ _ _ = _)); simp_all only [kept_mk, kept_eta, apply_ite State.kept, foldl_kept, ite_self, recSelect_kept, slotPut_kept, rowBad_kept])

theorem seedMarks_kept (k ext mark : Nat) (s : State) :
    (seedMarks k ext mark s).kept = s.kept := by
  unfold seedMarks
  (try dsimp only); (repeat' split) <;>
    simp only [kept_mk, kept_eta, apply_ite State.kept, ite_self, foldl_kept, implies_true, regPut_kept]

theorem recFmt_kept (s : State) (j : Nat) :
    (recFmt s j).kept = s.kept := by
  unfold recFmt
  (try dsimp only); (repeat' split) <;>
    ((try have hk_recSelect := recSelect_of (by assumption : recSelect _ _ _ _ = _)); simp_all only [kept_mk, kept_eta, apply_ite State.kept, foldl_kept, ite_self, recSelect_kept, nvPush_kept, seedMarks_kept])

theorem recFree_kept (k : Nat) (s : State) :
    (recFree k s).kept = s.kept := by
  unfold recFree
  (try dsimp only); (repeat' split) <;> simp only [kept_mk, kept_eta, seedMarks_kept, fmtRelease_kept, nvPush_kept]

theorem recFinish_kept (k : CkptRec) (s : State) :
    (recFinish k s).kept = s.kept := by
  unfold recFinish
  (try dsimp only); (repeat' split) <;> simp only [kept_mk, kept_eta, nvPush_kept, slotPut_kept, recFree_kept, rowBad_kept]

theorem ckptAdd_kept (k : CkptRec) (a : List CkptRec × State) : (ckptAdd k a).2.kept = a.2.kept := by
  unfold ckptAdd
  (repeat' split) <;> simp only [nvNote_kept]

theorem recCkpt_kept (n : Nat) (acc : List CkptRec × State) (c : Nat) : (recCkpt n acc c).2.kept = acc.2.kept := by
  unfold recCkpt
  split
  · rename_i heq; have hk := recSelect_of heq; simpa only using hk
  · rename_i heq
    have hk := recSelect_of heq
    simp only at hk
    (try dsimp only); (repeat' split) <;> simp only [ckptAdd_kept, nvNote_kept, recFinish_kept, apply_ite State.kept, ite_self, hk]

theorem recResume_kept (s : State) (k : CkptRec) :
    (recResume s k).kept = s.kept := by
  unfold recResume
  simp only [kept_mk, kept_eta, apply_ite State.kept, ite_self, slotPut_kept, seedMarks_kept, ctxPut_kept]

theorem recQueue_kept (l : List CkptRec) (s : State) (k : Nat) :
    (recQueue l s k).kept = s.kept := by
  unfold recQueue
  simp only [kept_mk, kept_eta, apply_ite State.kept, ite_self, rkEnqueue_kept]

theorem recKcv_kept (k place : Nat) (s : State) : (recKcv k place s).2.2.kept = s.kept := by
  unfold recKcv
  (try dsimp only); split <;> simp only [nvNote_kept]

theorem recKcv_of {k place : Nat} {s : State} {pp} (h : recKcv k place s = pp) : pp.2.2.kept = s.kept :=
  h ▸ recKcv_kept k place s

theorem recKcvs_kept (s : State) (k : Nat) : (recKcvs s k).kept = s.kept := by
  unfold recKcvs
  (try dsimp only); repeat' split
  all_goals simp only [slotPut_kept, recKcv_kept]

theorem recImage_kept (s : State) : (recImage s).2.kept = s.kept := by
  unfold recImage
  have hf : ([imageA, imageB].foldl (fun s a => if imageWindup s a = true ∧ (imageVals s a).isNone then nvNote a 3 s else s) s).kept
      = s.kept := foldl_kept _ (fun s a => by split <;> simp only [nvNote_kept]) _ _
  dsimp only
  split
  · rename_i heq
    have hk := recSelect_of heq
    simp only at hk ⊢
    rw [hk]; exact hf
  · rename_i heq
    have hk := recSelect_of heq
    simp only [nvNote_kept] at hk ⊢
    rw [hk]; exact hf

theorem recImage_of {s : State} {pp} (h : recImage s = pp) : pp.2.kept = s.kept := h ▸ recImage_kept s

theorem recTables_kept (n : Nat) (s : State) : (recTables n s).2.kept = s.kept := by
  have hc : ∀ (l : List Nat) (a : List CkptRec × State), (l.foldl (recCkpt n) a).2.kept = a.2.kept := by
    intro l
    induction l with
    | nil => intro a; rfl
    | cons b t ih => intro a; simp only [List.foldl_cons, ih, recCkpt_kept]
  unfold recTables
  dsimp only
  rw [foldl_kept _ (recQueue_kept _), foldl_kept _ recKcvs_kept, foldl_kept _ recResume_kept, hc]
  dsimp only
  rw [foldl_kept _ (fun s k => by split <;> simp only [seedMarks_kept]), foldl_kept _ recFmt_kept, foldl_kept _ recSlot_kept]

theorem recTables_of {n : Nat} {s : State} {pp} (h : recTables n s = pp) : pp.2.kept = s.kept := h ▸ recTables_kept n s

theorem doRecoveryDone_kept (s : State) :
    (doRecoveryDone s).kept = s.kept := by
  unfold doRecoveryDone
  (try dsimp only); (repeat' split) <;> simp only [kept_mk, kept_eta, regPut_kept, nvNote_kept, recTables_kept, recImage_kept, takeFree_kept, nvPush_kept, raise_kept]

theorem snapPut_kept (idx sub row v : Nat) (s : State) :
    (snapPut idx sub row v s).kept = s.kept := by
  unfold snapPut
  simp only [kept_mk, kept_eta]

theorem snapLink_kept (s : State) (p : Nat) :
    (snapLink s p).kept = s.kept := by
  unfold snapLink
  simp only [kept_mk, kept_eta, snapPut_kept]

theorem snapMedia_kept (s : State) (m : Nat) :
    (snapMedia s m).kept = s.kept := by
  unfold snapMedia
  (try dsimp only); (repeat' split) <;>
    simp only [kept_mk, kept_eta, apply_ite State.kept, ite_self, foldl_kept, implies_true, snapPut_kept]

theorem snapHeld_kept (s : State) : (snapHeld s).kept = s.kept := by
  unfold snapHeld
  dsimp only
  rw [foldl_kept _ (fun s e => by (repeat' split) <;> simp only [snapPut_kept])]
  simp only [kept_mk, kept_eta]

theorem snapshots_kept (s : State) :
    (snapshots s).kept = s.kept := by
  unfold snapshots
  (try dsimp only); (repeat' split) <;>
    simp only [kept_mk, kept_eta, apply_ite State.kept, ite_self, foldl_kept, implies_true, snapMedia_kept, snapLink_kept, snapPut_kept, snapHeld_kept, regPut_kept]

theorem slotsRestart_kept (s : State) (m : Nat) :
    (slotsRestart s m).kept = s.kept := by
  unfold slotsRestart
  (try dsimp only); (repeat' split) <;>
    simp only [kept_mk, kept_eta, apply_ite State.kept, ite_self, foldl_kept, implies_true, snapPut_kept, mediaPut_kept]

theorem busyPort_kept (c : Nat) (s : State) (m : Nat) :
    (busyPort c s m).kept = s.kept := by
  unfold busyPort
  simp only [kept_mk, kept_eta, apply_ite State.kept, ite_self, countUp_kept]

theorem landings_kept (t0 : Nat) (s : State) :
    (landings t0 s).kept = s.kept := by
  unfold landings
  first
  | with_reducible rfl
  | ((try dsimp only); repeat' split) <;> (first | (with_reducible rfl) | (simp only [kept_mk, kept_eta, apply_ite State.kept, ite_self, orphansDue_kept, landFlush_kept]; done) | (simp only [kept_mk, kept_eta, apply_ite State.kept, ite_self, foldl_kept, implies_true, orphansDue_kept, landFlush_kept]; done) | (simp_all only [kept_mk, kept_eta, apply_ite State.kept, ite_self, foldl_kept, implies_true, orphansDue_kept, landFlush_kept]; done))

theorem lateDir_kept (m : Nat) (s : State) (d : Dir) :
    (lateDir m s d).kept = s.kept := by
  unfold lateDir
  (try dsimp only); (repeat' split) <;> simp only [kept_mk, kept_eta, raise_kept]

theorem latePort_kept (s : State) (m : Nat) :
    (latePort s m).kept = s.kept := by
  unfold latePort
  simp only [kept_mk, kept_eta, apply_ite State.kept, ite_self, count1_kept, lateDir_kept]

theorem rwApply_kept (s : State) :
    (rwApply s).kept = s.kept := by
  unfold rwApply
  (try dsimp only); (repeat' split) <;>
    simp only [kept_mk, kept_eta, apply_ite State.kept, ite_self, foldl_kept, implies_true, regPut_kept]

theorem eraseNow_kept (s : State) :
    (eraseNow s).kept = s.kept := by
  unfold eraseNow
  (try dsimp only); (repeat' split) <;>
    simp only [kept_mk, kept_eta, apply_ite State.kept, ite_self, foldl_kept, implies_true, slotPut_kept]

theorem newlyUnserved_kept (before : State) (s : State) :
    (newlyUnserved before s).kept = s.kept := by
  unfold newlyUnserved
  (try dsimp only); (repeat' split) <;>
    simp only [kept_mk, kept_eta, apply_ite State.kept, ite_self, foldl_kept, implies_true, portEmpty_kept]

theorem watchRestart_kept (s : State) :
    (watchRestart s).kept = s.kept := by
  unfold watchRestart
  first
  | with_reducible rfl
  | ((try dsimp only); repeat' split) <;> (first | (with_reducible rfl) | (simp only [kept_mk, kept_eta, apply_ite State.kept, ite_self]; done) | (simp only [kept_mk, kept_eta, apply_ite State.kept, ite_self, foldl_kept, implies_true]; done) | (simp_all only [kept_mk, kept_eta, apply_ite State.kept, ite_self, foldl_kept, implies_true]; done))

theorem rowWindow_kept (s : State) :
    (rowWindow s).kept = s.kept := by
  unfold rowWindow
  first
  | with_reducible rfl
  | ((try dsimp only); repeat' split) <;> (first | (with_reducible rfl) | (simp only [kept_mk, kept_eta, apply_ite State.kept, ite_self, watchRestart_kept]; done) | (simp only [kept_mk, kept_eta, apply_ite State.kept, ite_self, foldl_kept, implies_true, watchRestart_kept]; done) | (simp_all only [kept_mk, kept_eta, apply_ite State.kept, ite_self, foldl_kept, implies_true, watchRestart_kept]; done))

theorem stallCount_kept (s : State) (p : Nat) :
    (stallCount s p).kept = s.kept := by
  unfold stallCount
  simp only [kept_mk, kept_eta, apply_ite State.kept, ite_self, count1_kept, linkPut_kept]

theorem masterBack_kept (s : State) (n : Nat) :
    (masterBack s n).kept = s.kept := by
  unfold masterBack
  (try dsimp only); (repeat' split) <;> simp only [kept_mk, kept_eta]

theorem statRoll_kept (s : State) :
    (statRoll s).kept = s.kept := by
  unfold statRoll
  (try dsimp only); (repeat' split) <;>
    simp only [kept_mk, kept_eta, apply_ite State.kept, ite_self, foldl_kept, implies_true, snapPut_kept]

theorem superDuties_kept (s : State) :
    (superDuties s).kept = s.kept := by
  unfold superDuties
  simp only [kept_mk, kept_eta, apply_ite State.kept, ite_self, takeFree_kept, snapPut_kept, statRoll_kept]

theorem strobeSlices_kept (s : State) :
    (strobeSlices s).kept = s.kept := by
  unfold strobeSlices
  first
  | with_reducible rfl
  | ((try dsimp only); repeat' split) <;> (first | (with_reducible rfl) | (simp only [kept_mk, kept_eta, apply_ite State.kept, ite_self, newlyUnserved_kept, slicesStrobe_kept]; done) | (simp only [kept_mk, kept_eta, apply_ite State.kept, ite_self, foldl_kept, implies_true, newlyUnserved_kept, slicesStrobe_kept]; done) | (simp_all only [kept_mk, kept_eta, apply_ite State.kept, ite_self, foldl_kept, implies_true, newlyUnserved_kept, slicesStrobe_kept]; done))

theorem strobeJack_kept (s : State) :
    (strobeJack s).kept = s.kept := by
  unfold strobeJack
  first
  | with_reducible rfl
  | ((try dsimp only); repeat' split) <;> (first | (with_reducible rfl) | (simp only [kept_mk, kept_eta, apply_ite State.kept, ite_self, jackClear_kept]; done) | (simp only [kept_mk, kept_eta, apply_ite State.kept, ite_self, foldl_kept, implies_true, jackClear_kept]; done) | (simp_all only [kept_mk, kept_eta, apply_ite State.kept, ite_self, foldl_kept, implies_true, jackClear_kept]; done))

theorem strobeMasters_kept (s : State) :
    (strobeMasters s).kept = s.kept := by
  unfold strobeMasters
  first
  | with_reducible rfl
  | ((try dsimp only); repeat' split) <;> (first | (with_reducible rfl) | (simp only [kept_mk, kept_eta, apply_ite State.kept, ite_self, masterBack_kept]; done) | (simp only [kept_mk, kept_eta, apply_ite State.kept, ite_self, foldl_kept, implies_true, masterBack_kept]; done) | (simp_all only [kept_mk, kept_eta, apply_ite State.kept, ite_self, foldl_kept, implies_true, masterBack_kept]; done))

theorem strobeDuties_kept (last : Nat) (s : State) :
    (strobeDuties last s).kept = s.kept := by
  unfold strobeDuties
  first
  | with_reducible rfl
  | ((try dsimp only); repeat' split) <;> (first | (with_reducible rfl) | (simp only [kept_mk, kept_eta, apply_ite State.kept, ite_self, strobeSlices_kept, strobeJack_kept, superDuties_kept, warnGlitchReport_kept, sumsRestart_kept, evClose_kept, nvActs_kept, eraseNow_kept, rwApply_kept, rowWindow_kept, tagWindow_kept, drainPoll_kept, tagMakeRoom_kept, rekeyStrobe_kept, strobeMasters_kept]; done) | (simp only [kept_mk, kept_eta, apply_ite State.kept, ite_self, foldl_kept, implies_true, strobeSlices_kept, strobeJack_kept, superDuties_kept, warnGlitchReport_kept, sumsRestart_kept, evClose_kept, nvActs_kept, eraseNow_kept, rwApply_kept, rowWindow_kept, tagWindow_kept, drainPoll_kept, tagMakeRoom_kept, rekeyStrobe_kept, strobeMasters_kept]; done) | (simp_all only [kept_mk, kept_eta, apply_ite State.kept, ite_self, foldl_kept, implies_true, strobeSlices_kept, strobeJack_kept, superDuties_kept, warnGlitchReport_kept, sumsRestart_kept, evClose_kept, nvActs_kept, eraseNow_kept, rwApply_kept, rowWindow_kept, tagWindow_kept, drainPoll_kept, tagMakeRoom_kept, rekeyStrobe_kept, strobeMasters_kept]; done))

theorem objVal_kept (staged : Bool) (o : Obj) (idx sub row : Nat) (s : State) :
    (objVal staged o idx sub row s).2.kept = s.kept := by
  unfold objVal
  (try dsimp only); (repeat' split) <;> simp only [kept_mk, kept_eta, takeFree_kept]

theorem objVal_of {staged : Bool} {o : Obj} {idx sub row : Nat} {s : State} {pp} (h : objVal staged o idx sub row s = pp) : pp.2.kept = s.kept := h ▸ objVal_kept staged o idx sub row s

theorem msgSend_kept (eid op : Byte) (k : Nat) (result : Byte) (seq : BitVec 32) (body : List Byte) (s : State) :
    (msgSend eid op k result seq body s).kept = s.kept := by
  unfold msgSend
  (try dsimp only); (repeat' split) <;> simp only [kept_mk, kept_eta]

theorem msgAnswer_kept (h : MsgHdr) (op : Nat) (rc : Byte) (seq : BitVec 32) (body : List Byte) (s : State) :
    (msgAnswer h op rc seq body s).kept = s.kept := by
  unfold msgAnswer
  simp only [kept_mk, kept_eta, apply_ite State.kept, ite_self, count1_kept, msgSend_kept]

theorem subTake_kept (k : Nat) (s : State) : (subTake k s).2.kept = s.kept := by
  unfold subTake
  (try dsimp only); (repeat' split) <;> simp only [kept_mk, kept_eta]

theorem subTake_of {k : Nat} {s : State} {pp} (h : subTake k s = pp) : pp.2.kept = s.kept := h ▸ subTake_kept k s

theorem doEventMessage_kept (k : Nat) (s : State) : (doEventMessage k s).kept = s.kept := by
  unfold doEventMessage
  split
  · rename_i heq; have hk := subTake_of heq; simpa only using hk
  · rename_i heq; have hk := subTake_of heq; simp only at hk; simp only [msgSend_kept, hk]

theorem stageDiscard_kept (s : State) :
    (stageDiscard s).kept = s.kept := by
  unfold stageDiscard
  simp only [kept_mk, kept_eta]

theorem stageBreak_kept (w : Who) (s : State) :
    (stageBreak w s).kept = s.kept := by
  unfold stageBreak
  simp only [kept_mk, kept_eta, stageDiscard_kept, raise_kept]

theorem ownerSeen_kept (w : Who) (s : State) :
    (ownerSeen w s).kept = s.kept := by
  unfold ownerSeen
  simp only [kept_mk, kept_eta, apply_ite State.kept, ite_self]

theorem stageEnter_kept (w : Who) (s t : State) (h : stageEnter w s = .ok t) : t.kept = s.kept := by
  unfold stageEnter at h
  split at h
  · cases h
  · split at h
    · cases h; rfl
    · split at h
      · cases h; simp only [stageBreak_kept]
      · cases h

theorem stageWrite_kept (w : Who) (idx sub row v : Nat) (s : State) : (stageWrite w idx sub row v s).2.kept = s.kept := by
  unfold stageWrite
  split
  · rfl
  · split
    · rfl
    · rename_i heq
      have hk := stageEnter_kept _ _ _ heq
      simp only [kept_mk, kept_eta, hk]

theorem stageWrite_of {w : Who} {idx sub row v : Nat} {s : State} {pp} (h : stageWrite w idx sub row v s = pp) : pp.2.kept = s.kept := h ▸ stageWrite_kept w idx sub row v s

theorem doStageBreakable_kept (s : State) :
    (doStageBreakable s).kept = s.kept := by
  unfold doStageBreakable
  simp only [kept_mk, kept_eta, apply_ite State.kept, ite_self]

theorem commitReply_kept (rc : Byte) (body : List Byte) (s : State) :
    (commitReply rc body s).kept = s.kept := by
  unfold commitReply
  (try dsimp only); (repeat' split) <;> simp only [kept_mk, kept_eta, msgAnswer_kept]

theorem commitAbort_kept (cause : Nat) (obj : Option Nat) (s : State) :
    (commitAbort cause obj s).kept = s.kept := by
  unfold commitAbort
  simp only [kept_mk, kept_eta, raise_kept, commitReply_kept]

theorem commitStart_kept (w : Who) (target : Nat) (s : State) : (commitStart w target s).2.kept = s.kept := by
  unfold commitStart
  split
  · rfl
  · rename_i heq
    have hk := stageEnter_kept _ _ _ heq
    (try dsimp only); (repeat' split) <;> simp only [kept_mk, kept_eta, commitAbort_kept, hk]

theorem commitStart_of {w : Who} {target : Nat} {s : State} {pp} (h : commitStart w target s = pp) : pp.2.kept = s.kept := h ▸ commitStart_kept w target s

theorem commitCancel_kept (w : Who) (force : Bool) (s : State) :
    (commitCancel w force s).2.kept = s.kept := by
  unfold commitCancel
  (try dsimp only); (repeat' split) <;> simp only [kept_mk, kept_eta, stageDiscard_kept, commitAbort_kept]

theorem commitCancel_of {w : Who} {force : Bool} {s : State} {pp} (h : commitCancel w force s = pp) : pp.2.kept = s.kept := h ▸ commitCancel_kept w force s

theorem entryAsk_kept (s : State) : (entryAsk s).kept = s.kept := by
  unfold entryAsk
  exact foldl_kept _ (fun s k => by (try dsimp only); (repeat' split) <;> simp only [nvPush_kept, kept_mk, kept_eta]) _ _

theorem doCommitPrepared_kept (s : State) :
    (doCommitPrepared s).kept = s.kept := by
  unfold doCommitPrepared
  simp only [kept_mk, kept_eta, apply_ite State.kept, ite_self, entryAsk_kept]

theorem sampleDefer_kept (s : State) :
    (sampleDefer s).kept = s.kept := by
  unfold sampleDefer
  first
  | with_reducible rfl
  | ((try dsimp only); repeat' split) <;> (first | (with_reducible rfl) | (simp only [kept_mk, kept_eta, apply_ite State.kept, ite_self, commitAbort_kept]; done) | (simp only [kept_mk, kept_eta, apply_ite State.kept, ite_self, foldl_kept, implies_true, commitAbort_kept]; done) | (simp_all only [kept_mk, kept_eta, apply_ite State.kept, ite_self, foldl_kept, implies_true, commitAbort_kept]; done))

theorem commitSample_kept (s : State) :
    (commitSample s).kept = s.kept := by
  unfold commitSample
  (try dsimp only); (repeat' split) <;> simp only [kept_mk, kept_eta, commitAbort_kept, sampleDefer_kept]

theorem sampleUndo_kept (s : State) :
    (sampleUndo s).kept = s.kept := by
  unfold sampleUndo
  first
  | with_reducible rfl
  | ((try dsimp only); repeat' split) <;> (first | (with_reducible rfl) | (simp only [kept_mk, kept_eta, apply_ite State.kept, ite_self, sampleDefer_kept]; done) | (simp only [kept_mk, kept_eta, apply_ite State.kept, ite_self, foldl_kept, implies_true, sampleDefer_kept]; done) | (simp_all only [kept_mk, kept_eta, apply_ite State.kept, ite_self, foldl_kept, implies_true, sampleDefer_kept]; done))

theorem doPwrWarnQualify_kept (s : State) :
    (doPwrWarnQualify s).kept = s.kept := by
  unfold doPwrWarnQualify
  (try dsimp only); (repeat' split) <;>
    simp only [kept_mk, kept_eta, apply_ite State.kept, ite_self, foldl_kept, implies_true, raise_kept, imageDrop_kept, ctxAbandon_kept, mediaMod_kept, drainPoll_kept, wbFetches_kept, sampleUndo_kept]

theorem stagePut_kept (s : State) :
    (stagePut s).kept = s.kept := by
  unfold stagePut
  (try dsimp only); (repeat' split) <;>
    simp only [kept_mk, kept_eta, apply_ite State.kept, ite_self, foldl_kept, implies_true, cfgPut_kept]

theorem linkGens_kept (old new : Nat) (s : State) :
    (linkGens old new s).kept = s.kept := by
  unfold linkGens
  (try dsimp only); (repeat' split) <;>
    simp only [kept_mk, kept_eta, apply_ite State.kept, ite_self, foldl_kept, implies_true, regPut_kept]

theorem growMark_kept (k : Nat) (s : State) (g : Extent × Option Nat) :
    (growMark k s g).kept = s.kept := by
  unfold growMark
  (try dsimp only); (repeat' split) <;> simp only [kept_mk, kept_eta, regPut_kept, rkEnqueue_kept, ctxPut_kept]

theorem growSlotMarks_kept (s : State) (g : Nat × List (Extent × Option Nat)) :
    (growSlotMarks s g).kept = s.kept := by
  unfold growSlotMarks
  (try dsimp only); (repeat' split) <;>
    simp only [kept_mk, kept_eta, apply_ite State.kept, ite_self, foldl_kept, implies_true, growMark_kept]

theorem restoreMark_kept (s : State) (row : Nat) :
    (restoreMark s row).kept = s.kept := by
  unfold restoreMark
  simp only [kept_mk, kept_eta, regPut_kept]

theorem windowNote_kept (old : Nat) (s : State) :
    (windowNote old s).kept = s.kept := by
  unfold windowNote
  first
  | with_reducible rfl
  | ((try dsimp only); repeat' split) <;> (first | (with_reducible rfl) | (simp only [kept_mk, kept_eta, apply_ite State.kept, ite_self]; done) | (simp only [kept_mk, kept_eta, apply_ite State.kept, ite_self, foldl_kept, implies_true]; done) | (simp_all only [kept_mk, kept_eta, apply_ite State.kept, ite_self, foldl_kept, implies_true]; done))

theorem applyNote_kept (s : State) :
    (applyNote s).kept = s.kept := by
  unfold applyNote
  simp only [kept_mk, kept_eta, raise_kept]

theorem commitApply_kept (s : State) :
    (commitApply s).kept = s.kept := by
  unfold commitApply
  (try dsimp only); (repeat' split) <;>
    simp only [kept_mk, kept_eta, apply_ite State.kept, ite_self, foldl_kept, implies_true, windowNote_kept, stagePut_kept, jackClear_kept, restoreMark_kept, growSlotMarks_kept, regPut_kept, linkGens_kept, applyNote_kept, modeSend_kept, imageStart_kept, creditRaiseAll_kept, rkSchedule_kept, commitReply_kept]

theorem doCommitApply_kept (s : State) :
    (doCommitApply s).kept = s.kept := by
  unfold doCommitApply
  simp only [kept_mk, kept_eta, apply_ite State.kept, ite_self, commitApply_kept]

theorem doCopyBackDone_kept (u : Nat) (s : State) :
    (doCopyBackDone u s).kept = s.kept := by
  unfold doCopyBackDone
  simp only [kept_mk, kept_eta]

theorem doDigestRefreshDone_kept (err : BitVec 256) (s : State) :
    (doDigestRefreshDone err s).kept = s.kept := by
  unfold doDigestRefreshDone
  simp only [kept_mk, kept_eta, apply_ite State.kept, ite_self, raise_kept]

theorem digestBlank_kept (s : State) :
    (digestBlank s).kept = s.kept := by
  unfold digestBlank
  simp only [kept_mk, kept_eta]

theorem imageApply_kept (gen : Nat) (l : List (Nat × Nat)) (s : State) :
    (imageApply gen l s).kept = s.kept := by
  unfold imageApply
  (try dsimp only); (repeat' split) <;>
    simp only [kept_mk, kept_eta, apply_ite State.kept, ite_self, foldl_kept, implies_true, windowNote_kept, cfgPut_kept, regPut_kept, applyNote_kept, modeSend_kept]

theorem doStartupImageApply_kept (s : State) :
    (doStartupImageApply s).kept = s.kept := by
  unfold doStartupImageApply
  (try dsimp only); (repeat' split) <;> simp only [kept_mk, kept_eta, digestBlank_kept, imageApply_kept]

theorem slotCmd_kept (kidx v : Nat) (s : State) :
    (slotCmd kidx v s).2.kept = s.kept := by
  unfold slotCmd
  (try dsimp only); (repeat' split) <;> simp only [kept_mk, kept_eta, slotActivate_kept, slotDiscard_kept, slotRetire_kept]

theorem slotCmd_of {kidx v : Nat} {s : State} {pp} (h : slotCmd kidx v s = pp) : pp.2.kept = s.kept := h ▸ slotCmd_kept kidx v s

theorem rekeyReqCmd_kept (kidx : Nat) (s : State) :
    (rekeyReqCmd kidx s).2.kept = s.kept := by
  unfold rekeyReqCmd
  (try dsimp only); (repeat' split) <;> simp only [kept_mk, kept_eta, rkSchedule_kept, nextGenCause_kept]

theorem rekeyReqCmd_of {kidx : Nat} {s : State} {pp} (h : rekeyReqCmd kidx s = pp) : pp.2.kept = s.kept := h ▸ rekeyReqCmd_kept kidx s

theorem prefillStart_kept (s : State) :
    (prefillStart s).kept = s.kept := by
  unfold prefillStart
  simp only [kept_mk, kept_eta]

theorem linkResetCmd_kept (p : Nat) (s : State) :
    (linkResetCmd p s).kept = s.kept := by
  unfold linkResetCmd
  simp only [kept_mk, kept_eta, apply_ite State.kept, ite_self, linkDown_kept]

theorem mpFlushCmd_kept (m : Nat) (s : State) :
    (mpFlushCmd m s).kept = s.kept := by
  unfold mpFlushCmd
  simp only [kept_mk, kept_eta, apply_ite State.kept, ite_self, mediaPut_kept]

theorem masterResetCmd_kept (v : Nat) (s : State) :
    (masterResetCmd v s).kept = s.kept := by
  unfold masterResetCmd
  (try dsimp only); (repeat' split) <;>
    simp only [kept_mk, kept_eta, apply_ite State.kept, ite_self, foldl_kept, implies_true, masterBack_kept]

theorem cmdWrite_kept (w : Who) (idx sub row v : Nat) (s : State) :
    (cmdWrite w idx sub row v s).2.kept = s.kept := by
  unfold cmdWrite
  (try dsimp only); (repeat' split) <;> simp only [kept_mk, kept_eta, tagFlush_kept, prefillStart_kept, commitStart_kept, commitCancel_kept, recorderClear_kept, linkResetCmd_kept, mpFlushCmd_kept, slotCmd_kept, rekeyReqCmd_kept, masterResetCmd_kept]

theorem cmdWrite_of {w : Who} {idx sub row v : Nat} {s : State} {pp} (h : cmdWrite w idx sub row v s = pp) : pp.2.kept = s.kept := h ▸ cmdWrite_kept w idx sub row v s

theorem rwWrite_kept (idx sub row v : Nat) (s : State) :
    (rwWrite idx sub row v s).2.kept = s.kept := by
  unfold rwWrite
  (try dsimp only); (repeat' split) <;> simp only [kept_mk, kept_eta, iqFlushSet_kept, regPut_kept]

theorem rwWrite_of {idx sub row v : Nat} {s : State} {pp} (h : rwWrite idx sub row v s = pp) : pp.2.kept = s.kept := h ▸ rwWrite_kept idx sub row v s

theorem alertAckWrite_kept (v : Nat) (s : State) :
    (alertAckWrite v s).kept = s.kept := by
  unfold alertAckWrite
  simp only [kept_mk, kept_eta, regPut_kept]

theorem objWrite_kept (w : Who) (o : Obj) (idx sub row v : Nat) (s : State) :
    (objWrite w o idx sub row v s).2.kept = s.kept := by
  unfold objWrite
  (try dsimp only); (repeat' split) <;> simp only [kept_mk, kept_eta, stageWrite_kept, rwWrite_kept, cmdWrite_kept, alertAckWrite_kept]

theorem objWrite_of {w : Who} {o : Obj} {idx sub row v : Nat} {s : State} {pp} (h : objWrite w o idx sub row v s = pp) : pp.2.kept = s.kept := h ▸ objWrite_kept w o idx sub row v s

theorem dictWrite_kept (w : Who) (idx sub row v : Nat) (s : State) :
    (dictWrite w idx sub row v s).2.kept = s.kept := by
  unfold dictWrite
  (try dsimp only); (repeat' split) <;> simp only [kept_mk, kept_eta, objWrite_kept]

theorem dictWrite_of {w : Who} {idx sub row v : Nat} {s : State} {pp} (h : dictWrite w idx sub row v s = pp) : pp.2.kept = s.kept := h ▸ dictWrite_kept w idx sub row v s

theorem rowRead_kept (staged : Bool) (idx row : Nat) (l : List (Nat × Obj)) (s : State) :
    (rowRead staged idx row l s).2.kept = s.kept := by
  induction l generalizing s with
  | nil => rfl
  | cons e t ih =>
    unfold rowRead
    exact (ih _).trans (objVal_kept _ _ _ _ _ _)

theorem rowRead_of {staged : Bool} {idx row : Nat} {l : List (Nat × Obj)} {s : State} {pp}
    (h : rowRead staged idx row l s = pp) : pp.2.kept = s.kept := h ▸ rowRead_kept staged idx row l s

theorem rowWrite_kept (w : Who) (idx row : Nat) (l : List (Nat × Obj)) (bs : List Byte) (s : State) :
    (rowWrite w idx row l bs s).2.kept = s.kept := by
  induction l generalizing bs s with
  | nil => rfl
  | cons e t ih =>
    unfold rowWrite
    split
    rename_i heq
    have hk := objWrite_of heq
    simp only at hk
    split
    · rw [ih, hk]
    · exact hk

theorem rowWriteWhole_kept (w : Who) (idx row : Nat) (l : List (Nat × Obj)) (bs : List Byte) (s : State) :
    (rowWriteWhole w idx row l bs s).2.kept = s.kept := by
  unfold rowWriteWhole
  split
  rename_i heq
  have hk := congrArg (fun p => p.2.kept) heq
  simp only [rowWrite_kept] at hk
  dsimp only
  split
  · exact hk.symm
  · rfl

theorem rowWriteWhole_of {w : Who} {idx row : Nat} {l : List (Nat × Obj)} {bs : List Byte} {s : State} {pp} (h : rowWriteWhole w idx row l bs s = pp) : pp.2.kept = s.kept := h ▸ rowWriteWhole_kept w idx row l bs s

theorem msgDrop_kept (mki reason : Nat) (s : State) :
    (msgDrop mki reason s).kept = s.kept := by
  unfold msgDrop
  simp only [kept_mk, kept_eta, count1_kept, sumSet_kept]

theorem seqTake_kept (k : Nat) (q : BitVec 32) (s : State) :
    (seqTake k q s).kept = s.kept := by
  unfold seqTake
  simp only [kept_mk, kept_eta]

theorem msgReceive_kept (op : Nat) (h : MsgHdr) (body : List Byte) (go : State → State) (s : State)
    (hgo : ∀ s, (go s).kept = s.kept) : (msgReceive op h body go s).kept = s.kept := by
  unfold msgReceive
  (try dsimp only); (repeat' split) <;> simp only [hgo, msgDrop_kept, msgAnswer_kept, ownerSeen_kept, seqTake_kept]

theorem msgResult_kept (h : MsgHdr) (op : Nat) (rc : Byte) (s : State) :
    (msgResult h op rc s).kept = s.kept := by
  unfold msgResult
  simp only [kept_mk, kept_eta, msgAnswer_kept]

theorem readBody_kept (h : MsgHdr) (body : List Byte) (s : State) :
    (readBody h body s).kept = s.kept := by
  unfold readBody
  (try dsimp only); (repeat' split) <;> simp only [kept_mk, kept_eta, msgResult_kept, objVal_kept, msgAnswer_kept]

theorem doRead_kept (h : MsgHdr) (body : List Byte) (s : State) :
    (doRead h body s).kept = s.kept := by
  unfold doRead
  (try dsimp only); (repeat' split) <;>
    simp only [kept_mk, kept_eta, apply_ite State.kept, ite_self, foldl_kept, implies_true, msgReceive_kept, readBody_kept]

theorem writeBody_kept (h : MsgHdr) (body : List Byte) (s : State) :
    (writeBody h body s).kept = s.kept := by
  unfold writeBody
  (try dsimp only); (repeat' split) <;> simp only [kept_mk, kept_eta, msgResult_kept, objWrite_kept]

theorem doWrite_kept (h : MsgHdr) (body : List Byte) (s : State) :
    (doWrite h body s).kept = s.kept := by
  unfold doWrite
  (try dsimp only); (repeat' split) <;>
    simp only [kept_mk, kept_eta, apply_ite State.kept, ite_self, foldl_kept, implies_true, msgReceive_kept, writeBody_kept]

theorem readRowBody_kept (h : MsgHdr) (body : List Byte) (s : State) : (readRowBody h body s).kept = s.kept := by
  unfold readRowBody
  (try dsimp only); repeat' split
  all_goals simp only [msgResult_kept, msgAnswer_kept, rowRead_kept]

theorem doReadRow_kept (h : MsgHdr) (body : List Byte) (s : State) :
    (doReadRow h body s).kept = s.kept := by
  unfold doReadRow
  (try dsimp only); (repeat' split) <;>
    simp only [kept_mk, kept_eta, apply_ite State.kept, ite_self, foldl_kept, implies_true, msgReceive_kept, readRowBody_kept]

theorem writeRowBody_kept (h : MsgHdr) (body : List Byte) (s : State) :
    (writeRowBody h body s).kept = s.kept := by
  unfold writeRowBody
  (try dsimp only); (repeat' split) <;> simp only [kept_mk, kept_eta, msgResult_kept, rowWriteWhole_kept]

theorem doWriteRow_kept (h : MsgHdr) (body : List Byte) (s : State) :
    (doWriteRow h body s).kept = s.kept := by
  unfold doWriteRow
  (try dsimp only); (repeat' split) <;>
    simp only [kept_mk, kept_eta, apply_ite State.kept, ite_self, foldl_kept, implies_true, msgReceive_kept, writeRowBody_kept]

theorem commitBody_kept (h : MsgHdr) (body : List Byte) (s : State) :
    (commitBody h body s).kept = s.kept := by
  unfold commitBody
  simp only [kept_mk, kept_eta, apply_ite State.kept, ite_self, msgResult_kept, commitStart_kept, msgAnswer_kept]

theorem doCommit_kept (h : MsgHdr) (body : List Byte) (s : State) :
    (doCommit h body s).kept = s.kept := by
  unfold doCommit
  (try dsimp only); (repeat' split) <;>
    simp only [kept_mk, kept_eta, apply_ite State.kept, ite_self, foldl_kept, implies_true, msgReceive_kept, commitBody_kept]

theorem abortMsg_kept (h : MsgHdr) (body : List Byte) (s : State) :
    (abortMsg h body s).kept = s.kept := by
  unfold abortMsg
  simp only [kept_mk, kept_eta, apply_ite State.kept, ite_self, msgResult_kept, commitCancel_kept]

theorem doAbort_kept (h : MsgHdr) (body : List Byte) (s : State) :
    (doAbort h body s).kept = s.kept := by
  unfold doAbort
  (try dsimp only); (repeat' split) <;>
    simp only [kept_mk, kept_eta, apply_ite State.kept, ite_self, foldl_kept, implies_true, msgReceive_kept, abortMsg_kept]

theorem subscribeBody_kept (h : MsgHdr) (body : List Byte) (s : State) :
    (subscribeBody h body s).kept = s.kept := by
  unfold subscribeBody
  simp only [kept_mk, kept_eta, apply_ite State.kept, ite_self, msgResult_kept]

theorem doSubscribe_kept (h : MsgHdr) (body : List Byte) (s : State) :
    (doSubscribe h body s).kept = s.kept := by
  unfold doSubscribe
  (try dsimp only); (repeat' split) <;>
    simp only [kept_mk, kept_eta, apply_ite State.kept, ite_self, foldl_kept, implies_true, msgReceive_kept, subscribeBody_kept]

theorem winPut_kept (dbg : Bool) (x : WinClass) (s : State) :
    (winPut dbg x s).kept = s.kept := by
  unfold winPut
  simp only [kept_mk, kept_eta, apply_ite State.kept, ite_self]

theorem winAck_kept (err : Bool) (v : Nat) (s : State) :
    (winAck err v s).kept = s.kept := by
  unfold winAck
  simp only [kept_mk, kept_eta]

theorem winRefuse_kept (dbg : Bool) (addr : Nat) (rc : Byte) (s : State) :
    (winRefuse dbg addr rc s).kept = s.kept := by
  unfold winRefuse
  simp only [kept_mk, kept_eta, winAck_kept, winPut_kept]

theorem winDone_kept (dbg : Bool) (addr : Nat) (r : Byte × State) : (winDone dbg addr r).kept = r.2.kept := by
  unfold winDone
  split <;> simp only [winAck_kept, winRefuse_kept]

theorem rowSelWrite_kept (dbg : Bool) (idx sub v : Nat) (s : State) :
    (rowSelWrite dbg idx sub v s).2.kept = s.kept := by
  unfold rowSelWrite
  (try dsimp only); (repeat' split) <;> simp only [kept_mk, kept_eta, winPut_kept]

theorem rowSelWrite_of {dbg : Bool} {idx sub v : Nat} {s : State} {pp} (h : rowSelWrite dbg idx sub v s = pp) : pp.2.kept = s.kept := h ▸ rowSelWrite_kept dbg idx sub v s

theorem winRegWrite_kept (dbg : Bool) (sub v : Nat) (s : State) :
    (winRegWrite dbg sub v s).2.kept = s.kept := by
  unfold winRegWrite
  (try dsimp only); (repeat' split) <;> simp only [kept_mk, kept_eta, winPut_kept]

theorem winRegWrite_of {dbg : Bool} {sub v : Nat} {s : State} {pp} (h : winRegWrite dbg sub v s = pp) : pp.2.kept = s.kept := h ▸ winRegWrite_kept dbg sub v s

theorem winWrite_kept (dbg : Bool) (addr v : Nat) (s : State) :
    (winWrite dbg addr v s).2.kept = s.kept := by
  unfold winWrite
  (try dsimp only); (repeat' split) <;> simp only [kept_mk, kept_eta, rowSelWrite_kept, winRegWrite_kept, objWrite_kept]

theorem winWrite_of {dbg : Bool} {addr v : Nat} {s : State} {pp} (h : winWrite dbg addr v s = pp) : pp.2.kept = s.kept := h ▸ winWrite_kept dbg addr v s

theorem winAccess_kept (dbg : Bool) (go : State → State) (s : State)
    (hgo : ∀ s, (go s).kept = s.kept) : (winAccess dbg go s).kept = s.kept := by
  unfold winAccess
  (repeat' split) <;> simp only [hgo, winAck_kept, ownerSeen_kept]

theorem doWindowWrite_kept (a : WinAcc) (v : Nat) (s : State) : (doWindowWrite a v s).kept = s.kept :=
  winAccess_kept _ _ _ (fun s => by split <;> simp only [winRefuse_kept, winDone_kept, winWrite_kept])

theorem winRead_kept (dbg : Bool) (addr : Nat) (s : State) {v n : Nat} {t : State}
    (h : winRead dbg addr s = .ok (v, n, t)) : t.kept = s.kept := by
  unfold winRead at h
  dsimp only at h
  split at h
  · cases h; rfl
  · split at h
    · cases h
    · split at h
      · cases h; rfl
      · cases h
        exact objVal_kept _ _ _ _ _ _

theorem doWideValueRead_kept (a : WinAcc) (s : State) : (doWideValueRead a s).kept = s.kept := by
  refine winAccess_kept _ _ _ (fun s => ?_)
  split
  · simp only [winRefuse_kept]
  · split
    · simp only [winRefuse_kept]
    · rename_i heq; simp only [winAck_kept, winPut_kept, winRead_kept _ _ _ heq]

theorem winCmd_kept (dbg : Bool) (idx sub row v : Nat) (s : State) : (winCmd dbg idx sub row v s).kept = s.kept :=
  winAccess_kept _ _ _ (fun s => by simp only [winDone_kept, dictWrite_kept])

end Sys2Proof.Machine
end

