-- ==== Sys2Proof/Laws/Stood.lean ====
section
/-! SUPPORT. What only start-up, the power warning and zeroization write: the power and start-up stages, the pins that
show them, the state of the zeroization input and the debug lock. One lemma an operation that leaves them alone, in the
order of the definitions. -/

namespace Sys2Proof.Machine

set_option linter.all false

/-- The pins and stages of power, start-up and zeroization. -/
def State.stood (s : State) : Bool × Bool × Bool × PwrPhase × StartStage × Zeroize × Bool :=
  (s.pins.pinOe, s.pins.persistOk, s.pins.zeroized, s.pwr.phase, s.pwr.stage, s.keys.zer, s.keys.debugLock)

theorem stood_eta (s : State) : (s.pins.pinOe, s.pins.persistOk, s.pins.zeroized, s.pwr.phase, s.pwr.stage, s.keys.zer, s.keys.debugLock) = s.stood := rfl

theorem stood_mk (a1 : Nat) (p : List Instr) (a3 : Clk) (a4 : Pins) (a5 a6 a7 : Tab Nat) (a8 a9 : WinClass)
    (a10 : Option WinOut) (a11 : Commit) (a12 : Tab Session) (a13 : List MsgOut) (a14 : EvUnit) (a15 : KeyStore)
    (n : List Host.Cell) (a17 : NvUnit) (a18 : Pwr) (a19 : Rekey) (a20 : Pool) (a21 : Tab Media) (a22 : Nat) (a23 : Jack)
    (a24 : TagCache) (a25 : Tab LinkSt) (a26 a27 : Tab Acct) (a28 : Tab Nat) (a29 : Repair) :
    State.stood ⟨a1, p, a3, a4, a5, a6, a7, a8, a9, a10, a11, a12, a13, a14, a15, n, a17, a18, a19, a20, a21, a22, a23, a24,
      a25, a26, a27, a28, a29⟩ =
      (a4.pinOe, a4.persistOk, a4.zeroized, a18.phase, a18.stage, a15.zer, a15.debugLock) := rfl

theorem foldl_stood {α : Type} (f : State → α → State) (h : ∀ s x, (f s x).stood = s.stood) (l : List α) (s : State) :
    (l.foldl f s).stood = s.stood := by
  induction l generalizing s with
  | nil => rfl
  | cons x t ih => simp only [List.foldl_cons, ih, h]

theorem takeFree_stood (s : State) :
    (takeFree s).2.stood = s.stood := by
  unfold takeFree
  simp only [stood_mk, stood_eta]

theorem takeFree_stood_of {s : State} {pp} (h : takeFree s = pp) : pp.2.stood = s.stood := h ▸ takeFree_stood s

theorem cfgPut_stood (idx sub row v : Nat) (s : State) :
    (cfgPut idx sub row v s).stood = s.stood := by
  unfold cfgPut
  simp only [stood_mk, stood_eta]

theorem regPut_stood (idx sub row v : Nat) (s : State) :
    (regPut idx sub row v s).stood = s.stood := by
  unfold regPut
  simp only [stood_mk, stood_eta]

theorem countUp_stood (idx sub row n : Nat) (s : State) :
    (countUp idx sub row n s).stood = s.stood := by
  unfold countUp
  simp only [stood_mk, stood_eta, regPut_stood]

theorem count1_stood (idx sub row : Nat) (s : State) :
    (count1 idx sub row s).stood = s.stood := by
  unfold count1
  simp only [stood_mk, stood_eta, countUp_stood]

theorem alertSet_stood (route sev : Nat) (s : State) :
    (alertSet route sev s).stood = s.stood := by
  unfold alertSet
  (try dsimp only); (repeat' split) <;> simp only [stood_mk, stood_eta, regPut_stood]

theorem srcNote_stood (src code sev : Nat) (reportable : Bool) (s : State) :
    (srcNote src code sev reportable s).stood = s.stood := by
  unfold srcNote
  simp only [stood_mk, stood_eta, count1_stood, regPut_stood]

theorem raiseSev_stood (e : Ev) (sev src p1 p2 p3 : Nat) (s : State) :
    (raiseSev e sev src p1 p2 p3 s).stood = s.stood := by
  unfold raiseSev
  simp only [stood_mk, stood_eta, apply_ite State.stood, ite_self, srcNote_stood, alertSet_stood]

theorem raise_stood (e : Ev) (src p1 p2 p3 : Nat) (s : State) :
    (raise e src p1 p2 p3 s).stood = s.stood := by
  unfold raise
  simp only [stood_mk, stood_eta, raiseSev_stood]

theorem sumFlush_stood (s : State) (e : Nat × FrameSum) :
    (sumFlush s e).stood = s.stood := by
  unfold sumFlush
  (try dsimp only); (repeat' split) <;> simp only [stood_mk, stood_eta, raise_stood]

theorem sumAmend_stood (s : State) (e : Nat × FrameSum) :
    (sumAmend s e).stood = s.stood := by
  unfold sumAmend
  first
  | with_reducible rfl
  | ((try dsimp only); repeat' split) <;> (first | (with_reducible rfl) | (simp only [stood_mk, stood_eta, apply_ite State.stood, ite_self]; done) | (simp only [stood_mk, stood_eta, apply_ite State.stood, ite_self, foldl_stood, implies_true]; done) | (simp_all only [stood_mk, stood_eta, apply_ite State.stood, ite_self, foldl_stood, implies_true]; done))

theorem sumSet_stood (k : Nat) (f : FrameSum) (s : State) :
    (sumSet k f s).stood = s.stood := by
  unfold sumSet
  first
  | with_reducible rfl
  | ((try dsimp only); repeat' split) <;> (first | (with_reducible rfl) | (simp only [stood_mk, stood_eta, apply_ite State.stood, ite_self, sumAmend_stood, sumFlush_stood]; done) | (simp only [stood_mk, stood_eta, apply_ite State.stood, ite_self, foldl_stood, implies_true, sumAmend_stood, sumFlush_stood]; done) | (simp_all only [stood_mk, stood_eta, apply_ite State.stood, ite_self, foldl_stood, implies_true, sumAmend_stood, sumFlush_stood]; done))

theorem sumUp_stood (e : Ev) (src a b c : Nat) (s : State) :
    (sumUp e src a b c s).stood = s.stood := by
  unfold sumUp
  simp only [stood_mk, stood_eta, sumSet_stood]

theorem ctlSend_stood (code : Nat) (p1 p2 p3 : BitVec 32) (s : State) :
    (ctlSend code p1 p2 p3 s).stood = s.stood := by
  unfold ctlSend
  simp only [stood_mk, stood_eta, apply_ite State.stood, ite_self]

theorem modeSend_stood (s : State) :
    (modeSend s).stood = s.stood := by
  unfold modeSend
  simp only [stood_mk, stood_eta, ctlSend_stood]

theorem ctlAdmit_stood (n : Nat) (s : State) : (ctlAdmit n s).stood = s.stood := by
  induction n generalizing s with
  | zero => rfl
  | succ n ih =>
    unfold ctlAdmit
    (repeat' split) <;> simp only [ih, stood_mk, stood_eta]

theorem backlogPut_stood (r : EvRec) (s : State) :
    (backlogPut r s).stood = s.stood := by
  unfold backlogPut
  simp only [stood_mk, stood_eta, apply_ite State.stood, ite_self, count1_stood]

theorem recForm_stood (frame : Nat) (s : State) (e : Nat × EvAcc) :
    (recForm frame s e).stood = s.stood := by
  unfold recForm
  simp only [stood_mk, stood_eta, apply_ite State.stood, ite_self, backlogPut_stood]

theorem evClose_stood (frame : Nat) (s : State) :
    (evClose frame s).stood = s.stood := by
  unfold evClose
  (try dsimp only); (repeat' split) <;>
    simp only [stood_mk, stood_eta, apply_ite State.stood, ite_self, foldl_stood, implies_true, recForm_stood]

theorem sumsFlush_stood (s : State) :
    (sumsFlush s).stood = s.stood := by
  unfold sumsFlush
  (try dsimp only); (repeat' split) <;>
    simp only [stood_mk, stood_eta, apply_ite State.stood, ite_self, foldl_stood, implies_true, sumFlush_stood]

theorem sumsRestart_stood (s : State) :
    (sumsRestart s).stood = s.stood := by
  unfold sumsRestart
  first
  | with_reducible rfl
  | ((try dsimp only); repeat' split) <;> (first | (with_reducible rfl) | (simp only [stood_mk, stood_eta, apply_ite State.stood, ite_self]; done) | (simp only [stood_mk, stood_eta, apply_ite State.stood, ite_self, foldl_stood, implies_true]; done) | (simp_all only [stood_mk, stood_eta, apply_ite State.stood, ite_self, foldl_stood, implies_true]; done))

theorem subFlush_stood (s : State) (e : Nat × Subscr) :
    (subFlush s e).stood = s.stood := by
  unfold subFlush
  simp only [stood_mk, stood_eta, apply_ite State.stood, ite_self, raise_stood]

theorem lostFlush_stood (s : State) :
    (lostFlush s).stood = s.stood := by
  unfold lostFlush
  (try dsimp only); (repeat' split) <;> simp only [stood_mk, stood_eta, raise_stood]

theorem evFrameEnd_stood (s : State) :
    (evFrameEnd s).stood = s.stood := by
  unfold evFrameEnd
  (try dsimp only); (repeat' split) <;>
    simp only [stood_mk, stood_eta, apply_ite State.stood, ite_self, foldl_stood, implies_true, sumsFlush_stood, subFlush_stood, lostFlush_stood]

theorem warnGlitchReport_stood (s : State) :
    (warnGlitchReport s).stood = s.stood := by
  unfold warnGlitchReport
  (try dsimp only); (repeat' split) <;> simp only [stood_mk, stood_eta, raise_stood]

theorem doRecorderAccept_stood (s : State) :
    (doRecorderAccept s).stood = s.stood := by
  unfold doRecorderAccept
  (try dsimp only); (repeat' split) <;> simp only [stood_mk, stood_eta, count1_stood, ctlAdmit_stood]

theorem recorderClear_stood (mki : Nat) (s : State) :
    (recorderClear mki s).stood = s.stood := by
  unfold recorderClear
  (try dsimp only); (repeat' split) <;> simp only [stood_mk, stood_eta, ctlSend_stood]

theorem doRecorderClearAck_stood (s : State) :
    (doRecorderClearAck s).stood = s.stood := by
  unfold doRecorderClearAck
  (try dsimp only); (repeat' split) <;> simp only [stood_mk, stood_eta, raise_stood]

theorem doRecOnlineChange_stood (online : Bool) (s : State) :
    (doRecOnlineChange online s).stood = s.stood := by
  unfold doRecOnlineChange
  simp only [stood_mk, stood_eta, apply_ite State.stood, ite_self, regPut_stood, modeSend_stood]

theorem slotPut_stood (kidx : Nat) (x : Slot) (s : State) :
    (slotPut kidx x s).stood = s.stood := by
  unfold slotPut
  simp only [stood_mk, stood_eta]

theorem ctxPut_stood (c : Nat) (x : Ctx) (s : State) :
    (ctxPut c x s).stood = s.stood := by
  unfold ctxPut
  simp only [stood_mk, stood_eta]

theorem nvNote_stood (a cause : Nat) (s : State) :
    (nvNote a cause s).stood = s.stood := by
  unfold nvNote
  simp only [stood_mk, stood_eta, raise_stood, countUp_stood]

theorem selNote_stood (r : Option Nat × Bool) (s : State) :
    (selNote r s).stood = s.stood := by
  unfold selNote
  first
  | with_reducible rfl
  | ((try dsimp only); repeat' split) <;> (first | (with_reducible rfl) | (simp only [stood_mk, stood_eta, apply_ite State.stood, ite_self, nvNote_stood]; done) | (simp only [stood_mk, stood_eta, apply_ite State.stood, ite_self, foldl_stood, implies_true, nvNote_stood]; done) | (simp_all only [stood_mk, stood_eta, apply_ite State.stood, ite_self, foldl_stood, implies_true, nvNote_stood]; done))

theorem jobNote_stood (s : State) (j : NvJob) :
    (jobNote s j).stood = s.stood := by
  unfold jobNote
  first
  | with_reducible rfl
  | ((try dsimp only); repeat' split) <;> (first | (with_reducible rfl) | (simp only [stood_mk, stood_eta, apply_ite State.stood, ite_self, selNote_stood]; done) | (simp only [stood_mk, stood_eta, apply_ite State.stood, ite_self, foldl_stood, implies_true, selNote_stood]; done) | (simp_all only [stood_mk, stood_eta, apply_ite State.stood, ite_self, foldl_stood, implies_true, selNote_stood]; done))

theorem nvKick_stood (s : State) :
    (nvKick s).stood = s.stood := by
  unfold nvKick
  first
  | with_reducible rfl
  | ((try dsimp only); repeat' split) <;> (first | (with_reducible rfl) | (simp only [stood_mk, stood_eta, apply_ite State.stood, ite_self, jobNote_stood]; done) | (simp only [stood_mk, stood_eta, apply_ite State.stood, ite_self, foldl_stood, implies_true, jobNote_stood]; done) | (simp_all only [stood_mk, stood_eta, apply_ite State.stood, ite_self, foldl_stood, implies_true, jobNote_stood]; done))

theorem nvPush_stood (j : NvJob) (s : State) :
    (nvPush j s).stood = s.stood := by
  unfold nvPush
  simp only [stood_mk, stood_eta, apply_ite State.stood, ite_self, nvKick_stood]

theorem imageDrop_stood (s : State) :
    (imageDrop s).stood = s.stood := by
  unfold imageDrop
  simp only [stood_mk, stood_eta]

theorem imageStart_stood (s : State) :
    (imageStart s).stood = s.stood := by
  unfold imageStart
  (try dsimp only); (repeat' split) <;> simp only [stood_mk, stood_eta, selNote_stood, imageDrop_stood, nvKick_stood]

theorem imageCatch_stood (s : State) :
    (imageCatch s).stood = s.stood := by
  unfold imageCatch
  simp only [stood_mk, stood_eta, apply_ite State.stood, ite_self, imageStart_stood]

theorem nvConfirm_stood (act : NvAct) (s : State) :
    (nvConfirm act s).stood = s.stood := by
  unfold nvConfirm
  (try dsimp only); (repeat' split) <;> simp only [stood_mk, stood_eta, ctxPut_stood, imageCatch_stood]

theorem nvJobDone_stood (s : State) (j : NvJob) :
    (nvJobDone s j).stood = s.stood := by
  unfold nvJobDone
  (try dsimp only); (repeat' split) <;> simp only [stood_mk, stood_eta, regPut_stood, nvConfirm_stood]

theorem nvRetry_stood (p : NvPage) (s : State) :
    (nvRetry p s).stood = s.stood := by
  unfold nvRetry
  simp only [stood_mk, stood_eta, apply_ite State.stood, ite_self, count1_stood, raise_stood, regPut_stood, nvKick_stood]

theorem doNvPageDone_stood (err : Bool) (s : State) :
    (doNvPageDone err s).stood = s.stood := by
  unfold doNvPageDone
  (try dsimp only); (repeat' split) <;> simp only [stood_mk, stood_eta, takeFree_stood, nvRetry_stood, count1_stood]

theorem grantReset_stood (kidx : Nat) (s : State) :
    (grantReset kidx s).stood = s.stood := by
  unfold grantReset
  (try dsimp only); (repeat' split) <;>
    simp only [stood_mk, stood_eta, apply_ite State.stood, ite_self, foldl_stood, implies_true, cfgPut_stood]

theorem slotErase_stood (kidx : Nat) (s : State) :
    (slotErase kidx s).stood = s.stood := by
  unfold slotErase
  (try dsimp only); (repeat' split) <;> simp only [stood_mk, stood_eta, grantReset_stood, slotPut_stood]

theorem slotZeroize_stood (kidx : Nat) (s : State) :
    (slotZeroize kidx s).stood = s.stood := by
  unfold slotZeroize
  first
  | with_reducible rfl
  | ((try dsimp only); repeat' split) <;> (first | (with_reducible rfl) | (simp only [stood_mk, stood_eta, apply_ite State.stood, ite_self, slotPut_stood, slotErase_stood]; done) | (simp only [stood_mk, stood_eta, apply_ite State.stood, ite_self, foldl_stood, implies_true, slotPut_stood, slotErase_stood]; done) | (simp_all only [stood_mk, stood_eta, apply_ite State.stood, ite_self, foldl_stood, implies_true, slotPut_stood, slotErase_stood]; done))

theorem rkEnqueue_stood (kidx cause : Nat) (s : State) :
    (rkEnqueue kidx cause s).stood = s.stood := by
  unfold rkEnqueue
  simp only [stood_mk, stood_eta, apply_ite State.stood, ite_self]

theorem rkDequeue_stood (kidx cause : Nat) (s : State) :
    (rkDequeue kidx cause s).stood = s.stood := by
  unfold rkDequeue
  simp only [stood_mk, stood_eta]

theorem rkClearQueue_stood (kidx : Nat) (s : State) :
    (rkClearQueue kidx s).stood = s.stood := by
  unfold rkClearQueue
  simp only [stood_mk, stood_eta]

theorem kpRespond_stood (opc : Byte) (k : KpCmd) (res : Byte) (v : BitVec 24) (s : State) :
    (kpRespond opc k res v s).stood = s.stood := by
  unfold kpRespond
  simp only [stood_mk, stood_eta]

theorem kpRefuse_stood (opc : Byte) (k : KpCmd) (res : Byte) (s : State) :
    (kpRefuse opc k res s).stood = s.stood := by
  unfold kpRefuse
  simp only [stood_mk, stood_eta, kpRespond_stood, count1_stood, raise_stood]

theorem kpDone_stood (opc : Byte) (k : KpCmd) (v : BitVec 24) (s0 s : State) :
    (kpDone opc k v s0 s).stood = s.stood := by
  unfold kpDone
  simp only [stood_mk, stood_eta, count1_stood, kpRespond_stood]

theorem kpEarlyDo_stood (opc : Byte) (k : KpCmd) (res : Byte) (s : State) :
    (kpEarlyDo opc k res s).stood = s.stood := by
  unfold kpEarlyDo
  simp only [stood_mk, stood_eta, apply_ite State.stood, ite_self, kpRespond_stood, kpRefuse_stood]

theorem doLoadMgmtKey_stood (k : KpCmd) (s : State) :
    (doLoadMgmtKey k s).stood = s.stood := by
  unfold doLoadMgmtKey
  (try dsimp only); (repeat' split) <;> simp only [stood_mk, stood_eta, kpEarlyDo_stood, kpRefuse_stood, kpDone_stood]

theorem keyInstall_stood (adm : KeyAdmit) (kidx : Nat) (toB : Bool) (key : Key) (s : State) :
    (keyInstall adm kidx toB key s).stood = s.stood := by
  unfold keyInstall
  (try dsimp only); (repeat' split) <;> simp only [stood_mk, stood_eta, slotPut_stood, nvPush_stood]

theorem doLoadKey_stood (k : KpCmd) (s : State) :
    (doLoadKey k s).stood = s.stood := by
  unfold doLoadKey
  (try dsimp only); (repeat' split) <;> simp only [stood_mk, stood_eta, kpEarlyDo_stood, kpRefuse_stood, kpDone_stood, keyInstall_stood]

theorem doEraseSlot_stood (k : KpCmd) (s : State) :
    (doEraseSlot k s).stood = s.stood := by
  unfold doEraseSlot
  (try dsimp only); (repeat' split) <;> simp only [stood_mk, stood_eta, kpEarlyDo_stood, kpDone_stood, slotErase_stood]

theorem doQueryKcv_stood (k : KpCmd) (s : State) :
    (doQueryKcv k s).stood = s.stood := by
  unfold doQueryKcv
  (try dsimp only); (repeat' split) <;> simp only [stood_mk, stood_eta, kpEarlyDo_stood, kpRefuse_stood, kpDone_stood]

theorem slotActivate_stood (kidx : Nat) (s : State) :
    (slotActivate kidx s).stood = s.stood := by
  unfold slotActivate
  simp only [stood_mk, stood_eta, apply_ite State.stood, ite_self, nvPush_stood]

theorem slotDiscard_stood (kidx : Nat) (s : State) :
    (slotDiscard kidx s).stood = s.stood := by
  unfold slotDiscard
  simp only [stood_mk, stood_eta, slotPut_stood, grantReset_stood]

theorem slotRetire_stood (kidx : Nat) (s : State) :
    (slotRetire kidx s).stood = s.stood := by
  unfold slotRetire
  simp only [stood_mk, stood_eta, nvPush_stood]

theorem slotSpent_stood (kidx : Nat) (s : State) :
    (slotSpent kidx s).stood = s.stood := by
  unfold slotSpent
  simp only [stood_mk, stood_eta, nvPush_stood]

theorem nvForget_stood (a : NvAct) (s : State) :
    (nvForget a s).stood = s.stood := by
  unfold nvForget
  first
  | with_reducible rfl
  | ((try dsimp only); repeat' split) <;> (first | (with_reducible rfl) | (simp only [stood_mk, stood_eta, apply_ite State.stood, ite_self]; done) | (simp only [stood_mk, stood_eta, apply_ite State.stood, ite_self, foldl_stood, implies_true]; done) | (simp_all only [stood_mk, stood_eta, apply_ite State.stood, ite_self, foldl_stood, implies_true]; done))

theorem linkPut_stood (p : Nat) (x : LinkSt) (s : State) :
    (linkPut p x s).stood = s.stood := by
  unfold linkPut
  simp only [stood_mk, stood_eta]

theorem linkMod_stood (p : Nat) (f : LinkSt → LinkSt) (s : State) :
    (linkMod p f s).stood = s.stood := by
  unfold linkMod
  simp only [stood_mk, stood_eta, linkPut_stood]

theorem creditRaise_stood (k : Nat) (s : State) :
    (creditRaise k s).stood = s.stood := by
  unfold creditRaise
  (try dsimp only); (repeat' split) <;> simp only [stood_mk, stood_eta]

theorem eqPut_stood (p : Nat) (l : List Rsp) (s : State) :
    (eqPut p l s).stood = s.stood := by
  unfold eqPut
  simp only [stood_mk, stood_eta]

theorem partnerLink_stood (p : Nat) (r : Rsp) (s : State) :
    (partnerLink p r s).stood = s.stood := by
  unfold partnerLink
  first
  | with_reducible rfl
  | ((try dsimp only); repeat' split) <;> (first | (with_reducible rfl) | (simp only [stood_mk, stood_eta, apply_ite State.stood, ite_self, eqPut_stood]; done) | (simp only [stood_mk, stood_eta, apply_ite State.stood, ite_self, foldl_stood, implies_true, eqPut_stood]; done) | (simp_all only [stood_mk, stood_eta, apply_ite State.stood, ite_self, foldl_stood, implies_true, eqPut_stood]; done))

theorem partnerPush_stood (p : Nat) (r : Rsp) (s : State) :
    (partnerPush p r s).stood = s.stood := by
  unfold partnerPush
  first
  | with_reducible rfl
  | ((try dsimp only); repeat' split) <;> (first | (with_reducible rfl) | (simp only [stood_mk, stood_eta, apply_ite State.stood, ite_self, partnerLink_stood, linkMod_stood]; done) | (simp only [stood_mk, stood_eta, apply_ite State.stood, ite_self, foldl_stood, implies_true, partnerLink_stood, linkMod_stood]; done) | (simp_all only [stood_mk, stood_eta, apply_ite State.stood, ite_self, foldl_stood, implies_true, partnerLink_stood, linkMod_stood]; done))

theorem partnerFeed_stood (n p : Nat) (s : State) : (partnerFeed n p s).stood = s.stood := by
  induction n generalizing s with
  | zero => rfl
  | succ n ih =>
    unfold partnerFeed
    (repeat' split) <;> simp only [ih, partnerLink_stood, linkMod_stood]

theorem grantSend_stood (n p : Nat) (ks : List Nat) (s : State) : (grantSend n p ks s).stood = s.stood := by
  induction n generalizing ks s with
  | zero => rfl
  | succ n ih =>
    unfold grantSend
    split
    · rfl
    · simp only [ih, partnerPush_stood, stood_mk, stood_eta]

theorem grantBatch_stood (p : Nat) (s : State) :
    (grantBatch p s).stood = s.stood := by
  unfold grantBatch
  simp only [stood_mk, stood_eta, apply_ite State.stood, ite_self, grantSend_stood]

theorem creditRaiseAll_stood (s : State) :
    (creditRaiseAll s).stood = s.stood := by
  unfold creditRaiseAll
  (try dsimp only); (repeat' split) <;>
    simp only [stood_mk, stood_eta, apply_ite State.stood, ite_self, foldl_stood, implies_true, creditRaise_stood, grantBatch_stood]

theorem creditSettle_stood (p k : Nat) (s : State) :
    (creditSettle p k s).stood = s.stood := by
  unfold creditSettle
  first
  | with_reducible rfl
  | ((try dsimp only); repeat' split) <;> (first | (with_reducible rfl) | (simp only [stood_mk, stood_eta, apply_ite State.stood, ite_self, creditRaise_stood, creditRaiseAll_stood, grantBatch_stood]; done) | (simp only [stood_mk, stood_eta, apply_ite State.stood, ite_self, foldl_stood, implies_true, creditRaise_stood, creditRaiseAll_stood, grantBatch_stood]; done) | (simp_all only [stood_mk, stood_eta, apply_ite State.stood, ite_self, foldl_stood, implies_true, creditRaise_stood, creditRaiseAll_stood, grantBatch_stood]; done))

theorem creditRelease_stood (p sid n : Nat) (s : State) :
    (creditRelease p sid n s).stood = s.stood := by
  unfold creditRelease
  (try dsimp only); (repeat' split) <;> simp only [stood_mk, stood_eta, creditSettle_stood]

theorem linkFate_stood (p : Nat) (f : FateEnt) (s : State) :
    (linkFate p f s).stood = s.stood := by
  unfold linkFate
  simp only [stood_mk, stood_eta, linkMod_stood]

theorem fateDrop_stood (p : Nat) (tag : BitVec 16) (s : State) :
    (fateDrop p tag s).stood = s.stood := by
  unfold fateDrop
  simp only [stood_mk, stood_eta, linkMod_stood]

theorem linkDropPool_stood (p : Nat) (s : State) :
    (linkDropPool p s).stood = s.stood := by
  unfold linkDropPool
  (try dsimp only); (repeat' split) <;>
    simp only [stood_mk, stood_eta, apply_ite State.stood, ite_self, foldl_stood, implies_true, linkPut_stood, creditRelease_stood, eqPut_stood]

theorem linkDown_stood (p cause : Nat) (s : State) :
    (linkDown p cause s).stood = s.stood := by
  unfold linkDown
  simp only [stood_mk, stood_eta, raise_stood, count1_stood, regPut_stood, linkDropPool_stood, linkMod_stood]

theorem queueNewId_stood (q : Nat) (s : State) :
    (queueNewId q s).2.stood = s.stood := by
  unfold queueNewId
  (try dsimp only); (repeat' split) <;> simp only [stood_mk, stood_eta]

theorem queueNewId_stood_of {q : Nat} {s : State} {pp} (h : queueNewId q s = pp) : pp.2.stood = s.stood := h ▸ queueNewId_stood q s

theorem ptrMend_stood (q : Nat) (s : State) :
    (ptrMend q s).stood = s.stood := by
  unfold ptrMend
  first
  | with_reducible rfl
  | ((try dsimp only); repeat' split) <;> (first | (with_reducible rfl) | (simp only [stood_mk, stood_eta, apply_ite State.stood, ite_self]; done) | (simp only [stood_mk, stood_eta, apply_ite State.stood, ite_self, foldl_stood, implies_true]; done) | (simp_all only [stood_mk, stood_eta, apply_ite State.stood, ite_self, foldl_stood, implies_true]; done))

theorem egressStuck_stood (p : Nat) (s : State) :
    (egressStuck p s).stood = s.stood := by
  unfold egressStuck
  first
  | with_reducible rfl
  | ((try dsimp only); repeat' split) <;> (first | (with_reducible rfl) | (simp only [stood_mk, stood_eta, apply_ite State.stood, ite_self, linkFate_stood, eqPut_stood]; done) | (simp only [stood_mk, stood_eta, apply_ite State.stood, ite_self, foldl_stood, implies_true, linkFate_stood, eqPut_stood]; done) | (simp_all only [stood_mk, stood_eta, apply_ite State.stood, ite_self, foldl_stood, implies_true, linkFate_stood, eqPut_stood]; done))

theorem egressReset_stood (q field : Nat) (s : State) :
    (egressReset q field s).stood = s.stood := by
  unfold egressReset
  first
  | with_reducible rfl
  | ((try dsimp only); repeat' split) <;> (first | (with_reducible rfl) | (simp only [stood_mk, stood_eta, apply_ite State.stood, ite_self, raise_stood, count1_stood, ptrMend_stood, queueNewId_stood, egressStuck_stood, linkDown_stood]; done) | ((try have hk_queueNewId := queueNewId_stood_of (by assumption : queueNewId _ _ = _)); simp_all only [stood_mk, stood_eta, apply_ite State.stood, foldl_stood, ite_self, raise_stood, count1_stood, ptrMend_stood, queueNewId_stood, egressStuck_stood, linkDown_stood]; done) | (simp only [stood_mk, stood_eta, apply_ite State.stood, ite_self, foldl_stood, implies_true, raise_stood, count1_stood, ptrMend_stood, queueNewId_stood, egressStuck_stood, linkDown_stood]; done) | (simp_all only [stood_mk, stood_eta, apply_ite State.stood, ite_self, foldl_stood, implies_true, raise_stood, count1_stood, ptrMend_stood, queueNewId_stood, egressStuck_stood, linkDown_stood]; done))

theorem eqJoin_stood (p : Nat) (r : Rsp) (s : State) :
    (eqJoin p r s).stood = s.stood := by
  unfold eqJoin
  first
  | with_reducible rfl
  | ((try dsimp only); repeat' split) <;> (first | (with_reducible rfl) | (simp only [stood_mk, stood_eta, apply_ite State.stood, ite_self, eqPut_stood, egressReset_stood]; done) | (simp only [stood_mk, stood_eta, apply_ite State.stood, ite_self, foldl_stood, implies_true, eqPut_stood, egressReset_stood]; done) | (simp_all only [stood_mk, stood_eta, apply_ite State.stood, ite_self, foldl_stood, implies_true, eqPut_stood, egressReset_stood]; done))

theorem masterRespond_stood (n : Nat) (r : Rsp) (s : State) :
    (masterRespond n r s).stood = s.stood := by
  unfold masterRespond
  first
  | with_reducible rfl
  | ((try dsimp only); repeat' split) <;> (first | (with_reducible rfl) | (simp only [stood_mk, stood_eta, apply_ite State.stood, ite_self]; done) | (simp only [stood_mk, stood_eta, apply_ite State.stood, ite_self, foldl_stood, implies_true]; done) | (simp_all only [stood_mk, stood_eta, apply_ite State.stood, ite_self, foldl_stood, implies_true]; done))

theorem rspSend_stood (src : Src) (sid : BitVec 12) (gone : Bool) (r : Rsp) (cells : Nat) (s : State) :
    (rspSend src sid gone r cells s).stood = s.stood := by
  unfold rspSend
  (try dsimp only); (repeat' split) <;> simp only [stood_mk, stood_eta, linkFate_stood, creditRelease_stood, eqJoin_stood, masterRespond_stood]

theorem rspStats_stood (src : Src) (op : ReqOp) (status : Nat) (s : State) :
    (rspStats src op status s).stood = s.stood := by
  unfold rspStats
  (try dsimp only); (repeat' split) <;> simp only [stood_mk, stood_eta, count1_stood]

theorem complete_stood (it : Item) (status : Nat) (data : Option Line) (psn : Bool) (extra : Side) (cells : Nat) (s : State) :
    (complete it status data psn extra cells s).stood = s.stood := by
  unfold complete
  simp only [stood_mk, stood_eta, rspSend_stood, rspStats_stood]

theorem completeBare_stood (it : Item) (status cells : Nat) (s : State) :
    (completeBare it status cells s).stood = s.stood := by
  unfold completeBare
  simp only [stood_mk, stood_eta, complete_stood]

theorem mediaPut_stood (m : Nat) (x : Media) (s : State) :
    (mediaPut m x s).stood = s.stood := by
  unfold mediaPut
  simp only [stood_mk, stood_eta]

theorem mediaMod_stood (m : Nat) (f : Media → Media) (s : State) :
    (mediaMod m f s).stood = s.stood := by
  unfold mediaMod
  simp only [stood_mk, stood_eta, mediaPut_stood]

theorem refuseEvent_stood (src : Src) (h : Hdr) (step status : Nat) (s : State) :
    (refuseEvent src h step status s).stood = s.stood := by
  unfold refuseEvent
  (try dsimp only); (repeat' split) <;> simp only [stood_mk, stood_eta, raise_stood]

theorem slotError_stood (src : Src) (cause pos opc tag : Nat) (s : State) :
    (slotError src cause pos opc tag s).stood = s.stood := by
  unfold slotError
  (try dsimp only); (repeat' split) <;> simp only [stood_mk, stood_eta, count1_stood, linkDown_stood, raise_stood, linkFate_stood]

theorem creditTake_stood (src : Src) (sid : BitVec 12) (cells : Nat) (s : State) :
    (creditTake src sid cells s).stood = s.stood := by
  unfold creditTake
  (try dsimp only); (repeat' split) <;> simp only [stood_mk, stood_eta]

theorem creditCut_stood (src : Src) (sid : BitVec 12) (cells : Nat) (s : State) :
    (creditCut src sid cells s).stood = s.stood := by
  unfold creditCut
  first
  | with_reducible rfl
  | ((try dsimp only); repeat' split) <;> (first | (with_reducible rfl) | (simp only [stood_mk, stood_eta, apply_ite State.stood, ite_self, creditSettle_stood]; done) | (simp only [stood_mk, stood_eta, apply_ite State.stood, ite_self, foldl_stood, implies_true, creditSettle_stood]; done) | (simp_all only [stood_mk, stood_eta, apply_ite State.stood, ite_self, foldl_stood, implies_true, creditSettle_stood]; done))

theorem creditOverrun_stood (p : Fin 128) (sid : BitVec 12) (cost : Nat) (tag : Option (BitVec 16)) (s : State) :
    (creditOverrun p sid cost tag s).stood = s.stood := by
  unfold creditOverrun
  (try dsimp only); (repeat' split) <;> simp only [stood_mk, stood_eta, raise_stood, count1_stood, linkDown_stood, linkFate_stood]

theorem orphanAdd_stood (i : Item) (s : State) :
    (orphanAdd i s).stood = s.stood := by
  unfold orphanAdd
  first
  | with_reducible rfl
  | ((try dsimp only); repeat' split) <;> (first | (with_reducible rfl) | (simp only [stood_mk, stood_eta, apply_ite State.stood, ite_self]; done) | (simp only [stood_mk, stood_eta, apply_ite State.stood, ite_self, foldl_stood, implies_true]; done) | (simp_all only [stood_mk, stood_eta, apply_ite State.stood, ite_self, foldl_stood, implies_true]; done))

theorem orphanDrop_stood (s : State) (o : Orphan) :
    (orphanDrop s o).stood = s.stood := by
  unfold orphanDrop
  first
  | with_reducible rfl
  | ((try dsimp only); repeat' split) <;> (first | (with_reducible rfl) | (simp only [stood_mk, stood_eta, apply_ite State.stood, ite_self, count1_stood, creditRelease_stood]; done) | (simp only [stood_mk, stood_eta, apply_ite State.stood, ite_self, foldl_stood, implies_true, count1_stood, creditRelease_stood]; done) | (simp_all only [stood_mk, stood_eta, apply_ite State.stood, ite_self, foldl_stood, implies_true, count1_stood, creditRelease_stood]; done))

theorem orphansDue_stood (t : Nat) (s : State) :
    (orphansDue t s).stood = s.stood := by
  unfold orphansDue
  first
  | with_reducible rfl
  | ((try dsimp only); repeat' split) <;> (first | (with_reducible rfl) | (simp only [stood_mk, stood_eta, apply_ite State.stood, ite_self, orphanDrop_stood]; done) | (simp only [stood_mk, stood_eta, apply_ite State.stood, ite_self, foldl_stood, implies_true, orphanDrop_stood]; done) | (simp_all only [stood_mk, stood_eta, apply_ite State.stood, ite_self, foldl_stood, implies_true, orphanDrop_stood]; done))

theorem itemOut_stood (i : Item) (status : Nat) (s : State) :
    (itemOut i status s).stood = s.stood := by
  unfold itemOut
  first
  | with_reducible rfl
  | ((try dsimp only); repeat' split) <;> (first | (with_reducible rfl) | (simp only [stood_mk, stood_eta, apply_ite State.stood, ite_self, completeBare_stood, orphanAdd_stood]; done) | (simp only [stood_mk, stood_eta, apply_ite State.stood, ite_self, foldl_stood, implies_true, completeBare_stood, orphanAdd_stood]; done) | (simp_all only [stood_mk, stood_eta, apply_ite State.stood, ite_self, foldl_stood, implies_true, completeBare_stood, orphanAdd_stood]; done))

theorem itemFlushed_stood (i : Item) (s : State) :
    (itemFlushed i s).stood = s.stood := by
  unfold itemFlushed
  simp only [stood_mk, stood_eta, itemOut_stood, count1_stood]

theorem stickySet_stood (q : Nat) (src : Src) (s : State) :
    (stickySet q src s).stood = s.stood := by
  unfold stickySet
  (try dsimp only); (repeat' split) <;> simp only [stood_mk, stood_eta]

theorem stickyTrim_stood (q : Nat) (s : State) :
    (stickyTrim q s).stood = s.stood := by
  unfold stickyTrim
  simp only [stood_mk, stood_eta, apply_ite State.stood, ite_self]

theorem ingressReset_stood (q field : Nat) (s : State) :
    (ingressReset q field s).stood = s.stood := by
  unfold ingressReset
  first
  | with_reducible rfl
  | ((try dsimp only); repeat' split) <;> (first | (with_reducible rfl) | (simp only [stood_mk, stood_eta, apply_ite State.stood, ite_self, raise_stood, count1_stood, ptrMend_stood, orphanAdd_stood, queueNewId_stood, stickyTrim_stood]; done) | ((try have hk_queueNewId := queueNewId_stood_of (by assumption : queueNewId _ _ = _)); simp_all only [stood_mk, stood_eta, apply_ite State.stood, foldl_stood, ite_self, raise_stood, count1_stood, ptrMend_stood, orphanAdd_stood, queueNewId_stood, stickyTrim_stood]; done) | (simp only [stood_mk, stood_eta, apply_ite State.stood, ite_self, foldl_stood, implies_true, raise_stood, count1_stood, ptrMend_stood, orphanAdd_stood, queueNewId_stood, stickyTrim_stood]; done) | (simp_all only [stood_mk, stood_eta, apply_ite State.stood, ite_self, foldl_stood, implies_true, raise_stood, count1_stood, ptrMend_stood, orphanAdd_stood, queueNewId_stood, stickyTrim_stood]; done))

theorem queueReset_stood (q field : Nat) (s : State) :
    (queueReset q field s).stood = s.stood := by
  unfold queueReset
  simp only [stood_mk, stood_eta, apply_ite State.stood, ite_self, ingressReset_stood, egressReset_stood]

theorem itemJoin_stood (i : Item) (s : State) :
    (itemJoin i s).stood = s.stood := by
  unfold itemJoin
  first
  | with_reducible rfl
  | ((try dsimp only); repeat' split) <;> (first | (with_reducible rfl) | (simp only [stood_mk, stood_eta, apply_ite State.stood, ite_self, stickySet_stood, queueReset_stood]; done) | (simp only [stood_mk, stood_eta, apply_ite State.stood, ite_self, foldl_stood, implies_true, stickySet_stood, queueReset_stood]; done) | (simp_all only [stood_mk, stood_eta, apply_ite State.stood, ite_self, foldl_stood, implies_true, stickySet_stood, queueReset_stood]; done))

theorem enqueueItem_stood (i : Item) (s : State) :
    (enqueueItem i s).stood = s.stood := by
  unfold enqueueItem
  simp only [stood_mk, stood_eta, apply_ite State.stood, ite_self, itemFlushed_stood, completeBare_stood, itemJoin_stood]

theorem landFlush_stood (t0 : Nat) (s : State) :
    (landFlush t0 s).stood = s.stood := by
  unfold landFlush
  first
  | with_reducible rfl
  | ((try dsimp only); repeat' split) <;> (first | (with_reducible rfl) | (simp only [stood_mk, stood_eta, apply_ite State.stood, ite_self, itemFlushed_stood, stickyTrim_stood]; done) | (simp only [stood_mk, stood_eta, apply_ite State.stood, ite_self, foldl_stood, implies_true, itemFlushed_stood, stickyTrim_stood]; done) | (simp_all only [stood_mk, stood_eta, apply_ite State.stood, ite_self, foldl_stood, implies_true, itemFlushed_stood, stickyTrim_stood]; done))

theorem refuseReq_stood (i : Item) (step status : Nat) (s : State) :
    (refuseReq i step status s).stood = s.stood := by
  unfold refuseReq
  (try dsimp only); (repeat' split) <;> simp only [stood_mk, stood_eta, count1_stood, completeBare_stood, refuseEvent_stood]

theorem takeArr_stood (s : State) :
    (takeArr s).2.stood = s.stood := by
  unfold takeArr
  simp only [stood_mk, stood_eta]

theorem takeArr_stood_of {s : State} {pp} (h : takeArr s = pp) : pp.2.stood = s.stood := h ▸ takeArr_stood s

theorem reqError_stood (src : Src) (cause pos opc cells : Nat) (h : Hdr) (s : State) :
    (reqError src cause pos opc cells h s).stood = s.stood := by
  unfold reqError
  first
  | with_reducible rfl
  | ((try dsimp only); repeat' split) <;> (first | (with_reducible rfl) | (simp only [stood_mk, stood_eta, apply_ite State.stood, ite_self, slotError_stood, creditCut_stood]; done) | (simp only [stood_mk, stood_eta, apply_ite State.stood, ite_self, foldl_stood, implies_true, slotError_stood, creditCut_stood]; done) | (simp_all only [stood_mk, stood_eta, apply_ite State.stood, ite_self, foldl_stood, implies_true, slotError_stood, creditCut_stood]; done))

theorem tagAnew_stood (src : Src) (tag : BitVec 16) (s : State) :
    (tagAnew src tag s).stood = s.stood := by
  unfold tagAnew
  first
  | with_reducible rfl
  | ((try dsimp only); repeat' split) <;> (first | (with_reducible rfl) | (simp only [stood_mk, stood_eta, apply_ite State.stood, ite_self, fateDrop_stood]; done) | (simp only [stood_mk, stood_eta, apply_ite State.stood, ite_self, foldl_stood, implies_true, fateDrop_stood]; done) | (simp_all only [stood_mk, stood_eta, apply_ite State.stood, ite_self, foldl_stood, implies_true, fateDrop_stood]; done))

theorem reqReceive_stood (src : Src) (op : ReqOp) (h : Hdr) (psn : Bool) (ext : Side) (data : Line) (pos : Nat) (s : State) :
    (reqReceive src op h psn ext data pos s).stood = s.stood := by
  unfold reqReceive
  (try dsimp only); (repeat' split) <;> simp only [stood_mk, stood_eta, reqError_stood, creditOverrun_stood, takeArr_stood, creditTake_stood, tagAnew_stood, refuseReq_stood, count1_stood, raise_stood, enqueueItem_stood]

theorem fenceReceive_stood (src : Src) (h : Hdr) (pos : Nat) (s : State) :
    (fenceReceive src h pos s).stood = s.stood := by
  unfold fenceReceive
  (try dsimp only); (repeat' split) <;> simp only [stood_mk, stood_eta, reqError_stood, creditOverrun_stood, takeArr_stood, creditTake_stood, tagAnew_stood, count1_stood, rspSend_stood, refuseEvent_stood, raise_stood]

theorem fenceDone_stood (f : FenceEnt) (s : State) :
    (fenceDone f s).stood = s.stood := by
  unfold fenceDone
  simp only [stood_mk, stood_eta, rspSend_stood, count1_stood]

theorem doFenceComplete_stood (src : Src) (sid : BitVec 12) (s : State) :
    (doFenceComplete src sid s).stood = s.stood := by
  unfold doFenceComplete
  (try dsimp only); (repeat' split) <;> simp only [stood_mk, stood_eta, fenceDone_stood]

theorem issueW_stood (m : Nat) (o : MOp) (s : State) :
    (issueW m o s).stood = s.stood := by
  unfold issueW
  simp only [stood_mk, stood_eta, mediaMod_stood]

theorem issueR_stood (m : Nat) (o : MOp) (s : State) :
    (issueR m o s).stood = s.stood := by
  unfold issueR
  simp only [stood_mk, stood_eta, mediaMod_stood]

theorem faultLow_stood (s : State) :
    (faultLow s).stood = s.stood := by
  unfold faultLow
  simp only [stood_mk, stood_eta]

theorem txnPut_stood (t : Txn) (s : State) :
    (txnPut t s).stood = s.stood := by
  unfold txnPut
  simp only [stood_mk, stood_eta]

theorem txnAdd_stood (t : Txn) (s : State) :
    (txnAdd t s).stood = s.stood := by
  unfold txnAdd
  simp only [stood_mk, stood_eta]

theorem txnDel_stood (id : Nat) (s : State) :
    (txnDel id s).stood = s.stood := by
  unfold txnDel
  simp only [stood_mk, stood_eta]

theorem jackDrop_stood (k : Nat) (s : State) :
    (jackDrop k s).stood = s.stood := by
  unfold jackDrop
  simp only [stood_mk, stood_eta]

theorem jackInvalidate_stood (a : Nat) (s : State) :
    (jackInvalidate a s).stood = s.stood := by
  unfold jackInvalidate
  (try dsimp only); (repeat' split) <;> simp only [stood_mk, stood_eta, jackDrop_stood]

theorem jackLookup_stood (kidx a : Nat) (pe : Bool) (s : State) :
    (jackLookup kidx a pe s).2.stood = s.stood := by
  unfold jackLookup
  (try dsimp only); (repeat' split) <;> simp only [stood_mk, stood_eta, raise_stood, count1_stood, jackDrop_stood]

theorem jackLookup_stood_of {kidx a : Nat} {pe : Bool} {s : State} {pp} (h : jackLookup kidx a pe s = pp) : pp.2.stood = s.stood := h ▸ jackLookup_stood kidx a pe s

theorem jackPlace_stood (a : Nat) (s : State) :
    (jackPlace a s).2.stood = s.stood := by
  unfold jackPlace
  (try dsimp only); (repeat' split) <;> simp only [stood_mk, stood_eta, takeFree_stood]

theorem jackPlace_stood_of {a : Nat} {s : State} {pp} (h : jackPlace a s = pp) : pp.2.stood = s.stood := h ▸ jackPlace_stood a s

theorem jackWrite_stood (a : Nat) (e : BitVec 64) (s : State) :
    (jackWrite a e s).stood = s.stood := by
  unfold jackWrite
  (try dsimp only); (repeat' split) <;>
    ((try have hk_jackPlace := jackPlace_stood_of (by assumption : jackPlace _ _ = _)); simp_all only [stood_mk, stood_eta, apply_ite State.stood, foldl_stood, ite_self, jackPlace_stood])

theorem jackRegress_stood (kidx a : Nat) (sc : Side) (s : State) :
    (jackRegress kidx a sc s).stood = s.stood := by
  unfold jackRegress
  simp only [stood_mk, stood_eta, raise_stood, count1_stood]

theorem jackCompare_stood (kidx a : Nat) (sc : Side) (s : State) :
    (jackCompare kidx a sc s).stood = s.stood := by
  unfold jackCompare
  (try dsimp only); (repeat' split) <;> simp only [stood_mk, stood_eta, jackRegress_stood]

theorem jackFill_stood (kidx a : Nat) (sc : Side) (s : State) :
    (jackFill kidx a sc s).stood = s.stood := by
  unfold jackFill
  (try dsimp only); (repeat' split) <;> simp only [stood_mk, stood_eta, jackCompare_stood, jackWrite_stood]

theorem jackClear_stood (s : State) :
    (jackClear s).stood = s.stood := by
  unfold jackClear
  simp only [stood_mk, stood_eta]

theorem probesPut_stood (m : Nat) (l : List Probe) (s : State) :
    (probesPut m l s).stood = s.stood := by
  unfold probesPut
  simp only [stood_mk, stood_eta]

theorem probeAdd_stood (kidx a ord : Nat) (s : State) :
    (probeAdd kidx a ord s).stood = s.stood := by
  unfold probeAdd
  (try dsimp only); (repeat' split) <;> simp only [stood_mk, stood_eta, probesPut_stood]

theorem lookOne_stood (kidx a : Nat) (s : State) :
    (lookOne kidx a s).stood = s.stood := by
  unfold lookOne
  simp only [stood_mk, stood_eta, apply_ite State.stood, ite_self, count1_stood, probesPut_stood]

theorem lookAhead_stood (kidx a : Nat) (s : State) :
    (lookAhead kidx a s).stood = s.stood := by
  unfold lookAhead
  (try dsimp only); (repeat' split) <;>
    simp only [stood_mk, stood_eta, apply_ite State.stood, ite_self, foldl_stood, implies_true, lookOne_stood]

theorem probeIssue_stood (m : Nat) (want : Probe → Bool) (ctr : Nat) (s : State) :
    (probeIssue m want ctr s).stood = s.stood := by
  unfold probeIssue
  (try dsimp only); (repeat' split) <;> simp only [stood_mk, stood_eta, issueR_stood, count1_stood, probesPut_stood]

theorem probeVoid_stood (a : Nat) (s : State) :
    (probeVoid a s).stood = s.stood := by
  unfold probeVoid
  (try dsimp only); (repeat' split) <;> simp only [stood_mk, stood_eta, mediaMod_stood, probesPut_stood, probeAdd_stood]

theorem slicePut_stood (i : Nat) (x : Slice) (s : State) :
    (slicePut i x s).stood = s.stood := by
  unfold slicePut
  simp only [stood_mk, stood_eta]

theorem logAppend_stood (e : LogEnt) (s : State) :
    (logAppend e s).stood = s.stood := by
  unfold logAppend
  (try dsimp only); (repeat' split) <;> simp only [stood_mk, stood_eta, raise_stood, nvPush_stood]

theorem pipeCharge_stood (i p : Nat) (s : State) :
    (pipeCharge i p s).stood = s.stood := by
  unfold pipeCharge
  simp only [stood_mk, stood_eta, apply_ite State.stood, ite_self, count1_stood, slicePut_stood]

theorem prioCheck_stood (i d : Nat) (s : State) :
    (prioCheck i d s).stood = s.stood := by
  unfold prioCheck
  simp only [stood_mk, stood_eta, apply_ite State.stood, ite_self, slicePut_stood]

theorem prioDirection_stood (i : Nat) (dir : Dir) (s : State) :
    (prioDirection i dir s).stood = s.stood := by
  unfold prioDirection
  (try dsimp only); (repeat' split) <;>
    simp only [stood_mk, stood_eta, apply_ite State.stood, ite_self, foldl_stood, implies_true, prioCheck_stood]

theorem voteCharge_stood (i duty pipe checker who : Nat) (s : State) :
    (voteCharge i duty pipe checker who s).stood = s.stood := by
  unfold voteCharge
  simp only [stood_mk, stood_eta, apply_ite State.stood, ite_self, count1_stood, sumUp_stood, prioCheck_stood, pipeCharge_stood, slicePut_stood]

theorem portUnserve_stood (m : Nat) (s : State) :
    (portUnserve m s).stood = s.stood := by
  unfold portUnserve
  simp only [stood_mk, stood_eta, faultLow_stood, mediaMod_stood]

theorem topLose_stood (s : State) :
    (topLose s).stood = s.stood := by
  unfold topLose
  simp only [stood_mk, stood_eta, raise_stood]

theorem sliceLose_stood (i : Nat) (log : Bool) (s : State) :
    (sliceLose i log s).stood = s.stood := by
  unfold sliceLose
  simp only [stood_mk, stood_eta, apply_ite State.stood, ite_self, logAppend_stood, topLose_stood, raise_stood, slicePut_stood, mediaMod_stood, portUnserve_stood]

theorem pipeRetire_stood (i p : Nat) (bist log : Bool) (s : State) :
    (pipeRetire i p bist log s).stood = s.stood := by
  unfold pipeRetire
  simp only [stood_mk, stood_eta, apply_ite State.stood, ite_self, slicePut_stood, raise_stood, logAppend_stood]

theorem sliceJudge_stood (i : Nat) (log : Bool) (s : State) :
    (sliceJudge i log s).stood = s.stood := by
  unfold sliceJudge
  simp only [stood_mk, stood_eta, apply_ite State.stood, ite_self, topLose_stood, sliceLose_stood]

theorem sliceChecks_stood (next : Nat) (s : State) (i : Nat) :
    (sliceChecks next s i).stood = s.stood := by
  unfold sliceChecks
  first
  | with_reducible rfl
  | ((try dsimp only); repeat' split) <;> (first | (with_reducible rfl) | (simp only [stood_mk, stood_eta, apply_ite State.stood, ite_self, slicePut_stood, pipeRetire_stood]; done) | (simp only [stood_mk, stood_eta, apply_ite State.stood, ite_self, foldl_stood, implies_true, slicePut_stood, pipeRetire_stood]; done) | (simp_all only [stood_mk, stood_eta, apply_ite State.stood, ite_self, foldl_stood, implies_true, slicePut_stood, pipeRetire_stood]; done))

theorem sliceTurn_stood (s : State) (i : Nat) :
    (sliceTurn s i).stood = s.stood := by
  unfold sliceTurn
  first
  | with_reducible rfl
  | ((try dsimp only); repeat' split) <;> (first | (with_reducible rfl) | (simp only [stood_mk, stood_eta, apply_ite State.stood, ite_self, slicePut_stood]; done) | (simp only [stood_mk, stood_eta, apply_ite State.stood, ite_self, foldl_stood, implies_true, slicePut_stood]; done) | (simp_all only [stood_mk, stood_eta, apply_ite State.stood, ite_self, foldl_stood, implies_true, slicePut_stood]; done))

theorem slicesStrobe_stood (next : Nat) (s : State) :
    (slicesStrobe next s).stood = s.stood := by
  unfold slicesStrobe
  (try dsimp only); (repeat' split) <;>
    simp only [stood_mk, stood_eta, apply_ite State.stood, ite_self, foldl_stood, implies_true, sliceTurn_stood, sliceChecks_stood, sliceJudge_stood]

theorem rowRemap_stood (mac row spare : Nat) (s : State) :
    (rowRemap mac row spare s).stood = s.stood := by
  unfold rowRemap
  simp only [stood_mk, stood_eta]

theorem rowQueue_stood (mac row : Nat) (s : State) :
    (rowQueue mac row s).stood = s.stood := by
  unfold rowQueue
  simp only [stood_mk, stood_eta, apply_ite State.stood, ite_self]

theorem keyRowBad_stood (mac row : Nat) (s : State) :
    (keyRowBad mac row s).stood = s.stood := by
  unfold keyRowBad
  first
  | with_reducible rfl
  | ((try dsimp only); repeat' split) <;> (first | (with_reducible rfl) | (simp only [stood_mk, stood_eta, apply_ite State.stood, ite_self, slotPut_stood]; done) | (simp only [stood_mk, stood_eta, apply_ite State.stood, ite_self, foldl_stood, implies_true, slotPut_stood]; done) | (simp_all only [stood_mk, stood_eta, apply_ite State.stood, ite_self, foldl_stood, implies_true, slotPut_stood]; done))

theorem rowBad_stood (mac row : Nat) (s : State) :
    (rowBad mac row s).stood = s.stood := by
  unfold rowBad
  simp only [stood_mk, stood_eta, apply_ite State.stood, ite_self, countUp_stood, keyRowBad_stood]

theorem keyRowUe_stood (mac row : Nat) (s : State) :
    (keyRowUe mac row s).stood = s.stood := by
  unfold keyRowUe
  first
  | with_reducible rfl
  | ((try dsimp only); repeat' split) <;> (first | (with_reducible rfl) | (simp only [stood_mk, stood_eta, apply_ite State.stood, ite_self, rowBad_stood, raise_stood]; done) | (simp only [stood_mk, stood_eta, apply_ite State.stood, ite_self, foldl_stood, implies_true, rowBad_stood, raise_stood]; done) | (simp_all only [stood_mk, stood_eta, apply_ite State.stood, ite_self, foldl_stood, implies_true, rowBad_stood, raise_stood]; done))

theorem rowError_stood (s : State) (e : Nat × Nat × Bool) :
    (rowError s e).stood = s.stood := by
  unfold rowError
  simp only [stood_mk, stood_eta, apply_ite State.stood, ite_self, keyRowUe_stood, rowQueue_stood]

theorem rowErrors_stood (f : Faults) (s : State) :
    (rowErrors f s).stood = s.stood := by
  unfold rowErrors
  (try dsimp only); (repeat' split) <;>
    simp only [stood_mk, stood_eta, apply_ite State.stood, ite_self, foldl_stood, implies_true, rowError_stood]

theorem boundSet_stood (n b : Nat) (s : State) :
    (boundSet n b s).stood = s.stood := by
  unfold boundSet
  (try dsimp only); (repeat' split) <;>
    simp only [stood_mk, stood_eta, apply_ite State.stood, ite_self, foldl_stood, implies_true, ctxPut_stood, regPut_stood]

theorem ctxStart_stood (n : Nat) (e : RkEnt) (s : State) :
    (ctxStart n e s).stood = s.stood := by
  unfold ctxStart
  simp only [stood_mk, stood_eta, rkDequeue_stood, ctxPut_stood, nvPush_stood]

theorem rkFill_stood (k : Nat) (s : State) : (rkFill k s).stood = s.stood := by
  induction k generalizing s with
  | zero => rfl
  | succ k ih =>
    unfold rkFill
    (repeat' split) <;> simp only [ih, ctxStart_stood]

theorem rkSchedule_stood (s : State) :
    (rkSchedule s).stood = s.stood := by
  unfold rkSchedule
  simp only [stood_mk, stood_eta, apply_ite State.stood, ite_self, rkFill_stood]

theorem nextGenCause_stood (kidx : Nat) (s : State) :
    (nextGenCause kidx s).stood = s.stood := by
  unfold nextGenCause
  simp only [stood_mk, stood_eta, apply_ite State.stood, ite_self, slotPut_stood, slotSpent_stood, rkEnqueue_stood]

theorem ckptPush_stood (n st : Nat) (own : Bool) (s : State) :
    (ckptPush n st own s).stood = s.stood := by
  unfold ckptPush
  simp only [stood_mk, stood_eta, nvPush_stood]

theorem ckptSuper_stood (n : Nat) (s : State) :
    (ckptSuper n s).stood = s.stood := by
  unfold ckptSuper
  simp only [stood_mk, stood_eta, apply_ite State.stood, ite_self, ctxPut_stood, ckptPush_stood]

theorem tagOwe_stood (n tl seq : Nat) (s : State) :
    (tagOwe n tl seq s).stood = s.stood := by
  unfold tagOwe
  first
  | with_reducible rfl
  | ((try dsimp only); repeat' split) <;> (first | (with_reducible rfl) | (simp only [stood_mk, stood_eta, apply_ite State.stood, ite_self, ctxPut_stood]; done) | (simp only [stood_mk, stood_eta, apply_ite State.stood, ite_self, foldl_stood, implies_true, ctxPut_stood]; done) | (simp_all only [stood_mk, stood_eta, apply_ite State.stood, ite_self, foldl_stood, implies_true, ctxPut_stood]; done))

theorem tagPaid_stood (tl seq : Nat) (s : State) :
    (tagPaid tl seq s).stood = s.stood := by
  unfold tagPaid
  first
  | with_reducible rfl
  | ((try dsimp only); repeat' split) <;> (first | (with_reducible rfl) | (simp only [stood_mk, stood_eta, apply_ite State.stood, ite_self, ctxPut_stood]; done) | (simp only [stood_mk, stood_eta, apply_ite State.stood, ite_self, foldl_stood, implies_true, ctxPut_stood]; done) | (simp_all only [stood_mk, stood_eta, apply_ite State.stood, ite_self, foldl_stood, implies_true, ctxPut_stood]; done))

theorem rkPoll_stood (s : State) :
    (rkPoll s).stood = s.stood := by
  unfold rkPoll
  (try dsimp only); (repeat' split) <;>
    simp only [stood_mk, stood_eta, apply_ite State.stood, ite_self, foldl_stood, implies_true, nvPush_stood, ctxPut_stood]

theorem fmtRelease_stood (kidx : Nat) (s : State) :
    (fmtRelease kidx s).stood = s.stood := by
  unfold fmtRelease
  simp only [stood_mk, stood_eta]

theorem rekeyDone_stood (n : Nat) (c : Ctx) (s : State) :
    (rekeyDone n c s).stood = s.stood := by
  unfold rekeyDone
  simp only [stood_mk, stood_eta, raise_stood]

theorem doRekeyComplete_stood (n : Nat) (s : State) :
    (doRekeyComplete n s).stood = s.stood := by
  unfold doRekeyComplete
  simp only [stood_mk, stood_eta, apply_ite State.stood, ite_self, rekeyDone_stood, ctxPut_stood, slotPut_stood, rkSchedule_stood, slotSpent_stood]

theorem doFormatComplete_stood (n : Nat) (s : State) :
    (doFormatComplete n s).stood = s.stood := by
  unfold doFormatComplete
  simp only [stood_mk, stood_eta, apply_ite State.stood, ite_self, boundSet_stood, fmtRelease_stood, rkSchedule_stood, rekeyDone_stood, ctxPut_stood]

theorem purgeSlot_stood (kidx : Nat) (s : State) :
    (purgeSlot kidx s).stood = s.stood := by
  unfold purgeSlot
  simp only [stood_mk, stood_eta, slotPut_stood, rowBad_stood]

theorem doPurgeComplete_stood (n : Nat) (s : State) :
    (doPurgeComplete n s).stood = s.stood := by
  unfold doPurgeComplete
  (try dsimp only); (repeat' split) <;>
    simp only [stood_mk, stood_eta, apply_ite State.stood, ite_self, foldl_stood, implies_true, regPut_stood, grantReset_stood, purgeSlot_stood, fmtRelease_stood, rkSchedule_stood, rekeyDone_stood, ctxPut_stood]

theorem aheadAdd_stood (n a : Nat) (s : State) :
    (aheadAdd n a s).stood = s.stood := by
  unfold aheadAdd
  simp only [stood_mk, stood_eta, apply_ite State.stood, ite_self, ctxPut_stood, count1_stood]

theorem takeMove_stood (n : Nat) (s : State) :
    (takeMove n s).stood = s.stood := by
  unfold takeMove
  simp only [stood_mk, stood_eta, apply_ite State.stood, ite_self, ctxPut_stood, boundSet_stood, ckptPush_stood]

theorem takeLine_stood (n : Nat) (s : State) :
    (takeLine n s).stood = s.stood := by
  unfold takeLine
  simp only [stood_mk, stood_eta, apply_ite State.stood, ite_self, takeMove_stood, aheadAdd_stood, ctxPut_stood]

theorem stepEnd_stood (n a : Nat) (s : State) :
    (stepEnd n a s).stood = s.stood := by
  unfold stepEnd
  simp only [stood_mk, stood_eta, ctxPut_stood]

theorem stepMod_stood (n a : Nat) (f : StepLine → StepLine) (s : State) :
    (stepMod n a f s).stood = s.stood := by
  unfold stepMod
  simp only [stood_mk, stood_eta, ctxPut_stood]

theorem stepsDrop_stood (n : Nat) (s : State) :
    (stepsDrop n s).stood = s.stood := by
  unfold stepsDrop
  (try dsimp only); (repeat' split) <;>
    simp only [stood_mk, stood_eta, apply_ite State.stood, ite_self, foldl_stood, implies_true, mediaMod_stood]

theorem ctxSuspend_stood (n : Nat) (s : State) :
    (ctxSuspend n s).stood = s.stood := by
  unfold ctxSuspend
  simp only [stood_mk, stood_eta, apply_ite State.stood, ite_self, stepsDrop_stood, ctxPut_stood, nvPush_stood]

theorem ctxSuspendAbsent_stood (s : State) :
    (ctxSuspendAbsent s).stood = s.stood := by
  unfold ctxSuspendAbsent
  (try dsimp only); (repeat' split) <;>
    simp only [stood_mk, stood_eta, apply_ite State.stood, ite_self, foldl_stood, implies_true, ctxSuspend_stood]

theorem doRekeyPassStart_stood (n : Nat) (s : State) :
    (doRekeyPassStart n s).stood = s.stood := by
  unfold doRekeyPassStart
  (try dsimp only); (repeat' split) <;>
    simp only [stood_mk, stood_eta, apply_ite State.stood, ite_self, foldl_stood, implies_true, slotPut_stood, rkDequeue_stood, ctxPut_stood, regPut_stood, rkPoll_stood, ctxSuspendAbsent_stood, raise_stood]

theorem rekeyResumeEv_stood (n : Nat) (s : State) :
    (rekeyResumeEv n s).stood = s.stood := by
  unfold rekeyResumeEv
  simp only [stood_mk, stood_eta, raise_stood]

theorem ctxContinue_stood (n : Nat) (s : State) :
    (ctxContinue n s).stood = s.stood := by
  unfold ctxContinue
  simp only [stood_mk, stood_eta, apply_ite State.stood, ite_self, rekeyResumeEv_stood, boundSet_stood, ctxPut_stood]

theorem ctxStop_stood (kidx : Nat) (s : State) :
    (ctxStop kidx s).stood = s.stood := by
  unfold ctxStop
  (try dsimp only); (repeat' split) <;> simp only [stood_mk, stood_eta, nvPush_stood, stepsDrop_stood, ctxPut_stood]

theorem nvAct_stood (act : NvAct) (s : State) :
    (nvAct act s).stood = s.stood := by
  unfold nvAct
  (try dsimp only); (repeat' split) <;>
    simp only [stood_mk, stood_eta, apply_ite State.stood, ite_self, foldl_stood, implies_true, slotPut_stood, regPut_stood, rkEnqueue_stood, nvPush_stood, fmtRelease_stood, rkClearQueue_stood, ctxStop_stood, raise_stood]

theorem nvActs_stood (s : State) :
    (nvActs s).stood = s.stood := by
  unfold nvActs
  (try dsimp only); (repeat' split) <;>
    simp only [stood_mk, stood_eta, apply_ite State.stood, ite_self, foldl_stood, implies_true, nvAct_stood]

theorem rekeyStrobe_stood (s : State) :
    (rekeyStrobe s).stood = s.stood := by
  unfold rekeyStrobe
  (try dsimp only); (repeat' split) <;>
    simp only [stood_mk, stood_eta, apply_ite State.stood, ite_self, foldl_stood, implies_true, count1_stood, raise_stood, ctxContinue_stood, ctxPut_stood, ckptSuper_stood, rkPoll_stood, rkSchedule_stood]

theorem wayPut_stood (k : Nat) (x : TagWay) (s : State) :
    (wayPut k x s).stood = s.stood := by
  unfold wayPut
  simp only [stood_mk, stood_eta]

theorem wayUse_stood (k : Nat) (x : TagWay) (s : State) :
    (wayUse k x s).stood = s.stood := by
  unfold wayUse
  first
  | with_reducible rfl
  | ((try dsimp only); repeat' split) <;> (first | (with_reducible rfl) | (simp only [stood_mk, stood_eta, apply_ite State.stood, ite_self, wayPut_stood]; done) | (simp only [stood_mk, stood_eta, apply_ite State.stood, ite_self, foldl_stood, implies_true, wayPut_stood]; done) | (simp_all only [stood_mk, stood_eta, apply_ite State.stood, ite_self, foldl_stood, implies_true, wayPut_stood]; done))

theorem wayDel_stood (k : Nat) (s : State) :
    (wayDel k s).stood = s.stood := by
  unfold wayDel
  simp only [stood_mk, stood_eta]

theorem tagReserve_stood (o : MOwner) (tl : Nat) (s : State) :
    (tagReserve o tl s).stood = s.stood := by
  unfold tagReserve
  simp only [stood_mk, stood_eta]

theorem tagUnreserve_stood (o : MOwner) (s : State) :
    (tagUnreserve o s).stood = s.stood := by
  unfold tagUnreserve
  simp only [stood_mk, stood_eta]

theorem wayAlloc_stood (tl kidx : Nat) (s : State) :
    (wayAlloc tl kidx s).2.stood = s.stood := by
  unfold wayAlloc
  (try dsimp only); (repeat' split) <;> simp only [stood_mk, stood_eta, wayPut_stood]

theorem wayAlloc_stood_of {tl kidx : Nat} {s : State} {pp} (h : wayAlloc tl kidx s = pp) : pp.2.stood = s.stood := h ▸ wayAlloc_stood tl kidx s

theorem wayEvict_stood (tl : Nat) (s : State) :
    (wayEvict tl s).stood = s.stood := by
  unfold wayEvict
  (try dsimp only); (repeat' split) <;> simp only [stood_mk, stood_eta, wayPut_stood]

theorem tagWrite_stood (kidx tl e seq : Nat) (v : BitVec 64) (s : State) :
    (tagWrite kidx tl e seq v s).stood = s.stood := by
  unfold tagWrite
  (try dsimp only); (repeat' split) <;>
    ((try have hk_wayAlloc := wayAlloc_stood_of (by assumption : wayAlloc _ _ _ = _)); simp_all only [stood_mk, stood_eta, apply_ite State.stood, foldl_stood, ite_self, wayUse_stood, wayAlloc_stood])

theorem tagPersisted_stood (seq : Nat) (s : State) :
    (tagPersisted seq s).stood = s.stood := by
  unfold tagPersisted
  simp only [stood_mk, stood_eta]

theorem tagDrop_stood (seq : Nat) (s : State) :
    (tagDrop seq s).stood = s.stood := by
  unfold tagDrop
  simp only [stood_mk, stood_eta]

theorem tlEv_stood (e : Ev) (src tl p3 : Nat) (s : State) :
    (tlEv e src tl p3 s).stood = s.stood := by
  unfold tlEv
  simp only [stood_mk, stood_eta, raise_stood]

theorem tagDropLine_stood (tl : Nat) (s : State) :
    (tagDropLine tl s).stood = s.stood := by
  unfold tagDropLine
  (try dsimp only); (repeat' split) <;> simp only [stood_mk, stood_eta, wayDel_stood]

theorem tagSecded_stood (f : Faults) (tl : Nat) (s : State) :
    (tagSecded f tl s).stood = s.stood := by
  unfold tagSecded
  (try dsimp only); (repeat' split) <;> simp only [stood_mk, stood_eta, count1_stood, tlEv_stood, tagDropLine_stood]

theorem tagHit_stood (tl : Nat) (s : State) :
    (tagHit tl s).stood = s.stood := by
  unfold tagHit
  first
  | with_reducible rfl
  | ((try dsimp only); repeat' split) <;> (first | (with_reducible rfl) | (simp only [stood_mk, stood_eta, apply_ite State.stood, ite_self, wayUse_stood, count1_stood]; done) | (simp only [stood_mk, stood_eta, apply_ite State.stood, ite_self, foldl_stood, implies_true, wayUse_stood, count1_stood]; done) | (simp_all only [stood_mk, stood_eta, apply_ite State.stood, ite_self, foldl_stood, implies_true, wayUse_stood, count1_stood]; done))

theorem tagMerge_stood (kidx tl : Nat) (d : Line) (s : State) :
    (tagMerge kidx tl d s).stood = s.stood := by
  unfold tagMerge
  (try dsimp only); (repeat' split) <;>
    ((try have hk_wayAlloc := wayAlloc_stood_of (by assumption : wayAlloc _ _ _ = _)); simp_all only [stood_mk, stood_eta, apply_ite State.stood, foldl_stood, ite_self, wayUse_stood, wayAlloc_stood])

theorem taglineMedia_stood (tl w : Nat) (s : State) :
    (taglineMedia tl w s).stood = s.stood := by
  unfold taglineMedia
  simp only [stood_mk, stood_eta, tlEv_stood, count1_stood]

theorem fetchAsk_stood (tl kidx : Nat) (owners : List MOwner) (wb : Bool) (s : State) :
    (fetchAsk tl kidx owners wb s).stood = s.stood := by
  unfold fetchAsk
  simp only [stood_mk, stood_eta, apply_ite State.stood, ite_self, taglineMedia_stood, count1_stood]

theorem tagLookup_stood (o : MOwner) (kidx tl e : Nat) (f : Faults) (s : State) :
    (tagLookup o kidx tl e f s).stood = s.stood := by
  unfold tagLookup
  first
  | with_reducible rfl
  | ((try dsimp only); repeat' split) <;> (first | (with_reducible rfl) | (simp only [stood_mk, stood_eta, apply_ite State.stood, ite_self, tagSecded_stood, tagHit_stood, fetchAsk_stood]; done) | (simp only [stood_mk, stood_eta, apply_ite State.stood, ite_self, foldl_stood, implies_true, tagSecded_stood, tagHit_stood, fetchAsk_stood]; done) | (simp_all only [stood_mk, stood_eta, apply_ite State.stood, ite_self, foldl_stood, implies_true, tagSecded_stood, tagHit_stood, fetchAsk_stood]; done))

theorem wbFetches_stood (s : State) :
    (wbFetches s).stood = s.stood := by
  unfold wbFetches
  (try dsimp only); (repeat' split) <;>
    simp only [stood_mk, stood_eta, apply_ite State.stood, ite_self, foldl_stood, implies_true, fetchAsk_stood]

theorem wbIssue_stood (m k : Nat) (x : TagWay) (s : State) :
    (wbIssue m k x s).stood = s.stood := by
  unfold wbIssue
  simp only [stood_mk, stood_eta, wayPut_stood, issueW_stood]

theorem wbPersisted_stood (tl seq : Nat) (s : State) :
    (wbPersisted tl seq s).stood = s.stood := by
  unfold wbPersisted
  (try dsimp only); (repeat' split) <;> simp only [stood_mk, stood_eta, tagPaid_stood, count1_stood, wayPut_stood]

theorem tagFlush_stood (s : State) :
    (tagFlush s).stood = s.stood := by
  unfold tagFlush
  simp only [stood_mk, stood_eta, wbFetches_stood]

theorem tagFailCount_stood (kidx : Nat) (s : State) :
    (tagFailCount kidx s).stood = s.stood := by
  unfold tagFailCount
  simp only [stood_mk, stood_eta, apply_ite State.stood, ite_self, nextGenCause_stood, raise_stood]

theorem tagWindow_stood (s : State) :
    (tagWindow s).stood = s.stood := by
  unfold tagWindow
  simp only [stood_mk, stood_eta, apply_ite State.stood, ite_self]

theorem highWater_stood (kidx : Nat) (g : BitVec 32) (s : State) :
    (highWater kidx g s).stood = s.stood := by
  unfold highWater
  simp only [stood_mk, stood_eta, apply_ite State.stood, ite_self, raise_stood, slotPut_stood, nextGenCause_stood]

theorem counterEnd_stood (kidx a : Nat) (g : BitVec 32) (s : State) :
    (counterEnd kidx a g s).stood = s.stood := by
  unfold counterEnd
  (try dsimp only); (repeat' split) <;> simp only [stood_mk, stood_eta, raise_stood, aheadAdd_stood, slotPut_stood]

theorem nextLctr_stood (kidx a : Nat) (g : BitVec 32) (e : BitVec 64) (s : State) :
    (nextLctr kidx a g e s).2.stood = s.stood := by
  unfold nextLctr
  (try dsimp only); (repeat' split) <;> simp only [stood_mk, stood_eta, jackWrite_stood, highWater_stood, counterEnd_stood]

theorem nextLctr_stood_of {kidx a : Nat} {g : BitVec 32} {e : BitVec 64} {s : State} {pp} (h : nextLctr kidx a g e s = pp) : pp.2.stood = s.stood := h ▸ nextLctr_stood kidx a g e s

theorem spentNote_stood (kidx a : Nat) (s : State) :
    (spentNote kidx a s).stood = s.stood := by
  unfold spentNote
  simp only [stood_mk, stood_eta, sumUp_stood, count1_stood]

theorem voteHold_stood (h : Hold) (mis : Nat × List Nat × List Block) (s : State) :
    (voteHold h mis s).stood = s.stood := by
  unfold voteHold
  first
  | with_reducible rfl
  | ((try dsimp only); repeat' split) <;> (first | (with_reducible rfl) | (simp only [stood_mk, stood_eta, apply_ite State.stood, ite_self]; done) | (simp only [stood_mk, stood_eta, apply_ite State.stood, ite_self, foldl_stood, implies_true]; done) | (simp_all only [stood_mk, stood_eta, apply_ite State.stood, ite_self, foldl_stood, implies_true]; done))

theorem aheadIssued_stood (kidx a : Nat) (g : BitVec 32) (s : State) :
    (aheadIssued kidx a g s).stood = s.stood := by
  unfold aheadIssued
  (try dsimp only); (repeat' split) <;> simp only [stood_mk, stood_eta, ctxPut_stood]

theorem txnConsume_stood (t : Txn) (s : State) :
    (txnConsume t s).stood = s.stood := by
  unfold txnConsume
  first
  | with_reducible rfl
  | ((try dsimp only); repeat' split) <;> (first | (with_reducible rfl) | (simp only [stood_mk, stood_eta, apply_ite State.stood, ite_self, txnPut_stood, creditRelease_stood]; done) | (simp only [stood_mk, stood_eta, apply_ite State.stood, ite_self, foldl_stood, implies_true, txnPut_stood, creditRelease_stood]; done) | (simp_all only [stood_mk, stood_eta, apply_ite State.stood, ite_self, foldl_stood, implies_true, txnPut_stood, creditRelease_stood]; done))

theorem ownerIssued_stood (o : MOwner) (g : BitVec 32) (c : BitVec 24) (s : State) :
    (ownerIssued o g c s).stood = s.stood := by
  unfold ownerIssued
  (try dsimp only); (repeat' split) <;> simp only [stood_mk, stood_eta, txnConsume_stood, stepMod_stood]

theorem stepWritten_stood (o : MOwner) (s : State) :
    (stepWritten o s).stood = s.stood := by
  unfold stepWritten
  first
  | with_reducible rfl
  | ((try dsimp only); repeat' split) <;> (first | (with_reducible rfl) | (simp only [stood_mk, stood_eta, apply_ite State.stood, ite_self, count1_stood]; done) | (simp only [stood_mk, stood_eta, apply_ite State.stood, ite_self, foldl_stood, implies_true, count1_stood]; done) | (simp_all only [stood_mk, stood_eta, apply_ite State.stood, ite_self, foldl_stood, implies_true, count1_stood]; done))

theorem ownerOwes_stood (o : MOwner) (tl seq : Nat) (s : State) :
    (ownerOwes o tl seq s).stood = s.stood := by
  unfold ownerOwes
  first
  | with_reducible rfl
  | ((try dsimp only); repeat' split) <;> (first | (with_reducible rfl) | (simp only [stood_mk, stood_eta, apply_ite State.stood, ite_self, tagOwe_stood]; done) | (simp only [stood_mk, stood_eta, apply_ite State.stood, ite_self, foldl_stood, implies_true, tagOwe_stood]; done) | (simp_all only [stood_mk, stood_eta, apply_ite State.stood, ite_self, foldl_stood, implies_true, tagOwe_stood]; done))

theorem writeIssue_stood (w : WriteReq) (ks : List Block) (f : Faults) (s : State) :
    (writeIssue w ks f s).stood = s.stood := by
  unfold writeIssue
  (try dsimp only); (repeat' split) <;> simp only [stood_mk, stood_eta, ownerOwes_stood, tagWrite_stood, tagSecded_stood, wbFetches_stood, issueW_stood, ownerIssued_stood, stepWritten_stood, tagUnreserve_stood, aheadIssued_stood]

theorem ownerHeld_stood (o : MOwner) (s : State) :
    (ownerHeld o s).stood = s.stood := by
  unfold ownerHeld
  (try dsimp only); (repeat' split) <;> simp only [stood_mk, stood_eta, txnPut_stood, voteHold_stood]

theorem writeSlice_stood (w : WriteReq) (k : GenKeys) (f : Faults) (s : State) :
    (writeSlice w k f s).stood = s.stood := by
  unfold writeSlice
  (try dsimp only); (repeat' split) <;> simp only [stood_mk, stood_eta, writeIssue_stood, tagReserve_stood, tagUnreserve_stood, ownerHeld_stood, voteHold_stood]

theorem txnFinish_stood (t : Txn) (status : Nat) (s : State) :
    (txnFinish t status s).stood = s.stood := by
  unfold txnFinish
  simp only [stood_mk, stood_eta, completeBare_stood, tagUnreserve_stood, txnDel_stood]

theorem writeGo_stood (t : Txn) (e : BitVec 64) (f : Faults) (s : State) :
    (writeGo t e f s).stood = s.stood := by
  unfold writeGo
  (try dsimp only); (repeat' split) <;>
    ((try have hk_nextLctr := nextLctr_stood_of (by assumption : nextLctr _ _ _ _ _ = _)); simp_all only [stood_mk, stood_eta, apply_ite State.stood, foldl_stood, ite_self, txnFinish_stood, nextLctr_stood, spentNote_stood, writeSlice_stood])

theorem entryFromSide_stood (kidx a : Nat) (sc : Side) (s : State) :
    (entryFromSide kidx a sc s).2.stood = s.stood := by
  unfold entryFromSide
  (try dsimp only); (repeat' split) <;> simp only [stood_mk, stood_eta, jackFill_stood]

theorem entryFromSide_stood_of {kidx a : Nat} {sc : Side} {s : State} {pp} (h : entryFromSide kidx a sc s = pp) : pp.2.stood = s.stood := h ▸ entryFromSide_stood kidx a sc s

theorem entryResolve_stood (kidx a : Nat) (sc : Side) (pe : Bool) (s : State) :
    (entryResolve kidx a sc pe s).2.stood = s.stood := by
  unfold entryResolve
  first
  | with_reducible rfl
  | ((try dsimp only); repeat' split) <;> (first | (with_reducible rfl) | (simp only [stood_mk, stood_eta, apply_ite State.stood, ite_self, jackLookup_stood, count1_stood, entryFromSide_stood]; done) | ((try have hk_jackLookup := jackLookup_stood_of (by assumption : jackLookup _ _ _ _ = _)); (try have hk_entryFromSide := entryFromSide_stood_of (by assumption : entryFromSide _ _ _ _ = _)); simp_all only [stood_mk, stood_eta, apply_ite State.stood, foldl_stood, ite_self, jackLookup_stood, count1_stood, entryFromSide_stood]; done) | (simp only [stood_mk, stood_eta, apply_ite State.stood, ite_self, foldl_stood, implies_true, jackLookup_stood, count1_stood, entryFromSide_stood]; done) | (simp_all only [stood_mk, stood_eta, apply_ite State.stood, ite_self, foldl_stood, implies_true, jackLookup_stood, count1_stood, entryFromSide_stood]; done))

theorem entryResolve_stood_of {kidx a : Nat} {sc : Side} {pe : Bool} {s : State} {pp} (h : entryResolve kidx a sc pe s = pp) : pp.2.stood = s.stood := h ▸ entryResolve_stood kidx a sc pe s

theorem writeResolve_stood (t : Txn) (f : Faults) (s : State) :
    (writeResolve t f s).stood = s.stood := by
  unfold writeResolve
  (try dsimp only); (repeat' split) <;>
    ((try have hk_jackLookup := jackLookup_stood_of (by assumption : jackLookup _ _ _ _ = _)); simp_all only [stood_mk, stood_eta, apply_ite State.stood, foldl_stood, ite_self, jackLookup_stood, writeGo_stood, count1_stood, txnPut_stood, lookAhead_stood, probeAdd_stood, tagReserve_stood])

theorem readReply_stood (t : Txn) (status : Nat) (data : Option Line) (psn : Bool) (extra : Side) (s : State) :
    (readReply t status data psn extra s).stood = s.stood := by
  unfold readReply
  simp only [stood_mk, stood_eta, complete_stood, txnDel_stood]

theorem partialRefuse_stood (t : Txn) (status : Nat) (s : State) :
    (partialRefuse t status s).stood = s.stood := by
  unfold partialRefuse
  simp only [stood_mk, stood_eta, txnFinish_stood, count1_stood]

theorem partialMerge_stood (t : Txn) (old : Line) (oldPsn : Bool) (line : BitVec 576) (s : State) :
    (partialMerge t old oldPsn line s).stood = s.stood := by
  unfold partialMerge
  (try dsimp only); (repeat' split) <;> simp only [stood_mk, stood_eta, txnConsume_stood]

theorem stepCount_stood (n sub : Nat) (s : State) :
    (stepCount n sub s).stood = s.stood := by
  unfold stepCount
  simp only [stood_mk, stood_eta, count1_stood]

theorem lineFault_stood (n a status row : Nat) (s : State) :
    (lineFault n a status row s).stood = s.stood := by
  unfold lineFault
  first
  | with_reducible rfl
  | ((try dsimp only); repeat' split) <;> (first | (with_reducible rfl) | (simp only [stood_mk, stood_eta, apply_ite State.stood, ite_self, raise_stood, stepCount_stood]; done) | (simp only [stood_mk, stood_eta, apply_ite State.stood, ite_self, foldl_stood, implies_true, raise_stood, stepCount_stood]; done) | (simp_all only [stood_mk, stood_eta, apply_ite State.stood, ite_self, foldl_stood, implies_true, raise_stood, stepCount_stood]; done))

theorem stepSkip_stood (n a : Nat) (s : State) :
    (stepSkip n a s).stood = s.stood := by
  unfold stepSkip
  simp only [stood_mk, stood_eta, rkPoll_stood, stepEnd_stood, stepCount_stood]

theorem stepFail_stood (n a status row : Nat) (s : State) :
    (stepFail n a status row s).stood = s.stood := by
  unfold stepFail
  simp only [stood_mk, stood_eta, rkPoll_stood, stepEnd_stood, lineFault_stood]

theorem stepsLost_stood (m : Nat) (s : State) :
    (stepsLost m s).stood = s.stood := by
  unfold stepsLost
  (try dsimp only); (repeat' split) <;>
    simp only [stood_mk, stood_eta, apply_ite State.stood, ite_self, foldl_stood, implies_true, stepFail_stood]

theorem stepWrite_stood (n a : Nat) (pt : Line) (psn : Bool) (sc : Side) (s : State) :
    (stepWrite n a pt psn sc s).stood = s.stood := by
  unfold stepWrite
  simp only [stood_mk, stood_eta, stepMod_stood]

theorem deliver_stood (o : MOwner) (row status : Nat) (pt : Line) (line : BitVec 576) (s : State) :
    (deliver o row status pt line s).stood = s.stood := by
  unfold deliver
  (try dsimp only); (repeat' split) <;> simp only [stood_mk, stood_eta, partialMerge_stood, partialRefuse_stood, readReply_stood, stepWrite_stood, lineFault_stood]

theorem deliverNone_stood (o : MOwner) (row status : Nat) (s : State) :
    (deliverNone o row status s).stood = s.stood := by
  unfold deliverNone
  (try dsimp only); (repeat' split) <;> simp only [stood_mk, stood_eta, partialRefuse_stood, readReply_stood, stepSkip_stood, stepFail_stood]

theorem tagFailNote_stood (kidx a sl : Nat) (torn total : Bool) (cecho : Nat) (s : State) :
    (tagFailNote kidx a sl torn total cecho s).stood = s.stood := by
  unfold tagFailNote
  simp only [stood_mk, stood_eta, apply_ite State.stood, ite_self, count1_stood, raise_stood]

theorem virginNote_stood (sl : Nat) (sc : Side) (s : State) :
    (virginNote sl sc s).stood = s.stood := by
  unfold virginNote
  first
  | with_reducible rfl
  | ((try dsimp only); repeat' split) <;> (first | (with_reducible rfl) | (simp only [stood_mk, stood_eta, apply_ite State.stood, ite_self, count1_stood]; done) | (simp only [stood_mk, stood_eta, apply_ite State.stood, ite_self, foldl_stood, implies_true, count1_stood]; done) | (simp_all only [stood_mk, stood_eta, apply_ite State.stood, ite_self, foldl_stood, implies_true, count1_stood]; done))

theorem deliverVirgin_stood (o : MOwner) (kidx a m : Nat) (line : BitVec 576) (s : State) :
    (deliverVirgin o kidx a m line s).stood = s.stood := by
  unfold deliverVirgin
  (try dsimp only); (repeat' split) <;> simp only [stood_mk, stood_eta, virginNote_stood, stepSkip_stood, tagFailNote_stood, partialRefuse_stood, readReply_stood, partialMerge_stood]

theorem deliverGood_stood (o : MOwner) (line : BitVec 576) (ks : List Block) (s : State) :
    (deliverGood o line ks s).stood = s.stood := by
  unfold deliverGood
  simp only [stood_mk, stood_eta, apply_ite State.stood, ite_self, deliver_stood]

theorem ownerSt_stood (o : MOwner) (st : TxSt) (s : State) :
    (ownerSt o st s).stood = s.stood := by
  unfold ownerSt
  (try dsimp only); (repeat' split) <;> simp only [stood_mk, stood_eta, txnPut_stood]

theorem readVerify_stood (h : Hold) (d : Line) (s : State) :
    (readVerify h d s).stood = s.stood := by
  unfold readVerify
  (try dsimp only); (repeat' split) <;> simp only [stood_mk, stood_eta, tagFailNote_stood, tagFailCount_stood, deliver_stood, deliverGood_stood, ownerSt_stood]

theorem tagFetchLost_stood (h : Hold) (s : State) :
    (tagFetchLost h s).stood = s.stood := by
  unfold tagFetchLost
  (try dsimp only); (repeat' split) <;> simp only [stood_mk, stood_eta, stepWrite_stood, lineFault_stood, deliverNone_stood]

theorem readTagged_stood (h : Hold) (s : State) :
    (readTagged h s).stood = s.stood := by
  unfold readTagged
  (try dsimp only); (repeat' split) <;> simp only [stood_mk, stood_eta, readVerify_stood, tagFetchLost_stood, taglineMedia_stood, ownerSt_stood, fetchAsk_stood]

theorem readDecrypt_stood (o : MOwner) (kidx a m : Nat) (g : BitVec 32) (k : GenKeys) (line : BitVec 576) (f : Faults) (s : State) :
    (readDecrypt o kidx a m g k line f s).stood = s.stood := by
  unfold readDecrypt
  (try dsimp only); (repeat' split) <;> simp only [stood_mk, stood_eta, readTagged_stood, ownerSt_stood, voteHold_stood]

theorem readJack_stood (t : Txn) (line : BitVec 576) (row : EarlyRow) (s : State) :
    (readJack t line row s).stood = s.stood := by
  unfold readJack
  (try dsimp only); (repeat' split) <;> simp only [stood_mk, stood_eta, count1_stood, jackFill_stood]

theorem purgeDecide_stood (n kidx a : Nat) (line : BitVec 576) (s : State) :
    (purgeDecide n kidx a line s).stood = s.stood := by
  unfold purgeDecide
  simp only [stood_mk, stood_eta, apply_ite State.stood, ite_self, stepSkip_stood, stepWrite_stood]

theorem formatDecide_stood (n kidx a : Nat) (line : BitVec 576) (s : State) :
    (formatDecide n kidx a line s).stood = s.stood := by
  unfold formatDecide
  simp only [stood_mk, stood_eta, apply_ite State.stood, ite_self, stepSkip_stood, stepWrite_stood]

theorem lineChecks_stood (o : MOwner) (kidx a m : Nat) (line : BitVec 576) (f : Faults) (s : State) :
    (lineChecks o kidx a m line f s).stood = s.stood := by
  unfold lineChecks
  (try dsimp only); (repeat' split) <;> simp only [stood_mk, stood_eta, count1_stood, deliverVirgin_stood, deliverNone_stood, stepMod_stood, readDecrypt_stood]

theorem lineTake_stood (o : MOwner) (m : Nat) (line : BitVec 576) (f : Faults) (s : State) :
    (lineTake o m line f s).stood = s.stood := by
  unfold lineTake
  (try dsimp only); (repeat' split) <;> simp only [stood_mk, stood_eta, readReply_stood, lineChecks_stood, readJack_stood, jackCompare_stood, formatDecide_stood, virginNote_stood, purgeDecide_stood]

theorem lostForget_stood (o : MOwner) (s : State) :
    (lostForget o s).stood = s.stood := by
  unfold lostForget
  simp only [stood_mk, stood_eta, apply_ite State.stood, ite_self]

theorem lineArrived_stood (o : MOwner) (m : Nat) (line : BitVec 576) (f : Faults) (s : State) :
    (lineArrived o m line f s).stood = s.stood := by
  unfold lineArrived
  simp only [stood_mk, stood_eta, apply_ite State.stood, ite_self, lostForget_stood, deliverNone_stood, lineTake_stood]

theorem lineLost_stood (o : MOwner) (s : State) :
    (lineLost o s).stood = s.stood := by
  unfold lineLost
  (try dsimp only); (repeat' split) <;> simp only [stood_mk, stood_eta, lostForget_stood, deliverNone_stood]

theorem holdDel_stood (h : Hold) (s : State) :
    (holdDel h s).stood = s.stood := by
  unfold holdDel
  simp only [stood_mk, stood_eta]

theorem schkFault_stood (h : Hold) (persistent : Bool) (s : State) :
    (schkFault h persistent s).stood = s.stood := by
  unfold schkFault
  simp only [stood_mk, stood_eta, apply_ite State.stood, ite_self, count1_stood, regPut_stood, raiseSev_stood, prioDirection_stood]

theorem doSchkRecompute_stood (sl : Nat) (f : Faults) (s : State) :
    (doSchkRecompute sl f s).stood = s.stood := by
  unfold doSchkRecompute
  (try dsimp only); (repeat' split) <;> simp only [stood_mk, stood_eta, holdDel_stood, deliverGood_stood, schkFault_stood, deliver_stood]

theorem purgePut_stood (m n a : Nat) (pay : Line) (c : Option (BitVec 32 × BitVec 24)) (s : State) :
    (purgePut m n a pay c s).stood = s.stood := by
  unfold purgePut
  first
  | with_reducible rfl
  | ((try dsimp only); repeat' split) <;> (first | (with_reducible rfl) | (simp only [stood_mk, stood_eta, apply_ite State.stood, ite_self, issueW_stood, stepMod_stood, stepWritten_stood]; done) | (simp only [stood_mk, stood_eta, apply_ite State.stood, ite_self, foldl_stood, implies_true, issueW_stood, stepMod_stood, stepWritten_stood]; done) | (simp_all only [stood_mk, stood_eta, apply_ite State.stood, ite_self, foldl_stood, implies_true, issueW_stood, stepMod_stood, stepWritten_stood]; done))

theorem voteContinue_stood (h : Hold) (ks : List Block) (f : Faults) (s : State) :
    (voteContinue h ks f s).stood = s.stood := by
  unfold voteContinue
  (try dsimp only); (repeat' split) <;> simp only [stood_mk, stood_eta, purgePut_stood, writeIssue_stood, readTagged_stood]

theorem voteAbandon_stood (h : Hold) (s : State) :
    (voteAbandon h s).stood = s.stood := by
  unfold voteAbandon
  (try dsimp only); (repeat' split) <;> simp only [stood_mk, stood_eta, count1_stood, slicePut_stood, txnFinish_stood, deliverNone_stood, stepFail_stood]

theorem voteRelease_stood (h : Hold) (chk : Bool) (s : State) :
    (voteRelease h chk s).stood = s.stood := by
  unfold voteRelease
  first
  | with_reducible rfl
  | ((try dsimp only); repeat' split) <;> (first | (with_reducible rfl) | (simp only [stood_mk, stood_eta, apply_ite State.stood, ite_self, voteContinue_stood, holdDel_stood]; done) | (simp only [stood_mk, stood_eta, apply_ite State.stood, ite_self, foldl_stood, implies_true, voteContinue_stood, holdDel_stood]; done) | (simp_all only [stood_mk, stood_eta, apply_ite State.stood, ite_self, foldl_stood, implies_true, voteContinue_stood, holdDel_stood]; done))

theorem doVote_stood (sl : Nat) (dir : Dir) (f : Faults) (s : State) :
    (doVote sl dir f s).stood = s.stood := by
  unfold doVote
  (try dsimp only); (repeat' split) <;> simp only [stood_mk, stood_eta, voteCharge_stood, holdDel_stood, voteContinue_stood, voteAbandon_stood, voteRelease_stood]

theorem standFor_stood (sl : Nat) (s : State) :
    (standFor sl s).stood = s.stood := by
  unfold standFor
  first
  | with_reducible rfl
  | ((try dsimp only); repeat' split) <;> (first | (with_reducible rfl) | (simp only [stood_mk, stood_eta, apply_ite State.stood, ite_self, slicePut_stood]; done) | (simp only [stood_mk, stood_eta, apply_ite State.stood, ite_self, foldl_stood, implies_true, slicePut_stood]; done) | (simp_all only [stood_mk, stood_eta, apply_ite State.stood, ite_self, foldl_stood, implies_true, slicePut_stood]; done))

theorem selfTest_stood (sl : Nat) (f : Faults) (s : State) :
    (selfTest sl f s).stood = s.stood := by
  unfold selfTest
  (try dsimp only); (repeat' split) <;>
    simp only [stood_mk, stood_eta, apply_ite State.stood, ite_self, foldl_stood, implies_true, standFor_stood, pipeCharge_stood]

theorem tagMakeRoom_stood (s : State) :
    (tagMakeRoom s).stood = s.stood := by
  unfold tagMakeRoom
  (try dsimp only); (repeat' split) <;>
    simp only [stood_mk, stood_eta, apply_ite State.stood, ite_self, foldl_stood, implies_true, wbFetches_stood, wayEvict_stood]

theorem slotUse_stood (m : Nat) (d : Dir) (c : Cls) (line : Nat) (s : State) :
    (slotUse m d c line s).stood = s.stood := by
  unfold slotUse
  simp only [stood_mk, stood_eta, mediaMod_stood]

theorem commitHoldNote_stood (i : Item) (step : Nat) (s : State) :
    (commitHoldNote i step s).stood = s.stood := by
  unfold commitHoldNote
  simp only [stood_mk, stood_eta, raise_stood, count1_stood]

theorem itemDel_stood (i : Item) (s : State) :
    (itemDel i s).stood = s.stood := by
  unfold itemDel
  simp only [stood_mk, stood_eta, stickyTrim_stood]

theorem sumUpN_stood (e : Ev) (src a b c n : Nat) (s : State) : (sumUpN e src a b c n s).stood = s.stood := by
  unfold sumUpN
  induction n with
  | zero => rfl
  | succ n ih => simp only [Nat.repeat, sumUp_stood, ih]

theorem wordsNote_stood (src q kind n : Nat) (s : State) :
    (wordsNote src q kind n s).stood = s.stood := by
  unfold wordsNote
  first
  | with_reducible rfl
  | ((try dsimp only); repeat' split) <;> (first | (with_reducible rfl) | (simp only [stood_mk, stood_eta, apply_ite State.stood, ite_self, sumUpN_stood, countUp_stood]; done) | (simp only [stood_mk, stood_eta, apply_ite State.stood, ite_self, foldl_stood, implies_true, sumUpN_stood, countUp_stood]; done) | (simp_all only [stood_mk, stood_eta, apply_ite State.stood, ite_self, foldl_stood, implies_true, sumUpN_stood, countUp_stood]; done))

theorem wordFaults_stood (i : Item) (f : Faults) (s : State) :
    (wordFaults i f s).stood = s.stood := by
  unfold wordFaults
  simp only [stood_mk, stood_eta, apply_ite State.stood, ite_self, wordsNote_stood]

theorem keyFaults_stood (kidx : Nat) (f : Faults) (s : State) :
    (keyFaults kidx f s).stood = s.stood := by
  unfold keyFaults
  simp only [stood_mk, stood_eta, apply_ite State.stood, ite_self, count1_stood, ctxSuspendAbsent_stood, raise_stood, slotZeroize_stood]

theorem hdrLost_stood (i : Item) (mask : List Nat) (s : State) :
    (hdrLost i mask s).stood = s.stood := by
  unfold hdrLost
  (try dsimp only); (repeat' split) <;>
    simp only [stood_mk, stood_eta, apply_ite State.stood, ite_self, foldl_stood, implies_true, raise_stood, count1_stood, linkDown_stood, completeBare_stood]

theorem grantRead_stood (i : Item) (f : Faults) (s : State) :
    (grantRead i f s).2.stood = s.stood := by
  unfold grantRead
  (try dsimp only); (repeat' split) <;> simp only [stood_mk, stood_eta, queueReset_stood, wordsNote_stood, itemDel_stood, completeBare_stood, count1_stood, hdrLost_stood]

theorem grantRead_stood_of {i : Item} {f : Faults} {s : State} {pp} (h : grantRead i f s = pp) : pp.2.stood = s.stood := h ▸ grantRead_stood i f s

theorem grantRefuse_stood (i : Item) (step st : Nat) (s : State) :
    (grantRefuse i step st s).stood = s.stood := by
  unfold grantRefuse
  simp only [stood_mk, stood_eta, apply_ite State.stood, ite_self, completeBare_stood, commitHoldNote_stood]

theorem txnOpen_stood (i : Item) (st : TxSt) (s : State) :
    (txnOpen i st s).2.stood = s.stood := by
  unfold txnOpen
  (try dsimp only); (repeat' split) <;> simp only [stood_mk, stood_eta, txnAdd_stood]

theorem txnOpen_stood_of {i : Item} {st : TxSt} {s : State} {pp} (h : txnOpen i st s = pp) : pp.2.stood = s.stood := h ▸ txnOpen_stood i st s

theorem grantItemThen_stood (m : Nat) (d : Dir) (c : Cls) (i : Item) (f : Faults) (go : Item → State → State) (s : State)
    (hgo : ∀ i s, (go i s).stood = s.stood) : (grantItemThen m d c i f go s).stood = s.stood := by
  unfold grantItemThen
  dsimp only
  split
  · rename_i heq; have hk := grantRead_stood_of heq; simp only [rowErrors_stood, slotUse_stood] at hk; exact hk
  · rename_i heq
    have hk := grantRead_stood_of heq
    simp only [rowErrors_stood, slotUse_stood] at hk
    split <;> simp only [hgo, grantRefuse_stood, keyFaults_stood, hk]

theorem readGrant_stood (m : Nat) (f : Faults) (i : Item) (s : State) : (readGrant m f i s).stood = s.stood := by
  unfold readGrant
  split
  rename_i t s1 heq
  have hk : s1.stood = s.stood := txnOpen_stood_of heq
  dsimp only
  rw [issueR_stood]
  split
  · split <;> (rename_i hj; have hk2 := jackLookup_stood_of hj; simp only [txnPut_stood] at hk2) <;>
      simp only [txnPut_stood, count1_stood, lookAhead_stood, hk2] <;> split <;> simp only [tagLookup_stood, hk]
  · exact hk

theorem doFgReadGrant_stood (m : Nat) (f : Faults) (s : State) :
    (doFgReadGrant m f s).stood = s.stood := by
  unfold doFgReadGrant
  (try dsimp only); (repeat' split) <;>
    simp only [stood_mk, stood_eta, apply_ite State.stood, ite_self, foldl_stood, implies_true, grantItemThen_stood, readGrant_stood]

theorem rawPoisonNote_stood (i : Item) (s : State) :
    (rawPoisonNote i s).stood = s.stood := by
  unfold rawPoisonNote
  simp only [stood_mk, stood_eta, raise_stood, count1_stood]

theorem rawAhead_stood (i : Item) (sc : Side) (s : State) :
    (rawAhead i sc s).stood = s.stood := by
  unfold rawAhead
  (try dsimp only); (repeat' split) <;> simp only [stood_mk, stood_eta, raise_stood, aheadAdd_stood]

theorem rawWriteGrant_stood (m : Nat) (f : Faults) (i : Item) (s : State) :
    (rawWriteGrant m f i s).stood = s.stood := by
  unfold rawWriteGrant
  simp only [stood_mk, stood_eta, apply_ite State.stood, ite_self, txnOpen_stood, wordFaults_stood, rawPoisonNote_stood, txnConsume_stood, rawAhead_stood, probeVoid_stood, jackInvalidate_stood, issueW_stood]

theorem fullWriteGrant_stood (f : Faults) (i : Item) (s : State) :
    (fullWriteGrant f i s).stood = s.stood := by
  unfold fullWriteGrant
  simp only [stood_mk, stood_eta, apply_ite State.stood, ite_self, wordFaults_stood, completeBare_stood, txnOpen_stood, writeResolve_stood, txnPut_stood]

theorem maskRepair_stood (m : Nat) (f : Faults) (i : Item) (s : State) :
    (maskRepair m f i s).stood = s.stood := by
  unfold maskRepair
  first
  | with_reducible rfl
  | ((try dsimp only); repeat' split) <;> (first | (with_reducible rfl) | (simp only [stood_mk, stood_eta, apply_ite State.stood, ite_self, wordFaults_stood, rowErrors_stood, slotUse_stood]; done) | (simp only [stood_mk, stood_eta, apply_ite State.stood, ite_self, foldl_stood, implies_true, wordFaults_stood, rowErrors_stood, slotUse_stood]; done) | (simp_all only [stood_mk, stood_eta, apply_ite State.stood, ite_self, foldl_stood, implies_true, wordFaults_stood, rowErrors_stood, slotUse_stood]; done))

theorem doFgWriteGrant_stood (m : Nat) (f : Faults) (s : State) :
    (doFgWriteGrant m f s).stood = s.stood := by
  unfold doFgWriteGrant
  (try dsimp only); (repeat' split) <;>
    simp only [stood_mk, stood_eta, apply_ite State.stood, ite_self, foldl_stood, implies_true, jackLookup_stood, maskRepair_stood, grantItemThen_stood, rawWriteGrant_stood, fullWriteGrant_stood]

theorem partialReadStart_stood (m : Nat) (f : Faults) (i : Item) (s : State) :
    (partialReadStart m f i s).stood = s.stood := by
  unfold partialReadStart
  (try dsimp only); (repeat' split) <;> simp only [stood_mk, stood_eta, wordFaults_stood, txnOpen_stood, txnPut_stood, tagReserve_stood, tagLookup_stood, issueR_stood]

theorem doPartialReadGrant_stood (m : Nat) (f : Faults) (s : State) :
    (doPartialReadGrant m f s).stood = s.stood := by
  unfold doPartialReadGrant
  (try dsimp only); (repeat' split) <;>
    simp only [stood_mk, stood_eta, apply_ite State.stood, ite_self, foldl_stood, implies_true, grantItemThen_stood, partialReadStart_stood]

theorem doPartialWriteGrant_stood (m : Nat) (f : Faults) (s : State) :
    (doPartialWriteGrant m f s).stood = s.stood := by
  unfold doPartialWriteGrant
  (try dsimp only); (repeat' split) <;> simp only [stood_mk, stood_eta, rowErrors_stood, slotUse_stood, keyFaults_stood, txnFinish_stood, entryResolve_stood, txnPut_stood, writeGo_stood]

theorem rawTagReply_stood (t : Txn) (d : Line) (s : State) :
    (rawTagReply t d s).stood = s.stood := by
  unfold rawTagReply
  simp only [stood_mk, stood_eta, readReply_stood]

theorem rawTagRead_stood (m : Nat) (f : Faults) (i : Item) (s : State) :
    (rawTagRead m f i s).stood = s.stood := by
  unfold rawTagRead
  (try dsimp only); (repeat' split) <;> simp only [stood_mk, stood_eta, txnOpen_stood, tagSecded_stood, rawTagReply_stood, fetchAsk_stood, issueR_stood]

theorem fetchIssue_stood (m : Nat) (f : TagFetch) (s : State) :
    (fetchIssue m f s).stood = s.stood := by
  unfold fetchIssue
  first
  | with_reducible rfl
  | ((try dsimp only); repeat' split) <;> (first | (with_reducible rfl) | (simp only [stood_mk, stood_eta, apply_ite State.stood, ite_self, slotUse_stood, issueR_stood]; done) | (simp only [stood_mk, stood_eta, apply_ite State.stood, ite_self, foldl_stood, implies_true, slotUse_stood, issueR_stood]; done) | (simp_all only [stood_mk, stood_eta, apply_ite State.stood, ite_self, foldl_stood, implies_true, slotUse_stood, issueR_stood]; done))

theorem doTaglineFetch_stood (m : Nat) (ft : Faults) (s : State) :
    (doTaglineFetch m ft s).stood = s.stood := by
  unfold doTaglineFetch
  (try dsimp only); (repeat' split) <;>
    simp only [stood_mk, stood_eta, apply_ite State.stood, ite_self, foldl_stood, implies_true, fetchIssue_stood, grantItemThen_stood, rawTagRead_stood]

theorem rawTagWrite_stood (m : Nat) (f : Faults) (i : Item) (s : State) :
    (rawTagWrite m f i s).stood = s.stood := by
  unfold rawTagWrite
  simp only [stood_mk, stood_eta, apply_ite State.stood, ite_self, txnOpen_stood, wordFaults_stood, rawPoisonNote_stood, issueW_stood, tagDropLine_stood, txnConsume_stood]

theorem wbSlot_stood (m k : Nat) (x : TagWay) (f : Faults) (s : State) :
    (wbSlot m k x f s).stood = s.stood := by
  unfold wbSlot
  simp only [stood_mk, stood_eta, apply_ite State.stood, ite_self, tagSecded_stood, rowErrors_stood, slotUse_stood, wbIssue_stood]

theorem doTagWriteback_stood (m : Nat) (f : Faults) (s : State) :
    (doTagWriteback m f s).stood = s.stood := by
  unfold doTagWriteback
  (try dsimp only); (repeat' split) <;>
    simp only [stood_mk, stood_eta, apply_ite State.stood, ite_self, foldl_stood, implies_true, wbSlot_stood, grantItemThen_stood, rawTagWrite_stood]

theorem doSidecarProbe_stood (m : Nat) (s : State) :
    (doSidecarProbe m s).stood = s.stood := by
  unfold doSidecarProbe
  simp only [stood_mk, stood_eta, apply_ite State.stood, ite_self, probeIssue_stood, slotUse_stood]

theorem doLookaheadProbe_stood (m : Nat) (s : State) :
    (doLookaheadProbe m s).stood = s.stood := by
  unfold doLookaheadProbe
  simp only [stood_mk, stood_eta, apply_ite State.stood, ite_self, probeIssue_stood, slotUse_stood]

theorem doPrefillProbe_stood (m : Nat) (s : State) :
    (doPrefillProbe m s).stood = s.stood := by
  unfold doPrefillProbe
  (try dsimp only); (repeat' split) <;> simp only [stood_mk, stood_eta, probesPut_stood, probeIssue_stood, slotUse_stood]

theorem doRekeyTake_stood (n : Nat) (s : State) :
    (doRekeyTake n s).stood = s.stood := by
  unfold doRekeyTake
  simp only [stood_mk, stood_eta, apply_ite State.stood, ite_self, takeLine_stood, rkPoll_stood, stepsLost_stood]

theorem rrSet_stood (m : Nat) (d : Dir) (n : Nat) (s : State) :
    (rrSet m d n s).stood = s.stood := by
  unfold rrSet
  simp only [stood_mk, stood_eta]

theorem stepTagAsk_stood (n a : Nat) (f : Faults) (s : State) :
    (stepTagAsk n a f s).stood = s.stood := by
  unfold stepTagAsk
  (try dsimp only); (repeat' split) <;> simp only [stood_mk, stood_eta, tagLookup_stood]

theorem doRekeyStep_stood (m : Nat) (f : Faults) (s : State) :
    (doRekeyStep m f s).stood = s.stood := by
  unfold doRekeyStep
  (try dsimp only); (repeat' split) <;> simp only [stood_mk, stood_eta, rowErrors_stood, rrSet_stood, slotUse_stood, ctxPut_stood, stepMod_stood, issueR_stood, stepTagAsk_stood]

theorem purgeWrite_stood (m n : Nat) (x : StepLine) (f : Faults) (s : State) :
    (purgeWrite m n x f s).stood = s.stood := by
  unfold purgeWrite
  (try dsimp only); (repeat' split) <;>
    ((try have hk_entryResolve := entryResolve_stood_of (by assumption : entryResolve _ _ _ _ _ = _)); (try have hk_nextLctr := nextLctr_stood_of (by assumption : nextLctr _ _ _ _ _ = _)); simp_all only [stood_mk, stood_eta, apply_ite State.stood, foldl_stood, ite_self, purgePut_stood, entryResolve_stood, nextLctr_stood, voteHold_stood])

theorem stepWriteGo_stood (m n : Nat) (x : StepLine) (f : Faults) (s : State) :
    (stepWriteGo m n x f s).stood = s.stood := by
  unfold stepWriteGo
  (try dsimp only); (repeat' split) <;>
    ((try have hk_entryResolve := entryResolve_stood_of (by assumption : entryResolve _ _ _ _ _ = _)); (try have hk_nextLctr := nextLctr_stood_of (by assumption : nextLctr _ _ _ _ _ = _)); simp_all only [stood_mk, stood_eta, apply_ite State.stood, foldl_stood, ite_self, stepMod_stood, entryResolve_stood, nextLctr_stood, stepFail_stood, spentNote_stood, writeSlice_stood])

theorem doRekeyStepWrite_stood (m : Nat) (f : Faults) (s : State) :
    (doRekeyStepWrite m f s).stood = s.stood := by
  unfold doRekeyStepWrite
  (try dsimp only); (repeat' split) <;> simp only [stood_mk, stood_eta, rowErrors_stood, rrSet_stood, slotUse_stood, stepMod_stood, purgeWrite_stood, stepWriteGo_stood]

theorem voteCmd_stood (sl : Nat) (d : Dir) (f : Faults) (s : State) :
    (voteCmd sl d f s).stood = s.stood := by
  unfold voteCmd
  (try dsimp only); (repeat' split) <;> simp only [stood_mk, stood_eta, selfTest_stood, doVote_stood, slotUse_stood]

theorem schkCmd_stood (sl : Nat) (f : Faults) (s : State) :
    (schkCmd sl f s).stood = s.stood := by
  unfold schkCmd
  (try dsimp only); (repeat' split) <;> simp only [stood_mk, stood_eta, doSchkRecompute_stood, slotUse_stood]

theorem doRowRepair_stood (m : Nat) (s : State) :
    (doRowRepair m s).stood = s.stood := by
  unfold doRowRepair
  (try dsimp only); (repeat' split) <;> simp only [stood_mk, stood_eta, slotUse_stood, raise_stood, countUp_stood, rowRemap_stood, logAppend_stood]

theorem flushIssue_stood (m : Nat) (o : MOwner) (s : State) :
    (flushIssue m o s).stood = s.stood := by
  unfold flushIssue
  simp only [stood_mk, stood_eta, issueW_stood, slotUse_stood]

theorem doFlushPersist_stood (m : Nat) (s : State) :
    (doFlushPersist m s).stood = s.stood := by
  unfold doFlushPersist
  (try dsimp only); (repeat' split) <;> simp only [stood_mk, stood_eta, flushIssue_stood, mediaMod_stood]

theorem drainCkpt_stood (s : State) (n : Nat) :
    (drainCkpt s n).stood = s.stood := by
  unfold drainCkpt
  simp only [stood_mk, stood_eta, apply_ite State.stood, ite_self, ckptPush_stood, ctxPut_stood]

theorem drainPoll_stood (s : State) :
    (drainPoll s).stood = s.stood := by
  unfold drainPoll
  (try dsimp only); (repeat' split) <;>
    simp only [stood_mk, stood_eta, apply_ite State.stood, ite_self, foldl_stood, implies_true, drainCkpt_stood, nvPush_stood]

theorem ctxAbandon_stood (s : State) (n : Nat) :
    (ctxAbandon s n).stood = s.stood := by
  unfold ctxAbandon
  simp only [stood_mk, stood_eta, apply_ite State.stood, ite_self, stepsDrop_stood, ctxPut_stood]

theorem fetchLostOwner_stood (tl : Nat) (s : State) (o : MOwner) :
    (fetchLostOwner tl s o).stood = s.stood := by
  unfold fetchLostOwner
  (try dsimp only); (repeat' split) <;> simp only [stood_mk, stood_eta, tagFetchLost_stood, holdDel_stood, readReply_stood]

theorem tagFetchFail_stood (tl : Nat) (s : State) :
    (tagFetchFail tl s).stood = s.stood := by
  unfold tagFetchFail
  (try dsimp only); (repeat' split) <;>
    simp only [stood_mk, stood_eta, apply_ite State.stood, ite_self, foldl_stood, implies_true, taglineMedia_stood, wayPut_stood, fetchLostOwner_stood, wbFetches_stood]

theorem fetchGotOwner_stood (tl : Nat) (d : Line) (s : State) (o : MOwner) :
    (fetchGotOwner tl d s o).stood = s.stood := by
  unfold fetchGotOwner
  (try dsimp only); (repeat' split) <;> simp only [stood_mk, stood_eta, readVerify_stood, holdDel_stood, rawTagReply_stood, txnPut_stood]

theorem tagFetchGot_stood (tl : Nat) (line : BitVec 576) (s : State) :
    (tagFetchGot tl line s).stood = s.stood := by
  unfold tagFetchGot
  (try dsimp only); (repeat' split) <;>
    simp only [stood_mk, stood_eta, apply_ite State.stood, ite_self, foldl_stood, implies_true, tlEv_stood, count1_stood, tagMerge_stood, fetchGotOwner_stood]

theorem probeDel_stood (m a : Nat) (void : Bool) (s : State) :
    (probeDel m a void s).stood = s.stood := by
  unfold probeDel
  simp only [stood_mk, stood_eta, probesPut_stood]

theorem probeFail_stood (m a : Nat) (s : State) :
    (probeFail m a s).stood = s.stood := by
  unfold probeFail
  (try dsimp only); (repeat' split) <;>
    simp only [stood_mk, stood_eta, apply_ite State.stood, ite_self, foldl_stood, implies_true, probeDel_stood, txnFinish_stood, raise_stood, count1_stood]

theorem probeRelease_stood (sc : Side) (f : Faults) (s : State) (t : Txn) :
    (probeRelease sc f s t).stood = s.stood := by
  unfold probeRelease
  simp only [stood_mk, stood_eta, entryFromSide_stood, writeGo_stood]

theorem probeGot_stood (m a : Nat) (sc : Side) (f : Faults) (s : State) : (probeGot m a sc f s).stood = s.stood := by
  unfold probeGot
  split
  · rfl
  · dsimp only
    rw [foldl_stood _ (fun s t => by split <;> simp only [writeGo_stood, probeRelease_stood])]
    split <;> simp only [jackFill_stood, probeDel_stood]

theorem readEnd_stood (m : Nat) (s : State) (o : MOp) :
    (readEnd m s o).stood = s.stood := by
  unfold readEnd
  (try dsimp only); (repeat' split) <;> simp only [stood_mk, stood_eta, tagFetchFail_stood, probeFail_stood, probeDel_stood, lineLost_stood]

theorem writeLost_stood (m : Nat) (s : State) (o : MOp) :
    (writeLost m s o).stood = s.stood := by
  unfold writeLost
  (try dsimp only); (repeat' split) <;> simp only [stood_mk, stood_eta, txnFinish_stood, tagDrop_stood, stepFail_stood, wayPut_stood, mediaMod_stood]

theorem grantLost_stood (m : Nat) (s : State) : (grantLost m s).stood = s.stood := by
  unfold grantLost
  dsimp only
  rw [foldl_stood _ (fun s t => by simp only [partialRefuse_stood, stood_mk, stood_eta]),
    foldl_stood _ (fun s t => by simp only [txnFinish_stood]), foldl_stood _ (fun s h => by
      (repeat' split) <;> simp only [txnFinish_stood, holdDel_stood, stepFail_stood])]

theorem portEmpty_stood (m : Nat) (s : State) :
    (portEmpty m s).stood = s.stood := by
  unfold portEmpty
  (try dsimp only); (repeat' split) <;>
    simp only [stood_mk, stood_eta, apply_ite State.stood, ite_self, foldl_stood, implies_true, mediaPut_stood, writeLost_stood, readEnd_stood, tagFetchFail_stood, probeFail_stood, probesPut_stood, stepsLost_stood, grantLost_stood, itemOut_stood, itemDel_stood]

theorem portFail_stood (m cause : Nat) (s : State) :
    (portFail m cause s).stood = s.stood := by
  unfold portFail
  simp only [stood_mk, stood_eta, apply_ite State.stood, ite_self, mediaMod_stood, faultLow_stood, regPut_stood, raise_stood, rkPoll_stood, portEmpty_stood]

theorem handshakeW_stood (m id : Nat) (s : State) :
    (handshakeW m id s).stood = s.stood := by
  unfold handshakeW
  (try dsimp only); (repeat' split) <;> simp only [stood_mk, stood_eta, mediaPut_stood, count1_stood]

theorem handshakeR_stood (m id : Nat) (s : State) :
    (handshakeR m id s).stood = s.stood := by
  unfold handshakeR
  (try dsimp only); (repeat' split) <;> simp only [stood_mk, stood_eta, mediaPut_stood, count1_stood]

theorem doMediaHandshake_stood (m : Nat) (dir : Dir) (id : Nat) (s : State) :
    (doMediaHandshake m dir id s).stood = s.stood := by
  unfold doMediaHandshake
  (try dsimp only); (repeat' split) <;> simp only [stood_mk, stood_eta, handshakeW_stood, handshakeR_stood]

theorem xferNote_stood (m dir : Nat) (o : MOp) (tries : Nat) (s : State) :
    (xferNote m dir o tries s).stood = s.stood := by
  unfold xferNote
  simp only [stood_mk, stood_eta, raise_stood, count1_stood]

theorem doTransferError_stood (m : Nat) (s : State) :
    (doTransferError m s).stood = s.stood := by
  unfold doTransferError
  (try dsimp only); (repeat' split) <;> simp only [stood_mk, stood_eta, xferNote_stood, mediaPut_stood, drainPoll_stood, portFail_stood]

theorem doAccepted_stood (m : Nat) (s : State) :
    (doAccepted m s).stood = s.stood := by
  unfold doAccepted
  (try dsimp only); (repeat' split) <;> simp only [stood_mk, stood_eta, portFail_stood, mediaPut_stood]

theorem aheadPersisted_stood (o : MOp) (s : State) :
    (aheadPersisted o s).stood = s.stood := by
  unfold aheadPersisted
  (try dsimp only); (repeat' split) <;> simp only [stood_mk, stood_eta, ctxPut_stood]

theorem writeDone_stood (t : Txn) (s : State) :
    (writeDone t s).stood = s.stood := by
  unfold writeDone
  simp only [stood_mk, stood_eta, apply_ite State.stood, ite_self, count1_stood, txnFinish_stood]

theorem rawPaid_stood (t : Txn) (o : MOp) (s : State) :
    (rawPaid t o s).stood = s.stood := by
  unfold rawPaid
  first
  | with_reducible rfl
  | ((try dsimp only); repeat' split) <;> (first | (with_reducible rfl) | (simp only [stood_mk, stood_eta, apply_ite State.stood, ite_self, tagPaid_stood]; done) | (simp only [stood_mk, stood_eta, apply_ite State.stood, ite_self, foldl_stood, implies_true, tagPaid_stood]; done) | (simp_all only [stood_mk, stood_eta, apply_ite State.stood, ite_self, foldl_stood, implies_true, tagPaid_stood]; done))

theorem persistedFor_stood (m : Nat) (o : MOp) (s : State) :
    (persistedFor m o s).stood = s.stood := by
  unfold persistedFor
  (try dsimp only); (repeat' split) <;> simp only [stood_mk, stood_eta, writeDone_stood, rawPaid_stood, stepEnd_stood, wbPersisted_stood, mediaMod_stood]

theorem drainCount_stood (o : MOp) (s : State) :
    (drainCount o s).stood = s.stood := by
  unfold drainCount
  (try dsimp only); (repeat' split) <;> simp only [stood_mk, stood_eta]

theorem doPersisted_stood (m id : Nat) (s : State) :
    (doPersisted m id s).stood = s.stood := by
  unfold doPersisted
  (try dsimp only); (repeat' split) <;> simp only [stood_mk, stood_eta, portFail_stood, mediaPut_stood, tagPersisted_stood, aheadPersisted_stood, drainCount_stood, persistedFor_stood, rkPoll_stood, stepsLost_stood]

theorem mediaErr_stood (m stat : Nat) (o : MOp) (s : State) :
    (mediaErr m stat o s).stood = s.stood := by
  unfold mediaErr
  simp only [stood_mk, stood_eta, raise_stood, regPut_stood, count1_stood]

theorem response_stood (m id kind stat : Nat) (parOk : Bool) (got : MOp → State → State) (s : State)
    (hgot : ∀ o s, (got o s).stood = s.stood) : (response m id kind stat parOk got s).stood = s.stood := by
  unfold response
  (try dsimp only); (repeat' split) <;>
    simp only [hgot, portFail_stood, mediaPut_stood, xferNote_stood, issueR_stood, readEnd_stood, mediaErr_stood]

theorem doLineArrival_stood (m id stat : Nat) (data : BitVec 576) (wpar : BitVec 16) (f : Faults) (s : State) :
    (doLineArrival m id stat data wpar f s).stood = s.stood := by
  unfold doLineArrival
  (try dsimp only); (repeat' split) <;>
    simp only [stood_mk, stood_eta, apply_ite State.stood, ite_self, foldl_stood, implies_true, response_stood, lineArrived_stood, rowErrors_stood]

theorem doSidecarArrival_stood (m id stat : Nat) (data : BitVec 576) (wpar : BitVec 16) (f : Faults) (s : State) :
    (doSidecarArrival m id stat data wpar f s).stood = s.stood :=
  response_stood _ _ _ _ _ _ _ (fun o s => by split <;> simp only [probeGot_stood, probeDel_stood])

theorem doTaglineArrival_stood (m id stat : Nat) (data : BitVec 576) (wpar : BitVec 16) (s : State) :
    (doTaglineArrival m id stat data wpar s).stood = s.stood :=
  response_stood _ _ _ _ _ _ _ (fun o s => by split <;> simp only [tagFetchGot_stood])

theorem doReadTimeout_stood (m id : Nat) (s : State) :
    (doReadTimeout m id s).stood = s.stood := by
  unfold doReadTimeout
  (try dsimp only); (repeat' split) <;> simp only [stood_mk, stood_eta, mediaPut_stood, raise_stood, readEnd_stood, count1_stood]

theorem doPersistTimeout_stood (m id : Nat) (s : State) :
    (doPersistTimeout m id s).stood = s.stood := by
  unfold doPersistTimeout
  (try dsimp only); (repeat' split) <;> simp only [stood_mk, stood_eta, mediaPut_stood, raise_stood, count1_stood, portFail_stood]

theorem doMpStall_stood (m : Nat) (dir : Dir) (cycles : Nat) (s : State) :
    (doMpStall m dir cycles s).stood = s.stood := by
  unfold doMpStall
  (try dsimp only); (repeat' split) <;> simp only [stood_mk, stood_eta, raise_stood]

theorem sweepRead_stood (hdr : List (Nat × BitVec 144)) (i : Item) (s : State) :
    (sweepRead hdr i s).2.stood = s.stood := by
  unfold sweepRead
  first
  | with_reducible rfl
  | ((try dsimp only); repeat' split) <;> (first | (with_reducible rfl) | (simp only [stood_mk, stood_eta, apply_ite State.stood, ite_self, wordsNote_stood]; done) | (simp only [stood_mk, stood_eta, apply_ite State.stood, ite_self, foldl_stood, implies_true, wordsNote_stood]; done) | (simp_all only [stood_mk, stood_eta, apply_ite State.stood, ite_self, foldl_stood, implies_true, wordsNote_stood]; done))

theorem sweepRead_stood_of {hdr : List (Nat × BitVec 144)} {i : Item} {s : State} {pp} (h : sweepRead hdr i s = pp) : pp.2.stood = s.stood := h ▸ sweepRead_stood hdr i s

theorem sweepItem_stood (hdr : List (Nat × BitVec 144)) (s : State) (i : Item) :
    (sweepItem hdr s i).stood = s.stood := by
  unfold sweepItem
  simp only [stood_mk, stood_eta, apply_ite State.stood, ite_self, sweepRead_stood, hdrLost_stood, itemFlushed_stood]

theorem sweepBitmaps_stood (freed held : Nat) (s : State) :
    (sweepBitmaps freed held s).stood = s.stood := by
  unfold sweepBitmaps
  simp only [stood_mk, stood_eta, apply_ite State.stood, ite_self, countUp_stood, raise_stood]

theorem sweepOld_stood (s : State) :
    (sweepOld s).stood = s.stood := by
  unfold sweepOld
  simp only [stood_mk, stood_eta]

theorem doPoolSweepPass_stood (ptr : List (Nat × Fin 5)) (freed held : Nat) (hdr : List (Nat × BitVec 144)) (s : State) :
    (doPoolSweepPass ptr freed held hdr s).stood = s.stood := by
  unfold doPoolSweepPass
  (try dsimp only); (repeat' split) <;>
    simp only [stood_mk, stood_eta, apply_ite State.stood, ite_self, foldl_stood, implies_true, sweepItem_stood, sweepRead_stood, sweepOld_stood, sweepBitmaps_stood, queueReset_stood]

theorem queueFlush_stood (q : Nat) (s : State) :
    (queueFlush q s).stood = s.stood := by
  unfold queueFlush
  (try dsimp only); (repeat' split) <;>
    simp only [stood_mk, stood_eta, apply_ite State.stood, ite_self, foldl_stood, implies_true, stickyTrim_stood, raise_stood, itemFlushed_stood]

theorem iqFlushSet_stood (m v : Nat) (s : State) :
    (iqFlushSet m v s).stood = s.stood := by
  unfold iqFlushSet
  (try dsimp only); (repeat' split) <;>
    simp only [stood_mk, stood_eta, apply_ite State.stood, ite_self, foldl_stood, implies_true, regPut_stood, queueFlush_stood]

theorem doNvReadDone_stood (err : Bool) (page : BitVec 512) (s : State) :
    (doNvReadDone err page s).stood = s.stood := by
  unfold doNvReadDone
  (try dsimp only); (repeat' split) <;>
    simp only [stood_mk, stood_eta, apply_ite State.stood, ite_self, foldl_stood, implies_true, nvKick_stood, nvJobDone_stood, nvRetry_stood]

theorem fecCount_stood (p n : Nat) (s : State) :
    (fecCount p n s).stood = s.stood := by
  unfold fecCount
  simp only [stood_mk, stood_eta, countUp_stood]

theorem lcwError_stood (p cause : Nat) (w : BitVec 64) (s : State) :
    (lcwError p cause w s).stood = s.stood := by
  unfold lcwError
  simp only [stood_mk, stood_eta, linkDown_stood, raise_stood]

theorem lockGain_stood (p : Nat) (s : State) :
    (lockGain p s).stood = s.stood := by
  unfold lockGain
  first
  | with_reducible rfl
  | ((try dsimp only); repeat' split) <;> (first | (with_reducible rfl) | (simp only [stood_mk, stood_eta, apply_ite State.stood, ite_self, linkMod_stood]; done) | (simp only [stood_mk, stood_eta, apply_ite State.stood, ite_self, foldl_stood, implies_true, linkMod_stood]; done) | (simp_all only [stood_mk, stood_eta, apply_ite State.stood, ite_self, foldl_stood, implies_true, linkMod_stood]; done))

theorem lockLose_stood (p : Nat) (s : State) :
    (lockLose p s).stood = s.stood := by
  unfold lockLose
  first
  | with_reducible rfl
  | ((try dsimp only); repeat' split) <;> (first | (with_reducible rfl) | (simp only [stood_mk, stood_eta, apply_ite State.stood, ite_self, sumUp_stood, count1_stood, linkMod_stood]; done) | (simp only [stood_mk, stood_eta, apply_ite State.stood, ite_self, foldl_stood, implies_true, sumUp_stood, count1_stood, linkMod_stood]; done) | (simp_all only [stood_mk, stood_eta, apply_ite State.stood, ite_self, foldl_stood, implies_true, sumUp_stood, count1_stood, linkMod_stood]; done))

theorem flitLost_stood (p : Nat) (bad nak : State → State) (s : State) (hb : ∀ s, (bad s).stood = s.stood)
    (hn : ∀ s, (nak s).stood = s.stood) : (flitLost p bad nak s).stood = s.stood := by
  unfold flitLost
  (try dsimp only); (repeat' split) <;> simp only [hb, hn, linkMod_stood, linkPut_stood, lockLose_stood]

theorem flitGood_stood (p n : Nat) (go : State → State) (s : State) (hgo : ∀ s, (go s).stood = s.stood) :
    (flitGood p n go s).stood = s.stood := by
  unfold flitGood
  (try dsimp only); (repeat' split) <;> simp only [hgo, linkPut_stood, fecCount_stood, lockGain_stood]

theorem doRateChange_stood (p rate : Nat) (s : State) :
    (doRateChange p rate s).stood = s.stood := by
  unfold doRateChange
  simp only [stood_mk, stood_eta, apply_ite State.stood, ite_self, linkPut_stood, linkDown_stood]

theorem doLockGained_stood (p : Nat) (s : State) :
    (doLockGained p s).stood = s.stood := by
  unfold doLockGained
  simp only [stood_mk, stood_eta, apply_ite State.stood, ite_self, lockGain_stood]

theorem doLockLost_stood (p : Nat) (s : State) :
    (doLockLost p s).stood = s.stood := by
  unfold doLockLost
  simp only [stood_mk, stood_eta, apply_ite State.stood, ite_self, lockLose_stood]

theorem doTLosExpiry_stood (p : Nat) (s : State) :
    (doTLosExpiry p s).stood = s.stood := by
  unfold doTLosExpiry
  (try dsimp only); (repeat' split) <;> simp only [stood_mk, stood_eta, linkDown_stood]

theorem nakSum_stood (p : Nat) (sent : Option Nat) (s : State) :
    (nakSum p sent s).stood = s.stood := by
  unfold nakSum
  simp only [stood_mk, stood_eta, sumSet_stood]

theorem badSum_stood (p : Nat) (crc : Bool) (s : State) :
    (badSum p crc s).stood = s.stood := by
  unfold badSum
  simp only [stood_mk, stood_eta, sumSet_stood]

theorem timerUndo_stood (p : Nat) (s : State) :
    (timerUndo p s).stood = s.stood := by
  unfold timerUndo
  first
  | with_reducible rfl
  | ((try dsimp only); repeat' split) <;> (first | (with_reducible rfl) | (simp only [stood_mk, stood_eta, apply_ite State.stood, ite_self, regPut_stood, linkMod_stood]; done) | (simp only [stood_mk, stood_eta, apply_ite State.stood, ite_self, foldl_stood, implies_true, regPut_stood, linkMod_stood]; done) | (simp_all only [stood_mk, stood_eta, apply_ite State.stood, ite_self, foldl_stood, implies_true, regPut_stood, linkMod_stood]; done))

theorem nakTake_stood (p : Nat) (before : LinkSt) (w : BitVec 64) (s : State) :
    (nakTake p before w s).stood = s.stood := by
  unfold nakTake
  simp only [stood_mk, stood_eta, apply_ite State.stood, ite_self, timerUndo_stood, nakSum_stood, count1_stood, linkMod_stood]

theorem ackFields_stood (p : Nat) (w : BitVec 64) (s : State) :
    (ackFields p w s).stood = s.stood := by
  unfold ackFields
  simp only [stood_mk, stood_eta, nakTake_stood, linkPut_stood]

theorem rxlockNote_stood (p : Nat) (w : BitVec 64) (s : State) :
    (rxlockNote p w s).stood = s.stood := by
  unfold rxlockNote
  simp only [stood_mk, stood_eta, linkMod_stood]

theorem slotCut_stood (p : Fin 128) (cause k : Nat) (w : BitVec 128) (s : State) :
    (slotCut p cause k w s).stood = s.stood := by
  unfold slotCut
  simp only [stood_mk, stood_eta, apply_ite State.stood, ite_self, creditCut_stood, slotError_stood, linkFate_stood]

theorem creditReturn_stood (p : Fin 128) (l : List (BitVec 16 × BitVec 16)) (s : State) :
    (creditReturn p l s).stood = s.stood := by
  induction l generalizing s with
  | nil => rfl
  | cons e t ih =>
    unfold creditReturn
    (try dsimp only); (repeat' split) <;>
      simp only [ih, creditOverrun_stood, creditSettle_stood, stood_mk, stood_eta]

theorem doCreditReturn_stood (p : Fin 128) (es : List (BitVec 16 × BitVec 16)) (s : State) :
    (doCreditReturn p es s).stood = s.stood := by
  unfold doCreditReturn
  simp only [stood_mk, stood_eta, apply_ite State.stood, ite_self, creditReturn_stood]

theorem doResyncDone_stood (p drop : Nat) (s : State) :
    (doResyncDone p drop s).stood = s.stood := by
  unfold doResyncDone
  simp only [stood_mk, stood_eta, apply_ite State.stood, ite_self, linkPut_stood, count1_stood]

theorem slotRequest_stood (p : Fin 128) (body : BitVec 1920) (k : Nat) (s : State) :
    (slotRequest p body k s).stood = s.stood := by
  unfold slotRequest
  (try dsimp only); (repeat' split) <;> simp only [stood_mk, stood_eta, creditReturn_stood, fenceReceive_stood, reqReceive_stood]

theorem cutRest_stood (n : Nat) (p : Fin 128) (body : BitVec 1920) (k : Nat) (s : State) :
    (cutRest n p body k s).stood = s.stood := by
  induction n generalizing k s with
  | zero => rfl
  | succ n ih =>
    unfold cutRest
    (try dsimp only); (repeat' split) <;> simp only [ih, linkFate_stood, creditCut_stood]

theorem slotRun_stood (n : Nat) (p : Fin 128) (vcm : BitVec 15) (body : BitVec 1920) (k : Nat) (s : State) :
    (slotRun n p vcm body k s).stood = s.stood := by
  induction n generalizing k s with
  | zero => rfl
  | succ n ih =>
    unfold slotRun
    (try dsimp only); (repeat' split) <;>
      simp only [ih, slotCut_stood, cutRest_stood, slotRequest_stood, doResyncDone_stood]

theorem dataAccept_stood (p : Fin 128) (w : BitVec 64) (body : BitVec 1920) (s : State) :
    (dataAccept p w body s).stood = s.stood := by
  unfold dataAccept
  simp only [stood_mk, stood_eta, count1_stood, linkMod_stood, slotRun_stood]

theorem rxFlit_stood (p : Nat) (errs : List Nat) (go : State → State) (s : State) (hgo : ∀ s, (go s).stood = s.stood) :
    (rxFlit p errs go s).stood = s.stood := by
  unfold rxFlit
  split
  · rfl
  · split
    · exact flitLost_stood _ _ _ _ (fun s => by simp only [badSum_stood, count1_stood])
        (fun s => by split <;> simp only [linkMod_stood])
    · exact flitGood_stood _ _ _ _ hgo

theorem rxData_stood (p : Fin 128) (w : BitVec 64) (body : BitVec 1920) (s : State) :
    (rxData p w body s).stood = s.stood := by
  unfold rxData
  first
  | with_reducible rfl
  | ((try dsimp only); repeat' split) <;> (first | (with_reducible rfl) | (simp only [stood_mk, stood_eta, apply_ite State.stood, ite_self, count1_stood, lcwError_stood, rxlockNote_stood, ackFields_stood, dataAccept_stood, linkMod_stood]; done) | (simp only [stood_mk, stood_eta, apply_ite State.stood, ite_self, foldl_stood, implies_true, count1_stood, lcwError_stood, rxlockNote_stood, ackFields_stood, dataAccept_stood, linkMod_stood]; done) | (simp_all only [stood_mk, stood_eta, apply_ite State.stood, ite_self, foldl_stood, implies_true, count1_stood, lcwError_stood, rxlockNote_stood, ackFields_stood, dataAccept_stood, linkMod_stood]; done))

theorem doRxDataFlit_stood (p : Fin 128) (errs : List Nat) (w : BitVec 64) (body : BitVec 1920) (s : State) :
    (doRxDataFlit p errs w body s).stood = s.stood := rxFlit_stood _ _ _ _ (fun _ => rxData_stood _ _ _ _)

theorem rxPlain_stood (p : Nat) (errs : List Nat) (acks : Bool) (w : BitVec 64) (go : State → State) (s : State)
    (hgo : ∀ s, (go s).stood = s.stood) : (rxPlain p errs acks w go s).stood = s.stood := by
  unfold rxPlain
  exact rxFlit_stood _ _ _ _ (fun s => by
    (try dsimp only); (repeat' split) <;>
      simp only [hgo, lcwError_stood, rxlockNote_stood, linkMod_stood, ackFields_stood, apply_ite State.stood, ite_self])

theorem doRxAckOnly_stood (p : Nat) (errs : List Nat) (w : BitVec 64) (s : State) : (doRxAckOnly p errs w s).stood = s.stood :=
  rxPlain_stood _ _ _ _ _ _ (fun _ => rfl)

theorem doRxIdle_stood (p : Nat) (errs : List Nat) (w : BitVec 64) (s : State) : (doRxIdle p errs w s).stood = s.stood :=
  rxPlain_stood _ _ _ _ _ _ (fun _ => rfl)

theorem peerNote_stood (p : Nat) (dig : BitVec 64) (gen : BitVec 32) (s : State) :
    (peerNote p dig gen s).stood = s.stood := by
  unfold peerNote
  simp only [stood_mk, stood_eta, apply_ite State.stood, ite_self, regPut_stood, raise_stood, linkMod_stood]

theorem doRxHeartbeat_stood (p : Nat) (errs : List Nat) (w : BitVec 64) (dig : BitVec 64) (gen : BitVec 32) (s : State) :
    (doRxHeartbeat p errs w dig gen s).stood = s.stood :=
  rxPlain_stood _ _ _ _ _ _ (fun _ => peerNote_stood _ _ _ _)

theorem doRxBadFlit_stood (p : Nat) (errs : List Nat) (flit : BitVec 2048) (s : State) :
    (doRxBadFlit p errs flit s).stood = s.stood := by
  unfold doRxBadFlit
  exact rxFlit_stood _ _ _ _ (fun s => by
    (try dsimp only); (repeat' split) <;> simp only [linkMod_stood, badSum_stood, count1_stood])

theorem rxNegotiate_stood (p : Nat) (errs : List Nat) (w : BitVec 64) (go : State → State) (s : State)
    (hgo : ∀ s, (go s).stood = s.stood) : (rxNegotiate p errs w go s).stood = s.stood := by
  unfold rxNegotiate
  exact rxFlit_stood _ _ _ _ (fun s => by split <;> simp only [lcwError_stood, hgo])

theorem doRxDown_stood (p : Nat) (errs : List Nat) (w : BitVec 64) (s : State) : (doRxDown p errs w s).stood = s.stood :=
  rxNegotiate_stood _ _ _ _ _ (fun s => by split <;> simp only [linkDown_stood])

theorem doRxReservedType_stood (p : Nat) (errs : List Nat) (w : BitVec 64) (s : State) :
    (doRxReservedType p errs w s).stood = s.stood := rxFlit_stood _ _ _ _ (fun _ => lcwError_stood _ _ _ _)

theorem offerRefuse_stood (p res : Nat) (v : OwnVals) (o : Offer) (s : State) :
    (offerRefuse p res v o s).stood = s.stood := by
  unfold offerRefuse
  simp only [stood_mk, stood_eta, raise_stood, count1_stood, linkMod_stood]

theorem offerAccept_stood (p : Nat) (v : OwnVals) (o : Offer) (s : State) :
    (offerAccept p v o s).stood = s.stood := by
  unfold offerAccept
  (try dsimp only); (repeat' split) <;> simp only [stood_mk, stood_eta, regPut_stood, linkMod_stood]

theorem rxOffer_stood (p : Nat) (o : Offer) (s : State) :
    (rxOffer p o s).stood = s.stood := by
  unfold rxOffer
  first
  | with_reducible rfl
  | ((try dsimp only); repeat' split) <;> (first | (with_reducible rfl) | (simp only [stood_mk, stood_eta, apply_ite State.stood, ite_self, linkDown_stood, linkMod_stood, offerAccept_stood, offerRefuse_stood]; done) | (simp only [stood_mk, stood_eta, apply_ite State.stood, ite_self, foldl_stood, implies_true, linkDown_stood, linkMod_stood, offerAccept_stood, offerRefuse_stood]; done) | (simp_all only [stood_mk, stood_eta, apply_ite State.stood, ite_self, foldl_stood, implies_true, linkDown_stood, linkMod_stood, offerAccept_stood, offerRefuse_stood]; done))

theorem doRxParamOffer_stood (p : Nat) (errs : List Nat) (w : BitVec 64) (o : Offer) (s : State) :
    (doRxParamOffer p errs w o s).stood = s.stood := rxNegotiate_stood _ _ _ _ _ (fun _ => rxOffer_stood _ _ _)

theorem linkUp_stood (p : Nat) (v : NegVals) (s : State) :
    (linkUp p v s).stood = s.stood := by
  unfold linkUp
  simp only [stood_mk, stood_eta, regPut_stood, linkMod_stood, raise_stood]

theorem rxConfirm_stood (p : Nat) (c : Confirm) (s : State) :
    (rxConfirm p c s).stood = s.stood := by
  unfold rxConfirm
  first
  | with_reducible rfl
  | ((try dsimp only); repeat' split) <;> (first | (with_reducible rfl) | (simp only [stood_mk, stood_eta, apply_ite State.stood, ite_self, linkUp_stood, linkDown_stood, count1_stood]; done) | (simp only [stood_mk, stood_eta, apply_ite State.stood, ite_self, foldl_stood, implies_true, linkUp_stood, linkDown_stood, count1_stood]; done) | (simp_all only [stood_mk, stood_eta, apply_ite State.stood, ite_self, foldl_stood, implies_true, linkUp_stood, linkDown_stood, count1_stood]; done))

theorem doRxParamConfirm_stood (p : Nat) (errs : List Nat) (w : BitVec 64) (c : Confirm) (s : State) :
    (doRxParamConfirm p errs w c s).stood = s.stood := rxNegotiate_stood _ _ _ _ _ (fun _ => rxConfirm_stood _ _ _)

theorem doTNegExpiry_stood (p : Nat) (s : State) :
    (doTNegExpiry p s).stood = s.stood := by
  unfold doTNegExpiry
  simp only [stood_mk, stood_eta, apply_ite State.stood, ite_self, linkDown_stood]

theorem doHbLost_stood (p : Nat) (s : State) :
    (doHbLost p s).stood = s.stood := by
  unfold doHbLost
  simp only [stood_mk, stood_eta, apply_ite State.stood, ite_self, linkDown_stood, raise_stood, count1_stood]

theorem flitSend_stood (p : Nat) (o : FlitOut) (s : State) :
    (flitSend p o s).stood = s.stood := by
  unfold flitSend
  simp only [stood_mk, stood_eta, linkMod_stood]

theorem ackSend_stood (p : Nat) (ty seq : Nat) (vcm : BitVec 15) (body : BitVec 1920) (retx : Bool) (s : State) :
    (ackSend p ty seq vcm body retx s).stood = s.stood := by
  unfold ackSend
  simp only [stood_mk, stood_eta, apply_ite State.stood, ite_self, nakSum_stood, count1_stood, flitSend_stood, linkMod_stood]

theorem sendDown_stood (p : Nat) (s : State) :
    (sendDown p s).stood = s.stood := by
  unfold sendDown
  (try dsimp only); (repeat' split) <;> simp only [stood_mk, stood_eta, flitSend_stood, linkPut_stood]

theorem replayParity_stood (p seq : Nat) (s : State) :
    (replayParity p seq s).stood = s.stood := by
  unfold replayParity
  simp only [stood_mk, stood_eta, linkDown_stood, raise_stood]

theorem sendReplay_stood (p r : Nat) (parityBad : Bool) (s : State) :
    (sendReplay p r parityBad s).stood = s.stood := by
  unfold sendReplay
  (try dsimp only); (repeat' split) <;> simp only [stood_mk, stood_eta, replayParity_stood, linkPut_stood, ackSend_stood, count1_stood]

theorem handOver_stood (p : Nat) (s : State) (r : Rsp) :
    (handOver p s r).stood = s.stood := by
  unfold handOver
  simp only [stood_mk, stood_eta, apply_ite State.stood, ite_self, linkMod_stood, count1_stood, creditRelease_stood]

theorem sendData_stood (p : Nat) (f : Faults) (s : State) :
    (sendData p f s).stood = s.stood := by
  unfold sendData
  (try dsimp only); (repeat' split) <;>
    simp only [stood_mk, stood_eta, apply_ite State.stood, ite_self, foldl_stood, implies_true, queueReset_stood, wordsNote_stood, linkDown_stood, eqPut_stood, ackSend_stood, count1_stood, linkMod_stood, partnerFeed_stood, handOver_stood]

theorem sendUp_stood (p : Nat) (parityBad : Bool) (f : Faults) (s : State) :
    (sendUp p parityBad f s).stood = s.stood := by
  unfold sendUp
  (try dsimp only); (repeat' split) <;> simp only [stood_mk, stood_eta, ackSend_stood, linkPut_stood, sendReplay_stood, sendData_stood, flitSend_stood]

theorem doFlitTransmit_stood (p : Nat) (parityBad : Bool) (f : Faults) (s : State) :
    (doFlitTransmit p parityBad f s).stood = s.stood := by
  unfold doFlitTransmit
  simp only [stood_mk, stood_eta, apply_ite State.stood, ite_self, linkPut_stood, flitSend_stood, sendUp_stood, rowErrors_stood, sendDown_stood]

theorem doAckTimer_stood (p : Nat) (s : State) :
    (doAckTimer p s).stood = s.stood := by
  unfold doAckTimer
  simp only [stood_mk, stood_eta, linkMod_stood]

theorem doReplayTimer_stood (p : Nat) (parityBad : Bool) (f : Faults) (s : State) :
    (doReplayTimer p parityBad f s).stood = s.stood := by
  unfold doReplayTimer
  simp only [stood_mk, stood_eta, apply_ite State.stood, ite_self, sumUp_stood, linkPut_stood, linkDown_stood, count1_stood, rowErrors_stood, replayParity_stood, linkMod_stood]

theorem doHeartbeatDue_stood (p : Nat) (s : State) :
    (doHeartbeatDue p s).stood = s.stood := by
  unfold doHeartbeatDue
  simp only [stood_mk, stood_eta, linkMod_stood]

theorem doResyncSend_stood (p : Nat) (s : State) : (doResyncSend p s).stood = s.stood := by
  unfold doResyncSend
  dsimp only
  split
  · rw [grantSend_stood, raise_stood, foldl_stood _ (fun s r => by simp only [partnerPush_stood])]
    simp only [regPut_stood, linkPut_stood]
  · rfl

theorem doGrantHoldExpiry_stood (p : Nat) (s : State) :
    (doGrantHoldExpiry p s).stood = s.stood := by
  unfold doGrantHoldExpiry
  simp only [stood_mk, stood_eta, apply_ite State.stood, ite_self, grantSend_stood]

theorem zeroizeTxn_stood (s : State) (t : Txn) :
    (zeroizeTxn s t).stood = s.stood := by
  unfold zeroizeTxn
  simp only [stood_mk, stood_eta, apply_ite State.stood, ite_self, txnFinish_stood, partialRefuse_stood]

theorem ctxSuspendAll_stood (s : State) :
    (ctxSuspendAll s).stood = s.stood := by
  unfold ctxSuspendAll
  (try dsimp only); (repeat' split) <;>
    simp only [stood_mk, stood_eta, apply_ite State.stood, ite_self, foldl_stood, implies_true, ctxSuspend_stood]

theorem doZeroizeShortPulse_stood (s : State) :
    (doZeroizeShortPulse s).stood = s.stood := by
  unfold doZeroizeShortPulse
  simp only [stood_mk, stood_eta, apply_ite State.stood, ite_self, sumUp_stood, count1_stood]

theorem doDrainLate_stood (s : State) :
    (doDrainLate s).stood = s.stood := by
  unfold doDrainLate
  simp only [stood_mk, stood_eta, apply_ite State.stood, ite_self, raise_stood]

theorem doPwrWarnShortPulse_stood (samples : Nat) (s : State) :
    (doPwrWarnShortPulse samples s).stood = s.stood := by
  unfold doPwrWarnShortPulse
  (try dsimp only); (repeat' split) <;> simp only [stood_mk, stood_eta, count1_stood]

theorem doPwrWarnReturn_stood (s : State) :
    (doPwrWarnReturn s).stood = s.stood := by
  unfold doPwrWarnReturn
  (try dsimp only); (repeat' split) <;> simp only [stood_mk, stood_eta]

theorem ctxUnpark_stood (s : State) (n : Nat) :
    (ctxUnpark s n).stood = s.stood := by
  unfold ctxUnpark
  simp only [stood_mk, stood_eta, apply_ite State.stood, ite_self, boundSet_stood, ctxPut_stood, rekeyResumeEv_stood]

theorem resumeFlush_stood (s : State) :
    (resumeFlush s).stood = s.stood := by
  unfold resumeFlush
  (try dsimp only); (repeat' split) <;>
    simp only [stood_mk, stood_eta, apply_ite State.stood, ite_self, foldl_stood, implies_true, queueFlush_stood]

theorem fuseApply_stood (img : FuseImage) (s : State) :
    (fuseApply img s).stood = s.stood := by
  unfold fuseApply
  (try dsimp only); (repeat' split) <;>
    simp only [stood_mk, stood_eta, apply_ite State.stood, ite_self, foldl_stood, implies_true, countUp_stood, rowRemap_stood, regPut_stood, faultLow_stood, raise_stood]

theorem logIgnore_stood (s : State) :
    (logIgnore s).stood = s.stood := by
  unfold logIgnore
  simp only [stood_mk, stood_eta, countUp_stood]

theorem logApply_stood (e : LogEnt) (s : State) :
    (logApply e s).stood = s.stood := by
  unfold logApply
  (try dsimp only); (repeat' split) <;>
    simp only [stood_mk, stood_eta, apply_ite State.stood, ite_self, foldl_stood, implies_true, countUp_stood, rowRemap_stood, logIgnore_stood, pipeRetire_stood, sliceLose_stood, slicePut_stood]

theorem logPlace_stood (s : State) (i : Nat) :
    (logPlace s i).stood = s.stood := by
  unfold logPlace
  first
  | with_reducible rfl
  | ((try dsimp only); repeat' split) <;> (first | (with_reducible rfl) | (simp only [stood_mk, stood_eta, apply_ite State.stood, ite_self, logApply_stood, logIgnore_stood]; done) | (simp only [stood_mk, stood_eta, apply_ite State.stood, ite_self, foldl_stood, implies_true, logApply_stood, logIgnore_stood]; done) | (simp_all only [stood_mk, stood_eta, apply_ite State.stood, ite_self, foldl_stood, implies_true, logApply_stood, logIgnore_stood]; done))

theorem bistRow_stood (mac row : Nat) (soft : Bool) (s : State) :
    (bistRow mac row soft s).stood = s.stood := by
  unfold bistRow
  first
  | with_reducible rfl
  | ((try dsimp only); repeat' split) <;> (first | (with_reducible rfl) | (simp only [stood_mk, stood_eta, apply_ite State.stood, ite_self, logAppend_stood, countUp_stood, rowRemap_stood, raise_stood, rowBad_stood]; done) | (simp only [stood_mk, stood_eta, apply_ite State.stood, ite_self, foldl_stood, implies_true, logAppend_stood, countUp_stood, rowRemap_stood, raise_stood, rowBad_stood]; done) | (simp_all only [stood_mk, stood_eta, apply_ite State.stood, ite_self, foldl_stood, implies_true, logAppend_stood, countUp_stood, rowRemap_stood, raise_stood, rowBad_stood]; done))

theorem bistOne_stood (s : State) (b : BistFail) :
    (bistOne s b).stood = s.stood := by
  unfold bistOne
  (try dsimp only); (repeat' split) <;> simp only [stood_mk, stood_eta, bistRow_stood, sliceJudge_stood, pipeRetire_stood, sliceLose_stood, linkMod_stood]

theorem bistAll_stood (s : State) (l : List BistFail) : (bistAll s l).1.stood = s.stood := by
  have h : ∀ (l : List BistFail) (a : State × Bool),
      (l.foldl (fun a b => (bistOne a.1 b, a.2 && bistMends a.1 b)) a).1.stood = a.1.stood := by
    intro l
    induction l with
    | nil => intro a; rfl
    | cons b t ih => intro a; simp only [List.foldl_cons, ih, bistOne_stood]
  exact h l (s, true)

theorem bistKind_stood (fails : List BistFail) (s : State) (k : Nat) : (bistKind fails s k).stood = s.stood := by
  unfold bistKind
  (try dsimp only); (repeat' split) <;> simp only [raiseSev_stood, regPut_stood, bistAll_stood]

theorem recSelect_stood (a b : Nat) (valid : Nat → Bool) (s : State) : (recSelect a b valid s).2.stood = s.stood :=
  selNote_stood _ s

theorem recSelect_stood_of {a b : Nat} {valid : Nat → Bool} {s : State} {pp} (h : recSelect a b valid s = pp) : pp.2.stood = s.stood := h ▸ recSelect_stood a b valid s

theorem recSlot_stood (s : State) (k : Nat) :
    (recSlot s k).stood = s.stood := by
  unfold recSlot
  (try dsimp only); (repeat' split) <;>
    ((try have hk_recSelect := recSelect_stood_of (by assumption : recSelect _ _ _ _ = _)); simp_all only [stood_mk, stood_eta, apply_ite State.stood, foldl_stood, ite_self, recSelect_stood, slotPut_stood, rowBad_stood])

theorem seedMarks_stood (k ext mark : Nat) (s : State) :
    (seedMarks k ext mark s).stood = s.stood := by
  unfold seedMarks
  (try dsimp only); (repeat' split) <;>
    simp only [stood_mk, stood_eta, apply_ite State.stood, ite_self, foldl_stood, implies_true, regPut_stood]

theorem recFmt_stood (s : State) (j : Nat) :
    (recFmt s j).stood = s.stood := by
  unfold recFmt
  (try dsimp only); (repeat' split) <;>
    ((try have hk_recSelect := recSelect_stood_of (by assumption : recSelect _ _ _ _ = _)); simp_all only [stood_mk, stood_eta, apply_ite State.stood, foldl_stood, ite_self, recSelect_stood, nvPush_stood, seedMarks_stood])

theorem recFree_stood (k : Nat) (s : State) :
    (recFree k s).stood = s.stood := by
  unfold recFree
  (try dsimp only); (repeat' split) <;> simp only [stood_mk, stood_eta, seedMarks_stood, fmtRelease_stood, nvPush_stood]

theorem recFinish_stood (k : CkptRec) (s : State) :
    (recFinish k s).stood = s.stood := by
  unfold recFinish
  (try dsimp only); (repeat' split) <;> simp only [stood_mk, stood_eta, nvPush_stood, slotPut_stood, recFree_stood, rowBad_stood]

theorem ckptAdd_stood (k : CkptRec) (a : List CkptRec × State) : (ckptAdd k a).2.stood = a.2.stood := by
  unfold ckptAdd
  (repeat' split) <;> simp only [nvNote_stood]

theorem recCkpt_stood (n : Nat) (acc : List CkptRec × State) (c : Nat) : (recCkpt n acc c).2.stood = acc.2.stood := by
  unfold recCkpt
  split
  · rename_i heq; have hk := recSelect_stood_of heq; simpa only using hk
  · rename_i heq
    have hk := recSelect_stood_of heq
    simp only at hk
    (try dsimp only); (repeat' split) <;> simp only [ckptAdd_stood, nvNote_stood, recFinish_stood, apply_ite State.stood, ite_self, hk]

theorem recResume_stood (s : State) (k : CkptRec) :
    (recResume s k).stood = s.stood := by
  unfold recResume
  simp only [stood_mk, stood_eta, apply_ite State.stood, ite_self, slotPut_stood, seedMarks_stood, ctxPut_stood]

theorem recQueue_stood (l : List CkptRec) (s : State) (k : Nat) :
    (recQueue l s k).stood = s.stood := by
  unfold recQueue
  simp only [stood_mk, stood_eta, apply_ite State.stood, ite_self, rkEnqueue_stood]

theorem recKcv_stood (k place : Nat) (s : State) : (recKcv k place s).2.2.stood = s.stood := by
  unfold recKcv
  (try dsimp only); split <;> simp only [nvNote_stood]

theorem recKcv_stood_of {k place : Nat} {s : State} {pp} (h : recKcv k place s = pp) : pp.2.2.stood = s.stood :=
  h ▸ recKcv_stood k place s

theorem recKcvs_stood (s : State) (k : Nat) : (recKcvs s k).stood = s.stood := by
  unfold recKcvs
  (try dsimp only); repeat' split
  all_goals simp only [slotPut_stood, recKcv_stood]

theorem recImage_stood (s : State) : (recImage s).2.stood = s.stood := by
  unfold recImage
  have hf : ([imageA, imageB].foldl (fun s a => if imageWindup s a = true ∧ (imageVals s a).isNone then nvNote a 3 s else s) s).stood
      = s.stood := foldl_stood _ (fun s a => by split <;> simp only [nvNote_stood]) _ _
  dsimp only
  split
  · rename_i heq
    have hk := recSelect_stood_of heq
    simp only at hk ⊢
    rw [hk]; exact hf
  · rename_i heq
    have hk := recSelect_stood_of heq
    simp only [nvNote_stood] at hk ⊢
    rw [hk]; exact hf

theorem recImage_stood_of {s : State} {pp} (h : recImage s = pp) : pp.2.stood = s.stood := h ▸ recImage_stood s

theorem recTables_stood (n : Nat) (s : State) : (recTables n s).2.stood = s.stood := by
  have hc : ∀ (l : List Nat) (a : List CkptRec × State), (l.foldl (recCkpt n) a).2.stood = a.2.stood := by
    intro l
    induction l with
    | nil => intro a; rfl
    | cons b t ih => intro a; simp only [List.foldl_cons, ih, recCkpt_stood]
  unfold recTables
  dsimp only
  rw [foldl_stood _ (recQueue_stood _), foldl_stood _ recKcvs_stood, foldl_stood _ recResume_stood, hc]
  dsimp only
  rw [foldl_stood _ (fun s k => by split <;> simp only [seedMarks_stood]), foldl_stood _ recFmt_stood, foldl_stood _ recSlot_stood]

theorem recTables_stood_of {n : Nat} {s : State} {pp} (h : recTables n s = pp) : pp.2.stood = s.stood := h ▸ recTables_stood n s

theorem snapPut_stood (idx sub row v : Nat) (s : State) :
    (snapPut idx sub row v s).stood = s.stood := by
  unfold snapPut
  simp only [stood_mk, stood_eta]

theorem snapLink_stood (s : State) (p : Nat) :
    (snapLink s p).stood = s.stood := by
  unfold snapLink
  simp only [stood_mk, stood_eta, snapPut_stood]

theorem snapMedia_stood (s : State) (m : Nat) :
    (snapMedia s m).stood = s.stood := by
  unfold snapMedia
  (try dsimp only); (repeat' split) <;>
    simp only [stood_mk, stood_eta, apply_ite State.stood, ite_self, foldl_stood, implies_true, snapPut_stood]

theorem snapHeld_stood (s : State) : (snapHeld s).stood = s.stood := by
  unfold snapHeld
  dsimp only
  rw [foldl_stood _ (fun s e => by (repeat' split) <;> simp only [snapPut_stood])]
  simp only [stood_mk, stood_eta]

theorem snapshots_stood (s : State) :
    (snapshots s).stood = s.stood := by
  unfold snapshots
  (try dsimp only); (repeat' split) <;>
    simp only [stood_mk, stood_eta, apply_ite State.stood, ite_self, foldl_stood, implies_true, snapMedia_stood, snapLink_stood, snapPut_stood, snapHeld_stood, regPut_stood]

theorem slotsRestart_stood (s : State) (m : Nat) :
    (slotsRestart s m).stood = s.stood := by
  unfold slotsRestart
  (try dsimp only); (repeat' split) <;>
    simp only [stood_mk, stood_eta, apply_ite State.stood, ite_self, foldl_stood, implies_true, snapPut_stood, mediaPut_stood]

theorem busyPort_stood (c : Nat) (s : State) (m : Nat) :
    (busyPort c s m).stood = s.stood := by
  unfold busyPort
  simp only [stood_mk, stood_eta, apply_ite State.stood, ite_self, countUp_stood]

theorem clockTo_stood (c : Nat) (s : State) :
    (clockTo c s).stood = s.stood := by
  unfold clockTo
  first
  | with_reducible rfl
  | ((try dsimp only); repeat' split) <;> (first | (with_reducible rfl) | (simp only [stood_mk, stood_eta, apply_ite State.stood, ite_self, busyPort_stood]; done) | (simp only [stood_mk, stood_eta, apply_ite State.stood, ite_self, foldl_stood, implies_true, busyPort_stood]; done) | (simp_all only [stood_mk, stood_eta, apply_ite State.stood, ite_self, foldl_stood, implies_true, busyPort_stood]; done))

theorem landings_stood (t0 : Nat) (s : State) :
    (landings t0 s).stood = s.stood := by
  unfold landings
  first
  | with_reducible rfl
  | ((try dsimp only); repeat' split) <;> (first | (with_reducible rfl) | (simp only [stood_mk, stood_eta, apply_ite State.stood, ite_self, orphansDue_stood, landFlush_stood]; done) | (simp only [stood_mk, stood_eta, apply_ite State.stood, ite_self, foldl_stood, implies_true, orphansDue_stood, landFlush_stood]; done) | (simp_all only [stood_mk, stood_eta, apply_ite State.stood, ite_self, foldl_stood, implies_true, orphansDue_stood, landFlush_stood]; done))

theorem cyclesTo_stood (c : Nat) (s : State) :
    (cyclesTo c s).stood = s.stood := by
  unfold cyclesTo
  (try dsimp only); (repeat' split) <;>
    simp only [stood_mk, stood_eta, apply_ite State.stood, ite_self, foldl_stood, implies_true, landings_stood, clockTo_stood]

theorem doTick_stood (s : State) :
    (doTick s).stood = s.stood := by
  unfold doTick
  simp only [stood_mk, stood_eta, apply_ite State.stood, ite_self, cyclesTo_stood]

theorem lateDir_stood (m : Nat) (s : State) (d : Dir) :
    (lateDir m s d).stood = s.stood := by
  unfold lateDir
  (try dsimp only); (repeat' split) <;> simp only [stood_mk, stood_eta, raise_stood]

theorem latePort_stood (s : State) (m : Nat) :
    (latePort s m).stood = s.stood := by
  unfold latePort
  simp only [stood_mk, stood_eta, apply_ite State.stood, ite_self, count1_stood, lateDir_stood]

theorem doFrameEnd_stood (s : State) :
    (doFrameEnd s).stood = s.stood := by
  unfold doFrameEnd
  (try dsimp only); (repeat' split) <;>
    simp only [stood_mk, stood_eta, apply_ite State.stood, ite_self, foldl_stood, implies_true, cyclesTo_stood, evFrameEnd_stood, latePort_stood]

theorem rwApply_stood (s : State) :
    (rwApply s).stood = s.stood := by
  unfold rwApply
  (try dsimp only); (repeat' split) <;>
    simp only [stood_mk, stood_eta, apply_ite State.stood, ite_self, foldl_stood, implies_true, regPut_stood]

theorem eraseNow_stood (s : State) :
    (eraseNow s).stood = s.stood := by
  unfold eraseNow
  (try dsimp only); (repeat' split) <;>
    simp only [stood_mk, stood_eta, apply_ite State.stood, ite_self, foldl_stood, implies_true, slotPut_stood]

theorem newlyUnserved_stood (before : State) (s : State) :
    (newlyUnserved before s).stood = s.stood := by
  unfold newlyUnserved
  (try dsimp only); (repeat' split) <;>
    simp only [stood_mk, stood_eta, apply_ite State.stood, ite_self, foldl_stood, implies_true, portEmpty_stood]

theorem watchRestart_stood (s : State) :
    (watchRestart s).stood = s.stood := by
  unfold watchRestart
  first
  | with_reducible rfl
  | ((try dsimp only); repeat' split) <;> (first | (with_reducible rfl) | (simp only [stood_mk, stood_eta, apply_ite State.stood, ite_self]; done) | (simp only [stood_mk, stood_eta, apply_ite State.stood, ite_self, foldl_stood, implies_true]; done) | (simp_all only [stood_mk, stood_eta, apply_ite State.stood, ite_self, foldl_stood, implies_true]; done))

theorem rowWindow_stood (s : State) :
    (rowWindow s).stood = s.stood := by
  unfold rowWindow
  first
  | with_reducible rfl
  | ((try dsimp only); repeat' split) <;> (first | (with_reducible rfl) | (simp only [stood_mk, stood_eta, apply_ite State.stood, ite_self, watchRestart_stood]; done) | (simp only [stood_mk, stood_eta, apply_ite State.stood, ite_self, foldl_stood, implies_true, watchRestart_stood]; done) | (simp_all only [stood_mk, stood_eta, apply_ite State.stood, ite_self, foldl_stood, implies_true, watchRestart_stood]; done))

theorem stallCount_stood (s : State) (p : Nat) :
    (stallCount s p).stood = s.stood := by
  unfold stallCount
  simp only [stood_mk, stood_eta, apply_ite State.stood, ite_self, count1_stood, linkPut_stood]

theorem masterBack_stood (s : State) (n : Nat) :
    (masterBack s n).stood = s.stood := by
  unfold masterBack
  (try dsimp only); (repeat' split) <;> simp only [stood_mk, stood_eta]

theorem statRoll_stood (s : State) :
    (statRoll s).stood = s.stood := by
  unfold statRoll
  (try dsimp only); (repeat' split) <;>
    simp only [stood_mk, stood_eta, apply_ite State.stood, ite_self, foldl_stood, implies_true, snapPut_stood]

theorem superDuties_stood (s : State) :
    (superDuties s).stood = s.stood := by
  unfold superDuties
  simp only [stood_mk, stood_eta, apply_ite State.stood, ite_self, takeFree_stood, snapPut_stood, statRoll_stood]

theorem strobeEnds_stood (s : State) :
    (strobeEnds s).stood = s.stood := by
  unfold strobeEnds
  (try dsimp only); (repeat' split) <;>
    simp only [stood_mk, stood_eta, apply_ite State.stood, ite_self, foldl_stood, implies_true, slotsRestart_stood, stallCount_stood, snapshots_stood, clockTo_stood, doFrameEnd_stood]

theorem strobeSlices_stood (s : State) :
    (strobeSlices s).stood = s.stood := by
  unfold strobeSlices
  simp only [stood_mk, stood_eta, newlyUnserved_stood, slicesStrobe_stood]

theorem strobeJack_stood (s : State) :
    (strobeJack s).stood = s.stood := by
  unfold strobeJack
  simp only [stood_mk, stood_eta, apply_ite State.stood, ite_self, jackClear_stood]

theorem strobeMasters_stood (s : State) :
    (strobeMasters s).stood = s.stood := by
  unfold strobeMasters
  (try dsimp only); (repeat' split) <;>
    simp only [stood_mk, stood_eta, apply_ite State.stood, ite_self, foldl_stood, implies_true, masterBack_stood]

theorem strobeDuties_stood (last : Nat) (s : State) :
    (strobeDuties last s).stood = s.stood := by
  unfold strobeDuties
  simp only [stood_mk, stood_eta, strobeSlices_stood, strobeJack_stood, superDuties_stood, warnGlitchReport_stood, sumsRestart_stood, evClose_stood, nvActs_stood, eraseNow_stood, rwApply_stood, rowWindow_stood, tagWindow_stood, drainPoll_stood, tagMakeRoom_stood, rekeyStrobe_stood, strobeMasters_stood]

theorem frameNext_stood (s : State) :
    (frameNext s).stood = s.stood := by
  unfold frameNext
  simp only [stood_mk, stood_eta]

theorem doFrameStrobe_stood (s : State) :
    (doFrameStrobe s).stood = s.stood := by
  unfold doFrameStrobe
  simp only [stood_mk, stood_eta, apply_ite State.stood, ite_self, strobeDuties_stood, landings_stood, frameNext_stood, strobeEnds_stood]

theorem objVal_stood (staged : Bool) (o : Obj) (idx sub row : Nat) (s : State) :
    (objVal staged o idx sub row s).2.stood = s.stood := by
  unfold objVal
  (try dsimp only); (repeat' split) <;> simp only [stood_mk, stood_eta, takeFree_stood]

theorem objVal_stood_of {staged : Bool} {o : Obj} {idx sub row : Nat} {s : State} {pp} (h : objVal staged o idx sub row s = pp) : pp.2.stood = s.stood := h ▸ objVal_stood staged o idx sub row s

theorem msgSend_stood (eid op : Byte) (k : Nat) (result : Byte) (seq : BitVec 32) (body : List Byte) (s : State) :
    (msgSend eid op k result seq body s).stood = s.stood := by
  unfold msgSend
  (try dsimp only); (repeat' split) <;> simp only [stood_mk, stood_eta]

theorem msgAnswer_stood (h : MsgHdr) (op : Nat) (rc : Byte) (seq : BitVec 32) (body : List Byte) (s : State) :
    (msgAnswer h op rc seq body s).stood = s.stood := by
  unfold msgAnswer
  simp only [stood_mk, stood_eta, apply_ite State.stood, ite_self, count1_stood, msgSend_stood]

theorem subTake_stood (k : Nat) (s : State) : (subTake k s).2.stood = s.stood := by
  unfold subTake
  (try dsimp only); (repeat' split) <;> simp only [stood_mk, stood_eta]

theorem subTake_stood_of {k : Nat} {s : State} {pp} (h : subTake k s = pp) : pp.2.stood = s.stood := h ▸ subTake_stood k s

theorem doEventMessage_stood (k : Nat) (s : State) : (doEventMessage k s).stood = s.stood := by
  unfold doEventMessage
  split
  · rename_i heq; have hk := subTake_stood_of heq; simpa only using hk
  · rename_i heq; have hk := subTake_stood_of heq; simp only at hk; simp only [msgSend_stood, hk]

theorem stageDiscard_stood (s : State) :
    (stageDiscard s).stood = s.stood := by
  unfold stageDiscard
  simp only [stood_mk, stood_eta]

theorem stageBreak_stood (w : Who) (s : State) :
    (stageBreak w s).stood = s.stood := by
  unfold stageBreak
  simp only [stood_mk, stood_eta, stageDiscard_stood, raise_stood]

theorem ownerSeen_stood (w : Who) (s : State) :
    (ownerSeen w s).stood = s.stood := by
  unfold ownerSeen
  simp only [stood_mk, stood_eta, apply_ite State.stood, ite_self]

theorem stageEnter_stood (w : Who) (s t : State) (h : stageEnter w s = .ok t) : t.stood = s.stood := by
  unfold stageEnter at h
  split at h
  · cases h
  · split at h
    · cases h; rfl
    · split at h
      · cases h; simp only [stageBreak_stood]
      · cases h

theorem stageWrite_stood (w : Who) (idx sub row v : Nat) (s : State) : (stageWrite w idx sub row v s).2.stood = s.stood := by
  unfold stageWrite
  split
  · rfl
  · split
    · rfl
    · rename_i heq
      have hk := stageEnter_stood _ _ _ heq
      simp only [stood_mk, stood_eta, hk]

theorem stageWrite_stood_of {w : Who} {idx sub row v : Nat} {s : State} {pp} (h : stageWrite w idx sub row v s = pp) : pp.2.stood = s.stood := h ▸ stageWrite_stood w idx sub row v s

theorem doStageBreakable_stood (s : State) :
    (doStageBreakable s).stood = s.stood := by
  unfold doStageBreakable
  simp only [stood_mk, stood_eta, apply_ite State.stood, ite_self]

theorem commitReply_stood (rc : Byte) (body : List Byte) (s : State) :
    (commitReply rc body s).stood = s.stood := by
  unfold commitReply
  (try dsimp only); (repeat' split) <;> simp only [stood_mk, stood_eta, msgAnswer_stood]

theorem commitAbort_stood (cause : Nat) (obj : Option Nat) (s : State) :
    (commitAbort cause obj s).stood = s.stood := by
  unfold commitAbort
  simp only [stood_mk, stood_eta, raise_stood, commitReply_stood]

theorem commitStart_stood (w : Who) (target : Nat) (s : State) : (commitStart w target s).2.stood = s.stood := by
  unfold commitStart
  split
  · rfl
  · rename_i heq
    have hk := stageEnter_stood _ _ _ heq
    (try dsimp only); (repeat' split) <;> simp only [stood_mk, stood_eta, commitAbort_stood, hk]

theorem commitStart_stood_of {w : Who} {target : Nat} {s : State} {pp} (h : commitStart w target s = pp) : pp.2.stood = s.stood := h ▸ commitStart_stood w target s

theorem commitCancel_stood (w : Who) (force : Bool) (s : State) :
    (commitCancel w force s).2.stood = s.stood := by
  unfold commitCancel
  (try dsimp only); (repeat' split) <;> simp only [stood_mk, stood_eta, stageDiscard_stood, commitAbort_stood]

theorem commitCancel_stood_of {w : Who} {force : Bool} {s : State} {pp} (h : commitCancel w force s = pp) : pp.2.stood = s.stood := h ▸ commitCancel_stood w force s

theorem entryAsk_stood (s : State) : (entryAsk s).stood = s.stood := by
  unfold entryAsk
  exact foldl_stood _ (fun s k => by (try dsimp only); (repeat' split) <;> simp only [nvPush_stood, stood_mk, stood_eta]) _ _

theorem doCommitPrepared_stood (s : State) :
    (doCommitPrepared s).stood = s.stood := by
  unfold doCommitPrepared
  simp only [stood_mk, stood_eta, apply_ite State.stood, ite_self, entryAsk_stood]

theorem sampleDefer_stood (s : State) :
    (sampleDefer s).stood = s.stood := by
  unfold sampleDefer
  first
  | with_reducible rfl
  | ((try dsimp only); repeat' split) <;> (first | (with_reducible rfl) | (simp only [stood_mk, stood_eta, apply_ite State.stood, ite_self, commitAbort_stood]; done) | (simp only [stood_mk, stood_eta, apply_ite State.stood, ite_self, foldl_stood, implies_true, commitAbort_stood]; done) | (simp_all only [stood_mk, stood_eta, apply_ite State.stood, ite_self, foldl_stood, implies_true, commitAbort_stood]; done))

theorem commitSample_stood (s : State) :
    (commitSample s).stood = s.stood := by
  unfold commitSample
  (try dsimp only); (repeat' split) <;> simp only [stood_mk, stood_eta, commitAbort_stood, sampleDefer_stood]

theorem doCommitSample_stood (s : State) :
    (doCommitSample s).stood = s.stood := by
  unfold doCommitSample
  simp only [stood_mk, stood_eta, apply_ite State.stood, ite_self, cyclesTo_stood, commitSample_stood, entryAsk_stood]

theorem doCommitDeferLimit_stood (s : State) :
    (doCommitDeferLimit s).stood = s.stood := by
  unfold doCommitDeferLimit
  simp only [stood_mk, stood_eta, apply_ite State.stood, ite_self, commitAbort_stood, cyclesTo_stood]

theorem sampleUndo_stood (s : State) :
    (sampleUndo s).stood = s.stood := by
  unfold sampleUndo
  first
  | with_reducible rfl
  | ((try dsimp only); repeat' split) <;> (first | (with_reducible rfl) | (simp only [stood_mk, stood_eta, apply_ite State.stood, ite_self, sampleDefer_stood]; done) | (simp only [stood_mk, stood_eta, apply_ite State.stood, ite_self, foldl_stood, implies_true, sampleDefer_stood]; done) | (simp_all only [stood_mk, stood_eta, apply_ite State.stood, ite_self, foldl_stood, implies_true, sampleDefer_stood]; done))

theorem stagePut_stood (s : State) :
    (stagePut s).stood = s.stood := by
  unfold stagePut
  (try dsimp only); (repeat' split) <;>
    simp only [stood_mk, stood_eta, apply_ite State.stood, ite_self, foldl_stood, implies_true, cfgPut_stood]

theorem linkGens_stood (old new : Nat) (s : State) :
    (linkGens old new s).stood = s.stood := by
  unfold linkGens
  (try dsimp only); (repeat' split) <;>
    simp only [stood_mk, stood_eta, apply_ite State.stood, ite_self, foldl_stood, implies_true, regPut_stood]

theorem growMark_stood (k : Nat) (s : State) (g : Extent × Option Nat) :
    (growMark k s g).stood = s.stood := by
  unfold growMark
  (try dsimp only); (repeat' split) <;> simp only [stood_mk, stood_eta, regPut_stood, rkEnqueue_stood, ctxPut_stood]

theorem growSlotMarks_stood (s : State) (g : Nat × List (Extent × Option Nat)) :
    (growSlotMarks s g).stood = s.stood := by
  unfold growSlotMarks
  (try dsimp only); (repeat' split) <;>
    simp only [stood_mk, stood_eta, apply_ite State.stood, ite_self, foldl_stood, implies_true, growMark_stood]

theorem restoreMark_stood (s : State) (row : Nat) :
    (restoreMark s row).stood = s.stood := by
  unfold restoreMark
  simp only [stood_mk, stood_eta, regPut_stood]

theorem windowNote_stood (old : Nat) (s : State) :
    (windowNote old s).stood = s.stood := by
  unfold windowNote
  first
  | with_reducible rfl
  | ((try dsimp only); repeat' split) <;> (first | (with_reducible rfl) | (simp only [stood_mk, stood_eta, apply_ite State.stood, ite_self]; done) | (simp only [stood_mk, stood_eta, apply_ite State.stood, ite_self, foldl_stood, implies_true]; done) | (simp_all only [stood_mk, stood_eta, apply_ite State.stood, ite_self, foldl_stood, implies_true]; done))

theorem applyNote_stood (s : State) :
    (applyNote s).stood = s.stood := by
  unfold applyNote
  simp only [stood_mk, stood_eta, raise_stood]

theorem commitApply_stood (s : State) :
    (commitApply s).stood = s.stood := by
  unfold commitApply
  (try dsimp only); (repeat' split) <;>
    simp only [stood_mk, stood_eta, apply_ite State.stood, ite_self, foldl_stood, implies_true, windowNote_stood, stagePut_stood, jackClear_stood, restoreMark_stood, growSlotMarks_stood, regPut_stood, linkGens_stood, applyNote_stood, modeSend_stood, imageStart_stood, creditRaiseAll_stood, rkSchedule_stood, commitReply_stood]

theorem doCommitApply_stood (s : State) :
    (doCommitApply s).stood = s.stood := by
  unfold doCommitApply
  simp only [stood_mk, stood_eta, apply_ite State.stood, ite_self, commitApply_stood]

theorem doCopyBackDone_stood (u : Nat) (s : State) :
    (doCopyBackDone u s).stood = s.stood := by
  unfold doCopyBackDone
  simp only [stood_mk, stood_eta]

theorem doDigestRefreshDone_stood (err : BitVec 256) (s : State) :
    (doDigestRefreshDone err s).stood = s.stood := by
  unfold doDigestRefreshDone
  simp only [stood_mk, stood_eta, apply_ite State.stood, ite_self, raise_stood]

theorem digestBlank_stood (s : State) :
    (digestBlank s).stood = s.stood := by
  unfold digestBlank
  simp only [stood_mk, stood_eta]

theorem imageApply_stood (gen : Nat) (l : List (Nat × Nat)) (s : State) :
    (imageApply gen l s).stood = s.stood := by
  unfold imageApply
  (try dsimp only); (repeat' split) <;>
    simp only [stood_mk, stood_eta, apply_ite State.stood, ite_self, foldl_stood, implies_true, windowNote_stood, cfgPut_stood, regPut_stood, applyNote_stood, modeSend_stood]

theorem doStartupImageApply_stood (s : State) :
    (doStartupImageApply s).stood = s.stood := by
  unfold doStartupImageApply
  (try dsimp only); (repeat' split) <;> simp only [stood_mk, stood_eta, digestBlank_stood, imageApply_stood]

theorem slotCmd_stood (kidx v : Nat) (s : State) :
    (slotCmd kidx v s).2.stood = s.stood := by
  unfold slotCmd
  (try dsimp only); (repeat' split) <;> simp only [stood_mk, stood_eta, slotActivate_stood, slotDiscard_stood, slotRetire_stood]

theorem slotCmd_stood_of {kidx v : Nat} {s : State} {pp} (h : slotCmd kidx v s = pp) : pp.2.stood = s.stood := h ▸ slotCmd_stood kidx v s

theorem rekeyReqCmd_stood (kidx : Nat) (s : State) :
    (rekeyReqCmd kidx s).2.stood = s.stood := by
  unfold rekeyReqCmd
  (try dsimp only); (repeat' split) <;> simp only [stood_mk, stood_eta, rkSchedule_stood, nextGenCause_stood]

theorem rekeyReqCmd_stood_of {kidx : Nat} {s : State} {pp} (h : rekeyReqCmd kidx s = pp) : pp.2.stood = s.stood := h ▸ rekeyReqCmd_stood kidx s

theorem prefillStart_stood (s : State) :
    (prefillStart s).stood = s.stood := by
  unfold prefillStart
  simp only [stood_mk, stood_eta]

theorem linkResetCmd_stood (p : Nat) (s : State) :
    (linkResetCmd p s).stood = s.stood := by
  unfold linkResetCmd
  simp only [stood_mk, stood_eta, apply_ite State.stood, ite_self, linkDown_stood]

theorem mpFlushCmd_stood (m : Nat) (s : State) :
    (mpFlushCmd m s).stood = s.stood := by
  unfold mpFlushCmd
  simp only [stood_mk, stood_eta, apply_ite State.stood, ite_self, mediaPut_stood]

theorem masterResetCmd_stood (v : Nat) (s : State) :
    (masterResetCmd v s).stood = s.stood := by
  unfold masterResetCmd
  (try dsimp only); (repeat' split) <;>
    simp only [stood_mk, stood_eta, apply_ite State.stood, ite_self, foldl_stood, implies_true, masterBack_stood]

theorem cmdWrite_stood (w : Who) (idx sub row v : Nat) (s : State) :
    (cmdWrite w idx sub row v s).2.stood = s.stood := by
  unfold cmdWrite
  (try dsimp only); (repeat' split) <;> simp only [stood_mk, stood_eta, tagFlush_stood, prefillStart_stood, commitStart_stood, commitCancel_stood, recorderClear_stood, linkResetCmd_stood, mpFlushCmd_stood, slotCmd_stood, rekeyReqCmd_stood, masterResetCmd_stood]

theorem cmdWrite_stood_of {w : Who} {idx sub row v : Nat} {s : State} {pp} (h : cmdWrite w idx sub row v s = pp) : pp.2.stood = s.stood := h ▸ cmdWrite_stood w idx sub row v s

theorem rwWrite_stood (idx sub row v : Nat) (s : State) :
    (rwWrite idx sub row v s).2.stood = s.stood := by
  unfold rwWrite
  (try dsimp only); (repeat' split) <;> simp only [stood_mk, stood_eta, iqFlushSet_stood, regPut_stood]

theorem rwWrite_stood_of {idx sub row v : Nat} {s : State} {pp} (h : rwWrite idx sub row v s = pp) : pp.2.stood = s.stood := h ▸ rwWrite_stood idx sub row v s

theorem alertAckWrite_stood (v : Nat) (s : State) :
    (alertAckWrite v s).stood = s.stood := by
  unfold alertAckWrite
  simp only [stood_mk, stood_eta, regPut_stood]

theorem objWrite_stood (w : Who) (o : Obj) (idx sub row v : Nat) (s : State) :
    (objWrite w o idx sub row v s).2.stood = s.stood := by
  unfold objWrite
  (try dsimp only); (repeat' split) <;> simp only [stood_mk, stood_eta, stageWrite_stood, rwWrite_stood, cmdWrite_stood, alertAckWrite_stood]

theorem objWrite_stood_of {w : Who} {o : Obj} {idx sub row v : Nat} {s : State} {pp} (h : objWrite w o idx sub row v s = pp) : pp.2.stood = s.stood := h ▸ objWrite_stood w o idx sub row v s

theorem dictWrite_stood (w : Who) (idx sub row v : Nat) (s : State) :
    (dictWrite w idx sub row v s).2.stood = s.stood := by
  unfold dictWrite
  (try dsimp only); (repeat' split) <;> simp only [stood_mk, stood_eta, objWrite_stood]

theorem dictWrite_stood_of {w : Who} {idx sub row v : Nat} {s : State} {pp} (h : dictWrite w idx sub row v s = pp) : pp.2.stood = s.stood := h ▸ dictWrite_stood w idx sub row v s

theorem rowRead_stood (staged : Bool) (idx row : Nat) (l : List (Nat × Obj)) (s : State) :
    (rowRead staged idx row l s).2.stood = s.stood := by
  induction l generalizing s with
  | nil => rfl
  | cons e t ih =>
    unfold rowRead
    exact (ih _).trans (objVal_stood _ _ _ _ _ _)

theorem rowRead_stood_of {staged : Bool} {idx row : Nat} {l : List (Nat × Obj)} {s : State} {pp}
    (h : rowRead staged idx row l s = pp) : pp.2.stood = s.stood := h ▸ rowRead_stood staged idx row l s

theorem rowWrite_stood (w : Who) (idx row : Nat) (l : List (Nat × Obj)) (bs : List Byte) (s : State) :
    (rowWrite w idx row l bs s).2.stood = s.stood := by
  induction l generalizing bs s with
  | nil => rfl
  | cons e t ih =>
    unfold rowWrite
    split
    rename_i heq
    have hk := objWrite_stood_of heq
    simp only at hk
    split
    · rw [ih, hk]
    · exact hk

theorem rowWriteWhole_stood (w : Who) (idx row : Nat) (l : List (Nat × Obj)) (bs : List Byte) (s : State) :
    (rowWriteWhole w idx row l bs s).2.stood = s.stood := by
  unfold rowWriteWhole
  split
  rename_i heq
  have hk := congrArg (fun p => p.2.stood) heq
  simp only [rowWrite_stood] at hk
  dsimp only
  split
  · exact hk.symm
  · rfl

theorem rowWriteWhole_stood_of {w : Who} {idx row : Nat} {l : List (Nat × Obj)} {bs : List Byte} {s : State} {pp} (h : rowWriteWhole w idx row l bs s = pp) : pp.2.stood = s.stood := h ▸ rowWriteWhole_stood w idx row l bs s

theorem msgDrop_stood (mki reason : Nat) (s : State) :
    (msgDrop mki reason s).stood = s.stood := by
  unfold msgDrop
  simp only [stood_mk, stood_eta, count1_stood, sumSet_stood]

theorem seqTake_stood (k : Nat) (q : BitVec 32) (s : State) :
    (seqTake k q s).stood = s.stood := by
  unfold seqTake
  simp only [stood_mk, stood_eta]

theorem msgReceive_stood (op : Nat) (h : MsgHdr) (body : List Byte) (go : State → State) (s : State)
    (hgo : ∀ s, (go s).stood = s.stood) : (msgReceive op h body go s).stood = s.stood := by
  unfold msgReceive
  (try dsimp only); (repeat' split) <;> simp only [hgo, msgDrop_stood, msgAnswer_stood, ownerSeen_stood, seqTake_stood]

theorem msgResult_stood (h : MsgHdr) (op : Nat) (rc : Byte) (s : State) :
    (msgResult h op rc s).stood = s.stood := by
  unfold msgResult
  simp only [stood_mk, stood_eta, msgAnswer_stood]

theorem readBody_stood (h : MsgHdr) (body : List Byte) (s : State) :
    (readBody h body s).stood = s.stood := by
  unfold readBody
  (try dsimp only); (repeat' split) <;> simp only [stood_mk, stood_eta, msgResult_stood, objVal_stood, msgAnswer_stood]

theorem doRead_stood (h : MsgHdr) (body : List Byte) (s : State) :
    (doRead h body s).stood = s.stood := by
  unfold doRead
  (try dsimp only); (repeat' split) <;>
    simp only [stood_mk, stood_eta, apply_ite State.stood, ite_self, foldl_stood, implies_true, msgReceive_stood, readBody_stood]

theorem writeBody_stood (h : MsgHdr) (body : List Byte) (s : State) :
    (writeBody h body s).stood = s.stood := by
  unfold writeBody
  (try dsimp only); (repeat' split) <;> simp only [stood_mk, stood_eta, msgResult_stood, objWrite_stood]

theorem doWrite_stood (h : MsgHdr) (body : List Byte) (s : State) :
    (doWrite h body s).stood = s.stood := by
  unfold doWrite
  (try dsimp only); (repeat' split) <;>
    simp only [stood_mk, stood_eta, apply_ite State.stood, ite_self, foldl_stood, implies_true, msgReceive_stood, writeBody_stood]

theorem readRowBody_stood (h : MsgHdr) (body : List Byte) (s : State) : (readRowBody h body s).stood = s.stood := by
  unfold readRowBody
  (try dsimp only); repeat' split
  all_goals simp only [msgResult_stood, msgAnswer_stood, rowRead_stood]

theorem doReadRow_stood (h : MsgHdr) (body : List Byte) (s : State) :
    (doReadRow h body s).stood = s.stood := by
  unfold doReadRow
  (try dsimp only); (repeat' split) <;>
    simp only [stood_mk, stood_eta, apply_ite State.stood, ite_self, foldl_stood, implies_true, msgReceive_stood, readRowBody_stood]

theorem writeRowBody_stood (h : MsgHdr) (body : List Byte) (s : State) :
    (writeRowBody h body s).stood = s.stood := by
  unfold writeRowBody
  (try dsimp only); (repeat' split) <;> simp only [stood_mk, stood_eta, msgResult_stood, rowWriteWhole_stood]

theorem doWriteRow_stood (h : MsgHdr) (body : List Byte) (s : State) :
    (doWriteRow h body s).stood = s.stood := by
  unfold doWriteRow
  (try dsimp only); (repeat' split) <;>
    simp only [stood_mk, stood_eta, apply_ite State.stood, ite_self, foldl_stood, implies_true, msgReceive_stood, writeRowBody_stood]

theorem commitBody_stood (h : MsgHdr) (body : List Byte) (s : State) :
    (commitBody h body s).stood = s.stood := by
  unfold commitBody
  simp only [stood_mk, stood_eta, apply_ite State.stood, ite_self, msgResult_stood, commitStart_stood, msgAnswer_stood]

theorem doCommit_stood (h : MsgHdr) (body : List Byte) (s : State) :
    (doCommit h body s).stood = s.stood := by
  unfold doCommit
  (try dsimp only); (repeat' split) <;>
    simp only [stood_mk, stood_eta, apply_ite State.stood, ite_self, foldl_stood, implies_true, msgReceive_stood, commitBody_stood]

theorem abortMsg_stood (h : MsgHdr) (body : List Byte) (s : State) :
    (abortMsg h body s).stood = s.stood := by
  unfold abortMsg
  simp only [stood_mk, stood_eta, apply_ite State.stood, ite_self, msgResult_stood, commitCancel_stood]

theorem doAbort_stood (h : MsgHdr) (body : List Byte) (s : State) :
    (doAbort h body s).stood = s.stood := by
  unfold doAbort
  (try dsimp only); (repeat' split) <;>
    simp only [stood_mk, stood_eta, apply_ite State.stood, ite_self, foldl_stood, implies_true, msgReceive_stood, abortMsg_stood]

theorem subscribeBody_stood (h : MsgHdr) (body : List Byte) (s : State) :
    (subscribeBody h body s).stood = s.stood := by
  unfold subscribeBody
  simp only [stood_mk, stood_eta, apply_ite State.stood, ite_self, msgResult_stood]

theorem doSubscribe_stood (h : MsgHdr) (body : List Byte) (s : State) :
    (doSubscribe h body s).stood = s.stood := by
  unfold doSubscribe
  (try dsimp only); (repeat' split) <;>
    simp only [stood_mk, stood_eta, apply_ite State.stood, ite_self, foldl_stood, implies_true, msgReceive_stood, subscribeBody_stood]

theorem winPut_stood (dbg : Bool) (x : WinClass) (s : State) :
    (winPut dbg x s).stood = s.stood := by
  unfold winPut
  simp only [stood_mk, stood_eta, apply_ite State.stood, ite_self]

theorem winAck_stood (err : Bool) (v : Nat) (s : State) :
    (winAck err v s).stood = s.stood := by
  unfold winAck
  simp only [stood_mk, stood_eta]

theorem winRefuse_stood (dbg : Bool) (addr : Nat) (rc : Byte) (s : State) :
    (winRefuse dbg addr rc s).stood = s.stood := by
  unfold winRefuse
  simp only [stood_mk, stood_eta, winAck_stood, winPut_stood]

theorem winDone_stood (dbg : Bool) (addr : Nat) (r : Byte × State) : (winDone dbg addr r).stood = r.2.stood := by
  unfold winDone
  split <;> simp only [winAck_stood, winRefuse_stood]

theorem rowSelWrite_stood (dbg : Bool) (idx sub v : Nat) (s : State) :
    (rowSelWrite dbg idx sub v s).2.stood = s.stood := by
  unfold rowSelWrite
  (try dsimp only); (repeat' split) <;> simp only [stood_mk, stood_eta, winPut_stood]

theorem rowSelWrite_stood_of {dbg : Bool} {idx sub v : Nat} {s : State} {pp} (h : rowSelWrite dbg idx sub v s = pp) : pp.2.stood = s.stood := h ▸ rowSelWrite_stood dbg idx sub v s

theorem winRegWrite_stood (dbg : Bool) (sub v : Nat) (s : State) :
    (winRegWrite dbg sub v s).2.stood = s.stood := by
  unfold winRegWrite
  (try dsimp only); (repeat' split) <;> simp only [stood_mk, stood_eta, winPut_stood]

theorem winRegWrite_stood_of {dbg : Bool} {sub v : Nat} {s : State} {pp} (h : winRegWrite dbg sub v s = pp) : pp.2.stood = s.stood := h ▸ winRegWrite_stood dbg sub v s

theorem winWrite_stood (dbg : Bool) (addr v : Nat) (s : State) :
    (winWrite dbg addr v s).2.stood = s.stood := by
  unfold winWrite
  (try dsimp only); (repeat' split) <;> simp only [stood_mk, stood_eta, rowSelWrite_stood, winRegWrite_stood, objWrite_stood]

theorem winWrite_stood_of {dbg : Bool} {addr v : Nat} {s : State} {pp} (h : winWrite dbg addr v s = pp) : pp.2.stood = s.stood := h ▸ winWrite_stood dbg addr v s

theorem winAccess_stood (dbg : Bool) (go : State → State) (s : State)
    (hgo : ∀ s, (go s).stood = s.stood) : (winAccess dbg go s).stood = s.stood := by
  unfold winAccess
  (repeat' split) <;> simp only [hgo, winAck_stood, ownerSeen_stood]

theorem doWindowWrite_stood (a : WinAcc) (v : Nat) (s : State) : (doWindowWrite a v s).stood = s.stood :=
  winAccess_stood _ _ _ (fun s => by split <;> simp only [winRefuse_stood, winDone_stood, winWrite_stood])

theorem winRead_stood (dbg : Bool) (addr : Nat) (s : State) {v n : Nat} {t : State}
    (h : winRead dbg addr s = .ok (v, n, t)) : t.stood = s.stood := by
  unfold winRead at h
  dsimp only at h
  split at h
  · cases h; rfl
  · split at h
    · cases h
    · split at h
      · cases h; rfl
      · cases h
        exact objVal_stood _ _ _ _ _ _

theorem doWideValueRead_stood (a : WinAcc) (s : State) : (doWideValueRead a s).stood = s.stood := by
  refine winAccess_stood _ _ _ (fun s => ?_)
  split
  · simp only [winRefuse_stood]
  · split
    · simp only [winRefuse_stood]
    · rename_i heq; simp only [winAck_stood, winPut_stood, winRead_stood _ _ _ heq]

theorem winCmd_stood (dbg : Bool) (idx sub row v : Nat) (s : State) : (winCmd dbg idx sub row v s).stood = s.stood :=
  winAccess_stood _ _ _ (fun s => by simp only [winDone_stood, dictWrite_stood])

end Sys2Proof.Machine
end

