-- ==== Sys2Proof/Laws/Tab.lean ====
section
/-! SUPPORT. Sparse tables: reading after a write, and the canonical form that every write keeps. -/

namespace Sys2Proof.Machine

variable {α : Type}

/-- A listed value is found where it was set, and the others stand. -/
theorem tabFind_tabSet (t : Tab α) (i : Nat) (v : α) (j : Nat) :
    tabFind (tabSet t i v) j = if j = i then some v else tabFind t j := by
  induction t with
  | nil => simp [tabSet, tabFind]
  | cons e t ih =>
    obtain ⟨k, w⟩ := e
    simp only [tabSet]
    split
    · simp only [tabFind]
    · split
      · subst_vars
        simp only [tabFind]
        split <;> rfl
      · rename_i h1 h2
        simp only [tabFind, ih]
        by_cases hj : j = k
        · subst hj
          rw [if_pos rfl, if_neg (Ne.symm h2), if_pos rfl]
        · rw [if_neg hj, if_neg hj]

/-- A removed value is not found, and the others stand. -/
theorem tabFind_tabDel (t : Tab α) (i j : Nat) :
    tabFind (tabDel t i) j = if j = i then none else tabFind t j := by
  induction t with
  | nil => simp [tabDel, tabFind]
  | cons e t ih =>
    obtain ⟨k, w⟩ := e
    unfold tabDel at ih ⊢
    by_cases hk : k = i
    · subst hk
      rw [List.filter_cons_of_neg (by simp), ih]
      by_cases hj : j = k <;> simp [tabFind, hj]
    · rw [List.filter_cons_of_pos (by simpa using hk)]
      simp only [tabFind, ih]
      by_cases hj : j = k
      · subst hj; rw [if_pos rfl, if_neg hk, if_pos rfl]
      · rw [if_neg hj, if_neg hj]

/-- Reading is finding, with a default. -/
theorem tabGet_eq_find (d : α) (t : Tab α) (i : Nat) : tabGet d t i = (tabFind t i).getD d := by
  induction t with
  | nil => rfl
  | cons e t ih =>
    obtain ⟨k, w⟩ := e
    simp only [tabGet, tabFind]
    split
    · rfl
    · exact ih

/-- Reading after a set. -/
theorem tabGet_tabSet (d : α) (t : Tab α) (i : Nat) (v : α) (j : Nat) :
    tabGet d (tabSet t i v) j = if j = i then v else tabGet d t j := by
  rw [tabGet_eq_find, tabFind_tabSet, tabGet_eq_find]
  split <;> rfl

/-- Reading after a removal. -/
theorem tabGet_tabDel (d : α) (t : Tab α) (i j : Nat) :
    tabGet d (tabDel t i) j = if j = i then d else tabGet d t j := by
  rw [tabGet_eq_find, tabFind_tabDel, tabGet_eq_find]
  split <;> rfl

/-- Reading after a write: the value written, and every other number as before. -/
theorem tabGet_tabPut [DecidableEq α] (d : α) (t : Tab α) (i : Nat) (v : α) (j : Nat) :
    tabGet d (tabPut d t i v) j = if j = i then v else tabGet d t j := by
  unfold tabPut
  split
  · rename_i h
    rw [tabGet_tabDel, h]
  · rw [tabGet_tabSet]

/-- A write leaves every other number alone, whatever default reads it. -/
theorem tabGet_tabPut_ne [DecidableEq α] (d d' : α) (t : Tab α) (i : Nat) (v : α) (j : Nat) (h : j ≠ i) :
    tabGet d' (tabPut d t i v) j = tabGet d' t j := by
  unfold tabPut
  split
  · rw [tabGet_tabDel, if_neg h]
  · rw [tabGet_tabSet, if_neg h]

-- The canonical form

/-- A set keeps the numbers rising. -/
theorem tabRisingFrom_tabSet (lo : Option Nat) (t : Tab α) (i : Nat) (v : α) (h : tabRisingFrom lo t = true)
    (hi : ∀ l, lo = some l → l < i) : tabRisingFrom lo (tabSet t i v) = true := by
  induction t generalizing lo with
  | nil =>
    cases lo with
    | none => simp [tabSet, tabRisingFrom]
    | some l => simpa [tabSet, tabRisingFrom] using hi l rfl
  | cons e t ih =>
    obtain ⟨k, w⟩ := e
    simp only [tabRisingFrom, Bool.and_eq_true] at h
    simp only [tabSet]
    split
    · rename_i hik
      simp only [tabRisingFrom, Bool.and_eq_true, h.2, and_true, decide_eq_true_eq, hik]
      cases lo with
      | none => rfl
      | some l => simpa using hi l rfl
    · split
      · simp only [tabRisingFrom, Bool.and_eq_true]
        exact h
      · rename_i h1 h2
        simp only [tabRisingFrom, Bool.and_eq_true]
        refine ⟨h.1, ih (some k) h.2 ?_⟩
        intro l hl
        cases hl
        omega

/-- A lower bound may be weakened. -/
theorem tabRisingFrom_mono (t : Tab α) (lo : Option Nat) (k : Nat) (h : tabRisingFrom (some k) t = true)
    (hk : ∀ l, lo = some l → l < k) : tabRisingFrom lo t = true := by
  cases t with
  | nil => rfl
  | cons e t =>
    simp only [tabRisingFrom, Bool.and_eq_true, decide_eq_true_eq] at h ⊢
    refine ⟨?_, h.2⟩
    cases lo with
    | none => rfl
    | some l =>
      have := hk l rfl
      simp only [decide_eq_true_eq]
      omega

/-- A removal keeps the numbers rising. -/
theorem tabRisingFrom_tabDel (lo : Option Nat) (t : Tab α) (i : Nat) (h : tabRisingFrom lo t = true) :
    tabRisingFrom lo (tabDel t i) = true := by
  induction t generalizing lo with
  | nil => exact h
  | cons e t ih =>
    obtain ⟨k, w⟩ := e
    unfold tabDel at ih ⊢
    simp only [tabRisingFrom, Bool.and_eq_true] at h
    by_cases hk : k = i
    · rw [List.filter_cons_of_neg (by simpa using hk)]
      refine tabRisingFrom_mono _ _ k (ih (some k) h.2) ?_
      intro l hl
      subst hl
      simpa using h.1
    · rw [List.filter_cons_of_pos (by simpa using hk)]
      simp only [tabRisingFrom, Bool.and_eq_true]
      exact ⟨h.1, ih (some k) h.2⟩

/-- A set value that is not the default lists no default. -/
theorem tabAll_tabSet (p : Nat × α → Bool) (t : Tab α) (i : Nat) (v : α) (h : t.all p = true)
    (hv : ∀ k, p (k, v) = true) : (tabSet t i v).all p = true := by
  induction t with
  | nil => simp [tabSet, hv]
  | cons e t ih =>
    obtain ⟨k, w⟩ := e
    simp only [List.all_cons, Bool.and_eq_true] at h
    simp only [tabSet]
    (repeat' split) <;> simp only [List.all_cons, Bool.and_eq_true]
    · exact ⟨hv _, h⟩
    · exact ⟨hv _, h.2⟩
    · exact ⟨h.1, ih h.2⟩

/-- Every write keeps a table in its canonical form. -/
theorem tabWf_tabPut [DecidableEq α] (d : α) (t : Tab α) (i : Nat) (v : α) (h : tabWf d t = true) :
    tabWf d (tabPut d t i v) = true := by
  unfold tabWf at h ⊢
  simp only [Bool.and_eq_true] at h ⊢
  unfold tabPut
  split
  · refine ⟨tabRisingFrom_tabDel _ _ _ h.1, ?_⟩
    unfold tabDel
    rw [List.all_filter]
    exact List.all_eq_true.2 (fun e he => by
      have := List.all_eq_true.1 h.2 e he
      simp only [this, Bool.or_true])
  · rename_i hv
    exact ⟨tabRisingFrom_tabSet _ _ _ _ h.1 (by intro l hl; cases hl),
      tabAll_tabSet _ _ _ _ h.2 (fun _ => by simpa using hv)⟩

/-- Writing a list of entries keeps the canonical form. -/
theorem tabWf_foldl_tabPut {β : Type} [DecidableEq α] (d : α) (key : β → Nat) (val : β → α) (l : List β) (t : Tab α)
    (h : tabWf d t = true) : tabWf d (l.foldl (fun m e => tabPut d m (key e) (val e)) t) = true := by
  induction l generalizing t with
  | nil => exact h
  | cons e l ih => exact ih _ (tabWf_tabPut d t _ _ h)

/-- The empty table reads as its default. -/
theorem tabGet_nil (d : α) (i : Nat) : tabGet d ([] : Tab α) i = d := rfl

end Sys2Proof.Machine
end

