-- ==== Sys2Proof/Laws/Clock.lean ====
section
/-! SUPPORT. The operations that move the clock or write the NV store, which Kept leaves out, and the invariant as a
property of what Kept and Stood hold. -/

namespace Sys2Proof.Machine

/-- What is kept, part by part. -/
theorem pending_of_kept {s t : State} (h : t.kept = s.kept) : t.pending = s.pending := congrArg (fun k => k.1) h

/-- What is kept, part by part. -/
theorem nv_of_kept {s t : State} (h : t.kept = s.kept) : t.nv = s.nv := congrArg (fun k => k.2.1) h

/-- What is kept, part by part. -/
theorem clk_of_kept {s t : State} (h : t.kept = s.kept) : t.clk = s.clk := congrArg (fun k => k.2.2) h

/-- Withheld slots are counted without touching the kept. -/
theorem busyPorts_kept (n : Nat) (l : List Nat) (s : State) : (l.foldl (busyPort n) s).kept = s.kept :=
  foldl_kept _ (busyPort_kept n) _ _

/-- The clock moves alone among the kept. -/
theorem clockTo_kept (c : Nat) (s : State) :
    (clockTo c s).kept = (s.pending, s.nv, { s.clk with cycle := max c s.clk.cycle }) := by
  unfold clockTo
  dsimp only
  generalize List.range 16 = l
  rw [kept_mk]
  split
  · rfl
  · rw [pending_of_kept (busyPorts_kept _ l s), nv_of_kept (busyPorts_kept _ l s), clk_of_kept (busyPorts_kept _ l s)]

/-- Cycles that pass move the clock alone among the kept. -/
theorem cyclesTo_kept (c : Nat) (s : State) :
    (cyclesTo c s).kept = (s.pending, s.nv, { s.clk with cycle := max c s.clk.cycle }) := by
  unfold cyclesTo
  rw [landings_kept, clockTo_kept]

/-- Cycles that pass move the clock. -/
theorem cyclesTo_clk (c : Nat) (s : State) : (cyclesTo c s).clk = { s.clk with cycle := max c s.clk.cycle } :=
  congrArg (fun k => k.2.2) (cyclesTo_kept c s)

/-- Cycles that pass leave the queue alone. -/
theorem cyclesTo_pending (c : Nat) (s : State) : (cyclesTo c s).pending = s.pending :=
  congrArg (fun k => k.1) (cyclesTo_kept c s)

/-- Cycles that pass leave the NV store alone. -/
theorem cyclesTo_nv (c : Nat) (s : State) : (cyclesTo c s).nv = s.nv := congrArg (fun k => k.2.1) (cyclesTo_kept c s)

/-- FRAME_END moves the clock to cycle 1,023, unless the frame has ended or the clock is stopped, and nothing else of the
kept. -/
theorem doFrameEnd_kept (s : State) :
    (doFrameEnd s).kept = if s.clk.running = false ∨ s.ev.ended = true then s.kept
      else (s.pending, s.nv, { s.clk with cycle := max 1023 s.clk.cycle }) := by
  unfold doFrameEnd
  split
  · rfl
  · rw [evFrameEnd_kept, apply_ite State.kept, foldl_kept _ latePort_kept, ite_self, cyclesTo_kept]

/-- The end of a frame leaves the kept alone but for the clock. -/
theorem strobeEnds_kept (s : State) : (strobeEnds s).kept = (s.pending, s.nv, { s.clk with cycle := max 1024 s.clk.cycle }) := by
  unfold strobeEnds
  rw [foldl_kept _ slotsRestart_kept, foldl_kept _ stallCount_kept, snapshots_kept, clockTo_kept]
  have h := doFrameEnd_kept s
  split at h
  · rw [pending_of_kept h, nv_of_kept h, clk_of_kept h]
  · simp only [State.kept, Prod.mk.injEq] at h
    obtain ⟨hp, hn, hc⟩ := h
    rw [hp, hn, hc]
    simp only [← Nat.max_assoc, Nat.max_eq_left (show 1023 ≤ 1024 by decide)]

/-- The bytes of a page commit keep the NV store's canonical form. -/
theorem nvApply_wf (p : NvPage) (m : List Host.Cell) (h : tabWf 0#8 m = true) : tabWf 0#8 (nvApply p m) = true := by
  unfold nvApply
  exact tabWf_foldl_tabPut 0#8 (fun e : Nat × Byte => p.addr + e.1) (fun e => e.2) p.data m h

/-- The invariant speaks of what Kept and Stood hold, and of nothing else. -/
theorem State.Inv.of_same {s t : State} (hk : t.kept = s.kept) (hs : t.stood = s.stood) (h : s.Inv) : t.Inv := by
  unfold State.kept at hk
  unfold State.stood at hs
  simp only [Prod.mk.injEq] at hk hs
  obtain ⟨-, hn, hc⟩ := hk
  obtain ⟨h1, h2, h3, h4, h5, h6, -⟩ := hs
  exact ⟨hn ▸ h.nvCanonical, hc ▸ h.cycleInFrame, by rw [h2, h4]; exact h.persistOkIsParked,
    by rw [h1, h5]; exact h.pinOeAfterFuses, by rw [h3, h6]; exact h.zeroizedIsErased,
    by rw [hc, h5]; exact h.stoppedIsUnstarted⟩

end Sys2Proof.Machine
end

