-- ==== Sys2Proof/Laws/State.lean ====
section
/-! SUPPORT. The named updates of State field by field: what each leaves alone, and what its own accessor reads after it. -/

namespace Sys2Proof.Machine

@[simp] theorem cfgPut_free (idx sub row v : Nat) (s : State) :
    (cfgPut idx sub row v s).free = s.free := rfl
@[simp] theorem cfgPut_pending (idx sub row v : Nat) (s : State) :
    (cfgPut idx sub row v s).pending = s.pending := rfl
@[simp] theorem cfgPut_clk (idx sub row v : Nat) (s : State) :
    (cfgPut idx sub row v s).clk = s.clk := rfl
@[simp] theorem cfgPut_pins (idx sub row v : Nat) (s : State) :
    (cfgPut idx sub row v s).pins = s.pins := rfl
@[simp] theorem cfgPut_staged (idx sub row v : Nat) (s : State) :
    (cfgPut idx sub row v s).staged = s.staged := rfl
@[simp] theorem cfgPut_regs (idx sub row v : Nat) (s : State) :
    (cfgPut idx sub row v s).regs = s.regs := rfl
@[simp] theorem cfgPut_winL (idx sub row v : Nat) (s : State) :
    (cfgPut idx sub row v s).winL = s.winL := rfl
@[simp] theorem cfgPut_winD (idx sub row v : Nat) (s : State) :
    (cfgPut idx sub row v s).winD = s.winD := rfl
@[simp] theorem cfgPut_winOut (idx sub row v : Nat) (s : State) :
    (cfgPut idx sub row v s).winOut = s.winOut := rfl
@[simp] theorem cfgPut_commit (idx sub row v : Nat) (s : State) :
    (cfgPut idx sub row v s).commit = s.commit := rfl
@[simp] theorem cfgPut_sessions (idx sub row v : Nat) (s : State) :
    (cfgPut idx sub row v s).sessions = s.sessions := rfl
@[simp] theorem cfgPut_mmTx (idx sub row v : Nat) (s : State) :
    (cfgPut idx sub row v s).mmTx = s.mmTx := rfl
@[simp] theorem cfgPut_ev (idx sub row v : Nat) (s : State) :
    (cfgPut idx sub row v s).ev = s.ev := rfl
@[simp] theorem cfgPut_keys (idx sub row v : Nat) (s : State) :
    (cfgPut idx sub row v s).keys = s.keys := rfl
@[simp] theorem cfgPut_nv (idx sub row v : Nat) (s : State) :
    (cfgPut idx sub row v s).nv = s.nv := rfl
@[simp] theorem cfgPut_nvu (idx sub row v : Nat) (s : State) :
    (cfgPut idx sub row v s).nvu = s.nvu := rfl
@[simp] theorem cfgPut_pwr (idx sub row v : Nat) (s : State) :
    (cfgPut idx sub row v s).pwr = s.pwr := rfl
@[simp] theorem cfgPut_rk (idx sub row v : Nat) (s : State) :
    (cfgPut idx sub row v s).rk = s.rk := rfl
@[simp] theorem cfgPut_pool (idx sub row v : Nat) (s : State) :
    (cfgPut idx sub row v s).pool = s.pool := rfl
@[simp] theorem cfgPut_media (idx sub row v : Nat) (s : State) :
    (cfgPut idx sub row v s).media = s.media := rfl
@[simp] theorem cfgPut_mseq (idx sub row v : Nat) (s : State) :
    (cfgPut idx sub row v s).mseq = s.mseq := rfl
@[simp] theorem cfgPut_jack (idx sub row v : Nat) (s : State) :
    (cfgPut idx sub row v s).jack = s.jack := rfl
@[simp] theorem cfgPut_tagc (idx sub row v : Nat) (s : State) :
    (cfgPut idx sub row v s).tagc = s.tagc := rfl
@[simp] theorem cfgPut_links (idx sub row v : Nat) (s : State) :
    (cfgPut idx sub row v s).links = s.links := rfl
@[simp] theorem cfgPut_accts (idx sub row v : Nat) (s : State) :
    (cfgPut idx sub row v s).accts = s.accts := rfl
@[simp] theorem cfgPut_pastAccts (idx sub row v : Nat) (s : State) :
    (cfgPut idx sub row v s).pastAccts = s.pastAccts := rfl
@[simp] theorem cfgPut_rwNext (idx sub row v : Nat) (s : State) :
    (cfgPut idx sub row v s).rwNext = s.rwNext := rfl
@[simp] theorem cfgPut_rep (idx sub row v : Nat) (s : State) :
    (cfgPut idx sub row v s).rep = s.rep := rfl

@[simp] theorem regPut_free (idx sub row v : Nat) (s : State) :
    (regPut idx sub row v s).free = s.free := rfl
@[simp] theorem regPut_pending (idx sub row v : Nat) (s : State) :
    (regPut idx sub row v s).pending = s.pending := rfl
@[simp] theorem regPut_clk (idx sub row v : Nat) (s : State) :
    (regPut idx sub row v s).clk = s.clk := rfl
@[simp] theorem regPut_pins (idx sub row v : Nat) (s : State) :
    (regPut idx sub row v s).pins = s.pins := rfl
@[simp] theorem regPut_cfg (idx sub row v : Nat) (s : State) :
    (regPut idx sub row v s).cfg = s.cfg := rfl
@[simp] theorem regPut_staged (idx sub row v : Nat) (s : State) :
    (regPut idx sub row v s).staged = s.staged := rfl
@[simp] theorem regPut_winL (idx sub row v : Nat) (s : State) :
    (regPut idx sub row v s).winL = s.winL := rfl
@[simp] theorem regPut_winD (idx sub row v : Nat) (s : State) :
    (regPut idx sub row v s).winD = s.winD := rfl
@[simp] theorem regPut_winOut (idx sub row v : Nat) (s : State) :
    (regPut idx sub row v s).winOut = s.winOut := rfl
@[simp] theorem regPut_commit (idx sub row v : Nat) (s : State) :
    (regPut idx sub row v s).commit = s.commit := rfl
@[simp] theorem regPut_sessions (idx sub row v : Nat) (s : State) :
    (regPut idx sub row v s).sessions = s.sessions := rfl
@[simp] theorem regPut_mmTx (idx sub row v : Nat) (s : State) :
    (regPut idx sub row v s).mmTx = s.mmTx := rfl
@[simp] theorem regPut_ev (idx sub row v : Nat) (s : State) :
    (regPut idx sub row v s).ev = s.ev := rfl
@[simp] theorem regPut_keys (idx sub row v : Nat) (s : State) :
    (regPut idx sub row v s).keys = s.keys := rfl
@[simp] theorem regPut_nv (idx sub row v : Nat) (s : State) :
    (regPut idx sub row v s).nv = s.nv := rfl
@[simp] theorem regPut_nvu (idx sub row v : Nat) (s : State) :
    (regPut idx sub row v s).nvu = s.nvu := rfl
@[simp] theorem regPut_pwr (idx sub row v : Nat) (s : State) :
    (regPut idx sub row v s).pwr = s.pwr := rfl
@[simp] theorem regPut_rk (idx sub row v : Nat) (s : State) :
    (regPut idx sub row v s).rk = s.rk := rfl
@[simp] theorem regPut_pool (idx sub row v : Nat) (s : State) :
    (regPut idx sub row v s).pool = s.pool := rfl
@[simp] theorem regPut_media (idx sub row v : Nat) (s : State) :
    (regPut idx sub row v s).media = s.media := rfl
@[simp] theorem regPut_mseq (idx sub row v : Nat) (s : State) :
    (regPut idx sub row v s).mseq = s.mseq := rfl
@[simp] theorem regPut_jack (idx sub row v : Nat) (s : State) :
    (regPut idx sub row v s).jack = s.jack := rfl
@[simp] theorem regPut_tagc (idx sub row v : Nat) (s : State) :
    (regPut idx sub row v s).tagc = s.tagc := rfl
@[simp] theorem regPut_links (idx sub row v : Nat) (s : State) :
    (regPut idx sub row v s).links = s.links := rfl
@[simp] theorem regPut_accts (idx sub row v : Nat) (s : State) :
    (regPut idx sub row v s).accts = s.accts := rfl
@[simp] theorem regPut_pastAccts (idx sub row v : Nat) (s : State) :
    (regPut idx sub row v s).pastAccts = s.pastAccts := rfl
@[simp] theorem regPut_rwNext (idx sub row v : Nat) (s : State) :
    (regPut idx sub row v s).rwNext = s.rwNext := rfl
@[simp] theorem regPut_rep (idx sub row v : Nat) (s : State) :
    (regPut idx sub row v s).rep = s.rep := rfl

@[simp] theorem snapPut_free (idx sub row v : Nat) (s : State) :
    (snapPut idx sub row v s).free = s.free := rfl
@[simp] theorem snapPut_pending (idx sub row v : Nat) (s : State) :
    (snapPut idx sub row v s).pending = s.pending := rfl
@[simp] theorem snapPut_clk (idx sub row v : Nat) (s : State) :
    (snapPut idx sub row v s).clk = s.clk := rfl
@[simp] theorem snapPut_pins (idx sub row v : Nat) (s : State) :
    (snapPut idx sub row v s).pins = s.pins := rfl
@[simp] theorem snapPut_cfg (idx sub row v : Nat) (s : State) :
    (snapPut idx sub row v s).cfg = s.cfg := rfl
@[simp] theorem snapPut_staged (idx sub row v : Nat) (s : State) :
    (snapPut idx sub row v s).staged = s.staged := rfl
@[simp] theorem snapPut_winL (idx sub row v : Nat) (s : State) :
    (snapPut idx sub row v s).winL = s.winL := rfl
@[simp] theorem snapPut_winD (idx sub row v : Nat) (s : State) :
    (snapPut idx sub row v s).winD = s.winD := rfl
@[simp] theorem snapPut_winOut (idx sub row v : Nat) (s : State) :
    (snapPut idx sub row v s).winOut = s.winOut := rfl
@[simp] theorem snapPut_commit (idx sub row v : Nat) (s : State) :
    (snapPut idx sub row v s).commit = s.commit := rfl
@[simp] theorem snapPut_sessions (idx sub row v : Nat) (s : State) :
    (snapPut idx sub row v s).sessions = s.sessions := rfl
@[simp] theorem snapPut_mmTx (idx sub row v : Nat) (s : State) :
    (snapPut idx sub row v s).mmTx = s.mmTx := rfl
@[simp] theorem snapPut_ev (idx sub row v : Nat) (s : State) :
    (snapPut idx sub row v s).ev = s.ev := rfl
@[simp] theorem snapPut_keys (idx sub row v : Nat) (s : State) :
    (snapPut idx sub row v s).keys = s.keys := rfl
@[simp] theorem snapPut_nv (idx sub row v : Nat) (s : State) :
    (snapPut idx sub row v s).nv = s.nv := rfl
@[simp] theorem snapPut_nvu (idx sub row v : Nat) (s : State) :
    (snapPut idx sub row v s).nvu = s.nvu := rfl
@[simp] theorem snapPut_pwr (idx sub row v : Nat) (s : State) :
    (snapPut idx sub row v s).pwr = s.pwr := rfl
@[simp] theorem snapPut_rk (idx sub row v : Nat) (s : State) :
    (snapPut idx sub row v s).rk = s.rk := rfl
@[simp] theorem snapPut_pool (idx sub row v : Nat) (s : State) :
    (snapPut idx sub row v s).pool = s.pool := rfl
@[simp] theorem snapPut_media (idx sub row v : Nat) (s : State) :
    (snapPut idx sub row v s).media = s.media := rfl
@[simp] theorem snapPut_mseq (idx sub row v : Nat) (s : State) :
    (snapPut idx sub row v s).mseq = s.mseq := rfl
@[simp] theorem snapPut_jack (idx sub row v : Nat) (s : State) :
    (snapPut idx sub row v s).jack = s.jack := rfl
@[simp] theorem snapPut_tagc (idx sub row v : Nat) (s : State) :
    (snapPut idx sub row v s).tagc = s.tagc := rfl
@[simp] theorem snapPut_links (idx sub row v : Nat) (s : State) :
    (snapPut idx sub row v s).links = s.links := rfl
@[simp] theorem snapPut_accts (idx sub row v : Nat) (s : State) :
    (snapPut idx sub row v s).accts = s.accts := rfl
@[simp] theorem snapPut_pastAccts (idx sub row v : Nat) (s : State) :
    (snapPut idx sub row v s).pastAccts = s.pastAccts := rfl
@[simp] theorem snapPut_rwNext (idx sub row v : Nat) (s : State) :
    (snapPut idx sub row v s).rwNext = s.rwNext := rfl
@[simp] theorem snapPut_rep (idx sub row v : Nat) (s : State) :
    (snapPut idx sub row v s).rep = s.rep := rfl

@[simp] theorem slotPut_free (kidx : Nat) (x : Slot) (s : State) :
    (slotPut kidx x s).free = s.free := rfl
@[simp] theorem slotPut_pending (kidx : Nat) (x : Slot) (s : State) :
    (slotPut kidx x s).pending = s.pending := rfl
@[simp] theorem slotPut_clk (kidx : Nat) (x : Slot) (s : State) :
    (slotPut kidx x s).clk = s.clk := rfl
@[simp] theorem slotPut_pins (kidx : Nat) (x : Slot) (s : State) :
    (slotPut kidx x s).pins = s.pins := rfl
@[simp] theorem slotPut_cfg (kidx : Nat) (x : Slot) (s : State) :
    (slotPut kidx x s).cfg = s.cfg := rfl
@[simp] theorem slotPut_staged (kidx : Nat) (x : Slot) (s : State) :
    (slotPut kidx x s).staged = s.staged := rfl
@[simp] theorem slotPut_regs (kidx : Nat) (x : Slot) (s : State) :
    (slotPut kidx x s).regs = s.regs := rfl
@[simp] theorem slotPut_winL (kidx : Nat) (x : Slot) (s : State) :
    (slotPut kidx x s).winL = s.winL := rfl
@[simp] theorem slotPut_winD (kidx : Nat) (x : Slot) (s : State) :
    (slotPut kidx x s).winD = s.winD := rfl
@[simp] theorem slotPut_winOut (kidx : Nat) (x : Slot) (s : State) :
    (slotPut kidx x s).winOut = s.winOut := rfl
@[simp] theorem slotPut_commit (kidx : Nat) (x : Slot) (s : State) :
    (slotPut kidx x s).commit = s.commit := rfl
@[simp] theorem slotPut_sessions (kidx : Nat) (x : Slot) (s : State) :
    (slotPut kidx x s).sessions = s.sessions := rfl
@[simp] theorem slotPut_mmTx (kidx : Nat) (x : Slot) (s : State) :
    (slotPut kidx x s).mmTx = s.mmTx := rfl
@[simp] theorem slotPut_ev (kidx : Nat) (x : Slot) (s : State) :
    (slotPut kidx x s).ev = s.ev := rfl
@[simp] theorem slotPut_nv (kidx : Nat) (x : Slot) (s : State) :
    (slotPut kidx x s).nv = s.nv := rfl
@[simp] theorem slotPut_nvu (kidx : Nat) (x : Slot) (s : State) :
    (slotPut kidx x s).nvu = s.nvu := rfl
@[simp] theorem slotPut_pwr (kidx : Nat) (x : Slot) (s : State) :
    (slotPut kidx x s).pwr = s.pwr := rfl
@[simp] theorem slotPut_rk (kidx : Nat) (x : Slot) (s : State) :
    (slotPut kidx x s).rk = s.rk := rfl
@[simp] theorem slotPut_pool (kidx : Nat) (x : Slot) (s : State) :
    (slotPut kidx x s).pool = s.pool := rfl
@[simp] theorem slotPut_media (kidx : Nat) (x : Slot) (s : State) :
    (slotPut kidx x s).media = s.media := rfl
@[simp] theorem slotPut_mseq (kidx : Nat) (x : Slot) (s : State) :
    (slotPut kidx x s).mseq = s.mseq := rfl
@[simp] theorem slotPut_jack (kidx : Nat) (x : Slot) (s : State) :
    (slotPut kidx x s).jack = s.jack := rfl
@[simp] theorem slotPut_tagc (kidx : Nat) (x : Slot) (s : State) :
    (slotPut kidx x s).tagc = s.tagc := rfl
@[simp] theorem slotPut_links (kidx : Nat) (x : Slot) (s : State) :
    (slotPut kidx x s).links = s.links := rfl
@[simp] theorem slotPut_accts (kidx : Nat) (x : Slot) (s : State) :
    (slotPut kidx x s).accts = s.accts := rfl
@[simp] theorem slotPut_pastAccts (kidx : Nat) (x : Slot) (s : State) :
    (slotPut kidx x s).pastAccts = s.pastAccts := rfl
@[simp] theorem slotPut_rwNext (kidx : Nat) (x : Slot) (s : State) :
    (slotPut kidx x s).rwNext = s.rwNext := rfl
@[simp] theorem slotPut_rep (kidx : Nat) (x : Slot) (s : State) :
    (slotPut kidx x s).rep = s.rep := rfl

@[simp] theorem ctxPut_free (c : Nat) (x : Ctx) (s : State) :
    (ctxPut c x s).free = s.free := rfl
@[simp] theorem ctxPut_pending (c : Nat) (x : Ctx) (s : State) :
    (ctxPut c x s).pending = s.pending := rfl
@[simp] theorem ctxPut_clk (c : Nat) (x : Ctx) (s : State) :
    (ctxPut c x s).clk = s.clk := rfl
@[simp] theorem ctxPut_pins (c : Nat) (x : Ctx) (s : State) :
    (ctxPut c x s).pins = s.pins := rfl
@[simp] theorem ctxPut_cfg (c : Nat) (x : Ctx) (s : State) :
    (ctxPut c x s).cfg = s.cfg := rfl
@[simp] theorem ctxPut_staged (c : Nat) (x : Ctx) (s : State) :
    (ctxPut c x s).staged = s.staged := rfl
@[simp] theorem ctxPut_regs (c : Nat) (x : Ctx) (s : State) :
    (ctxPut c x s).regs = s.regs := rfl
@[simp] theorem ctxPut_winL (c : Nat) (x : Ctx) (s : State) :
    (ctxPut c x s).winL = s.winL := rfl
@[simp] theorem ctxPut_winD (c : Nat) (x : Ctx) (s : State) :
    (ctxPut c x s).winD = s.winD := rfl
@[simp] theorem ctxPut_winOut (c : Nat) (x : Ctx) (s : State) :
    (ctxPut c x s).winOut = s.winOut := rfl
@[simp] theorem ctxPut_commit (c : Nat) (x : Ctx) (s : State) :
    (ctxPut c x s).commit = s.commit := rfl
@[simp] theorem ctxPut_sessions (c : Nat) (x : Ctx) (s : State) :
    (ctxPut c x s).sessions = s.sessions := rfl
@[simp] theorem ctxPut_mmTx (c : Nat) (x : Ctx) (s : State) :
    (ctxPut c x s).mmTx = s.mmTx := rfl
@[simp] theorem ctxPut_ev (c : Nat) (x : Ctx) (s : State) :
    (ctxPut c x s).ev = s.ev := rfl
@[simp] theorem ctxPut_keys (c : Nat) (x : Ctx) (s : State) :
    (ctxPut c x s).keys = s.keys := rfl
@[simp] theorem ctxPut_nv (c : Nat) (x : Ctx) (s : State) :
    (ctxPut c x s).nv = s.nv := rfl
@[simp] theorem ctxPut_nvu (c : Nat) (x : Ctx) (s : State) :
    (ctxPut c x s).nvu = s.nvu := rfl
@[simp] theorem ctxPut_pwr (c : Nat) (x : Ctx) (s : State) :
    (ctxPut c x s).pwr = s.pwr := rfl
@[simp] theorem ctxPut_pool (c : Nat) (x : Ctx) (s : State) :
    (ctxPut c x s).pool = s.pool := rfl
@[simp] theorem ctxPut_media (c : Nat) (x : Ctx) (s : State) :
    (ctxPut c x s).media = s.media := rfl
@[simp] theorem ctxPut_mseq (c : Nat) (x : Ctx) (s : State) :
    (ctxPut c x s).mseq = s.mseq := rfl
@[simp] theorem ctxPut_jack (c : Nat) (x : Ctx) (s : State) :
    (ctxPut c x s).jack = s.jack := rfl
@[simp] theorem ctxPut_tagc (c : Nat) (x : Ctx) (s : State) :
    (ctxPut c x s).tagc = s.tagc := rfl
@[simp] theorem ctxPut_links (c : Nat) (x : Ctx) (s : State) :
    (ctxPut c x s).links = s.links := rfl
@[simp] theorem ctxPut_accts (c : Nat) (x : Ctx) (s : State) :
    (ctxPut c x s).accts = s.accts := rfl
@[simp] theorem ctxPut_pastAccts (c : Nat) (x : Ctx) (s : State) :
    (ctxPut c x s).pastAccts = s.pastAccts := rfl
@[simp] theorem ctxPut_rwNext (c : Nat) (x : Ctx) (s : State) :
    (ctxPut c x s).rwNext = s.rwNext := rfl
@[simp] theorem ctxPut_rep (c : Nat) (x : Ctx) (s : State) :
    (ctxPut c x s).rep = s.rep := rfl

@[simp] theorem mediaPut_free (m : Nat) (x : Media) (s : State) :
    (mediaPut m x s).free = s.free := rfl
@[simp] theorem mediaPut_pending (m : Nat) (x : Media) (s : State) :
    (mediaPut m x s).pending = s.pending := rfl
@[simp] theorem mediaPut_clk (m : Nat) (x : Media) (s : State) :
    (mediaPut m x s).clk = s.clk := rfl
@[simp] theorem mediaPut_pins (m : Nat) (x : Media) (s : State) :
    (mediaPut m x s).pins = s.pins := rfl
@[simp] theorem mediaPut_cfg (m : Nat) (x : Media) (s : State) :
    (mediaPut m x s).cfg = s.cfg := rfl
@[simp] theorem mediaPut_staged (m : Nat) (x : Media) (s : State) :
    (mediaPut m x s).staged = s.staged := rfl
@[simp] theorem mediaPut_regs (m : Nat) (x : Media) (s : State) :
    (mediaPut m x s).regs = s.regs := rfl
@[simp] theorem mediaPut_winL (m : Nat) (x : Media) (s : State) :
    (mediaPut m x s).winL = s.winL := rfl
@[simp] theorem mediaPut_winD (m : Nat) (x : Media) (s : State) :
    (mediaPut m x s).winD = s.winD := rfl
@[simp] theorem mediaPut_winOut (m : Nat) (x : Media) (s : State) :
    (mediaPut m x s).winOut = s.winOut := rfl
@[simp] theorem mediaPut_commit (m : Nat) (x : Media) (s : State) :
    (mediaPut m x s).commit = s.commit := rfl
@[simp] theorem mediaPut_sessions (m : Nat) (x : Media) (s : State) :
    (mediaPut m x s).sessions = s.sessions := rfl
@[simp] theorem mediaPut_mmTx (m : Nat) (x : Media) (s : State) :
    (mediaPut m x s).mmTx = s.mmTx := rfl
@[simp] theorem mediaPut_ev (m : Nat) (x : Media) (s : State) :
    (mediaPut m x s).ev = s.ev := rfl
@[simp] theorem mediaPut_keys (m : Nat) (x : Media) (s : State) :
    (mediaPut m x s).keys = s.keys := rfl
@[simp] theorem mediaPut_nv (m : Nat) (x : Media) (s : State) :
    (mediaPut m x s).nv = s.nv := rfl
@[simp] theorem mediaPut_nvu (m : Nat) (x : Media) (s : State) :
    (mediaPut m x s).nvu = s.nvu := rfl
@[simp] theorem mediaPut_pwr (m : Nat) (x : Media) (s : State) :
    (mediaPut m x s).pwr = s.pwr := rfl
@[simp] theorem mediaPut_rk (m : Nat) (x : Media) (s : State) :
    (mediaPut m x s).rk = s.rk := rfl
@[simp] theorem mediaPut_pool (m : Nat) (x : Media) (s : State) :
    (mediaPut m x s).pool = s.pool := rfl
@[simp] theorem mediaPut_mseq (m : Nat) (x : Media) (s : State) :
    (mediaPut m x s).mseq = s.mseq := rfl
@[simp] theorem mediaPut_jack (m : Nat) (x : Media) (s : State) :
    (mediaPut m x s).jack = s.jack := rfl
@[simp] theorem mediaPut_tagc (m : Nat) (x : Media) (s : State) :
    (mediaPut m x s).tagc = s.tagc := rfl
@[simp] theorem mediaPut_links (m : Nat) (x : Media) (s : State) :
    (mediaPut m x s).links = s.links := rfl
@[simp] theorem mediaPut_accts (m : Nat) (x : Media) (s : State) :
    (mediaPut m x s).accts = s.accts := rfl
@[simp] theorem mediaPut_pastAccts (m : Nat) (x : Media) (s : State) :
    (mediaPut m x s).pastAccts = s.pastAccts := rfl
@[simp] theorem mediaPut_rwNext (m : Nat) (x : Media) (s : State) :
    (mediaPut m x s).rwNext = s.rwNext := rfl
@[simp] theorem mediaPut_rep (m : Nat) (x : Media) (s : State) :
    (mediaPut m x s).rep = s.rep := rfl

@[simp] theorem linkPut_free (p : Nat) (x : LinkSt) (s : State) :
    (linkPut p x s).free = s.free := rfl
@[simp] theorem linkPut_pending (p : Nat) (x : LinkSt) (s : State) :
    (linkPut p x s).pending = s.pending := rfl
@[simp] theorem linkPut_clk (p : Nat) (x : LinkSt) (s : State) :
    (linkPut p x s).clk = s.clk := rfl
@[simp] theorem linkPut_pins (p : Nat) (x : LinkSt) (s : State) :
    (linkPut p x s).pins = s.pins := rfl
@[simp] theorem linkPut_cfg (p : Nat) (x : LinkSt) (s : State) :
    (linkPut p x s).cfg = s.cfg := rfl
@[simp] theorem linkPut_staged (p : Nat) (x : LinkSt) (s : State) :
    (linkPut p x s).staged = s.staged := rfl
@[simp] theorem linkPut_regs (p : Nat) (x : LinkSt) (s : State) :
    (linkPut p x s).regs = s.regs := rfl
@[simp] theorem linkPut_winL (p : Nat) (x : LinkSt) (s : State) :
    (linkPut p x s).winL = s.winL := rfl
@[simp] theorem linkPut_winD (p : Nat) (x : LinkSt) (s : State) :
    (linkPut p x s).winD = s.winD := rfl
@[simp] theorem linkPut_winOut (p : Nat) (x : LinkSt) (s : State) :
    (linkPut p x s).winOut = s.winOut := rfl
@[simp] theorem linkPut_commit (p : Nat) (x : LinkSt) (s : State) :
    (linkPut p x s).commit = s.commit := rfl
@[simp] theorem linkPut_sessions (p : Nat) (x : LinkSt) (s : State) :
    (linkPut p x s).sessions = s.sessions := rfl
@[simp] theorem linkPut_mmTx (p : Nat) (x : LinkSt) (s : State) :
    (linkPut p x s).mmTx = s.mmTx := rfl
@[simp] theorem linkPut_ev (p : Nat) (x : LinkSt) (s : State) :
    (linkPut p x s).ev = s.ev := rfl
@[simp] theorem linkPut_keys (p : Nat) (x : LinkSt) (s : State) :
    (linkPut p x s).keys = s.keys := rfl
@[simp] theorem linkPut_nv (p : Nat) (x : LinkSt) (s : State) :
    (linkPut p x s).nv = s.nv := rfl
@[simp] theorem linkPut_nvu (p : Nat) (x : LinkSt) (s : State) :
    (linkPut p x s).nvu = s.nvu := rfl
@[simp] theorem linkPut_pwr (p : Nat) (x : LinkSt) (s : State) :
    (linkPut p x s).pwr = s.pwr := rfl
@[simp] theorem linkPut_rk (p : Nat) (x : LinkSt) (s : State) :
    (linkPut p x s).rk = s.rk := rfl
@[simp] theorem linkPut_pool (p : Nat) (x : LinkSt) (s : State) :
    (linkPut p x s).pool = s.pool := rfl
@[simp] theorem linkPut_media (p : Nat) (x : LinkSt) (s : State) :
    (linkPut p x s).media = s.media := rfl
@[simp] theorem linkPut_mseq (p : Nat) (x : LinkSt) (s : State) :
    (linkPut p x s).mseq = s.mseq := rfl
@[simp] theorem linkPut_jack (p : Nat) (x : LinkSt) (s : State) :
    (linkPut p x s).jack = s.jack := rfl
@[simp] theorem linkPut_tagc (p : Nat) (x : LinkSt) (s : State) :
    (linkPut p x s).tagc = s.tagc := rfl
@[simp] theorem linkPut_accts (p : Nat) (x : LinkSt) (s : State) :
    (linkPut p x s).accts = s.accts := rfl
@[simp] theorem linkPut_pastAccts (p : Nat) (x : LinkSt) (s : State) :
    (linkPut p x s).pastAccts = s.pastAccts := rfl
@[simp] theorem linkPut_rwNext (p : Nat) (x : LinkSt) (s : State) :
    (linkPut p x s).rwNext = s.rwNext := rfl
@[simp] theorem linkPut_rep (p : Nat) (x : LinkSt) (s : State) :
    (linkPut p x s).rep = s.rep := rfl

@[simp] theorem eqPut_free (p : Nat) (l : List Rsp) (s : State) :
    (eqPut p l s).free = s.free := rfl
@[simp] theorem eqPut_pending (p : Nat) (l : List Rsp) (s : State) :
    (eqPut p l s).pending = s.pending := rfl
@[simp] theorem eqPut_clk (p : Nat) (l : List Rsp) (s : State) :
    (eqPut p l s).clk = s.clk := rfl
@[simp] theorem eqPut_pins (p : Nat) (l : List Rsp) (s : State) :
    (eqPut p l s).pins = s.pins := rfl
@[simp] theorem eqPut_cfg (p : Nat) (l : List Rsp) (s : State) :
    (eqPut p l s).cfg = s.cfg := rfl
@[simp] theorem eqPut_staged (p : Nat) (l : List Rsp) (s : State) :
    (eqPut p l s).staged = s.staged := rfl
@[simp] theorem eqPut_regs (p : Nat) (l : List Rsp) (s : State) :
    (eqPut p l s).regs = s.regs := rfl
@[simp] theorem eqPut_winL (p : Nat) (l : List Rsp) (s : State) :
    (eqPut p l s).winL = s.winL := rfl
@[simp] theorem eqPut_winD (p : Nat) (l : List Rsp) (s : State) :
    (eqPut p l s).winD = s.winD := rfl
@[simp] theorem eqPut_winOut (p : Nat) (l : List Rsp) (s : State) :
    (eqPut p l s).winOut = s.winOut := rfl
@[simp] theorem eqPut_commit (p : Nat) (l : List Rsp) (s : State) :
    (eqPut p l s).commit = s.commit := rfl
@[simp] theorem eqPut_sessions (p : Nat) (l : List Rsp) (s : State) :
    (eqPut p l s).sessions = s.sessions := rfl
@[simp] theorem eqPut_mmTx (p : Nat) (l : List Rsp) (s : State) :
    (eqPut p l s).mmTx = s.mmTx := rfl
@[simp] theorem eqPut_ev (p : Nat) (l : List Rsp) (s : State) :
    (eqPut p l s).ev = s.ev := rfl
@[simp] theorem eqPut_keys (p : Nat) (l : List Rsp) (s : State) :
    (eqPut p l s).keys = s.keys := rfl
@[simp] theorem eqPut_nv (p : Nat) (l : List Rsp) (s : State) :
    (eqPut p l s).nv = s.nv := rfl
@[simp] theorem eqPut_nvu (p : Nat) (l : List Rsp) (s : State) :
    (eqPut p l s).nvu = s.nvu := rfl
@[simp] theorem eqPut_pwr (p : Nat) (l : List Rsp) (s : State) :
    (eqPut p l s).pwr = s.pwr := rfl
@[simp] theorem eqPut_rk (p : Nat) (l : List Rsp) (s : State) :
    (eqPut p l s).rk = s.rk := rfl
@[simp] theorem eqPut_media (p : Nat) (l : List Rsp) (s : State) :
    (eqPut p l s).media = s.media := rfl
@[simp] theorem eqPut_mseq (p : Nat) (l : List Rsp) (s : State) :
    (eqPut p l s).mseq = s.mseq := rfl
@[simp] theorem eqPut_jack (p : Nat) (l : List Rsp) (s : State) :
    (eqPut p l s).jack = s.jack := rfl
@[simp] theorem eqPut_tagc (p : Nat) (l : List Rsp) (s : State) :
    (eqPut p l s).tagc = s.tagc := rfl
@[simp] theorem eqPut_links (p : Nat) (l : List Rsp) (s : State) :
    (eqPut p l s).links = s.links := rfl
@[simp] theorem eqPut_accts (p : Nat) (l : List Rsp) (s : State) :
    (eqPut p l s).accts = s.accts := rfl
@[simp] theorem eqPut_pastAccts (p : Nat) (l : List Rsp) (s : State) :
    (eqPut p l s).pastAccts = s.pastAccts := rfl
@[simp] theorem eqPut_rwNext (p : Nat) (l : List Rsp) (s : State) :
    (eqPut p l s).rwNext = s.rwNext := rfl
@[simp] theorem eqPut_rep (p : Nat) (l : List Rsp) (s : State) :
    (eqPut p l s).rep = s.rep := rfl

@[simp] theorem txnPut_free (t : Txn) (s : State) :
    (txnPut t s).free = s.free := rfl
@[simp] theorem txnPut_pending (t : Txn) (s : State) :
    (txnPut t s).pending = s.pending := rfl
@[simp] theorem txnPut_clk (t : Txn) (s : State) :
    (txnPut t s).clk = s.clk := rfl
@[simp] theorem txnPut_pins (t : Txn) (s : State) :
    (txnPut t s).pins = s.pins := rfl
@[simp] theorem txnPut_cfg (t : Txn) (s : State) :
    (txnPut t s).cfg = s.cfg := rfl
@[simp] theorem txnPut_staged (t : Txn) (s : State) :
    (txnPut t s).staged = s.staged := rfl
@[simp] theorem txnPut_regs (t : Txn) (s : State) :
    (txnPut t s).regs = s.regs := rfl
@[simp] theorem txnPut_winL (t : Txn) (s : State) :
    (txnPut t s).winL = s.winL := rfl
@[simp] theorem txnPut_winD (t : Txn) (s : State) :
    (txnPut t s).winD = s.winD := rfl
@[simp] theorem txnPut_winOut (t : Txn) (s : State) :
    (txnPut t s).winOut = s.winOut := rfl
@[simp] theorem txnPut_commit (t : Txn) (s : State) :
    (txnPut t s).commit = s.commit := rfl
@[simp] theorem txnPut_sessions (t : Txn) (s : State) :
    (txnPut t s).sessions = s.sessions := rfl
@[simp] theorem txnPut_mmTx (t : Txn) (s : State) :
    (txnPut t s).mmTx = s.mmTx := rfl
@[simp] theorem txnPut_ev (t : Txn) (s : State) :
    (txnPut t s).ev = s.ev := rfl
@[simp] theorem txnPut_keys (t : Txn) (s : State) :
    (txnPut t s).keys = s.keys := rfl
@[simp] theorem txnPut_nv (t : Txn) (s : State) :
    (txnPut t s).nv = s.nv := rfl
@[simp] theorem txnPut_nvu (t : Txn) (s : State) :
    (txnPut t s).nvu = s.nvu := rfl
@[simp] theorem txnPut_pwr (t : Txn) (s : State) :
    (txnPut t s).pwr = s.pwr := rfl
@[simp] theorem txnPut_rk (t : Txn) (s : State) :
    (txnPut t s).rk = s.rk := rfl
@[simp] theorem txnPut_media (t : Txn) (s : State) :
    (txnPut t s).media = s.media := rfl
@[simp] theorem txnPut_mseq (t : Txn) (s : State) :
    (txnPut t s).mseq = s.mseq := rfl
@[simp] theorem txnPut_jack (t : Txn) (s : State) :
    (txnPut t s).jack = s.jack := rfl
@[simp] theorem txnPut_tagc (t : Txn) (s : State) :
    (txnPut t s).tagc = s.tagc := rfl
@[simp] theorem txnPut_links (t : Txn) (s : State) :
    (txnPut t s).links = s.links := rfl
@[simp] theorem txnPut_accts (t : Txn) (s : State) :
    (txnPut t s).accts = s.accts := rfl
@[simp] theorem txnPut_pastAccts (t : Txn) (s : State) :
    (txnPut t s).pastAccts = s.pastAccts := rfl
@[simp] theorem txnPut_rwNext (t : Txn) (s : State) :
    (txnPut t s).rwNext = s.rwNext := rfl
@[simp] theorem txnPut_rep (t : Txn) (s : State) :
    (txnPut t s).rep = s.rep := rfl

@[simp] theorem txnAdd_free (t : Txn) (s : State) :
    (txnAdd t s).free = s.free := rfl
@[simp] theorem txnAdd_pending (t : Txn) (s : State) :
    (txnAdd t s).pending = s.pending := rfl
@[simp] theorem txnAdd_clk (t : Txn) (s : State) :
    (txnAdd t s).clk = s.clk := rfl
@[simp] theorem txnAdd_pins (t : Txn) (s : State) :
    (txnAdd t s).pins = s.pins := rfl
@[simp] theorem txnAdd_cfg (t : Txn) (s : State) :
    (txnAdd t s).cfg = s.cfg := rfl
@[simp] theorem txnAdd_staged (t : Txn) (s : State) :
    (txnAdd t s).staged = s.staged := rfl
@[simp] theorem txnAdd_regs (t : Txn) (s : State) :
    (txnAdd t s).regs = s.regs := rfl
@[simp] theorem txnAdd_winL (t : Txn) (s : State) :
    (txnAdd t s).winL = s.winL := rfl
@[simp] theorem txnAdd_winD (t : Txn) (s : State) :
    (txnAdd t s).winD = s.winD := rfl
@[simp] theorem txnAdd_winOut (t : Txn) (s : State) :
    (txnAdd t s).winOut = s.winOut := rfl
@[simp] theorem txnAdd_commit (t : Txn) (s : State) :
    (txnAdd t s).commit = s.commit := rfl
@[simp] theorem txnAdd_sessions (t : Txn) (s : State) :
    (txnAdd t s).sessions = s.sessions := rfl
@[simp] theorem txnAdd_mmTx (t : Txn) (s : State) :
    (txnAdd t s).mmTx = s.mmTx := rfl
@[simp] theorem txnAdd_ev (t : Txn) (s : State) :
    (txnAdd t s).ev = s.ev := rfl
@[simp] theorem txnAdd_keys (t : Txn) (s : State) :
    (txnAdd t s).keys = s.keys := rfl
@[simp] theorem txnAdd_nv (t : Txn) (s : State) :
    (txnAdd t s).nv = s.nv := rfl
@[simp] theorem txnAdd_nvu (t : Txn) (s : State) :
    (txnAdd t s).nvu = s.nvu := rfl
@[simp] theorem txnAdd_pwr (t : Txn) (s : State) :
    (txnAdd t s).pwr = s.pwr := rfl
@[simp] theorem txnAdd_rk (t : Txn) (s : State) :
    (txnAdd t s).rk = s.rk := rfl
@[simp] theorem txnAdd_media (t : Txn) (s : State) :
    (txnAdd t s).media = s.media := rfl
@[simp] theorem txnAdd_mseq (t : Txn) (s : State) :
    (txnAdd t s).mseq = s.mseq := rfl
@[simp] theorem txnAdd_jack (t : Txn) (s : State) :
    (txnAdd t s).jack = s.jack := rfl
@[simp] theorem txnAdd_tagc (t : Txn) (s : State) :
    (txnAdd t s).tagc = s.tagc := rfl
@[simp] theorem txnAdd_links (t : Txn) (s : State) :
    (txnAdd t s).links = s.links := rfl
@[simp] theorem txnAdd_accts (t : Txn) (s : State) :
    (txnAdd t s).accts = s.accts := rfl
@[simp] theorem txnAdd_pastAccts (t : Txn) (s : State) :
    (txnAdd t s).pastAccts = s.pastAccts := rfl
@[simp] theorem txnAdd_rwNext (t : Txn) (s : State) :
    (txnAdd t s).rwNext = s.rwNext := rfl
@[simp] theorem txnAdd_rep (t : Txn) (s : State) :
    (txnAdd t s).rep = s.rep := rfl

@[simp] theorem txnDel_free (id : Nat) (s : State) :
    (txnDel id s).free = s.free := rfl
@[simp] theorem txnDel_pending (id : Nat) (s : State) :
    (txnDel id s).pending = s.pending := rfl
@[simp] theorem txnDel_clk (id : Nat) (s : State) :
    (txnDel id s).clk = s.clk := rfl
@[simp] theorem txnDel_pins (id : Nat) (s : State) :
    (txnDel id s).pins = s.pins := rfl
@[simp] theorem txnDel_cfg (id : Nat) (s : State) :
    (txnDel id s).cfg = s.cfg := rfl
@[simp] theorem txnDel_staged (id : Nat) (s : State) :
    (txnDel id s).staged = s.staged := rfl
@[simp] theorem txnDel_regs (id : Nat) (s : State) :
    (txnDel id s).regs = s.regs := rfl
@[simp] theorem txnDel_winL (id : Nat) (s : State) :
    (txnDel id s).winL = s.winL := rfl
@[simp] theorem txnDel_winD (id : Nat) (s : State) :
    (txnDel id s).winD = s.winD := rfl
@[simp] theorem txnDel_winOut (id : Nat) (s : State) :
    (txnDel id s).winOut = s.winOut := rfl
@[simp] theorem txnDel_commit (id : Nat) (s : State) :
    (txnDel id s).commit = s.commit := rfl
@[simp] theorem txnDel_sessions (id : Nat) (s : State) :
    (txnDel id s).sessions = s.sessions := rfl
@[simp] theorem txnDel_mmTx (id : Nat) (s : State) :
    (txnDel id s).mmTx = s.mmTx := rfl
@[simp] theorem txnDel_ev (id : Nat) (s : State) :
    (txnDel id s).ev = s.ev := rfl
@[simp] theorem txnDel_keys (id : Nat) (s : State) :
    (txnDel id s).keys = s.keys := rfl
@[simp] theorem txnDel_nv (id : Nat) (s : State) :
    (txnDel id s).nv = s.nv := rfl
@[simp] theorem txnDel_nvu (id : Nat) (s : State) :
    (txnDel id s).nvu = s.nvu := rfl
@[simp] theorem txnDel_pwr (id : Nat) (s : State) :
    (txnDel id s).pwr = s.pwr := rfl
@[simp] theorem txnDel_rk (id : Nat) (s : State) :
    (txnDel id s).rk = s.rk := rfl
@[simp] theorem txnDel_media (id : Nat) (s : State) :
    (txnDel id s).media = s.media := rfl
@[simp] theorem txnDel_mseq (id : Nat) (s : State) :
    (txnDel id s).mseq = s.mseq := rfl
@[simp] theorem txnDel_jack (id : Nat) (s : State) :
    (txnDel id s).jack = s.jack := rfl
@[simp] theorem txnDel_tagc (id : Nat) (s : State) :
    (txnDel id s).tagc = s.tagc := rfl
@[simp] theorem txnDel_links (id : Nat) (s : State) :
    (txnDel id s).links = s.links := rfl
@[simp] theorem txnDel_accts (id : Nat) (s : State) :
    (txnDel id s).accts = s.accts := rfl
@[simp] theorem txnDel_pastAccts (id : Nat) (s : State) :
    (txnDel id s).pastAccts = s.pastAccts := rfl
@[simp] theorem txnDel_rwNext (id : Nat) (s : State) :
    (txnDel id s).rwNext = s.rwNext := rfl
@[simp] theorem txnDel_rep (id : Nat) (s : State) :
    (txnDel id s).rep = s.rep := rfl

@[simp] theorem slicePut_free (i : Nat) (x : Slice) (s : State) :
    (slicePut i x s).free = s.free := rfl
@[simp] theorem slicePut_pending (i : Nat) (x : Slice) (s : State) :
    (slicePut i x s).pending = s.pending := rfl
@[simp] theorem slicePut_clk (i : Nat) (x : Slice) (s : State) :
    (slicePut i x s).clk = s.clk := rfl
@[simp] theorem slicePut_pins (i : Nat) (x : Slice) (s : State) :
    (slicePut i x s).pins = s.pins := rfl
@[simp] theorem slicePut_cfg (i : Nat) (x : Slice) (s : State) :
    (slicePut i x s).cfg = s.cfg := rfl
@[simp] theorem slicePut_staged (i : Nat) (x : Slice) (s : State) :
    (slicePut i x s).staged = s.staged := rfl
@[simp] theorem slicePut_regs (i : Nat) (x : Slice) (s : State) :
    (slicePut i x s).regs = s.regs := rfl
@[simp] theorem slicePut_winL (i : Nat) (x : Slice) (s : State) :
    (slicePut i x s).winL = s.winL := rfl
@[simp] theorem slicePut_winD (i : Nat) (x : Slice) (s : State) :
    (slicePut i x s).winD = s.winD := rfl
@[simp] theorem slicePut_winOut (i : Nat) (x : Slice) (s : State) :
    (slicePut i x s).winOut = s.winOut := rfl
@[simp] theorem slicePut_commit (i : Nat) (x : Slice) (s : State) :
    (slicePut i x s).commit = s.commit := rfl
@[simp] theorem slicePut_sessions (i : Nat) (x : Slice) (s : State) :
    (slicePut i x s).sessions = s.sessions := rfl
@[simp] theorem slicePut_mmTx (i : Nat) (x : Slice) (s : State) :
    (slicePut i x s).mmTx = s.mmTx := rfl
@[simp] theorem slicePut_ev (i : Nat) (x : Slice) (s : State) :
    (slicePut i x s).ev = s.ev := rfl
@[simp] theorem slicePut_keys (i : Nat) (x : Slice) (s : State) :
    (slicePut i x s).keys = s.keys := rfl
@[simp] theorem slicePut_nv (i : Nat) (x : Slice) (s : State) :
    (slicePut i x s).nv = s.nv := rfl
@[simp] theorem slicePut_nvu (i : Nat) (x : Slice) (s : State) :
    (slicePut i x s).nvu = s.nvu := rfl
@[simp] theorem slicePut_pwr (i : Nat) (x : Slice) (s : State) :
    (slicePut i x s).pwr = s.pwr := rfl
@[simp] theorem slicePut_rk (i : Nat) (x : Slice) (s : State) :
    (slicePut i x s).rk = s.rk := rfl
@[simp] theorem slicePut_pool (i : Nat) (x : Slice) (s : State) :
    (slicePut i x s).pool = s.pool := rfl
@[simp] theorem slicePut_media (i : Nat) (x : Slice) (s : State) :
    (slicePut i x s).media = s.media := rfl
@[simp] theorem slicePut_mseq (i : Nat) (x : Slice) (s : State) :
    (slicePut i x s).mseq = s.mseq := rfl
@[simp] theorem slicePut_jack (i : Nat) (x : Slice) (s : State) :
    (slicePut i x s).jack = s.jack := rfl
@[simp] theorem slicePut_tagc (i : Nat) (x : Slice) (s : State) :
    (slicePut i x s).tagc = s.tagc := rfl
@[simp] theorem slicePut_links (i : Nat) (x : Slice) (s : State) :
    (slicePut i x s).links = s.links := rfl
@[simp] theorem slicePut_accts (i : Nat) (x : Slice) (s : State) :
    (slicePut i x s).accts = s.accts := rfl
@[simp] theorem slicePut_pastAccts (i : Nat) (x : Slice) (s : State) :
    (slicePut i x s).pastAccts = s.pastAccts := rfl
@[simp] theorem slicePut_rwNext (i : Nat) (x : Slice) (s : State) :
    (slicePut i x s).rwNext = s.rwNext := rfl

@[simp] theorem holdDel_free (h : Hold) (s : State) :
    (holdDel h s).free = s.free := rfl
@[simp] theorem holdDel_pending (h : Hold) (s : State) :
    (holdDel h s).pending = s.pending := rfl
@[simp] theorem holdDel_clk (h : Hold) (s : State) :
    (holdDel h s).clk = s.clk := rfl
@[simp] theorem holdDel_pins (h : Hold) (s : State) :
    (holdDel h s).pins = s.pins := rfl
@[simp] theorem holdDel_cfg (h : Hold) (s : State) :
    (holdDel h s).cfg = s.cfg := rfl
@[simp] theorem holdDel_staged (h : Hold) (s : State) :
    (holdDel h s).staged = s.staged := rfl
@[simp] theorem holdDel_regs (h : Hold) (s : State) :
    (holdDel h s).regs = s.regs := rfl
@[simp] theorem holdDel_winL (h : Hold) (s : State) :
    (holdDel h s).winL = s.winL := rfl
@[simp] theorem holdDel_winD (h : Hold) (s : State) :
    (holdDel h s).winD = s.winD := rfl
@[simp] theorem holdDel_winOut (h : Hold) (s : State) :
    (holdDel h s).winOut = s.winOut := rfl
@[simp] theorem holdDel_commit (h : Hold) (s : State) :
    (holdDel h s).commit = s.commit := rfl
@[simp] theorem holdDel_sessions (h : Hold) (s : State) :
    (holdDel h s).sessions = s.sessions := rfl
@[simp] theorem holdDel_mmTx (h : Hold) (s : State) :
    (holdDel h s).mmTx = s.mmTx := rfl
@[simp] theorem holdDel_ev (h : Hold) (s : State) :
    (holdDel h s).ev = s.ev := rfl
@[simp] theorem holdDel_keys (h : Hold) (s : State) :
    (holdDel h s).keys = s.keys := rfl
@[simp] theorem holdDel_nv (h : Hold) (s : State) :
    (holdDel h s).nv = s.nv := rfl
@[simp] theorem holdDel_nvu (h : Hold) (s : State) :
    (holdDel h s).nvu = s.nvu := rfl
@[simp] theorem holdDel_pwr (h : Hold) (s : State) :
    (holdDel h s).pwr = s.pwr := rfl
@[simp] theorem holdDel_rk (h : Hold) (s : State) :
    (holdDel h s).rk = s.rk := rfl
@[simp] theorem holdDel_pool (h : Hold) (s : State) :
    (holdDel h s).pool = s.pool := rfl
@[simp] theorem holdDel_media (h : Hold) (s : State) :
    (holdDel h s).media = s.media := rfl
@[simp] theorem holdDel_mseq (h : Hold) (s : State) :
    (holdDel h s).mseq = s.mseq := rfl
@[simp] theorem holdDel_jack (h : Hold) (s : State) :
    (holdDel h s).jack = s.jack := rfl
@[simp] theorem holdDel_tagc (h : Hold) (s : State) :
    (holdDel h s).tagc = s.tagc := rfl
@[simp] theorem holdDel_links (h : Hold) (s : State) :
    (holdDel h s).links = s.links := rfl
@[simp] theorem holdDel_accts (h : Hold) (s : State) :
    (holdDel h s).accts = s.accts := rfl
@[simp] theorem holdDel_pastAccts (h : Hold) (s : State) :
    (holdDel h s).pastAccts = s.pastAccts := rfl
@[simp] theorem holdDel_rwNext (h : Hold) (s : State) :
    (holdDel h s).rwNext = s.rwNext := rfl

@[simp] theorem wayPut_free (k : Nat) (x : TagWay) (s : State) :
    (wayPut k x s).free = s.free := rfl
@[simp] theorem wayPut_pending (k : Nat) (x : TagWay) (s : State) :
    (wayPut k x s).pending = s.pending := rfl
@[simp] theorem wayPut_clk (k : Nat) (x : TagWay) (s : State) :
    (wayPut k x s).clk = s.clk := rfl
@[simp] theorem wayPut_pins (k : Nat) (x : TagWay) (s : State) :
    (wayPut k x s).pins = s.pins := rfl
@[simp] theorem wayPut_cfg (k : Nat) (x : TagWay) (s : State) :
    (wayPut k x s).cfg = s.cfg := rfl
@[simp] theorem wayPut_staged (k : Nat) (x : TagWay) (s : State) :
    (wayPut k x s).staged = s.staged := rfl
@[simp] theorem wayPut_regs (k : Nat) (x : TagWay) (s : State) :
    (wayPut k x s).regs = s.regs := rfl
@[simp] theorem wayPut_winL (k : Nat) (x : TagWay) (s : State) :
    (wayPut k x s).winL = s.winL := rfl
@[simp] theorem wayPut_winD (k : Nat) (x : TagWay) (s : State) :
    (wayPut k x s).winD = s.winD := rfl
@[simp] theorem wayPut_winOut (k : Nat) (x : TagWay) (s : State) :
    (wayPut k x s).winOut = s.winOut := rfl
@[simp] theorem wayPut_commit (k : Nat) (x : TagWay) (s : State) :
    (wayPut k x s).commit = s.commit := rfl
@[simp] theorem wayPut_sessions (k : Nat) (x : TagWay) (s : State) :
    (wayPut k x s).sessions = s.sessions := rfl
@[simp] theorem wayPut_mmTx (k : Nat) (x : TagWay) (s : State) :
    (wayPut k x s).mmTx = s.mmTx := rfl
@[simp] theorem wayPut_ev (k : Nat) (x : TagWay) (s : State) :
    (wayPut k x s).ev = s.ev := rfl
@[simp] theorem wayPut_keys (k : Nat) (x : TagWay) (s : State) :
    (wayPut k x s).keys = s.keys := rfl
@[simp] theorem wayPut_nv (k : Nat) (x : TagWay) (s : State) :
    (wayPut k x s).nv = s.nv := rfl
@[simp] theorem wayPut_nvu (k : Nat) (x : TagWay) (s : State) :
    (wayPut k x s).nvu = s.nvu := rfl
@[simp] theorem wayPut_pwr (k : Nat) (x : TagWay) (s : State) :
    (wayPut k x s).pwr = s.pwr := rfl
@[simp] theorem wayPut_rk (k : Nat) (x : TagWay) (s : State) :
    (wayPut k x s).rk = s.rk := rfl
@[simp] theorem wayPut_pool (k : Nat) (x : TagWay) (s : State) :
    (wayPut k x s).pool = s.pool := rfl
@[simp] theorem wayPut_media (k : Nat) (x : TagWay) (s : State) :
    (wayPut k x s).media = s.media := rfl
@[simp] theorem wayPut_mseq (k : Nat) (x : TagWay) (s : State) :
    (wayPut k x s).mseq = s.mseq := rfl
@[simp] theorem wayPut_jack (k : Nat) (x : TagWay) (s : State) :
    (wayPut k x s).jack = s.jack := rfl
@[simp] theorem wayPut_links (k : Nat) (x : TagWay) (s : State) :
    (wayPut k x s).links = s.links := rfl
@[simp] theorem wayPut_accts (k : Nat) (x : TagWay) (s : State) :
    (wayPut k x s).accts = s.accts := rfl
@[simp] theorem wayPut_pastAccts (k : Nat) (x : TagWay) (s : State) :
    (wayPut k x s).pastAccts = s.pastAccts := rfl
@[simp] theorem wayPut_rwNext (k : Nat) (x : TagWay) (s : State) :
    (wayPut k x s).rwNext = s.rwNext := rfl
@[simp] theorem wayPut_rep (k : Nat) (x : TagWay) (s : State) :
    (wayPut k x s).rep = s.rep := rfl

@[simp] theorem wayDel_free (k : Nat) (s : State) :
    (wayDel k s).free = s.free := rfl
@[simp] theorem wayDel_pending (k : Nat) (s : State) :
    (wayDel k s).pending = s.pending := rfl
@[simp] theorem wayDel_clk (k : Nat) (s : State) :
    (wayDel k s).clk = s.clk := rfl
@[simp] theorem wayDel_pins (k : Nat) (s : State) :
    (wayDel k s).pins = s.pins := rfl
@[simp] theorem wayDel_cfg (k : Nat) (s : State) :
    (wayDel k s).cfg = s.cfg := rfl
@[simp] theorem wayDel_staged (k : Nat) (s : State) :
    (wayDel k s).staged = s.staged := rfl
@[simp] theorem wayDel_regs (k : Nat) (s : State) :
    (wayDel k s).regs = s.regs := rfl
@[simp] theorem wayDel_winL (k : Nat) (s : State) :
    (wayDel k s).winL = s.winL := rfl
@[simp] theorem wayDel_winD (k : Nat) (s : State) :
    (wayDel k s).winD = s.winD := rfl
@[simp] theorem wayDel_winOut (k : Nat) (s : State) :
    (wayDel k s).winOut = s.winOut := rfl
@[simp] theorem wayDel_commit (k : Nat) (s : State) :
    (wayDel k s).commit = s.commit := rfl
@[simp] theorem wayDel_sessions (k : Nat) (s : State) :
    (wayDel k s).sessions = s.sessions := rfl
@[simp] theorem wayDel_mmTx (k : Nat) (s : State) :
    (wayDel k s).mmTx = s.mmTx := rfl
@[simp] theorem wayDel_ev (k : Nat) (s : State) :
    (wayDel k s).ev = s.ev := rfl
@[simp] theorem wayDel_keys (k : Nat) (s : State) :
    (wayDel k s).keys = s.keys := rfl
@[simp] theorem wayDel_nv (k : Nat) (s : State) :
    (wayDel k s).nv = s.nv := rfl
@[simp] theorem wayDel_nvu (k : Nat) (s : State) :
    (wayDel k s).nvu = s.nvu := rfl
@[simp] theorem wayDel_pwr (k : Nat) (s : State) :
    (wayDel k s).pwr = s.pwr := rfl
@[simp] theorem wayDel_rk (k : Nat) (s : State) :
    (wayDel k s).rk = s.rk := rfl
@[simp] theorem wayDel_pool (k : Nat) (s : State) :
    (wayDel k s).pool = s.pool := rfl
@[simp] theorem wayDel_media (k : Nat) (s : State) :
    (wayDel k s).media = s.media := rfl
@[simp] theorem wayDel_mseq (k : Nat) (s : State) :
    (wayDel k s).mseq = s.mseq := rfl
@[simp] theorem wayDel_jack (k : Nat) (s : State) :
    (wayDel k s).jack = s.jack := rfl
@[simp] theorem wayDel_links (k : Nat) (s : State) :
    (wayDel k s).links = s.links := rfl
@[simp] theorem wayDel_accts (k : Nat) (s : State) :
    (wayDel k s).accts = s.accts := rfl
@[simp] theorem wayDel_pastAccts (k : Nat) (s : State) :
    (wayDel k s).pastAccts = s.pastAccts := rfl
@[simp] theorem wayDel_rwNext (k : Nat) (s : State) :
    (wayDel k s).rwNext = s.rwNext := rfl
@[simp] theorem wayDel_rep (k : Nat) (s : State) :
    (wayDel k s).rep = s.rep := rfl

@[simp] theorem probesPut_free (m : Nat) (l : List Probe) (s : State) :
    (probesPut m l s).free = s.free := rfl
@[simp] theorem probesPut_pending (m : Nat) (l : List Probe) (s : State) :
    (probesPut m l s).pending = s.pending := rfl
@[simp] theorem probesPut_clk (m : Nat) (l : List Probe) (s : State) :
    (probesPut m l s).clk = s.clk := rfl
@[simp] theorem probesPut_pins (m : Nat) (l : List Probe) (s : State) :
    (probesPut m l s).pins = s.pins := rfl
@[simp] theorem probesPut_cfg (m : Nat) (l : List Probe) (s : State) :
    (probesPut m l s).cfg = s.cfg := rfl
@[simp] theorem probesPut_staged (m : Nat) (l : List Probe) (s : State) :
    (probesPut m l s).staged = s.staged := rfl
@[simp] theorem probesPut_regs (m : Nat) (l : List Probe) (s : State) :
    (probesPut m l s).regs = s.regs := rfl
@[simp] theorem probesPut_winL (m : Nat) (l : List Probe) (s : State) :
    (probesPut m l s).winL = s.winL := rfl
@[simp] theorem probesPut_winD (m : Nat) (l : List Probe) (s : State) :
    (probesPut m l s).winD = s.winD := rfl
@[simp] theorem probesPut_winOut (m : Nat) (l : List Probe) (s : State) :
    (probesPut m l s).winOut = s.winOut := rfl
@[simp] theorem probesPut_commit (m : Nat) (l : List Probe) (s : State) :
    (probesPut m l s).commit = s.commit := rfl
@[simp] theorem probesPut_sessions (m : Nat) (l : List Probe) (s : State) :
    (probesPut m l s).sessions = s.sessions := rfl
@[simp] theorem probesPut_mmTx (m : Nat) (l : List Probe) (s : State) :
    (probesPut m l s).mmTx = s.mmTx := rfl
@[simp] theorem probesPut_ev (m : Nat) (l : List Probe) (s : State) :
    (probesPut m l s).ev = s.ev := rfl
@[simp] theorem probesPut_keys (m : Nat) (l : List Probe) (s : State) :
    (probesPut m l s).keys = s.keys := rfl
@[simp] theorem probesPut_nv (m : Nat) (l : List Probe) (s : State) :
    (probesPut m l s).nv = s.nv := rfl
@[simp] theorem probesPut_nvu (m : Nat) (l : List Probe) (s : State) :
    (probesPut m l s).nvu = s.nvu := rfl
@[simp] theorem probesPut_pwr (m : Nat) (l : List Probe) (s : State) :
    (probesPut m l s).pwr = s.pwr := rfl
@[simp] theorem probesPut_rk (m : Nat) (l : List Probe) (s : State) :
    (probesPut m l s).rk = s.rk := rfl
@[simp] theorem probesPut_pool (m : Nat) (l : List Probe) (s : State) :
    (probesPut m l s).pool = s.pool := rfl
@[simp] theorem probesPut_media (m : Nat) (l : List Probe) (s : State) :
    (probesPut m l s).media = s.media := rfl
@[simp] theorem probesPut_mseq (m : Nat) (l : List Probe) (s : State) :
    (probesPut m l s).mseq = s.mseq := rfl
@[simp] theorem probesPut_tagc (m : Nat) (l : List Probe) (s : State) :
    (probesPut m l s).tagc = s.tagc := rfl
@[simp] theorem probesPut_links (m : Nat) (l : List Probe) (s : State) :
    (probesPut m l s).links = s.links := rfl
@[simp] theorem probesPut_accts (m : Nat) (l : List Probe) (s : State) :
    (probesPut m l s).accts = s.accts := rfl
@[simp] theorem probesPut_pastAccts (m : Nat) (l : List Probe) (s : State) :
    (probesPut m l s).pastAccts = s.pastAccts := rfl
@[simp] theorem probesPut_rwNext (m : Nat) (l : List Probe) (s : State) :
    (probesPut m l s).rwNext = s.rwNext := rfl
@[simp] theorem probesPut_rep (m : Nat) (l : List Probe) (s : State) :
    (probesPut m l s).rep = s.rep := rfl

@[simp] theorem jackClear_free (s : State) :
    (jackClear s).free = s.free := rfl
@[simp] theorem jackClear_pending (s : State) :
    (jackClear s).pending = s.pending := rfl
@[simp] theorem jackClear_clk (s : State) :
    (jackClear s).clk = s.clk := rfl
@[simp] theorem jackClear_pins (s : State) :
    (jackClear s).pins = s.pins := rfl
@[simp] theorem jackClear_cfg (s : State) :
    (jackClear s).cfg = s.cfg := rfl
@[simp] theorem jackClear_staged (s : State) :
    (jackClear s).staged = s.staged := rfl
@[simp] theorem jackClear_regs (s : State) :
    (jackClear s).regs = s.regs := rfl
@[simp] theorem jackClear_winL (s : State) :
    (jackClear s).winL = s.winL := rfl
@[simp] theorem jackClear_winD (s : State) :
    (jackClear s).winD = s.winD := rfl
@[simp] theorem jackClear_winOut (s : State) :
    (jackClear s).winOut = s.winOut := rfl
@[simp] theorem jackClear_commit (s : State) :
    (jackClear s).commit = s.commit := rfl
@[simp] theorem jackClear_sessions (s : State) :
    (jackClear s).sessions = s.sessions := rfl
@[simp] theorem jackClear_mmTx (s : State) :
    (jackClear s).mmTx = s.mmTx := rfl
@[simp] theorem jackClear_ev (s : State) :
    (jackClear s).ev = s.ev := rfl
@[simp] theorem jackClear_keys (s : State) :
    (jackClear s).keys = s.keys := rfl
@[simp] theorem jackClear_nv (s : State) :
    (jackClear s).nv = s.nv := rfl
@[simp] theorem jackClear_nvu (s : State) :
    (jackClear s).nvu = s.nvu := rfl
@[simp] theorem jackClear_pwr (s : State) :
    (jackClear s).pwr = s.pwr := rfl
@[simp] theorem jackClear_rk (s : State) :
    (jackClear s).rk = s.rk := rfl
@[simp] theorem jackClear_pool (s : State) :
    (jackClear s).pool = s.pool := rfl
@[simp] theorem jackClear_media (s : State) :
    (jackClear s).media = s.media := rfl
@[simp] theorem jackClear_mseq (s : State) :
    (jackClear s).mseq = s.mseq := rfl
@[simp] theorem jackClear_tagc (s : State) :
    (jackClear s).tagc = s.tagc := rfl
@[simp] theorem jackClear_links (s : State) :
    (jackClear s).links = s.links := rfl
@[simp] theorem jackClear_accts (s : State) :
    (jackClear s).accts = s.accts := rfl
@[simp] theorem jackClear_pastAccts (s : State) :
    (jackClear s).pastAccts = s.pastAccts := rfl
@[simp] theorem jackClear_rwNext (s : State) :
    (jackClear s).rwNext = s.rwNext := rfl
@[simp] theorem jackClear_rep (s : State) :
    (jackClear s).rep = s.rep := rfl

@[simp] theorem faultLow_free (s : State) :
    (faultLow s).free = s.free := rfl
@[simp] theorem faultLow_pending (s : State) :
    (faultLow s).pending = s.pending := rfl
@[simp] theorem faultLow_clk (s : State) :
    (faultLow s).clk = s.clk := rfl
@[simp] theorem faultLow_cfg (s : State) :
    (faultLow s).cfg = s.cfg := rfl
@[simp] theorem faultLow_staged (s : State) :
    (faultLow s).staged = s.staged := rfl
@[simp] theorem faultLow_regs (s : State) :
    (faultLow s).regs = s.regs := rfl
@[simp] theorem faultLow_winL (s : State) :
    (faultLow s).winL = s.winL := rfl
@[simp] theorem faultLow_winD (s : State) :
    (faultLow s).winD = s.winD := rfl
@[simp] theorem faultLow_winOut (s : State) :
    (faultLow s).winOut = s.winOut := rfl
@[simp] theorem faultLow_commit (s : State) :
    (faultLow s).commit = s.commit := rfl
@[simp] theorem faultLow_sessions (s : State) :
    (faultLow s).sessions = s.sessions := rfl
@[simp] theorem faultLow_mmTx (s : State) :
    (faultLow s).mmTx = s.mmTx := rfl
@[simp] theorem faultLow_ev (s : State) :
    (faultLow s).ev = s.ev := rfl
@[simp] theorem faultLow_keys (s : State) :
    (faultLow s).keys = s.keys := rfl
@[simp] theorem faultLow_nv (s : State) :
    (faultLow s).nv = s.nv := rfl
@[simp] theorem faultLow_nvu (s : State) :
    (faultLow s).nvu = s.nvu := rfl
@[simp] theorem faultLow_pwr (s : State) :
    (faultLow s).pwr = s.pwr := rfl
@[simp] theorem faultLow_rk (s : State) :
    (faultLow s).rk = s.rk := rfl
@[simp] theorem faultLow_pool (s : State) :
    (faultLow s).pool = s.pool := rfl
@[simp] theorem faultLow_media (s : State) :
    (faultLow s).media = s.media := rfl
@[simp] theorem faultLow_mseq (s : State) :
    (faultLow s).mseq = s.mseq := rfl
@[simp] theorem faultLow_jack (s : State) :
    (faultLow s).jack = s.jack := rfl
@[simp] theorem faultLow_tagc (s : State) :
    (faultLow s).tagc = s.tagc := rfl
@[simp] theorem faultLow_links (s : State) :
    (faultLow s).links = s.links := rfl
@[simp] theorem faultLow_accts (s : State) :
    (faultLow s).accts = s.accts := rfl
@[simp] theorem faultLow_pastAccts (s : State) :
    (faultLow s).pastAccts = s.pastAccts := rfl
@[simp] theorem faultLow_rwNext (s : State) :
    (faultLow s).rwNext = s.rwNext := rfl
@[simp] theorem faultLow_rep (s : State) :
    (faultLow s).rep = s.rep := rfl

@[simp] theorem kpRespond_free (opc : Byte) (k : KpCmd) (res : Byte) (v : BitVec 24) (s : State) :
    (kpRespond opc k res v s).free = s.free := rfl
@[simp] theorem kpRespond_pending (opc : Byte) (k : KpCmd) (res : Byte) (v : BitVec 24) (s : State) :
    (kpRespond opc k res v s).pending = s.pending := rfl
@[simp] theorem kpRespond_clk (opc : Byte) (k : KpCmd) (res : Byte) (v : BitVec 24) (s : State) :
    (kpRespond opc k res v s).clk = s.clk := rfl
@[simp] theorem kpRespond_pins (opc : Byte) (k : KpCmd) (res : Byte) (v : BitVec 24) (s : State) :
    (kpRespond opc k res v s).pins = s.pins := rfl
@[simp] theorem kpRespond_cfg (opc : Byte) (k : KpCmd) (res : Byte) (v : BitVec 24) (s : State) :
    (kpRespond opc k res v s).cfg = s.cfg := rfl
@[simp] theorem kpRespond_staged (opc : Byte) (k : KpCmd) (res : Byte) (v : BitVec 24) (s : State) :
    (kpRespond opc k res v s).staged = s.staged := rfl
@[simp] theorem kpRespond_regs (opc : Byte) (k : KpCmd) (res : Byte) (v : BitVec 24) (s : State) :
    (kpRespond opc k res v s).regs = s.regs := rfl
@[simp] theorem kpRespond_winL (opc : Byte) (k : KpCmd) (res : Byte) (v : BitVec 24) (s : State) :
    (kpRespond opc k res v s).winL = s.winL := rfl
@[simp] theorem kpRespond_winD (opc : Byte) (k : KpCmd) (res : Byte) (v : BitVec 24) (s : State) :
    (kpRespond opc k res v s).winD = s.winD := rfl
@[simp] theorem kpRespond_winOut (opc : Byte) (k : KpCmd) (res : Byte) (v : BitVec 24) (s : State) :
    (kpRespond opc k res v s).winOut = s.winOut := rfl
@[simp] theorem kpRespond_commit (opc : Byte) (k : KpCmd) (res : Byte) (v : BitVec 24) (s : State) :
    (kpRespond opc k res v s).commit = s.commit := rfl
@[simp] theorem kpRespond_sessions (opc : Byte) (k : KpCmd) (res : Byte) (v : BitVec 24) (s : State) :
    (kpRespond opc k res v s).sessions = s.sessions := rfl
@[simp] theorem kpRespond_mmTx (opc : Byte) (k : KpCmd) (res : Byte) (v : BitVec 24) (s : State) :
    (kpRespond opc k res v s).mmTx = s.mmTx := rfl
@[simp] theorem kpRespond_ev (opc : Byte) (k : KpCmd) (res : Byte) (v : BitVec 24) (s : State) :
    (kpRespond opc k res v s).ev = s.ev := rfl
@[simp] theorem kpRespond_nv (opc : Byte) (k : KpCmd) (res : Byte) (v : BitVec 24) (s : State) :
    (kpRespond opc k res v s).nv = s.nv := rfl
@[simp] theorem kpRespond_nvu (opc : Byte) (k : KpCmd) (res : Byte) (v : BitVec 24) (s : State) :
    (kpRespond opc k res v s).nvu = s.nvu := rfl
@[simp] theorem kpRespond_pwr (opc : Byte) (k : KpCmd) (res : Byte) (v : BitVec 24) (s : State) :
    (kpRespond opc k res v s).pwr = s.pwr := rfl
@[simp] theorem kpRespond_rk (opc : Byte) (k : KpCmd) (res : Byte) (v : BitVec 24) (s : State) :
    (kpRespond opc k res v s).rk = s.rk := rfl
@[simp] theorem kpRespond_pool (opc : Byte) (k : KpCmd) (res : Byte) (v : BitVec 24) (s : State) :
    (kpRespond opc k res v s).pool = s.pool := rfl
@[simp] theorem kpRespond_media (opc : Byte) (k : KpCmd) (res : Byte) (v : BitVec 24) (s : State) :
    (kpRespond opc k res v s).media = s.media := rfl
@[simp] theorem kpRespond_mseq (opc : Byte) (k : KpCmd) (res : Byte) (v : BitVec 24) (s : State) :
    (kpRespond opc k res v s).mseq = s.mseq := rfl
@[simp] theorem kpRespond_jack (opc : Byte) (k : KpCmd) (res : Byte) (v : BitVec 24) (s : State) :
    (kpRespond opc k res v s).jack = s.jack := rfl
@[simp] theorem kpRespond_tagc (opc : Byte) (k : KpCmd) (res : Byte) (v : BitVec 24) (s : State) :
    (kpRespond opc k res v s).tagc = s.tagc := rfl
@[simp] theorem kpRespond_links (opc : Byte) (k : KpCmd) (res : Byte) (v : BitVec 24) (s : State) :
    (kpRespond opc k res v s).links = s.links := rfl
@[simp] theorem kpRespond_accts (opc : Byte) (k : KpCmd) (res : Byte) (v : BitVec 24) (s : State) :
    (kpRespond opc k res v s).accts = s.accts := rfl
@[simp] theorem kpRespond_pastAccts (opc : Byte) (k : KpCmd) (res : Byte) (v : BitVec 24) (s : State) :
    (kpRespond opc k res v s).pastAccts = s.pastAccts := rfl
@[simp] theorem kpRespond_rwNext (opc : Byte) (k : KpCmd) (res : Byte) (v : BitVec 24) (s : State) :
    (kpRespond opc k res v s).rwNext = s.rwNext := rfl
@[simp] theorem kpRespond_rep (opc : Byte) (k : KpCmd) (res : Byte) (v : BitVec 24) (s : State) :
    (kpRespond opc k res v s).rep = s.rep := rfl

@[simp] theorem winAck_free (err : Bool) (v : Nat) (s : State) :
    (winAck err v s).free = s.free := rfl
@[simp] theorem winAck_pending (err : Bool) (v : Nat) (s : State) :
    (winAck err v s).pending = s.pending := rfl
@[simp] theorem winAck_clk (err : Bool) (v : Nat) (s : State) :
    (winAck err v s).clk = s.clk := rfl
@[simp] theorem winAck_pins (err : Bool) (v : Nat) (s : State) :
    (winAck err v s).pins = s.pins := rfl
@[simp] theorem winAck_cfg (err : Bool) (v : Nat) (s : State) :
    (winAck err v s).cfg = s.cfg := rfl
@[simp] theorem winAck_staged (err : Bool) (v : Nat) (s : State) :
    (winAck err v s).staged = s.staged := rfl
@[simp] theorem winAck_regs (err : Bool) (v : Nat) (s : State) :
    (winAck err v s).regs = s.regs := rfl
@[simp] theorem winAck_winL (err : Bool) (v : Nat) (s : State) :
    (winAck err v s).winL = s.winL := rfl
@[simp] theorem winAck_winD (err : Bool) (v : Nat) (s : State) :
    (winAck err v s).winD = s.winD := rfl
@[simp] theorem winAck_commit (err : Bool) (v : Nat) (s : State) :
    (winAck err v s).commit = s.commit := rfl
@[simp] theorem winAck_sessions (err : Bool) (v : Nat) (s : State) :
    (winAck err v s).sessions = s.sessions := rfl
@[simp] theorem winAck_mmTx (err : Bool) (v : Nat) (s : State) :
    (winAck err v s).mmTx = s.mmTx := rfl
@[simp] theorem winAck_ev (err : Bool) (v : Nat) (s : State) :
    (winAck err v s).ev = s.ev := rfl
@[simp] theorem winAck_keys (err : Bool) (v : Nat) (s : State) :
    (winAck err v s).keys = s.keys := rfl
@[simp] theorem winAck_nv (err : Bool) (v : Nat) (s : State) :
    (winAck err v s).nv = s.nv := rfl
@[simp] theorem winAck_nvu (err : Bool) (v : Nat) (s : State) :
    (winAck err v s).nvu = s.nvu := rfl
@[simp] theorem winAck_pwr (err : Bool) (v : Nat) (s : State) :
    (winAck err v s).pwr = s.pwr := rfl
@[simp] theorem winAck_rk (err : Bool) (v : Nat) (s : State) :
    (winAck err v s).rk = s.rk := rfl
@[simp] theorem winAck_pool (err : Bool) (v : Nat) (s : State) :
    (winAck err v s).pool = s.pool := rfl
@[simp] theorem winAck_media (err : Bool) (v : Nat) (s : State) :
    (winAck err v s).media = s.media := rfl
@[simp] theorem winAck_mseq (err : Bool) (v : Nat) (s : State) :
    (winAck err v s).mseq = s.mseq := rfl
@[simp] theorem winAck_jack (err : Bool) (v : Nat) (s : State) :
    (winAck err v s).jack = s.jack := rfl
@[simp] theorem winAck_tagc (err : Bool) (v : Nat) (s : State) :
    (winAck err v s).tagc = s.tagc := rfl
@[simp] theorem winAck_links (err : Bool) (v : Nat) (s : State) :
    (winAck err v s).links = s.links := rfl
@[simp] theorem winAck_accts (err : Bool) (v : Nat) (s : State) :
    (winAck err v s).accts = s.accts := rfl
@[simp] theorem winAck_pastAccts (err : Bool) (v : Nat) (s : State) :
    (winAck err v s).pastAccts = s.pastAccts := rfl
@[simp] theorem winAck_rwNext (err : Bool) (v : Nat) (s : State) :
    (winAck err v s).rwNext = s.rwNext := rfl
@[simp] theorem winAck_rep (err : Bool) (v : Nat) (s : State) :
    (winAck err v s).rep = s.rep := rfl

@[simp] theorem slotPut_keys_kek (kidx : Nat) (x : Slot) (s : State) :
    (slotPut kidx x s).keys.kek = s.keys.kek := rfl
@[simp] theorem slotPut_keys_mks (kidx : Nat) (x : Slot) (s : State) :
    (slotPut kidx x s).keys.mks = s.keys.mks := rfl
@[simp] theorem slotPut_keys_zer (kidx : Nat) (x : Slot) (s : State) :
    (slotPut kidx x s).keys.zer = s.keys.zer := rfl
@[simp] theorem slotPut_keys_kpRsp (kidx : Nat) (x : Slot) (s : State) :
    (slotPut kidx x s).keys.kpRsp = s.keys.kpRsp := rfl
@[simp] theorem slotPut_keys_eraseNext (kidx : Nat) (x : Slot) (s : State) :
    (slotPut kidx x s).keys.eraseNext = s.keys.eraseNext := rfl
@[simp] theorem slotPut_keys_debugLock (kidx : Nat) (x : Slot) (s : State) :
    (slotPut kidx x s).keys.debugLock = s.keys.debugLock := rfl

@[simp] theorem kpRespond_keys_kek (opc : Byte) (k : KpCmd) (res : Byte) (v : BitVec 24) (s : State) :
    (kpRespond opc k res v s).keys.kek = s.keys.kek := rfl
@[simp] theorem kpRespond_keys_mks (opc : Byte) (k : KpCmd) (res : Byte) (v : BitVec 24) (s : State) :
    (kpRespond opc k res v s).keys.mks = s.keys.mks := rfl
@[simp] theorem kpRespond_keys_slots (opc : Byte) (k : KpCmd) (res : Byte) (v : BitVec 24) (s : State) :
    (kpRespond opc k res v s).keys.slots = s.keys.slots := rfl
@[simp] theorem kpRespond_keys_zer (opc : Byte) (k : KpCmd) (res : Byte) (v : BitVec 24) (s : State) :
    (kpRespond opc k res v s).keys.zer = s.keys.zer := rfl
@[simp] theorem kpRespond_keys_eraseNext (opc : Byte) (k : KpCmd) (res : Byte) (v : BitVec 24) (s : State) :
    (kpRespond opc k res v s).keys.eraseNext = s.keys.eraseNext := rfl
@[simp] theorem kpRespond_keys_debugLock (opc : Byte) (k : KpCmd) (res : Byte) (v : BitVec 24) (s : State) :
    (kpRespond opc k res v s).keys.debugLock = s.keys.debugLock := rfl

@[simp] theorem ctxPut_rk_queue (c : Nat) (x : Ctx) (s : State) :
    (ctxPut c x s).rk.queue = s.rk.queue := rfl
@[simp] theorem ctxPut_rk_rr (c : Nat) (x : Ctx) (s : State) :
    (ctxPut c x s).rk.rr = s.rk.rr := rfl

@[simp] theorem eqPut_pool_items (p : Nat) (l : List Rsp) (s : State) :
    (eqPut p l s).pool.items = s.pool.items := rfl
@[simp] theorem eqPut_pool_txns (p : Nat) (l : List Rsp) (s : State) :
    (eqPut p l s).pool.txns = s.pool.txns := rfl
@[simp] theorem eqPut_pool_fences (p : Nat) (l : List Rsp) (s : State) :
    (eqPut p l s).pool.fences = s.pool.fences := rfl
@[simp] theorem eqPut_pool_owner (p : Nat) (l : List Rsp) (s : State) :
    (eqPut p l s).pool.owner = s.pool.owner := rfl
@[simp] theorem eqPut_pool_spare (p : Nat) (l : List Rsp) (s : State) :
    (eqPut p l s).pool.spare = s.pool.spare := rfl
@[simp] theorem eqPut_pool_dmOut (p : Nat) (l : List Rsp) (s : State) :
    (eqPut p l s).pool.dmOut = s.pool.dmOut := rfl
@[simp] theorem eqPut_pool_masterStop (p : Nat) (l : List Rsp) (s : State) :
    (eqPut p l s).pool.masterStop = s.pool.masterStop := rfl
@[simp] theorem eqPut_pool_masterReset (p : Nat) (l : List Rsp) (s : State) :
    (eqPut p l s).pool.masterReset = s.pool.masterReset := rfl

@[simp] theorem slicePut_rep_holds (i : Nat) (x : Slice) (s : State) :
    (slicePut i x s).rep.holds = s.rep.holds := rfl
@[simp] theorem slicePut_rep_watch (i : Nat) (x : Slice) (s : State) :
    (slicePut i x s).rep.watch = s.rep.watch := rfl
@[simp] theorem slicePut_rep_queue (i : Nat) (x : Slice) (s : State) :
    (slicePut i x s).rep.queue = s.rep.queue := rfl
@[simp] theorem slicePut_rep_remap (i : Nat) (x : Slice) (s : State) :
    (slicePut i x s).rep.remap = s.rep.remap := rfl
@[simp] theorem slicePut_rep_spares (i : Nat) (x : Slice) (s : State) :
    (slicePut i x s).rep.spares = s.rep.spares := rfl
@[simp] theorem slicePut_rep_badRows (i : Nat) (x : Slice) (s : State) :
    (slicePut i x s).rep.badRows = s.rep.badRows := rfl

@[simp] theorem faultLow_pins_pinOe (s : State) :
    (faultLow s).pins.pinOe = s.pins.pinOe := rfl
@[simp] theorem faultLow_pins_persistOk (s : State) :
    (faultLow s).pins.persistOk = s.pins.persistOk := rfl
@[simp] theorem faultLow_pins_zeroized (s : State) :
    (faultLow s).pins.zeroized = s.pins.zeroized := rfl

/-- A slot after a slot is put. -/
@[simp] theorem slotOf_slotPut (k : Nat) (x : Slot) (s : State) (j : Nat) :
    slotOf (slotPut k x s) j = if j = k then x else slotOf s j := tabGet_tabPut _ _ _ _ _

/-- A context after a context is put. -/
@[simp] theorem ctxOf_ctxPut (c : Nat) (x : Ctx) (s : State) (d : Nat) :
    ctxOf (ctxPut c x s) d = if d = c then x else ctxOf s d := tabGet_tabPut _ _ _ _ _

/-- A media port after one is put. -/
@[simp] theorem mediaOf_mediaPut (m : Nat) (x : Media) (s : State) (n : Nat) :
    mediaOf (mediaPut m x s) n = if n = m then x else mediaOf s n := tabGet_tabPut _ _ _ _ _

/-- A link after one is put. -/
@[simp] theorem linkOf_linkPut (p : Nat) (x : LinkSt) (s : State) (q : Nat) :
    linkOf (linkPut p x s) q = if q = p then x else linkOf s q := tabGet_tabPut _ _ _ _ _

/-- A link after one is changed. -/
@[simp] theorem linkOf_linkMod (p : Nat) (f : LinkSt → LinkSt) (s : State) (q : Nat) :
    linkOf (linkMod p f s) q = if q = p then f (linkOf s p) else linkOf s q := linkOf_linkPut _ _ _ _

/-- An egress queue after one is put. -/
@[simp] theorem eqOf_eqPut (p : Nat) (l : List Rsp) (s : State) (q : Nat) :
    eqOf (eqPut p l s) q = if q = p then l else eqOf s q := tabGet_tabPut _ _ _ _ _

/-- A slice after one is put. -/
@[simp] theorem sliceOf_slicePut (i : Nat) (x : Slice) (s : State) (j : Nat) :
    sliceOf (slicePut i x s) j = if j = i then x else sliceOf s j := by
  unfold sliceOf slicePut
  simp only [tabFind_tabSet]
  split
  · rfl
  · rfl

/-- Probes of a port after they are put. -/
@[simp] theorem probesOf_probesPut (m : Nat) (l : List Probe) (s : State) (n : Nat) :
    probesOf (probesPut m l s) n = if n = m then l else probesOf s n := tabGet_tabPut _ _ _ _ _

/-- A register after it is put. -/
@[simp] theorem regVal_regPut_same (idx sub row v : Nat) (s : State) :
    regVal (regPut idx sub row v s) idx sub row = v := by
  unfold regVal regPut
  rw [tabGet_tabPut, if_pos rfl]

/-- Another register after one is put. -/
theorem regVal_regPut_ne (idx sub row v : Nat) (s : State) (i j r : Nat) (h : okey i j r ≠ okey idx sub row) :
    regVal (regPut idx sub row v s) i j r = regVal s i j r := by
  unfold regVal regPut
  exact tabGet_tabPut_ne _ _ _ _ _ _ h

/-- A snapshot after it is put. -/
theorem regVal_snapPut_ne (idx sub row v : Nat) (s : State) (i j r : Nat) (h : okey i j r ≠ okey idx sub row) :
    regVal (snapPut idx sub row v s) i j r = regVal s i j r := by
  unfold regVal snapPut
  exact tabGet_tabPut_ne _ _ _ _ _ _ h

/-- An RWS value in force after it is put. -/
@[simp] theorem cfgVal_cfgPut_same (idx sub row v : Nat) (s : State) :
    cfgVal (cfgPut idx sub row v s) idx sub row = v := by
  unfold cfgVal cfgPut
  rw [tabGet_tabPut, if_pos rfl]

/-- Another RWS value in force after one is put. -/
theorem cfgVal_cfgPut_ne (idx sub row v : Nat) (s : State) (i j r : Nat) (h : okey i j r ≠ okey idx sub row) :
    cfgVal (cfgPut idx sub row v s) i j r = cfgVal s i j r := by
  unfold cfgVal cfgPut
  exact tabGet_tabPut_ne _ _ _ _ _ _ h

/-- Store numbers of objects are distinct: index, subindex and row can be read back (R309). -/
theorem okey_inj (i j r i' j' r' : Nat) (hj : j < 256) (hj' : j' < 256) (hr : r < 16777216) (hr' : r' < 16777216) :
    okey i j r = okey i' j' r' ↔ i = i' ∧ j = j' ∧ r = r' := by
  unfold okey
  constructor
  · intro h
    refine ⟨?_, ?_, ?_⟩ <;> omega
  · rintro ⟨rfl, rfl, rfl⟩
    rfl

end Sys2Proof.Machine
end

