-- ==== Sys2Proof/Laws/Ops.lean ====
section
/-! SUPPORT. What the shared operations leave alone: each equals its state with the named fields replaced. -/

namespace Sys2Proof.Machine

-- Counters and events

theorem countUp_frame (idx sub row n : Nat) (s : State) :
    countUp idx sub row n s = { s with regs := (countUp idx sub row n s).regs } := rfl

theorem count1_frame (idx sub row : Nat) (s : State) :
    count1 idx sub row s = { s with regs := (count1 idx sub row s).regs } := rfl

/-- A U16 or U32 counter outside the superframe statistics stops at its largest value (R342). -/
theorem regVal_count1 {idx sub row : Nat} {s : State} (h6 : idx ≠ 0x6000) (hm : typeMax idx sub ≠ 2 ^ 64 - 1) :
    regVal (count1 idx sub row s) idx sub row = min (regVal s idx sub row + 1) (typeMax idx sub) := by
  simp only [count1, countUp, h6, hm, or_self, if_false, regVal_regPut_same]

theorem alertSet_frame (route sev : Nat) (s : State) :
    alertSet route sev s = { s with regs := (alertSet route sev s).regs } := by
  unfold alertSet; split <;> rfl

theorem srcNote_frame (src code sev : Nat) (r : Bool) (s : State) :
    srcNote src code sev r s = { s with regs := (srcNote src code sev r s).regs, ev := (srcNote src code sev r s).ev } := by
  simp only [srcNote, count1, countUp, regPut]

/-- An occurrence changes registers and the event unit alone. -/
theorem raiseSev_frame (e : Ev) (sev src p1 p2 p3 : Nat) (s : State) :
    raiseSev e sev src p1 p2 p3 s =
      { s with regs := (raiseSev e sev src p1 p2 p3 s).regs, ev := (raiseSev e sev src p1 p2 p3 s).ev } := by
  unfold raiseSev
  split
  · rfl
  · dsimp only
    split
    · rw [alertSet_frame, srcNote_frame]
    · rw [srcNote_frame]

theorem raise_frame (e : Ev) (src p1 p2 p3 : Nat) (s : State) :
    raise e src p1 p2 p3 s =
      { s with regs := (raise e src p1 p2 p3 s).regs, ev := (raise e src p1 p2 p3 s).ev } :=
  raiseSev_frame e _ src p1 p2 p3 s

/-- A fold of functions that change registers and the event unit alone changes no more. -/
theorem foldl_raise {α : Type} (f : State → α → State)
    (h : ∀ s x, f s x = { s with regs := (f s x).regs, ev := (f s x).ev }) (l : List α) (s : State) :
    l.foldl f s = { s with regs := (l.foldl f s).regs, ev := (l.foldl f s).ev } := by
  induction l generalizing s with
  | nil => rfl
  | cons x t ih => rw [List.foldl_cons, ih, h]

theorem sumFlush_frame (s : State) (e : Nat × FrameSum) :
    sumFlush s e = { s with regs := (sumFlush s e).regs, ev := (sumFlush s e).ev } := by
  unfold sumFlush
  split
  · exact raise_frame ..
  · rfl

theorem sumAmend_frame (s : State) (e : Nat × FrameSum) : sumAmend s e = { s with ev := (sumAmend s e).ev } := by
  unfold sumAmend
  split
  · dsimp only
    split <;> rfl
  · rfl

theorem sumSet_frame (k : Nat) (f : FrameSum) (s : State) :
    sumSet k f s = { s with regs := (sumSet k f s).regs, ev := (sumSet k f s).ev } := by
  unfold sumSet
  dsimp only
  split
  · rfl
  · split
    · rw [sumAmend_frame]
    · rw [sumFlush_frame]

/-- A count "in the frame" changes the event unit and, once the frame is closed, registers. -/
theorem sumUp_frame (e : Ev) (src a b c : Nat) (s : State) :
    sumUp e src a b c s = { s with regs := (sumUp e src a b c s).regs, ev := (sumUp e src a b c s).ev } :=
  sumSet_frame ..

-- Credits, responses and the link drop

theorem creditRaise_frame (k : Nat) (s : State) :
    creditRaise k s = { s with accts := (creditRaise k s).accts, pastAccts := (creditRaise k s).pastAccts } := by
  unfold creditRaise
  split
  · rfl
  · split
    · split <;> rfl
    · dsimp only
      split <;> rfl

theorem partnerPush_frame (p : Nat) (r : Rsp) (s : State) :
    partnerPush p r s = { s with links := (partnerPush p r s).links, pool := (partnerPush p r s).pool } := by
  unfold partnerPush
  split <;> rfl

theorem grantSend_frame (n p : Nat) (ks : List Nat) (s : State) :
    grantSend n p ks s = { s with links := (grantSend n p ks s).links, accts := (grantSend n p ks s).accts,
                                  pool := (grantSend n p ks s).pool } := by
  induction n generalizing ks s with
  | zero => rfl
  | succ n ih =>
    unfold grantSend
    split
    · rfl
    · dsimp only
      rw [ih, partnerPush_frame]

theorem grantBatch_frame (p : Nat) (s : State) :
    grantBatch p s = { s with links := (grantBatch p s).links, accts := (grantBatch p s).accts,
                              pool := (grantBatch p s).pool } := by
  unfold grantBatch
  dsimp only
  split
  · exact grantSend_frame ..
  · rfl

/-- A fold of functions that change accounts, links and the pool alone changes no more. -/
theorem foldl_credit {α : Type} (f : State → α → State)
    (h : ∀ s x, f s x = { s with links := (f s x).links, accts := (f s x).accts, pastAccts := (f s x).pastAccts,
                                 pool := (f s x).pool }) (l : List α) (s : State) :
    l.foldl f s = { s with links := (l.foldl f s).links, accts := (l.foldl f s).accts,
                           pastAccts := (l.foldl f s).pastAccts, pool := (l.foldl f s).pool } := by
  induction l generalizing s with
  | nil => rfl
  | cons x t ih => rw [List.foldl_cons, ih, h]

theorem creditRaiseAll_frame (s : State) :
    creditRaiseAll s = { s with links := (creditRaiseAll s).links, accts := (creditRaiseAll s).accts,
                                pastAccts := (creditRaiseAll s).pastAccts, pool := (creditRaiseAll s).pool } := by
  unfold creditRaiseAll
  dsimp only
  rw [foldl_credit (fun s p => grantBatch p s) (fun s p => by rw [grantBatch_frame]),
    foldl_credit (fun s k => creditRaise k s) (fun s k => by rw [creditRaise_frame])]

theorem creditSettle_frame (p k : Nat) (s : State) :
    creditSettle p k s = { s with links := (creditSettle p k s).links, accts := (creditSettle p k s).accts,
                                  pastAccts := (creditSettle p k s).pastAccts, pool := (creditSettle p k s).pool } := by
  unfold creditSettle
  dsimp only
  split
  · rw [creditRaiseAll_frame, creditRaise_frame]
  · rw [grantBatch_frame, creditRaise_frame]

/-- The release of cells changes accounts, links and the pool alone. -/
theorem creditRelease_frame (p sid n : Nat) (s : State) :
    creditRelease p sid n s =
      { s with links := (creditRelease p sid n s).links, accts := (creditRelease p sid n s).accts,
               pastAccts := (creditRelease p sid n s).pastAccts, pool := (creditRelease p sid n s).pool } := by
  unfold creditRelease
  dsimp only
  split
  · rfl
  · rw [creditSettle_frame]

theorem linkDropPool_changes (p : Nat) (s : State) :
    linkDropPool p s =
      { s with links := (linkDropPool p s).links, accts := (linkDropPool p s).accts,
               pastAccts := (linkDropPool p s).pastAccts, pool := (linkDropPool p s).pool } := by
  unfold linkDropPool
  dsimp only
  rw [foldl_credit (fun s r => if rspPartner r then s else creditRelease p r.sid.toNat 1 s) (fun s r => by
    split
    · rfl
    · rw [creditRelease_frame])]
  rfl

/-- The drop of a link changes registers, the event unit, accounts, links and the pool alone. -/
theorem linkDown_changes (p c : Nat) (s : State) :
    linkDown p c s =
      { s with regs := (linkDown p c s).regs, ev := (linkDown p c s).ev, links := (linkDown p c s).links,
               accts := (linkDown p c s).accts, pastAccts := (linkDown p c s).pastAccts, pool := (linkDown p c s).pool } := by
  have key : ∀ (w : State) (f : LinkSt → LinkSt), w = { s with regs := w.regs, ev := w.ev } →
      linkMod p f (linkDropPool p w) =
        { s with regs := (linkMod p f (linkDropPool p w)).regs, ev := (linkMod p f (linkDropPool p w)).ev,
                 links := (linkMod p f (linkDropPool p w)).links, accts := (linkMod p f (linkDropPool p w)).accts,
                 pastAccts := (linkMod p f (linkDropPool p w)).pastAccts,
                 pool := (linkMod p f (linkDropPool p w)).pool } := by
    intro w f hw
    rw [linkDropPool_changes]
    generalize linkDropPool p w = v
    rw [hw]
    rfl
  unfold linkDown
  dsimp only
  exact key _ _ (by rw [raise_frame]; rfl)

theorem queueNewId_frame (q : Nat) (s : State) :
    (queueNewId q s).2 = { s with pool := (queueNewId q s).2.pool } := by
  unfold queueNewId
  split <;> rfl

theorem egressStuck_frame (p : Nat) (s : State) :
    egressStuck p s = { s with links := (egressStuck p s).links, pool := (egressStuck p s).pool } := by
  unfold egressStuck
  dsimp only
  have h : ∀ (l : List FateEnt) (s : State), l.foldl (fun s f => linkFate p f s) s =
      { s with links := (l.foldl (fun s f => linkFate p f s) s).links } := by
    intro l
    induction l with
    | nil => intro s; rfl
    | cons x t ih => intro s; rw [List.foldl_cons, ih]; rfl
  rw [h]
  rfl

/-- A mismatch of an egress queue changes what the drop of its link changes. -/
theorem egressReset_frame (q fld : Nat) (s : State) :
    egressReset q fld s =
      { s with regs := (egressReset q fld s).regs, ev := (egressReset q fld s).ev, links := (egressReset q fld s).links,
               accts := (egressReset q fld s).accts, pastAccts := (egressReset q fld s).pastAccts,
               pool := (egressReset q fld s).pool } := by
  unfold egressReset
  dsimp only
  generalize hn : (if decide (q % 2 = 1) = true then (eqOf s ((q - 128) / 2)).length else 0) = n
  rw [raise_frame]
  generalize hu : ({ count1 0x6090 3 0 (ptrMend q s) with
    regs := (raise Ev.qPtrMismatch (queueSrc q) q fld n (count1 0x6090 3 0 (ptrMend q s))).regs
    ev := (raise Ev.qPtrMismatch (queueSrc q) q fld n (count1 0x6090 3 0 (ptrMend q s))).ev } : State) = u
  have hs : u = { s with regs := u.regs, ev := u.ev, pool := u.pool } := by rw [← hu]; rfl
  rcases hq : queueNewId q u with ⟨ok, v⟩
  have hv : v = { u with pool := v.pool } := by have := queueNewId_frame q u; rw [hq] at this; exact this
  dsimp only
  cases ok <;> (by_cases hr : q % 2 = 1) <;>
    simp only [hr, decide_true, decide_false, Bool.false_eq_true, if_true, if_false] <;>
    (try rw [linkDown_changes]) <;> (try rw [count1_frame]) <;> (try rw [egressStuck_frame]) <;> (try rw [raise_frame]) <;>
    rw [hv, hs]

/-- A response that joins its queue changes what a mismatch of that queue may change. -/
theorem eqJoin_frame (p : Nat) (r : Rsp) (s : State) :
    eqJoin p r s =
      { s with regs := (eqJoin p r s).regs, ev := (eqJoin p r s).ev, links := (eqJoin p r s).links,
               accts := (eqJoin p r s).accts, pastAccts := (eqJoin p r s).pastAccts, pool := (eqJoin p r s).pool } := by
  unfold eqJoin
  dsimp only
  split
  · rw [egressReset_frame]; rfl
  · rfl

/-- A response joins the queue of its link where that queue is sound. -/
theorem eqJoin_sound {p : Nat} {r : Rsp} {s : State} (h : tabFind s.pool.ptrBad (129 + 2 * p) = none) :
    eqJoin p r s = eqPut p (eqOf s p ++ [r]) s := by
  have h' : tabFind (eqPut p (eqOf s p ++ [r]) s).pool.ptrBad (129 + 2 * p) = none := h
  unfold eqJoin
  dsimp only
  rw [h']

/-- A response changes accounts, the pool, links and, where its queue's pointers differ, registers and the event unit. -/
theorem rspSend_frame (src : Src) (sid : BitVec 12) (gone : Bool) (r : Rsp) (cells : Nat) (s : State) :
    rspSend src sid gone r cells s =
      { s with regs := (rspSend src sid gone r cells s).regs, ev := (rspSend src sid gone r cells s).ev,
               links := (rspSend src sid gone r cells s).links, accts := (rspSend src sid gone r cells s).accts,
               pastAccts := (rspSend src sid gone r cells s).pastAccts, pool := (rspSend src sid gone r cells s).pool } := by
  unfold rspSend
  split
  · split
    · dsimp only
      rw [creditRelease_frame]
      split <;> rfl
    · rw [creditRelease_frame, eqJoin_frame]
  · rfl

theorem rspStats_frame (src : Src) (op : ReqOp) (st : Nat) (s : State) :
    rspStats src op st s = { s with regs := (rspStats src op st s).regs } := by
  unfold rspStats
  dsimp only
  split <;> split <;> try split
  all_goals first | rfl | (split <;> rfl)

/-- A completion changes registers, the event unit, links, accounts and the pool alone. -/
theorem complete_frame (it : Item) (status : Nat) (data : Option Line) (psn : Bool) (extra : Side) (cells : Nat)
    (s : State) :
    complete it status data psn extra cells s =
      { s with regs := (complete it status data psn extra cells s).regs,
               ev := (complete it status data psn extra cells s).ev,
               links := (complete it status data psn extra cells s).links,
               accts := (complete it status data psn extra cells s).accts,
               pastAccts := (complete it status data psn extra cells s).pastAccts,
               pool := (complete it status data psn extra cells s).pool } := by
  unfold complete
  dsimp only
  rw [rspSend_frame, rspStats_frame]

theorem completeBare_frame (it : Item) (status cells : Nat) (s : State) :
    completeBare it status cells s =
      { s with regs := (completeBare it status cells s).regs, ev := (completeBare it status cells s).ev,
               links := (completeBare it status cells s).links, accts := (completeBare it status cells s).accts,
               pastAccts := (completeBare it status cells s).pastAccts, pool := (completeBare it status cells s).pool } :=
  complete_frame ..

/-- A fold of functions that keep a part of the state keeps it. -/
theorem foldl_keeps {α β : Type} (π : State → β) (f : State → α → State) (h : ∀ s x, π (f s x) = π s) (l : List α)
    (s : State) : π (l.foldl f s) = π s := by
  induction l generalizing s with
  | nil => rfl
  | cons x t ih => rw [List.foldl_cons, ih, h]

-- The NV unit

theorem jobNote_frame (s : State) (j : NvJob) :
    jobNote s j = { s with regs := (jobNote s j).regs, ev := (jobNote s j).ev } := by
  unfold jobNote
  split
  · rfl
  · split
    · rfl
    · unfold selNote
      split
      · unfold nvNote; rw [raise_frame]; rfl
      · rfl

/-- The next page commit changes the NV unit and, by what its selection reports, registers and the event unit. -/
theorem nvKick_frame (s : State) :
    nvKick s = { s with nvu := (nvKick s).nvu, regs := (nvKick s).regs, ev := (nvKick s).ev } := by
  unfold nvKick
  split
  · rfl
  · split
    · rfl
    · split
      · split
        · split
          rw [foldl_raise _ jobNote_frame]
        · rfl
      · split <;> rfl

/-- A queued change changes the NV unit and, by what its selection reports, registers and the event unit. -/
theorem nvPush_frame (j : NvJob) (s : State) :
    nvPush j s = { s with nvu := (nvPush j s).nvu, regs := (nvPush j s).regs, ev := (nvPush j s).ev } := by
  unfold nvPush
  split
  · rw [nvKick_frame]
  · rfl

-- Issue

theorem issueW_frame (m : Nat) (o : MOp) (s : State) :
    issueW m o s = { s with media := (issueW m o s).media, mseq := s.mseq + 1 } := rfl

theorem issueR_frame (m : Nat) (o : MOp) (s : State) :
    issueR m o s = { s with media := (issueR m o s).media, mseq := s.mseq + 1 } := rfl

end Sys2Proof.Machine
end

