-- ==== Sys2Proof/Laws/Link.lean ====
section
/-! SUPPORT. What the drop of a link does, once and for all its causes. -/

namespace Sys2Proof.Machine

/-- What the release of cells may do while link p is down: grants reach other links alone, as partner-agent items and as
those that wait for a kept cell (R239, R240, R246). -/
structure Fed (p : Nat) (s t : State) : Prop where
  self : linkOf t p = linkOf s p ∧ eqOf t p = eqOf s p
  links : ∀ q, linkOf t q = { linkOf s q with feed := (linkOf t q).feed }
  queues : ∀ q, (eqOf t q).filter (fun r => !rspPartner r) = (eqOf s q).filter (fun r => !rspPartner r)
  pool : t.pool = { s.pool with eq := t.pool.eq }
  frame : t = { s with links := t.links, accts := t.accts, pastAccts := t.pastAccts, pool := t.pool }

theorem Fed.refl (p : Nat) (s : State) : Fed p s s := ⟨⟨rfl, rfl⟩, fun _ => rfl, fun _ => rfl, rfl, rfl⟩

theorem Fed.trans {p : Nat} {s t u : State} (h : Fed p s t) (g : Fed p t u) : Fed p s u where
  self := ⟨g.self.1.trans h.self.1, g.self.2.trans h.self.2⟩
  links q := by rw [g.links q, h.links q]
  queues q := (g.queues q).trans (h.queues q)
  pool := by rw [g.pool, h.pool]
  frame := by rw [g.frame, h.frame]

theorem Fed.foldl {α : Type} {p : Nat} (f : State → α → State) (h : ∀ s x, (linkOf s p).up = false → Fed p s (f s x))
    (l : List α) (s : State) (hs : (linkOf s p).up = false) : Fed p s (l.foldl f s) := by
  induction l generalizing s with
  | nil => exact Fed.refl ..
  | cons x t ih =>
    rw [List.foldl_cons]
    have g := h s x hs
    exact g.trans (ih _ (by rw [g.self.1]; exact hs))

/-- A change of accounts alone. -/
theorem Fed.accts {p : Nat} {s t : State} (h : t = { s with accts := t.accts, pastAccts := t.pastAccts }) : Fed p s t := by
  rw [h]
  exact ⟨⟨rfl, rfl⟩, fun _ => rfl, fun _ => rfl, rfl, rfl⟩

/-- A change of the accounts of the links. -/
theorem Fed.put (p : Nat) (a : Tab Acct) (s : State) : Fed p s { s with accts := a } :=
  ⟨⟨rfl, rfl⟩, fun _ => rfl, fun _ => rfl, rfl, rfl⟩

theorem partnerPush_fed {p q : Nat} (r : Rsp) (s : State) (hr : rspPartner r = true) (hq : q ≠ p) :
    Fed p s (partnerPush q r s) := by
  unfold partnerPush
  split
  · unfold partnerLink
    have e : ∀ k, eqOf (eqPut q ((eqOf s q).takeWhile rspPartner ++ r :: (eqOf s q).dropWhile rspPartner) s) k =
        if k = q then (eqOf s q).takeWhile rspPartner ++ r :: (eqOf s q).dropWhile rspPartner else eqOf s k := by
      intro k
      show tabGet [] (tabPut [] s.pool.eq q _) k = _
      rw [tabGet_tabPut]; rfl
    refine ⟨⟨rfl, by rw [e, if_neg (Ne.symm hq)]⟩, fun _ => rfl, fun k => ?_, rfl, rfl⟩
    rw [e]
    by_cases hk : k = q
    · subst hk
      rw [if_pos rfl]
      have g := congrArg (List.filter (fun r => !rspPartner r)) (List.takeWhile_append_dropWhile (p := rspPartner) (l := eqOf s k))
      rw [List.filter_append] at g
      rw [← g, List.filter_append, List.filter_cons_of_neg (by simp [hr])]
    · rw [if_neg hk]
  · refine ⟨⟨by rw [linkOf_linkMod, if_neg (Ne.symm hq)], rfl⟩, fun k => ?_, fun _ => rfl, rfl, rfl⟩
    rw [linkOf_linkMod]
    by_cases hk : k = q
    · subst hk; rw [if_pos rfl]
    · rw [if_neg hk]

theorem grantSend_fed {p q : Nat} (hq : q ≠ p) (n : Nat) (ks : List Nat) (s : State) : Fed p s (grantSend n q ks s) := by
  induction n generalizing ks s with
  | zero => exact Fed.refl ..
  | succ n ih =>
    unfold grantSend
    split
    · exact Fed.refl ..
    · dsimp only
      exact ((Fed.put p _ s).trans (partnerPush_fed _ _ rfl hq)).trans (ih ..)

theorem grantBatch_fed (p q : Nat) (s : State) (h : (linkOf s p).up = false) : Fed p s (grantBatch q s) := by
  unfold grantBatch
  dsimp only
  split
  · rename_i hs
    refine grantSend_fed (fun hq => ?_) ..
    subst hq
    simp [linkServes, h] at hs
  · exact Fed.refl ..

theorem creditRaise_fed (p k : Nat) (s : State) : Fed p s (creditRaise k s) := Fed.accts (creditRaise_frame k s)

theorem creditRaiseAll_fed (p : Nat) (s : State) (h : (linkOf s p).up = false) : Fed p s (creditRaiseAll s) := by
  unfold creditRaiseAll
  dsimp only
  have g := Fed.foldl (fun s k => creditRaise k s) (fun s k _ => creditRaise_fed p k s) (s.accts.map (fun e => e.1)) s h
  exact g.trans (Fed.foldl (fun s q => grantBatch q s) (fun s q hs => grantBatch_fed p q s hs) _ _
    (by rw [g.self.1]; exact h))

theorem creditSettle_fed (p q k : Nat) (s : State) (h : (linkOf s p).up = false) : Fed p s (creditSettle q k s) := by
  unfold creditSettle
  dsimp only
  have g := creditRaise_fed p k s
  split
  · exact g.trans (creditRaiseAll_fed p _ (by rw [g.self.1]; exact h))
  · exact g.trans (grantBatch_fed p q _ (by rw [g.self.1]; exact h))

/-- Cells are released while link p is down. -/
theorem creditRelease_fed (p q sid n : Nat) (s : State) (h : (linkOf s p).up = false) : Fed p s (creditRelease q sid n s) := by
  unfold creditRelease
  dsimp only
  split
  · exact Fed.refl ..
  · rename_i a _
    exact (Fed.put p (tabSet s.accts (acctKey q sid) { a with held := a.held - n }) s).trans (creditSettle_fed p q _ _ h)

/-- The responses that a drop discards release their cells. -/
theorem dropRelease_fed (p : Nat) (l : List Rsp) (s : State) (h : (linkOf s p).up = false) :
    Fed p s (l.foldl (fun s r => if rspPartner r then s else creditRelease p r.sid.toNat 1 s) s) :=
  Fed.foldl _ (fun s r hs => by
    split
    · exact Fed.refl ..
    · exact creditRelease_fed p p _ _ s hs) l s h

/-- Without a response to discard nothing is released. -/
theorem dropRelease_none (p : Nat) (l : List Rsp) (s : State) (h : ∀ r ∈ l, rspPartner r = true) :
    l.foldl (fun s r => if rspPartner r then s else creditRelease p r.sid.toNat 1 s) s = s := by
  induction l generalizing s with
  | nil => rfl
  | cons r t ih =>
    rw [List.foldl_cons, if_pos (h r (by simp))]
    exact ih s (fun x hx => h x (by simp [hx]))

/-- What a drop does to the pool and the partner agent. -/
theorem linkDropPool_dropped (p : Nat) (s : State) :
    ∃ f v, Fed p (eqPut p [] (linkPut p { linkOf s p with
        fates := f, everUp := (linkOf s p).everUp || (linkOf s p).up, up := false } s)) v ∧
      ((∀ r ∈ eqOf s p, rspPartner r = true) → v = eqPut p [] (linkPut p { linkOf s p with
        fates := f, everUp := (linkOf s p).everUp || (linkOf s p).up, up := false } s)) ∧
      linkDropPool p s = { v with pool := { v.pool with
          items := v.pool.items.map (fun i => if srcIs i.src p then { i with gone := true } else i)
          txns := v.pool.txns.map (fun t => if srcIs t.item.src p then { t with item := { t.item with gone := true } } else t)
          fences := v.pool.fences.map (fun f => if srcIs f.src p then { f with gone := true } else f)
          lost := v.pool.lost.map (fun e => (e.1, if srcIs e.2.src p then { e.2 with gone := true } else e.2)) } } := by
  refine ⟨_, _, dropRelease_fed p (eqOf s p) _ ?_, fun h => dropRelease_none p _ _ h, rfl⟩
  show (linkOf (linkPut p _ s) p).up = false
  rw [linkOf_linkPut, if_pos rfl]

/-- The state in which a drop is counted and reported. -/
theorem dropNote_frame (p c n m : Nat) (s : State) :
    ∃ regs ev, regPut (linkIdx p 1) 9 0 c (count1 0x6000 8 0 (count1 (linkIdx p 1) 8 0 (raise .linkDown (srcLink p 0) c n m s)))
        = { s with regs := regs, ev := ev } ∧ tabGet (objDefault (linkIdx p 1) 9) regs (okey (linkIdx p 1) 9 0) = c := by
  rw [raise_frame]
  exact ⟨_, _, rfl, regVal_regPut_same ..⟩

/-- A drop of a link with a cause does what R203, R213 and R214 say. -/
theorem linkDown_dropped (p c : Nat) (s : State) : LinkDropped s (linkDown p c s) p c := by
  obtain ⟨regs, ev, hc, hr⟩ := dropNote_frame p c (linkOf s p).held.length
    (match (linkOf s p).lost with
      | some (f, _) => if c = 1 then frameNo s - f else 0
      | none => 0) s
  obtain ⟨f, v, hv, hn, hd⟩ := linkDropPool_dropped p { s with regs := regs, ev := ev }
  have h : linkDown p c s = linkMod p (fun x => { x with
      lock := false, light := false, up := false, first := false, nakAt := none,
      lost := none, downLeft := 16, downOn := true, downCause := c, downLight := x.light, negOpen := false,
      select := none, selSent := false, selectDue := [], own := none, feed := [], timerAt := none, run := 0, nxt := 0, una := 0,
      held := [], replay := none, ack := 4095,
      e := 0, nakOwed := false, nakSent := false, retxSeen := false, uncovered := 0, ackDue := false, expiries := 0,
      mayData := false, hbDue := false, resync := 0 }) (linkDropPool p { s with regs := regs, ev := ev }) := by
    rw [← hc]
    rfl
  rw [h, hd]
  have bl : ∀ (x : LinkSt) (q : Nat), linkOf (eqPut p [] (linkPut p x { s with regs := regs, ev := ev })) q =
      if q = p then x else linkOf s q := fun x q => linkOf_linkPut p x { s with regs := regs, ev := ev } q
  have be : ∀ (x : LinkSt) (q : Nat), eqOf (eqPut p [] (linkPut p x { s with regs := regs, ev := ev })) q =
      if q = p then [] else eqOf s q := fun x q => eqOf_eqPut p [] (linkPut p x { s with regs := regs, ev := ev }) q
  have hl : linkOf v p = { linkOf s p with
      fates := f, everUp := (linkOf s p).everUp || (linkOf s p).up, up := false } := by
    rw [hv.self.1, bl, if_pos rfl]; rfl
  have ho : ∀ q, q ≠ p → linkOf v q = { linkOf s q with feed := (linkOf v q).feed } := by
    intro q hq
    have g := hv.links q
    rw [bl, if_neg hq] at g
    exact g
  have he : ∀ q, q ≠ p → (eqOf v q).filter (fun r => !rspPartner r) = (eqOf s q).filter (fun r => !rspPartner r) := by
    intro q hq
    have g := hv.queues q
    rw [be, if_neg hq] at g
    exact g
  generalize hw : ({ v with pool := _ } : State) = w
  have wl : ∀ q, linkOf w q = linkOf v q := fun q => by rw [← hw]; rfl
  have we : ∀ q, eqOf w q = eqOf v q := fun q => by rw [← hw]; rfl
  refine ⟨?_, ?_, ?_, ?_, ?_, ?_, ?_, ?_, ?_⟩
  · rw [linkOf_linkMod, if_pos rfl]; exact ⟨rfl, rfl, rfl⟩
  · rw [linkOf_linkMod, if_pos rfl, wl, hl]
    exact ⟨rfl, rfl, rfl, rfl⟩
  · rw [linkOf_linkMod, if_pos rfl]; exact ⟨rfl, rfl, rfl, rfl, rfl, rfl, rfl, rfl, rfl, rfl⟩
  · rw [linkOf_linkMod, if_pos rfl, wl, hl]
  · show eqOf w p = []
    rw [we, hv.self.2, be, if_pos rfl]
  · intro i hi hs
    have hi : i ∈ w.pool.items := hi
    rw [← hw] at hi
    obtain ⟨j, -, rfl⟩ := List.mem_map.mp hi
    by_cases hj : srcIs j.src p = true
    · simp [hj]
    · rw [if_neg hj] at hs; exact absurd hs hj
  · have hwr : w.regs = regs := by rw [← hw, hv.frame]; rfl
    show tabGet _ w.regs _ = c
    rw [hwr]; exact hr
  · intro q hq
    rw [linkOf_linkMod, if_neg hq, wl]
    refine ⟨ho q hq, ?_, fun hp => ?_⟩
    · show (eqOf w q).filter _ = _
      rw [we]; exact he q hq
    · show _ ∧ eqOf w q = _
      rw [we, hn hp, bl, be, if_neg hq, if_neg hq]
      exact ⟨rfl, rfl⟩
  · rw [← hw, hv.frame]
    rfl

end Sys2Proof.Machine
end

