-- ==== Sys2Proof/Laws/Owned.lean ====
section
/-! SUPPORT. What only sessions, the window and key ingest write: the management sessions, the window registers and its
answer, the KEK and the management keys. One lemma an operation that leaves them alone, in the order of the definitions. -/

namespace Sys2Proof.Machine

set_option linter.all false

/-- The sessions, the window's registers and answer, the KEK and the management keys. -/
def State.owned (s : State) : Tab Session × WinClass × WinClass × Option WinOut × Option Key × Tab Key :=
  (s.sessions, s.winL, s.winD, s.winOut, s.keys.kek, s.keys.mks)

theorem owned_eta (s : State) : (s.sessions, s.winL, s.winD, s.winOut, s.keys.kek, s.keys.mks) = s.owned := rfl

theorem owned_mk (a1 : Nat) (p : List Instr) (a3 : Clk) (a4 : Pins) (a5 a6 a7 : Tab Nat) (a8 a9 : WinClass)
    (a10 : Option WinOut) (a11 : Commit) (a12 : Tab Session) (a13 : List MsgOut) (a14 : EvUnit) (a15 : KeyStore)
    (n : List Host.Cell) (a17 : NvUnit) (a18 : Pwr) (a19 : Rekey) (a20 : Pool) (a21 : Tab Media) (a22 : Nat) (a23 : Jack)
    (a24 : TagCache) (a25 : Tab LinkSt) (a26 a27 : Tab Acct) (a28 : Tab Nat) (a29 : Repair) :
    State.owned ⟨a1, p, a3, a4, a5, a6, a7, a8, a9, a10, a11, a12, a13, a14, a15, n, a17, a18, a19, a20, a21, a22, a23, a24,
      a25, a26, a27, a28, a29⟩ = (a12, a8, a9, a10, a15.kek, a15.mks) := rfl

theorem foldl_owned {α : Type} (f : State → α → State) (h : ∀ s x, (f s x).owned = s.owned) (l : List α) (s : State) :
    (l.foldl f s).owned = s.owned := by
  induction l generalizing s with
  | nil => rfl
  | cons x t ih => simp only [List.foldl_cons, ih, h]

theorem takeFree_owned (s : State) :
    (takeFree s).2.owned = s.owned := by
  unfold takeFree
  simp only [owned_mk, owned_eta]

theorem takeFree_owned_of {s : State} {pp} (h : takeFree s = pp) : pp.2.owned = s.owned := h ▸ takeFree_owned s

theorem cfgPut_owned (idx sub row v : Nat) (s : State) :
    (cfgPut idx sub row v s).owned = s.owned := by
  unfold cfgPut
  simp only [owned_mk, owned_eta]

theorem regPut_owned (idx sub row v : Nat) (s : State) :
    (regPut idx sub row v s).owned = s.owned := by
  unfold regPut
  simp only [owned_mk, owned_eta]

theorem countUp_owned (idx sub row n : Nat) (s : State) :
    (countUp idx sub row n s).owned = s.owned := by
  unfold countUp
  simp only [owned_mk, owned_eta, regPut_owned]

theorem count1_owned (idx sub row : Nat) (s : State) :
    (count1 idx sub row s).owned = s.owned := by
  unfold count1
  simp only [owned_mk, owned_eta, countUp_owned]

theorem alertSet_owned (route sev : Nat) (s : State) :
    (alertSet route sev s).owned = s.owned := by
  unfold alertSet
  (try dsimp only); (repeat' split) <;> simp only [owned_mk, owned_eta, regPut_owned]

theorem srcNote_owned (src code sev : Nat) (reportable : Bool) (s : State) :
    (srcNote src code sev reportable s).owned = s.owned := by
  unfold srcNote
  simp only [owned_mk, owned_eta, count1_owned, regPut_owned]

theorem raiseSev_owned (e : Ev) (sev src p1 p2 p3 : Nat) (s : State) :
    (raiseSev e sev src p1 p2 p3 s).owned = s.owned := by
  unfold raiseSev
  simp only [owned_mk, owned_eta, apply_ite State.owned, ite_self, srcNote_owned, alertSet_owned]

theorem raise_owned (e : Ev) (src p1 p2 p3 : Nat) (s : State) :
    (raise e src p1 p2 p3 s).owned = s.owned := by
  unfold raise
  simp only [owned_mk, owned_eta, raiseSev_owned]

theorem sumFlush_owned (s : State) (e : Nat × FrameSum) :
    (sumFlush s e).owned = s.owned := by
  unfold sumFlush
  (try dsimp only); (repeat' split) <;> simp only [owned_mk, owned_eta, raise_owned]

theorem sumAmend_owned (s : State) (e : Nat × FrameSum) :
    (sumAmend s e).owned = s.owned := by
  unfold sumAmend
  first
  | with_reducible rfl
  | ((try dsimp only); repeat' split) <;> (first | (with_reducible rfl) | (simp only [owned_mk, owned_eta, apply_ite State.owned, ite_self]; done) | (simp only [owned_mk, owned_eta, apply_ite State.owned, ite_self, foldl_owned, implies_true]; done) | (simp_all only [owned_mk, owned_eta, apply_ite State.owned, ite_self, foldl_owned, implies_true]; done))

theorem sumSet_owned (k : Nat) (f : FrameSum) (s : State) :
    (sumSet k f s).owned = s.owned := by
  unfold sumSet
  first
  | with_reducible rfl
  | ((try dsimp only); repeat' split) <;> (first | (with_reducible rfl) | (simp only [owned_mk, owned_eta, apply_ite State.owned, ite_self, sumAmend_owned, sumFlush_owned]; done) | (simp only [owned_mk, owned_eta, apply_ite State.owned, ite_self, foldl_owned, implies_true, sumAmend_owned, sumFlush_owned]; done) | (simp_all only [owned_mk, owned_eta, apply_ite State.owned, ite_self, foldl_owned, implies_true, sumAmend_owned, sumFlush_owned]; done))

theorem sumUp_owned (e : Ev) (src a b c : Nat) (s : State) :
    (sumUp e src a b c s).owned = s.owned := by
  unfold sumUp
  simp only [owned_mk, owned_eta, sumSet_owned]

theorem ctlSend_owned (code : Nat) (p1 p2 p3 : BitVec 32) (s : State) :
    (ctlSend code p1 p2 p3 s).owned = s.owned := by
  unfold ctlSend
  simp only [owned_mk, owned_eta, apply_ite State.owned, ite_self]

theorem modeSend_owned (s : State) :
    (modeSend s).owned = s.owned := by
  unfold modeSend
  simp only [owned_mk, owned_eta, ctlSend_owned]

theorem ctlAdmit_owned (n : Nat) (s : State) : (ctlAdmit n s).owned = s.owned := by
  induction n generalizing s with
  | zero => rfl
  | succ n ih =>
    unfold ctlAdmit
    (repeat' split) <;> simp only [ih, owned_mk, owned_eta]

theorem backlogPut_owned (r : EvRec) (s : State) :
    (backlogPut r s).owned = s.owned := by
  unfold backlogPut
  simp only [owned_mk, owned_eta, apply_ite State.owned, ite_self, count1_owned]

theorem recForm_owned (frame : Nat) (s : State) (e : Nat × EvAcc) :
    (recForm frame s e).owned = s.owned := by
  unfold recForm
  simp only [owned_mk, owned_eta, apply_ite State.owned, ite_self, backlogPut_owned]

theorem evClose_owned (frame : Nat) (s : State) :
    (evClose frame s).owned = s.owned := by
  unfold evClose
  (try dsimp only); (repeat' split) <;>
    simp only [owned_mk, owned_eta, apply_ite State.owned, ite_self, foldl_owned, implies_true, recForm_owned]

theorem sumsFlush_owned (s : State) :
    (sumsFlush s).owned = s.owned := by
  unfold sumsFlush
  (try dsimp only); (repeat' split) <;>
    simp only [owned_mk, owned_eta, apply_ite State.owned, ite_self, foldl_owned, implies_true, sumFlush_owned]

theorem sumsRestart_owned (s : State) :
    (sumsRestart s).owned = s.owned := by
  unfold sumsRestart
  first
  | with_reducible rfl
  | ((try dsimp only); repeat' split) <;> (first | (with_reducible rfl) | (simp only [owned_mk, owned_eta, apply_ite State.owned, ite_self]; done) | (simp only [owned_mk, owned_eta, apply_ite State.owned, ite_self, foldl_owned, implies_true]; done) | (simp_all only [owned_mk, owned_eta, apply_ite State.owned, ite_self, foldl_owned, implies_true]; done))

theorem subFlush_owned (s : State) (e : Nat × Subscr) :
    (subFlush s e).owned = s.owned := by
  unfold subFlush
  simp only [owned_mk, owned_eta, apply_ite State.owned, ite_self, raise_owned]

theorem lostFlush_owned (s : State) :
    (lostFlush s).owned = s.owned := by
  unfold lostFlush
  (try dsimp only); (repeat' split) <;> simp only [owned_mk, owned_eta, raise_owned]

theorem evFrameEnd_owned (s : State) :
    (evFrameEnd s).owned = s.owned := by
  unfold evFrameEnd
  (try dsimp only); (repeat' split) <;>
    simp only [owned_mk, owned_eta, apply_ite State.owned, ite_self, foldl_owned, implies_true, sumsFlush_owned, subFlush_owned, lostFlush_owned]

theorem warnGlitchReport_owned (s : State) :
    (warnGlitchReport s).owned = s.owned := by
  unfold warnGlitchReport
  (try dsimp only); (repeat' split) <;> simp only [owned_mk, owned_eta, raise_owned]

theorem doRecorderAccept_owned (s : State) :
    (doRecorderAccept s).owned = s.owned := by
  unfold doRecorderAccept
  (try dsimp only); (repeat' split) <;> simp only [owned_mk, owned_eta, count1_owned, ctlAdmit_owned]

theorem recorderClear_owned (mki : Nat) (s : State) :
    (recorderClear mki s).owned = s.owned := by
  unfold recorderClear
  (try dsimp only); (repeat' split) <;> simp only [owned_mk, owned_eta, ctlSend_owned]

theorem doRecorderClearAck_owned (s : State) :
    (doRecorderClearAck s).owned = s.owned := by
  unfold doRecorderClearAck
  (try dsimp only); (repeat' split) <;> simp only [owned_mk, owned_eta, raise_owned]

theorem doRecOnlineChange_owned (online : Bool) (s : State) :
    (doRecOnlineChange online s).owned = s.owned := by
  unfold doRecOnlineChange
  simp only [owned_mk, owned_eta, apply_ite State.owned, ite_self, regPut_owned, modeSend_owned]

theorem slotPut_owned (kidx : Nat) (x : Slot) (s : State) :
    (slotPut kidx x s).owned = s.owned := by
  unfold slotPut
  simp only [owned_mk, owned_eta]

theorem ctxPut_owned (c : Nat) (x : Ctx) (s : State) :
    (ctxPut c x s).owned = s.owned := by
  unfold ctxPut
  simp only [owned_mk, owned_eta]

theorem nvNote_owned (a cause : Nat) (s : State) :
    (nvNote a cause s).owned = s.owned := by
  unfold nvNote
  simp only [owned_mk, owned_eta, raise_owned, countUp_owned]

theorem selNote_owned (r : Option Nat × Bool) (s : State) :
    (selNote r s).owned = s.owned := by
  unfold selNote
  first
  | with_reducible rfl
  | ((try dsimp only); repeat' split) <;> (first | (with_reducible rfl) | (simp only [owned_mk, owned_eta, apply_ite State.owned, ite_self, nvNote_owned]; done) | (simp only [owned_mk, owned_eta, apply_ite State.owned, ite_self, foldl_owned, implies_true, nvNote_owned]; done) | (simp_all only [owned_mk, owned_eta, apply_ite State.owned, ite_self, foldl_owned, implies_true, nvNote_owned]; done))

theorem jobNote_owned (s : State) (j : NvJob) :
    (jobNote s j).owned = s.owned := by
  unfold jobNote
  first
  | with_reducible rfl
  | ((try dsimp only); repeat' split) <;> (first | (with_reducible rfl) | (simp only [owned_mk, owned_eta, apply_ite State.owned, ite_self, selNote_owned]; done) | (simp only [owned_mk, owned_eta, apply_ite State.owned, ite_self, foldl_owned, implies_true, selNote_owned]; done) | (simp_all only [owned_mk, owned_eta, apply_ite State.owned, ite_self, foldl_owned, implies_true, selNote_owned]; done))

theorem nvKick_owned (s : State) :
    (nvKick s).owned = s.owned := by
  unfold nvKick
  first
  | with_reducible rfl
  | ((try dsimp only); repeat' split) <;> (first | (with_reducible rfl) | (simp only [owned_mk, owned_eta, apply_ite State.owned, ite_self, jobNote_owned]; done) | (simp only [owned_mk, owned_eta, apply_ite State.owned, ite_self, foldl_owned, implies_true, jobNote_owned]; done) | (simp_all only [owned_mk, owned_eta, apply_ite State.owned, ite_self, foldl_owned, implies_true, jobNote_owned]; done))

theorem nvPush_owned (j : NvJob) (s : State) :
    (nvPush j s).owned = s.owned := by
  unfold nvPush
  simp only [owned_mk, owned_eta, apply_ite State.owned, ite_self, nvKick_owned]

theorem imageDrop_owned (s : State) :
    (imageDrop s).owned = s.owned := by
  unfold imageDrop
  simp only [owned_mk, owned_eta]

theorem imageStart_owned (s : State) :
    (imageStart s).owned = s.owned := by
  unfold imageStart
  (try dsimp only); (repeat' split) <;> simp only [owned_mk, owned_eta, selNote_owned, imageDrop_owned, nvKick_owned]

theorem imageCatch_owned (s : State) :
    (imageCatch s).owned = s.owned := by
  unfold imageCatch
  simp only [owned_mk, owned_eta, apply_ite State.owned, ite_self, imageStart_owned]

theorem nvConfirm_owned (act : NvAct) (s : State) :
    (nvConfirm act s).owned = s.owned := by
  unfold nvConfirm
  (try dsimp only); (repeat' split) <;> simp only [owned_mk, owned_eta, ctxPut_owned, imageCatch_owned]

theorem nvJobDone_owned (s : State) (j : NvJob) :
    (nvJobDone s j).owned = s.owned := by
  unfold nvJobDone
  (try dsimp only); (repeat' split) <;> simp only [owned_mk, owned_eta, regPut_owned, nvConfirm_owned]

theorem nvRetry_owned (p : NvPage) (s : State) :
    (nvRetry p s).owned = s.owned := by
  unfold nvRetry
  simp only [owned_mk, owned_eta, apply_ite State.owned, ite_self, count1_owned, raise_owned, regPut_owned, nvKick_owned]

theorem doNvPageDone_owned (err : Bool) (s : State) :
    (doNvPageDone err s).owned = s.owned := by
  unfold doNvPageDone
  (try dsimp only); (repeat' split) <;> simp only [owned_mk, owned_eta, takeFree_owned, nvRetry_owned, count1_owned]

theorem grantReset_owned (kidx : Nat) (s : State) :
    (grantReset kidx s).owned = s.owned := by
  unfold grantReset
  (try dsimp only); (repeat' split) <;>
    simp only [owned_mk, owned_eta, apply_ite State.owned, ite_self, foldl_owned, implies_true, cfgPut_owned]

theorem slotErase_owned (kidx : Nat) (s : State) :
    (slotErase kidx s).owned = s.owned := by
  unfold slotErase
  (try dsimp only); (repeat' split) <;> simp only [owned_mk, owned_eta, grantReset_owned, slotPut_owned]

theorem slotZeroize_owned (kidx : Nat) (s : State) :
    (slotZeroize kidx s).owned = s.owned := by
  unfold slotZeroize
  first
  | with_reducible rfl
  | ((try dsimp only); repeat' split) <;> (first | (with_reducible rfl) | (simp only [owned_mk, owned_eta, apply_ite State.owned, ite_self, slotPut_owned, slotErase_owned]; done) | (simp only [owned_mk, owned_eta, apply_ite State.owned, ite_self, foldl_owned, implies_true, slotPut_owned, slotErase_owned]; done) | (simp_all only [owned_mk, owned_eta, apply_ite State.owned, ite_self, foldl_owned, implies_true, slotPut_owned, slotErase_owned]; done))

theorem rkEnqueue_owned (kidx cause : Nat) (s : State) :
    (rkEnqueue kidx cause s).owned = s.owned := by
  unfold rkEnqueue
  simp only [owned_mk, owned_eta, apply_ite State.owned, ite_self]

theorem rkDequeue_owned (kidx cause : Nat) (s : State) :
    (rkDequeue kidx cause s).owned = s.owned := by
  unfold rkDequeue
  simp only [owned_mk, owned_eta]

theorem rkClearQueue_owned (kidx : Nat) (s : State) :
    (rkClearQueue kidx s).owned = s.owned := by
  unfold rkClearQueue
  simp only [owned_mk, owned_eta]

theorem kpRespond_owned (opc : Byte) (k : KpCmd) (res : Byte) (v : BitVec 24) (s : State) :
    (kpRespond opc k res v s).owned = s.owned := by
  unfold kpRespond
  simp only [owned_mk, owned_eta]

theorem kpRefuse_owned (opc : Byte) (k : KpCmd) (res : Byte) (s : State) :
    (kpRefuse opc k res s).owned = s.owned := by
  unfold kpRefuse
  simp only [owned_mk, owned_eta, kpRespond_owned, count1_owned, raise_owned]

theorem kpDone_owned (opc : Byte) (k : KpCmd) (v : BitVec 24) (s0 s : State) :
    (kpDone opc k v s0 s).owned = s.owned := by
  unfold kpDone
  simp only [owned_mk, owned_eta, count1_owned, kpRespond_owned]

theorem kpEarlyDo_owned (opc : Byte) (k : KpCmd) (res : Byte) (s : State) :
    (kpEarlyDo opc k res s).owned = s.owned := by
  unfold kpEarlyDo
  simp only [owned_mk, owned_eta, apply_ite State.owned, ite_self, kpRespond_owned, kpRefuse_owned]

theorem keyInstall_owned (adm : KeyAdmit) (kidx : Nat) (toB : Bool) (key : Key) (s : State) :
    (keyInstall adm kidx toB key s).owned = s.owned := by
  unfold keyInstall
  (try dsimp only); (repeat' split) <;> simp only [owned_mk, owned_eta, slotPut_owned, nvPush_owned]

theorem doLoadKey_owned (k : KpCmd) (s : State) :
    (doLoadKey k s).owned = s.owned := by
  unfold doLoadKey
  (try dsimp only); (repeat' split) <;> simp only [owned_mk, owned_eta, kpEarlyDo_owned, kpRefuse_owned, kpDone_owned, keyInstall_owned]

theorem doEraseSlot_owned (k : KpCmd) (s : State) :
    (doEraseSlot k s).owned = s.owned := by
  unfold doEraseSlot
  (try dsimp only); (repeat' split) <;> simp only [owned_mk, owned_eta, kpEarlyDo_owned, kpDone_owned, slotErase_owned]

theorem doQueryKcv_owned (k : KpCmd) (s : State) :
    (doQueryKcv k s).owned = s.owned := by
  unfold doQueryKcv
  (try dsimp only); (repeat' split) <;> simp only [owned_mk, owned_eta, kpEarlyDo_owned, kpRefuse_owned, kpDone_owned]

theorem slotActivate_owned (kidx : Nat) (s : State) :
    (slotActivate kidx s).owned = s.owned := by
  unfold slotActivate
  simp only [owned_mk, owned_eta, apply_ite State.owned, ite_self, nvPush_owned]

theorem slotDiscard_owned (kidx : Nat) (s : State) :
    (slotDiscard kidx s).owned = s.owned := by
  unfold slotDiscard
  simp only [owned_mk, owned_eta, slotPut_owned, grantReset_owned]

theorem slotRetire_owned (kidx : Nat) (s : State) :
    (slotRetire kidx s).owned = s.owned := by
  unfold slotRetire
  simp only [owned_mk, owned_eta, nvPush_owned]

theorem slotSpent_owned (kidx : Nat) (s : State) :
    (slotSpent kidx s).owned = s.owned := by
  unfold slotSpent
  simp only [owned_mk, owned_eta, nvPush_owned]

theorem nvForget_owned (a : NvAct) (s : State) :
    (nvForget a s).owned = s.owned := by
  unfold nvForget
  first
  | with_reducible rfl
  | ((try dsimp only); repeat' split) <;> (first | (with_reducible rfl) | (simp only [owned_mk, owned_eta, apply_ite State.owned, ite_self]; done) | (simp only [owned_mk, owned_eta, apply_ite State.owned, ite_self, foldl_owned, implies_true]; done) | (simp_all only [owned_mk, owned_eta, apply_ite State.owned, ite_self, foldl_owned, implies_true]; done))

theorem linkPut_owned (p : Nat) (x : LinkSt) (s : State) :
    (linkPut p x s).owned = s.owned := by
  unfold linkPut
  simp only [owned_mk, owned_eta]

theorem linkMod_owned (p : Nat) (f : LinkSt → LinkSt) (s : State) :
    (linkMod p f s).owned = s.owned := by
  unfold linkMod
  simp only [owned_mk, owned_eta, linkPut_owned]

theorem creditRaise_owned (k : Nat) (s : State) :
    (creditRaise k s).owned = s.owned := by
  unfold creditRaise
  (try dsimp only); (repeat' split) <;> simp only [owned_mk, owned_eta]

theorem eqPut_owned (p : Nat) (l : List Rsp) (s : State) :
    (eqPut p l s).owned = s.owned := by
  unfold eqPut
  simp only [owned_mk, owned_eta]

theorem partnerLink_owned (p : Nat) (r : Rsp) (s : State) :
    (partnerLink p r s).owned = s.owned := by
  unfold partnerLink
  first
  | with_reducible rfl
  | ((try dsimp only); repeat' split) <;> (first | (with_reducible rfl) | (simp only [owned_mk, owned_eta, apply_ite State.owned, ite_self, eqPut_owned]; done) | (simp only [owned_mk, owned_eta, apply_ite State.owned, ite_self, foldl_owned, implies_true, eqPut_owned]; done) | (simp_all only [owned_mk, owned_eta, apply_ite State.owned, ite_self, foldl_owned, implies_true, eqPut_owned]; done))

theorem partnerPush_owned (p : Nat) (r : Rsp) (s : State) :
    (partnerPush p r s).owned = s.owned := by
  unfold partnerPush
  first
  | with_reducible rfl
  | ((try dsimp only); repeat' split) <;> (first | (with_reducible rfl) | (simp only [owned_mk, owned_eta, apply_ite State.owned, ite_self, partnerLink_owned, linkMod_owned]; done) | (simp only [owned_mk, owned_eta, apply_ite State.owned, ite_self, foldl_owned, implies_true, partnerLink_owned, linkMod_owned]; done) | (simp_all only [owned_mk, owned_eta, apply_ite State.owned, ite_self, foldl_owned, implies_true, partnerLink_owned, linkMod_owned]; done))

theorem partnerFeed_owned (n p : Nat) (s : State) : (partnerFeed n p s).owned = s.owned := by
  induction n generalizing s with
  | zero => rfl
  | succ n ih =>
    unfold partnerFeed
    (repeat' split) <;> simp only [ih, partnerLink_owned, linkMod_owned]

theorem grantSend_owned (n p : Nat) (ks : List Nat) (s : State) : (grantSend n p ks s).owned = s.owned := by
  induction n generalizing ks s with
  | zero => rfl
  | succ n ih =>
    unfold grantSend
    split
    · rfl
    · simp only [ih, partnerPush_owned, owned_mk, owned_eta]

theorem grantBatch_owned (p : Nat) (s : State) :
    (grantBatch p s).owned = s.owned := by
  unfold grantBatch
  simp only [owned_mk, owned_eta, apply_ite State.owned, ite_self, grantSend_owned]

theorem creditRaiseAll_owned (s : State) :
    (creditRaiseAll s).owned = s.owned := by
  unfold creditRaiseAll
  (try dsimp only); (repeat' split) <;>
    simp only [owned_mk, owned_eta, apply_ite State.owned, ite_self, foldl_owned, implies_true, creditRaise_owned, grantBatch_owned]

theorem creditSettle_owned (p k : Nat) (s : State) :
    (creditSettle p k s).owned = s.owned := by
  unfold creditSettle
  first
  | with_reducible rfl
  | ((try dsimp only); repeat' split) <;> (first | (with_reducible rfl) | (simp only [owned_mk, owned_eta, apply_ite State.owned, ite_self, creditRaise_owned, creditRaiseAll_owned, grantBatch_owned]; done) | (simp only [owned_mk, owned_eta, apply_ite State.owned, ite_self, foldl_owned, implies_true, creditRaise_owned, creditRaiseAll_owned, grantBatch_owned]; done) | (simp_all only [owned_mk, owned_eta, apply_ite State.owned, ite_self, foldl_owned, implies_true, creditRaise_owned, creditRaiseAll_owned, grantBatch_owned]; done))

theorem creditRelease_owned (p sid n : Nat) (s : State) :
    (creditRelease p sid n s).owned = s.owned := by
  unfold creditRelease
  (try dsimp only); (repeat' split) <;> simp only [owned_mk, owned_eta, creditSettle_owned]

theorem linkFate_owned (p : Nat) (f : FateEnt) (s : State) :
    (linkFate p f s).owned = s.owned := by
  unfold linkFate
  simp only [owned_mk, owned_eta, linkMod_owned]

theorem fateDrop_owned (p : Nat) (tag : BitVec 16) (s : State) :
    (fateDrop p tag s).owned = s.owned := by
  unfold fateDrop
  simp only [owned_mk, owned_eta, linkMod_owned]

theorem linkDropPool_owned (p : Nat) (s : State) :
    (linkDropPool p s).owned = s.owned := by
  unfold linkDropPool
  (try dsimp only); (repeat' split) <;>
    simp only [owned_mk, owned_eta, apply_ite State.owned, ite_self, foldl_owned, implies_true, linkPut_owned, creditRelease_owned, eqPut_owned]

theorem linkDown_owned (p cause : Nat) (s : State) :
    (linkDown p cause s).owned = s.owned := by
  unfold linkDown
  simp only [owned_mk, owned_eta, raise_owned, count1_owned, regPut_owned, linkDropPool_owned, linkMod_owned]

theorem queueNewId_owned (q : Nat) (s : State) :
    (queueNewId q s).2.owned = s.owned := by
  unfold queueNewId
  (try dsimp only); (repeat' split) <;> simp only [owned_mk, owned_eta]

theorem queueNewId_owned_of {q : Nat} {s : State} {pp} (h : queueNewId q s = pp) : pp.2.owned = s.owned := h ▸ queueNewId_owned q s

theorem ptrMend_owned (q : Nat) (s : State) :
    (ptrMend q s).owned = s.owned := by
  unfold ptrMend
  first
  | with_reducible rfl
  | ((try dsimp only); repeat' split) <;> (first | (with_reducible rfl) | (simp only [owned_mk, owned_eta, apply_ite State.owned, ite_self]; done) | (simp only [owned_mk, owned_eta, apply_ite State.owned, ite_self, foldl_owned, implies_true]; done) | (simp_all only [owned_mk, owned_eta, apply_ite State.owned, ite_self, foldl_owned, implies_true]; done))

theorem egressStuck_owned (p : Nat) (s : State) :
    (egressStuck p s).owned = s.owned := by
  unfold egressStuck
  first
  | with_reducible rfl
  | ((try dsimp only); repeat' split) <;> (first | (with_reducible rfl) | (simp only [owned_mk, owned_eta, apply_ite State.owned, ite_self, linkFate_owned, eqPut_owned]; done) | (simp only [owned_mk, owned_eta, apply_ite State.owned, ite_self, foldl_owned, implies_true, linkFate_owned, eqPut_owned]; done) | (simp_all only [owned_mk, owned_eta, apply_ite State.owned, ite_self, foldl_owned, implies_true, linkFate_owned, eqPut_owned]; done))

theorem egressReset_owned (q field : Nat) (s : State) :
    (egressReset q field s).owned = s.owned := by
  unfold egressReset
  first
  | with_reducible rfl
  | ((try dsimp only); repeat' split) <;> (first | (with_reducible rfl) | (simp only [owned_mk, owned_eta, apply_ite State.owned, ite_self, raise_owned, count1_owned, ptrMend_owned, queueNewId_owned, egressStuck_owned, linkDown_owned]; done) | ((try have hk_queueNewId := queueNewId_owned_of (by assumption : queueNewId _ _ = _)); simp_all only [owned_mk, owned_eta, apply_ite State.owned, foldl_owned, ite_self, raise_owned, count1_owned, ptrMend_owned, queueNewId_owned, egressStuck_owned, linkDown_owned]; done) | (simp only [owned_mk, owned_eta, apply_ite State.owned, ite_self, foldl_owned, implies_true, raise_owned, count1_owned, ptrMend_owned, queueNewId_owned, egressStuck_owned, linkDown_owned]; done) | (simp_all only [owned_mk, owned_eta, apply_ite State.owned, ite_self, foldl_owned, implies_true, raise_owned, count1_owned, ptrMend_owned, queueNewId_owned, egressStuck_owned, linkDown_owned]; done))

theorem eqJoin_owned (p : Nat) (r : Rsp) (s : State) :
    (eqJoin p r s).owned = s.owned := by
  unfold eqJoin
  first
  | with_reducible rfl
  | ((try dsimp only); repeat' split) <;> (first | (with_reducible rfl) | (simp only [owned_mk, owned_eta, apply_ite State.owned, ite_self, eqPut_owned, egressReset_owned]; done) | (simp only [owned_mk, owned_eta, apply_ite State.owned, ite_self, foldl_owned, implies_true, eqPut_owned, egressReset_owned]; done) | (simp_all only [owned_mk, owned_eta, apply_ite State.owned, ite_self, foldl_owned, implies_true, eqPut_owned, egressReset_owned]; done))

theorem masterRespond_owned (n : Nat) (r : Rsp) (s : State) :
    (masterRespond n r s).owned = s.owned := by
  unfold masterRespond
  first
  | with_reducible rfl
  | ((try dsimp only); repeat' split) <;> (first | (with_reducible rfl) | (simp only [owned_mk, owned_eta, apply_ite State.owned, ite_self]; done) | (simp only [owned_mk, owned_eta, apply_ite State.owned, ite_self, foldl_owned, implies_true]; done) | (simp_all only [owned_mk, owned_eta, apply_ite State.owned, ite_self, foldl_owned, implies_true]; done))

theorem rspSend_owned (src : Src) (sid : BitVec 12) (gone : Bool) (r : Rsp) (cells : Nat) (s : State) :
    (rspSend src sid gone r cells s).owned = s.owned := by
  unfold rspSend
  (try dsimp only); (repeat' split) <;> simp only [owned_mk, owned_eta, linkFate_owned, creditRelease_owned, eqJoin_owned, masterRespond_owned]

theorem rspStats_owned (src : Src) (op : ReqOp) (status : Nat) (s : State) :
    (rspStats src op status s).owned = s.owned := by
  unfold rspStats
  (try dsimp only); (repeat' split) <;> simp only [owned_mk, owned_eta, count1_owned]

theorem complete_owned (it : Item) (status : Nat) (data : Option Line) (psn : Bool) (extra : Side) (cells : Nat) (s : State) :
    (complete it status data psn extra cells s).owned = s.owned := by
  unfold complete
  simp only [owned_mk, owned_eta, rspSend_owned, rspStats_owned]

theorem completeBare_owned (it : Item) (status cells : Nat) (s : State) :
    (completeBare it status cells s).owned = s.owned := by
  unfold completeBare
  simp only [owned_mk, owned_eta, complete_owned]

theorem mediaPut_owned (m : Nat) (x : Media) (s : State) :
    (mediaPut m x s).owned = s.owned := by
  unfold mediaPut
  simp only [owned_mk, owned_eta]

theorem mediaMod_owned (m : Nat) (f : Media → Media) (s : State) :
    (mediaMod m f s).owned = s.owned := by
  unfold mediaMod
  simp only [owned_mk, owned_eta, mediaPut_owned]

theorem refuseEvent_owned (src : Src) (h : Hdr) (step status : Nat) (s : State) :
    (refuseEvent src h step status s).owned = s.owned := by
  unfold refuseEvent
  (try dsimp only); (repeat' split) <;> simp only [owned_mk, owned_eta, raise_owned]

theorem slotError_owned (src : Src) (cause pos opc tag : Nat) (s : State) :
    (slotError src cause pos opc tag s).owned = s.owned := by
  unfold slotError
  (try dsimp only); (repeat' split) <;> simp only [owned_mk, owned_eta, count1_owned, linkDown_owned, raise_owned, linkFate_owned]

theorem creditTake_owned (src : Src) (sid : BitVec 12) (cells : Nat) (s : State) :
    (creditTake src sid cells s).owned = s.owned := by
  unfold creditTake
  (try dsimp only); (repeat' split) <;> simp only [owned_mk, owned_eta]

theorem creditCut_owned (src : Src) (sid : BitVec 12) (cells : Nat) (s : State) :
    (creditCut src sid cells s).owned = s.owned := by
  unfold creditCut
  first
  | with_reducible rfl
  | ((try dsimp only); repeat' split) <;> (first | (with_reducible rfl) | (simp only [owned_mk, owned_eta, apply_ite State.owned, ite_self, creditSettle_owned]; done) | (simp only [owned_mk, owned_eta, apply_ite State.owned, ite_self, foldl_owned, implies_true, creditSettle_owned]; done) | (simp_all only [owned_mk, owned_eta, apply_ite State.owned, ite_self, foldl_owned, implies_true, creditSettle_owned]; done))

theorem creditOverrun_owned (p : Fin 128) (sid : BitVec 12) (cost : Nat) (tag : Option (BitVec 16)) (s : State) :
    (creditOverrun p sid cost tag s).owned = s.owned := by
  unfold creditOverrun
  (try dsimp only); (repeat' split) <;> simp only [owned_mk, owned_eta, raise_owned, count1_owned, linkDown_owned, linkFate_owned]

theorem orphanAdd_owned (i : Item) (s : State) :
    (orphanAdd i s).owned = s.owned := by
  unfold orphanAdd
  first
  | with_reducible rfl
  | ((try dsimp only); repeat' split) <;> (first | (with_reducible rfl) | (simp only [owned_mk, owned_eta, apply_ite State.owned, ite_self]; done) | (simp only [owned_mk, owned_eta, apply_ite State.owned, ite_self, foldl_owned, implies_true]; done) | (simp_all only [owned_mk, owned_eta, apply_ite State.owned, ite_self, foldl_owned, implies_true]; done))

theorem orphanDrop_owned (s : State) (o : Orphan) :
    (orphanDrop s o).owned = s.owned := by
  unfold orphanDrop
  first
  | with_reducible rfl
  | ((try dsimp only); repeat' split) <;> (first | (with_reducible rfl) | (simp only [owned_mk, owned_eta, apply_ite State.owned, ite_self, count1_owned, creditRelease_owned]; done) | (simp only [owned_mk, owned_eta, apply_ite State.owned, ite_self, foldl_owned, implies_true, count1_owned, creditRelease_owned]; done) | (simp_all only [owned_mk, owned_eta, apply_ite State.owned, ite_self, foldl_owned, implies_true, count1_owned, creditRelease_owned]; done))

theorem orphansDue_owned (t : Nat) (s : State) :
    (orphansDue t s).owned = s.owned := by
  unfold orphansDue
  first
  | with_reducible rfl
  | ((try dsimp only); repeat' split) <;> (first | (with_reducible rfl) | (simp only [owned_mk, owned_eta, apply_ite State.owned, ite_self, orphanDrop_owned]; done) | (simp only [owned_mk, owned_eta, apply_ite State.owned, ite_self, foldl_owned, implies_true, orphanDrop_owned]; done) | (simp_all only [owned_mk, owned_eta, apply_ite State.owned, ite_self, foldl_owned, implies_true, orphanDrop_owned]; done))

theorem itemOut_owned (i : Item) (status : Nat) (s : State) :
    (itemOut i status s).owned = s.owned := by
  unfold itemOut
  first
  | with_reducible rfl
  | ((try dsimp only); repeat' split) <;> (first | (with_reducible rfl) | (simp only [owned_mk, owned_eta, apply_ite State.owned, ite_self, completeBare_owned, orphanAdd_owned]; done) | (simp only [owned_mk, owned_eta, apply_ite State.owned, ite_self, foldl_owned, implies_true, completeBare_owned, orphanAdd_owned]; done) | (simp_all only [owned_mk, owned_eta, apply_ite State.owned, ite_self, foldl_owned, implies_true, completeBare_owned, orphanAdd_owned]; done))

theorem itemFlushed_owned (i : Item) (s : State) :
    (itemFlushed i s).owned = s.owned := by
  unfold itemFlushed
  simp only [owned_mk, owned_eta, itemOut_owned, count1_owned]

theorem stickySet_owned (q : Nat) (src : Src) (s : State) :
    (stickySet q src s).owned = s.owned := by
  unfold stickySet
  (try dsimp only); (repeat' split) <;> simp only [owned_mk, owned_eta]

theorem stickyTrim_owned (q : Nat) (s : State) :
    (stickyTrim q s).owned = s.owned := by
  unfold stickyTrim
  simp only [owned_mk, owned_eta, apply_ite State.owned, ite_self]

theorem ingressReset_owned (q field : Nat) (s : State) :
    (ingressReset q field s).owned = s.owned := by
  unfold ingressReset
  first
  | with_reducible rfl
  | ((try dsimp only); repeat' split) <;> (first | (with_reducible rfl) | (simp only [owned_mk, owned_eta, apply_ite State.owned, ite_self, raise_owned, count1_owned, ptrMend_owned, orphanAdd_owned, queueNewId_owned, stickyTrim_owned]; done) | ((try have hk_queueNewId := queueNewId_owned_of (by assumption : queueNewId _ _ = _)); simp_all only [owned_mk, owned_eta, apply_ite State.owned, foldl_owned, ite_self, raise_owned, count1_owned, ptrMend_owned, orphanAdd_owned, queueNewId_owned, stickyTrim_owned]; done) | (simp only [owned_mk, owned_eta, apply_ite State.owned, ite_self, foldl_owned, implies_true, raise_owned, count1_owned, ptrMend_owned, orphanAdd_owned, queueNewId_owned, stickyTrim_owned]; done) | (simp_all only [owned_mk, owned_eta, apply_ite State.owned, ite_self, foldl_owned, implies_true, raise_owned, count1_owned, ptrMend_owned, orphanAdd_owned, queueNewId_owned, stickyTrim_owned]; done))

theorem queueReset_owned (q field : Nat) (s : State) :
    (queueReset q field s).owned = s.owned := by
  unfold queueReset
  simp only [owned_mk, owned_eta, apply_ite State.owned, ite_self, ingressReset_owned, egressReset_owned]

theorem itemJoin_owned (i : Item) (s : State) :
    (itemJoin i s).owned = s.owned := by
  unfold itemJoin
  first
  | with_reducible rfl
  | ((try dsimp only); repeat' split) <;> (first | (with_reducible rfl) | (simp only [owned_mk, owned_eta, apply_ite State.owned, ite_self, stickySet_owned, queueReset_owned]; done) | (simp only [owned_mk, owned_eta, apply_ite State.owned, ite_self, foldl_owned, implies_true, stickySet_owned, queueReset_owned]; done) | (simp_all only [owned_mk, owned_eta, apply_ite State.owned, ite_self, foldl_owned, implies_true, stickySet_owned, queueReset_owned]; done))

theorem enqueueItem_owned (i : Item) (s : State) :
    (enqueueItem i s).owned = s.owned := by
  unfold enqueueItem
  simp only [owned_mk, owned_eta, apply_ite State.owned, ite_self, itemFlushed_owned, completeBare_owned, itemJoin_owned]

theorem landFlush_owned (t0 : Nat) (s : State) :
    (landFlush t0 s).owned = s.owned := by
  unfold landFlush
  first
  | with_reducible rfl
  | ((try dsimp only); repeat' split) <;> (first | (with_reducible rfl) | (simp only [owned_mk, owned_eta, apply_ite State.owned, ite_self, itemFlushed_owned, stickyTrim_owned]; done) | (simp only [owned_mk, owned_eta, apply_ite State.owned, ite_self, foldl_owned, implies_true, itemFlushed_owned, stickyTrim_owned]; done) | (simp_all only [owned_mk, owned_eta, apply_ite State.owned, ite_self, foldl_owned, implies_true, itemFlushed_owned, stickyTrim_owned]; done))

theorem refuseReq_owned (i : Item) (step status : Nat) (s : State) :
    (refuseReq i step status s).owned = s.owned := by
  unfold refuseReq
  (try dsimp only); (repeat' split) <;> simp only [owned_mk, owned_eta, count1_owned, completeBare_owned, refuseEvent_owned]

theorem takeArr_owned (s : State) :
    (takeArr s).2.owned = s.owned := by
  unfold takeArr
  simp only [owned_mk, owned_eta]

theorem takeArr_owned_of {s : State} {pp} (h : takeArr s = pp) : pp.2.owned = s.owned := h ▸ takeArr_owned s

theorem reqError_owned (src : Src) (cause pos opc cells : Nat) (h : Hdr) (s : State) :
    (reqError src cause pos opc cells h s).owned = s.owned := by
  unfold reqError
  first
  | with_reducible rfl
  | ((try dsimp only); repeat' split) <;> (first | (with_reducible rfl) | (simp only [owned_mk, owned_eta, apply_ite State.owned, ite_self, slotError_owned, creditCut_owned]; done) | (simp only [owned_mk, owned_eta, apply_ite State.owned, ite_self, foldl_owned, implies_true, slotError_owned, creditCut_owned]; done) | (simp_all only [owned_mk, owned_eta, apply_ite State.owned, ite_self, foldl_owned, implies_true, slotError_owned, creditCut_owned]; done))

theorem tagAnew_owned (src : Src) (tag : BitVec 16) (s : State) :
    (tagAnew src tag s).owned = s.owned := by
  unfold tagAnew
  first
  | with_reducible rfl
  | ((try dsimp only); repeat' split) <;> (first | (with_reducible rfl) | (simp only [owned_mk, owned_eta, apply_ite State.owned, ite_self, fateDrop_owned]; done) | (simp only [owned_mk, owned_eta, apply_ite State.owned, ite_self, foldl_owned, implies_true, fateDrop_owned]; done) | (simp_all only [owned_mk, owned_eta, apply_ite State.owned, ite_self, foldl_owned, implies_true, fateDrop_owned]; done))

theorem reqReceive_owned (src : Src) (op : ReqOp) (h : Hdr) (psn : Bool) (ext : Side) (data : Line) (pos : Nat) (s : State) :
    (reqReceive src op h psn ext data pos s).owned = s.owned := by
  unfold reqReceive
  (try dsimp only); (repeat' split) <;> simp only [owned_mk, owned_eta, reqError_owned, creditOverrun_owned, takeArr_owned, creditTake_owned, tagAnew_owned, refuseReq_owned, count1_owned, raise_owned, enqueueItem_owned]

theorem fenceReceive_owned (src : Src) (h : Hdr) (pos : Nat) (s : State) :
    (fenceReceive src h pos s).owned = s.owned := by
  unfold fenceReceive
  (try dsimp only); (repeat' split) <;> simp only [owned_mk, owned_eta, reqError_owned, creditOverrun_owned, takeArr_owned, creditTake_owned, tagAnew_owned, count1_owned, rspSend_owned, refuseEvent_owned, raise_owned]

theorem fenceDone_owned (f : FenceEnt) (s : State) :
    (fenceDone f s).owned = s.owned := by
  unfold fenceDone
  simp only [owned_mk, owned_eta, rspSend_owned, count1_owned]

theorem doFenceComplete_owned (src : Src) (sid : BitVec 12) (s : State) :
    (doFenceComplete src sid s).owned = s.owned := by
  unfold doFenceComplete
  (try dsimp only); (repeat' split) <;> simp only [owned_mk, owned_eta, fenceDone_owned]

theorem issueW_owned (m : Nat) (o : MOp) (s : State) :
    (issueW m o s).owned = s.owned := by
  unfold issueW
  simp only [owned_mk, owned_eta, mediaMod_owned]

theorem issueR_owned (m : Nat) (o : MOp) (s : State) :
    (issueR m o s).owned = s.owned := by
  unfold issueR
  simp only [owned_mk, owned_eta, mediaMod_owned]

theorem faultLow_owned (s : State) :
    (faultLow s).owned = s.owned := by
  unfold faultLow
  simp only [owned_mk, owned_eta]

theorem txnPut_owned (t : Txn) (s : State) :
    (txnPut t s).owned = s.owned := by
  unfold txnPut
  simp only [owned_mk, owned_eta]

theorem txnAdd_owned (t : Txn) (s : State) :
    (txnAdd t s).owned = s.owned := by
  unfold txnAdd
  simp only [owned_mk, owned_eta]

theorem txnDel_owned (id : Nat) (s : State) :
    (txnDel id s).owned = s.owned := by
  unfold txnDel
  simp only [owned_mk, owned_eta]

theorem jackDrop_owned (k : Nat) (s : State) :
    (jackDrop k s).owned = s.owned := by
  unfold jackDrop
  simp only [owned_mk, owned_eta]

theorem jackInvalidate_owned (a : Nat) (s : State) :
    (jackInvalidate a s).owned = s.owned := by
  unfold jackInvalidate
  (try dsimp only); (repeat' split) <;> simp only [owned_mk, owned_eta, jackDrop_owned]

theorem jackLookup_owned (kidx a : Nat) (pe : Bool) (s : State) :
    (jackLookup kidx a pe s).2.owned = s.owned := by
  unfold jackLookup
  (try dsimp only); (repeat' split) <;> simp only [owned_mk, owned_eta, raise_owned, count1_owned, jackDrop_owned]

theorem jackLookup_owned_of {kidx a : Nat} {pe : Bool} {s : State} {pp} (h : jackLookup kidx a pe s = pp) : pp.2.owned = s.owned := h ▸ jackLookup_owned kidx a pe s

theorem jackPlace_owned (a : Nat) (s : State) :
    (jackPlace a s).2.owned = s.owned := by
  unfold jackPlace
  (try dsimp only); (repeat' split) <;> simp only [owned_mk, owned_eta, takeFree_owned]

theorem jackPlace_owned_of {a : Nat} {s : State} {pp} (h : jackPlace a s = pp) : pp.2.owned = s.owned := h ▸ jackPlace_owned a s

theorem jackWrite_owned (a : Nat) (e : BitVec 64) (s : State) :
    (jackWrite a e s).owned = s.owned := by
  unfold jackWrite
  (try dsimp only); (repeat' split) <;>
    ((try have hk_jackPlace := jackPlace_owned_of (by assumption : jackPlace _ _ = _)); simp_all only [owned_mk, owned_eta, apply_ite State.owned, foldl_owned, ite_self, jackPlace_owned])

theorem jackRegress_owned (kidx a : Nat) (sc : Side) (s : State) :
    (jackRegress kidx a sc s).owned = s.owned := by
  unfold jackRegress
  simp only [owned_mk, owned_eta, raise_owned, count1_owned]

theorem jackCompare_owned (kidx a : Nat) (sc : Side) (s : State) :
    (jackCompare kidx a sc s).owned = s.owned := by
  unfold jackCompare
  (try dsimp only); (repeat' split) <;> simp only [owned_mk, owned_eta, jackRegress_owned]

theorem jackFill_owned (kidx a : Nat) (sc : Side) (s : State) :
    (jackFill kidx a sc s).owned = s.owned := by
  unfold jackFill
  (try dsimp only); (repeat' split) <;> simp only [owned_mk, owned_eta, jackCompare_owned, jackWrite_owned]

theorem jackClear_owned (s : State) :
    (jackClear s).owned = s.owned := by
  unfold jackClear
  simp only [owned_mk, owned_eta]

theorem probesPut_owned (m : Nat) (l : List Probe) (s : State) :
    (probesPut m l s).owned = s.owned := by
  unfold probesPut
  simp only [owned_mk, owned_eta]

theorem probeAdd_owned (kidx a ord : Nat) (s : State) :
    (probeAdd kidx a ord s).owned = s.owned := by
  unfold probeAdd
  (try dsimp only); (repeat' split) <;> simp only [owned_mk, owned_eta, probesPut_owned]

theorem lookOne_owned (kidx a : Nat) (s : State) :
    (lookOne kidx a s).owned = s.owned := by
  unfold lookOne
  simp only [owned_mk, owned_eta, apply_ite State.owned, ite_self, count1_owned, probesPut_owned]

theorem lookAhead_owned (kidx a : Nat) (s : State) :
    (lookAhead kidx a s).owned = s.owned := by
  unfold lookAhead
  (try dsimp only); (repeat' split) <;>
    simp only [owned_mk, owned_eta, apply_ite State.owned, ite_self, foldl_owned, implies_true, lookOne_owned]

theorem probeIssue_owned (m : Nat) (want : Probe → Bool) (ctr : Nat) (s : State) :
    (probeIssue m want ctr s).owned = s.owned := by
  unfold probeIssue
  (try dsimp only); (repeat' split) <;> simp only [owned_mk, owned_eta, issueR_owned, count1_owned, probesPut_owned]

theorem probeVoid_owned (a : Nat) (s : State) :
    (probeVoid a s).owned = s.owned := by
  unfold probeVoid
  (try dsimp only); (repeat' split) <;> simp only [owned_mk, owned_eta, mediaMod_owned, probesPut_owned, probeAdd_owned]

theorem slicePut_owned (i : Nat) (x : Slice) (s : State) :
    (slicePut i x s).owned = s.owned := by
  unfold slicePut
  simp only [owned_mk, owned_eta]

theorem logAppend_owned (e : LogEnt) (s : State) :
    (logAppend e s).owned = s.owned := by
  unfold logAppend
  (try dsimp only); (repeat' split) <;> simp only [owned_mk, owned_eta, raise_owned, nvPush_owned]

theorem pipeCharge_owned (i p : Nat) (s : State) :
    (pipeCharge i p s).owned = s.owned := by
  unfold pipeCharge
  simp only [owned_mk, owned_eta, apply_ite State.owned, ite_self, count1_owned, slicePut_owned]

theorem prioCheck_owned (i d : Nat) (s : State) :
    (prioCheck i d s).owned = s.owned := by
  unfold prioCheck
  simp only [owned_mk, owned_eta, apply_ite State.owned, ite_self, slicePut_owned]

theorem prioDirection_owned (i : Nat) (dir : Dir) (s : State) :
    (prioDirection i dir s).owned = s.owned := by
  unfold prioDirection
  (try dsimp only); (repeat' split) <;>
    simp only [owned_mk, owned_eta, apply_ite State.owned, ite_self, foldl_owned, implies_true, prioCheck_owned]

theorem voteCharge_owned (i duty pipe checker who : Nat) (s : State) :
    (voteCharge i duty pipe checker who s).owned = s.owned := by
  unfold voteCharge
  simp only [owned_mk, owned_eta, apply_ite State.owned, ite_self, count1_owned, sumUp_owned, prioCheck_owned, pipeCharge_owned, slicePut_owned]

theorem portUnserve_owned (m : Nat) (s : State) :
    (portUnserve m s).owned = s.owned := by
  unfold portUnserve
  simp only [owned_mk, owned_eta, faultLow_owned, mediaMod_owned]

theorem topLose_owned (s : State) :
    (topLose s).owned = s.owned := by
  unfold topLose
  simp only [owned_mk, owned_eta, raise_owned]

theorem sliceLose_owned (i : Nat) (log : Bool) (s : State) :
    (sliceLose i log s).owned = s.owned := by
  unfold sliceLose
  simp only [owned_mk, owned_eta, apply_ite State.owned, ite_self, logAppend_owned, topLose_owned, raise_owned, slicePut_owned, mediaMod_owned, portUnserve_owned]

theorem pipeRetire_owned (i p : Nat) (bist log : Bool) (s : State) :
    (pipeRetire i p bist log s).owned = s.owned := by
  unfold pipeRetire
  simp only [owned_mk, owned_eta, apply_ite State.owned, ite_self, slicePut_owned, raise_owned, logAppend_owned]

theorem sliceJudge_owned (i : Nat) (log : Bool) (s : State) :
    (sliceJudge i log s).owned = s.owned := by
  unfold sliceJudge
  simp only [owned_mk, owned_eta, apply_ite State.owned, ite_self, topLose_owned, sliceLose_owned]

theorem sliceChecks_owned (next : Nat) (s : State) (i : Nat) :
    (sliceChecks next s i).owned = s.owned := by
  unfold sliceChecks
  first
  | with_reducible rfl
  | ((try dsimp only); repeat' split) <;> (first | (with_reducible rfl) | (simp only [owned_mk, owned_eta, apply_ite State.owned, ite_self, slicePut_owned, pipeRetire_owned]; done) | (simp only [owned_mk, owned_eta, apply_ite State.owned, ite_self, foldl_owned, implies_true, slicePut_owned, pipeRetire_owned]; done) | (simp_all only [owned_mk, owned_eta, apply_ite State.owned, ite_self, foldl_owned, implies_true, slicePut_owned, pipeRetire_owned]; done))

theorem sliceTurn_owned (s : State) (i : Nat) :
    (sliceTurn s i).owned = s.owned := by
  unfold sliceTurn
  first
  | with_reducible rfl
  | ((try dsimp only); repeat' split) <;> (first | (with_reducible rfl) | (simp only [owned_mk, owned_eta, apply_ite State.owned, ite_self, slicePut_owned]; done) | (simp only [owned_mk, owned_eta, apply_ite State.owned, ite_self, foldl_owned, implies_true, slicePut_owned]; done) | (simp_all only [owned_mk, owned_eta, apply_ite State.owned, ite_self, foldl_owned, implies_true, slicePut_owned]; done))

theorem slicesStrobe_owned (next : Nat) (s : State) :
    (slicesStrobe next s).owned = s.owned := by
  unfold slicesStrobe
  (try dsimp only); (repeat' split) <;>
    simp only [owned_mk, owned_eta, apply_ite State.owned, ite_self, foldl_owned, implies_true, sliceTurn_owned, sliceChecks_owned, sliceJudge_owned]

theorem rowRemap_owned (mac row spare : Nat) (s : State) :
    (rowRemap mac row spare s).owned = s.owned := by
  unfold rowRemap
  simp only [owned_mk, owned_eta]

theorem rowQueue_owned (mac row : Nat) (s : State) :
    (rowQueue mac row s).owned = s.owned := by
  unfold rowQueue
  simp only [owned_mk, owned_eta, apply_ite State.owned, ite_self]

theorem keyRowBad_owned (mac row : Nat) (s : State) :
    (keyRowBad mac row s).owned = s.owned := by
  unfold keyRowBad
  first
  | with_reducible rfl
  | ((try dsimp only); repeat' split) <;> (first | (with_reducible rfl) | (simp only [owned_mk, owned_eta, apply_ite State.owned, ite_self, slotPut_owned]; done) | (simp only [owned_mk, owned_eta, apply_ite State.owned, ite_self, foldl_owned, implies_true, slotPut_owned]; done) | (simp_all only [owned_mk, owned_eta, apply_ite State.owned, ite_self, foldl_owned, implies_true, slotPut_owned]; done))

theorem rowBad_owned (mac row : Nat) (s : State) :
    (rowBad mac row s).owned = s.owned := by
  unfold rowBad
  simp only [owned_mk, owned_eta, apply_ite State.owned, ite_self, countUp_owned, keyRowBad_owned]

theorem keyRowUe_owned (mac row : Nat) (s : State) :
    (keyRowUe mac row s).owned = s.owned := by
  unfold keyRowUe
  first
  | with_reducible rfl
  | ((try dsimp only); repeat' split) <;> (first | (with_reducible rfl) | (simp only [owned_mk, owned_eta, apply_ite State.owned, ite_self, rowBad_owned, raise_owned]; done) | (simp only [owned_mk, owned_eta, apply_ite State.owned, ite_self, foldl_owned, implies_true, rowBad_owned, raise_owned]; done) | (simp_all only [owned_mk, owned_eta, apply_ite State.owned, ite_self, foldl_owned, implies_true, rowBad_owned, raise_owned]; done))

theorem rowError_owned (s : State) (e : Nat × Nat × Bool) :
    (rowError s e).owned = s.owned := by
  unfold rowError
  simp only [owned_mk, owned_eta, apply_ite State.owned, ite_self, keyRowUe_owned, rowQueue_owned]

theorem rowErrors_owned (f : Faults) (s : State) :
    (rowErrors f s).owned = s.owned := by
  unfold rowErrors
  (try dsimp only); (repeat' split) <;>
    simp only [owned_mk, owned_eta, apply_ite State.owned, ite_self, foldl_owned, implies_true, rowError_owned]

theorem boundSet_owned (n b : Nat) (s : State) :
    (boundSet n b s).owned = s.owned := by
  unfold boundSet
  (try dsimp only); (repeat' split) <;>
    simp only [owned_mk, owned_eta, apply_ite State.owned, ite_self, foldl_owned, implies_true, ctxPut_owned, regPut_owned]

theorem ctxStart_owned (n : Nat) (e : RkEnt) (s : State) :
    (ctxStart n e s).owned = s.owned := by
  unfold ctxStart
  simp only [owned_mk, owned_eta, rkDequeue_owned, ctxPut_owned, nvPush_owned]

theorem rkFill_owned (k : Nat) (s : State) : (rkFill k s).owned = s.owned := by
  induction k generalizing s with
  | zero => rfl
  | succ k ih =>
    unfold rkFill
    (repeat' split) <;> simp only [ih, ctxStart_owned]

theorem rkSchedule_owned (s : State) :
    (rkSchedule s).owned = s.owned := by
  unfold rkSchedule
  simp only [owned_mk, owned_eta, apply_ite State.owned, ite_self, rkFill_owned]

theorem nextGenCause_owned (kidx : Nat) (s : State) :
    (nextGenCause kidx s).owned = s.owned := by
  unfold nextGenCause
  simp only [owned_mk, owned_eta, apply_ite State.owned, ite_self, slotPut_owned, slotSpent_owned, rkEnqueue_owned]

theorem ckptPush_owned (n st : Nat) (own : Bool) (s : State) :
    (ckptPush n st own s).owned = s.owned := by
  unfold ckptPush
  simp only [owned_mk, owned_eta, nvPush_owned]

theorem ckptSuper_owned (n : Nat) (s : State) :
    (ckptSuper n s).owned = s.owned := by
  unfold ckptSuper
  simp only [owned_mk, owned_eta, apply_ite State.owned, ite_self, ctxPut_owned, ckptPush_owned]

theorem tagOwe_owned (n tl seq : Nat) (s : State) :
    (tagOwe n tl seq s).owned = s.owned := by
  unfold tagOwe
  first
  | with_reducible rfl
  | ((try dsimp only); repeat' split) <;> (first | (with_reducible rfl) | (simp only [owned_mk, owned_eta, apply_ite State.owned, ite_self, ctxPut_owned]; done) | (simp only [owned_mk, owned_eta, apply_ite State.owned, ite_self, foldl_owned, implies_true, ctxPut_owned]; done) | (simp_all only [owned_mk, owned_eta, apply_ite State.owned, ite_self, foldl_owned, implies_true, ctxPut_owned]; done))

theorem tagPaid_owned (tl seq : Nat) (s : State) :
    (tagPaid tl seq s).owned = s.owned := by
  unfold tagPaid
  first
  | with_reducible rfl
  | ((try dsimp only); repeat' split) <;> (first | (with_reducible rfl) | (simp only [owned_mk, owned_eta, apply_ite State.owned, ite_self, ctxPut_owned]; done) | (simp only [owned_mk, owned_eta, apply_ite State.owned, ite_self, foldl_owned, implies_true, ctxPut_owned]; done) | (simp_all only [owned_mk, owned_eta, apply_ite State.owned, ite_self, foldl_owned, implies_true, ctxPut_owned]; done))

theorem rkPoll_owned (s : State) :
    (rkPoll s).owned = s.owned := by
  unfold rkPoll
  (try dsimp only); (repeat' split) <;>
    simp only [owned_mk, owned_eta, apply_ite State.owned, ite_self, foldl_owned, implies_true, nvPush_owned, ctxPut_owned]

theorem fmtRelease_owned (kidx : Nat) (s : State) :
    (fmtRelease kidx s).owned = s.owned := by
  unfold fmtRelease
  simp only [owned_mk, owned_eta]

theorem rekeyDone_owned (n : Nat) (c : Ctx) (s : State) :
    (rekeyDone n c s).owned = s.owned := by
  unfold rekeyDone
  simp only [owned_mk, owned_eta, raise_owned]

theorem doRekeyComplete_owned (n : Nat) (s : State) :
    (doRekeyComplete n s).owned = s.owned := by
  unfold doRekeyComplete
  simp only [owned_mk, owned_eta, apply_ite State.owned, ite_self, rekeyDone_owned, ctxPut_owned, slotPut_owned, rkSchedule_owned, slotSpent_owned]

theorem doFormatComplete_owned (n : Nat) (s : State) :
    (doFormatComplete n s).owned = s.owned := by
  unfold doFormatComplete
  simp only [owned_mk, owned_eta, apply_ite State.owned, ite_self, boundSet_owned, fmtRelease_owned, rkSchedule_owned, rekeyDone_owned, ctxPut_owned]

theorem purgeSlot_owned (kidx : Nat) (s : State) :
    (purgeSlot kidx s).owned = s.owned := by
  unfold purgeSlot
  simp only [owned_mk, owned_eta, slotPut_owned, rowBad_owned]

theorem doPurgeComplete_owned (n : Nat) (s : State) :
    (doPurgeComplete n s).owned = s.owned := by
  unfold doPurgeComplete
  (try dsimp only); (repeat' split) <;>
    simp only [owned_mk, owned_eta, apply_ite State.owned, ite_self, foldl_owned, implies_true, regPut_owned, grantReset_owned, purgeSlot_owned, fmtRelease_owned, rkSchedule_owned, rekeyDone_owned, ctxPut_owned]

theorem aheadAdd_owned (n a : Nat) (s : State) :
    (aheadAdd n a s).owned = s.owned := by
  unfold aheadAdd
  simp only [owned_mk, owned_eta, apply_ite State.owned, ite_self, ctxPut_owned, count1_owned]

theorem takeMove_owned (n : Nat) (s : State) :
    (takeMove n s).owned = s.owned := by
  unfold takeMove
  simp only [owned_mk, owned_eta, apply_ite State.owned, ite_self, ctxPut_owned, boundSet_owned, ckptPush_owned]

theorem takeLine_owned (n : Nat) (s : State) :
    (takeLine n s).owned = s.owned := by
  unfold takeLine
  simp only [owned_mk, owned_eta, apply_ite State.owned, ite_self, takeMove_owned, aheadAdd_owned, ctxPut_owned]

theorem stepEnd_owned (n a : Nat) (s : State) :
    (stepEnd n a s).owned = s.owned := by
  unfold stepEnd
  simp only [owned_mk, owned_eta, ctxPut_owned]

theorem stepMod_owned (n a : Nat) (f : StepLine → StepLine) (s : State) :
    (stepMod n a f s).owned = s.owned := by
  unfold stepMod
  simp only [owned_mk, owned_eta, ctxPut_owned]

theorem stepsDrop_owned (n : Nat) (s : State) :
    (stepsDrop n s).owned = s.owned := by
  unfold stepsDrop
  (try dsimp only); (repeat' split) <;>
    simp only [owned_mk, owned_eta, apply_ite State.owned, ite_self, foldl_owned, implies_true, mediaMod_owned]

theorem ctxSuspend_owned (n : Nat) (s : State) :
    (ctxSuspend n s).owned = s.owned := by
  unfold ctxSuspend
  simp only [owned_mk, owned_eta, apply_ite State.owned, ite_self, stepsDrop_owned, ctxPut_owned, nvPush_owned]

theorem ctxSuspendAbsent_owned (s : State) :
    (ctxSuspendAbsent s).owned = s.owned := by
  unfold ctxSuspendAbsent
  (try dsimp only); (repeat' split) <;>
    simp only [owned_mk, owned_eta, apply_ite State.owned, ite_self, foldl_owned, implies_true, ctxSuspend_owned]

theorem doRekeyPassStart_owned (n : Nat) (s : State) :
    (doRekeyPassStart n s).owned = s.owned := by
  unfold doRekeyPassStart
  (try dsimp only); (repeat' split) <;>
    simp only [owned_mk, owned_eta, apply_ite State.owned, ite_self, foldl_owned, implies_true, slotPut_owned, rkDequeue_owned, ctxPut_owned, regPut_owned, rkPoll_owned, ctxSuspendAbsent_owned, raise_owned]

theorem rekeyResumeEv_owned (n : Nat) (s : State) :
    (rekeyResumeEv n s).owned = s.owned := by
  unfold rekeyResumeEv
  simp only [owned_mk, owned_eta, raise_owned]

theorem ctxContinue_owned (n : Nat) (s : State) :
    (ctxContinue n s).owned = s.owned := by
  unfold ctxContinue
  simp only [owned_mk, owned_eta, apply_ite State.owned, ite_self, rekeyResumeEv_owned, boundSet_owned, ctxPut_owned]

theorem ctxStop_owned (kidx : Nat) (s : State) :
    (ctxStop kidx s).owned = s.owned := by
  unfold ctxStop
  (try dsimp only); (repeat' split) <;> simp only [owned_mk, owned_eta, nvPush_owned, stepsDrop_owned, ctxPut_owned]

theorem nvAct_owned (act : NvAct) (s : State) :
    (nvAct act s).owned = s.owned := by
  unfold nvAct
  (try dsimp only); (repeat' split) <;>
    simp only [owned_mk, owned_eta, apply_ite State.owned, ite_self, foldl_owned, implies_true, slotPut_owned, regPut_owned, rkEnqueue_owned, nvPush_owned, fmtRelease_owned, rkClearQueue_owned, ctxStop_owned, raise_owned]

theorem nvActs_owned (s : State) :
    (nvActs s).owned = s.owned := by
  unfold nvActs
  (try dsimp only); (repeat' split) <;>
    simp only [owned_mk, owned_eta, apply_ite State.owned, ite_self, foldl_owned, implies_true, nvAct_owned]

theorem rekeyStrobe_owned (s : State) :
    (rekeyStrobe s).owned = s.owned := by
  unfold rekeyStrobe
  (try dsimp only); (repeat' split) <;>
    simp only [owned_mk, owned_eta, apply_ite State.owned, ite_self, foldl_owned, implies_true, count1_owned, raise_owned, ctxContinue_owned, ctxPut_owned, ckptSuper_owned, rkPoll_owned, rkSchedule_owned]

theorem wayPut_owned (k : Nat) (x : TagWay) (s : State) :
    (wayPut k x s).owned = s.owned := by
  unfold wayPut
  simp only [owned_mk, owned_eta]

theorem wayUse_owned (k : Nat) (x : TagWay) (s : State) :
    (wayUse k x s).owned = s.owned := by
  unfold wayUse
  first
  | with_reducible rfl
  | ((try dsimp only); repeat' split) <;> (first | (with_reducible rfl) | (simp only [owned_mk, owned_eta, apply_ite State.owned, ite_self, wayPut_owned]; done) | (simp only [owned_mk, owned_eta, apply_ite State.owned, ite_self, foldl_owned, implies_true, wayPut_owned]; done) | (simp_all only [owned_mk, owned_eta, apply_ite State.owned, ite_self, foldl_owned, implies_true, wayPut_owned]; done))

theorem wayDel_owned (k : Nat) (s : State) :
    (wayDel k s).owned = s.owned := by
  unfold wayDel
  simp only [owned_mk, owned_eta]

theorem tagReserve_owned (o : MOwner) (tl : Nat) (s : State) :
    (tagReserve o tl s).owned = s.owned := by
  unfold tagReserve
  simp only [owned_mk, owned_eta]

theorem tagUnreserve_owned (o : MOwner) (s : State) :
    (tagUnreserve o s).owned = s.owned := by
  unfold tagUnreserve
  simp only [owned_mk, owned_eta]

theorem wayAlloc_owned (tl kidx : Nat) (s : State) :
    (wayAlloc tl kidx s).2.owned = s.owned := by
  unfold wayAlloc
  (try dsimp only); (repeat' split) <;> simp only [owned_mk, owned_eta, wayPut_owned]

theorem wayAlloc_owned_of {tl kidx : Nat} {s : State} {pp} (h : wayAlloc tl kidx s = pp) : pp.2.owned = s.owned := h ▸ wayAlloc_owned tl kidx s

theorem wayEvict_owned (tl : Nat) (s : State) :
    (wayEvict tl s).owned = s.owned := by
  unfold wayEvict
  (try dsimp only); (repeat' split) <;> simp only [owned_mk, owned_eta, wayPut_owned]

theorem tagWrite_owned (kidx tl e seq : Nat) (v : BitVec 64) (s : State) :
    (tagWrite kidx tl e seq v s).owned = s.owned := by
  unfold tagWrite
  (try dsimp only); (repeat' split) <;>
    ((try have hk_wayAlloc := wayAlloc_owned_of (by assumption : wayAlloc _ _ _ = _)); simp_all only [owned_mk, owned_eta, apply_ite State.owned, foldl_owned, ite_self, wayUse_owned, wayAlloc_owned])

theorem tagPersisted_owned (seq : Nat) (s : State) :
    (tagPersisted seq s).owned = s.owned := by
  unfold tagPersisted
  simp only [owned_mk, owned_eta]

theorem tagDrop_owned (seq : Nat) (s : State) :
    (tagDrop seq s).owned = s.owned := by
  unfold tagDrop
  simp only [owned_mk, owned_eta]

theorem tlEv_owned (e : Ev) (src tl p3 : Nat) (s : State) :
    (tlEv e src tl p3 s).owned = s.owned := by
  unfold tlEv
  simp only [owned_mk, owned_eta, raise_owned]

theorem tagDropLine_owned (tl : Nat) (s : State) :
    (tagDropLine tl s).owned = s.owned := by
  unfold tagDropLine
  (try dsimp only); (repeat' split) <;> simp only [owned_mk, owned_eta, wayDel_owned]

theorem tagSecded_owned (f : Faults) (tl : Nat) (s : State) :
    (tagSecded f tl s).owned = s.owned := by
  unfold tagSecded
  (try dsimp only); (repeat' split) <;> simp only [owned_mk, owned_eta, count1_owned, tlEv_owned, tagDropLine_owned]

theorem tagHit_owned (tl : Nat) (s : State) :
    (tagHit tl s).owned = s.owned := by
  unfold tagHit
  first
  | with_reducible rfl
  | ((try dsimp only); repeat' split) <;> (first | (with_reducible rfl) | (simp only [owned_mk, owned_eta, apply_ite State.owned, ite_self, wayUse_owned, count1_owned]; done) | (simp only [owned_mk, owned_eta, apply_ite State.owned, ite_self, foldl_owned, implies_true, wayUse_owned, count1_owned]; done) | (simp_all only [owned_mk, owned_eta, apply_ite State.owned, ite_self, foldl_owned, implies_true, wayUse_owned, count1_owned]; done))

theorem tagMerge_owned (kidx tl : Nat) (d : Line) (s : State) :
    (tagMerge kidx tl d s).owned = s.owned := by
  unfold tagMerge
  (try dsimp only); (repeat' split) <;>
    ((try have hk_wayAlloc := wayAlloc_owned_of (by assumption : wayAlloc _ _ _ = _)); simp_all only [owned_mk, owned_eta, apply_ite State.owned, foldl_owned, ite_self, wayUse_owned, wayAlloc_owned])

theorem taglineMedia_owned (tl w : Nat) (s : State) :
    (taglineMedia tl w s).owned = s.owned := by
  unfold taglineMedia
  simp only [owned_mk, owned_eta, tlEv_owned, count1_owned]

theorem fetchAsk_owned (tl kidx : Nat) (owners : List MOwner) (wb : Bool) (s : State) :
    (fetchAsk tl kidx owners wb s).owned = s.owned := by
  unfold fetchAsk
  simp only [owned_mk, owned_eta, apply_ite State.owned, ite_self, taglineMedia_owned, count1_owned]

theorem tagLookup_owned (o : MOwner) (kidx tl e : Nat) (f : Faults) (s : State) :
    (tagLookup o kidx tl e f s).owned = s.owned := by
  unfold tagLookup
  first
  | with_reducible rfl
  | ((try dsimp only); repeat' split) <;> (first | (with_reducible rfl) | (simp only [owned_mk, owned_eta, apply_ite State.owned, ite_self, tagSecded_owned, tagHit_owned, fetchAsk_owned]; done) | (simp only [owned_mk, owned_eta, apply_ite State.owned, ite_self, foldl_owned, implies_true, tagSecded_owned, tagHit_owned, fetchAsk_owned]; done) | (simp_all only [owned_mk, owned_eta, apply_ite State.owned, ite_self, foldl_owned, implies_true, tagSecded_owned, tagHit_owned, fetchAsk_owned]; done))

theorem wbFetches_owned (s : State) :
    (wbFetches s).owned = s.owned := by
  unfold wbFetches
  (try dsimp only); (repeat' split) <;>
    simp only [owned_mk, owned_eta, apply_ite State.owned, ite_self, foldl_owned, implies_true, fetchAsk_owned]

theorem wbIssue_owned (m k : Nat) (x : TagWay) (s : State) :
    (wbIssue m k x s).owned = s.owned := by
  unfold wbIssue
  simp only [owned_mk, owned_eta, wayPut_owned, issueW_owned]

theorem wbPersisted_owned (tl seq : Nat) (s : State) :
    (wbPersisted tl seq s).owned = s.owned := by
  unfold wbPersisted
  (try dsimp only); (repeat' split) <;> simp only [owned_mk, owned_eta, tagPaid_owned, count1_owned, wayPut_owned]

theorem tagFlush_owned (s : State) :
    (tagFlush s).owned = s.owned := by
  unfold tagFlush
  simp only [owned_mk, owned_eta, wbFetches_owned]

theorem tagFailCount_owned (kidx : Nat) (s : State) :
    (tagFailCount kidx s).owned = s.owned := by
  unfold tagFailCount
  simp only [owned_mk, owned_eta, apply_ite State.owned, ite_self, nextGenCause_owned, raise_owned]

theorem tagWindow_owned (s : State) :
    (tagWindow s).owned = s.owned := by
  unfold tagWindow
  simp only [owned_mk, owned_eta, apply_ite State.owned, ite_self]

theorem highWater_owned (kidx : Nat) (g : BitVec 32) (s : State) :
    (highWater kidx g s).owned = s.owned := by
  unfold highWater
  simp only [owned_mk, owned_eta, apply_ite State.owned, ite_self, raise_owned, slotPut_owned, nextGenCause_owned]

theorem counterEnd_owned (kidx a : Nat) (g : BitVec 32) (s : State) :
    (counterEnd kidx a g s).owned = s.owned := by
  unfold counterEnd
  (try dsimp only); (repeat' split) <;> simp only [owned_mk, owned_eta, raise_owned, aheadAdd_owned, slotPut_owned]

theorem nextLctr_owned (kidx a : Nat) (g : BitVec 32) (e : BitVec 64) (s : State) :
    (nextLctr kidx a g e s).2.owned = s.owned := by
  unfold nextLctr
  (try dsimp only); (repeat' split) <;> simp only [owned_mk, owned_eta, jackWrite_owned, highWater_owned, counterEnd_owned]

theorem nextLctr_owned_of {kidx a : Nat} {g : BitVec 32} {e : BitVec 64} {s : State} {pp} (h : nextLctr kidx a g e s = pp) : pp.2.owned = s.owned := h ▸ nextLctr_owned kidx a g e s

theorem spentNote_owned (kidx a : Nat) (s : State) :
    (spentNote kidx a s).owned = s.owned := by
  unfold spentNote
  simp only [owned_mk, owned_eta, sumUp_owned, count1_owned]

theorem voteHold_owned (h : Hold) (mis : Nat × List Nat × List Block) (s : State) :
    (voteHold h mis s).owned = s.owned := by
  unfold voteHold
  first
  | with_reducible rfl
  | ((try dsimp only); repeat' split) <;> (first | (with_reducible rfl) | (simp only [owned_mk, owned_eta, apply_ite State.owned, ite_self]; done) | (simp only [owned_mk, owned_eta, apply_ite State.owned, ite_self, foldl_owned, implies_true]; done) | (simp_all only [owned_mk, owned_eta, apply_ite State.owned, ite_self, foldl_owned, implies_true]; done))

theorem aheadIssued_owned (kidx a : Nat) (g : BitVec 32) (s : State) :
    (aheadIssued kidx a g s).owned = s.owned := by
  unfold aheadIssued
  (try dsimp only); (repeat' split) <;> simp only [owned_mk, owned_eta, ctxPut_owned]

theorem txnConsume_owned (t : Txn) (s : State) :
    (txnConsume t s).owned = s.owned := by
  unfold txnConsume
  first
  | with_reducible rfl
  | ((try dsimp only); repeat' split) <;> (first | (with_reducible rfl) | (simp only [owned_mk, owned_eta, apply_ite State.owned, ite_self, txnPut_owned, creditRelease_owned]; done) | (simp only [owned_mk, owned_eta, apply_ite State.owned, ite_self, foldl_owned, implies_true, txnPut_owned, creditRelease_owned]; done) | (simp_all only [owned_mk, owned_eta, apply_ite State.owned, ite_self, foldl_owned, implies_true, txnPut_owned, creditRelease_owned]; done))

theorem ownerIssued_owned (o : MOwner) (g : BitVec 32) (c : BitVec 24) (s : State) :
    (ownerIssued o g c s).owned = s.owned := by
  unfold ownerIssued
  (try dsimp only); (repeat' split) <;> simp only [owned_mk, owned_eta, txnConsume_owned, stepMod_owned]

theorem stepWritten_owned (o : MOwner) (s : State) :
    (stepWritten o s).owned = s.owned := by
  unfold stepWritten
  first
  | with_reducible rfl
  | ((try dsimp only); repeat' split) <;> (first | (with_reducible rfl) | (simp only [owned_mk, owned_eta, apply_ite State.owned, ite_self, count1_owned]; done) | (simp only [owned_mk, owned_eta, apply_ite State.owned, ite_self, foldl_owned, implies_true, count1_owned]; done) | (simp_all only [owned_mk, owned_eta, apply_ite State.owned, ite_self, foldl_owned, implies_true, count1_owned]; done))

theorem ownerOwes_owned (o : MOwner) (tl seq : Nat) (s : State) :
    (ownerOwes o tl seq s).owned = s.owned := by
  unfold ownerOwes
  first
  | with_reducible rfl
  | ((try dsimp only); repeat' split) <;> (first | (with_reducible rfl) | (simp only [owned_mk, owned_eta, apply_ite State.owned, ite_self, tagOwe_owned]; done) | (simp only [owned_mk, owned_eta, apply_ite State.owned, ite_self, foldl_owned, implies_true, tagOwe_owned]; done) | (simp_all only [owned_mk, owned_eta, apply_ite State.owned, ite_self, foldl_owned, implies_true, tagOwe_owned]; done))

theorem writeIssue_owned (w : WriteReq) (ks : List Block) (f : Faults) (s : State) :
    (writeIssue w ks f s).owned = s.owned := by
  unfold writeIssue
  (try dsimp only); (repeat' split) <;> simp only [owned_mk, owned_eta, ownerOwes_owned, tagWrite_owned, tagSecded_owned, wbFetches_owned, issueW_owned, ownerIssued_owned, stepWritten_owned, tagUnreserve_owned, aheadIssued_owned]

theorem ownerHeld_owned (o : MOwner) (s : State) :
    (ownerHeld o s).owned = s.owned := by
  unfold ownerHeld
  (try dsimp only); (repeat' split) <;> simp only [owned_mk, owned_eta, txnPut_owned, voteHold_owned]

theorem writeSlice_owned (w : WriteReq) (k : GenKeys) (f : Faults) (s : State) :
    (writeSlice w k f s).owned = s.owned := by
  unfold writeSlice
  (try dsimp only); (repeat' split) <;> simp only [owned_mk, owned_eta, writeIssue_owned, tagReserve_owned, tagUnreserve_owned, ownerHeld_owned, voteHold_owned]

theorem txnFinish_owned (t : Txn) (status : Nat) (s : State) :
    (txnFinish t status s).owned = s.owned := by
  unfold txnFinish
  simp only [owned_mk, owned_eta, completeBare_owned, tagUnreserve_owned, txnDel_owned]

theorem writeGo_owned (t : Txn) (e : BitVec 64) (f : Faults) (s : State) :
    (writeGo t e f s).owned = s.owned := by
  unfold writeGo
  (try dsimp only); (repeat' split) <;>
    ((try have hk_nextLctr := nextLctr_owned_of (by assumption : nextLctr _ _ _ _ _ = _)); simp_all only [owned_mk, owned_eta, apply_ite State.owned, foldl_owned, ite_self, txnFinish_owned, nextLctr_owned, spentNote_owned, writeSlice_owned])

theorem entryFromSide_owned (kidx a : Nat) (sc : Side) (s : State) :
    (entryFromSide kidx a sc s).2.owned = s.owned := by
  unfold entryFromSide
  (try dsimp only); (repeat' split) <;> simp only [owned_mk, owned_eta, jackFill_owned]

theorem entryFromSide_owned_of {kidx a : Nat} {sc : Side} {s : State} {pp} (h : entryFromSide kidx a sc s = pp) : pp.2.owned = s.owned := h ▸ entryFromSide_owned kidx a sc s

theorem entryResolve_owned (kidx a : Nat) (sc : Side) (pe : Bool) (s : State) :
    (entryResolve kidx a sc pe s).2.owned = s.owned := by
  unfold entryResolve
  first
  | with_reducible rfl
  | ((try dsimp only); repeat' split) <;> (first | (with_reducible rfl) | (simp only [owned_mk, owned_eta, apply_ite State.owned, ite_self, jackLookup_owned, count1_owned, entryFromSide_owned]; done) | ((try have hk_jackLookup := jackLookup_owned_of (by assumption : jackLookup _ _ _ _ = _)); (try have hk_entryFromSide := entryFromSide_owned_of (by assumption : entryFromSide _ _ _ _ = _)); simp_all only [owned_mk, owned_eta, apply_ite State.owned, foldl_owned, ite_self, jackLookup_owned, count1_owned, entryFromSide_owned]; done) | (simp only [owned_mk, owned_eta, apply_ite State.owned, ite_self, foldl_owned, implies_true, jackLookup_owned, count1_owned, entryFromSide_owned]; done) | (simp_all only [owned_mk, owned_eta, apply_ite State.owned, ite_self, foldl_owned, implies_true, jackLookup_owned, count1_owned, entryFromSide_owned]; done))

theorem entryResolve_owned_of {kidx a : Nat} {sc : Side} {pe : Bool} {s : State} {pp} (h : entryResolve kidx a sc pe s = pp) : pp.2.owned = s.owned := h ▸ entryResolve_owned kidx a sc pe s

theorem writeResolve_owned (t : Txn) (f : Faults) (s : State) :
    (writeResolve t f s).owned = s.owned := by
  unfold writeResolve
  (try dsimp only); (repeat' split) <;>
    ((try have hk_jackLookup := jackLookup_owned_of (by assumption : jackLookup _ _ _ _ = _)); simp_all only [owned_mk, owned_eta, apply_ite State.owned, foldl_owned, ite_self, jackLookup_owned, writeGo_owned, count1_owned, txnPut_owned, lookAhead_owned, probeAdd_owned, tagReserve_owned])

theorem readReply_owned (t : Txn) (status : Nat) (data : Option Line) (psn : Bool) (extra : Side) (s : State) :
    (readReply t status data psn extra s).owned = s.owned := by
  unfold readReply
  simp only [owned_mk, owned_eta, complete_owned, txnDel_owned]

theorem partialRefuse_owned (t : Txn) (status : Nat) (s : State) :
    (partialRefuse t status s).owned = s.owned := by
  unfold partialRefuse
  simp only [owned_mk, owned_eta, txnFinish_owned, count1_owned]

theorem partialMerge_owned (t : Txn) (old : Line) (oldPsn : Bool) (line : BitVec 576) (s : State) :
    (partialMerge t old oldPsn line s).owned = s.owned := by
  unfold partialMerge
  (try dsimp only); (repeat' split) <;> simp only [owned_mk, owned_eta, txnConsume_owned]

theorem stepCount_owned (n sub : Nat) (s : State) :
    (stepCount n sub s).owned = s.owned := by
  unfold stepCount
  simp only [owned_mk, owned_eta, count1_owned]

theorem lineFault_owned (n a status row : Nat) (s : State) :
    (lineFault n a status row s).owned = s.owned := by
  unfold lineFault
  first
  | with_reducible rfl
  | ((try dsimp only); repeat' split) <;> (first | (with_reducible rfl) | (simp only [owned_mk, owned_eta, apply_ite State.owned, ite_self, raise_owned, stepCount_owned]; done) | (simp only [owned_mk, owned_eta, apply_ite State.owned, ite_self, foldl_owned, implies_true, raise_owned, stepCount_owned]; done) | (simp_all only [owned_mk, owned_eta, apply_ite State.owned, ite_self, foldl_owned, implies_true, raise_owned, stepCount_owned]; done))

theorem stepSkip_owned (n a : Nat) (s : State) :
    (stepSkip n a s).owned = s.owned := by
  unfold stepSkip
  simp only [owned_mk, owned_eta, rkPoll_owned, stepEnd_owned, stepCount_owned]

theorem stepFail_owned (n a status row : Nat) (s : State) :
    (stepFail n a status row s).owned = s.owned := by
  unfold stepFail
  simp only [owned_mk, owned_eta, rkPoll_owned, stepEnd_owned, lineFault_owned]

theorem stepsLost_owned (m : Nat) (s : State) :
    (stepsLost m s).owned = s.owned := by
  unfold stepsLost
  (try dsimp only); (repeat' split) <;>
    simp only [owned_mk, owned_eta, apply_ite State.owned, ite_self, foldl_owned, implies_true, stepFail_owned]

theorem stepWrite_owned (n a : Nat) (pt : Line) (psn : Bool) (sc : Side) (s : State) :
    (stepWrite n a pt psn sc s).owned = s.owned := by
  unfold stepWrite
  simp only [owned_mk, owned_eta, stepMod_owned]

theorem deliver_owned (o : MOwner) (row status : Nat) (pt : Line) (line : BitVec 576) (s : State) :
    (deliver o row status pt line s).owned = s.owned := by
  unfold deliver
  (try dsimp only); (repeat' split) <;> simp only [owned_mk, owned_eta, partialMerge_owned, partialRefuse_owned, readReply_owned, stepWrite_owned, lineFault_owned]

theorem deliverNone_owned (o : MOwner) (row status : Nat) (s : State) :
    (deliverNone o row status s).owned = s.owned := by
  unfold deliverNone
  (try dsimp only); (repeat' split) <;> simp only [owned_mk, owned_eta, partialRefuse_owned, readReply_owned, stepSkip_owned, stepFail_owned]

theorem tagFailNote_owned (kidx a sl : Nat) (torn total : Bool) (cecho : Nat) (s : State) :
    (tagFailNote kidx a sl torn total cecho s).owned = s.owned := by
  unfold tagFailNote
  simp only [owned_mk, owned_eta, apply_ite State.owned, ite_self, count1_owned, raise_owned]

theorem virginNote_owned (sl : Nat) (sc : Side) (s : State) :
    (virginNote sl sc s).owned = s.owned := by
  unfold virginNote
  first
  | with_reducible rfl
  | ((try dsimp only); repeat' split) <;> (first | (with_reducible rfl) | (simp only [owned_mk, owned_eta, apply_ite State.owned, ite_self, count1_owned]; done) | (simp only [owned_mk, owned_eta, apply_ite State.owned, ite_self, foldl_owned, implies_true, count1_owned]; done) | (simp_all only [owned_mk, owned_eta, apply_ite State.owned, ite_self, foldl_owned, implies_true, count1_owned]; done))

theorem deliverVirgin_owned (o : MOwner) (kidx a m : Nat) (line : BitVec 576) (s : State) :
    (deliverVirgin o kidx a m line s).owned = s.owned := by
  unfold deliverVirgin
  (try dsimp only); (repeat' split) <;> simp only [owned_mk, owned_eta, virginNote_owned, stepSkip_owned, tagFailNote_owned, partialRefuse_owned, readReply_owned, partialMerge_owned]

theorem deliverGood_owned (o : MOwner) (line : BitVec 576) (ks : List Block) (s : State) :
    (deliverGood o line ks s).owned = s.owned := by
  unfold deliverGood
  simp only [owned_mk, owned_eta, apply_ite State.owned, ite_self, deliver_owned]

theorem ownerSt_owned (o : MOwner) (st : TxSt) (s : State) :
    (ownerSt o st s).owned = s.owned := by
  unfold ownerSt
  (try dsimp only); (repeat' split) <;> simp only [owned_mk, owned_eta, txnPut_owned]

theorem readVerify_owned (h : Hold) (d : Line) (s : State) :
    (readVerify h d s).owned = s.owned := by
  unfold readVerify
  (try dsimp only); (repeat' split) <;> simp only [owned_mk, owned_eta, tagFailNote_owned, tagFailCount_owned, deliver_owned, deliverGood_owned, ownerSt_owned]

theorem tagFetchLost_owned (h : Hold) (s : State) :
    (tagFetchLost h s).owned = s.owned := by
  unfold tagFetchLost
  (try dsimp only); (repeat' split) <;> simp only [owned_mk, owned_eta, stepWrite_owned, lineFault_owned, deliverNone_owned]

theorem readTagged_owned (h : Hold) (s : State) :
    (readTagged h s).owned = s.owned := by
  unfold readTagged
  (try dsimp only); (repeat' split) <;> simp only [owned_mk, owned_eta, readVerify_owned, tagFetchLost_owned, taglineMedia_owned, ownerSt_owned, fetchAsk_owned]

theorem readDecrypt_owned (o : MOwner) (kidx a m : Nat) (g : BitVec 32) (k : GenKeys) (line : BitVec 576) (f : Faults) (s : State) :
    (readDecrypt o kidx a m g k line f s).owned = s.owned := by
  unfold readDecrypt
  (try dsimp only); (repeat' split) <;> simp only [owned_mk, owned_eta, readTagged_owned, ownerSt_owned, voteHold_owned]

theorem readJack_owned (t : Txn) (line : BitVec 576) (row : EarlyRow) (s : State) :
    (readJack t line row s).owned = s.owned := by
  unfold readJack
  (try dsimp only); (repeat' split) <;> simp only [owned_mk, owned_eta, count1_owned, jackFill_owned]

theorem purgeDecide_owned (n kidx a : Nat) (line : BitVec 576) (s : State) :
    (purgeDecide n kidx a line s).owned = s.owned := by
  unfold purgeDecide
  simp only [owned_mk, owned_eta, apply_ite State.owned, ite_self, stepSkip_owned, stepWrite_owned]

theorem formatDecide_owned (n kidx a : Nat) (line : BitVec 576) (s : State) :
    (formatDecide n kidx a line s).owned = s.owned := by
  unfold formatDecide
  simp only [owned_mk, owned_eta, apply_ite State.owned, ite_self, stepSkip_owned, stepWrite_owned]

theorem lineChecks_owned (o : MOwner) (kidx a m : Nat) (line : BitVec 576) (f : Faults) (s : State) :
    (lineChecks o kidx a m line f s).owned = s.owned := by
  unfold lineChecks
  (try dsimp only); (repeat' split) <;> simp only [owned_mk, owned_eta, count1_owned, deliverVirgin_owned, deliverNone_owned, stepMod_owned, readDecrypt_owned]

theorem lineTake_owned (o : MOwner) (m : Nat) (line : BitVec 576) (f : Faults) (s : State) :
    (lineTake o m line f s).owned = s.owned := by
  unfold lineTake
  (try dsimp only); (repeat' split) <;> simp only [owned_mk, owned_eta, readReply_owned, lineChecks_owned, readJack_owned, jackCompare_owned, formatDecide_owned, virginNote_owned, purgeDecide_owned]

theorem lostForget_owned (o : MOwner) (s : State) :
    (lostForget o s).owned = s.owned := by
  unfold lostForget
  simp only [owned_mk, owned_eta, apply_ite State.owned, ite_self]

theorem lineArrived_owned (o : MOwner) (m : Nat) (line : BitVec 576) (f : Faults) (s : State) :
    (lineArrived o m line f s).owned = s.owned := by
  unfold lineArrived
  simp only [owned_mk, owned_eta, apply_ite State.owned, ite_self, lostForget_owned, deliverNone_owned, lineTake_owned]

theorem lineLost_owned (o : MOwner) (s : State) :
    (lineLost o s).owned = s.owned := by
  unfold lineLost
  (try dsimp only); (repeat' split) <;> simp only [owned_mk, owned_eta, lostForget_owned, deliverNone_owned]

theorem holdDel_owned (h : Hold) (s : State) :
    (holdDel h s).owned = s.owned := by
  unfold holdDel
  simp only [owned_mk, owned_eta]

theorem schkFault_owned (h : Hold) (persistent : Bool) (s : State) :
    (schkFault h persistent s).owned = s.owned := by
  unfold schkFault
  simp only [owned_mk, owned_eta, apply_ite State.owned, ite_self, count1_owned, regPut_owned, raiseSev_owned, prioDirection_owned]

theorem doSchkRecompute_owned (sl : Nat) (f : Faults) (s : State) :
    (doSchkRecompute sl f s).owned = s.owned := by
  unfold doSchkRecompute
  (try dsimp only); (repeat' split) <;> simp only [owned_mk, owned_eta, holdDel_owned, deliverGood_owned, schkFault_owned, deliver_owned]

theorem purgePut_owned (m n a : Nat) (pay : Line) (c : Option (BitVec 32 × BitVec 24)) (s : State) :
    (purgePut m n a pay c s).owned = s.owned := by
  unfold purgePut
  first
  | with_reducible rfl
  | ((try dsimp only); repeat' split) <;> (first | (with_reducible rfl) | (simp only [owned_mk, owned_eta, apply_ite State.owned, ite_self, issueW_owned, stepMod_owned, stepWritten_owned]; done) | (simp only [owned_mk, owned_eta, apply_ite State.owned, ite_self, foldl_owned, implies_true, issueW_owned, stepMod_owned, stepWritten_owned]; done) | (simp_all only [owned_mk, owned_eta, apply_ite State.owned, ite_self, foldl_owned, implies_true, issueW_owned, stepMod_owned, stepWritten_owned]; done))

theorem voteContinue_owned (h : Hold) (ks : List Block) (f : Faults) (s : State) :
    (voteContinue h ks f s).owned = s.owned := by
  unfold voteContinue
  (try dsimp only); (repeat' split) <;> simp only [owned_mk, owned_eta, purgePut_owned, writeIssue_owned, readTagged_owned]

theorem voteAbandon_owned (h : Hold) (s : State) :
    (voteAbandon h s).owned = s.owned := by
  unfold voteAbandon
  (try dsimp only); (repeat' split) <;> simp only [owned_mk, owned_eta, count1_owned, slicePut_owned, txnFinish_owned, deliverNone_owned, stepFail_owned]

theorem voteRelease_owned (h : Hold) (chk : Bool) (s : State) :
    (voteRelease h chk s).owned = s.owned := by
  unfold voteRelease
  first
  | with_reducible rfl
  | ((try dsimp only); repeat' split) <;> (first | (with_reducible rfl) | (simp only [owned_mk, owned_eta, apply_ite State.owned, ite_self, voteContinue_owned, holdDel_owned]; done) | (simp only [owned_mk, owned_eta, apply_ite State.owned, ite_self, foldl_owned, implies_true, voteContinue_owned, holdDel_owned]; done) | (simp_all only [owned_mk, owned_eta, apply_ite State.owned, ite_self, foldl_owned, implies_true, voteContinue_owned, holdDel_owned]; done))

theorem doVote_owned (sl : Nat) (dir : Dir) (f : Faults) (s : State) :
    (doVote sl dir f s).owned = s.owned := by
  unfold doVote
  (try dsimp only); (repeat' split) <;> simp only [owned_mk, owned_eta, voteCharge_owned, holdDel_owned, voteContinue_owned, voteAbandon_owned, voteRelease_owned]

theorem standFor_owned (sl : Nat) (s : State) :
    (standFor sl s).owned = s.owned := by
  unfold standFor
  first
  | with_reducible rfl
  | ((try dsimp only); repeat' split) <;> (first | (with_reducible rfl) | (simp only [owned_mk, owned_eta, apply_ite State.owned, ite_self, slicePut_owned]; done) | (simp only [owned_mk, owned_eta, apply_ite State.owned, ite_self, foldl_owned, implies_true, slicePut_owned]; done) | (simp_all only [owned_mk, owned_eta, apply_ite State.owned, ite_self, foldl_owned, implies_true, slicePut_owned]; done))

theorem selfTest_owned (sl : Nat) (f : Faults) (s : State) :
    (selfTest sl f s).owned = s.owned := by
  unfold selfTest
  (try dsimp only); (repeat' split) <;>
    simp only [owned_mk, owned_eta, apply_ite State.owned, ite_self, foldl_owned, implies_true, standFor_owned, pipeCharge_owned]

theorem tagMakeRoom_owned (s : State) :
    (tagMakeRoom s).owned = s.owned := by
  unfold tagMakeRoom
  (try dsimp only); (repeat' split) <;>
    simp only [owned_mk, owned_eta, apply_ite State.owned, ite_self, foldl_owned, implies_true, wbFetches_owned, wayEvict_owned]

theorem slotUse_owned (m : Nat) (d : Dir) (c : Cls) (line : Nat) (s : State) :
    (slotUse m d c line s).owned = s.owned := by
  unfold slotUse
  simp only [owned_mk, owned_eta, mediaMod_owned]

theorem commitHoldNote_owned (i : Item) (step : Nat) (s : State) :
    (commitHoldNote i step s).owned = s.owned := by
  unfold commitHoldNote
  simp only [owned_mk, owned_eta, raise_owned, count1_owned]

theorem itemDel_owned (i : Item) (s : State) :
    (itemDel i s).owned = s.owned := by
  unfold itemDel
  simp only [owned_mk, owned_eta, stickyTrim_owned]

theorem sumUpN_owned (e : Ev) (src a b c n : Nat) (s : State) : (sumUpN e src a b c n s).owned = s.owned := by
  unfold sumUpN
  induction n with
  | zero => rfl
  | succ n ih => simp only [Nat.repeat, sumUp_owned, ih]

theorem wordsNote_owned (src q kind n : Nat) (s : State) :
    (wordsNote src q kind n s).owned = s.owned := by
  unfold wordsNote
  first
  | with_reducible rfl
  | ((try dsimp only); repeat' split) <;> (first | (with_reducible rfl) | (simp only [owned_mk, owned_eta, apply_ite State.owned, ite_self, sumUpN_owned, countUp_owned]; done) | (simp only [owned_mk, owned_eta, apply_ite State.owned, ite_self, foldl_owned, implies_true, sumUpN_owned, countUp_owned]; done) | (simp_all only [owned_mk, owned_eta, apply_ite State.owned, ite_self, foldl_owned, implies_true, sumUpN_owned, countUp_owned]; done))

theorem wordFaults_owned (i : Item) (f : Faults) (s : State) :
    (wordFaults i f s).owned = s.owned := by
  unfold wordFaults
  simp only [owned_mk, owned_eta, apply_ite State.owned, ite_self, wordsNote_owned]

theorem keyFaults_owned (kidx : Nat) (f : Faults) (s : State) :
    (keyFaults kidx f s).owned = s.owned := by
  unfold keyFaults
  simp only [owned_mk, owned_eta, apply_ite State.owned, ite_self, count1_owned, ctxSuspendAbsent_owned, raise_owned, slotZeroize_owned]

theorem hdrLost_owned (i : Item) (mask : List Nat) (s : State) :
    (hdrLost i mask s).owned = s.owned := by
  unfold hdrLost
  (try dsimp only); (repeat' split) <;>
    simp only [owned_mk, owned_eta, apply_ite State.owned, ite_self, foldl_owned, implies_true, raise_owned, count1_owned, linkDown_owned, completeBare_owned]

theorem grantRead_owned (i : Item) (f : Faults) (s : State) :
    (grantRead i f s).2.owned = s.owned := by
  unfold grantRead
  (try dsimp only); (repeat' split) <;> simp only [owned_mk, owned_eta, queueReset_owned, wordsNote_owned, itemDel_owned, completeBare_owned, count1_owned, hdrLost_owned]

theorem grantRead_owned_of {i : Item} {f : Faults} {s : State} {pp} (h : grantRead i f s = pp) : pp.2.owned = s.owned := h ▸ grantRead_owned i f s

theorem grantRefuse_owned (i : Item) (step st : Nat) (s : State) :
    (grantRefuse i step st s).owned = s.owned := by
  unfold grantRefuse
  simp only [owned_mk, owned_eta, apply_ite State.owned, ite_self, completeBare_owned, commitHoldNote_owned]

theorem txnOpen_owned (i : Item) (st : TxSt) (s : State) :
    (txnOpen i st s).2.owned = s.owned := by
  unfold txnOpen
  (try dsimp only); (repeat' split) <;> simp only [owned_mk, owned_eta, txnAdd_owned]

theorem txnOpen_owned_of {i : Item} {st : TxSt} {s : State} {pp} (h : txnOpen i st s = pp) : pp.2.owned = s.owned := h ▸ txnOpen_owned i st s

theorem grantItemThen_owned (m : Nat) (d : Dir) (c : Cls) (i : Item) (f : Faults) (go : Item → State → State) (s : State)
    (hgo : ∀ i s, (go i s).owned = s.owned) : (grantItemThen m d c i f go s).owned = s.owned := by
  unfold grantItemThen
  dsimp only
  split
  · rename_i heq; have hk := grantRead_owned_of heq; simp only [rowErrors_owned, slotUse_owned] at hk; exact hk
  · rename_i heq
    have hk := grantRead_owned_of heq
    simp only [rowErrors_owned, slotUse_owned] at hk
    split <;> simp only [hgo, grantRefuse_owned, keyFaults_owned, hk]

theorem readGrant_owned (m : Nat) (f : Faults) (i : Item) (s : State) : (readGrant m f i s).owned = s.owned := by
  unfold readGrant
  split
  rename_i t s1 heq
  have hk : s1.owned = s.owned := txnOpen_owned_of heq
  dsimp only
  rw [issueR_owned]
  split
  · split <;> (rename_i hj; have hk2 := jackLookup_owned_of hj; simp only [txnPut_owned] at hk2) <;>
      simp only [txnPut_owned, count1_owned, lookAhead_owned, hk2] <;> split <;> simp only [tagLookup_owned, hk]
  · exact hk

theorem doFgReadGrant_owned (m : Nat) (f : Faults) (s : State) :
    (doFgReadGrant m f s).owned = s.owned := by
  unfold doFgReadGrant
  (try dsimp only); (repeat' split) <;>
    simp only [owned_mk, owned_eta, apply_ite State.owned, ite_self, foldl_owned, implies_true, grantItemThen_owned, readGrant_owned]

theorem rawPoisonNote_owned (i : Item) (s : State) :
    (rawPoisonNote i s).owned = s.owned := by
  unfold rawPoisonNote
  simp only [owned_mk, owned_eta, raise_owned, count1_owned]

theorem rawAhead_owned (i : Item) (sc : Side) (s : State) :
    (rawAhead i sc s).owned = s.owned := by
  unfold rawAhead
  (try dsimp only); (repeat' split) <;> simp only [owned_mk, owned_eta, raise_owned, aheadAdd_owned]

theorem rawWriteGrant_owned (m : Nat) (f : Faults) (i : Item) (s : State) :
    (rawWriteGrant m f i s).owned = s.owned := by
  unfold rawWriteGrant
  simp only [owned_mk, owned_eta, apply_ite State.owned, ite_self, txnOpen_owned, wordFaults_owned, rawPoisonNote_owned, txnConsume_owned, rawAhead_owned, probeVoid_owned, jackInvalidate_owned, issueW_owned]

theorem fullWriteGrant_owned (f : Faults) (i : Item) (s : State) :
    (fullWriteGrant f i s).owned = s.owned := by
  unfold fullWriteGrant
  simp only [owned_mk, owned_eta, apply_ite State.owned, ite_self, wordFaults_owned, completeBare_owned, txnOpen_owned, writeResolve_owned, txnPut_owned]

theorem maskRepair_owned (m : Nat) (f : Faults) (i : Item) (s : State) :
    (maskRepair m f i s).owned = s.owned := by
  unfold maskRepair
  first
  | with_reducible rfl
  | ((try dsimp only); repeat' split) <;> (first | (with_reducible rfl) | (simp only [owned_mk, owned_eta, apply_ite State.owned, ite_self, wordFaults_owned, rowErrors_owned, slotUse_owned]; done) | (simp only [owned_mk, owned_eta, apply_ite State.owned, ite_self, foldl_owned, implies_true, wordFaults_owned, rowErrors_owned, slotUse_owned]; done) | (simp_all only [owned_mk, owned_eta, apply_ite State.owned, ite_self, foldl_owned, implies_true, wordFaults_owned, rowErrors_owned, slotUse_owned]; done))

theorem doFgWriteGrant_owned (m : Nat) (f : Faults) (s : State) :
    (doFgWriteGrant m f s).owned = s.owned := by
  unfold doFgWriteGrant
  (try dsimp only); (repeat' split) <;>
    simp only [owned_mk, owned_eta, apply_ite State.owned, ite_self, foldl_owned, implies_true, jackLookup_owned, maskRepair_owned, grantItemThen_owned, rawWriteGrant_owned, fullWriteGrant_owned]

theorem partialReadStart_owned (m : Nat) (f : Faults) (i : Item) (s : State) :
    (partialReadStart m f i s).owned = s.owned := by
  unfold partialReadStart
  (try dsimp only); (repeat' split) <;> simp only [owned_mk, owned_eta, wordFaults_owned, txnOpen_owned, txnPut_owned, tagReserve_owned, tagLookup_owned, issueR_owned]

theorem doPartialReadGrant_owned (m : Nat) (f : Faults) (s : State) :
    (doPartialReadGrant m f s).owned = s.owned := by
  unfold doPartialReadGrant
  (try dsimp only); (repeat' split) <;>
    simp only [owned_mk, owned_eta, apply_ite State.owned, ite_self, foldl_owned, implies_true, grantItemThen_owned, partialReadStart_owned]

theorem doPartialWriteGrant_owned (m : Nat) (f : Faults) (s : State) :
    (doPartialWriteGrant m f s).owned = s.owned := by
  unfold doPartialWriteGrant
  (try dsimp only); (repeat' split) <;> simp only [owned_mk, owned_eta, rowErrors_owned, slotUse_owned, keyFaults_owned, txnFinish_owned, entryResolve_owned, txnPut_owned, writeGo_owned]

theorem rawTagReply_owned (t : Txn) (d : Line) (s : State) :
    (rawTagReply t d s).owned = s.owned := by
  unfold rawTagReply
  simp only [owned_mk, owned_eta, readReply_owned]

theorem rawTagRead_owned (m : Nat) (f : Faults) (i : Item) (s : State) :
    (rawTagRead m f i s).owned = s.owned := by
  unfold rawTagRead
  (try dsimp only); (repeat' split) <;> simp only [owned_mk, owned_eta, txnOpen_owned, tagSecded_owned, rawTagReply_owned, fetchAsk_owned, issueR_owned]

theorem fetchIssue_owned (m : Nat) (f : TagFetch) (s : State) :
    (fetchIssue m f s).owned = s.owned := by
  unfold fetchIssue
  first
  | with_reducible rfl
  | ((try dsimp only); repeat' split) <;> (first | (with_reducible rfl) | (simp only [owned_mk, owned_eta, apply_ite State.owned, ite_self, slotUse_owned, issueR_owned]; done) | (simp only [owned_mk, owned_eta, apply_ite State.owned, ite_self, foldl_owned, implies_true, slotUse_owned, issueR_owned]; done) | (simp_all only [owned_mk, owned_eta, apply_ite State.owned, ite_self, foldl_owned, implies_true, slotUse_owned, issueR_owned]; done))

theorem doTaglineFetch_owned (m : Nat) (ft : Faults) (s : State) :
    (doTaglineFetch m ft s).owned = s.owned := by
  unfold doTaglineFetch
  (try dsimp only); (repeat' split) <;>
    simp only [owned_mk, owned_eta, apply_ite State.owned, ite_self, foldl_owned, implies_true, fetchIssue_owned, grantItemThen_owned, rawTagRead_owned]

theorem rawTagWrite_owned (m : Nat) (f : Faults) (i : Item) (s : State) :
    (rawTagWrite m f i s).owned = s.owned := by
  unfold rawTagWrite
  simp only [owned_mk, owned_eta, apply_ite State.owned, ite_self, txnOpen_owned, wordFaults_owned, rawPoisonNote_owned, issueW_owned, tagDropLine_owned, txnConsume_owned]

theorem wbSlot_owned (m k : Nat) (x : TagWay) (f : Faults) (s : State) :
    (wbSlot m k x f s).owned = s.owned := by
  unfold wbSlot
  simp only [owned_mk, owned_eta, apply_ite State.owned, ite_self, tagSecded_owned, rowErrors_owned, slotUse_owned, wbIssue_owned]

theorem doTagWriteback_owned (m : Nat) (f : Faults) (s : State) :
    (doTagWriteback m f s).owned = s.owned := by
  unfold doTagWriteback
  (try dsimp only); (repeat' split) <;>
    simp only [owned_mk, owned_eta, apply_ite State.owned, ite_self, foldl_owned, implies_true, wbSlot_owned, grantItemThen_owned, rawTagWrite_owned]

theorem doSidecarProbe_owned (m : Nat) (s : State) :
    (doSidecarProbe m s).owned = s.owned := by
  unfold doSidecarProbe
  simp only [owned_mk, owned_eta, apply_ite State.owned, ite_self, probeIssue_owned, slotUse_owned]

theorem doLookaheadProbe_owned (m : Nat) (s : State) :
    (doLookaheadProbe m s).owned = s.owned := by
  unfold doLookaheadProbe
  simp only [owned_mk, owned_eta, apply_ite State.owned, ite_self, probeIssue_owned, slotUse_owned]

theorem doPrefillProbe_owned (m : Nat) (s : State) :
    (doPrefillProbe m s).owned = s.owned := by
  unfold doPrefillProbe
  (try dsimp only); (repeat' split) <;> simp only [owned_mk, owned_eta, probesPut_owned, probeIssue_owned, slotUse_owned]

theorem doRekeyTake_owned (n : Nat) (s : State) :
    (doRekeyTake n s).owned = s.owned := by
  unfold doRekeyTake
  simp only [owned_mk, owned_eta, apply_ite State.owned, ite_self, takeLine_owned, rkPoll_owned, stepsLost_owned]

theorem rrSet_owned (m : Nat) (d : Dir) (n : Nat) (s : State) :
    (rrSet m d n s).owned = s.owned := by
  unfold rrSet
  simp only [owned_mk, owned_eta]

theorem stepTagAsk_owned (n a : Nat) (f : Faults) (s : State) :
    (stepTagAsk n a f s).owned = s.owned := by
  unfold stepTagAsk
  (try dsimp only); (repeat' split) <;> simp only [owned_mk, owned_eta, tagLookup_owned]

theorem doRekeyStep_owned (m : Nat) (f : Faults) (s : State) :
    (doRekeyStep m f s).owned = s.owned := by
  unfold doRekeyStep
  (try dsimp only); (repeat' split) <;> simp only [owned_mk, owned_eta, rowErrors_owned, rrSet_owned, slotUse_owned, ctxPut_owned, stepMod_owned, issueR_owned, stepTagAsk_owned]

theorem purgeWrite_owned (m n : Nat) (x : StepLine) (f : Faults) (s : State) :
    (purgeWrite m n x f s).owned = s.owned := by
  unfold purgeWrite
  (try dsimp only); (repeat' split) <;>
    ((try have hk_entryResolve := entryResolve_owned_of (by assumption : entryResolve _ _ _ _ _ = _)); (try have hk_nextLctr := nextLctr_owned_of (by assumption : nextLctr _ _ _ _ _ = _)); simp_all only [owned_mk, owned_eta, apply_ite State.owned, foldl_owned, ite_self, purgePut_owned, entryResolve_owned, nextLctr_owned, voteHold_owned])

theorem stepWriteGo_owned (m n : Nat) (x : StepLine) (f : Faults) (s : State) :
    (stepWriteGo m n x f s).owned = s.owned := by
  unfold stepWriteGo
  (try dsimp only); (repeat' split) <;>
    ((try have hk_entryResolve := entryResolve_owned_of (by assumption : entryResolve _ _ _ _ _ = _)); (try have hk_nextLctr := nextLctr_owned_of (by assumption : nextLctr _ _ _ _ _ = _)); simp_all only [owned_mk, owned_eta, apply_ite State.owned, foldl_owned, ite_self, stepMod_owned, entryResolve_owned, nextLctr_owned, stepFail_owned, spentNote_owned, writeSlice_owned])

theorem doRekeyStepWrite_owned (m : Nat) (f : Faults) (s : State) :
    (doRekeyStepWrite m f s).owned = s.owned := by
  unfold doRekeyStepWrite
  (try dsimp only); (repeat' split) <;> simp only [owned_mk, owned_eta, rowErrors_owned, rrSet_owned, slotUse_owned, stepMod_owned, purgeWrite_owned, stepWriteGo_owned]

theorem voteCmd_owned (sl : Nat) (d : Dir) (f : Faults) (s : State) :
    (voteCmd sl d f s).owned = s.owned := by
  unfold voteCmd
  (try dsimp only); (repeat' split) <;> simp only [owned_mk, owned_eta, selfTest_owned, doVote_owned, slotUse_owned]

theorem schkCmd_owned (sl : Nat) (f : Faults) (s : State) :
    (schkCmd sl f s).owned = s.owned := by
  unfold schkCmd
  (try dsimp only); (repeat' split) <;> simp only [owned_mk, owned_eta, doSchkRecompute_owned, slotUse_owned]

theorem doRowRepair_owned (m : Nat) (s : State) :
    (doRowRepair m s).owned = s.owned := by
  unfold doRowRepair
  (try dsimp only); (repeat' split) <;> simp only [owned_mk, owned_eta, slotUse_owned, raise_owned, countUp_owned, rowRemap_owned, logAppend_owned]

theorem flushIssue_owned (m : Nat) (o : MOwner) (s : State) :
    (flushIssue m o s).owned = s.owned := by
  unfold flushIssue
  simp only [owned_mk, owned_eta, issueW_owned, slotUse_owned]

theorem doFlushPersist_owned (m : Nat) (s : State) :
    (doFlushPersist m s).owned = s.owned := by
  unfold doFlushPersist
  (try dsimp only); (repeat' split) <;> simp only [owned_mk, owned_eta, flushIssue_owned, mediaMod_owned]

theorem drainCkpt_owned (s : State) (n : Nat) :
    (drainCkpt s n).owned = s.owned := by
  unfold drainCkpt
  simp only [owned_mk, owned_eta, apply_ite State.owned, ite_self, ckptPush_owned, ctxPut_owned]

theorem drainPoll_owned (s : State) :
    (drainPoll s).owned = s.owned := by
  unfold drainPoll
  (try dsimp only); (repeat' split) <;>
    simp only [owned_mk, owned_eta, apply_ite State.owned, ite_self, foldl_owned, implies_true, drainCkpt_owned, nvPush_owned]

theorem ctxAbandon_owned (s : State) (n : Nat) :
    (ctxAbandon s n).owned = s.owned := by
  unfold ctxAbandon
  simp only [owned_mk, owned_eta, apply_ite State.owned, ite_self, stepsDrop_owned, ctxPut_owned]

theorem fetchLostOwner_owned (tl : Nat) (s : State) (o : MOwner) :
    (fetchLostOwner tl s o).owned = s.owned := by
  unfold fetchLostOwner
  (try dsimp only); (repeat' split) <;> simp only [owned_mk, owned_eta, tagFetchLost_owned, holdDel_owned, readReply_owned]

theorem tagFetchFail_owned (tl : Nat) (s : State) :
    (tagFetchFail tl s).owned = s.owned := by
  unfold tagFetchFail
  (try dsimp only); (repeat' split) <;>
    simp only [owned_mk, owned_eta, apply_ite State.owned, ite_self, foldl_owned, implies_true, taglineMedia_owned, wayPut_owned, fetchLostOwner_owned, wbFetches_owned]

theorem fetchGotOwner_owned (tl : Nat) (d : Line) (s : State) (o : MOwner) :
    (fetchGotOwner tl d s o).owned = s.owned := by
  unfold fetchGotOwner
  (try dsimp only); (repeat' split) <;> simp only [owned_mk, owned_eta, readVerify_owned, holdDel_owned, rawTagReply_owned, txnPut_owned]

theorem tagFetchGot_owned (tl : Nat) (line : BitVec 576) (s : State) :
    (tagFetchGot tl line s).owned = s.owned := by
  unfold tagFetchGot
  (try dsimp only); (repeat' split) <;>
    simp only [owned_mk, owned_eta, apply_ite State.owned, ite_self, foldl_owned, implies_true, tlEv_owned, count1_owned, tagMerge_owned, fetchGotOwner_owned]

theorem probeDel_owned (m a : Nat) (void : Bool) (s : State) :
    (probeDel m a void s).owned = s.owned := by
  unfold probeDel
  simp only [owned_mk, owned_eta, probesPut_owned]

theorem probeFail_owned (m a : Nat) (s : State) :
    (probeFail m a s).owned = s.owned := by
  unfold probeFail
  (try dsimp only); (repeat' split) <;>
    simp only [owned_mk, owned_eta, apply_ite State.owned, ite_self, foldl_owned, implies_true, probeDel_owned, txnFinish_owned, raise_owned, count1_owned]

theorem probeRelease_owned (sc : Side) (f : Faults) (s : State) (t : Txn) :
    (probeRelease sc f s t).owned = s.owned := by
  unfold probeRelease
  simp only [owned_mk, owned_eta, entryFromSide_owned, writeGo_owned]

theorem probeGot_owned (m a : Nat) (sc : Side) (f : Faults) (s : State) : (probeGot m a sc f s).owned = s.owned := by
  unfold probeGot
  split
  · rfl
  · dsimp only
    rw [foldl_owned _ (fun s t => by split <;> simp only [writeGo_owned, probeRelease_owned])]
    split <;> simp only [jackFill_owned, probeDel_owned]

theorem readEnd_owned (m : Nat) (s : State) (o : MOp) :
    (readEnd m s o).owned = s.owned := by
  unfold readEnd
  (try dsimp only); (repeat' split) <;> simp only [owned_mk, owned_eta, tagFetchFail_owned, probeFail_owned, probeDel_owned, lineLost_owned]

theorem writeLost_owned (m : Nat) (s : State) (o : MOp) :
    (writeLost m s o).owned = s.owned := by
  unfold writeLost
  (try dsimp only); (repeat' split) <;> simp only [owned_mk, owned_eta, txnFinish_owned, tagDrop_owned, stepFail_owned, wayPut_owned, mediaMod_owned]

theorem grantLost_owned (m : Nat) (s : State) : (grantLost m s).owned = s.owned := by
  unfold grantLost
  dsimp only
  rw [foldl_owned _ (fun s t => by simp only [partialRefuse_owned, owned_mk, owned_eta]),
    foldl_owned _ (fun s t => by simp only [txnFinish_owned]), foldl_owned _ (fun s h => by
      (repeat' split) <;> simp only [txnFinish_owned, holdDel_owned, stepFail_owned])]

theorem portEmpty_owned (m : Nat) (s : State) :
    (portEmpty m s).owned = s.owned := by
  unfold portEmpty
  (try dsimp only); (repeat' split) <;>
    simp only [owned_mk, owned_eta, apply_ite State.owned, ite_self, foldl_owned, implies_true, mediaPut_owned, writeLost_owned, readEnd_owned, tagFetchFail_owned, probeFail_owned, probesPut_owned, stepsLost_owned, grantLost_owned, itemOut_owned, itemDel_owned]

theorem portFail_owned (m cause : Nat) (s : State) :
    (portFail m cause s).owned = s.owned := by
  unfold portFail
  simp only [owned_mk, owned_eta, apply_ite State.owned, ite_self, mediaMod_owned, faultLow_owned, regPut_owned, raise_owned, rkPoll_owned, portEmpty_owned]

theorem handshakeW_owned (m id : Nat) (s : State) :
    (handshakeW m id s).owned = s.owned := by
  unfold handshakeW
  (try dsimp only); (repeat' split) <;> simp only [owned_mk, owned_eta, mediaPut_owned, count1_owned]

theorem handshakeR_owned (m id : Nat) (s : State) :
    (handshakeR m id s).owned = s.owned := by
  unfold handshakeR
  (try dsimp only); (repeat' split) <;> simp only [owned_mk, owned_eta, mediaPut_owned, count1_owned]

theorem doMediaHandshake_owned (m : Nat) (dir : Dir) (id : Nat) (s : State) :
    (doMediaHandshake m dir id s).owned = s.owned := by
  unfold doMediaHandshake
  (try dsimp only); (repeat' split) <;> simp only [owned_mk, owned_eta, handshakeW_owned, handshakeR_owned]

theorem xferNote_owned (m dir : Nat) (o : MOp) (tries : Nat) (s : State) :
    (xferNote m dir o tries s).owned = s.owned := by
  unfold xferNote
  simp only [owned_mk, owned_eta, raise_owned, count1_owned]

theorem doTransferError_owned (m : Nat) (s : State) :
    (doTransferError m s).owned = s.owned := by
  unfold doTransferError
  (try dsimp only); (repeat' split) <;> simp only [owned_mk, owned_eta, xferNote_owned, mediaPut_owned, drainPoll_owned, portFail_owned]

theorem doAccepted_owned (m : Nat) (s : State) :
    (doAccepted m s).owned = s.owned := by
  unfold doAccepted
  (try dsimp only); (repeat' split) <;> simp only [owned_mk, owned_eta, portFail_owned, mediaPut_owned]

theorem aheadPersisted_owned (o : MOp) (s : State) :
    (aheadPersisted o s).owned = s.owned := by
  unfold aheadPersisted
  (try dsimp only); (repeat' split) <;> simp only [owned_mk, owned_eta, ctxPut_owned]

theorem writeDone_owned (t : Txn) (s : State) :
    (writeDone t s).owned = s.owned := by
  unfold writeDone
  simp only [owned_mk, owned_eta, apply_ite State.owned, ite_self, count1_owned, txnFinish_owned]

theorem rawPaid_owned (t : Txn) (o : MOp) (s : State) :
    (rawPaid t o s).owned = s.owned := by
  unfold rawPaid
  first
  | with_reducible rfl
  | ((try dsimp only); repeat' split) <;> (first | (with_reducible rfl) | (simp only [owned_mk, owned_eta, apply_ite State.owned, ite_self, tagPaid_owned]; done) | (simp only [owned_mk, owned_eta, apply_ite State.owned, ite_self, foldl_owned, implies_true, tagPaid_owned]; done) | (simp_all only [owned_mk, owned_eta, apply_ite State.owned, ite_self, foldl_owned, implies_true, tagPaid_owned]; done))

theorem persistedFor_owned (m : Nat) (o : MOp) (s : State) :
    (persistedFor m o s).owned = s.owned := by
  unfold persistedFor
  (try dsimp only); (repeat' split) <;> simp only [owned_mk, owned_eta, writeDone_owned, rawPaid_owned, stepEnd_owned, wbPersisted_owned, mediaMod_owned]

theorem drainCount_owned (o : MOp) (s : State) :
    (drainCount o s).owned = s.owned := by
  unfold drainCount
  (try dsimp only); (repeat' split) <;> simp only [owned_mk, owned_eta]

theorem doPersisted_owned (m id : Nat) (s : State) :
    (doPersisted m id s).owned = s.owned := by
  unfold doPersisted
  (try dsimp only); (repeat' split) <;> simp only [owned_mk, owned_eta, portFail_owned, mediaPut_owned, tagPersisted_owned, aheadPersisted_owned, drainCount_owned, persistedFor_owned, rkPoll_owned, stepsLost_owned]

theorem mediaErr_owned (m stat : Nat) (o : MOp) (s : State) :
    (mediaErr m stat o s).owned = s.owned := by
  unfold mediaErr
  simp only [owned_mk, owned_eta, raise_owned, regPut_owned, count1_owned]

theorem response_owned (m id kind stat : Nat) (parOk : Bool) (got : MOp → State → State) (s : State)
    (hgot : ∀ o s, (got o s).owned = s.owned) : (response m id kind stat parOk got s).owned = s.owned := by
  unfold response
  (try dsimp only); (repeat' split) <;>
    simp only [hgot, portFail_owned, mediaPut_owned, xferNote_owned, issueR_owned, readEnd_owned, mediaErr_owned]

theorem doLineArrival_owned (m id stat : Nat) (data : BitVec 576) (wpar : BitVec 16) (f : Faults) (s : State) :
    (doLineArrival m id stat data wpar f s).owned = s.owned := by
  unfold doLineArrival
  (try dsimp only); (repeat' split) <;>
    simp only [owned_mk, owned_eta, apply_ite State.owned, ite_self, foldl_owned, implies_true, response_owned, lineArrived_owned, rowErrors_owned]

theorem doSidecarArrival_owned (m id stat : Nat) (data : BitVec 576) (wpar : BitVec 16) (f : Faults) (s : State) :
    (doSidecarArrival m id stat data wpar f s).owned = s.owned :=
  response_owned _ _ _ _ _ _ _ (fun o s => by split <;> simp only [probeGot_owned, probeDel_owned])

theorem doTaglineArrival_owned (m id stat : Nat) (data : BitVec 576) (wpar : BitVec 16) (s : State) :
    (doTaglineArrival m id stat data wpar s).owned = s.owned :=
  response_owned _ _ _ _ _ _ _ (fun o s => by split <;> simp only [tagFetchGot_owned])

theorem doReadTimeout_owned (m id : Nat) (s : State) :
    (doReadTimeout m id s).owned = s.owned := by
  unfold doReadTimeout
  (try dsimp only); (repeat' split) <;> simp only [owned_mk, owned_eta, mediaPut_owned, raise_owned, readEnd_owned, count1_owned]

theorem doPersistTimeout_owned (m id : Nat) (s : State) :
    (doPersistTimeout m id s).owned = s.owned := by
  unfold doPersistTimeout
  (try dsimp only); (repeat' split) <;> simp only [owned_mk, owned_eta, mediaPut_owned, raise_owned, count1_owned, portFail_owned]

theorem doMpStall_owned (m : Nat) (dir : Dir) (cycles : Nat) (s : State) :
    (doMpStall m dir cycles s).owned = s.owned := by
  unfold doMpStall
  (try dsimp only); (repeat' split) <;> simp only [owned_mk, owned_eta, raise_owned]

theorem sweepRead_owned (hdr : List (Nat × BitVec 144)) (i : Item) (s : State) :
    (sweepRead hdr i s).2.owned = s.owned := by
  unfold sweepRead
  first
  | with_reducible rfl
  | ((try dsimp only); repeat' split) <;> (first | (with_reducible rfl) | (simp only [owned_mk, owned_eta, apply_ite State.owned, ite_self, wordsNote_owned]; done) | (simp only [owned_mk, owned_eta, apply_ite State.owned, ite_self, foldl_owned, implies_true, wordsNote_owned]; done) | (simp_all only [owned_mk, owned_eta, apply_ite State.owned, ite_self, foldl_owned, implies_true, wordsNote_owned]; done))

theorem sweepRead_owned_of {hdr : List (Nat × BitVec 144)} {i : Item} {s : State} {pp} (h : sweepRead hdr i s = pp) : pp.2.owned = s.owned := h ▸ sweepRead_owned hdr i s

theorem sweepItem_owned (hdr : List (Nat × BitVec 144)) (s : State) (i : Item) :
    (sweepItem hdr s i).owned = s.owned := by
  unfold sweepItem
  simp only [owned_mk, owned_eta, apply_ite State.owned, ite_self, sweepRead_owned, hdrLost_owned, itemFlushed_owned]

theorem sweepBitmaps_owned (freed held : Nat) (s : State) :
    (sweepBitmaps freed held s).owned = s.owned := by
  unfold sweepBitmaps
  simp only [owned_mk, owned_eta, apply_ite State.owned, ite_self, countUp_owned, raise_owned]

theorem sweepOld_owned (s : State) :
    (sweepOld s).owned = s.owned := by
  unfold sweepOld
  simp only [owned_mk, owned_eta]

theorem doPoolSweepPass_owned (ptr : List (Nat × Fin 5)) (freed held : Nat) (hdr : List (Nat × BitVec 144)) (s : State) :
    (doPoolSweepPass ptr freed held hdr s).owned = s.owned := by
  unfold doPoolSweepPass
  (try dsimp only); (repeat' split) <;>
    simp only [owned_mk, owned_eta, apply_ite State.owned, ite_self, foldl_owned, implies_true, sweepItem_owned, sweepRead_owned, sweepOld_owned, sweepBitmaps_owned, queueReset_owned]

theorem queueFlush_owned (q : Nat) (s : State) :
    (queueFlush q s).owned = s.owned := by
  unfold queueFlush
  (try dsimp only); (repeat' split) <;>
    simp only [owned_mk, owned_eta, apply_ite State.owned, ite_self, foldl_owned, implies_true, stickyTrim_owned, raise_owned, itemFlushed_owned]

theorem iqFlushSet_owned (m v : Nat) (s : State) :
    (iqFlushSet m v s).owned = s.owned := by
  unfold iqFlushSet
  (try dsimp only); (repeat' split) <;>
    simp only [owned_mk, owned_eta, apply_ite State.owned, ite_self, foldl_owned, implies_true, regPut_owned, queueFlush_owned]

theorem doNvReadDone_owned (err : Bool) (page : BitVec 512) (s : State) :
    (doNvReadDone err page s).owned = s.owned := by
  unfold doNvReadDone
  (try dsimp only); (repeat' split) <;>
    simp only [owned_mk, owned_eta, apply_ite State.owned, ite_self, foldl_owned, implies_true, nvKick_owned, nvJobDone_owned, nvRetry_owned]

theorem fecCount_owned (p n : Nat) (s : State) :
    (fecCount p n s).owned = s.owned := by
  unfold fecCount
  simp only [owned_mk, owned_eta, countUp_owned]

theorem lcwError_owned (p cause : Nat) (w : BitVec 64) (s : State) :
    (lcwError p cause w s).owned = s.owned := by
  unfold lcwError
  simp only [owned_mk, owned_eta, linkDown_owned, raise_owned]

theorem lockGain_owned (p : Nat) (s : State) :
    (lockGain p s).owned = s.owned := by
  unfold lockGain
  first
  | with_reducible rfl
  | ((try dsimp only); repeat' split) <;> (first | (with_reducible rfl) | (simp only [owned_mk, owned_eta, apply_ite State.owned, ite_self, linkMod_owned]; done) | (simp only [owned_mk, owned_eta, apply_ite State.owned, ite_self, foldl_owned, implies_true, linkMod_owned]; done) | (simp_all only [owned_mk, owned_eta, apply_ite State.owned, ite_self, foldl_owned, implies_true, linkMod_owned]; done))

theorem lockLose_owned (p : Nat) (s : State) :
    (lockLose p s).owned = s.owned := by
  unfold lockLose
  first
  | with_reducible rfl
  | ((try dsimp only); repeat' split) <;> (first | (with_reducible rfl) | (simp only [owned_mk, owned_eta, apply_ite State.owned, ite_self, sumUp_owned, count1_owned, linkMod_owned]; done) | (simp only [owned_mk, owned_eta, apply_ite State.owned, ite_self, foldl_owned, implies_true, sumUp_owned, count1_owned, linkMod_owned]; done) | (simp_all only [owned_mk, owned_eta, apply_ite State.owned, ite_self, foldl_owned, implies_true, sumUp_owned, count1_owned, linkMod_owned]; done))

theorem flitLost_owned (p : Nat) (bad nak : State → State) (s : State) (hb : ∀ s, (bad s).owned = s.owned)
    (hn : ∀ s, (nak s).owned = s.owned) : (flitLost p bad nak s).owned = s.owned := by
  unfold flitLost
  (try dsimp only); (repeat' split) <;> simp only [hb, hn, linkMod_owned, linkPut_owned, lockLose_owned]

theorem flitGood_owned (p n : Nat) (go : State → State) (s : State) (hgo : ∀ s, (go s).owned = s.owned) :
    (flitGood p n go s).owned = s.owned := by
  unfold flitGood
  (try dsimp only); (repeat' split) <;> simp only [hgo, linkPut_owned, fecCount_owned, lockGain_owned]

theorem doRateChange_owned (p rate : Nat) (s : State) :
    (doRateChange p rate s).owned = s.owned := by
  unfold doRateChange
  simp only [owned_mk, owned_eta, apply_ite State.owned, ite_self, linkPut_owned, linkDown_owned]

theorem doLockGained_owned (p : Nat) (s : State) :
    (doLockGained p s).owned = s.owned := by
  unfold doLockGained
  simp only [owned_mk, owned_eta, apply_ite State.owned, ite_self, lockGain_owned]

theorem doLockLost_owned (p : Nat) (s : State) :
    (doLockLost p s).owned = s.owned := by
  unfold doLockLost
  simp only [owned_mk, owned_eta, apply_ite State.owned, ite_self, lockLose_owned]

theorem doTLosExpiry_owned (p : Nat) (s : State) :
    (doTLosExpiry p s).owned = s.owned := by
  unfold doTLosExpiry
  (try dsimp only); (repeat' split) <;> simp only [owned_mk, owned_eta, linkDown_owned]

theorem nakSum_owned (p : Nat) (sent : Option Nat) (s : State) :
    (nakSum p sent s).owned = s.owned := by
  unfold nakSum
  simp only [owned_mk, owned_eta, sumSet_owned]

theorem badSum_owned (p : Nat) (crc : Bool) (s : State) :
    (badSum p crc s).owned = s.owned := by
  unfold badSum
  simp only [owned_mk, owned_eta, sumSet_owned]

theorem timerUndo_owned (p : Nat) (s : State) :
    (timerUndo p s).owned = s.owned := by
  unfold timerUndo
  first
  | with_reducible rfl
  | ((try dsimp only); repeat' split) <;> (first | (with_reducible rfl) | (simp only [owned_mk, owned_eta, apply_ite State.owned, ite_self, regPut_owned, linkMod_owned]; done) | (simp only [owned_mk, owned_eta, apply_ite State.owned, ite_self, foldl_owned, implies_true, regPut_owned, linkMod_owned]; done) | (simp_all only [owned_mk, owned_eta, apply_ite State.owned, ite_self, foldl_owned, implies_true, regPut_owned, linkMod_owned]; done))

theorem nakTake_owned (p : Nat) (before : LinkSt) (w : BitVec 64) (s : State) :
    (nakTake p before w s).owned = s.owned := by
  unfold nakTake
  simp only [owned_mk, owned_eta, apply_ite State.owned, ite_self, timerUndo_owned, nakSum_owned, count1_owned, linkMod_owned]

theorem ackFields_owned (p : Nat) (w : BitVec 64) (s : State) :
    (ackFields p w s).owned = s.owned := by
  unfold ackFields
  simp only [owned_mk, owned_eta, nakTake_owned, linkPut_owned]

theorem rxlockNote_owned (p : Nat) (w : BitVec 64) (s : State) :
    (rxlockNote p w s).owned = s.owned := by
  unfold rxlockNote
  simp only [owned_mk, owned_eta, linkMod_owned]

theorem slotCut_owned (p : Fin 128) (cause k : Nat) (w : BitVec 128) (s : State) :
    (slotCut p cause k w s).owned = s.owned := by
  unfold slotCut
  simp only [owned_mk, owned_eta, apply_ite State.owned, ite_self, creditCut_owned, slotError_owned, linkFate_owned]

theorem creditReturn_owned (p : Fin 128) (l : List (BitVec 16 × BitVec 16)) (s : State) :
    (creditReturn p l s).owned = s.owned := by
  induction l generalizing s with
  | nil => rfl
  | cons e t ih =>
    unfold creditReturn
    (try dsimp only); (repeat' split) <;>
      simp only [ih, creditOverrun_owned, creditSettle_owned, owned_mk, owned_eta]

theorem doCreditReturn_owned (p : Fin 128) (es : List (BitVec 16 × BitVec 16)) (s : State) :
    (doCreditReturn p es s).owned = s.owned := by
  unfold doCreditReturn
  simp only [owned_mk, owned_eta, apply_ite State.owned, ite_self, creditReturn_owned]

theorem doResyncDone_owned (p drop : Nat) (s : State) :
    (doResyncDone p drop s).owned = s.owned := by
  unfold doResyncDone
  simp only [owned_mk, owned_eta, apply_ite State.owned, ite_self, linkPut_owned, count1_owned]

theorem slotRequest_owned (p : Fin 128) (body : BitVec 1920) (k : Nat) (s : State) :
    (slotRequest p body k s).owned = s.owned := by
  unfold slotRequest
  (try dsimp only); (repeat' split) <;> simp only [owned_mk, owned_eta, creditReturn_owned, fenceReceive_owned, reqReceive_owned]

theorem cutRest_owned (n : Nat) (p : Fin 128) (body : BitVec 1920) (k : Nat) (s : State) :
    (cutRest n p body k s).owned = s.owned := by
  induction n generalizing k s with
  | zero => rfl
  | succ n ih =>
    unfold cutRest
    (try dsimp only); (repeat' split) <;> simp only [ih, linkFate_owned, creditCut_owned]

theorem slotRun_owned (n : Nat) (p : Fin 128) (vcm : BitVec 15) (body : BitVec 1920) (k : Nat) (s : State) :
    (slotRun n p vcm body k s).owned = s.owned := by
  induction n generalizing k s with
  | zero => rfl
  | succ n ih =>
    unfold slotRun
    (try dsimp only); (repeat' split) <;>
      simp only [ih, slotCut_owned, cutRest_owned, slotRequest_owned, doResyncDone_owned]

theorem dataAccept_owned (p : Fin 128) (w : BitVec 64) (body : BitVec 1920) (s : State) :
    (dataAccept p w body s).owned = s.owned := by
  unfold dataAccept
  simp only [owned_mk, owned_eta, count1_owned, linkMod_owned, slotRun_owned]

theorem rxFlit_owned (p : Nat) (errs : List Nat) (go : State → State) (s : State) (hgo : ∀ s, (go s).owned = s.owned) :
    (rxFlit p errs go s).owned = s.owned := by
  unfold rxFlit
  split
  · rfl
  · split
    · exact flitLost_owned _ _ _ _ (fun s => by simp only [badSum_owned, count1_owned])
        (fun s => by split <;> simp only [linkMod_owned])
    · exact flitGood_owned _ _ _ _ hgo

theorem rxData_owned (p : Fin 128) (w : BitVec 64) (body : BitVec 1920) (s : State) :
    (rxData p w body s).owned = s.owned := by
  unfold rxData
  first
  | with_reducible rfl
  | ((try dsimp only); repeat' split) <;> (first | (with_reducible rfl) | (simp only [owned_mk, owned_eta, apply_ite State.owned, ite_self, count1_owned, lcwError_owned, rxlockNote_owned, ackFields_owned, dataAccept_owned, linkMod_owned]; done) | (simp only [owned_mk, owned_eta, apply_ite State.owned, ite_self, foldl_owned, implies_true, count1_owned, lcwError_owned, rxlockNote_owned, ackFields_owned, dataAccept_owned, linkMod_owned]; done) | (simp_all only [owned_mk, owned_eta, apply_ite State.owned, ite_self, foldl_owned, implies_true, count1_owned, lcwError_owned, rxlockNote_owned, ackFields_owned, dataAccept_owned, linkMod_owned]; done))

theorem doRxDataFlit_owned (p : Fin 128) (errs : List Nat) (w : BitVec 64) (body : BitVec 1920) (s : State) :
    (doRxDataFlit p errs w body s).owned = s.owned := rxFlit_owned _ _ _ _ (fun _ => rxData_owned _ _ _ _)

theorem rxPlain_owned (p : Nat) (errs : List Nat) (acks : Bool) (w : BitVec 64) (go : State → State) (s : State)
    (hgo : ∀ s, (go s).owned = s.owned) : (rxPlain p errs acks w go s).owned = s.owned := by
  unfold rxPlain
  exact rxFlit_owned _ _ _ _ (fun s => by
    (try dsimp only); (repeat' split) <;>
      simp only [hgo, lcwError_owned, rxlockNote_owned, linkMod_owned, ackFields_owned, apply_ite State.owned, ite_self])

theorem doRxAckOnly_owned (p : Nat) (errs : List Nat) (w : BitVec 64) (s : State) : (doRxAckOnly p errs w s).owned = s.owned :=
  rxPlain_owned _ _ _ _ _ _ (fun _ => rfl)

theorem doRxIdle_owned (p : Nat) (errs : List Nat) (w : BitVec 64) (s : State) : (doRxIdle p errs w s).owned = s.owned :=
  rxPlain_owned _ _ _ _ _ _ (fun _ => rfl)

theorem peerNote_owned (p : Nat) (dig : BitVec 64) (gen : BitVec 32) (s : State) :
    (peerNote p dig gen s).owned = s.owned := by
  unfold peerNote
  simp only [owned_mk, owned_eta, apply_ite State.owned, ite_self, regPut_owned, raise_owned, linkMod_owned]

theorem doRxHeartbeat_owned (p : Nat) (errs : List Nat) (w : BitVec 64) (dig : BitVec 64) (gen : BitVec 32) (s : State) :
    (doRxHeartbeat p errs w dig gen s).owned = s.owned :=
  rxPlain_owned _ _ _ _ _ _ (fun _ => peerNote_owned _ _ _ _)

theorem doRxBadFlit_owned (p : Nat) (errs : List Nat) (flit : BitVec 2048) (s : State) :
    (doRxBadFlit p errs flit s).owned = s.owned := by
  unfold doRxBadFlit
  exact rxFlit_owned _ _ _ _ (fun s => by
    (try dsimp only); (repeat' split) <;> simp only [linkMod_owned, badSum_owned, count1_owned])

theorem rxNegotiate_owned (p : Nat) (errs : List Nat) (w : BitVec 64) (go : State → State) (s : State)
    (hgo : ∀ s, (go s).owned = s.owned) : (rxNegotiate p errs w go s).owned = s.owned := by
  unfold rxNegotiate
  exact rxFlit_owned _ _ _ _ (fun s => by split <;> simp only [lcwError_owned, hgo])

theorem doRxDown_owned (p : Nat) (errs : List Nat) (w : BitVec 64) (s : State) : (doRxDown p errs w s).owned = s.owned :=
  rxNegotiate_owned _ _ _ _ _ (fun s => by split <;> simp only [linkDown_owned])

theorem doRxReservedType_owned (p : Nat) (errs : List Nat) (w : BitVec 64) (s : State) :
    (doRxReservedType p errs w s).owned = s.owned := rxFlit_owned _ _ _ _ (fun _ => lcwError_owned _ _ _ _)

theorem offerRefuse_owned (p res : Nat) (v : OwnVals) (o : Offer) (s : State) :
    (offerRefuse p res v o s).owned = s.owned := by
  unfold offerRefuse
  simp only [owned_mk, owned_eta, raise_owned, count1_owned, linkMod_owned]

theorem offerAccept_owned (p : Nat) (v : OwnVals) (o : Offer) (s : State) :
    (offerAccept p v o s).owned = s.owned := by
  unfold offerAccept
  (try dsimp only); (repeat' split) <;> simp only [owned_mk, owned_eta, regPut_owned, linkMod_owned]

theorem rxOffer_owned (p : Nat) (o : Offer) (s : State) :
    (rxOffer p o s).owned = s.owned := by
  unfold rxOffer
  first
  | with_reducible rfl
  | ((try dsimp only); repeat' split) <;> (first | (with_reducible rfl) | (simp only [owned_mk, owned_eta, apply_ite State.owned, ite_self, linkDown_owned, linkMod_owned, offerAccept_owned, offerRefuse_owned]; done) | (simp only [owned_mk, owned_eta, apply_ite State.owned, ite_self, foldl_owned, implies_true, linkDown_owned, linkMod_owned, offerAccept_owned, offerRefuse_owned]; done) | (simp_all only [owned_mk, owned_eta, apply_ite State.owned, ite_self, foldl_owned, implies_true, linkDown_owned, linkMod_owned, offerAccept_owned, offerRefuse_owned]; done))

theorem doRxParamOffer_owned (p : Nat) (errs : List Nat) (w : BitVec 64) (o : Offer) (s : State) :
    (doRxParamOffer p errs w o s).owned = s.owned := rxNegotiate_owned _ _ _ _ _ (fun _ => rxOffer_owned _ _ _)

theorem linkUp_owned (p : Nat) (v : NegVals) (s : State) :
    (linkUp p v s).owned = s.owned := by
  unfold linkUp
  simp only [owned_mk, owned_eta, regPut_owned, linkMod_owned, raise_owned]

theorem rxConfirm_owned (p : Nat) (c : Confirm) (s : State) :
    (rxConfirm p c s).owned = s.owned := by
  unfold rxConfirm
  first
  | with_reducible rfl
  | ((try dsimp only); repeat' split) <;> (first | (with_reducible rfl) | (simp only [owned_mk, owned_eta, apply_ite State.owned, ite_self, linkUp_owned, linkDown_owned, count1_owned]; done) | (simp only [owned_mk, owned_eta, apply_ite State.owned, ite_self, foldl_owned, implies_true, linkUp_owned, linkDown_owned, count1_owned]; done) | (simp_all only [owned_mk, owned_eta, apply_ite State.owned, ite_self, foldl_owned, implies_true, linkUp_owned, linkDown_owned, count1_owned]; done))

theorem doRxParamConfirm_owned (p : Nat) (errs : List Nat) (w : BitVec 64) (c : Confirm) (s : State) :
    (doRxParamConfirm p errs w c s).owned = s.owned := rxNegotiate_owned _ _ _ _ _ (fun _ => rxConfirm_owned _ _ _)

theorem doTNegExpiry_owned (p : Nat) (s : State) :
    (doTNegExpiry p s).owned = s.owned := by
  unfold doTNegExpiry
  simp only [owned_mk, owned_eta, apply_ite State.owned, ite_self, linkDown_owned]

theorem doHbLost_owned (p : Nat) (s : State) :
    (doHbLost p s).owned = s.owned := by
  unfold doHbLost
  simp only [owned_mk, owned_eta, apply_ite State.owned, ite_self, linkDown_owned, raise_owned, count1_owned]

theorem flitSend_owned (p : Nat) (o : FlitOut) (s : State) :
    (flitSend p o s).owned = s.owned := by
  unfold flitSend
  simp only [owned_mk, owned_eta, linkMod_owned]

theorem ackSend_owned (p : Nat) (ty seq : Nat) (vcm : BitVec 15) (body : BitVec 1920) (retx : Bool) (s : State) :
    (ackSend p ty seq vcm body retx s).owned = s.owned := by
  unfold ackSend
  simp only [owned_mk, owned_eta, apply_ite State.owned, ite_self, nakSum_owned, count1_owned, flitSend_owned, linkMod_owned]

theorem sendDown_owned (p : Nat) (s : State) :
    (sendDown p s).owned = s.owned := by
  unfold sendDown
  (try dsimp only); (repeat' split) <;> simp only [owned_mk, owned_eta, flitSend_owned, linkPut_owned]

theorem replayParity_owned (p seq : Nat) (s : State) :
    (replayParity p seq s).owned = s.owned := by
  unfold replayParity
  simp only [owned_mk, owned_eta, linkDown_owned, raise_owned]

theorem sendReplay_owned (p r : Nat) (parityBad : Bool) (s : State) :
    (sendReplay p r parityBad s).owned = s.owned := by
  unfold sendReplay
  (try dsimp only); (repeat' split) <;> simp only [owned_mk, owned_eta, replayParity_owned, linkPut_owned, ackSend_owned, count1_owned]

theorem handOver_owned (p : Nat) (s : State) (r : Rsp) :
    (handOver p s r).owned = s.owned := by
  unfold handOver
  simp only [owned_mk, owned_eta, apply_ite State.owned, ite_self, linkMod_owned, count1_owned, creditRelease_owned]

theorem sendData_owned (p : Nat) (f : Faults) (s : State) :
    (sendData p f s).owned = s.owned := by
  unfold sendData
  (try dsimp only); (repeat' split) <;>
    simp only [owned_mk, owned_eta, apply_ite State.owned, ite_self, foldl_owned, implies_true, queueReset_owned, wordsNote_owned, linkDown_owned, eqPut_owned, ackSend_owned, count1_owned, linkMod_owned, partnerFeed_owned, handOver_owned]

theorem sendUp_owned (p : Nat) (parityBad : Bool) (f : Faults) (s : State) :
    (sendUp p parityBad f s).owned = s.owned := by
  unfold sendUp
  (try dsimp only); (repeat' split) <;> simp only [owned_mk, owned_eta, ackSend_owned, linkPut_owned, sendReplay_owned, sendData_owned, flitSend_owned]

theorem doFlitTransmit_owned (p : Nat) (parityBad : Bool) (f : Faults) (s : State) :
    (doFlitTransmit p parityBad f s).owned = s.owned := by
  unfold doFlitTransmit
  simp only [owned_mk, owned_eta, apply_ite State.owned, ite_self, linkPut_owned, flitSend_owned, sendUp_owned, rowErrors_owned, sendDown_owned]

theorem doAckTimer_owned (p : Nat) (s : State) :
    (doAckTimer p s).owned = s.owned := by
  unfold doAckTimer
  simp only [owned_mk, owned_eta, linkMod_owned]

theorem doReplayTimer_owned (p : Nat) (parityBad : Bool) (f : Faults) (s : State) :
    (doReplayTimer p parityBad f s).owned = s.owned := by
  unfold doReplayTimer
  simp only [owned_mk, owned_eta, apply_ite State.owned, ite_self, sumUp_owned, linkPut_owned, linkDown_owned, count1_owned, rowErrors_owned, replayParity_owned, linkMod_owned]

theorem doHeartbeatDue_owned (p : Nat) (s : State) :
    (doHeartbeatDue p s).owned = s.owned := by
  unfold doHeartbeatDue
  simp only [owned_mk, owned_eta, linkMod_owned]

theorem doResyncSend_owned (p : Nat) (s : State) : (doResyncSend p s).owned = s.owned := by
  unfold doResyncSend
  dsimp only
  split
  · rw [grantSend_owned, raise_owned, foldl_owned _ (fun s r => by simp only [partnerPush_owned])]
    simp only [regPut_owned, linkPut_owned]
  · rfl

theorem doGrantHoldExpiry_owned (p : Nat) (s : State) :
    (doGrantHoldExpiry p s).owned = s.owned := by
  unfold doGrantHoldExpiry
  simp only [owned_mk, owned_eta, apply_ite State.owned, ite_self, grantSend_owned]

theorem zeroizeTxn_owned (s : State) (t : Txn) :
    (zeroizeTxn s t).owned = s.owned := by
  unfold zeroizeTxn
  simp only [owned_mk, owned_eta, apply_ite State.owned, ite_self, txnFinish_owned, partialRefuse_owned]

theorem ctxSuspendAll_owned (s : State) :
    (ctxSuspendAll s).owned = s.owned := by
  unfold ctxSuspendAll
  (try dsimp only); (repeat' split) <;>
    simp only [owned_mk, owned_eta, apply_ite State.owned, ite_self, foldl_owned, implies_true, ctxSuspend_owned]

theorem doZeroizeDone_owned (s : State) :
    (doZeroizeDone s).owned = s.owned := by
  unfold doZeroizeDone
  simp only [owned_mk, owned_eta, apply_ite State.owned, ite_self, raise_owned]

theorem doZeroizeReturn_owned (s : State) :
    (doZeroizeReturn s).owned = s.owned := by
  unfold doZeroizeReturn
  simp only [owned_mk, owned_eta, apply_ite State.owned, ite_self]

theorem doHoldoffEnd_owned (s : State) :
    (doHoldoffEnd s).owned = s.owned := by
  unfold doHoldoffEnd
  (try dsimp only); (repeat' split) <;> simp only [owned_mk, owned_eta]

theorem doZeroizeShortPulse_owned (s : State) :
    (doZeroizeShortPulse s).owned = s.owned := by
  unfold doZeroizeShortPulse
  simp only [owned_mk, owned_eta, apply_ite State.owned, ite_self, sumUp_owned, count1_owned]

theorem doDebugLockBlown_owned (s : State) :
    (doDebugLockBlown s).owned = s.owned := by
  unfold doDebugLockBlown
  simp only [owned_mk, owned_eta]

theorem doDrainComplete_owned (s : State) :
    (doDrainComplete s).owned = s.owned := by
  unfold doDrainComplete
  simp only [owned_mk, owned_eta, apply_ite State.owned, ite_self, regPut_owned]

theorem doDrainLate_owned (s : State) :
    (doDrainLate s).owned = s.owned := by
  unfold doDrainLate
  simp only [owned_mk, owned_eta, apply_ite State.owned, ite_self, raise_owned]

theorem doPwrWarnShortPulse_owned (samples : Nat) (s : State) :
    (doPwrWarnShortPulse samples s).owned = s.owned := by
  unfold doPwrWarnShortPulse
  (try dsimp only); (repeat' split) <;> simp only [owned_mk, owned_eta, count1_owned]

theorem doPwrWarnReturn_owned (s : State) :
    (doPwrWarnReturn s).owned = s.owned := by
  unfold doPwrWarnReturn
  (try dsimp only); (repeat' split) <;> simp only [owned_mk, owned_eta]

theorem ctxUnpark_owned (s : State) (n : Nat) :
    (ctxUnpark s n).owned = s.owned := by
  unfold ctxUnpark
  simp only [owned_mk, owned_eta, apply_ite State.owned, ite_self, boundSet_owned, ctxPut_owned, rekeyResumeEv_owned]

theorem resumeFlush_owned (s : State) :
    (resumeFlush s).owned = s.owned := by
  unfold resumeFlush
  (try dsimp only); (repeat' split) <;>
    simp only [owned_mk, owned_eta, apply_ite State.owned, ite_self, foldl_owned, implies_true, queueFlush_owned]

theorem doResume_owned (s : State) :
    (doResume s).owned = s.owned := by
  unfold doResume
  (try dsimp only); (repeat' split) <;>
    simp only [owned_mk, owned_eta, apply_ite State.owned, ite_self, foldl_owned, implies_true, raise_owned, nvPush_owned, resumeFlush_owned, ctxUnpark_owned, rkSchedule_owned, rkPoll_owned]

theorem doResetRelease_owned (por bistShort : Bool) (s : State) :
    (doResetRelease por bistShort s).owned = s.owned := by
  unfold doResetRelease
  simp only [owned_mk, owned_eta, apply_ite State.owned, ite_self, modeSend_owned]

theorem fuseApply_owned (img : FuseImage) (s : State) :
    (fuseApply img s).owned = s.owned := by
  unfold fuseApply
  (try dsimp only); (repeat' split) <;>
    simp only [owned_mk, owned_eta, apply_ite State.owned, ite_self, foldl_owned, implies_true, countUp_owned, rowRemap_owned, regPut_owned, faultLow_owned, raise_owned]

theorem logIgnore_owned (s : State) :
    (logIgnore s).owned = s.owned := by
  unfold logIgnore
  simp only [owned_mk, owned_eta, countUp_owned]

theorem logApply_owned (e : LogEnt) (s : State) :
    (logApply e s).owned = s.owned := by
  unfold logApply
  (try dsimp only); (repeat' split) <;>
    simp only [owned_mk, owned_eta, apply_ite State.owned, ite_self, foldl_owned, implies_true, countUp_owned, rowRemap_owned, logIgnore_owned, pipeRetire_owned, sliceLose_owned, slicePut_owned]

theorem logPlace_owned (s : State) (i : Nat) :
    (logPlace s i).owned = s.owned := by
  unfold logPlace
  first
  | with_reducible rfl
  | ((try dsimp only); repeat' split) <;> (first | (with_reducible rfl) | (simp only [owned_mk, owned_eta, apply_ite State.owned, ite_self, logApply_owned, logIgnore_owned]; done) | (simp only [owned_mk, owned_eta, apply_ite State.owned, ite_self, foldl_owned, implies_true, logApply_owned, logIgnore_owned]; done) | (simp_all only [owned_mk, owned_eta, apply_ite State.owned, ite_self, foldl_owned, implies_true, logApply_owned, logIgnore_owned]; done))

theorem doFuseLoadDone_owned (img : FuseImage) (s : State) : (doFuseLoadDone img s).owned = s.owned := by
  unfold doFuseLoadDone
  split
  · dsimp only
    rw [owned_mk, owned_eta, foldl_owned _ (fun s i => logPlace_owned s i), fuseApply_owned, owned_mk, owned_eta]
  · rfl

theorem bistRow_owned (mac row : Nat) (soft : Bool) (s : State) :
    (bistRow mac row soft s).owned = s.owned := by
  unfold bistRow
  first
  | with_reducible rfl
  | ((try dsimp only); repeat' split) <;> (first | (with_reducible rfl) | (simp only [owned_mk, owned_eta, apply_ite State.owned, ite_self, logAppend_owned, countUp_owned, rowRemap_owned, raise_owned, rowBad_owned]; done) | (simp only [owned_mk, owned_eta, apply_ite State.owned, ite_self, foldl_owned, implies_true, logAppend_owned, countUp_owned, rowRemap_owned, raise_owned, rowBad_owned]; done) | (simp_all only [owned_mk, owned_eta, apply_ite State.owned, ite_self, foldl_owned, implies_true, logAppend_owned, countUp_owned, rowRemap_owned, raise_owned, rowBad_owned]; done))

theorem bistOne_owned (s : State) (b : BistFail) :
    (bistOne s b).owned = s.owned := by
  unfold bistOne
  (try dsimp only); (repeat' split) <;> simp only [owned_mk, owned_eta, bistRow_owned, sliceJudge_owned, pipeRetire_owned, sliceLose_owned, linkMod_owned]

theorem bistAll_owned (s : State) (l : List BistFail) : (bistAll s l).1.owned = s.owned := by
  have h : ∀ (l : List BistFail) (a : State × Bool),
      (l.foldl (fun a b => (bistOne a.1 b, a.2 && bistMends a.1 b)) a).1.owned = a.1.owned := by
    intro l
    induction l with
    | nil => intro a; rfl
    | cons b t ih => intro a; simp only [List.foldl_cons, ih, bistOne_owned]
  exact h l (s, true)

theorem bistKind_owned (fails : List BistFail) (s : State) (k : Nat) : (bistKind fails s k).owned = s.owned := by
  unfold bistKind
  (try dsimp only); (repeat' split) <;> simp only [raiseSev_owned, regPut_owned, bistAll_owned]

theorem doBistDone_owned (fails : List BistFail) (s : State) :
    (doBistDone fails s).owned = s.owned := by
  unfold doBistDone
  (try dsimp only); (repeat' split) <;>
    simp only [owned_mk, owned_eta, apply_ite State.owned, ite_self, foldl_owned, implies_true, bistKind_owned, regPut_owned]

theorem recSelect_owned (a b : Nat) (valid : Nat → Bool) (s : State) : (recSelect a b valid s).2.owned = s.owned :=
  selNote_owned _ s

theorem recSelect_owned_of {a b : Nat} {valid : Nat → Bool} {s : State} {pp} (h : recSelect a b valid s = pp) : pp.2.owned = s.owned := h ▸ recSelect_owned a b valid s

theorem recSlot_owned (s : State) (k : Nat) :
    (recSlot s k).owned = s.owned := by
  unfold recSlot
  (try dsimp only); (repeat' split) <;>
    ((try have hk_recSelect := recSelect_owned_of (by assumption : recSelect _ _ _ _ = _)); simp_all only [owned_mk, owned_eta, apply_ite State.owned, foldl_owned, ite_self, recSelect_owned, slotPut_owned, rowBad_owned])

theorem seedMarks_owned (k ext mark : Nat) (s : State) :
    (seedMarks k ext mark s).owned = s.owned := by
  unfold seedMarks
  (try dsimp only); (repeat' split) <;>
    simp only [owned_mk, owned_eta, apply_ite State.owned, ite_self, foldl_owned, implies_true, regPut_owned]

theorem recFmt_owned (s : State) (j : Nat) :
    (recFmt s j).owned = s.owned := by
  unfold recFmt
  (try dsimp only); (repeat' split) <;>
    ((try have hk_recSelect := recSelect_owned_of (by assumption : recSelect _ _ _ _ = _)); simp_all only [owned_mk, owned_eta, apply_ite State.owned, foldl_owned, ite_self, recSelect_owned, nvPush_owned, seedMarks_owned])

theorem recFree_owned (k : Nat) (s : State) :
    (recFree k s).owned = s.owned := by
  unfold recFree
  (try dsimp only); (repeat' split) <;> simp only [owned_mk, owned_eta, seedMarks_owned, fmtRelease_owned, nvPush_owned]

theorem recFinish_owned (k : CkptRec) (s : State) :
    (recFinish k s).owned = s.owned := by
  unfold recFinish
  (try dsimp only); (repeat' split) <;> simp only [owned_mk, owned_eta, nvPush_owned, slotPut_owned, recFree_owned, rowBad_owned]

theorem ckptAdd_owned (k : CkptRec) (a : List CkptRec × State) : (ckptAdd k a).2.owned = a.2.owned := by
  unfold ckptAdd
  (repeat' split) <;> simp only [nvNote_owned]

theorem recCkpt_owned (n : Nat) (acc : List CkptRec × State) (c : Nat) : (recCkpt n acc c).2.owned = acc.2.owned := by
  unfold recCkpt
  split
  · rename_i heq; have hk := recSelect_owned_of heq; simpa only using hk
  · rename_i heq
    have hk := recSelect_owned_of heq
    simp only at hk
    (try dsimp only); (repeat' split) <;> simp only [ckptAdd_owned, nvNote_owned, recFinish_owned, apply_ite State.owned, ite_self, hk]

theorem recResume_owned (s : State) (k : CkptRec) :
    (recResume s k).owned = s.owned := by
  unfold recResume
  simp only [owned_mk, owned_eta, apply_ite State.owned, ite_self, slotPut_owned, seedMarks_owned, ctxPut_owned]

theorem recQueue_owned (l : List CkptRec) (s : State) (k : Nat) :
    (recQueue l s k).owned = s.owned := by
  unfold recQueue
  simp only [owned_mk, owned_eta, apply_ite State.owned, ite_self, rkEnqueue_owned]

theorem recKcv_owned (k place : Nat) (s : State) : (recKcv k place s).2.2.owned = s.owned := by
  unfold recKcv
  (try dsimp only); split <;> simp only [nvNote_owned]

theorem recKcv_owned_of {k place : Nat} {s : State} {pp} (h : recKcv k place s = pp) : pp.2.2.owned = s.owned :=
  h ▸ recKcv_owned k place s

theorem recKcvs_owned (s : State) (k : Nat) : (recKcvs s k).owned = s.owned := by
  unfold recKcvs
  (try dsimp only); repeat' split
  all_goals simp only [slotPut_owned, recKcv_owned]

theorem recImage_owned (s : State) : (recImage s).2.owned = s.owned := by
  unfold recImage
  have hf : ([imageA, imageB].foldl (fun s a => if imageWindup s a = true ∧ (imageVals s a).isNone then nvNote a 3 s else s) s).owned
      = s.owned := foldl_owned _ (fun s a => by split <;> simp only [nvNote_owned]) _ _
  dsimp only
  split
  · rename_i heq
    have hk := recSelect_owned_of heq
    simp only at hk ⊢
    rw [hk]; exact hf
  · rename_i heq
    have hk := recSelect_owned_of heq
    simp only [nvNote_owned] at hk ⊢
    rw [hk]; exact hf

theorem recImage_owned_of {s : State} {pp} (h : recImage s = pp) : pp.2.owned = s.owned := h ▸ recImage_owned s

theorem recTables_owned (n : Nat) (s : State) : (recTables n s).2.owned = s.owned := by
  have hc : ∀ (l : List Nat) (a : List CkptRec × State), (l.foldl (recCkpt n) a).2.owned = a.2.owned := by
    intro l
    induction l with
    | nil => intro a; rfl
    | cons b t ih => intro a; simp only [List.foldl_cons, ih, recCkpt_owned]
  unfold recTables
  dsimp only
  rw [foldl_owned _ (recQueue_owned _), foldl_owned _ recKcvs_owned, foldl_owned _ recResume_owned, hc]
  dsimp only
  rw [foldl_owned _ (fun s k => by split <;> simp only [seedMarks_owned]), foldl_owned _ recFmt_owned, foldl_owned _ recSlot_owned]

theorem recTables_owned_of {n : Nat} {s : State} {pp} (h : recTables n s = pp) : pp.2.owned = s.owned := h ▸ recTables_owned n s

theorem doRecoveryDone_owned (s : State) :
    (doRecoveryDone s).owned = s.owned := by
  unfold doRecoveryDone
  (try dsimp only); (repeat' split) <;> simp only [owned_mk, owned_eta, regPut_owned, nvNote_owned, recTables_owned, recImage_owned, takeFree_owned, nvPush_owned, raise_owned]

theorem snapPut_owned (idx sub row v : Nat) (s : State) :
    (snapPut idx sub row v s).owned = s.owned := by
  unfold snapPut
  simp only [owned_mk, owned_eta]

theorem snapLink_owned (s : State) (p : Nat) :
    (snapLink s p).owned = s.owned := by
  unfold snapLink
  simp only [owned_mk, owned_eta, snapPut_owned]

theorem snapMedia_owned (s : State) (m : Nat) :
    (snapMedia s m).owned = s.owned := by
  unfold snapMedia
  (try dsimp only); (repeat' split) <;>
    simp only [owned_mk, owned_eta, apply_ite State.owned, ite_self, foldl_owned, implies_true, snapPut_owned]

theorem snapHeld_owned (s : State) : (snapHeld s).owned = s.owned := by
  unfold snapHeld
  dsimp only
  rw [foldl_owned _ (fun s e => by (repeat' split) <;> simp only [snapPut_owned])]
  simp only [owned_mk, owned_eta]

theorem snapshots_owned (s : State) :
    (snapshots s).owned = s.owned := by
  unfold snapshots
  (try dsimp only); (repeat' split) <;>
    simp only [owned_mk, owned_eta, apply_ite State.owned, ite_self, foldl_owned, implies_true, snapMedia_owned, snapLink_owned, snapPut_owned, snapHeld_owned, regPut_owned]

theorem slotsRestart_owned (s : State) (m : Nat) :
    (slotsRestart s m).owned = s.owned := by
  unfold slotsRestart
  (try dsimp only); (repeat' split) <;>
    simp only [owned_mk, owned_eta, apply_ite State.owned, ite_self, foldl_owned, implies_true, snapPut_owned, mediaPut_owned]

theorem busyPort_owned (c : Nat) (s : State) (m : Nat) :
    (busyPort c s m).owned = s.owned := by
  unfold busyPort
  simp only [owned_mk, owned_eta, apply_ite State.owned, ite_self, countUp_owned]

theorem clockTo_owned (c : Nat) (s : State) :
    (clockTo c s).owned = s.owned := by
  unfold clockTo
  first
  | with_reducible rfl
  | ((try dsimp only); repeat' split) <;> (first | (with_reducible rfl) | (simp only [owned_mk, owned_eta, apply_ite State.owned, ite_self, busyPort_owned]; done) | (simp only [owned_mk, owned_eta, apply_ite State.owned, ite_self, foldl_owned, implies_true, busyPort_owned]; done) | (simp_all only [owned_mk, owned_eta, apply_ite State.owned, ite_self, foldl_owned, implies_true, busyPort_owned]; done))

theorem landings_owned (t0 : Nat) (s : State) :
    (landings t0 s).owned = s.owned := by
  unfold landings
  first
  | with_reducible rfl
  | ((try dsimp only); repeat' split) <;> (first | (with_reducible rfl) | (simp only [owned_mk, owned_eta, apply_ite State.owned, ite_self, orphansDue_owned, landFlush_owned]; done) | (simp only [owned_mk, owned_eta, apply_ite State.owned, ite_self, foldl_owned, implies_true, orphansDue_owned, landFlush_owned]; done) | (simp_all only [owned_mk, owned_eta, apply_ite State.owned, ite_self, foldl_owned, implies_true, orphansDue_owned, landFlush_owned]; done))

theorem cyclesTo_owned (c : Nat) (s : State) :
    (cyclesTo c s).owned = s.owned := by
  unfold cyclesTo
  (try dsimp only); (repeat' split) <;>
    simp only [owned_mk, owned_eta, apply_ite State.owned, ite_self, foldl_owned, implies_true, landings_owned, clockTo_owned]

theorem doTick_owned (s : State) :
    (doTick s).owned = s.owned := by
  unfold doTick
  simp only [owned_mk, owned_eta, apply_ite State.owned, ite_self, cyclesTo_owned]

theorem lateDir_owned (m : Nat) (s : State) (d : Dir) :
    (lateDir m s d).owned = s.owned := by
  unfold lateDir
  (try dsimp only); (repeat' split) <;> simp only [owned_mk, owned_eta, raise_owned]

theorem latePort_owned (s : State) (m : Nat) :
    (latePort s m).owned = s.owned := by
  unfold latePort
  simp only [owned_mk, owned_eta, apply_ite State.owned, ite_self, count1_owned, lateDir_owned]

theorem doFrameEnd_owned (s : State) :
    (doFrameEnd s).owned = s.owned := by
  unfold doFrameEnd
  (try dsimp only); (repeat' split) <;>
    simp only [owned_mk, owned_eta, apply_ite State.owned, ite_self, foldl_owned, implies_true, cyclesTo_owned, evFrameEnd_owned, latePort_owned]

theorem rwApply_owned (s : State) :
    (rwApply s).owned = s.owned := by
  unfold rwApply
  (try dsimp only); (repeat' split) <;>
    simp only [owned_mk, owned_eta, apply_ite State.owned, ite_self, foldl_owned, implies_true, regPut_owned]

theorem eraseNow_owned (s : State) :
    (eraseNow s).owned = s.owned := by
  unfold eraseNow
  (try dsimp only); (repeat' split) <;>
    simp only [owned_mk, owned_eta, apply_ite State.owned, ite_self, foldl_owned, implies_true, slotPut_owned]

theorem newlyUnserved_owned (before : State) (s : State) :
    (newlyUnserved before s).owned = s.owned := by
  unfold newlyUnserved
  (try dsimp only); (repeat' split) <;>
    simp only [owned_mk, owned_eta, apply_ite State.owned, ite_self, foldl_owned, implies_true, portEmpty_owned]

theorem watchRestart_owned (s : State) :
    (watchRestart s).owned = s.owned := by
  unfold watchRestart
  first
  | with_reducible rfl
  | ((try dsimp only); repeat' split) <;> (first | (with_reducible rfl) | (simp only [owned_mk, owned_eta, apply_ite State.owned, ite_self]; done) | (simp only [owned_mk, owned_eta, apply_ite State.owned, ite_self, foldl_owned, implies_true]; done) | (simp_all only [owned_mk, owned_eta, apply_ite State.owned, ite_self, foldl_owned, implies_true]; done))

theorem rowWindow_owned (s : State) :
    (rowWindow s).owned = s.owned := by
  unfold rowWindow
  first
  | with_reducible rfl
  | ((try dsimp only); repeat' split) <;> (first | (with_reducible rfl) | (simp only [owned_mk, owned_eta, apply_ite State.owned, ite_self, watchRestart_owned]; done) | (simp only [owned_mk, owned_eta, apply_ite State.owned, ite_self, foldl_owned, implies_true, watchRestart_owned]; done) | (simp_all only [owned_mk, owned_eta, apply_ite State.owned, ite_self, foldl_owned, implies_true, watchRestart_owned]; done))

theorem stallCount_owned (s : State) (p : Nat) :
    (stallCount s p).owned = s.owned := by
  unfold stallCount
  simp only [owned_mk, owned_eta, apply_ite State.owned, ite_self, count1_owned, linkPut_owned]

theorem masterBack_owned (s : State) (n : Nat) :
    (masterBack s n).owned = s.owned := by
  unfold masterBack
  (try dsimp only); (repeat' split) <;> simp only [owned_mk, owned_eta]

theorem statRoll_owned (s : State) :
    (statRoll s).owned = s.owned := by
  unfold statRoll
  (try dsimp only); (repeat' split) <;>
    simp only [owned_mk, owned_eta, apply_ite State.owned, ite_self, foldl_owned, implies_true, snapPut_owned]

theorem superDuties_owned (s : State) :
    (superDuties s).owned = s.owned := by
  unfold superDuties
  simp only [owned_mk, owned_eta, apply_ite State.owned, ite_self, takeFree_owned, snapPut_owned, statRoll_owned]

theorem strobeEnds_owned (s : State) :
    (strobeEnds s).owned = s.owned := by
  unfold strobeEnds
  first
  | with_reducible rfl
  | ((try dsimp only); repeat' split) <;> (first | (with_reducible rfl) | (simp only [owned_mk, owned_eta, apply_ite State.owned, ite_self, slotsRestart_owned, stallCount_owned, snapshots_owned, clockTo_owned, doFrameEnd_owned]; done) | (simp only [owned_mk, owned_eta, apply_ite State.owned, ite_self, foldl_owned, implies_true, slotsRestart_owned, stallCount_owned, snapshots_owned, clockTo_owned, doFrameEnd_owned]; done) | (simp_all only [owned_mk, owned_eta, apply_ite State.owned, ite_self, foldl_owned, implies_true, slotsRestart_owned, stallCount_owned, snapshots_owned, clockTo_owned, doFrameEnd_owned]; done))

theorem strobeSlices_owned (s : State) :
    (strobeSlices s).owned = s.owned := by
  unfold strobeSlices
  first
  | with_reducible rfl
  | ((try dsimp only); repeat' split) <;> (first | (with_reducible rfl) | (simp only [owned_mk, owned_eta, apply_ite State.owned, ite_self, newlyUnserved_owned, slicesStrobe_owned]; done) | (simp only [owned_mk, owned_eta, apply_ite State.owned, ite_self, foldl_owned, implies_true, newlyUnserved_owned, slicesStrobe_owned]; done) | (simp_all only [owned_mk, owned_eta, apply_ite State.owned, ite_self, foldl_owned, implies_true, newlyUnserved_owned, slicesStrobe_owned]; done))

theorem strobeJack_owned (s : State) :
    (strobeJack s).owned = s.owned := by
  unfold strobeJack
  first
  | with_reducible rfl
  | ((try dsimp only); repeat' split) <;> (first | (with_reducible rfl) | (simp only [owned_mk, owned_eta, apply_ite State.owned, ite_self, jackClear_owned]; done) | (simp only [owned_mk, owned_eta, apply_ite State.owned, ite_self, foldl_owned, implies_true, jackClear_owned]; done) | (simp_all only [owned_mk, owned_eta, apply_ite State.owned, ite_self, foldl_owned, implies_true, jackClear_owned]; done))

theorem strobeMasters_owned (s : State) :
    (strobeMasters s).owned = s.owned := by
  unfold strobeMasters
  first
  | with_reducible rfl
  | ((try dsimp only); repeat' split) <;> (first | (with_reducible rfl) | (simp only [owned_mk, owned_eta, apply_ite State.owned, ite_self, masterBack_owned]; done) | (simp only [owned_mk, owned_eta, apply_ite State.owned, ite_self, foldl_owned, implies_true, masterBack_owned]; done) | (simp_all only [owned_mk, owned_eta, apply_ite State.owned, ite_self, foldl_owned, implies_true, masterBack_owned]; done))

theorem strobeDuties_owned (last : Nat) (s : State) :
    (strobeDuties last s).owned = s.owned := by
  unfold strobeDuties
  first
  | with_reducible rfl
  | ((try dsimp only); repeat' split) <;> (first | (with_reducible rfl) | (simp only [owned_mk, owned_eta, apply_ite State.owned, ite_self, strobeSlices_owned, strobeJack_owned, superDuties_owned, warnGlitchReport_owned, sumsRestart_owned, evClose_owned, nvActs_owned, eraseNow_owned, rwApply_owned, rowWindow_owned, tagWindow_owned, drainPoll_owned, tagMakeRoom_owned, rekeyStrobe_owned, strobeMasters_owned]; done) | (simp only [owned_mk, owned_eta, apply_ite State.owned, ite_self, foldl_owned, implies_true, strobeSlices_owned, strobeJack_owned, superDuties_owned, warnGlitchReport_owned, sumsRestart_owned, evClose_owned, nvActs_owned, eraseNow_owned, rwApply_owned, rowWindow_owned, tagWindow_owned, drainPoll_owned, tagMakeRoom_owned, rekeyStrobe_owned, strobeMasters_owned]; done) | (simp_all only [owned_mk, owned_eta, apply_ite State.owned, ite_self, foldl_owned, implies_true, strobeSlices_owned, strobeJack_owned, superDuties_owned, warnGlitchReport_owned, sumsRestart_owned, evClose_owned, nvActs_owned, eraseNow_owned, rwApply_owned, rowWindow_owned, tagWindow_owned, drainPoll_owned, tagMakeRoom_owned, rekeyStrobe_owned, strobeMasters_owned]; done))

theorem frameNext_owned (s : State) :
    (frameNext s).owned = s.owned := by
  unfold frameNext
  first
  | with_reducible rfl
  | ((try dsimp only); repeat' split) <;> (first | (with_reducible rfl) | (simp only [owned_mk, owned_eta, apply_ite State.owned, ite_self]; done) | (simp only [owned_mk, owned_eta, apply_ite State.owned, ite_self, foldl_owned, implies_true]; done) | (simp_all only [owned_mk, owned_eta, apply_ite State.owned, ite_self, foldl_owned, implies_true]; done))

theorem doFrameStrobe_owned (s : State) :
    (doFrameStrobe s).owned = s.owned := by
  unfold doFrameStrobe
  (try dsimp only); (repeat' split) <;>
    simp only [owned_mk, owned_eta, apply_ite State.owned, ite_self, foldl_owned, implies_true, strobeDuties_owned, landings_owned, frameNext_owned, strobeEnds_owned]

theorem objVal_owned (staged : Bool) (o : Obj) (idx sub row : Nat) (s : State) :
    (objVal staged o idx sub row s).2.owned = s.owned := by
  unfold objVal
  (try dsimp only); (repeat' split) <;> simp only [owned_mk, owned_eta, takeFree_owned]

theorem objVal_owned_of {staged : Bool} {o : Obj} {idx sub row : Nat} {s : State} {pp} (h : objVal staged o idx sub row s = pp) : pp.2.owned = s.owned := h ▸ objVal_owned staged o idx sub row s

theorem msgSend_owned (eid op : Byte) (k : Nat) (result : Byte) (seq : BitVec 32) (body : List Byte) (s : State) :
    (msgSend eid op k result seq body s).owned = s.owned := by
  unfold msgSend
  (try dsimp only); (repeat' split) <;> simp only [owned_mk, owned_eta]

theorem msgAnswer_owned (h : MsgHdr) (op : Nat) (rc : Byte) (seq : BitVec 32) (body : List Byte) (s : State) :
    (msgAnswer h op rc seq body s).owned = s.owned := by
  unfold msgAnswer
  simp only [owned_mk, owned_eta, apply_ite State.owned, ite_self, count1_owned, msgSend_owned]

theorem subTake_owned (k : Nat) (s : State) : (subTake k s).2.owned = s.owned := by
  unfold subTake
  (try dsimp only); (repeat' split) <;> simp only [owned_mk, owned_eta]

theorem subTake_owned_of {k : Nat} {s : State} {pp} (h : subTake k s = pp) : pp.2.owned = s.owned := h ▸ subTake_owned k s

theorem doEventMessage_owned (k : Nat) (s : State) : (doEventMessage k s).owned = s.owned := by
  unfold doEventMessage
  split
  · rename_i heq; have hk := subTake_owned_of heq; simpa only using hk
  · rename_i heq; have hk := subTake_owned_of heq; simp only at hk; simp only [msgSend_owned, hk]

theorem stageDiscard_owned (s : State) :
    (stageDiscard s).owned = s.owned := by
  unfold stageDiscard
  simp only [owned_mk, owned_eta]

theorem stageBreak_owned (w : Who) (s : State) :
    (stageBreak w s).owned = s.owned := by
  unfold stageBreak
  simp only [owned_mk, owned_eta, stageDiscard_owned, raise_owned]

theorem ownerSeen_owned (w : Who) (s : State) :
    (ownerSeen w s).owned = s.owned := by
  unfold ownerSeen
  simp only [owned_mk, owned_eta, apply_ite State.owned, ite_self]

theorem stageEnter_owned (w : Who) (s t : State) (h : stageEnter w s = .ok t) : t.owned = s.owned := by
  unfold stageEnter at h
  split at h
  · cases h
  · split at h
    · cases h; rfl
    · split at h
      · cases h; simp only [stageBreak_owned]
      · cases h

theorem stageWrite_owned (w : Who) (idx sub row v : Nat) (s : State) : (stageWrite w idx sub row v s).2.owned = s.owned := by
  unfold stageWrite
  split
  · rfl
  · split
    · rfl
    · rename_i heq
      have hk := stageEnter_owned _ _ _ heq
      simp only [owned_mk, owned_eta, hk]

theorem stageWrite_owned_of {w : Who} {idx sub row v : Nat} {s : State} {pp} (h : stageWrite w idx sub row v s = pp) : pp.2.owned = s.owned := h ▸ stageWrite_owned w idx sub row v s

theorem doStageBreakable_owned (s : State) :
    (doStageBreakable s).owned = s.owned := by
  unfold doStageBreakable
  simp only [owned_mk, owned_eta, apply_ite State.owned, ite_self]

theorem commitReply_owned (rc : Byte) (body : List Byte) (s : State) :
    (commitReply rc body s).owned = s.owned := by
  unfold commitReply
  (try dsimp only); (repeat' split) <;> simp only [owned_mk, owned_eta, msgAnswer_owned]

theorem commitAbort_owned (cause : Nat) (obj : Option Nat) (s : State) :
    (commitAbort cause obj s).owned = s.owned := by
  unfold commitAbort
  simp only [owned_mk, owned_eta, raise_owned, commitReply_owned]

theorem commitStart_owned (w : Who) (target : Nat) (s : State) : (commitStart w target s).2.owned = s.owned := by
  unfold commitStart
  split
  · rfl
  · rename_i heq
    have hk := stageEnter_owned _ _ _ heq
    (try dsimp only); (repeat' split) <;> simp only [owned_mk, owned_eta, commitAbort_owned, hk]

theorem commitStart_owned_of {w : Who} {target : Nat} {s : State} {pp} (h : commitStart w target s = pp) : pp.2.owned = s.owned := h ▸ commitStart_owned w target s

theorem commitCancel_owned (w : Who) (force : Bool) (s : State) :
    (commitCancel w force s).2.owned = s.owned := by
  unfold commitCancel
  (try dsimp only); (repeat' split) <;> simp only [owned_mk, owned_eta, stageDiscard_owned, commitAbort_owned]

theorem commitCancel_owned_of {w : Who} {force : Bool} {s : State} {pp} (h : commitCancel w force s = pp) : pp.2.owned = s.owned := h ▸ commitCancel_owned w force s

theorem entryAsk_owned (s : State) : (entryAsk s).owned = s.owned := by
  unfold entryAsk
  exact foldl_owned _ (fun s k => by (try dsimp only); (repeat' split) <;> simp only [nvPush_owned, owned_mk, owned_eta]) _ _

theorem doCommitPrepared_owned (s : State) :
    (doCommitPrepared s).owned = s.owned := by
  unfold doCommitPrepared
  simp only [owned_mk, owned_eta, apply_ite State.owned, ite_self, entryAsk_owned]

theorem sampleDefer_owned (s : State) :
    (sampleDefer s).owned = s.owned := by
  unfold sampleDefer
  first
  | with_reducible rfl
  | ((try dsimp only); repeat' split) <;> (first | (with_reducible rfl) | (simp only [owned_mk, owned_eta, apply_ite State.owned, ite_self, commitAbort_owned]; done) | (simp only [owned_mk, owned_eta, apply_ite State.owned, ite_self, foldl_owned, implies_true, commitAbort_owned]; done) | (simp_all only [owned_mk, owned_eta, apply_ite State.owned, ite_self, foldl_owned, implies_true, commitAbort_owned]; done))

theorem commitSample_owned (s : State) :
    (commitSample s).owned = s.owned := by
  unfold commitSample
  (try dsimp only); (repeat' split) <;> simp only [owned_mk, owned_eta, commitAbort_owned, sampleDefer_owned]

theorem doCommitSample_owned (s : State) :
    (doCommitSample s).owned = s.owned := by
  unfold doCommitSample
  simp only [owned_mk, owned_eta, apply_ite State.owned, ite_self, cyclesTo_owned, commitSample_owned, entryAsk_owned]

theorem doCommitDeferLimit_owned (s : State) :
    (doCommitDeferLimit s).owned = s.owned := by
  unfold doCommitDeferLimit
  simp only [owned_mk, owned_eta, apply_ite State.owned, ite_self, commitAbort_owned, cyclesTo_owned]

theorem sampleUndo_owned (s : State) :
    (sampleUndo s).owned = s.owned := by
  unfold sampleUndo
  first
  | with_reducible rfl
  | ((try dsimp only); repeat' split) <;> (first | (with_reducible rfl) | (simp only [owned_mk, owned_eta, apply_ite State.owned, ite_self, sampleDefer_owned]; done) | (simp only [owned_mk, owned_eta, apply_ite State.owned, ite_self, foldl_owned, implies_true, sampleDefer_owned]; done) | (simp_all only [owned_mk, owned_eta, apply_ite State.owned, ite_self, foldl_owned, implies_true, sampleDefer_owned]; done))

theorem doPwrWarnQualify_owned (s : State) :
    (doPwrWarnQualify s).owned = s.owned := by
  unfold doPwrWarnQualify
  (try dsimp only); (repeat' split) <;>
    simp only [owned_mk, owned_eta, apply_ite State.owned, ite_self, foldl_owned, implies_true, raise_owned, imageDrop_owned, ctxAbandon_owned, mediaMod_owned, drainPoll_owned, wbFetches_owned, sampleUndo_owned]

theorem stagePut_owned (s : State) :
    (stagePut s).owned = s.owned := by
  unfold stagePut
  (try dsimp only); (repeat' split) <;>
    simp only [owned_mk, owned_eta, apply_ite State.owned, ite_self, foldl_owned, implies_true, cfgPut_owned]

theorem linkGens_owned (old new : Nat) (s : State) :
    (linkGens old new s).owned = s.owned := by
  unfold linkGens
  (try dsimp only); (repeat' split) <;>
    simp only [owned_mk, owned_eta, apply_ite State.owned, ite_self, foldl_owned, implies_true, regPut_owned]

theorem growMark_owned (k : Nat) (s : State) (g : Extent × Option Nat) :
    (growMark k s g).owned = s.owned := by
  unfold growMark
  (try dsimp only); (repeat' split) <;> simp only [owned_mk, owned_eta, regPut_owned, rkEnqueue_owned, ctxPut_owned]

theorem growSlotMarks_owned (s : State) (g : Nat × List (Extent × Option Nat)) :
    (growSlotMarks s g).owned = s.owned := by
  unfold growSlotMarks
  (try dsimp only); (repeat' split) <;>
    simp only [owned_mk, owned_eta, apply_ite State.owned, ite_self, foldl_owned, implies_true, growMark_owned]

theorem restoreMark_owned (s : State) (row : Nat) :
    (restoreMark s row).owned = s.owned := by
  unfold restoreMark
  simp only [owned_mk, owned_eta, regPut_owned]

theorem windowNote_owned (old : Nat) (s : State) :
    (windowNote old s).owned = s.owned := by
  unfold windowNote
  first
  | with_reducible rfl
  | ((try dsimp only); repeat' split) <;> (first | (with_reducible rfl) | (simp only [owned_mk, owned_eta, apply_ite State.owned, ite_self]; done) | (simp only [owned_mk, owned_eta, apply_ite State.owned, ite_self, foldl_owned, implies_true]; done) | (simp_all only [owned_mk, owned_eta, apply_ite State.owned, ite_self, foldl_owned, implies_true]; done))

theorem applyNote_owned (s : State) :
    (applyNote s).owned = s.owned := by
  unfold applyNote
  simp only [owned_mk, owned_eta, raise_owned]

theorem commitApply_owned (s : State) :
    (commitApply s).owned = s.owned := by
  unfold commitApply
  (try dsimp only); (repeat' split) <;>
    simp only [owned_mk, owned_eta, apply_ite State.owned, ite_self, foldl_owned, implies_true, windowNote_owned, stagePut_owned, jackClear_owned, restoreMark_owned, growSlotMarks_owned, regPut_owned, linkGens_owned, applyNote_owned, modeSend_owned, imageStart_owned, creditRaiseAll_owned, rkSchedule_owned, commitReply_owned]

theorem doCommitApply_owned (s : State) :
    (doCommitApply s).owned = s.owned := by
  unfold doCommitApply
  simp only [owned_mk, owned_eta, apply_ite State.owned, ite_self, commitApply_owned]

theorem doCopyBackDone_owned (u : Nat) (s : State) :
    (doCopyBackDone u s).owned = s.owned := by
  unfold doCopyBackDone
  simp only [owned_mk, owned_eta]

theorem doDigestRefreshDone_owned (err : BitVec 256) (s : State) :
    (doDigestRefreshDone err s).owned = s.owned := by
  unfold doDigestRefreshDone
  simp only [owned_mk, owned_eta, apply_ite State.owned, ite_self, raise_owned]

theorem digestBlank_owned (s : State) :
    (digestBlank s).owned = s.owned := by
  unfold digestBlank
  simp only [owned_mk, owned_eta]

theorem imageApply_owned (gen : Nat) (l : List (Nat × Nat)) (s : State) :
    (imageApply gen l s).owned = s.owned := by
  unfold imageApply
  (try dsimp only); (repeat' split) <;>
    simp only [owned_mk, owned_eta, apply_ite State.owned, ite_self, foldl_owned, implies_true, windowNote_owned, cfgPut_owned, regPut_owned, applyNote_owned, modeSend_owned]

theorem doStartupImageApply_owned (s : State) :
    (doStartupImageApply s).owned = s.owned := by
  unfold doStartupImageApply
  (try dsimp only); (repeat' split) <;> simp only [owned_mk, owned_eta, digestBlank_owned, imageApply_owned]

theorem slotCmd_owned (kidx v : Nat) (s : State) :
    (slotCmd kidx v s).2.owned = s.owned := by
  unfold slotCmd
  (try dsimp only); (repeat' split) <;> simp only [owned_mk, owned_eta, slotActivate_owned, slotDiscard_owned, slotRetire_owned]

theorem slotCmd_owned_of {kidx v : Nat} {s : State} {pp} (h : slotCmd kidx v s = pp) : pp.2.owned = s.owned := h ▸ slotCmd_owned kidx v s

theorem rekeyReqCmd_owned (kidx : Nat) (s : State) :
    (rekeyReqCmd kidx s).2.owned = s.owned := by
  unfold rekeyReqCmd
  (try dsimp only); (repeat' split) <;> simp only [owned_mk, owned_eta, rkSchedule_owned, nextGenCause_owned]

theorem rekeyReqCmd_owned_of {kidx : Nat} {s : State} {pp} (h : rekeyReqCmd kidx s = pp) : pp.2.owned = s.owned := h ▸ rekeyReqCmd_owned kidx s

theorem prefillStart_owned (s : State) :
    (prefillStart s).owned = s.owned := by
  unfold prefillStart
  simp only [owned_mk, owned_eta]

theorem linkResetCmd_owned (p : Nat) (s : State) :
    (linkResetCmd p s).owned = s.owned := by
  unfold linkResetCmd
  simp only [owned_mk, owned_eta, apply_ite State.owned, ite_self, linkDown_owned]

theorem mpFlushCmd_owned (m : Nat) (s : State) :
    (mpFlushCmd m s).owned = s.owned := by
  unfold mpFlushCmd
  simp only [owned_mk, owned_eta, apply_ite State.owned, ite_self, mediaPut_owned]

theorem masterResetCmd_owned (v : Nat) (s : State) :
    (masterResetCmd v s).owned = s.owned := by
  unfold masterResetCmd
  (try dsimp only); (repeat' split) <;>
    simp only [owned_mk, owned_eta, apply_ite State.owned, ite_self, foldl_owned, implies_true, masterBack_owned]

theorem cmdWrite_owned (w : Who) (idx sub row v : Nat) (s : State) :
    (cmdWrite w idx sub row v s).2.owned = s.owned := by
  unfold cmdWrite
  (try dsimp only); (repeat' split) <;> simp only [owned_mk, owned_eta, tagFlush_owned, prefillStart_owned, commitStart_owned, commitCancel_owned, recorderClear_owned, linkResetCmd_owned, mpFlushCmd_owned, slotCmd_owned, rekeyReqCmd_owned, masterResetCmd_owned]

theorem cmdWrite_owned_of {w : Who} {idx sub row v : Nat} {s : State} {pp} (h : cmdWrite w idx sub row v s = pp) : pp.2.owned = s.owned := h ▸ cmdWrite_owned w idx sub row v s

theorem rwWrite_owned (idx sub row v : Nat) (s : State) :
    (rwWrite idx sub row v s).2.owned = s.owned := by
  unfold rwWrite
  (try dsimp only); (repeat' split) <;> simp only [owned_mk, owned_eta, iqFlushSet_owned, regPut_owned]

theorem rwWrite_owned_of {idx sub row v : Nat} {s : State} {pp} (h : rwWrite idx sub row v s = pp) : pp.2.owned = s.owned := h ▸ rwWrite_owned idx sub row v s

theorem alertAckWrite_owned (v : Nat) (s : State) :
    (alertAckWrite v s).owned = s.owned := by
  unfold alertAckWrite
  simp only [owned_mk, owned_eta, regPut_owned]

theorem objWrite_owned (w : Who) (o : Obj) (idx sub row v : Nat) (s : State) :
    (objWrite w o idx sub row v s).2.owned = s.owned := by
  unfold objWrite
  (try dsimp only); (repeat' split) <;> simp only [owned_mk, owned_eta, stageWrite_owned, rwWrite_owned, cmdWrite_owned, alertAckWrite_owned]

theorem objWrite_owned_of {w : Who} {o : Obj} {idx sub row v : Nat} {s : State} {pp} (h : objWrite w o idx sub row v s = pp) : pp.2.owned = s.owned := h ▸ objWrite_owned w o idx sub row v s

theorem dictWrite_owned (w : Who) (idx sub row v : Nat) (s : State) :
    (dictWrite w idx sub row v s).2.owned = s.owned := by
  unfold dictWrite
  (try dsimp only); (repeat' split) <;> simp only [owned_mk, owned_eta, objWrite_owned]

theorem dictWrite_owned_of {w : Who} {idx sub row v : Nat} {s : State} {pp} (h : dictWrite w idx sub row v s = pp) : pp.2.owned = s.owned := h ▸ dictWrite_owned w idx sub row v s

theorem rowRead_owned (staged : Bool) (idx row : Nat) (l : List (Nat × Obj)) (s : State) :
    (rowRead staged idx row l s).2.owned = s.owned := by
  induction l generalizing s with
  | nil => rfl
  | cons e t ih =>
    unfold rowRead
    exact (ih _).trans (objVal_owned _ _ _ _ _ _)

theorem rowRead_owned_of {staged : Bool} {idx row : Nat} {l : List (Nat × Obj)} {s : State} {pp}
    (h : rowRead staged idx row l s = pp) : pp.2.owned = s.owned := h ▸ rowRead_owned staged idx row l s

theorem rowWrite_owned (w : Who) (idx row : Nat) (l : List (Nat × Obj)) (bs : List Byte) (s : State) :
    (rowWrite w idx row l bs s).2.owned = s.owned := by
  induction l generalizing bs s with
  | nil => rfl
  | cons e t ih =>
    unfold rowWrite
    split
    rename_i heq
    have hk := objWrite_owned_of heq
    simp only at hk
    split
    · rw [ih, hk]
    · exact hk

theorem rowWriteWhole_owned (w : Who) (idx row : Nat) (l : List (Nat × Obj)) (bs : List Byte) (s : State) :
    (rowWriteWhole w idx row l bs s).2.owned = s.owned := by
  unfold rowWriteWhole
  split
  rename_i heq
  have hk := congrArg (fun p => p.2.owned) heq
  simp only [rowWrite_owned] at hk
  dsimp only
  split
  · exact hk.symm
  · rfl

theorem rowWriteWhole_owned_of {w : Who} {idx row : Nat} {l : List (Nat × Obj)} {bs : List Byte} {s : State} {pp} (h : rowWriteWhole w idx row l bs s = pp) : pp.2.owned = s.owned := h ▸ rowWriteWhole_owned w idx row l bs s

theorem msgDrop_owned (mki reason : Nat) (s : State) :
    (msgDrop mki reason s).owned = s.owned := by
  unfold msgDrop
  simp only [owned_mk, owned_eta, count1_owned, sumSet_owned]

theorem msgResult_owned (h : MsgHdr) (op : Nat) (rc : Byte) (s : State) :
    (msgResult h op rc s).owned = s.owned := by
  unfold msgResult
  simp only [owned_mk, owned_eta, msgAnswer_owned]

theorem readBody_owned (h : MsgHdr) (body : List Byte) (s : State) :
    (readBody h body s).owned = s.owned := by
  unfold readBody
  (try dsimp only); (repeat' split) <;> simp only [owned_mk, owned_eta, msgResult_owned, objVal_owned, msgAnswer_owned]

theorem writeBody_owned (h : MsgHdr) (body : List Byte) (s : State) :
    (writeBody h body s).owned = s.owned := by
  unfold writeBody
  (try dsimp only); (repeat' split) <;> simp only [owned_mk, owned_eta, msgResult_owned, objWrite_owned]

theorem readRowBody_owned (h : MsgHdr) (body : List Byte) (s : State) : (readRowBody h body s).owned = s.owned := by
  unfold readRowBody
  (try dsimp only); repeat' split
  all_goals simp only [msgResult_owned, msgAnswer_owned, rowRead_owned]

theorem writeRowBody_owned (h : MsgHdr) (body : List Byte) (s : State) :
    (writeRowBody h body s).owned = s.owned := by
  unfold writeRowBody
  (try dsimp only); (repeat' split) <;> simp only [owned_mk, owned_eta, msgResult_owned, rowWriteWhole_owned]

theorem commitBody_owned (h : MsgHdr) (body : List Byte) (s : State) :
    (commitBody h body s).owned = s.owned := by
  unfold commitBody
  simp only [owned_mk, owned_eta, apply_ite State.owned, ite_self, msgResult_owned, commitStart_owned, msgAnswer_owned]

theorem abortMsg_owned (h : MsgHdr) (body : List Byte) (s : State) :
    (abortMsg h body s).owned = s.owned := by
  unfold abortMsg
  simp only [owned_mk, owned_eta, apply_ite State.owned, ite_self, msgResult_owned, commitCancel_owned]

theorem subscribeBody_owned (h : MsgHdr) (body : List Byte) (s : State) :
    (subscribeBody h body s).owned = s.owned := by
  unfold subscribeBody
  simp only [owned_mk, owned_eta, apply_ite State.owned, ite_self, msgResult_owned]

theorem winRead_owned (dbg : Bool) (addr : Nat) (s : State) {v n : Nat} {t : State}
    (h : winRead dbg addr s = .ok (v, n, t)) : t.owned = s.owned := by
  unfold winRead at h
  dsimp only at h
  split at h
  · cases h; rfl
  · split at h
    · cases h
    · split at h
      · cases h; rfl
      · cases h
        exact objVal_owned _ _ _ _ _ _

end Sys2Proof.Machine
end

