-- ==== Sys2Proof/WellFormed.lean ====
section
/-! DEFINITION. Well-formed commands: operands that the block's own structure bounds and that their Lean type does not.
A meaning is total and asks none of this; a command that fails a check stands for no happening of the hardware. -/

namespace Sys2Proof

/-- Wire bytes of a codeword, each named once: 272 in FULL, 264 in LIGHT (R209). -/
def fecWf (errs : List Nat) : Bool := errs.all (fun n => decide (n < 272)) && decide errs.Nodup

/-- An SRAM row: 768 macros of 1,024 rows (Table 01.6). -/
def rowWf (macroNo row : Nat) : Bool := decide (macroNo < 768) && decide (row < 1024)

/-- Physical damage: pipes 0 to 11 of a slice, rows that exist, and the 384 queues (R295, R188, Table 01.6). -/
def Faults.wf (f : Faults) : Bool :=
  f.pipes.all (fun e => decide (e.1 < 12)) && f.rows.all (fun e => rowWf e.1 e.2.1) &&
    f.upset.all (fun e => decide (e.1 < 384))

/-- A failing target of BIST (Table 14.3). -/
def BistFail.wf : BistFail → Bool
  | .row m r => rowWf m r
  | .spare m k => decide (m < 768) && decide (k < 4)
  | .pipe _ _ => true
  | .ghash _ => true
  | .mixer _ => true
  | .lfx _ => true

/-- Repairs of the fuse image: four spare rows and two spare columns in a macro (R289, Table 01.6). -/
def FuseImage.wf (img : FuseImage) : Bool :=
  img.rows.all (fun r => rowWf r.1 r.2.1 && decide (r.2.2 < 4)) && img.cols.all (fun c => decide (c.1 < 768)) &&
    (List.range 768).all (fun m => decide ((img.cols.filter (fun c => c.1 == m)).length ≤ 2))

/-- A byte 0 that stands in place of a request's opcode: a reserved one, on the debug/DMA port also CREDIT_RETURN; a link's
opcodes from 80h on are those of its RX_DATA_FLIT (R170, R184, Table 08.1). -/
def Hdr.wf (src : Src) (h : Hdr) : Bool :=
  match h.odd, src with
  | none, _ => true
  | some o, .link _ => decide (10 ≤ o.toNat) && decide (o.toNat < 0x80)
  | some o, .master _ => decide (9 ≤ o.toNat)

/-- A byte 0 that stands in place of a key-port command's OPC lies outside Table 06.6. -/
def KpCmd.wf (k : KpCmd) : Bool := k.odd.all (fun o => decide (o.toNat = 0) || decide (6 ≤ o.toNat))

/-- A byte 1 that stands in place of a request's OP lies outside Table 15.3. -/
def MsgHdr.wf (h : MsgHdr) : Bool := h.odd.all (fun o => decide (o.toNat = 0) || decide (8 ≤ o.toNat))

/-- The well-formed commands. -/
def Instr.wf : Instr → Bool
  | .fuseLoadDone img => img.wf
  | .bistDone fails => fails.all BistFail.wf
  | .rxDataFlit _ errs _ _ => fecWf errs
  | .rxAckOnly _ errs _ => fecWf errs
  | .rxIdle _ errs _ => fecWf errs
  | .rxHeartbeat _ errs _ _ _ => fecWf errs
  | .rxParamOffer _ errs _ _ => fecWf errs
  | .rxParamConfirm _ errs _ _ => fecWf errs
  | .rxDown _ errs _ => fecWf errs
  | .rxBadFlit _ errs _ => fecWf errs
  | .rxReservedType _ errs _ => fecWf errs
  | .flitTransmit _ _ f => f.wf
  | .creditReturn _ entries => decide (entries.length ≤ 3)
  | .fgReadGrant _ f => f.wf
  | .fgWriteGrant _ f => f.wf
  | .partialReadGrant _ f => f.wf
  | .partialWriteGrant _ f => f.wf
  | .taglineFetch _ f => f.wf
  | .tagWriteback _ f => f.wf
  | .rekeyStep _ f => f.wf
  | .rekeyStepWrite _ f => f.wf
  | .vote _ _ f => f.wf
  | .schkRecompute _ f => f.wf
  | .lineArrival _ _ _ _ _ f => f.wf
  | .sidecarArrival _ _ _ _ _ f => f.wf
  | .poolSweepPass ptr freed held _ => ptr.all (fun e => decide (e.1 < 384)) && decide (freed + held ≤ 262144)
  | .copyBackDone unitNo => decide (1 ≤ unitNo) && decide (unitNo ≤ 20)
  | .reset _ => true
  | .resetRelease _ _ => true
  | .recoveryDone => true
  | .startupImageApply => true
  | .frameStrobe => true
  | .frameEnd => true
  | .commitSample => true
  | .commitDeferLimit => true
  | .commitApply => true
  | .commitPrepared => true
  | .digestRefreshDone _ => true
  | .stageBreakable => true
  | .pwrWarnQualify => true
  | .drainComplete => true
  | .drainLate => true
  | .pwrWarnReturn => true
  | .resume => true
  | .zeroizeQualify => true
  | .zeroizeDone => true
  | .zeroizeReturn => true
  | .holdoffEnd => true
  | .debugLockBlown => true
  | .rateChange _ _ => true
  | .lockGained _ => true
  | .lockLost _ => true
  | .tLosExpiry _ => true
  | .ackTimer _ => true
  | .replayTimer _ _ f => f.wf
  | .heartbeatDue _ => true
  | .hbLost _ => true
  | .tNegExpiry _ => true
  | .resyncSend _ => true
  | .resyncDone _ _ => true
  | .grantHoldExpiry _ => true
  | .readLine src h => h.wf src
  | .writeLine src h _ _ => h.wf src
  | .writePartial src h _ _ _ => h.wf src
  | .readRaw src h => h.wf src
  | .writeRaw src h _ _ => h.wf src
  | .readTaglineRaw src h => h.wf src
  | .writeTaglineRaw src h _ _ => h.wf src
  | .fence src h => h.wf src
  | .fenceComplete _ _ => true
  | .sidecarProbe _ => true
  | .lookaheadProbe _ => true
  | .prefillProbe _ => true
  | .rekeyTake _ => true
  | .rekeyPassStart _ => true
  | .rekeyComplete _ => true
  | .formatComplete _ => true
  | .purgeComplete _ => true
  | .rowRepair _ => true
  | .flushPersist _ => true
  | .mediaHandshake _ _ _ => true
  | .transferError _ => true
  | .accepted _ => true
  | .persisted _ _ => true
  | .taglineArrival _ _ _ _ _ => true
  | .readTimeout _ _ => true
  | .persistTimeout _ _ => true
  | .mpStall _ _ _ => true
  | .nvPageDone _ => true
  | .nvReadDone _ _ => true
  | .recorderAccept => true
  | .eventMessage _ => true
  | .recorderClearAck => true
  | .recOnlineChange _ => true
  | .read h _ => h.wf
  | .write h _ => h.wf
  | .readRow h _ => h.wf
  | .writeRow h _ => h.wf
  | .commit h _ => h.wf
  | .abort h _ => h.wf
  | .subscribe h _ => h.wf
  | .loadKek k => k.wf
  | .loadKey k => k.wf
  | .loadMgmtKey k => k.wf
  | .eraseSlot k => k.wf
  | .queryKcv k => k.wf
  | .windowWrite _ _ => true
  | .wideValueRead _ => true
  | .rwsWrite _ _ => true
  | .commitReq _ _ => true
  | .abortReq _ _ => true
  | .activate _ _ => true
  | .discard _ _ => true
  | .retire _ _ => true
  | .rekeyReq _ _ _ => true
  | .tagCacheFlush _ _ => true
  | .jackPrefill _ _ => true
  | .jackInvalidate _ _ => true
  | .linkReset _ _ _ => true
  | .mpFlush _ _ _ => true
  | .masterReset _ _ => true
  | .recorderClear h _ => h.wf
  | .alertAck _ _ => true
  | .iqFlush _ _ _ => true
  | .zeroizeShortPulse => true
  | .pwrWarnShortPulse _ => true

end Sys2Proof
end

