-- ==== Sys2Proof/Laws/PerInstr.lean ====
section
/-! SUPPORT. What every well-formed command's operands stay within, one lemma for each command. -/

namespace Sys2Proof.Laws.Bounded

/-- The wire bytes that a flit reports as damaged; none for a command that is no flit. -/
def fecOf : Instr → List Nat
  | .rxDataFlit _ v _ _ => v
  | .rxAckOnly _ v _ => v
  | .rxIdle _ v _ => v
  | .rxHeartbeat _ v _ _ _ => v
  | .rxParamOffer _ v _ _ => v
  | .rxParamConfirm _ v _ _ => v
  | .rxDown _ v _ => v
  | .rxBadFlit _ v _ => v
  | .rxReservedType _ v _ => v
  | _ => []

/-- The pipes at which a command meets damage. -/
def pipesOf : Instr → List (Nat × Block)
  | .flitTransmit _ _ v => v.pipes
  | .replayTimer _ _ v => v.pipes
  | .fgReadGrant _ v => v.pipes
  | .fgWriteGrant _ v => v.pipes
  | .partialReadGrant _ v => v.pipes
  | .partialWriteGrant _ v => v.pipes
  | .taglineFetch _ v => v.pipes
  | .tagWriteback _ v => v.pipes
  | .rekeyStep _ v => v.pipes
  | .rekeyStepWrite _ v => v.pipes
  | .vote _ _ v => v.pipes
  | .schkRecompute _ v => v.pipes
  | .lineArrival _ _ _ _ _ v => v.pipes
  | .sidecarArrival _ _ _ _ _ v => v.pipes
  | _ => []

/-- A well-formed command names wire bytes of a codeword and pipes 0 to 11 alone (R209, R295). -/
def Statement (i : Instr) : Prop := i.wf = true → (∀ n ∈ fecOf i, n < 272) ∧ ∀ e ∈ pipesOf i, e.1 < 12

/-- What the check of wire bytes says. -/
theorem bytes_of_wf {l : List Nat} (h : fecWf l = true) : ∀ n ∈ l, n < 272 := by
  intro n hn
  simp only [fecWf, Bool.and_eq_true, List.all_eq_true, decide_eq_true_eq] at h
  exact h.1 n hn

/-- What the check of physical damage says of the pipes. -/
theorem pipes_of_wf {f : Faults} (h : f.wf = true) : ∀ e ∈ f.pipes, e.1 < 12 := by
  intro e he
  simp only [Faults.wf, Bool.and_eq_true, List.all_eq_true, decide_eq_true_eq] at h
  exact h.1.1 e he

theorem reset (por : Bool) : Statement (.reset por) :=
  fun _ => ⟨fun _ k => (nomatch k), fun _ k => nomatch k⟩

theorem resetRelease (por : Bool) (bistShort : Bool) : Statement (.resetRelease por bistShort) :=
  fun _ => ⟨fun _ k => (nomatch k), fun _ k => nomatch k⟩

theorem fuseLoadDone (img : FuseImage) : Statement (.fuseLoadDone img) :=
  fun _ => ⟨fun _ k => (nomatch k), fun _ k => nomatch k⟩

theorem bistDone (fails : List BistFail) : Statement (.bistDone fails) :=
  fun _ => ⟨fun _ k => (nomatch k), fun _ k => nomatch k⟩

theorem recoveryDone : Statement (.recoveryDone) :=
  fun _ => ⟨fun _ k => (nomatch k), fun _ k => nomatch k⟩

theorem startupImageApply : Statement (.startupImageApply) :=
  fun _ => ⟨fun _ k => (nomatch k), fun _ k => nomatch k⟩

theorem frameStrobe : Statement (.frameStrobe) :=
  fun _ => ⟨fun _ k => (nomatch k), fun _ k => nomatch k⟩

theorem frameEnd : Statement (.frameEnd) :=
  fun _ => ⟨fun _ k => (nomatch k), fun _ k => nomatch k⟩

theorem commitSample : Statement (.commitSample) :=
  fun _ => ⟨fun _ k => (nomatch k), fun _ k => nomatch k⟩

theorem commitDeferLimit : Statement (.commitDeferLimit) :=
  fun _ => ⟨fun _ k => (nomatch k), fun _ k => nomatch k⟩

theorem commitApply : Statement (.commitApply) :=
  fun _ => ⟨fun _ k => (nomatch k), fun _ k => nomatch k⟩

theorem commitPrepared : Statement (.commitPrepared) :=
  fun _ => ⟨fun _ k => (nomatch k), fun _ k => nomatch k⟩

theorem copyBackDone (unitNo : Nat) : Statement (.copyBackDone unitNo) :=
  fun _ => ⟨fun _ k => (nomatch k), fun _ k => nomatch k⟩

theorem digestRefreshDone (err : BitVec 256) : Statement (.digestRefreshDone err) :=
  fun _ => ⟨fun _ k => (nomatch k), fun _ k => nomatch k⟩

theorem stageBreakable : Statement (.stageBreakable) :=
  fun _ => ⟨fun _ k => (nomatch k), fun _ k => nomatch k⟩

theorem pwrWarnQualify : Statement (.pwrWarnQualify) :=
  fun _ => ⟨fun _ k => (nomatch k), fun _ k => nomatch k⟩

theorem drainComplete : Statement (.drainComplete) :=
  fun _ => ⟨fun _ k => (nomatch k), fun _ k => nomatch k⟩

theorem drainLate : Statement (.drainLate) :=
  fun _ => ⟨fun _ k => (nomatch k), fun _ k => nomatch k⟩

theorem pwrWarnReturn : Statement (.pwrWarnReturn) :=
  fun _ => ⟨fun _ k => (nomatch k), fun _ k => nomatch k⟩

theorem resume : Statement (.resume) :=
  fun _ => ⟨fun _ k => (nomatch k), fun _ k => nomatch k⟩

theorem zeroizeQualify : Statement (.zeroizeQualify) :=
  fun _ => ⟨fun _ k => (nomatch k), fun _ k => nomatch k⟩

theorem zeroizeDone : Statement (.zeroizeDone) :=
  fun _ => ⟨fun _ k => (nomatch k), fun _ k => nomatch k⟩

theorem zeroizeReturn : Statement (.zeroizeReturn) :=
  fun _ => ⟨fun _ k => (nomatch k), fun _ k => nomatch k⟩

theorem holdoffEnd : Statement (.holdoffEnd) :=
  fun _ => ⟨fun _ k => (nomatch k), fun _ k => nomatch k⟩

theorem debugLockBlown : Statement (.debugLockBlown) :=
  fun _ => ⟨fun _ k => (nomatch k), fun _ k => nomatch k⟩

theorem rateChange (p : Fin 128) (rate : BitVec 2) : Statement (.rateChange p rate) :=
  fun _ => ⟨fun _ k => (nomatch k), fun _ k => nomatch k⟩

theorem lockGained (p : Fin 128) : Statement (.lockGained p) :=
  fun _ => ⟨fun _ k => (nomatch k), fun _ k => nomatch k⟩

theorem lockLost (p : Fin 128) : Statement (.lockLost p) :=
  fun _ => ⟨fun _ k => (nomatch k), fun _ k => nomatch k⟩

theorem tLosExpiry (p : Fin 128) : Statement (.tLosExpiry p) :=
  fun _ => ⟨fun _ k => (nomatch k), fun _ k => nomatch k⟩

theorem rxDataFlit (p : Fin 128) (errs : List Nat) (lcw : BitVec 64) (slots : BitVec 1920) : Statement (.rxDataFlit p errs lcw slots) :=
  fun h => ⟨bytes_of_wf h, fun _ k => nomatch k⟩

theorem rxAckOnly (p : Fin 128) (errs : List Nat) (lcw : BitVec 64) : Statement (.rxAckOnly p errs lcw) :=
  fun h => ⟨bytes_of_wf h, fun _ k => nomatch k⟩

theorem rxIdle (p : Fin 128) (errs : List Nat) (lcw : BitVec 64) : Statement (.rxIdle p errs lcw) :=
  fun h => ⟨bytes_of_wf h, fun _ k => nomatch k⟩

theorem rxHeartbeat (p : Fin 128) (errs : List Nat) (lcw : BitVec 64) (digest64 : BitVec 64) (cfgGen : BitVec 32) : Statement (.rxHeartbeat p errs lcw digest64 cfgGen) :=
  fun h => ⟨bytes_of_wf h, fun _ k => nomatch k⟩

theorem rxParamOffer (p : Fin 128) (errs : List Nat) (o : Offer) (lcw : BitVec 64) : Statement (.rxParamOffer p errs o lcw) :=
  fun h => ⟨bytes_of_wf h, fun _ k => nomatch k⟩

theorem rxParamConfirm (p : Fin 128) (errs : List Nat) (c : Confirm) (lcw : BitVec 64) : Statement (.rxParamConfirm p errs c lcw) :=
  fun h => ⟨bytes_of_wf h, fun _ k => nomatch k⟩

theorem rxDown (p : Fin 128) (errs : List Nat) (lcw : BitVec 64) : Statement (.rxDown p errs lcw) :=
  fun h => ⟨bytes_of_wf h, fun _ k => nomatch k⟩

theorem rxBadFlit (p : Fin 128) (errs : List Nat) (flit : BitVec 2048) : Statement (.rxBadFlit p errs flit) :=
  fun h => ⟨bytes_of_wf h, fun _ k => nomatch k⟩

theorem flitTransmit (p : Fin 128) (parityBad : Bool) (f : Faults) : Statement (.flitTransmit p parityBad f) :=
  fun h => ⟨fun _ k => (nomatch k), pipes_of_wf h⟩

theorem ackTimer (p : Fin 128) : Statement (.ackTimer p) :=
  fun _ => ⟨fun _ k => (nomatch k), fun _ k => nomatch k⟩

theorem replayTimer (p : Fin 128) (parityBad : Bool) (f : Faults) : Statement (.replayTimer p parityBad f) :=
  fun h => ⟨fun _ k => (nomatch k), pipes_of_wf h⟩

theorem heartbeatDue (p : Fin 128) : Statement (.heartbeatDue p) :=
  fun _ => ⟨fun _ k => (nomatch k), fun _ k => nomatch k⟩

theorem hbLost (p : Fin 128) : Statement (.hbLost p) :=
  fun _ => ⟨fun _ k => (nomatch k), fun _ k => nomatch k⟩

theorem tNegExpiry (p : Fin 128) : Statement (.tNegExpiry p) :=
  fun _ => ⟨fun _ k => (nomatch k), fun _ k => nomatch k⟩

theorem resyncSend (p : Fin 128) : Statement (.resyncSend p) :=
  fun _ => ⟨fun _ k => (nomatch k), fun _ k => nomatch k⟩

theorem resyncDone (p : Fin 128) (dropCount : BitVec 16) : Statement (.resyncDone p dropCount) :=
  fun _ => ⟨fun _ k => (nomatch k), fun _ k => nomatch k⟩

theorem creditReturn (p : Fin 128) (entries : List (BitVec 16 × BitVec 16)) : Statement (.creditReturn p entries) :=
  fun _ => ⟨fun _ k => (nomatch k), fun _ k => nomatch k⟩

theorem grantHoldExpiry (p : Fin 128) : Statement (.grantHoldExpiry p) :=
  fun _ => ⟨fun _ k => (nomatch k), fun _ k => nomatch k⟩

theorem readLine (src : Src) (h : Hdr) : Statement (.readLine src h) :=
  fun _ => ⟨fun _ k => (nomatch k), fun _ k => nomatch k⟩

theorem writeLine (src : Src) (h : Hdr) (psn : Bool) (data : Line) : Statement (.writeLine src h psn data) :=
  fun _ => ⟨fun _ k => (nomatch k), fun _ k => nomatch k⟩

theorem writePartial (src : Src) (h : Hdr) (psn : Bool) (mask : BitVec 64) (data : Line) : Statement (.writePartial src h psn mask data) :=
  fun _ => ⟨fun _ k => (nomatch k), fun _ k => nomatch k⟩

theorem readRaw (src : Src) (h : Hdr) : Statement (.readRaw src h) :=
  fun _ => ⟨fun _ k => (nomatch k), fun _ k => nomatch k⟩

theorem writeRaw (src : Src) (h : Hdr) (side : Side) (data : Line) : Statement (.writeRaw src h side data) :=
  fun _ => ⟨fun _ k => (nomatch k), fun _ k => nomatch k⟩

theorem readTaglineRaw (src : Src) (h : Hdr) : Statement (.readTaglineRaw src h) :=
  fun _ => ⟨fun _ k => (nomatch k), fun _ k => nomatch k⟩

theorem writeTaglineRaw (src : Src) (h : Hdr) (trailer : Side) (data : Line) : Statement (.writeTaglineRaw src h trailer data) :=
  fun _ => ⟨fun _ k => (nomatch k), fun _ k => nomatch k⟩

theorem fence (src : Src) (h : Hdr) : Statement (.fence src h) :=
  fun _ => ⟨fun _ k => (nomatch k), fun _ k => nomatch k⟩

theorem fenceComplete (src : Src) (sid : BitVec 12) : Statement (.fenceComplete src sid) :=
  fun _ => ⟨fun _ k => (nomatch k), fun _ k => nomatch k⟩

theorem fgReadGrant (m : Fin 16) (f : Faults) : Statement (.fgReadGrant m f) :=
  fun h => ⟨fun _ k => (nomatch k), pipes_of_wf h⟩

theorem fgWriteGrant (m : Fin 16) (f : Faults) : Statement (.fgWriteGrant m f) :=
  fun h => ⟨fun _ k => (nomatch k), pipes_of_wf h⟩

theorem partialReadGrant (m : Fin 16) (f : Faults) : Statement (.partialReadGrant m f) :=
  fun h => ⟨fun _ k => (nomatch k), pipes_of_wf h⟩

theorem partialWriteGrant (m : Fin 16) (f : Faults) : Statement (.partialWriteGrant m f) :=
  fun h => ⟨fun _ k => (nomatch k), pipes_of_wf h⟩

theorem taglineFetch (m : Fin 16) (f : Faults) : Statement (.taglineFetch m f) :=
  fun h => ⟨fun _ k => (nomatch k), pipes_of_wf h⟩

theorem tagWriteback (m : Fin 16) (f : Faults) : Statement (.tagWriteback m f) :=
  fun h => ⟨fun _ k => (nomatch k), pipes_of_wf h⟩

theorem sidecarProbe (m : Fin 16) : Statement (.sidecarProbe m) :=
  fun _ => ⟨fun _ k => (nomatch k), fun _ k => nomatch k⟩

theorem lookaheadProbe (m : Fin 16) : Statement (.lookaheadProbe m) :=
  fun _ => ⟨fun _ k => (nomatch k), fun _ k => nomatch k⟩

theorem prefillProbe (m : Fin 16) : Statement (.prefillProbe m) :=
  fun _ => ⟨fun _ k => (nomatch k), fun _ k => nomatch k⟩

theorem rekeyTake (c : Fin 64) : Statement (.rekeyTake c) :=
  fun _ => ⟨fun _ k => (nomatch k), fun _ k => nomatch k⟩

theorem rekeyStep (m : Fin 16) (f : Faults) : Statement (.rekeyStep m f) :=
  fun h => ⟨fun _ k => (nomatch k), pipes_of_wf h⟩

theorem rekeyStepWrite (m : Fin 16) (f : Faults) : Statement (.rekeyStepWrite m f) :=
  fun h => ⟨fun _ k => (nomatch k), pipes_of_wf h⟩

theorem rekeyPassStart (c : Fin 64) : Statement (.rekeyPassStart c) :=
  fun _ => ⟨fun _ k => (nomatch k), fun _ k => nomatch k⟩

theorem rekeyComplete (c : Fin 64) : Statement (.rekeyComplete c) :=
  fun _ => ⟨fun _ k => (nomatch k), fun _ k => nomatch k⟩

theorem formatComplete (c : Fin 64) : Statement (.formatComplete c) :=
  fun _ => ⟨fun _ k => (nomatch k), fun _ k => nomatch k⟩

theorem purgeComplete (c : Fin 64) : Statement (.purgeComplete c) :=
  fun _ => ⟨fun _ k => (nomatch k), fun _ k => nomatch k⟩

theorem vote (sl : Fin 17) (dir : Dir) (f : Faults) : Statement (.vote sl dir f) :=
  fun h => ⟨fun _ k => (nomatch k), pipes_of_wf h⟩

theorem schkRecompute (sl : Fin 17) (f : Faults) : Statement (.schkRecompute sl f) :=
  fun h => ⟨fun _ k => (nomatch k), pipes_of_wf h⟩

theorem rowRepair (m : Fin 16) : Statement (.rowRepair m) :=
  fun _ => ⟨fun _ k => (nomatch k), fun _ k => nomatch k⟩

theorem flushPersist (m : Fin 16) : Statement (.flushPersist m) :=
  fun _ => ⟨fun _ k => (nomatch k), fun _ k => nomatch k⟩

theorem mediaHandshake (m : Fin 16) (dir : Dir) (opId : BitVec 12) : Statement (.mediaHandshake m dir opId) :=
  fun _ => ⟨fun _ k => (nomatch k), fun _ k => nomatch k⟩

theorem transferError (m : Fin 16) : Statement (.transferError m) :=
  fun _ => ⟨fun _ k => (nomatch k), fun _ k => nomatch k⟩

theorem accepted (m : Fin 16) : Statement (.accepted m) :=
  fun _ => ⟨fun _ k => (nomatch k), fun _ k => nomatch k⟩

theorem persisted (m : Fin 16) (opId : BitVec 12) : Statement (.persisted m opId) :=
  fun _ => ⟨fun _ k => (nomatch k), fun _ k => nomatch k⟩

theorem lineArrival (m : Fin 16) (opId : BitVec 11) (stat : BitVec 2) (data : BitVec 576) (wpar : BitVec 16) (f : Faults) : Statement (.lineArrival m opId stat data wpar f) :=
  fun h => ⟨fun _ k => (nomatch k), pipes_of_wf h⟩

theorem sidecarArrival (m : Fin 16) (opId : BitVec 11) (stat : BitVec 2) (data : BitVec 576) (wpar : BitVec 16) (f : Faults) : Statement (.sidecarArrival m opId stat data wpar f) :=
  fun h => ⟨fun _ k => (nomatch k), pipes_of_wf h⟩

theorem taglineArrival (m : Fin 16) (opId : BitVec 11) (stat : BitVec 2) (data : BitVec 576) (wpar : BitVec 16) : Statement (.taglineArrival m opId stat data wpar) :=
  fun _ => ⟨fun _ k => (nomatch k), fun _ k => nomatch k⟩

theorem readTimeout (m : Fin 16) (opId : BitVec 11) : Statement (.readTimeout m opId) :=
  fun _ => ⟨fun _ k => (nomatch k), fun _ k => nomatch k⟩

theorem persistTimeout (m : Fin 16) (opId : BitVec 12) : Statement (.persistTimeout m opId) :=
  fun _ => ⟨fun _ k => (nomatch k), fun _ k => nomatch k⟩

theorem mpStall (m : Fin 16) (dir : Dir) (cycles : BitVec 32) : Statement (.mpStall m dir cycles) :=
  fun _ => ⟨fun _ k => (nomatch k), fun _ k => nomatch k⟩

theorem poolSweepPass (ptr : List (Nat × Fin 5)) (freed held : Nat) (hdr : List (Nat × BitVec 144)) : Statement (.poolSweepPass ptr freed held hdr) :=
  fun _ => ⟨fun _ k => (nomatch k), fun _ k => nomatch k⟩

theorem nvPageDone (err : Bool) : Statement (.nvPageDone err) :=
  fun _ => ⟨fun _ k => (nomatch k), fun _ k => nomatch k⟩

theorem nvReadDone (err : Bool) (page : BitVec 512) : Statement (.nvReadDone err page) :=
  fun _ => ⟨fun _ k => (nomatch k), fun _ k => nomatch k⟩

theorem recorderAccept : Statement (.recorderAccept) :=
  fun _ => ⟨fun _ k => (nomatch k), fun _ k => nomatch k⟩

theorem eventMessage (k : Fin 8) : Statement (.eventMessage k) :=
  fun _ => ⟨fun _ k => (nomatch k), fun _ k => nomatch k⟩

theorem recorderClearAck : Statement (.recorderClearAck) :=
  fun _ => ⟨fun _ k => (nomatch k), fun _ k => nomatch k⟩

theorem recOnlineChange (online : Bool) : Statement (.recOnlineChange online) :=
  fun _ => ⟨fun _ k => (nomatch k), fun _ k => nomatch k⟩

theorem read (h : MsgHdr) (body : List Byte) : Statement (.read h body) :=
  fun _ => ⟨fun _ k => (nomatch k), fun _ k => nomatch k⟩

theorem write (h : MsgHdr) (body : List Byte) : Statement (.write h body) :=
  fun _ => ⟨fun _ k => (nomatch k), fun _ k => nomatch k⟩

theorem readRow (h : MsgHdr) (body : List Byte) : Statement (.readRow h body) :=
  fun _ => ⟨fun _ k => (nomatch k), fun _ k => nomatch k⟩

theorem writeRow (h : MsgHdr) (body : List Byte) : Statement (.writeRow h body) :=
  fun _ => ⟨fun _ k => (nomatch k), fun _ k => nomatch k⟩

theorem commit (h : MsgHdr) (body : List Byte) : Statement (.commit h body) :=
  fun _ => ⟨fun _ k => (nomatch k), fun _ k => nomatch k⟩

theorem abort (h : MsgHdr) (body : List Byte) : Statement (.abort h body) :=
  fun _ => ⟨fun _ k => (nomatch k), fun _ k => nomatch k⟩

theorem subscribe (h : MsgHdr) (body : List Byte) : Statement (.subscribe h body) :=
  fun _ => ⟨fun _ k => (nomatch k), fun _ k => nomatch k⟩

theorem loadKek (k : KpCmd) : Statement (.loadKek k) :=
  fun _ => ⟨fun _ k => (nomatch k), fun _ k => nomatch k⟩

theorem loadKey (k : KpCmd) : Statement (.loadKey k) :=
  fun _ => ⟨fun _ k => (nomatch k), fun _ k => nomatch k⟩

theorem loadMgmtKey (k : KpCmd) : Statement (.loadMgmtKey k) :=
  fun _ => ⟨fun _ k => (nomatch k), fun _ k => nomatch k⟩

theorem eraseSlot (k : KpCmd) : Statement (.eraseSlot k) :=
  fun _ => ⟨fun _ k => (nomatch k), fun _ k => nomatch k⟩

theorem queryKcv (k : KpCmd) : Statement (.queryKcv k) :=
  fun _ => ⟨fun _ k => (nomatch k), fun _ k => nomatch k⟩

theorem windowWrite (a : WinAcc) (value : BitVec 32) : Statement (.windowWrite a value) :=
  fun _ => ⟨fun _ k => (nomatch k), fun _ k => nomatch k⟩

theorem wideValueRead (a : WinAcc) : Statement (.wideValueRead a) :=
  fun _ => ⟨fun _ k => (nomatch k), fun _ k => nomatch k⟩

theorem rwsWrite (a : WinAcc) (value : BitVec 32) : Statement (.rwsWrite a value) :=
  fun _ => ⟨fun _ k => (nomatch k), fun _ k => nomatch k⟩

theorem commitReq (dbg : Bool) (target : BitVec 64) : Statement (.commitReq dbg target) :=
  fun _ => ⟨fun _ k => (nomatch k), fun _ k => nomatch k⟩

theorem abortReq (dbg : Bool) (value : Bool) : Statement (.abortReq dbg value) :=
  fun _ => ⟨fun _ k => (nomatch k), fun _ k => nomatch k⟩

theorem activate (dbg : Bool) (kidx : BitVec 15) : Statement (.activate dbg kidx) :=
  fun _ => ⟨fun _ k => (nomatch k), fun _ k => nomatch k⟩

theorem discard (dbg : Bool) (kidx : BitVec 15) : Statement (.discard dbg kidx) :=
  fun _ => ⟨fun _ k => (nomatch k), fun _ k => nomatch k⟩

theorem retire (dbg : Bool) (kidx : BitVec 15) : Statement (.retire dbg kidx) :=
  fun _ => ⟨fun _ k => (nomatch k), fun _ k => nomatch k⟩

theorem rekeyReq (dbg : Bool) (kidx : BitVec 15) (value : Byte) : Statement (.rekeyReq dbg kidx value) :=
  fun _ => ⟨fun _ k => (nomatch k), fun _ k => nomatch k⟩

theorem tagCacheFlush (dbg : Bool) (value : Bool) : Statement (.tagCacheFlush dbg value) :=
  fun _ => ⟨fun _ k => (nomatch k), fun _ k => nomatch k⟩

theorem jackPrefill (dbg : Bool) (value : Bool) : Statement (.jackPrefill dbg value) :=
  fun _ => ⟨fun _ k => (nomatch k), fun _ k => nomatch k⟩

theorem jackInvalidate (dbg : Bool) (value : Bool) : Statement (.jackInvalidate dbg value) :=
  fun _ => ⟨fun _ k => (nomatch k), fun _ k => nomatch k⟩

theorem linkReset (dbg : Bool) (p : Fin 128) (value : Bool) : Statement (.linkReset dbg p value) :=
  fun _ => ⟨fun _ k => (nomatch k), fun _ k => nomatch k⟩

theorem mpFlush (dbg : Bool) (m : Fin 16) (value : Bool) : Statement (.mpFlush dbg m value) :=
  fun _ => ⟨fun _ k => (nomatch k), fun _ k => nomatch k⟩

theorem masterReset (dbg : Bool) (value : Byte) : Statement (.masterReset dbg value) :=
  fun _ => ⟨fun _ k => (nomatch k), fun _ k => nomatch k⟩

theorem recorderClear (h : MsgHdr) (value : Bool) : Statement (.recorderClear h value) :=
  fun _ => ⟨fun _ k => (nomatch k), fun _ k => nomatch k⟩

theorem alertAck (dbg : Bool) (value : Byte) : Statement (.alertAck dbg value) :=
  fun _ => ⟨fun _ k => (nomatch k), fun _ k => nomatch k⟩

theorem iqFlush (dbg : Bool) (m : Fin 16) (value : Byte) : Statement (.iqFlush dbg m value) :=
  fun _ => ⟨fun _ k => (nomatch k), fun _ k => nomatch k⟩

theorem rxReservedType (p : Fin 128) (errs : List Nat) (lcw : BitVec 64) : Statement (.rxReservedType p errs lcw) :=
  fun h => ⟨bytes_of_wf h, fun _ k => nomatch k⟩

theorem zeroizeShortPulse : Statement (.zeroizeShortPulse) :=
  fun _ => ⟨fun _ k => (nomatch k), fun _ k => nomatch k⟩

theorem pwrWarnShortPulse (samples : BitVec 32) : Statement (.pwrWarnShortPulse samples) :=
  fun _ => ⟨fun _ k => (nomatch k), fun _ k => nomatch k⟩

end Sys2Proof.Laws.Bounded
end

