-- ==== Sys2Proof/Laws/Settled.lean ====
section
/-! SUPPORT. What only the dictionary's writes and the commit unit write: the staging set and the commit unit's state. One
lemma an operation that leaves them alone, in the order of the definitions. -/

namespace Sys2Proof.Machine

set_option linter.all false

/-- The staging set and the commit unit. -/
def State.settled (s : State) : Tab Nat × Commit := (s.staged, s.commit)

theorem settled_eta (s : State) : (s.staged, s.commit) = s.settled := rfl

theorem settled_mk (a1 : Nat) (p : List Instr) (a3 : Clk) (a4 : Pins) (a5 a6 a7 : Tab Nat) (a8 a9 : WinClass)
    (a10 : Option WinOut) (a11 : Commit) (a12 : Tab Session) (a13 : List MsgOut) (a14 : EvUnit) (a15 : KeyStore)
    (n : List Host.Cell) (a17 : NvUnit) (a18 : Pwr) (a19 : Rekey) (a20 : Pool) (a21 : Tab Media) (a22 : Nat) (a23 : Jack)
    (a24 : TagCache) (a25 : Tab LinkSt) (a26 a27 : Tab Acct) (a28 : Tab Nat) (a29 : Repair) :
    State.settled ⟨a1, p, a3, a4, a5, a6, a7, a8, a9, a10, a11, a12, a13, a14, a15, n, a17, a18, a19, a20, a21, a22, a23, a24,
      a25, a26, a27, a28, a29⟩ = (a6, a11) := rfl

theorem foldl_settled {α : Type} (f : State → α → State) (h : ∀ s x, (f s x).settled = s.settled) (l : List α) (s : State) :
    (l.foldl f s).settled = s.settled := by
  induction l generalizing s with
  | nil => rfl
  | cons x t ih => simp only [List.foldl_cons, ih, h]

theorem takeFree_settled (s : State) :
    (takeFree s).2.settled = s.settled := by
  unfold takeFree
  simp only [settled_mk, settled_eta]

theorem takeFree_settled_of {s : State} {pp} (h : takeFree s = pp) : pp.2.settled = s.settled := h ▸ takeFree_settled s

theorem cfgPut_settled (idx sub row v : Nat) (s : State) :
    (cfgPut idx sub row v s).settled = s.settled := by
  unfold cfgPut
  simp only [settled_mk, settled_eta]

theorem regPut_settled (idx sub row v : Nat) (s : State) :
    (regPut idx sub row v s).settled = s.settled := by
  unfold regPut
  simp only [settled_mk, settled_eta]

theorem countUp_settled (idx sub row n : Nat) (s : State) :
    (countUp idx sub row n s).settled = s.settled := by
  unfold countUp
  simp only [settled_mk, settled_eta, regPut_settled]

theorem count1_settled (idx sub row : Nat) (s : State) :
    (count1 idx sub row s).settled = s.settled := by
  unfold count1
  simp only [settled_mk, settled_eta, countUp_settled]

theorem alertSet_settled (route sev : Nat) (s : State) :
    (alertSet route sev s).settled = s.settled := by
  unfold alertSet
  (try dsimp only); (repeat' split) <;> simp only [settled_mk, settled_eta, regPut_settled]

theorem srcNote_settled (src code sev : Nat) (reportable : Bool) (s : State) :
    (srcNote src code sev reportable s).settled = s.settled := by
  unfold srcNote
  simp only [settled_mk, settled_eta, count1_settled, regPut_settled]

theorem raiseSev_settled (e : Ev) (sev src p1 p2 p3 : Nat) (s : State) :
    (raiseSev e sev src p1 p2 p3 s).settled = s.settled := by
  unfold raiseSev
  simp only [settled_mk, settled_eta, apply_ite State.settled, ite_self, srcNote_settled, alertSet_settled]

theorem raise_settled (e : Ev) (src p1 p2 p3 : Nat) (s : State) :
    (raise e src p1 p2 p3 s).settled = s.settled := by
  unfold raise
  simp only [settled_mk, settled_eta, raiseSev_settled]

theorem sumFlush_settled (s : State) (e : Nat × FrameSum) :
    (sumFlush s e).settled = s.settled := by
  unfold sumFlush
  (try dsimp only); (repeat' split) <;> simp only [settled_mk, settled_eta, raise_settled]

theorem sumAmend_settled (s : State) (e : Nat × FrameSum) :
    (sumAmend s e).settled = s.settled := by
  unfold sumAmend
  first
  | with_reducible rfl
  | ((try dsimp only); repeat' split) <;> (first | (with_reducible rfl) | (simp only [settled_mk, settled_eta, apply_ite State.settled, ite_self]; done) | (simp only [settled_mk, settled_eta, apply_ite State.settled, ite_self, foldl_settled, implies_true]; done) | (simp_all only [settled_mk, settled_eta, apply_ite State.settled, ite_self, foldl_settled, implies_true]; done))

theorem sumSet_settled (k : Nat) (f : FrameSum) (s : State) :
    (sumSet k f s).settled = s.settled := by
  unfold sumSet
  first
  | with_reducible rfl
  | ((try dsimp only); repeat' split) <;> (first | (with_reducible rfl) | (simp only [settled_mk, settled_eta, apply_ite State.settled, ite_self, sumAmend_settled, sumFlush_settled]; done) | (simp only [settled_mk, settled_eta, apply_ite State.settled, ite_self, foldl_settled, implies_true, sumAmend_settled, sumFlush_settled]; done) | (simp_all only [settled_mk, settled_eta, apply_ite State.settled, ite_self, foldl_settled, implies_true, sumAmend_settled, sumFlush_settled]; done))

theorem sumUp_settled (e : Ev) (src a b c : Nat) (s : State) :
    (sumUp e src a b c s).settled = s.settled := by
  unfold sumUp
  simp only [settled_mk, settled_eta, sumSet_settled]

theorem ctlSend_settled (code : Nat) (p1 p2 p3 : BitVec 32) (s : State) :
    (ctlSend code p1 p2 p3 s).settled = s.settled := by
  unfold ctlSend
  simp only [settled_mk, settled_eta, apply_ite State.settled, ite_self]

theorem modeSend_settled (s : State) :
    (modeSend s).settled = s.settled := by
  unfold modeSend
  simp only [settled_mk, settled_eta, ctlSend_settled]

theorem ctlAdmit_settled (n : Nat) (s : State) : (ctlAdmit n s).settled = s.settled := by
  induction n generalizing s with
  | zero => rfl
  | succ n ih =>
    unfold ctlAdmit
    (repeat' split) <;> simp only [ih, settled_mk, settled_eta]

theorem backlogPut_settled (r : EvRec) (s : State) :
    (backlogPut r s).settled = s.settled := by
  unfold backlogPut
  simp only [settled_mk, settled_eta, apply_ite State.settled, ite_self, count1_settled]

theorem recForm_settled (frame : Nat) (s : State) (e : Nat × EvAcc) :
    (recForm frame s e).settled = s.settled := by
  unfold recForm
  simp only [settled_mk, settled_eta, apply_ite State.settled, ite_self, backlogPut_settled]

theorem evClose_settled (frame : Nat) (s : State) :
    (evClose frame s).settled = s.settled := by
  unfold evClose
  (try dsimp only); (repeat' split) <;>
    simp only [settled_mk, settled_eta, apply_ite State.settled, ite_self, foldl_settled, implies_true, recForm_settled]

theorem sumsFlush_settled (s : State) :
    (sumsFlush s).settled = s.settled := by
  unfold sumsFlush
  (try dsimp only); (repeat' split) <;>
    simp only [settled_mk, settled_eta, apply_ite State.settled, ite_self, foldl_settled, implies_true, sumFlush_settled]

theorem sumsRestart_settled (s : State) :
    (sumsRestart s).settled = s.settled := by
  unfold sumsRestart
  first
  | with_reducible rfl
  | ((try dsimp only); repeat' split) <;> (first | (with_reducible rfl) | (simp only [settled_mk, settled_eta, apply_ite State.settled, ite_self]; done) | (simp only [settled_mk, settled_eta, apply_ite State.settled, ite_self, foldl_settled, implies_true]; done) | (simp_all only [settled_mk, settled_eta, apply_ite State.settled, ite_self, foldl_settled, implies_true]; done))

theorem subFlush_settled (s : State) (e : Nat × Subscr) :
    (subFlush s e).settled = s.settled := by
  unfold subFlush
  simp only [settled_mk, settled_eta, apply_ite State.settled, ite_self, raise_settled]

theorem lostFlush_settled (s : State) :
    (lostFlush s).settled = s.settled := by
  unfold lostFlush
  (try dsimp only); (repeat' split) <;> simp only [settled_mk, settled_eta, raise_settled]

theorem evFrameEnd_settled (s : State) :
    (evFrameEnd s).settled = s.settled := by
  unfold evFrameEnd
  (try dsimp only); (repeat' split) <;>
    simp only [settled_mk, settled_eta, apply_ite State.settled, ite_self, foldl_settled, implies_true, sumsFlush_settled, subFlush_settled, lostFlush_settled]

theorem warnGlitchReport_settled (s : State) :
    (warnGlitchReport s).settled = s.settled := by
  unfold warnGlitchReport
  (try dsimp only); (repeat' split) <;> simp only [settled_mk, settled_eta, raise_settled]

theorem doRecorderAccept_settled (s : State) :
    (doRecorderAccept s).settled = s.settled := by
  unfold doRecorderAccept
  (try dsimp only); (repeat' split) <;> simp only [settled_mk, settled_eta, count1_settled, ctlAdmit_settled]

theorem recorderClear_settled (mki : Nat) (s : State) :
    (recorderClear mki s).settled = s.settled := by
  unfold recorderClear
  (try dsimp only); (repeat' split) <;> simp only [settled_mk, settled_eta, ctlSend_settled]

theorem doRecorderClearAck_settled (s : State) :
    (doRecorderClearAck s).settled = s.settled := by
  unfold doRecorderClearAck
  (try dsimp only); (repeat' split) <;> simp only [settled_mk, settled_eta, raise_settled]

theorem doRecOnlineChange_settled (online : Bool) (s : State) :
    (doRecOnlineChange online s).settled = s.settled := by
  unfold doRecOnlineChange
  simp only [settled_mk, settled_eta, apply_ite State.settled, ite_self, regPut_settled, modeSend_settled]

theorem slotPut_settled (kidx : Nat) (x : Slot) (s : State) :
    (slotPut kidx x s).settled = s.settled := by
  unfold slotPut
  simp only [settled_mk, settled_eta]

theorem ctxPut_settled (c : Nat) (x : Ctx) (s : State) :
    (ctxPut c x s).settled = s.settled := by
  unfold ctxPut
  simp only [settled_mk, settled_eta]

theorem nvNote_settled (a cause : Nat) (s : State) :
    (nvNote a cause s).settled = s.settled := by
  unfold nvNote
  simp only [settled_mk, settled_eta, raise_settled, countUp_settled]

theorem selNote_settled (r : Option Nat × Bool) (s : State) :
    (selNote r s).settled = s.settled := by
  unfold selNote
  first
  | with_reducible rfl
  | ((try dsimp only); repeat' split) <;> (first | (with_reducible rfl) | (simp only [settled_mk, settled_eta, apply_ite State.settled, ite_self, nvNote_settled]; done) | (simp only [settled_mk, settled_eta, apply_ite State.settled, ite_self, foldl_settled, implies_true, nvNote_settled]; done) | (simp_all only [settled_mk, settled_eta, apply_ite State.settled, ite_self, foldl_settled, implies_true, nvNote_settled]; done))

theorem jobNote_settled (s : State) (j : NvJob) :
    (jobNote s j).settled = s.settled := by
  unfold jobNote
  first
  | with_reducible rfl
  | ((try dsimp only); repeat' split) <;> (first | (with_reducible rfl) | (simp only [settled_mk, settled_eta, apply_ite State.settled, ite_self, selNote_settled]; done) | (simp only [settled_mk, settled_eta, apply_ite State.settled, ite_self, foldl_settled, implies_true, selNote_settled]; done) | (simp_all only [settled_mk, settled_eta, apply_ite State.settled, ite_self, foldl_settled, implies_true, selNote_settled]; done))

theorem nvKick_settled (s : State) :
    (nvKick s).settled = s.settled := by
  unfold nvKick
  first
  | with_reducible rfl
  | ((try dsimp only); repeat' split) <;> (first | (with_reducible rfl) | (simp only [settled_mk, settled_eta, apply_ite State.settled, ite_self, jobNote_settled]; done) | (simp only [settled_mk, settled_eta, apply_ite State.settled, ite_self, foldl_settled, implies_true, jobNote_settled]; done) | (simp_all only [settled_mk, settled_eta, apply_ite State.settled, ite_self, foldl_settled, implies_true, jobNote_settled]; done))

theorem nvPush_settled (j : NvJob) (s : State) :
    (nvPush j s).settled = s.settled := by
  unfold nvPush
  simp only [settled_mk, settled_eta, apply_ite State.settled, ite_self, nvKick_settled]

theorem imageDrop_settled (s : State) :
    (imageDrop s).settled = s.settled := by
  unfold imageDrop
  simp only [settled_mk, settled_eta]

theorem imageStart_settled (s : State) :
    (imageStart s).settled = s.settled := by
  unfold imageStart
  (try dsimp only); (repeat' split) <;> simp only [settled_mk, settled_eta, selNote_settled, imageDrop_settled, nvKick_settled]

theorem imageCatch_settled (s : State) :
    (imageCatch s).settled = s.settled := by
  unfold imageCatch
  simp only [settled_mk, settled_eta, apply_ite State.settled, ite_self, imageStart_settled]

theorem nvConfirm_settled (act : NvAct) (s : State) :
    (nvConfirm act s).settled = s.settled := by
  unfold nvConfirm
  (try dsimp only); (repeat' split) <;> simp only [settled_mk, settled_eta, ctxPut_settled, imageCatch_settled]

theorem nvJobDone_settled (s : State) (j : NvJob) :
    (nvJobDone s j).settled = s.settled := by
  unfold nvJobDone
  (try dsimp only); (repeat' split) <;> simp only [settled_mk, settled_eta, regPut_settled, nvConfirm_settled]

theorem nvRetry_settled (p : NvPage) (s : State) :
    (nvRetry p s).settled = s.settled := by
  unfold nvRetry
  simp only [settled_mk, settled_eta, apply_ite State.settled, ite_self, count1_settled, raise_settled, regPut_settled, nvKick_settled]

theorem doNvPageDone_settled (err : Bool) (s : State) :
    (doNvPageDone err s).settled = s.settled := by
  unfold doNvPageDone
  (try dsimp only); (repeat' split) <;> simp only [settled_mk, settled_eta, takeFree_settled, nvRetry_settled, count1_settled]

theorem grantReset_settled (kidx : Nat) (s : State) :
    (grantReset kidx s).settled = s.settled := by
  unfold grantReset
  (try dsimp only); (repeat' split) <;>
    simp only [settled_mk, settled_eta, apply_ite State.settled, ite_self, foldl_settled, implies_true, cfgPut_settled]

theorem slotErase_settled (kidx : Nat) (s : State) :
    (slotErase kidx s).settled = s.settled := by
  unfold slotErase
  (try dsimp only); (repeat' split) <;> simp only [settled_mk, settled_eta, grantReset_settled, slotPut_settled]

theorem slotZeroize_settled (kidx : Nat) (s : State) :
    (slotZeroize kidx s).settled = s.settled := by
  unfold slotZeroize
  first
  | with_reducible rfl
  | ((try dsimp only); repeat' split) <;> (first | (with_reducible rfl) | (simp only [settled_mk, settled_eta, apply_ite State.settled, ite_self, slotPut_settled, slotErase_settled]; done) | (simp only [settled_mk, settled_eta, apply_ite State.settled, ite_self, foldl_settled, implies_true, slotPut_settled, slotErase_settled]; done) | (simp_all only [settled_mk, settled_eta, apply_ite State.settled, ite_self, foldl_settled, implies_true, slotPut_settled, slotErase_settled]; done))

theorem rkEnqueue_settled (kidx cause : Nat) (s : State) :
    (rkEnqueue kidx cause s).settled = s.settled := by
  unfold rkEnqueue
  simp only [settled_mk, settled_eta, apply_ite State.settled, ite_self]

theorem rkDequeue_settled (kidx cause : Nat) (s : State) :
    (rkDequeue kidx cause s).settled = s.settled := by
  unfold rkDequeue
  simp only [settled_mk, settled_eta]

theorem rkClearQueue_settled (kidx : Nat) (s : State) :
    (rkClearQueue kidx s).settled = s.settled := by
  unfold rkClearQueue
  simp only [settled_mk, settled_eta]

theorem kpRespond_settled (opc : Byte) (k : KpCmd) (res : Byte) (v : BitVec 24) (s : State) :
    (kpRespond opc k res v s).settled = s.settled := by
  unfold kpRespond
  simp only [settled_mk, settled_eta]

theorem kpRefuse_settled (opc : Byte) (k : KpCmd) (res : Byte) (s : State) :
    (kpRefuse opc k res s).settled = s.settled := by
  unfold kpRefuse
  simp only [settled_mk, settled_eta, kpRespond_settled, count1_settled, raise_settled]

theorem kpDone_settled (opc : Byte) (k : KpCmd) (v : BitVec 24) (s0 s : State) :
    (kpDone opc k v s0 s).settled = s.settled := by
  unfold kpDone
  simp only [settled_mk, settled_eta, count1_settled, kpRespond_settled]

theorem kpEarlyDo_settled (opc : Byte) (k : KpCmd) (res : Byte) (s : State) :
    (kpEarlyDo opc k res s).settled = s.settled := by
  unfold kpEarlyDo
  simp only [settled_mk, settled_eta, apply_ite State.settled, ite_self, kpRespond_settled, kpRefuse_settled]

theorem doLoadKek_settled (k : KpCmd) (s : State) :
    (doLoadKek k s).settled = s.settled := by
  unfold doLoadKek
  (try dsimp only); (repeat' split) <;> simp only [settled_mk, settled_eta, kpEarlyDo_settled, kpRefuse_settled, kpDone_settled]

theorem doLoadMgmtKey_settled (k : KpCmd) (s : State) :
    (doLoadMgmtKey k s).settled = s.settled := by
  unfold doLoadMgmtKey
  (try dsimp only); (repeat' split) <;> simp only [settled_mk, settled_eta, kpEarlyDo_settled, kpRefuse_settled, kpDone_settled]

theorem keyInstall_settled (adm : KeyAdmit) (kidx : Nat) (toB : Bool) (key : Key) (s : State) :
    (keyInstall adm kidx toB key s).settled = s.settled := by
  unfold keyInstall
  (try dsimp only); (repeat' split) <;> simp only [settled_mk, settled_eta, slotPut_settled, nvPush_settled]

theorem doLoadKey_settled (k : KpCmd) (s : State) :
    (doLoadKey k s).settled = s.settled := by
  unfold doLoadKey
  (try dsimp only); (repeat' split) <;> simp only [settled_mk, settled_eta, kpEarlyDo_settled, kpRefuse_settled, kpDone_settled, keyInstall_settled]

theorem doEraseSlot_settled (k : KpCmd) (s : State) :
    (doEraseSlot k s).settled = s.settled := by
  unfold doEraseSlot
  (try dsimp only); (repeat' split) <;> simp only [settled_mk, settled_eta, kpEarlyDo_settled, kpDone_settled, slotErase_settled]

theorem doQueryKcv_settled (k : KpCmd) (s : State) :
    (doQueryKcv k s).settled = s.settled := by
  unfold doQueryKcv
  (try dsimp only); (repeat' split) <;> simp only [settled_mk, settled_eta, kpEarlyDo_settled, kpRefuse_settled, kpDone_settled]

theorem slotActivate_settled (kidx : Nat) (s : State) :
    (slotActivate kidx s).settled = s.settled := by
  unfold slotActivate
  simp only [settled_mk, settled_eta, apply_ite State.settled, ite_self, nvPush_settled]

theorem slotDiscard_settled (kidx : Nat) (s : State) :
    (slotDiscard kidx s).settled = s.settled := by
  unfold slotDiscard
  simp only [settled_mk, settled_eta, slotPut_settled, grantReset_settled]

theorem slotRetire_settled (kidx : Nat) (s : State) :
    (slotRetire kidx s).settled = s.settled := by
  unfold slotRetire
  simp only [settled_mk, settled_eta, nvPush_settled]

theorem slotSpent_settled (kidx : Nat) (s : State) :
    (slotSpent kidx s).settled = s.settled := by
  unfold slotSpent
  simp only [settled_mk, settled_eta, nvPush_settled]

theorem nvForget_settled (a : NvAct) (s : State) :
    (nvForget a s).settled = s.settled := by
  unfold nvForget
  first
  | with_reducible rfl
  | ((try dsimp only); repeat' split) <;> (first | (with_reducible rfl) | (simp only [settled_mk, settled_eta, apply_ite State.settled, ite_self]; done) | (simp only [settled_mk, settled_eta, apply_ite State.settled, ite_self, foldl_settled, implies_true]; done) | (simp_all only [settled_mk, settled_eta, apply_ite State.settled, ite_self, foldl_settled, implies_true]; done))

theorem kpUndo_settled (opc : Nat) (l : KpLast) (s : State) :
    (kpUndo opc l s).settled = s.settled := by
  unfold kpUndo
  first
  | with_reducible rfl
  | ((try dsimp only); repeat' split) <;> (first | (with_reducible rfl) | (simp only [settled_mk, settled_eta, apply_ite State.settled, ite_self, slotPut_settled, nvForget_settled]; done) | (simp only [settled_mk, settled_eta, apply_ite State.settled, ite_self, foldl_settled, implies_true, slotPut_settled, nvForget_settled]; done) | (simp_all only [settled_mk, settled_eta, apply_ite State.settled, ite_self, foldl_settled, implies_true, slotPut_settled, nvForget_settled]; done))

theorem kpAbort_settled (s : State) :
    (kpAbort s).settled = s.settled := by
  unfold kpAbort
  first
  | with_reducible rfl
  | ((try dsimp only); repeat' split) <;> (first | (with_reducible rfl) | (simp only [settled_mk, settled_eta, apply_ite State.settled, ite_self, kpRefuse_settled, regPut_settled, kpUndo_settled]; done) | (simp only [settled_mk, settled_eta, apply_ite State.settled, ite_self, foldl_settled, implies_true, kpRefuse_settled, regPut_settled, kpUndo_settled]; done) | (simp_all only [settled_mk, settled_eta, apply_ite State.settled, ite_self, foldl_settled, implies_true, kpRefuse_settled, regPut_settled, kpUndo_settled]; done))

theorem linkPut_settled (p : Nat) (x : LinkSt) (s : State) :
    (linkPut p x s).settled = s.settled := by
  unfold linkPut
  simp only [settled_mk, settled_eta]

theorem linkMod_settled (p : Nat) (f : LinkSt → LinkSt) (s : State) :
    (linkMod p f s).settled = s.settled := by
  unfold linkMod
  simp only [settled_mk, settled_eta, linkPut_settled]

theorem creditRaise_settled (k : Nat) (s : State) :
    (creditRaise k s).settled = s.settled := by
  unfold creditRaise
  (try dsimp only); (repeat' split) <;> simp only [settled_mk, settled_eta]

theorem eqPut_settled (p : Nat) (l : List Rsp) (s : State) :
    (eqPut p l s).settled = s.settled := by
  unfold eqPut
  simp only [settled_mk, settled_eta]

theorem partnerLink_settled (p : Nat) (r : Rsp) (s : State) :
    (partnerLink p r s).settled = s.settled := by
  unfold partnerLink
  first
  | with_reducible rfl
  | ((try dsimp only); repeat' split) <;> (first | (with_reducible rfl) | (simp only [settled_mk, settled_eta, apply_ite State.settled, ite_self, eqPut_settled]; done) | (simp only [settled_mk, settled_eta, apply_ite State.settled, ite_self, foldl_settled, implies_true, eqPut_settled]; done) | (simp_all only [settled_mk, settled_eta, apply_ite State.settled, ite_self, foldl_settled, implies_true, eqPut_settled]; done))

theorem partnerPush_settled (p : Nat) (r : Rsp) (s : State) :
    (partnerPush p r s).settled = s.settled := by
  unfold partnerPush
  first
  | with_reducible rfl
  | ((try dsimp only); repeat' split) <;> (first | (with_reducible rfl) | (simp only [settled_mk, settled_eta, apply_ite State.settled, ite_self, partnerLink_settled, linkMod_settled]; done) | (simp only [settled_mk, settled_eta, apply_ite State.settled, ite_self, foldl_settled, implies_true, partnerLink_settled, linkMod_settled]; done) | (simp_all only [settled_mk, settled_eta, apply_ite State.settled, ite_self, foldl_settled, implies_true, partnerLink_settled, linkMod_settled]; done))

theorem partnerFeed_settled (n p : Nat) (s : State) : (partnerFeed n p s).settled = s.settled := by
  induction n generalizing s with
  | zero => rfl
  | succ n ih =>
    unfold partnerFeed
    (repeat' split) <;> simp only [ih, partnerLink_settled, linkMod_settled]

theorem grantSend_settled (n p : Nat) (ks : List Nat) (s : State) : (grantSend n p ks s).settled = s.settled := by
  induction n generalizing ks s with
  | zero => rfl
  | succ n ih =>
    unfold grantSend
    split
    · rfl
    · simp only [ih, partnerPush_settled, settled_mk, settled_eta]

theorem grantBatch_settled (p : Nat) (s : State) :
    (grantBatch p s).settled = s.settled := by
  unfold grantBatch
  simp only [settled_mk, settled_eta, apply_ite State.settled, ite_self, grantSend_settled]

theorem creditRaiseAll_settled (s : State) :
    (creditRaiseAll s).settled = s.settled := by
  unfold creditRaiseAll
  (try dsimp only); (repeat' split) <;>
    simp only [settled_mk, settled_eta, apply_ite State.settled, ite_self, foldl_settled, implies_true, creditRaise_settled, grantBatch_settled]

theorem creditSettle_settled (p k : Nat) (s : State) :
    (creditSettle p k s).settled = s.settled := by
  unfold creditSettle
  first
  | with_reducible rfl
  | ((try dsimp only); repeat' split) <;> (first | (with_reducible rfl) | (simp only [settled_mk, settled_eta, apply_ite State.settled, ite_self, creditRaise_settled, creditRaiseAll_settled, grantBatch_settled]; done) | (simp only [settled_mk, settled_eta, apply_ite State.settled, ite_self, foldl_settled, implies_true, creditRaise_settled, creditRaiseAll_settled, grantBatch_settled]; done) | (simp_all only [settled_mk, settled_eta, apply_ite State.settled, ite_self, foldl_settled, implies_true, creditRaise_settled, creditRaiseAll_settled, grantBatch_settled]; done))

theorem creditRelease_settled (p sid n : Nat) (s : State) :
    (creditRelease p sid n s).settled = s.settled := by
  unfold creditRelease
  (try dsimp only); (repeat' split) <;> simp only [settled_mk, settled_eta, creditSettle_settled]

theorem linkFate_settled (p : Nat) (f : FateEnt) (s : State) :
    (linkFate p f s).settled = s.settled := by
  unfold linkFate
  simp only [settled_mk, settled_eta, linkMod_settled]

theorem fateDrop_settled (p : Nat) (tag : BitVec 16) (s : State) :
    (fateDrop p tag s).settled = s.settled := by
  unfold fateDrop
  simp only [settled_mk, settled_eta, linkMod_settled]

theorem linkDropPool_settled (p : Nat) (s : State) :
    (linkDropPool p s).settled = s.settled := by
  unfold linkDropPool
  (try dsimp only); (repeat' split) <;>
    simp only [settled_mk, settled_eta, apply_ite State.settled, ite_self, foldl_settled, implies_true, linkPut_settled, creditRelease_settled, eqPut_settled]

theorem linkDown_settled (p cause : Nat) (s : State) :
    (linkDown p cause s).settled = s.settled := by
  unfold linkDown
  simp only [settled_mk, settled_eta, raise_settled, count1_settled, regPut_settled, linkDropPool_settled, linkMod_settled]

theorem queueNewId_settled (q : Nat) (s : State) :
    (queueNewId q s).2.settled = s.settled := by
  unfold queueNewId
  (try dsimp only); (repeat' split) <;> simp only [settled_mk, settled_eta]

theorem queueNewId_settled_of {q : Nat} {s : State} {pp} (h : queueNewId q s = pp) : pp.2.settled = s.settled := h ▸ queueNewId_settled q s

theorem ptrMend_settled (q : Nat) (s : State) :
    (ptrMend q s).settled = s.settled := by
  unfold ptrMend
  first
  | with_reducible rfl
  | ((try dsimp only); repeat' split) <;> (first | (with_reducible rfl) | (simp only [settled_mk, settled_eta, apply_ite State.settled, ite_self]; done) | (simp only [settled_mk, settled_eta, apply_ite State.settled, ite_self, foldl_settled, implies_true]; done) | (simp_all only [settled_mk, settled_eta, apply_ite State.settled, ite_self, foldl_settled, implies_true]; done))

theorem egressStuck_settled (p : Nat) (s : State) :
    (egressStuck p s).settled = s.settled := by
  unfold egressStuck
  first
  | with_reducible rfl
  | ((try dsimp only); repeat' split) <;> (first | (with_reducible rfl) | (simp only [settled_mk, settled_eta, apply_ite State.settled, ite_self, linkFate_settled, eqPut_settled]; done) | (simp only [settled_mk, settled_eta, apply_ite State.settled, ite_self, foldl_settled, implies_true, linkFate_settled, eqPut_settled]; done) | (simp_all only [settled_mk, settled_eta, apply_ite State.settled, ite_self, foldl_settled, implies_true, linkFate_settled, eqPut_settled]; done))

theorem egressReset_settled (q field : Nat) (s : State) :
    (egressReset q field s).settled = s.settled := by
  unfold egressReset
  first
  | with_reducible rfl
  | ((try dsimp only); repeat' split) <;> (first | (with_reducible rfl) | (simp only [settled_mk, settled_eta, apply_ite State.settled, ite_self, raise_settled, count1_settled, ptrMend_settled, queueNewId_settled, egressStuck_settled, linkDown_settled]; done) | ((try have hk_queueNewId := queueNewId_settled_of (by assumption : queueNewId _ _ = _)); simp_all only [settled_mk, settled_eta, apply_ite State.settled, foldl_settled, ite_self, raise_settled, count1_settled, ptrMend_settled, queueNewId_settled, egressStuck_settled, linkDown_settled]; done) | (simp only [settled_mk, settled_eta, apply_ite State.settled, ite_self, foldl_settled, implies_true, raise_settled, count1_settled, ptrMend_settled, queueNewId_settled, egressStuck_settled, linkDown_settled]; done) | (simp_all only [settled_mk, settled_eta, apply_ite State.settled, ite_self, foldl_settled, implies_true, raise_settled, count1_settled, ptrMend_settled, queueNewId_settled, egressStuck_settled, linkDown_settled]; done))

theorem eqJoin_settled (p : Nat) (r : Rsp) (s : State) :
    (eqJoin p r s).settled = s.settled := by
  unfold eqJoin
  first
  | with_reducible rfl
  | ((try dsimp only); repeat' split) <;> (first | (with_reducible rfl) | (simp only [settled_mk, settled_eta, apply_ite State.settled, ite_self, eqPut_settled, egressReset_settled]; done) | (simp only [settled_mk, settled_eta, apply_ite State.settled, ite_self, foldl_settled, implies_true, eqPut_settled, egressReset_settled]; done) | (simp_all only [settled_mk, settled_eta, apply_ite State.settled, ite_self, foldl_settled, implies_true, eqPut_settled, egressReset_settled]; done))

theorem masterRespond_settled (n : Nat) (r : Rsp) (s : State) :
    (masterRespond n r s).settled = s.settled := by
  unfold masterRespond
  first
  | with_reducible rfl
  | ((try dsimp only); repeat' split) <;> (first | (with_reducible rfl) | (simp only [settled_mk, settled_eta, apply_ite State.settled, ite_self]; done) | (simp only [settled_mk, settled_eta, apply_ite State.settled, ite_self, foldl_settled, implies_true]; done) | (simp_all only [settled_mk, settled_eta, apply_ite State.settled, ite_self, foldl_settled, implies_true]; done))

theorem rspSend_settled (src : Src) (sid : BitVec 12) (gone : Bool) (r : Rsp) (cells : Nat) (s : State) :
    (rspSend src sid gone r cells s).settled = s.settled := by
  unfold rspSend
  (try dsimp only); (repeat' split) <;> simp only [settled_mk, settled_eta, linkFate_settled, creditRelease_settled, eqJoin_settled, masterRespond_settled]

theorem rspStats_settled (src : Src) (op : ReqOp) (status : Nat) (s : State) :
    (rspStats src op status s).settled = s.settled := by
  unfold rspStats
  (try dsimp only); (repeat' split) <;> simp only [settled_mk, settled_eta, count1_settled]

theorem complete_settled (it : Item) (status : Nat) (data : Option Line) (psn : Bool) (extra : Side) (cells : Nat) (s : State) :
    (complete it status data psn extra cells s).settled = s.settled := by
  unfold complete
  simp only [settled_mk, settled_eta, rspSend_settled, rspStats_settled]

theorem completeBare_settled (it : Item) (status cells : Nat) (s : State) :
    (completeBare it status cells s).settled = s.settled := by
  unfold completeBare
  simp only [settled_mk, settled_eta, complete_settled]

theorem mediaPut_settled (m : Nat) (x : Media) (s : State) :
    (mediaPut m x s).settled = s.settled := by
  unfold mediaPut
  simp only [settled_mk, settled_eta]

theorem mediaMod_settled (m : Nat) (f : Media → Media) (s : State) :
    (mediaMod m f s).settled = s.settled := by
  unfold mediaMod
  simp only [settled_mk, settled_eta, mediaPut_settled]

theorem refuseEvent_settled (src : Src) (h : Hdr) (step status : Nat) (s : State) :
    (refuseEvent src h step status s).settled = s.settled := by
  unfold refuseEvent
  (try dsimp only); (repeat' split) <;> simp only [settled_mk, settled_eta, raise_settled]

theorem slotError_settled (src : Src) (cause pos opc tag : Nat) (s : State) :
    (slotError src cause pos opc tag s).settled = s.settled := by
  unfold slotError
  (try dsimp only); (repeat' split) <;> simp only [settled_mk, settled_eta, count1_settled, linkDown_settled, raise_settled, linkFate_settled]

theorem creditTake_settled (src : Src) (sid : BitVec 12) (cells : Nat) (s : State) :
    (creditTake src sid cells s).settled = s.settled := by
  unfold creditTake
  (try dsimp only); (repeat' split) <;> simp only [settled_mk, settled_eta]

theorem creditCut_settled (src : Src) (sid : BitVec 12) (cells : Nat) (s : State) :
    (creditCut src sid cells s).settled = s.settled := by
  unfold creditCut
  first
  | with_reducible rfl
  | ((try dsimp only); repeat' split) <;> (first | (with_reducible rfl) | (simp only [settled_mk, settled_eta, apply_ite State.settled, ite_self, creditSettle_settled]; done) | (simp only [settled_mk, settled_eta, apply_ite State.settled, ite_self, foldl_settled, implies_true, creditSettle_settled]; done) | (simp_all only [settled_mk, settled_eta, apply_ite State.settled, ite_self, foldl_settled, implies_true, creditSettle_settled]; done))

theorem creditOverrun_settled (p : Fin 128) (sid : BitVec 12) (cost : Nat) (tag : Option (BitVec 16)) (s : State) :
    (creditOverrun p sid cost tag s).settled = s.settled := by
  unfold creditOverrun
  (try dsimp only); (repeat' split) <;> simp only [settled_mk, settled_eta, raise_settled, count1_settled, linkDown_settled, linkFate_settled]

theorem orphanAdd_settled (i : Item) (s : State) :
    (orphanAdd i s).settled = s.settled := by
  unfold orphanAdd
  first
  | with_reducible rfl
  | ((try dsimp only); repeat' split) <;> (first | (with_reducible rfl) | (simp only [settled_mk, settled_eta, apply_ite State.settled, ite_self]; done) | (simp only [settled_mk, settled_eta, apply_ite State.settled, ite_self, foldl_settled, implies_true]; done) | (simp_all only [settled_mk, settled_eta, apply_ite State.settled, ite_self, foldl_settled, implies_true]; done))

theorem orphanDrop_settled (s : State) (o : Orphan) :
    (orphanDrop s o).settled = s.settled := by
  unfold orphanDrop
  first
  | with_reducible rfl
  | ((try dsimp only); repeat' split) <;> (first | (with_reducible rfl) | (simp only [settled_mk, settled_eta, apply_ite State.settled, ite_self, count1_settled, creditRelease_settled]; done) | (simp only [settled_mk, settled_eta, apply_ite State.settled, ite_self, foldl_settled, implies_true, count1_settled, creditRelease_settled]; done) | (simp_all only [settled_mk, settled_eta, apply_ite State.settled, ite_self, foldl_settled, implies_true, count1_settled, creditRelease_settled]; done))

theorem orphansDue_settled (t : Nat) (s : State) :
    (orphansDue t s).settled = s.settled := by
  unfold orphansDue
  first
  | with_reducible rfl
  | ((try dsimp only); repeat' split) <;> (first | (with_reducible rfl) | (simp only [settled_mk, settled_eta, apply_ite State.settled, ite_self, orphanDrop_settled]; done) | (simp only [settled_mk, settled_eta, apply_ite State.settled, ite_self, foldl_settled, implies_true, orphanDrop_settled]; done) | (simp_all only [settled_mk, settled_eta, apply_ite State.settled, ite_self, foldl_settled, implies_true, orphanDrop_settled]; done))

theorem itemOut_settled (i : Item) (status : Nat) (s : State) :
    (itemOut i status s).settled = s.settled := by
  unfold itemOut
  first
  | with_reducible rfl
  | ((try dsimp only); repeat' split) <;> (first | (with_reducible rfl) | (simp only [settled_mk, settled_eta, apply_ite State.settled, ite_self, completeBare_settled, orphanAdd_settled]; done) | (simp only [settled_mk, settled_eta, apply_ite State.settled, ite_self, foldl_settled, implies_true, completeBare_settled, orphanAdd_settled]; done) | (simp_all only [settled_mk, settled_eta, apply_ite State.settled, ite_self, foldl_settled, implies_true, completeBare_settled, orphanAdd_settled]; done))

theorem itemFlushed_settled (i : Item) (s : State) :
    (itemFlushed i s).settled = s.settled := by
  unfold itemFlushed
  simp only [settled_mk, settled_eta, itemOut_settled, count1_settled]

theorem stickySet_settled (q : Nat) (src : Src) (s : State) :
    (stickySet q src s).settled = s.settled := by
  unfold stickySet
  (try dsimp only); (repeat' split) <;> simp only [settled_mk, settled_eta]

theorem stickyTrim_settled (q : Nat) (s : State) :
    (stickyTrim q s).settled = s.settled := by
  unfold stickyTrim
  simp only [settled_mk, settled_eta, apply_ite State.settled, ite_self]

theorem ingressReset_settled (q field : Nat) (s : State) :
    (ingressReset q field s).settled = s.settled := by
  unfold ingressReset
  first
  | with_reducible rfl
  | ((try dsimp only); repeat' split) <;> (first | (with_reducible rfl) | (simp only [settled_mk, settled_eta, apply_ite State.settled, ite_self, raise_settled, count1_settled, ptrMend_settled, orphanAdd_settled, queueNewId_settled, stickyTrim_settled]; done) | ((try have hk_queueNewId := queueNewId_settled_of (by assumption : queueNewId _ _ = _)); simp_all only [settled_mk, settled_eta, apply_ite State.settled, foldl_settled, ite_self, raise_settled, count1_settled, ptrMend_settled, orphanAdd_settled, queueNewId_settled, stickyTrim_settled]; done) | (simp only [settled_mk, settled_eta, apply_ite State.settled, ite_self, foldl_settled, implies_true, raise_settled, count1_settled, ptrMend_settled, orphanAdd_settled, queueNewId_settled, stickyTrim_settled]; done) | (simp_all only [settled_mk, settled_eta, apply_ite State.settled, ite_self, foldl_settled, implies_true, raise_settled, count1_settled, ptrMend_settled, orphanAdd_settled, queueNewId_settled, stickyTrim_settled]; done))

theorem queueReset_settled (q field : Nat) (s : State) :
    (queueReset q field s).settled = s.settled := by
  unfold queueReset
  simp only [settled_mk, settled_eta, apply_ite State.settled, ite_self, ingressReset_settled, egressReset_settled]

theorem itemJoin_settled (i : Item) (s : State) :
    (itemJoin i s).settled = s.settled := by
  unfold itemJoin
  first
  | with_reducible rfl
  | ((try dsimp only); repeat' split) <;> (first | (with_reducible rfl) | (simp only [settled_mk, settled_eta, apply_ite State.settled, ite_self, stickySet_settled, queueReset_settled]; done) | (simp only [settled_mk, settled_eta, apply_ite State.settled, ite_self, foldl_settled, implies_true, stickySet_settled, queueReset_settled]; done) | (simp_all only [settled_mk, settled_eta, apply_ite State.settled, ite_self, foldl_settled, implies_true, stickySet_settled, queueReset_settled]; done))

theorem enqueueItem_settled (i : Item) (s : State) :
    (enqueueItem i s).settled = s.settled := by
  unfold enqueueItem
  simp only [settled_mk, settled_eta, apply_ite State.settled, ite_self, itemFlushed_settled, completeBare_settled, itemJoin_settled]

theorem landFlush_settled (t0 : Nat) (s : State) :
    (landFlush t0 s).settled = s.settled := by
  unfold landFlush
  first
  | with_reducible rfl
  | ((try dsimp only); repeat' split) <;> (first | (with_reducible rfl) | (simp only [settled_mk, settled_eta, apply_ite State.settled, ite_self, itemFlushed_settled, stickyTrim_settled]; done) | (simp only [settled_mk, settled_eta, apply_ite State.settled, ite_self, foldl_settled, implies_true, itemFlushed_settled, stickyTrim_settled]; done) | (simp_all only [settled_mk, settled_eta, apply_ite State.settled, ite_self, foldl_settled, implies_true, itemFlushed_settled, stickyTrim_settled]; done))

theorem refuseReq_settled (i : Item) (step status : Nat) (s : State) :
    (refuseReq i step status s).settled = s.settled := by
  unfold refuseReq
  (try dsimp only); (repeat' split) <;> simp only [settled_mk, settled_eta, count1_settled, completeBare_settled, refuseEvent_settled]

theorem takeArr_settled (s : State) :
    (takeArr s).2.settled = s.settled := by
  unfold takeArr
  simp only [settled_mk, settled_eta]

theorem takeArr_settled_of {s : State} {pp} (h : takeArr s = pp) : pp.2.settled = s.settled := h ▸ takeArr_settled s

theorem reqError_settled (src : Src) (cause pos opc cells : Nat) (h : Hdr) (s : State) :
    (reqError src cause pos opc cells h s).settled = s.settled := by
  unfold reqError
  first
  | with_reducible rfl
  | ((try dsimp only); repeat' split) <;> (first | (with_reducible rfl) | (simp only [settled_mk, settled_eta, apply_ite State.settled, ite_self, slotError_settled, creditCut_settled]; done) | (simp only [settled_mk, settled_eta, apply_ite State.settled, ite_self, foldl_settled, implies_true, slotError_settled, creditCut_settled]; done) | (simp_all only [settled_mk, settled_eta, apply_ite State.settled, ite_self, foldl_settled, implies_true, slotError_settled, creditCut_settled]; done))

theorem tagAnew_settled (src : Src) (tag : BitVec 16) (s : State) :
    (tagAnew src tag s).settled = s.settled := by
  unfold tagAnew
  first
  | with_reducible rfl
  | ((try dsimp only); repeat' split) <;> (first | (with_reducible rfl) | (simp only [settled_mk, settled_eta, apply_ite State.settled, ite_self, fateDrop_settled]; done) | (simp only [settled_mk, settled_eta, apply_ite State.settled, ite_self, foldl_settled, implies_true, fateDrop_settled]; done) | (simp_all only [settled_mk, settled_eta, apply_ite State.settled, ite_self, foldl_settled, implies_true, fateDrop_settled]; done))

theorem reqReceive_settled (src : Src) (op : ReqOp) (h : Hdr) (psn : Bool) (ext : Side) (data : Line) (pos : Nat) (s : State) :
    (reqReceive src op h psn ext data pos s).settled = s.settled := by
  unfold reqReceive
  (try dsimp only); (repeat' split) <;> simp only [settled_mk, settled_eta, reqError_settled, creditOverrun_settled, takeArr_settled, creditTake_settled, tagAnew_settled, refuseReq_settled, count1_settled, raise_settled, enqueueItem_settled]

theorem fenceReceive_settled (src : Src) (h : Hdr) (pos : Nat) (s : State) :
    (fenceReceive src h pos s).settled = s.settled := by
  unfold fenceReceive
  (try dsimp only); (repeat' split) <;> simp only [settled_mk, settled_eta, reqError_settled, creditOverrun_settled, takeArr_settled, creditTake_settled, tagAnew_settled, count1_settled, rspSend_settled, refuseEvent_settled, raise_settled]

theorem fenceDone_settled (f : FenceEnt) (s : State) :
    (fenceDone f s).settled = s.settled := by
  unfold fenceDone
  simp only [settled_mk, settled_eta, rspSend_settled, count1_settled]

theorem doFenceComplete_settled (src : Src) (sid : BitVec 12) (s : State) :
    (doFenceComplete src sid s).settled = s.settled := by
  unfold doFenceComplete
  (try dsimp only); (repeat' split) <;> simp only [settled_mk, settled_eta, fenceDone_settled]

theorem issueW_settled (m : Nat) (o : MOp) (s : State) :
    (issueW m o s).settled = s.settled := by
  unfold issueW
  simp only [settled_mk, settled_eta, mediaMod_settled]

theorem issueR_settled (m : Nat) (o : MOp) (s : State) :
    (issueR m o s).settled = s.settled := by
  unfold issueR
  simp only [settled_mk, settled_eta, mediaMod_settled]

theorem faultLow_settled (s : State) :
    (faultLow s).settled = s.settled := by
  unfold faultLow
  simp only [settled_mk, settled_eta]

theorem txnPut_settled (t : Txn) (s : State) :
    (txnPut t s).settled = s.settled := by
  unfold txnPut
  simp only [settled_mk, settled_eta]

theorem txnAdd_settled (t : Txn) (s : State) :
    (txnAdd t s).settled = s.settled := by
  unfold txnAdd
  simp only [settled_mk, settled_eta]

theorem txnDel_settled (id : Nat) (s : State) :
    (txnDel id s).settled = s.settled := by
  unfold txnDel
  simp only [settled_mk, settled_eta]

theorem jackDrop_settled (k : Nat) (s : State) :
    (jackDrop k s).settled = s.settled := by
  unfold jackDrop
  simp only [settled_mk, settled_eta]

theorem jackInvalidate_settled (a : Nat) (s : State) :
    (jackInvalidate a s).settled = s.settled := by
  unfold jackInvalidate
  (try dsimp only); (repeat' split) <;> simp only [settled_mk, settled_eta, jackDrop_settled]

theorem jackLookup_settled (kidx a : Nat) (pe : Bool) (s : State) :
    (jackLookup kidx a pe s).2.settled = s.settled := by
  unfold jackLookup
  (try dsimp only); (repeat' split) <;> simp only [settled_mk, settled_eta, raise_settled, count1_settled, jackDrop_settled]

theorem jackLookup_settled_of {kidx a : Nat} {pe : Bool} {s : State} {pp} (h : jackLookup kidx a pe s = pp) : pp.2.settled = s.settled := h ▸ jackLookup_settled kidx a pe s

theorem jackPlace_settled (a : Nat) (s : State) :
    (jackPlace a s).2.settled = s.settled := by
  unfold jackPlace
  (try dsimp only); (repeat' split) <;> simp only [settled_mk, settled_eta, takeFree_settled]

theorem jackPlace_settled_of {a : Nat} {s : State} {pp} (h : jackPlace a s = pp) : pp.2.settled = s.settled := h ▸ jackPlace_settled a s

theorem jackWrite_settled (a : Nat) (e : BitVec 64) (s : State) :
    (jackWrite a e s).settled = s.settled := by
  unfold jackWrite
  (try dsimp only); (repeat' split) <;>
    ((try have hk_jackPlace := jackPlace_settled_of (by assumption : jackPlace _ _ = _)); simp_all only [settled_mk, settled_eta, apply_ite State.settled, foldl_settled, ite_self, jackPlace_settled])

theorem jackRegress_settled (kidx a : Nat) (sc : Side) (s : State) :
    (jackRegress kidx a sc s).settled = s.settled := by
  unfold jackRegress
  simp only [settled_mk, settled_eta, raise_settled, count1_settled]

theorem jackCompare_settled (kidx a : Nat) (sc : Side) (s : State) :
    (jackCompare kidx a sc s).settled = s.settled := by
  unfold jackCompare
  (try dsimp only); (repeat' split) <;> simp only [settled_mk, settled_eta, jackRegress_settled]

theorem jackFill_settled (kidx a : Nat) (sc : Side) (s : State) :
    (jackFill kidx a sc s).settled = s.settled := by
  unfold jackFill
  (try dsimp only); (repeat' split) <;> simp only [settled_mk, settled_eta, jackCompare_settled, jackWrite_settled]

theorem jackClear_settled (s : State) :
    (jackClear s).settled = s.settled := by
  unfold jackClear
  simp only [settled_mk, settled_eta]

theorem probesPut_settled (m : Nat) (l : List Probe) (s : State) :
    (probesPut m l s).settled = s.settled := by
  unfold probesPut
  simp only [settled_mk, settled_eta]

theorem probeAdd_settled (kidx a ord : Nat) (s : State) :
    (probeAdd kidx a ord s).settled = s.settled := by
  unfold probeAdd
  (try dsimp only); (repeat' split) <;> simp only [settled_mk, settled_eta, probesPut_settled]

theorem lookOne_settled (kidx a : Nat) (s : State) :
    (lookOne kidx a s).settled = s.settled := by
  unfold lookOne
  simp only [settled_mk, settled_eta, apply_ite State.settled, ite_self, count1_settled, probesPut_settled]

theorem lookAhead_settled (kidx a : Nat) (s : State) :
    (lookAhead kidx a s).settled = s.settled := by
  unfold lookAhead
  (try dsimp only); (repeat' split) <;>
    simp only [settled_mk, settled_eta, apply_ite State.settled, ite_self, foldl_settled, implies_true, lookOne_settled]

theorem probeIssue_settled (m : Nat) (want : Probe → Bool) (ctr : Nat) (s : State) :
    (probeIssue m want ctr s).settled = s.settled := by
  unfold probeIssue
  (try dsimp only); (repeat' split) <;> simp only [settled_mk, settled_eta, issueR_settled, count1_settled, probesPut_settled]

theorem probeVoid_settled (a : Nat) (s : State) :
    (probeVoid a s).settled = s.settled := by
  unfold probeVoid
  (try dsimp only); (repeat' split) <;> simp only [settled_mk, settled_eta, mediaMod_settled, probesPut_settled, probeAdd_settled]

theorem slicePut_settled (i : Nat) (x : Slice) (s : State) :
    (slicePut i x s).settled = s.settled := by
  unfold slicePut
  simp only [settled_mk, settled_eta]

theorem logAppend_settled (e : LogEnt) (s : State) :
    (logAppend e s).settled = s.settled := by
  unfold logAppend
  (try dsimp only); (repeat' split) <;> simp only [settled_mk, settled_eta, raise_settled, nvPush_settled]

theorem pipeCharge_settled (i p : Nat) (s : State) :
    (pipeCharge i p s).settled = s.settled := by
  unfold pipeCharge
  simp only [settled_mk, settled_eta, apply_ite State.settled, ite_self, count1_settled, slicePut_settled]

theorem prioCheck_settled (i d : Nat) (s : State) :
    (prioCheck i d s).settled = s.settled := by
  unfold prioCheck
  simp only [settled_mk, settled_eta, apply_ite State.settled, ite_self, slicePut_settled]

theorem prioDirection_settled (i : Nat) (dir : Dir) (s : State) :
    (prioDirection i dir s).settled = s.settled := by
  unfold prioDirection
  (try dsimp only); (repeat' split) <;>
    simp only [settled_mk, settled_eta, apply_ite State.settled, ite_self, foldl_settled, implies_true, prioCheck_settled]

theorem voteCharge_settled (i duty pipe checker who : Nat) (s : State) :
    (voteCharge i duty pipe checker who s).settled = s.settled := by
  unfold voteCharge
  simp only [settled_mk, settled_eta, apply_ite State.settled, ite_self, count1_settled, sumUp_settled, prioCheck_settled, pipeCharge_settled, slicePut_settled]

theorem portUnserve_settled (m : Nat) (s : State) :
    (portUnserve m s).settled = s.settled := by
  unfold portUnserve
  simp only [settled_mk, settled_eta, faultLow_settled, mediaMod_settled]

theorem topLose_settled (s : State) :
    (topLose s).settled = s.settled := by
  unfold topLose
  simp only [settled_mk, settled_eta, raise_settled]

theorem sliceLose_settled (i : Nat) (log : Bool) (s : State) :
    (sliceLose i log s).settled = s.settled := by
  unfold sliceLose
  simp only [settled_mk, settled_eta, apply_ite State.settled, ite_self, logAppend_settled, topLose_settled, raise_settled, slicePut_settled, mediaMod_settled, portUnserve_settled]

theorem pipeRetire_settled (i p : Nat) (bist log : Bool) (s : State) :
    (pipeRetire i p bist log s).settled = s.settled := by
  unfold pipeRetire
  simp only [settled_mk, settled_eta, apply_ite State.settled, ite_self, slicePut_settled, raise_settled, logAppend_settled]

theorem sliceJudge_settled (i : Nat) (log : Bool) (s : State) :
    (sliceJudge i log s).settled = s.settled := by
  unfold sliceJudge
  simp only [settled_mk, settled_eta, apply_ite State.settled, ite_self, topLose_settled, sliceLose_settled]

theorem sliceChecks_settled (next : Nat) (s : State) (i : Nat) :
    (sliceChecks next s i).settled = s.settled := by
  unfold sliceChecks
  first
  | with_reducible rfl
  | ((try dsimp only); repeat' split) <;> (first | (with_reducible rfl) | (simp only [settled_mk, settled_eta, apply_ite State.settled, ite_self, slicePut_settled, pipeRetire_settled]; done) | (simp only [settled_mk, settled_eta, apply_ite State.settled, ite_self, foldl_settled, implies_true, slicePut_settled, pipeRetire_settled]; done) | (simp_all only [settled_mk, settled_eta, apply_ite State.settled, ite_self, foldl_settled, implies_true, slicePut_settled, pipeRetire_settled]; done))

theorem sliceTurn_settled (s : State) (i : Nat) :
    (sliceTurn s i).settled = s.settled := by
  unfold sliceTurn
  first
  | with_reducible rfl
  | ((try dsimp only); repeat' split) <;> (first | (with_reducible rfl) | (simp only [settled_mk, settled_eta, apply_ite State.settled, ite_self, slicePut_settled]; done) | (simp only [settled_mk, settled_eta, apply_ite State.settled, ite_self, foldl_settled, implies_true, slicePut_settled]; done) | (simp_all only [settled_mk, settled_eta, apply_ite State.settled, ite_self, foldl_settled, implies_true, slicePut_settled]; done))

theorem slicesStrobe_settled (next : Nat) (s : State) :
    (slicesStrobe next s).settled = s.settled := by
  unfold slicesStrobe
  (try dsimp only); (repeat' split) <;>
    simp only [settled_mk, settled_eta, apply_ite State.settled, ite_self, foldl_settled, implies_true, sliceTurn_settled, sliceChecks_settled, sliceJudge_settled]

theorem rowRemap_settled (mac row spare : Nat) (s : State) :
    (rowRemap mac row spare s).settled = s.settled := by
  unfold rowRemap
  simp only [settled_mk, settled_eta]

theorem rowQueue_settled (mac row : Nat) (s : State) :
    (rowQueue mac row s).settled = s.settled := by
  unfold rowQueue
  simp only [settled_mk, settled_eta, apply_ite State.settled, ite_self]

theorem keyRowBad_settled (mac row : Nat) (s : State) :
    (keyRowBad mac row s).settled = s.settled := by
  unfold keyRowBad
  first
  | with_reducible rfl
  | ((try dsimp only); repeat' split) <;> (first | (with_reducible rfl) | (simp only [settled_mk, settled_eta, apply_ite State.settled, ite_self, slotPut_settled]; done) | (simp only [settled_mk, settled_eta, apply_ite State.settled, ite_self, foldl_settled, implies_true, slotPut_settled]; done) | (simp_all only [settled_mk, settled_eta, apply_ite State.settled, ite_self, foldl_settled, implies_true, slotPut_settled]; done))

theorem rowBad_settled (mac row : Nat) (s : State) :
    (rowBad mac row s).settled = s.settled := by
  unfold rowBad
  simp only [settled_mk, settled_eta, apply_ite State.settled, ite_self, countUp_settled, keyRowBad_settled]

theorem keyRowUe_settled (mac row : Nat) (s : State) :
    (keyRowUe mac row s).settled = s.settled := by
  unfold keyRowUe
  first
  | with_reducible rfl
  | ((try dsimp only); repeat' split) <;> (first | (with_reducible rfl) | (simp only [settled_mk, settled_eta, apply_ite State.settled, ite_self, rowBad_settled, raise_settled]; done) | (simp only [settled_mk, settled_eta, apply_ite State.settled, ite_self, foldl_settled, implies_true, rowBad_settled, raise_settled]; done) | (simp_all only [settled_mk, settled_eta, apply_ite State.settled, ite_self, foldl_settled, implies_true, rowBad_settled, raise_settled]; done))

theorem rowError_settled (s : State) (e : Nat × Nat × Bool) :
    (rowError s e).settled = s.settled := by
  unfold rowError
  simp only [settled_mk, settled_eta, apply_ite State.settled, ite_self, keyRowUe_settled, rowQueue_settled]

theorem rowErrors_settled (f : Faults) (s : State) :
    (rowErrors f s).settled = s.settled := by
  unfold rowErrors
  (try dsimp only); (repeat' split) <;>
    simp only [settled_mk, settled_eta, apply_ite State.settled, ite_self, foldl_settled, implies_true, rowError_settled]

theorem boundSet_settled (n b : Nat) (s : State) :
    (boundSet n b s).settled = s.settled := by
  unfold boundSet
  (try dsimp only); (repeat' split) <;>
    simp only [settled_mk, settled_eta, apply_ite State.settled, ite_self, foldl_settled, implies_true, ctxPut_settled, regPut_settled]

theorem ctxStart_settled (n : Nat) (e : RkEnt) (s : State) :
    (ctxStart n e s).settled = s.settled := by
  unfold ctxStart
  simp only [settled_mk, settled_eta, rkDequeue_settled, ctxPut_settled, nvPush_settled]

theorem rkFill_settled (k : Nat) (s : State) : (rkFill k s).settled = s.settled := by
  induction k generalizing s with
  | zero => rfl
  | succ k ih =>
    unfold rkFill
    (repeat' split) <;> simp only [ih, ctxStart_settled]

theorem rkSchedule_settled (s : State) :
    (rkSchedule s).settled = s.settled := by
  unfold rkSchedule
  simp only [settled_mk, settled_eta, apply_ite State.settled, ite_self, rkFill_settled]

theorem nextGenCause_settled (kidx : Nat) (s : State) :
    (nextGenCause kidx s).settled = s.settled := by
  unfold nextGenCause
  simp only [settled_mk, settled_eta, apply_ite State.settled, ite_self, slotPut_settled, slotSpent_settled, rkEnqueue_settled]

theorem ckptPush_settled (n st : Nat) (own : Bool) (s : State) :
    (ckptPush n st own s).settled = s.settled := by
  unfold ckptPush
  simp only [settled_mk, settled_eta, nvPush_settled]

theorem ckptSuper_settled (n : Nat) (s : State) :
    (ckptSuper n s).settled = s.settled := by
  unfold ckptSuper
  simp only [settled_mk, settled_eta, apply_ite State.settled, ite_self, ctxPut_settled, ckptPush_settled]

theorem tagOwe_settled (n tl seq : Nat) (s : State) :
    (tagOwe n tl seq s).settled = s.settled := by
  unfold tagOwe
  first
  | with_reducible rfl
  | ((try dsimp only); repeat' split) <;> (first | (with_reducible rfl) | (simp only [settled_mk, settled_eta, apply_ite State.settled, ite_self, ctxPut_settled]; done) | (simp only [settled_mk, settled_eta, apply_ite State.settled, ite_self, foldl_settled, implies_true, ctxPut_settled]; done) | (simp_all only [settled_mk, settled_eta, apply_ite State.settled, ite_self, foldl_settled, implies_true, ctxPut_settled]; done))

theorem tagPaid_settled (tl seq : Nat) (s : State) :
    (tagPaid tl seq s).settled = s.settled := by
  unfold tagPaid
  first
  | with_reducible rfl
  | ((try dsimp only); repeat' split) <;> (first | (with_reducible rfl) | (simp only [settled_mk, settled_eta, apply_ite State.settled, ite_self, ctxPut_settled]; done) | (simp only [settled_mk, settled_eta, apply_ite State.settled, ite_self, foldl_settled, implies_true, ctxPut_settled]; done) | (simp_all only [settled_mk, settled_eta, apply_ite State.settled, ite_self, foldl_settled, implies_true, ctxPut_settled]; done))

theorem rkPoll_settled (s : State) :
    (rkPoll s).settled = s.settled := by
  unfold rkPoll
  (try dsimp only); (repeat' split) <;>
    simp only [settled_mk, settled_eta, apply_ite State.settled, ite_self, foldl_settled, implies_true, nvPush_settled, ctxPut_settled]

theorem fmtRelease_settled (kidx : Nat) (s : State) :
    (fmtRelease kidx s).settled = s.settled := by
  unfold fmtRelease
  simp only [settled_mk, settled_eta]

theorem rekeyDone_settled (n : Nat) (c : Ctx) (s : State) :
    (rekeyDone n c s).settled = s.settled := by
  unfold rekeyDone
  simp only [settled_mk, settled_eta, raise_settled]

theorem doRekeyComplete_settled (n : Nat) (s : State) :
    (doRekeyComplete n s).settled = s.settled := by
  unfold doRekeyComplete
  simp only [settled_mk, settled_eta, apply_ite State.settled, ite_self, rekeyDone_settled, ctxPut_settled, slotPut_settled, rkSchedule_settled, slotSpent_settled]

theorem doFormatComplete_settled (n : Nat) (s : State) :
    (doFormatComplete n s).settled = s.settled := by
  unfold doFormatComplete
  simp only [settled_mk, settled_eta, apply_ite State.settled, ite_self, boundSet_settled, fmtRelease_settled, rkSchedule_settled, rekeyDone_settled, ctxPut_settled]

theorem purgeSlot_settled (kidx : Nat) (s : State) :
    (purgeSlot kidx s).settled = s.settled := by
  unfold purgeSlot
  simp only [settled_mk, settled_eta, slotPut_settled, rowBad_settled]

theorem doPurgeComplete_settled (n : Nat) (s : State) :
    (doPurgeComplete n s).settled = s.settled := by
  unfold doPurgeComplete
  (try dsimp only); (repeat' split) <;>
    simp only [settled_mk, settled_eta, apply_ite State.settled, ite_self, foldl_settled, implies_true, regPut_settled, grantReset_settled, purgeSlot_settled, fmtRelease_settled, rkSchedule_settled, rekeyDone_settled, ctxPut_settled]

theorem aheadAdd_settled (n a : Nat) (s : State) :
    (aheadAdd n a s).settled = s.settled := by
  unfold aheadAdd
  simp only [settled_mk, settled_eta, apply_ite State.settled, ite_self, ctxPut_settled, count1_settled]

theorem takeMove_settled (n : Nat) (s : State) :
    (takeMove n s).settled = s.settled := by
  unfold takeMove
  simp only [settled_mk, settled_eta, apply_ite State.settled, ite_self, ctxPut_settled, boundSet_settled, ckptPush_settled]

theorem takeLine_settled (n : Nat) (s : State) :
    (takeLine n s).settled = s.settled := by
  unfold takeLine
  simp only [settled_mk, settled_eta, apply_ite State.settled, ite_self, takeMove_settled, aheadAdd_settled, ctxPut_settled]

theorem stepEnd_settled (n a : Nat) (s : State) :
    (stepEnd n a s).settled = s.settled := by
  unfold stepEnd
  simp only [settled_mk, settled_eta, ctxPut_settled]

theorem stepMod_settled (n a : Nat) (f : StepLine → StepLine) (s : State) :
    (stepMod n a f s).settled = s.settled := by
  unfold stepMod
  simp only [settled_mk, settled_eta, ctxPut_settled]

theorem stepsDrop_settled (n : Nat) (s : State) :
    (stepsDrop n s).settled = s.settled := by
  unfold stepsDrop
  (try dsimp only); (repeat' split) <;>
    simp only [settled_mk, settled_eta, apply_ite State.settled, ite_self, foldl_settled, implies_true, mediaMod_settled]

theorem ctxSuspend_settled (n : Nat) (s : State) :
    (ctxSuspend n s).settled = s.settled := by
  unfold ctxSuspend
  simp only [settled_mk, settled_eta, apply_ite State.settled, ite_self, stepsDrop_settled, ctxPut_settled, nvPush_settled]

theorem ctxSuspendAbsent_settled (s : State) :
    (ctxSuspendAbsent s).settled = s.settled := by
  unfold ctxSuspendAbsent
  (try dsimp only); (repeat' split) <;>
    simp only [settled_mk, settled_eta, apply_ite State.settled, ite_self, foldl_settled, implies_true, ctxSuspend_settled]

theorem doRekeyPassStart_settled (n : Nat) (s : State) :
    (doRekeyPassStart n s).settled = s.settled := by
  unfold doRekeyPassStart
  (try dsimp only); (repeat' split) <;>
    simp only [settled_mk, settled_eta, apply_ite State.settled, ite_self, foldl_settled, implies_true, slotPut_settled, rkDequeue_settled, ctxPut_settled, regPut_settled, rkPoll_settled, ctxSuspendAbsent_settled, raise_settled]

theorem rekeyResumeEv_settled (n : Nat) (s : State) :
    (rekeyResumeEv n s).settled = s.settled := by
  unfold rekeyResumeEv
  simp only [settled_mk, settled_eta, raise_settled]

theorem ctxContinue_settled (n : Nat) (s : State) :
    (ctxContinue n s).settled = s.settled := by
  unfold ctxContinue
  simp only [settled_mk, settled_eta, apply_ite State.settled, ite_self, rekeyResumeEv_settled, boundSet_settled, ctxPut_settled]

theorem ctxStop_settled (kidx : Nat) (s : State) :
    (ctxStop kidx s).settled = s.settled := by
  unfold ctxStop
  (try dsimp only); (repeat' split) <;> simp only [settled_mk, settled_eta, nvPush_settled, stepsDrop_settled, ctxPut_settled]

theorem nvAct_settled (act : NvAct) (s : State) :
    (nvAct act s).settled = s.settled := by
  unfold nvAct
  (try dsimp only); (repeat' split) <;>
    simp only [settled_mk, settled_eta, apply_ite State.settled, ite_self, foldl_settled, implies_true, slotPut_settled, regPut_settled, rkEnqueue_settled, nvPush_settled, fmtRelease_settled, rkClearQueue_settled, ctxStop_settled, raise_settled]

theorem nvActs_settled (s : State) :
    (nvActs s).settled = s.settled := by
  unfold nvActs
  (try dsimp only); (repeat' split) <;>
    simp only [settled_mk, settled_eta, apply_ite State.settled, ite_self, foldl_settled, implies_true, nvAct_settled]

theorem rekeyStrobe_settled (s : State) :
    (rekeyStrobe s).settled = s.settled := by
  unfold rekeyStrobe
  (try dsimp only); (repeat' split) <;>
    simp only [settled_mk, settled_eta, apply_ite State.settled, ite_self, foldl_settled, implies_true, count1_settled, raise_settled, ctxContinue_settled, ctxPut_settled, ckptSuper_settled, rkPoll_settled, rkSchedule_settled]

theorem wayPut_settled (k : Nat) (x : TagWay) (s : State) :
    (wayPut k x s).settled = s.settled := by
  unfold wayPut
  simp only [settled_mk, settled_eta]

theorem wayUse_settled (k : Nat) (x : TagWay) (s : State) :
    (wayUse k x s).settled = s.settled := by
  unfold wayUse
  first
  | with_reducible rfl
  | ((try dsimp only); repeat' split) <;> (first | (with_reducible rfl) | (simp only [settled_mk, settled_eta, apply_ite State.settled, ite_self, wayPut_settled]; done) | (simp only [settled_mk, settled_eta, apply_ite State.settled, ite_self, foldl_settled, implies_true, wayPut_settled]; done) | (simp_all only [settled_mk, settled_eta, apply_ite State.settled, ite_self, foldl_settled, implies_true, wayPut_settled]; done))

theorem wayDel_settled (k : Nat) (s : State) :
    (wayDel k s).settled = s.settled := by
  unfold wayDel
  simp only [settled_mk, settled_eta]

theorem tagReserve_settled (o : MOwner) (tl : Nat) (s : State) :
    (tagReserve o tl s).settled = s.settled := by
  unfold tagReserve
  simp only [settled_mk, settled_eta]

theorem tagUnreserve_settled (o : MOwner) (s : State) :
    (tagUnreserve o s).settled = s.settled := by
  unfold tagUnreserve
  simp only [settled_mk, settled_eta]

theorem wayAlloc_settled (tl kidx : Nat) (s : State) :
    (wayAlloc tl kidx s).2.settled = s.settled := by
  unfold wayAlloc
  (try dsimp only); (repeat' split) <;> simp only [settled_mk, settled_eta, wayPut_settled]

theorem wayAlloc_settled_of {tl kidx : Nat} {s : State} {pp} (h : wayAlloc tl kidx s = pp) : pp.2.settled = s.settled := h ▸ wayAlloc_settled tl kidx s

theorem wayEvict_settled (tl : Nat) (s : State) :
    (wayEvict tl s).settled = s.settled := by
  unfold wayEvict
  (try dsimp only); (repeat' split) <;> simp only [settled_mk, settled_eta, wayPut_settled]

theorem tagWrite_settled (kidx tl e seq : Nat) (v : BitVec 64) (s : State) :
    (tagWrite kidx tl e seq v s).settled = s.settled := by
  unfold tagWrite
  (try dsimp only); (repeat' split) <;>
    ((try have hk_wayAlloc := wayAlloc_settled_of (by assumption : wayAlloc _ _ _ = _)); simp_all only [settled_mk, settled_eta, apply_ite State.settled, foldl_settled, ite_self, wayUse_settled, wayAlloc_settled])

theorem tagPersisted_settled (seq : Nat) (s : State) :
    (tagPersisted seq s).settled = s.settled := by
  unfold tagPersisted
  simp only [settled_mk, settled_eta]

theorem tagDrop_settled (seq : Nat) (s : State) :
    (tagDrop seq s).settled = s.settled := by
  unfold tagDrop
  simp only [settled_mk, settled_eta]

theorem tlEv_settled (e : Ev) (src tl p3 : Nat) (s : State) :
    (tlEv e src tl p3 s).settled = s.settled := by
  unfold tlEv
  simp only [settled_mk, settled_eta, raise_settled]

theorem tagDropLine_settled (tl : Nat) (s : State) :
    (tagDropLine tl s).settled = s.settled := by
  unfold tagDropLine
  (try dsimp only); (repeat' split) <;> simp only [settled_mk, settled_eta, wayDel_settled]

theorem tagSecded_settled (f : Faults) (tl : Nat) (s : State) :
    (tagSecded f tl s).settled = s.settled := by
  unfold tagSecded
  (try dsimp only); (repeat' split) <;> simp only [settled_mk, settled_eta, count1_settled, tlEv_settled, tagDropLine_settled]

theorem tagHit_settled (tl : Nat) (s : State) :
    (tagHit tl s).settled = s.settled := by
  unfold tagHit
  first
  | with_reducible rfl
  | ((try dsimp only); repeat' split) <;> (first | (with_reducible rfl) | (simp only [settled_mk, settled_eta, apply_ite State.settled, ite_self, wayUse_settled, count1_settled]; done) | (simp only [settled_mk, settled_eta, apply_ite State.settled, ite_self, foldl_settled, implies_true, wayUse_settled, count1_settled]; done) | (simp_all only [settled_mk, settled_eta, apply_ite State.settled, ite_self, foldl_settled, implies_true, wayUse_settled, count1_settled]; done))

theorem tagMerge_settled (kidx tl : Nat) (d : Line) (s : State) :
    (tagMerge kidx tl d s).settled = s.settled := by
  unfold tagMerge
  (try dsimp only); (repeat' split) <;>
    ((try have hk_wayAlloc := wayAlloc_settled_of (by assumption : wayAlloc _ _ _ = _)); simp_all only [settled_mk, settled_eta, apply_ite State.settled, foldl_settled, ite_self, wayUse_settled, wayAlloc_settled])

theorem taglineMedia_settled (tl w : Nat) (s : State) :
    (taglineMedia tl w s).settled = s.settled := by
  unfold taglineMedia
  simp only [settled_mk, settled_eta, tlEv_settled, count1_settled]

theorem fetchAsk_settled (tl kidx : Nat) (owners : List MOwner) (wb : Bool) (s : State) :
    (fetchAsk tl kidx owners wb s).settled = s.settled := by
  unfold fetchAsk
  simp only [settled_mk, settled_eta, apply_ite State.settled, ite_self, taglineMedia_settled, count1_settled]

theorem tagLookup_settled (o : MOwner) (kidx tl e : Nat) (f : Faults) (s : State) :
    (tagLookup o kidx tl e f s).settled = s.settled := by
  unfold tagLookup
  first
  | with_reducible rfl
  | ((try dsimp only); repeat' split) <;> (first | (with_reducible rfl) | (simp only [settled_mk, settled_eta, apply_ite State.settled, ite_self, tagSecded_settled, tagHit_settled, fetchAsk_settled]; done) | (simp only [settled_mk, settled_eta, apply_ite State.settled, ite_self, foldl_settled, implies_true, tagSecded_settled, tagHit_settled, fetchAsk_settled]; done) | (simp_all only [settled_mk, settled_eta, apply_ite State.settled, ite_self, foldl_settled, implies_true, tagSecded_settled, tagHit_settled, fetchAsk_settled]; done))

theorem wbFetches_settled (s : State) :
    (wbFetches s).settled = s.settled := by
  unfold wbFetches
  (try dsimp only); (repeat' split) <;>
    simp only [settled_mk, settled_eta, apply_ite State.settled, ite_self, foldl_settled, implies_true, fetchAsk_settled]

theorem wbIssue_settled (m k : Nat) (x : TagWay) (s : State) :
    (wbIssue m k x s).settled = s.settled := by
  unfold wbIssue
  simp only [settled_mk, settled_eta, wayPut_settled, issueW_settled]

theorem wbPersisted_settled (tl seq : Nat) (s : State) :
    (wbPersisted tl seq s).settled = s.settled := by
  unfold wbPersisted
  (try dsimp only); (repeat' split) <;> simp only [settled_mk, settled_eta, tagPaid_settled, count1_settled, wayPut_settled]

theorem tagFlush_settled (s : State) :
    (tagFlush s).settled = s.settled := by
  unfold tagFlush
  simp only [settled_mk, settled_eta, wbFetches_settled]

theorem tagFailCount_settled (kidx : Nat) (s : State) :
    (tagFailCount kidx s).settled = s.settled := by
  unfold tagFailCount
  simp only [settled_mk, settled_eta, apply_ite State.settled, ite_self, nextGenCause_settled, raise_settled]

theorem tagWindow_settled (s : State) :
    (tagWindow s).settled = s.settled := by
  unfold tagWindow
  simp only [settled_mk, settled_eta, apply_ite State.settled, ite_self]

theorem highWater_settled (kidx : Nat) (g : BitVec 32) (s : State) :
    (highWater kidx g s).settled = s.settled := by
  unfold highWater
  simp only [settled_mk, settled_eta, apply_ite State.settled, ite_self, raise_settled, slotPut_settled, nextGenCause_settled]

theorem counterEnd_settled (kidx a : Nat) (g : BitVec 32) (s : State) :
    (counterEnd kidx a g s).settled = s.settled := by
  unfold counterEnd
  (try dsimp only); (repeat' split) <;> simp only [settled_mk, settled_eta, raise_settled, aheadAdd_settled, slotPut_settled]

theorem nextLctr_settled (kidx a : Nat) (g : BitVec 32) (e : BitVec 64) (s : State) :
    (nextLctr kidx a g e s).2.settled = s.settled := by
  unfold nextLctr
  (try dsimp only); (repeat' split) <;> simp only [settled_mk, settled_eta, jackWrite_settled, highWater_settled, counterEnd_settled]

theorem nextLctr_settled_of {kidx a : Nat} {g : BitVec 32} {e : BitVec 64} {s : State} {pp} (h : nextLctr kidx a g e s = pp) : pp.2.settled = s.settled := h ▸ nextLctr_settled kidx a g e s

theorem spentNote_settled (kidx a : Nat) (s : State) :
    (spentNote kidx a s).settled = s.settled := by
  unfold spentNote
  simp only [settled_mk, settled_eta, sumUp_settled, count1_settled]

theorem voteHold_settled (h : Hold) (mis : Nat × List Nat × List Block) (s : State) :
    (voteHold h mis s).settled = s.settled := by
  unfold voteHold
  first
  | with_reducible rfl
  | ((try dsimp only); repeat' split) <;> (first | (with_reducible rfl) | (simp only [settled_mk, settled_eta, apply_ite State.settled, ite_self]; done) | (simp only [settled_mk, settled_eta, apply_ite State.settled, ite_self, foldl_settled, implies_true]; done) | (simp_all only [settled_mk, settled_eta, apply_ite State.settled, ite_self, foldl_settled, implies_true]; done))

theorem aheadIssued_settled (kidx a : Nat) (g : BitVec 32) (s : State) :
    (aheadIssued kidx a g s).settled = s.settled := by
  unfold aheadIssued
  (try dsimp only); (repeat' split) <;> simp only [settled_mk, settled_eta, ctxPut_settled]

theorem txnConsume_settled (t : Txn) (s : State) :
    (txnConsume t s).settled = s.settled := by
  unfold txnConsume
  first
  | with_reducible rfl
  | ((try dsimp only); repeat' split) <;> (first | (with_reducible rfl) | (simp only [settled_mk, settled_eta, apply_ite State.settled, ite_self, txnPut_settled, creditRelease_settled]; done) | (simp only [settled_mk, settled_eta, apply_ite State.settled, ite_self, foldl_settled, implies_true, txnPut_settled, creditRelease_settled]; done) | (simp_all only [settled_mk, settled_eta, apply_ite State.settled, ite_self, foldl_settled, implies_true, txnPut_settled, creditRelease_settled]; done))

theorem ownerIssued_settled (o : MOwner) (g : BitVec 32) (c : BitVec 24) (s : State) :
    (ownerIssued o g c s).settled = s.settled := by
  unfold ownerIssued
  (try dsimp only); (repeat' split) <;> simp only [settled_mk, settled_eta, txnConsume_settled, stepMod_settled]

theorem stepWritten_settled (o : MOwner) (s : State) :
    (stepWritten o s).settled = s.settled := by
  unfold stepWritten
  first
  | with_reducible rfl
  | ((try dsimp only); repeat' split) <;> (first | (with_reducible rfl) | (simp only [settled_mk, settled_eta, apply_ite State.settled, ite_self, count1_settled]; done) | (simp only [settled_mk, settled_eta, apply_ite State.settled, ite_self, foldl_settled, implies_true, count1_settled]; done) | (simp_all only [settled_mk, settled_eta, apply_ite State.settled, ite_self, foldl_settled, implies_true, count1_settled]; done))

theorem ownerOwes_settled (o : MOwner) (tl seq : Nat) (s : State) :
    (ownerOwes o tl seq s).settled = s.settled := by
  unfold ownerOwes
  first
  | with_reducible rfl
  | ((try dsimp only); repeat' split) <;> (first | (with_reducible rfl) | (simp only [settled_mk, settled_eta, apply_ite State.settled, ite_self, tagOwe_settled]; done) | (simp only [settled_mk, settled_eta, apply_ite State.settled, ite_self, foldl_settled, implies_true, tagOwe_settled]; done) | (simp_all only [settled_mk, settled_eta, apply_ite State.settled, ite_self, foldl_settled, implies_true, tagOwe_settled]; done))

theorem writeIssue_settled (w : WriteReq) (ks : List Block) (f : Faults) (s : State) :
    (writeIssue w ks f s).settled = s.settled := by
  unfold writeIssue
  (try dsimp only); (repeat' split) <;> simp only [settled_mk, settled_eta, ownerOwes_settled, tagWrite_settled, tagSecded_settled, wbFetches_settled, issueW_settled, ownerIssued_settled, stepWritten_settled, tagUnreserve_settled, aheadIssued_settled]

theorem ownerHeld_settled (o : MOwner) (s : State) :
    (ownerHeld o s).settled = s.settled := by
  unfold ownerHeld
  (try dsimp only); (repeat' split) <;> simp only [settled_mk, settled_eta, txnPut_settled, voteHold_settled]

theorem writeSlice_settled (w : WriteReq) (k : GenKeys) (f : Faults) (s : State) :
    (writeSlice w k f s).settled = s.settled := by
  unfold writeSlice
  (try dsimp only); (repeat' split) <;> simp only [settled_mk, settled_eta, writeIssue_settled, tagReserve_settled, tagUnreserve_settled, ownerHeld_settled, voteHold_settled]

theorem txnFinish_settled (t : Txn) (status : Nat) (s : State) :
    (txnFinish t status s).settled = s.settled := by
  unfold txnFinish
  simp only [settled_mk, settled_eta, completeBare_settled, tagUnreserve_settled, txnDel_settled]

theorem writeGo_settled (t : Txn) (e : BitVec 64) (f : Faults) (s : State) :
    (writeGo t e f s).settled = s.settled := by
  unfold writeGo
  (try dsimp only); (repeat' split) <;>
    ((try have hk_nextLctr := nextLctr_settled_of (by assumption : nextLctr _ _ _ _ _ = _)); simp_all only [settled_mk, settled_eta, apply_ite State.settled, foldl_settled, ite_self, txnFinish_settled, nextLctr_settled, spentNote_settled, writeSlice_settled])

theorem entryFromSide_settled (kidx a : Nat) (sc : Side) (s : State) :
    (entryFromSide kidx a sc s).2.settled = s.settled := by
  unfold entryFromSide
  (try dsimp only); (repeat' split) <;> simp only [settled_mk, settled_eta, jackFill_settled]

theorem entryFromSide_settled_of {kidx a : Nat} {sc : Side} {s : State} {pp} (h : entryFromSide kidx a sc s = pp) : pp.2.settled = s.settled := h ▸ entryFromSide_settled kidx a sc s

theorem entryResolve_settled (kidx a : Nat) (sc : Side) (pe : Bool) (s : State) :
    (entryResolve kidx a sc pe s).2.settled = s.settled := by
  unfold entryResolve
  first
  | with_reducible rfl
  | ((try dsimp only); repeat' split) <;> (first | (with_reducible rfl) | (simp only [settled_mk, settled_eta, apply_ite State.settled, ite_self, jackLookup_settled, count1_settled, entryFromSide_settled]; done) | ((try have hk_jackLookup := jackLookup_settled_of (by assumption : jackLookup _ _ _ _ = _)); (try have hk_entryFromSide := entryFromSide_settled_of (by assumption : entryFromSide _ _ _ _ = _)); simp_all only [settled_mk, settled_eta, apply_ite State.settled, foldl_settled, ite_self, jackLookup_settled, count1_settled, entryFromSide_settled]; done) | (simp only [settled_mk, settled_eta, apply_ite State.settled, ite_self, foldl_settled, implies_true, jackLookup_settled, count1_settled, entryFromSide_settled]; done) | (simp_all only [settled_mk, settled_eta, apply_ite State.settled, ite_self, foldl_settled, implies_true, jackLookup_settled, count1_settled, entryFromSide_settled]; done))

theorem entryResolve_settled_of {kidx a : Nat} {sc : Side} {pe : Bool} {s : State} {pp} (h : entryResolve kidx a sc pe s = pp) : pp.2.settled = s.settled := h ▸ entryResolve_settled kidx a sc pe s

theorem writeResolve_settled (t : Txn) (f : Faults) (s : State) :
    (writeResolve t f s).settled = s.settled := by
  unfold writeResolve
  (try dsimp only); (repeat' split) <;>
    ((try have hk_jackLookup := jackLookup_settled_of (by assumption : jackLookup _ _ _ _ = _)); simp_all only [settled_mk, settled_eta, apply_ite State.settled, foldl_settled, ite_self, jackLookup_settled, writeGo_settled, count1_settled, txnPut_settled, lookAhead_settled, probeAdd_settled, tagReserve_settled])

theorem readReply_settled (t : Txn) (status : Nat) (data : Option Line) (psn : Bool) (extra : Side) (s : State) :
    (readReply t status data psn extra s).settled = s.settled := by
  unfold readReply
  simp only [settled_mk, settled_eta, complete_settled, txnDel_settled]

theorem partialRefuse_settled (t : Txn) (status : Nat) (s : State) :
    (partialRefuse t status s).settled = s.settled := by
  unfold partialRefuse
  simp only [settled_mk, settled_eta, txnFinish_settled, count1_settled]

theorem partialMerge_settled (t : Txn) (old : Line) (oldPsn : Bool) (line : BitVec 576) (s : State) :
    (partialMerge t old oldPsn line s).settled = s.settled := by
  unfold partialMerge
  (try dsimp only); (repeat' split) <;> simp only [settled_mk, settled_eta, txnConsume_settled]

theorem stepCount_settled (n sub : Nat) (s : State) :
    (stepCount n sub s).settled = s.settled := by
  unfold stepCount
  simp only [settled_mk, settled_eta, count1_settled]

theorem lineFault_settled (n a status row : Nat) (s : State) :
    (lineFault n a status row s).settled = s.settled := by
  unfold lineFault
  first
  | with_reducible rfl
  | ((try dsimp only); repeat' split) <;> (first | (with_reducible rfl) | (simp only [settled_mk, settled_eta, apply_ite State.settled, ite_self, raise_settled, stepCount_settled]; done) | (simp only [settled_mk, settled_eta, apply_ite State.settled, ite_self, foldl_settled, implies_true, raise_settled, stepCount_settled]; done) | (simp_all only [settled_mk, settled_eta, apply_ite State.settled, ite_self, foldl_settled, implies_true, raise_settled, stepCount_settled]; done))

theorem stepSkip_settled (n a : Nat) (s : State) :
    (stepSkip n a s).settled = s.settled := by
  unfold stepSkip
  simp only [settled_mk, settled_eta, rkPoll_settled, stepEnd_settled, stepCount_settled]

theorem stepFail_settled (n a status row : Nat) (s : State) :
    (stepFail n a status row s).settled = s.settled := by
  unfold stepFail
  simp only [settled_mk, settled_eta, rkPoll_settled, stepEnd_settled, lineFault_settled]

theorem stepsLost_settled (m : Nat) (s : State) :
    (stepsLost m s).settled = s.settled := by
  unfold stepsLost
  (try dsimp only); (repeat' split) <;>
    simp only [settled_mk, settled_eta, apply_ite State.settled, ite_self, foldl_settled, implies_true, stepFail_settled]

theorem stepWrite_settled (n a : Nat) (pt : Line) (psn : Bool) (sc : Side) (s : State) :
    (stepWrite n a pt psn sc s).settled = s.settled := by
  unfold stepWrite
  simp only [settled_mk, settled_eta, stepMod_settled]

theorem deliver_settled (o : MOwner) (row status : Nat) (pt : Line) (line : BitVec 576) (s : State) :
    (deliver o row status pt line s).settled = s.settled := by
  unfold deliver
  (try dsimp only); (repeat' split) <;> simp only [settled_mk, settled_eta, partialMerge_settled, partialRefuse_settled, readReply_settled, stepWrite_settled, lineFault_settled]

theorem deliverNone_settled (o : MOwner) (row status : Nat) (s : State) :
    (deliverNone o row status s).settled = s.settled := by
  unfold deliverNone
  (try dsimp only); (repeat' split) <;> simp only [settled_mk, settled_eta, partialRefuse_settled, readReply_settled, stepSkip_settled, stepFail_settled]

theorem tagFailNote_settled (kidx a sl : Nat) (torn total : Bool) (cecho : Nat) (s : State) :
    (tagFailNote kidx a sl torn total cecho s).settled = s.settled := by
  unfold tagFailNote
  simp only [settled_mk, settled_eta, apply_ite State.settled, ite_self, count1_settled, raise_settled]

theorem virginNote_settled (sl : Nat) (sc : Side) (s : State) :
    (virginNote sl sc s).settled = s.settled := by
  unfold virginNote
  first
  | with_reducible rfl
  | ((try dsimp only); repeat' split) <;> (first | (with_reducible rfl) | (simp only [settled_mk, settled_eta, apply_ite State.settled, ite_self, count1_settled]; done) | (simp only [settled_mk, settled_eta, apply_ite State.settled, ite_self, foldl_settled, implies_true, count1_settled]; done) | (simp_all only [settled_mk, settled_eta, apply_ite State.settled, ite_self, foldl_settled, implies_true, count1_settled]; done))

theorem deliverVirgin_settled (o : MOwner) (kidx a m : Nat) (line : BitVec 576) (s : State) :
    (deliverVirgin o kidx a m line s).settled = s.settled := by
  unfold deliverVirgin
  (try dsimp only); (repeat' split) <;> simp only [settled_mk, settled_eta, virginNote_settled, stepSkip_settled, tagFailNote_settled, partialRefuse_settled, readReply_settled, partialMerge_settled]

theorem deliverGood_settled (o : MOwner) (line : BitVec 576) (ks : List Block) (s : State) :
    (deliverGood o line ks s).settled = s.settled := by
  unfold deliverGood
  simp only [settled_mk, settled_eta, apply_ite State.settled, ite_self, deliver_settled]

theorem ownerSt_settled (o : MOwner) (st : TxSt) (s : State) :
    (ownerSt o st s).settled = s.settled := by
  unfold ownerSt
  (try dsimp only); (repeat' split) <;> simp only [settled_mk, settled_eta, txnPut_settled]

theorem readVerify_settled (h : Hold) (d : Line) (s : State) :
    (readVerify h d s).settled = s.settled := by
  unfold readVerify
  (try dsimp only); (repeat' split) <;> simp only [settled_mk, settled_eta, tagFailNote_settled, tagFailCount_settled, deliver_settled, deliverGood_settled, ownerSt_settled]

theorem tagFetchLost_settled (h : Hold) (s : State) :
    (tagFetchLost h s).settled = s.settled := by
  unfold tagFetchLost
  (try dsimp only); (repeat' split) <;> simp only [settled_mk, settled_eta, stepWrite_settled, lineFault_settled, deliverNone_settled]

theorem readTagged_settled (h : Hold) (s : State) :
    (readTagged h s).settled = s.settled := by
  unfold readTagged
  (try dsimp only); (repeat' split) <;> simp only [settled_mk, settled_eta, readVerify_settled, tagFetchLost_settled, taglineMedia_settled, ownerSt_settled, fetchAsk_settled]

theorem readDecrypt_settled (o : MOwner) (kidx a m : Nat) (g : BitVec 32) (k : GenKeys) (line : BitVec 576) (f : Faults) (s : State) :
    (readDecrypt o kidx a m g k line f s).settled = s.settled := by
  unfold readDecrypt
  (try dsimp only); (repeat' split) <;> simp only [settled_mk, settled_eta, readTagged_settled, ownerSt_settled, voteHold_settled]

theorem readJack_settled (t : Txn) (line : BitVec 576) (row : EarlyRow) (s : State) :
    (readJack t line row s).settled = s.settled := by
  unfold readJack
  (try dsimp only); (repeat' split) <;> simp only [settled_mk, settled_eta, count1_settled, jackFill_settled]

theorem purgeDecide_settled (n kidx a : Nat) (line : BitVec 576) (s : State) :
    (purgeDecide n kidx a line s).settled = s.settled := by
  unfold purgeDecide
  simp only [settled_mk, settled_eta, apply_ite State.settled, ite_self, stepSkip_settled, stepWrite_settled]

theorem formatDecide_settled (n kidx a : Nat) (line : BitVec 576) (s : State) :
    (formatDecide n kidx a line s).settled = s.settled := by
  unfold formatDecide
  simp only [settled_mk, settled_eta, apply_ite State.settled, ite_self, stepSkip_settled, stepWrite_settled]

theorem lineChecks_settled (o : MOwner) (kidx a m : Nat) (line : BitVec 576) (f : Faults) (s : State) :
    (lineChecks o kidx a m line f s).settled = s.settled := by
  unfold lineChecks
  (try dsimp only); (repeat' split) <;> simp only [settled_mk, settled_eta, count1_settled, deliverVirgin_settled, deliverNone_settled, stepMod_settled, readDecrypt_settled]

theorem lineTake_settled (o : MOwner) (m : Nat) (line : BitVec 576) (f : Faults) (s : State) :
    (lineTake o m line f s).settled = s.settled := by
  unfold lineTake
  (try dsimp only); (repeat' split) <;> simp only [settled_mk, settled_eta, readReply_settled, lineChecks_settled, readJack_settled, jackCompare_settled, formatDecide_settled, virginNote_settled, purgeDecide_settled]

theorem lostForget_settled (o : MOwner) (s : State) :
    (lostForget o s).settled = s.settled := by
  unfold lostForget
  simp only [settled_mk, settled_eta, apply_ite State.settled, ite_self]

theorem lineArrived_settled (o : MOwner) (m : Nat) (line : BitVec 576) (f : Faults) (s : State) :
    (lineArrived o m line f s).settled = s.settled := by
  unfold lineArrived
  simp only [settled_mk, settled_eta, apply_ite State.settled, ite_self, lostForget_settled, deliverNone_settled, lineTake_settled]

theorem lineLost_settled (o : MOwner) (s : State) :
    (lineLost o s).settled = s.settled := by
  unfold lineLost
  (try dsimp only); (repeat' split) <;> simp only [settled_mk, settled_eta, lostForget_settled, deliverNone_settled]

theorem holdDel_settled (h : Hold) (s : State) :
    (holdDel h s).settled = s.settled := by
  unfold holdDel
  simp only [settled_mk, settled_eta]

theorem schkFault_settled (h : Hold) (persistent : Bool) (s : State) :
    (schkFault h persistent s).settled = s.settled := by
  unfold schkFault
  simp only [settled_mk, settled_eta, apply_ite State.settled, ite_self, count1_settled, regPut_settled, raiseSev_settled, prioDirection_settled]

theorem doSchkRecompute_settled (sl : Nat) (f : Faults) (s : State) :
    (doSchkRecompute sl f s).settled = s.settled := by
  unfold doSchkRecompute
  (try dsimp only); (repeat' split) <;> simp only [settled_mk, settled_eta, holdDel_settled, deliverGood_settled, schkFault_settled, deliver_settled]

theorem purgePut_settled (m n a : Nat) (pay : Line) (c : Option (BitVec 32 × BitVec 24)) (s : State) :
    (purgePut m n a pay c s).settled = s.settled := by
  unfold purgePut
  first
  | with_reducible rfl
  | ((try dsimp only); repeat' split) <;> (first | (with_reducible rfl) | (simp only [settled_mk, settled_eta, apply_ite State.settled, ite_self, issueW_settled, stepMod_settled, stepWritten_settled]; done) | (simp only [settled_mk, settled_eta, apply_ite State.settled, ite_self, foldl_settled, implies_true, issueW_settled, stepMod_settled, stepWritten_settled]; done) | (simp_all only [settled_mk, settled_eta, apply_ite State.settled, ite_self, foldl_settled, implies_true, issueW_settled, stepMod_settled, stepWritten_settled]; done))

theorem voteContinue_settled (h : Hold) (ks : List Block) (f : Faults) (s : State) :
    (voteContinue h ks f s).settled = s.settled := by
  unfold voteContinue
  (try dsimp only); (repeat' split) <;> simp only [settled_mk, settled_eta, purgePut_settled, writeIssue_settled, readTagged_settled]

theorem voteAbandon_settled (h : Hold) (s : State) :
    (voteAbandon h s).settled = s.settled := by
  unfold voteAbandon
  (try dsimp only); (repeat' split) <;> simp only [settled_mk, settled_eta, count1_settled, slicePut_settled, txnFinish_settled, deliverNone_settled, stepFail_settled]

theorem voteRelease_settled (h : Hold) (chk : Bool) (s : State) :
    (voteRelease h chk s).settled = s.settled := by
  unfold voteRelease
  first
  | with_reducible rfl
  | ((try dsimp only); repeat' split) <;> (first | (with_reducible rfl) | (simp only [settled_mk, settled_eta, apply_ite State.settled, ite_self, voteContinue_settled, holdDel_settled]; done) | (simp only [settled_mk, settled_eta, apply_ite State.settled, ite_self, foldl_settled, implies_true, voteContinue_settled, holdDel_settled]; done) | (simp_all only [settled_mk, settled_eta, apply_ite State.settled, ite_self, foldl_settled, implies_true, voteContinue_settled, holdDel_settled]; done))

theorem doVote_settled (sl : Nat) (dir : Dir) (f : Faults) (s : State) :
    (doVote sl dir f s).settled = s.settled := by
  unfold doVote
  (try dsimp only); (repeat' split) <;> simp only [settled_mk, settled_eta, voteCharge_settled, holdDel_settled, voteContinue_settled, voteAbandon_settled, voteRelease_settled]

theorem standFor_settled (sl : Nat) (s : State) :
    (standFor sl s).settled = s.settled := by
  unfold standFor
  first
  | with_reducible rfl
  | ((try dsimp only); repeat' split) <;> (first | (with_reducible rfl) | (simp only [settled_mk, settled_eta, apply_ite State.settled, ite_self, slicePut_settled]; done) | (simp only [settled_mk, settled_eta, apply_ite State.settled, ite_self, foldl_settled, implies_true, slicePut_settled]; done) | (simp_all only [settled_mk, settled_eta, apply_ite State.settled, ite_self, foldl_settled, implies_true, slicePut_settled]; done))

theorem selfTest_settled (sl : Nat) (f : Faults) (s : State) :
    (selfTest sl f s).settled = s.settled := by
  unfold selfTest
  (try dsimp only); (repeat' split) <;>
    simp only [settled_mk, settled_eta, apply_ite State.settled, ite_self, foldl_settled, implies_true, standFor_settled, pipeCharge_settled]

theorem tagMakeRoom_settled (s : State) :
    (tagMakeRoom s).settled = s.settled := by
  unfold tagMakeRoom
  (try dsimp only); (repeat' split) <;>
    simp only [settled_mk, settled_eta, apply_ite State.settled, ite_self, foldl_settled, implies_true, wbFetches_settled, wayEvict_settled]

theorem slotUse_settled (m : Nat) (d : Dir) (c : Cls) (line : Nat) (s : State) :
    (slotUse m d c line s).settled = s.settled := by
  unfold slotUse
  simp only [settled_mk, settled_eta, mediaMod_settled]

theorem commitHoldNote_settled (i : Item) (step : Nat) (s : State) :
    (commitHoldNote i step s).settled = s.settled := by
  unfold commitHoldNote
  simp only [settled_mk, settled_eta, raise_settled, count1_settled]

theorem itemDel_settled (i : Item) (s : State) :
    (itemDel i s).settled = s.settled := by
  unfold itemDel
  simp only [settled_mk, settled_eta, stickyTrim_settled]

theorem sumUpN_settled (e : Ev) (src a b c n : Nat) (s : State) : (sumUpN e src a b c n s).settled = s.settled := by
  unfold sumUpN
  induction n with
  | zero => rfl
  | succ n ih => simp only [Nat.repeat, sumUp_settled, ih]

theorem wordsNote_settled (src q kind n : Nat) (s : State) :
    (wordsNote src q kind n s).settled = s.settled := by
  unfold wordsNote
  first
  | with_reducible rfl
  | ((try dsimp only); repeat' split) <;> (first | (with_reducible rfl) | (simp only [settled_mk, settled_eta, apply_ite State.settled, ite_self, sumUpN_settled, countUp_settled]; done) | (simp only [settled_mk, settled_eta, apply_ite State.settled, ite_self, foldl_settled, implies_true, sumUpN_settled, countUp_settled]; done) | (simp_all only [settled_mk, settled_eta, apply_ite State.settled, ite_self, foldl_settled, implies_true, sumUpN_settled, countUp_settled]; done))

theorem wordFaults_settled (i : Item) (f : Faults) (s : State) :
    (wordFaults i f s).settled = s.settled := by
  unfold wordFaults
  simp only [settled_mk, settled_eta, apply_ite State.settled, ite_self, wordsNote_settled]

theorem keyFaults_settled (kidx : Nat) (f : Faults) (s : State) :
    (keyFaults kidx f s).settled = s.settled := by
  unfold keyFaults
  simp only [settled_mk, settled_eta, apply_ite State.settled, ite_self, count1_settled, ctxSuspendAbsent_settled, raise_settled, slotZeroize_settled]

theorem hdrLost_settled (i : Item) (mask : List Nat) (s : State) :
    (hdrLost i mask s).settled = s.settled := by
  unfold hdrLost
  (try dsimp only); (repeat' split) <;>
    simp only [settled_mk, settled_eta, apply_ite State.settled, ite_self, foldl_settled, implies_true, raise_settled, count1_settled, linkDown_settled, completeBare_settled]

theorem grantRead_settled (i : Item) (f : Faults) (s : State) :
    (grantRead i f s).2.settled = s.settled := by
  unfold grantRead
  (try dsimp only); (repeat' split) <;> simp only [settled_mk, settled_eta, queueReset_settled, wordsNote_settled, itemDel_settled, completeBare_settled, count1_settled, hdrLost_settled]

theorem grantRead_settled_of {i : Item} {f : Faults} {s : State} {pp} (h : grantRead i f s = pp) : pp.2.settled = s.settled := h ▸ grantRead_settled i f s

theorem grantRefuse_settled (i : Item) (step st : Nat) (s : State) :
    (grantRefuse i step st s).settled = s.settled := by
  unfold grantRefuse
  simp only [settled_mk, settled_eta, apply_ite State.settled, ite_self, completeBare_settled, commitHoldNote_settled]

theorem txnOpen_settled (i : Item) (st : TxSt) (s : State) :
    (txnOpen i st s).2.settled = s.settled := by
  unfold txnOpen
  (try dsimp only); (repeat' split) <;> simp only [settled_mk, settled_eta, txnAdd_settled]

theorem txnOpen_settled_of {i : Item} {st : TxSt} {s : State} {pp} (h : txnOpen i st s = pp) : pp.2.settled = s.settled := h ▸ txnOpen_settled i st s

theorem grantItemThen_settled (m : Nat) (d : Dir) (c : Cls) (i : Item) (f : Faults) (go : Item → State → State) (s : State)
    (hgo : ∀ i s, (go i s).settled = s.settled) : (grantItemThen m d c i f go s).settled = s.settled := by
  unfold grantItemThen
  dsimp only
  split
  · rename_i heq; have hk := grantRead_settled_of heq; simp only [rowErrors_settled, slotUse_settled] at hk; exact hk
  · rename_i heq
    have hk := grantRead_settled_of heq
    simp only [rowErrors_settled, slotUse_settled] at hk
    split <;> simp only [hgo, grantRefuse_settled, keyFaults_settled, hk]

theorem readGrant_settled (m : Nat) (f : Faults) (i : Item) (s : State) : (readGrant m f i s).settled = s.settled := by
  unfold readGrant
  split
  rename_i t s1 heq
  have hk : s1.settled = s.settled := txnOpen_settled_of heq
  dsimp only
  rw [issueR_settled]
  split
  · split <;> (rename_i hj; have hk2 := jackLookup_settled_of hj; simp only [txnPut_settled] at hk2) <;>
      simp only [txnPut_settled, count1_settled, lookAhead_settled, hk2] <;> split <;> simp only [tagLookup_settled, hk]
  · exact hk

theorem doFgReadGrant_settled (m : Nat) (f : Faults) (s : State) :
    (doFgReadGrant m f s).settled = s.settled := by
  unfold doFgReadGrant
  (try dsimp only); (repeat' split) <;>
    simp only [settled_mk, settled_eta, apply_ite State.settled, ite_self, foldl_settled, implies_true, grantItemThen_settled, readGrant_settled]

theorem rawPoisonNote_settled (i : Item) (s : State) :
    (rawPoisonNote i s).settled = s.settled := by
  unfold rawPoisonNote
  simp only [settled_mk, settled_eta, raise_settled, count1_settled]

theorem rawAhead_settled (i : Item) (sc : Side) (s : State) :
    (rawAhead i sc s).settled = s.settled := by
  unfold rawAhead
  (try dsimp only); (repeat' split) <;> simp only [settled_mk, settled_eta, raise_settled, aheadAdd_settled]

theorem rawWriteGrant_settled (m : Nat) (f : Faults) (i : Item) (s : State) :
    (rawWriteGrant m f i s).settled = s.settled := by
  unfold rawWriteGrant
  simp only [settled_mk, settled_eta, apply_ite State.settled, ite_self, txnOpen_settled, wordFaults_settled, rawPoisonNote_settled, txnConsume_settled, rawAhead_settled, probeVoid_settled, jackInvalidate_settled, issueW_settled]

theorem fullWriteGrant_settled (f : Faults) (i : Item) (s : State) :
    (fullWriteGrant f i s).settled = s.settled := by
  unfold fullWriteGrant
  simp only [settled_mk, settled_eta, apply_ite State.settled, ite_self, wordFaults_settled, completeBare_settled, txnOpen_settled, writeResolve_settled, txnPut_settled]

theorem maskRepair_settled (m : Nat) (f : Faults) (i : Item) (s : State) :
    (maskRepair m f i s).settled = s.settled := by
  unfold maskRepair
  first
  | with_reducible rfl
  | ((try dsimp only); repeat' split) <;> (first | (with_reducible rfl) | (simp only [settled_mk, settled_eta, apply_ite State.settled, ite_self, wordFaults_settled, rowErrors_settled, slotUse_settled]; done) | (simp only [settled_mk, settled_eta, apply_ite State.settled, ite_self, foldl_settled, implies_true, wordFaults_settled, rowErrors_settled, slotUse_settled]; done) | (simp_all only [settled_mk, settled_eta, apply_ite State.settled, ite_self, foldl_settled, implies_true, wordFaults_settled, rowErrors_settled, slotUse_settled]; done))

theorem doFgWriteGrant_settled (m : Nat) (f : Faults) (s : State) :
    (doFgWriteGrant m f s).settled = s.settled := by
  unfold doFgWriteGrant
  (try dsimp only); (repeat' split) <;>
    simp only [settled_mk, settled_eta, apply_ite State.settled, ite_self, foldl_settled, implies_true, jackLookup_settled, maskRepair_settled, grantItemThen_settled, rawWriteGrant_settled, fullWriteGrant_settled]

theorem partialReadStart_settled (m : Nat) (f : Faults) (i : Item) (s : State) :
    (partialReadStart m f i s).settled = s.settled := by
  unfold partialReadStart
  (try dsimp only); (repeat' split) <;> simp only [settled_mk, settled_eta, wordFaults_settled, txnOpen_settled, txnPut_settled, tagReserve_settled, tagLookup_settled, issueR_settled]

theorem doPartialReadGrant_settled (m : Nat) (f : Faults) (s : State) :
    (doPartialReadGrant m f s).settled = s.settled := by
  unfold doPartialReadGrant
  (try dsimp only); (repeat' split) <;>
    simp only [settled_mk, settled_eta, apply_ite State.settled, ite_self, foldl_settled, implies_true, grantItemThen_settled, partialReadStart_settled]

theorem doPartialWriteGrant_settled (m : Nat) (f : Faults) (s : State) :
    (doPartialWriteGrant m f s).settled = s.settled := by
  unfold doPartialWriteGrant
  (try dsimp only); (repeat' split) <;> simp only [settled_mk, settled_eta, rowErrors_settled, slotUse_settled, keyFaults_settled, txnFinish_settled, entryResolve_settled, txnPut_settled, writeGo_settled]

theorem rawTagReply_settled (t : Txn) (d : Line) (s : State) :
    (rawTagReply t d s).settled = s.settled := by
  unfold rawTagReply
  simp only [settled_mk, settled_eta, readReply_settled]

theorem rawTagRead_settled (m : Nat) (f : Faults) (i : Item) (s : State) :
    (rawTagRead m f i s).settled = s.settled := by
  unfold rawTagRead
  (try dsimp only); (repeat' split) <;> simp only [settled_mk, settled_eta, txnOpen_settled, tagSecded_settled, rawTagReply_settled, fetchAsk_settled, issueR_settled]

theorem fetchIssue_settled (m : Nat) (f : TagFetch) (s : State) :
    (fetchIssue m f s).settled = s.settled := by
  unfold fetchIssue
  first
  | with_reducible rfl
  | ((try dsimp only); repeat' split) <;> (first | (with_reducible rfl) | (simp only [settled_mk, settled_eta, apply_ite State.settled, ite_self, slotUse_settled, issueR_settled]; done) | (simp only [settled_mk, settled_eta, apply_ite State.settled, ite_self, foldl_settled, implies_true, slotUse_settled, issueR_settled]; done) | (simp_all only [settled_mk, settled_eta, apply_ite State.settled, ite_self, foldl_settled, implies_true, slotUse_settled, issueR_settled]; done))

theorem doTaglineFetch_settled (m : Nat) (ft : Faults) (s : State) :
    (doTaglineFetch m ft s).settled = s.settled := by
  unfold doTaglineFetch
  (try dsimp only); (repeat' split) <;>
    simp only [settled_mk, settled_eta, apply_ite State.settled, ite_self, foldl_settled, implies_true, fetchIssue_settled, grantItemThen_settled, rawTagRead_settled]

theorem rawTagWrite_settled (m : Nat) (f : Faults) (i : Item) (s : State) :
    (rawTagWrite m f i s).settled = s.settled := by
  unfold rawTagWrite
  simp only [settled_mk, settled_eta, apply_ite State.settled, ite_self, txnOpen_settled, wordFaults_settled, rawPoisonNote_settled, issueW_settled, tagDropLine_settled, txnConsume_settled]

theorem wbSlot_settled (m k : Nat) (x : TagWay) (f : Faults) (s : State) :
    (wbSlot m k x f s).settled = s.settled := by
  unfold wbSlot
  simp only [settled_mk, settled_eta, apply_ite State.settled, ite_self, tagSecded_settled, rowErrors_settled, slotUse_settled, wbIssue_settled]

theorem doTagWriteback_settled (m : Nat) (f : Faults) (s : State) :
    (doTagWriteback m f s).settled = s.settled := by
  unfold doTagWriteback
  (try dsimp only); (repeat' split) <;>
    simp only [settled_mk, settled_eta, apply_ite State.settled, ite_self, foldl_settled, implies_true, wbSlot_settled, grantItemThen_settled, rawTagWrite_settled]

theorem doSidecarProbe_settled (m : Nat) (s : State) :
    (doSidecarProbe m s).settled = s.settled := by
  unfold doSidecarProbe
  simp only [settled_mk, settled_eta, apply_ite State.settled, ite_self, probeIssue_settled, slotUse_settled]

theorem doLookaheadProbe_settled (m : Nat) (s : State) :
    (doLookaheadProbe m s).settled = s.settled := by
  unfold doLookaheadProbe
  simp only [settled_mk, settled_eta, apply_ite State.settled, ite_self, probeIssue_settled, slotUse_settled]

theorem doPrefillProbe_settled (m : Nat) (s : State) :
    (doPrefillProbe m s).settled = s.settled := by
  unfold doPrefillProbe
  (try dsimp only); (repeat' split) <;> simp only [settled_mk, settled_eta, probesPut_settled, probeIssue_settled, slotUse_settled]

theorem doRekeyTake_settled (n : Nat) (s : State) :
    (doRekeyTake n s).settled = s.settled := by
  unfold doRekeyTake
  simp only [settled_mk, settled_eta, apply_ite State.settled, ite_self, takeLine_settled, rkPoll_settled, stepsLost_settled]

theorem rrSet_settled (m : Nat) (d : Dir) (n : Nat) (s : State) :
    (rrSet m d n s).settled = s.settled := by
  unfold rrSet
  simp only [settled_mk, settled_eta]

theorem stepTagAsk_settled (n a : Nat) (f : Faults) (s : State) :
    (stepTagAsk n a f s).settled = s.settled := by
  unfold stepTagAsk
  (try dsimp only); (repeat' split) <;> simp only [settled_mk, settled_eta, tagLookup_settled]

theorem doRekeyStep_settled (m : Nat) (f : Faults) (s : State) :
    (doRekeyStep m f s).settled = s.settled := by
  unfold doRekeyStep
  (try dsimp only); (repeat' split) <;> simp only [settled_mk, settled_eta, rowErrors_settled, rrSet_settled, slotUse_settled, ctxPut_settled, stepMod_settled, issueR_settled, stepTagAsk_settled]

theorem purgeWrite_settled (m n : Nat) (x : StepLine) (f : Faults) (s : State) :
    (purgeWrite m n x f s).settled = s.settled := by
  unfold purgeWrite
  (try dsimp only); (repeat' split) <;>
    ((try have hk_entryResolve := entryResolve_settled_of (by assumption : entryResolve _ _ _ _ _ = _)); (try have hk_nextLctr := nextLctr_settled_of (by assumption : nextLctr _ _ _ _ _ = _)); simp_all only [settled_mk, settled_eta, apply_ite State.settled, foldl_settled, ite_self, purgePut_settled, entryResolve_settled, nextLctr_settled, voteHold_settled])

theorem stepWriteGo_settled (m n : Nat) (x : StepLine) (f : Faults) (s : State) :
    (stepWriteGo m n x f s).settled = s.settled := by
  unfold stepWriteGo
  (try dsimp only); (repeat' split) <;>
    ((try have hk_entryResolve := entryResolve_settled_of (by assumption : entryResolve _ _ _ _ _ = _)); (try have hk_nextLctr := nextLctr_settled_of (by assumption : nextLctr _ _ _ _ _ = _)); simp_all only [settled_mk, settled_eta, apply_ite State.settled, foldl_settled, ite_self, stepMod_settled, entryResolve_settled, nextLctr_settled, stepFail_settled, spentNote_settled, writeSlice_settled])

theorem doRekeyStepWrite_settled (m : Nat) (f : Faults) (s : State) :
    (doRekeyStepWrite m f s).settled = s.settled := by
  unfold doRekeyStepWrite
  (try dsimp only); (repeat' split) <;> simp only [settled_mk, settled_eta, rowErrors_settled, rrSet_settled, slotUse_settled, stepMod_settled, purgeWrite_settled, stepWriteGo_settled]

theorem voteCmd_settled (sl : Nat) (d : Dir) (f : Faults) (s : State) :
    (voteCmd sl d f s).settled = s.settled := by
  unfold voteCmd
  (try dsimp only); (repeat' split) <;> simp only [settled_mk, settled_eta, selfTest_settled, doVote_settled, slotUse_settled]

theorem schkCmd_settled (sl : Nat) (f : Faults) (s : State) :
    (schkCmd sl f s).settled = s.settled := by
  unfold schkCmd
  (try dsimp only); (repeat' split) <;> simp only [settled_mk, settled_eta, doSchkRecompute_settled, slotUse_settled]

theorem doRowRepair_settled (m : Nat) (s : State) :
    (doRowRepair m s).settled = s.settled := by
  unfold doRowRepair
  (try dsimp only); (repeat' split) <;> simp only [settled_mk, settled_eta, slotUse_settled, raise_settled, countUp_settled, rowRemap_settled, logAppend_settled]

theorem flushIssue_settled (m : Nat) (o : MOwner) (s : State) :
    (flushIssue m o s).settled = s.settled := by
  unfold flushIssue
  simp only [settled_mk, settled_eta, issueW_settled, slotUse_settled]

theorem doFlushPersist_settled (m : Nat) (s : State) :
    (doFlushPersist m s).settled = s.settled := by
  unfold doFlushPersist
  (try dsimp only); (repeat' split) <;> simp only [settled_mk, settled_eta, flushIssue_settled, mediaMod_settled]

theorem drainCkpt_settled (s : State) (n : Nat) :
    (drainCkpt s n).settled = s.settled := by
  unfold drainCkpt
  simp only [settled_mk, settled_eta, apply_ite State.settled, ite_self, ckptPush_settled, ctxPut_settled]

theorem drainPoll_settled (s : State) :
    (drainPoll s).settled = s.settled := by
  unfold drainPoll
  (try dsimp only); (repeat' split) <;>
    simp only [settled_mk, settled_eta, apply_ite State.settled, ite_self, foldl_settled, implies_true, drainCkpt_settled, nvPush_settled]

theorem ctxAbandon_settled (s : State) (n : Nat) :
    (ctxAbandon s n).settled = s.settled := by
  unfold ctxAbandon
  simp only [settled_mk, settled_eta, apply_ite State.settled, ite_self, stepsDrop_settled, ctxPut_settled]

theorem fetchLostOwner_settled (tl : Nat) (s : State) (o : MOwner) :
    (fetchLostOwner tl s o).settled = s.settled := by
  unfold fetchLostOwner
  (try dsimp only); (repeat' split) <;> simp only [settled_mk, settled_eta, tagFetchLost_settled, holdDel_settled, readReply_settled]

theorem tagFetchFail_settled (tl : Nat) (s : State) :
    (tagFetchFail tl s).settled = s.settled := by
  unfold tagFetchFail
  (try dsimp only); (repeat' split) <;>
    simp only [settled_mk, settled_eta, apply_ite State.settled, ite_self, foldl_settled, implies_true, taglineMedia_settled, wayPut_settled, fetchLostOwner_settled, wbFetches_settled]

theorem fetchGotOwner_settled (tl : Nat) (d : Line) (s : State) (o : MOwner) :
    (fetchGotOwner tl d s o).settled = s.settled := by
  unfold fetchGotOwner
  (try dsimp only); (repeat' split) <;> simp only [settled_mk, settled_eta, readVerify_settled, holdDel_settled, rawTagReply_settled, txnPut_settled]

theorem tagFetchGot_settled (tl : Nat) (line : BitVec 576) (s : State) :
    (tagFetchGot tl line s).settled = s.settled := by
  unfold tagFetchGot
  (try dsimp only); (repeat' split) <;>
    simp only [settled_mk, settled_eta, apply_ite State.settled, ite_self, foldl_settled, implies_true, tlEv_settled, count1_settled, tagMerge_settled, fetchGotOwner_settled]

theorem probeDel_settled (m a : Nat) (void : Bool) (s : State) :
    (probeDel m a void s).settled = s.settled := by
  unfold probeDel
  simp only [settled_mk, settled_eta, probesPut_settled]

theorem probeFail_settled (m a : Nat) (s : State) :
    (probeFail m a s).settled = s.settled := by
  unfold probeFail
  (try dsimp only); (repeat' split) <;>
    simp only [settled_mk, settled_eta, apply_ite State.settled, ite_self, foldl_settled, implies_true, probeDel_settled, txnFinish_settled, raise_settled, count1_settled]

theorem probeRelease_settled (sc : Side) (f : Faults) (s : State) (t : Txn) :
    (probeRelease sc f s t).settled = s.settled := by
  unfold probeRelease
  simp only [settled_mk, settled_eta, entryFromSide_settled, writeGo_settled]

theorem probeGot_settled (m a : Nat) (sc : Side) (f : Faults) (s : State) : (probeGot m a sc f s).settled = s.settled := by
  unfold probeGot
  split
  · rfl
  · dsimp only
    rw [foldl_settled _ (fun s t => by split <;> simp only [writeGo_settled, probeRelease_settled])]
    split <;> simp only [jackFill_settled, probeDel_settled]

theorem readEnd_settled (m : Nat) (s : State) (o : MOp) :
    (readEnd m s o).settled = s.settled := by
  unfold readEnd
  (try dsimp only); (repeat' split) <;> simp only [settled_mk, settled_eta, tagFetchFail_settled, probeFail_settled, probeDel_settled, lineLost_settled]

theorem writeLost_settled (m : Nat) (s : State) (o : MOp) :
    (writeLost m s o).settled = s.settled := by
  unfold writeLost
  (try dsimp only); (repeat' split) <;> simp only [settled_mk, settled_eta, txnFinish_settled, tagDrop_settled, stepFail_settled, wayPut_settled, mediaMod_settled]

theorem grantLost_settled (m : Nat) (s : State) : (grantLost m s).settled = s.settled := by
  unfold grantLost
  dsimp only
  rw [foldl_settled _ (fun s t => by simp only [partialRefuse_settled, settled_mk, settled_eta]),
    foldl_settled _ (fun s t => by simp only [txnFinish_settled]), foldl_settled _ (fun s h => by
      (repeat' split) <;> simp only [txnFinish_settled, holdDel_settled, stepFail_settled])]

theorem portEmpty_settled (m : Nat) (s : State) :
    (portEmpty m s).settled = s.settled := by
  unfold portEmpty
  (try dsimp only); (repeat' split) <;>
    simp only [settled_mk, settled_eta, apply_ite State.settled, ite_self, foldl_settled, implies_true, mediaPut_settled, writeLost_settled, readEnd_settled, tagFetchFail_settled, probeFail_settled, probesPut_settled, stepsLost_settled, grantLost_settled, itemOut_settled, itemDel_settled]

theorem portFail_settled (m cause : Nat) (s : State) :
    (portFail m cause s).settled = s.settled := by
  unfold portFail
  simp only [settled_mk, settled_eta, apply_ite State.settled, ite_self, mediaMod_settled, faultLow_settled, regPut_settled, raise_settled, rkPoll_settled, portEmpty_settled]

theorem handshakeW_settled (m id : Nat) (s : State) :
    (handshakeW m id s).settled = s.settled := by
  unfold handshakeW
  (try dsimp only); (repeat' split) <;> simp only [settled_mk, settled_eta, mediaPut_settled, count1_settled]

theorem handshakeR_settled (m id : Nat) (s : State) :
    (handshakeR m id s).settled = s.settled := by
  unfold handshakeR
  (try dsimp only); (repeat' split) <;> simp only [settled_mk, settled_eta, mediaPut_settled, count1_settled]

theorem doMediaHandshake_settled (m : Nat) (dir : Dir) (id : Nat) (s : State) :
    (doMediaHandshake m dir id s).settled = s.settled := by
  unfold doMediaHandshake
  (try dsimp only); (repeat' split) <;> simp only [settled_mk, settled_eta, handshakeW_settled, handshakeR_settled]

theorem xferNote_settled (m dir : Nat) (o : MOp) (tries : Nat) (s : State) :
    (xferNote m dir o tries s).settled = s.settled := by
  unfold xferNote
  simp only [settled_mk, settled_eta, raise_settled, count1_settled]

theorem doTransferError_settled (m : Nat) (s : State) :
    (doTransferError m s).settled = s.settled := by
  unfold doTransferError
  (try dsimp only); (repeat' split) <;> simp only [settled_mk, settled_eta, xferNote_settled, mediaPut_settled, drainPoll_settled, portFail_settled]

theorem doAccepted_settled (m : Nat) (s : State) :
    (doAccepted m s).settled = s.settled := by
  unfold doAccepted
  (try dsimp only); (repeat' split) <;> simp only [settled_mk, settled_eta, portFail_settled, mediaPut_settled]

theorem aheadPersisted_settled (o : MOp) (s : State) :
    (aheadPersisted o s).settled = s.settled := by
  unfold aheadPersisted
  (try dsimp only); (repeat' split) <;> simp only [settled_mk, settled_eta, ctxPut_settled]

theorem writeDone_settled (t : Txn) (s : State) :
    (writeDone t s).settled = s.settled := by
  unfold writeDone
  simp only [settled_mk, settled_eta, apply_ite State.settled, ite_self, count1_settled, txnFinish_settled]

theorem rawPaid_settled (t : Txn) (o : MOp) (s : State) :
    (rawPaid t o s).settled = s.settled := by
  unfold rawPaid
  first
  | with_reducible rfl
  | ((try dsimp only); repeat' split) <;> (first | (with_reducible rfl) | (simp only [settled_mk, settled_eta, apply_ite State.settled, ite_self, tagPaid_settled]; done) | (simp only [settled_mk, settled_eta, apply_ite State.settled, ite_self, foldl_settled, implies_true, tagPaid_settled]; done) | (simp_all only [settled_mk, settled_eta, apply_ite State.settled, ite_self, foldl_settled, implies_true, tagPaid_settled]; done))

theorem persistedFor_settled (m : Nat) (o : MOp) (s : State) :
    (persistedFor m o s).settled = s.settled := by
  unfold persistedFor
  (try dsimp only); (repeat' split) <;> simp only [settled_mk, settled_eta, writeDone_settled, rawPaid_settled, stepEnd_settled, wbPersisted_settled, mediaMod_settled]

theorem drainCount_settled (o : MOp) (s : State) :
    (drainCount o s).settled = s.settled := by
  unfold drainCount
  (try dsimp only); (repeat' split) <;> simp only [settled_mk, settled_eta]

theorem doPersisted_settled (m id : Nat) (s : State) :
    (doPersisted m id s).settled = s.settled := by
  unfold doPersisted
  (try dsimp only); (repeat' split) <;> simp only [settled_mk, settled_eta, portFail_settled, mediaPut_settled, tagPersisted_settled, aheadPersisted_settled, drainCount_settled, persistedFor_settled, rkPoll_settled, stepsLost_settled]

theorem mediaErr_settled (m stat : Nat) (o : MOp) (s : State) :
    (mediaErr m stat o s).settled = s.settled := by
  unfold mediaErr
  simp only [settled_mk, settled_eta, raise_settled, regPut_settled, count1_settled]

theorem response_settled (m id kind stat : Nat) (parOk : Bool) (got : MOp → State → State) (s : State)
    (hgot : ∀ o s, (got o s).settled = s.settled) : (response m id kind stat parOk got s).settled = s.settled := by
  unfold response
  (try dsimp only); (repeat' split) <;>
    simp only [hgot, portFail_settled, mediaPut_settled, xferNote_settled, issueR_settled, readEnd_settled, mediaErr_settled]

theorem doLineArrival_settled (m id stat : Nat) (data : BitVec 576) (wpar : BitVec 16) (f : Faults) (s : State) :
    (doLineArrival m id stat data wpar f s).settled = s.settled := by
  unfold doLineArrival
  (try dsimp only); (repeat' split) <;>
    simp only [settled_mk, settled_eta, apply_ite State.settled, ite_self, foldl_settled, implies_true, response_settled, lineArrived_settled, rowErrors_settled]

theorem doSidecarArrival_settled (m id stat : Nat) (data : BitVec 576) (wpar : BitVec 16) (f : Faults) (s : State) :
    (doSidecarArrival m id stat data wpar f s).settled = s.settled :=
  response_settled _ _ _ _ _ _ _ (fun o s => by split <;> simp only [probeGot_settled, probeDel_settled])

theorem doTaglineArrival_settled (m id stat : Nat) (data : BitVec 576) (wpar : BitVec 16) (s : State) :
    (doTaglineArrival m id stat data wpar s).settled = s.settled :=
  response_settled _ _ _ _ _ _ _ (fun o s => by split <;> simp only [tagFetchGot_settled])

theorem doReadTimeout_settled (m id : Nat) (s : State) :
    (doReadTimeout m id s).settled = s.settled := by
  unfold doReadTimeout
  (try dsimp only); (repeat' split) <;> simp only [settled_mk, settled_eta, mediaPut_settled, raise_settled, readEnd_settled, count1_settled]

theorem doPersistTimeout_settled (m id : Nat) (s : State) :
    (doPersistTimeout m id s).settled = s.settled := by
  unfold doPersistTimeout
  (try dsimp only); (repeat' split) <;> simp only [settled_mk, settled_eta, mediaPut_settled, raise_settled, count1_settled, portFail_settled]

theorem doMpStall_settled (m : Nat) (dir : Dir) (cycles : Nat) (s : State) :
    (doMpStall m dir cycles s).settled = s.settled := by
  unfold doMpStall
  (try dsimp only); (repeat' split) <;> simp only [settled_mk, settled_eta, raise_settled]

theorem sweepRead_settled (hdr : List (Nat × BitVec 144)) (i : Item) (s : State) :
    (sweepRead hdr i s).2.settled = s.settled := by
  unfold sweepRead
  first
  | with_reducible rfl
  | ((try dsimp only); repeat' split) <;> (first | (with_reducible rfl) | (simp only [settled_mk, settled_eta, apply_ite State.settled, ite_self, wordsNote_settled]; done) | (simp only [settled_mk, settled_eta, apply_ite State.settled, ite_self, foldl_settled, implies_true, wordsNote_settled]; done) | (simp_all only [settled_mk, settled_eta, apply_ite State.settled, ite_self, foldl_settled, implies_true, wordsNote_settled]; done))

theorem sweepRead_settled_of {hdr : List (Nat × BitVec 144)} {i : Item} {s : State} {pp} (h : sweepRead hdr i s = pp) : pp.2.settled = s.settled := h ▸ sweepRead_settled hdr i s

theorem sweepItem_settled (hdr : List (Nat × BitVec 144)) (s : State) (i : Item) :
    (sweepItem hdr s i).settled = s.settled := by
  unfold sweepItem
  simp only [settled_mk, settled_eta, apply_ite State.settled, ite_self, sweepRead_settled, hdrLost_settled, itemFlushed_settled]

theorem sweepBitmaps_settled (freed held : Nat) (s : State) :
    (sweepBitmaps freed held s).settled = s.settled := by
  unfold sweepBitmaps
  simp only [settled_mk, settled_eta, apply_ite State.settled, ite_self, countUp_settled, raise_settled]

theorem sweepOld_settled (s : State) :
    (sweepOld s).settled = s.settled := by
  unfold sweepOld
  simp only [settled_mk, settled_eta]

theorem doPoolSweepPass_settled (ptr : List (Nat × Fin 5)) (freed held : Nat) (hdr : List (Nat × BitVec 144)) (s : State) :
    (doPoolSweepPass ptr freed held hdr s).settled = s.settled := by
  unfold doPoolSweepPass
  (try dsimp only); (repeat' split) <;>
    simp only [settled_mk, settled_eta, apply_ite State.settled, ite_self, foldl_settled, implies_true, sweepItem_settled, sweepRead_settled, sweepOld_settled, sweepBitmaps_settled, queueReset_settled]

theorem queueFlush_settled (q : Nat) (s : State) :
    (queueFlush q s).settled = s.settled := by
  unfold queueFlush
  (try dsimp only); (repeat' split) <;>
    simp only [settled_mk, settled_eta, apply_ite State.settled, ite_self, foldl_settled, implies_true, stickyTrim_settled, raise_settled, itemFlushed_settled]

theorem iqFlushSet_settled (m v : Nat) (s : State) :
    (iqFlushSet m v s).settled = s.settled := by
  unfold iqFlushSet
  (try dsimp only); (repeat' split) <;>
    simp only [settled_mk, settled_eta, apply_ite State.settled, ite_self, foldl_settled, implies_true, regPut_settled, queueFlush_settled]

theorem doNvReadDone_settled (err : Bool) (page : BitVec 512) (s : State) :
    (doNvReadDone err page s).settled = s.settled := by
  unfold doNvReadDone
  (try dsimp only); (repeat' split) <;>
    simp only [settled_mk, settled_eta, apply_ite State.settled, ite_self, foldl_settled, implies_true, nvKick_settled, nvJobDone_settled, nvRetry_settled]

theorem fecCount_settled (p n : Nat) (s : State) :
    (fecCount p n s).settled = s.settled := by
  unfold fecCount
  simp only [settled_mk, settled_eta, countUp_settled]

theorem lcwError_settled (p cause : Nat) (w : BitVec 64) (s : State) :
    (lcwError p cause w s).settled = s.settled := by
  unfold lcwError
  simp only [settled_mk, settled_eta, linkDown_settled, raise_settled]

theorem lockGain_settled (p : Nat) (s : State) :
    (lockGain p s).settled = s.settled := by
  unfold lockGain
  first
  | with_reducible rfl
  | ((try dsimp only); repeat' split) <;> (first | (with_reducible rfl) | (simp only [settled_mk, settled_eta, apply_ite State.settled, ite_self, linkMod_settled]; done) | (simp only [settled_mk, settled_eta, apply_ite State.settled, ite_self, foldl_settled, implies_true, linkMod_settled]; done) | (simp_all only [settled_mk, settled_eta, apply_ite State.settled, ite_self, foldl_settled, implies_true, linkMod_settled]; done))

theorem lockLose_settled (p : Nat) (s : State) :
    (lockLose p s).settled = s.settled := by
  unfold lockLose
  first
  | with_reducible rfl
  | ((try dsimp only); repeat' split) <;> (first | (with_reducible rfl) | (simp only [settled_mk, settled_eta, apply_ite State.settled, ite_self, sumUp_settled, count1_settled, linkMod_settled]; done) | (simp only [settled_mk, settled_eta, apply_ite State.settled, ite_self, foldl_settled, implies_true, sumUp_settled, count1_settled, linkMod_settled]; done) | (simp_all only [settled_mk, settled_eta, apply_ite State.settled, ite_self, foldl_settled, implies_true, sumUp_settled, count1_settled, linkMod_settled]; done))

theorem flitLost_settled (p : Nat) (bad nak : State → State) (s : State) (hb : ∀ s, (bad s).settled = s.settled)
    (hn : ∀ s, (nak s).settled = s.settled) : (flitLost p bad nak s).settled = s.settled := by
  unfold flitLost
  (try dsimp only); (repeat' split) <;> simp only [hb, hn, linkMod_settled, linkPut_settled, lockLose_settled]

theorem flitGood_settled (p n : Nat) (go : State → State) (s : State) (hgo : ∀ s, (go s).settled = s.settled) :
    (flitGood p n go s).settled = s.settled := by
  unfold flitGood
  (try dsimp only); (repeat' split) <;> simp only [hgo, linkPut_settled, fecCount_settled, lockGain_settled]

theorem doRateChange_settled (p rate : Nat) (s : State) :
    (doRateChange p rate s).settled = s.settled := by
  unfold doRateChange
  simp only [settled_mk, settled_eta, apply_ite State.settled, ite_self, linkPut_settled, linkDown_settled]

theorem doLockGained_settled (p : Nat) (s : State) :
    (doLockGained p s).settled = s.settled := by
  unfold doLockGained
  simp only [settled_mk, settled_eta, apply_ite State.settled, ite_self, lockGain_settled]

theorem doLockLost_settled (p : Nat) (s : State) :
    (doLockLost p s).settled = s.settled := by
  unfold doLockLost
  simp only [settled_mk, settled_eta, apply_ite State.settled, ite_self, lockLose_settled]

theorem doTLosExpiry_settled (p : Nat) (s : State) :
    (doTLosExpiry p s).settled = s.settled := by
  unfold doTLosExpiry
  (try dsimp only); (repeat' split) <;> simp only [settled_mk, settled_eta, linkDown_settled]

theorem nakSum_settled (p : Nat) (sent : Option Nat) (s : State) :
    (nakSum p sent s).settled = s.settled := by
  unfold nakSum
  simp only [settled_mk, settled_eta, sumSet_settled]

theorem badSum_settled (p : Nat) (crc : Bool) (s : State) :
    (badSum p crc s).settled = s.settled := by
  unfold badSum
  simp only [settled_mk, settled_eta, sumSet_settled]

theorem timerUndo_settled (p : Nat) (s : State) :
    (timerUndo p s).settled = s.settled := by
  unfold timerUndo
  first
  | with_reducible rfl
  | ((try dsimp only); repeat' split) <;> (first | (with_reducible rfl) | (simp only [settled_mk, settled_eta, apply_ite State.settled, ite_self, regPut_settled, linkMod_settled]; done) | (simp only [settled_mk, settled_eta, apply_ite State.settled, ite_self, foldl_settled, implies_true, regPut_settled, linkMod_settled]; done) | (simp_all only [settled_mk, settled_eta, apply_ite State.settled, ite_self, foldl_settled, implies_true, regPut_settled, linkMod_settled]; done))

theorem nakTake_settled (p : Nat) (before : LinkSt) (w : BitVec 64) (s : State) :
    (nakTake p before w s).settled = s.settled := by
  unfold nakTake
  simp only [settled_mk, settled_eta, apply_ite State.settled, ite_self, timerUndo_settled, nakSum_settled, count1_settled, linkMod_settled]

theorem ackFields_settled (p : Nat) (w : BitVec 64) (s : State) :
    (ackFields p w s).settled = s.settled := by
  unfold ackFields
  simp only [settled_mk, settled_eta, nakTake_settled, linkPut_settled]

theorem rxlockNote_settled (p : Nat) (w : BitVec 64) (s : State) :
    (rxlockNote p w s).settled = s.settled := by
  unfold rxlockNote
  simp only [settled_mk, settled_eta, linkMod_settled]

theorem slotCut_settled (p : Fin 128) (cause k : Nat) (w : BitVec 128) (s : State) :
    (slotCut p cause k w s).settled = s.settled := by
  unfold slotCut
  simp only [settled_mk, settled_eta, apply_ite State.settled, ite_self, creditCut_settled, slotError_settled, linkFate_settled]

theorem creditReturn_settled (p : Fin 128) (l : List (BitVec 16 × BitVec 16)) (s : State) :
    (creditReturn p l s).settled = s.settled := by
  induction l generalizing s with
  | nil => rfl
  | cons e t ih =>
    unfold creditReturn
    (try dsimp only); (repeat' split) <;>
      simp only [ih, creditOverrun_settled, creditSettle_settled, settled_mk, settled_eta]

theorem doCreditReturn_settled (p : Fin 128) (es : List (BitVec 16 × BitVec 16)) (s : State) :
    (doCreditReturn p es s).settled = s.settled := by
  unfold doCreditReturn
  simp only [settled_mk, settled_eta, apply_ite State.settled, ite_self, creditReturn_settled]

theorem doResyncDone_settled (p drop : Nat) (s : State) :
    (doResyncDone p drop s).settled = s.settled := by
  unfold doResyncDone
  simp only [settled_mk, settled_eta, apply_ite State.settled, ite_self, linkPut_settled, count1_settled]

theorem slotRequest_settled (p : Fin 128) (body : BitVec 1920) (k : Nat) (s : State) :
    (slotRequest p body k s).settled = s.settled := by
  unfold slotRequest
  (try dsimp only); (repeat' split) <;> simp only [settled_mk, settled_eta, creditReturn_settled, fenceReceive_settled, reqReceive_settled]

theorem cutRest_settled (n : Nat) (p : Fin 128) (body : BitVec 1920) (k : Nat) (s : State) :
    (cutRest n p body k s).settled = s.settled := by
  induction n generalizing k s with
  | zero => rfl
  | succ n ih =>
    unfold cutRest
    (try dsimp only); (repeat' split) <;> simp only [ih, linkFate_settled, creditCut_settled]

theorem slotRun_settled (n : Nat) (p : Fin 128) (vcm : BitVec 15) (body : BitVec 1920) (k : Nat) (s : State) :
    (slotRun n p vcm body k s).settled = s.settled := by
  induction n generalizing k s with
  | zero => rfl
  | succ n ih =>
    unfold slotRun
    (try dsimp only); (repeat' split) <;>
      simp only [ih, slotCut_settled, cutRest_settled, slotRequest_settled, doResyncDone_settled]

theorem dataAccept_settled (p : Fin 128) (w : BitVec 64) (body : BitVec 1920) (s : State) :
    (dataAccept p w body s).settled = s.settled := by
  unfold dataAccept
  simp only [settled_mk, settled_eta, count1_settled, linkMod_settled, slotRun_settled]

theorem rxFlit_settled (p : Nat) (errs : List Nat) (go : State → State) (s : State) (hgo : ∀ s, (go s).settled = s.settled) :
    (rxFlit p errs go s).settled = s.settled := by
  unfold rxFlit
  split
  · rfl
  · split
    · exact flitLost_settled _ _ _ _ (fun s => by simp only [badSum_settled, count1_settled])
        (fun s => by split <;> simp only [linkMod_settled])
    · exact flitGood_settled _ _ _ _ hgo

theorem rxData_settled (p : Fin 128) (w : BitVec 64) (body : BitVec 1920) (s : State) :
    (rxData p w body s).settled = s.settled := by
  unfold rxData
  first
  | with_reducible rfl
  | ((try dsimp only); repeat' split) <;> (first | (with_reducible rfl) | (simp only [settled_mk, settled_eta, apply_ite State.settled, ite_self, count1_settled, lcwError_settled, rxlockNote_settled, ackFields_settled, dataAccept_settled, linkMod_settled]; done) | (simp only [settled_mk, settled_eta, apply_ite State.settled, ite_self, foldl_settled, implies_true, count1_settled, lcwError_settled, rxlockNote_settled, ackFields_settled, dataAccept_settled, linkMod_settled]; done) | (simp_all only [settled_mk, settled_eta, apply_ite State.settled, ite_self, foldl_settled, implies_true, count1_settled, lcwError_settled, rxlockNote_settled, ackFields_settled, dataAccept_settled, linkMod_settled]; done))

theorem doRxDataFlit_settled (p : Fin 128) (errs : List Nat) (w : BitVec 64) (body : BitVec 1920) (s : State) :
    (doRxDataFlit p errs w body s).settled = s.settled := rxFlit_settled _ _ _ _ (fun _ => rxData_settled _ _ _ _)

theorem rxPlain_settled (p : Nat) (errs : List Nat) (acks : Bool) (w : BitVec 64) (go : State → State) (s : State)
    (hgo : ∀ s, (go s).settled = s.settled) : (rxPlain p errs acks w go s).settled = s.settled := by
  unfold rxPlain
  exact rxFlit_settled _ _ _ _ (fun s => by
    (try dsimp only); (repeat' split) <;>
      simp only [hgo, lcwError_settled, rxlockNote_settled, linkMod_settled, ackFields_settled, apply_ite State.settled, ite_self])

theorem doRxAckOnly_settled (p : Nat) (errs : List Nat) (w : BitVec 64) (s : State) : (doRxAckOnly p errs w s).settled = s.settled :=
  rxPlain_settled _ _ _ _ _ _ (fun _ => rfl)

theorem doRxIdle_settled (p : Nat) (errs : List Nat) (w : BitVec 64) (s : State) : (doRxIdle p errs w s).settled = s.settled :=
  rxPlain_settled _ _ _ _ _ _ (fun _ => rfl)

theorem peerNote_settled (p : Nat) (dig : BitVec 64) (gen : BitVec 32) (s : State) :
    (peerNote p dig gen s).settled = s.settled := by
  unfold peerNote
  simp only [settled_mk, settled_eta, apply_ite State.settled, ite_self, regPut_settled, raise_settled, linkMod_settled]

theorem doRxHeartbeat_settled (p : Nat) (errs : List Nat) (w : BitVec 64) (dig : BitVec 64) (gen : BitVec 32) (s : State) :
    (doRxHeartbeat p errs w dig gen s).settled = s.settled :=
  rxPlain_settled _ _ _ _ _ _ (fun _ => peerNote_settled _ _ _ _)

theorem doRxBadFlit_settled (p : Nat) (errs : List Nat) (flit : BitVec 2048) (s : State) :
    (doRxBadFlit p errs flit s).settled = s.settled := by
  unfold doRxBadFlit
  exact rxFlit_settled _ _ _ _ (fun s => by
    (try dsimp only); (repeat' split) <;> simp only [linkMod_settled, badSum_settled, count1_settled])

theorem rxNegotiate_settled (p : Nat) (errs : List Nat) (w : BitVec 64) (go : State → State) (s : State)
    (hgo : ∀ s, (go s).settled = s.settled) : (rxNegotiate p errs w go s).settled = s.settled := by
  unfold rxNegotiate
  exact rxFlit_settled _ _ _ _ (fun s => by split <;> simp only [lcwError_settled, hgo])

theorem doRxDown_settled (p : Nat) (errs : List Nat) (w : BitVec 64) (s : State) : (doRxDown p errs w s).settled = s.settled :=
  rxNegotiate_settled _ _ _ _ _ (fun s => by split <;> simp only [linkDown_settled])

theorem doRxReservedType_settled (p : Nat) (errs : List Nat) (w : BitVec 64) (s : State) :
    (doRxReservedType p errs w s).settled = s.settled := rxFlit_settled _ _ _ _ (fun _ => lcwError_settled _ _ _ _)

theorem offerRefuse_settled (p res : Nat) (v : OwnVals) (o : Offer) (s : State) :
    (offerRefuse p res v o s).settled = s.settled := by
  unfold offerRefuse
  simp only [settled_mk, settled_eta, raise_settled, count1_settled, linkMod_settled]

theorem offerAccept_settled (p : Nat) (v : OwnVals) (o : Offer) (s : State) :
    (offerAccept p v o s).settled = s.settled := by
  unfold offerAccept
  (try dsimp only); (repeat' split) <;> simp only [settled_mk, settled_eta, regPut_settled, linkMod_settled]

theorem rxOffer_settled (p : Nat) (o : Offer) (s : State) :
    (rxOffer p o s).settled = s.settled := by
  unfold rxOffer
  first
  | with_reducible rfl
  | ((try dsimp only); repeat' split) <;> (first | (with_reducible rfl) | (simp only [settled_mk, settled_eta, apply_ite State.settled, ite_self, linkDown_settled, linkMod_settled, offerAccept_settled, offerRefuse_settled]; done) | (simp only [settled_mk, settled_eta, apply_ite State.settled, ite_self, foldl_settled, implies_true, linkDown_settled, linkMod_settled, offerAccept_settled, offerRefuse_settled]; done) | (simp_all only [settled_mk, settled_eta, apply_ite State.settled, ite_self, foldl_settled, implies_true, linkDown_settled, linkMod_settled, offerAccept_settled, offerRefuse_settled]; done))

theorem doRxParamOffer_settled (p : Nat) (errs : List Nat) (w : BitVec 64) (o : Offer) (s : State) :
    (doRxParamOffer p errs w o s).settled = s.settled := rxNegotiate_settled _ _ _ _ _ (fun _ => rxOffer_settled _ _ _)

theorem linkUp_settled (p : Nat) (v : NegVals) (s : State) :
    (linkUp p v s).settled = s.settled := by
  unfold linkUp
  simp only [settled_mk, settled_eta, regPut_settled, linkMod_settled, raise_settled]

theorem rxConfirm_settled (p : Nat) (c : Confirm) (s : State) :
    (rxConfirm p c s).settled = s.settled := by
  unfold rxConfirm
  first
  | with_reducible rfl
  | ((try dsimp only); repeat' split) <;> (first | (with_reducible rfl) | (simp only [settled_mk, settled_eta, apply_ite State.settled, ite_self, linkUp_settled, linkDown_settled, count1_settled]; done) | (simp only [settled_mk, settled_eta, apply_ite State.settled, ite_self, foldl_settled, implies_true, linkUp_settled, linkDown_settled, count1_settled]; done) | (simp_all only [settled_mk, settled_eta, apply_ite State.settled, ite_self, foldl_settled, implies_true, linkUp_settled, linkDown_settled, count1_settled]; done))

theorem doRxParamConfirm_settled (p : Nat) (errs : List Nat) (w : BitVec 64) (c : Confirm) (s : State) :
    (doRxParamConfirm p errs w c s).settled = s.settled := rxNegotiate_settled _ _ _ _ _ (fun _ => rxConfirm_settled _ _ _)

theorem doTNegExpiry_settled (p : Nat) (s : State) :
    (doTNegExpiry p s).settled = s.settled := by
  unfold doTNegExpiry
  simp only [settled_mk, settled_eta, apply_ite State.settled, ite_self, linkDown_settled]

theorem doHbLost_settled (p : Nat) (s : State) :
    (doHbLost p s).settled = s.settled := by
  unfold doHbLost
  simp only [settled_mk, settled_eta, apply_ite State.settled, ite_self, linkDown_settled, raise_settled, count1_settled]

theorem flitSend_settled (p : Nat) (o : FlitOut) (s : State) :
    (flitSend p o s).settled = s.settled := by
  unfold flitSend
  simp only [settled_mk, settled_eta, linkMod_settled]

theorem ackSend_settled (p : Nat) (ty seq : Nat) (vcm : BitVec 15) (body : BitVec 1920) (retx : Bool) (s : State) :
    (ackSend p ty seq vcm body retx s).settled = s.settled := by
  unfold ackSend
  simp only [settled_mk, settled_eta, apply_ite State.settled, ite_self, nakSum_settled, count1_settled, flitSend_settled, linkMod_settled]

theorem sendDown_settled (p : Nat) (s : State) :
    (sendDown p s).settled = s.settled := by
  unfold sendDown
  (try dsimp only); (repeat' split) <;> simp only [settled_mk, settled_eta, flitSend_settled, linkPut_settled]

theorem replayParity_settled (p seq : Nat) (s : State) :
    (replayParity p seq s).settled = s.settled := by
  unfold replayParity
  simp only [settled_mk, settled_eta, linkDown_settled, raise_settled]

theorem sendReplay_settled (p r : Nat) (parityBad : Bool) (s : State) :
    (sendReplay p r parityBad s).settled = s.settled := by
  unfold sendReplay
  (try dsimp only); (repeat' split) <;> simp only [settled_mk, settled_eta, replayParity_settled, linkPut_settled, ackSend_settled, count1_settled]

theorem handOver_settled (p : Nat) (s : State) (r : Rsp) :
    (handOver p s r).settled = s.settled := by
  unfold handOver
  simp only [settled_mk, settled_eta, apply_ite State.settled, ite_self, linkMod_settled, count1_settled, creditRelease_settled]

theorem sendData_settled (p : Nat) (f : Faults) (s : State) :
    (sendData p f s).settled = s.settled := by
  unfold sendData
  (try dsimp only); (repeat' split) <;>
    simp only [settled_mk, settled_eta, apply_ite State.settled, ite_self, foldl_settled, implies_true, queueReset_settled, wordsNote_settled, linkDown_settled, eqPut_settled, ackSend_settled, count1_settled, linkMod_settled, partnerFeed_settled, handOver_settled]

theorem sendUp_settled (p : Nat) (parityBad : Bool) (f : Faults) (s : State) :
    (sendUp p parityBad f s).settled = s.settled := by
  unfold sendUp
  (try dsimp only); (repeat' split) <;> simp only [settled_mk, settled_eta, ackSend_settled, linkPut_settled, sendReplay_settled, sendData_settled, flitSend_settled]

theorem doFlitTransmit_settled (p : Nat) (parityBad : Bool) (f : Faults) (s : State) :
    (doFlitTransmit p parityBad f s).settled = s.settled := by
  unfold doFlitTransmit
  simp only [settled_mk, settled_eta, apply_ite State.settled, ite_self, linkPut_settled, flitSend_settled, sendUp_settled, rowErrors_settled, sendDown_settled]

theorem doAckTimer_settled (p : Nat) (s : State) :
    (doAckTimer p s).settled = s.settled := by
  unfold doAckTimer
  simp only [settled_mk, settled_eta, linkMod_settled]

theorem doReplayTimer_settled (p : Nat) (parityBad : Bool) (f : Faults) (s : State) :
    (doReplayTimer p parityBad f s).settled = s.settled := by
  unfold doReplayTimer
  simp only [settled_mk, settled_eta, apply_ite State.settled, ite_self, sumUp_settled, linkPut_settled, linkDown_settled, count1_settled, rowErrors_settled, replayParity_settled, linkMod_settled]

theorem doHeartbeatDue_settled (p : Nat) (s : State) :
    (doHeartbeatDue p s).settled = s.settled := by
  unfold doHeartbeatDue
  simp only [settled_mk, settled_eta, linkMod_settled]

theorem doResyncSend_settled (p : Nat) (s : State) : (doResyncSend p s).settled = s.settled := by
  unfold doResyncSend
  dsimp only
  split
  · rw [grantSend_settled, raise_settled, foldl_settled _ (fun s r => by simp only [partnerPush_settled])]
    simp only [regPut_settled, linkPut_settled]
  · rfl

theorem doGrantHoldExpiry_settled (p : Nat) (s : State) :
    (doGrantHoldExpiry p s).settled = s.settled := by
  unfold doGrantHoldExpiry
  simp only [settled_mk, settled_eta, apply_ite State.settled, ite_self, grantSend_settled]

theorem zeroizeTxn_settled (s : State) (t : Txn) :
    (zeroizeTxn s t).settled = s.settled := by
  unfold zeroizeTxn
  simp only [settled_mk, settled_eta, apply_ite State.settled, ite_self, txnFinish_settled, partialRefuse_settled]

theorem ctxSuspendAll_settled (s : State) :
    (ctxSuspendAll s).settled = s.settled := by
  unfold ctxSuspendAll
  (try dsimp only); (repeat' split) <;>
    simp only [settled_mk, settled_eta, apply_ite State.settled, ite_self, foldl_settled, implies_true, ctxSuspend_settled]

theorem doZeroizeQualify_settled (s : State) :
    (doZeroizeQualify s).settled = s.settled := by
  unfold doZeroizeQualify
  (try dsimp only); (repeat' split) <;>
    simp only [settled_mk, settled_eta, apply_ite State.settled, ite_self, foldl_settled, implies_true, kpAbort_settled, countUp_settled, count1_settled, slotZeroize_settled, zeroizeTxn_settled, drainPoll_settled, ctxSuspendAll_settled]

theorem doZeroizeDone_settled (s : State) :
    (doZeroizeDone s).settled = s.settled := by
  unfold doZeroizeDone
  simp only [settled_mk, settled_eta, apply_ite State.settled, ite_self, raise_settled]

theorem doZeroizeReturn_settled (s : State) :
    (doZeroizeReturn s).settled = s.settled := by
  unfold doZeroizeReturn
  simp only [settled_mk, settled_eta, apply_ite State.settled, ite_self]

theorem doHoldoffEnd_settled (s : State) :
    (doHoldoffEnd s).settled = s.settled := by
  unfold doHoldoffEnd
  (try dsimp only); (repeat' split) <;> simp only [settled_mk, settled_eta]

theorem doZeroizeShortPulse_settled (s : State) :
    (doZeroizeShortPulse s).settled = s.settled := by
  unfold doZeroizeShortPulse
  simp only [settled_mk, settled_eta, apply_ite State.settled, ite_self, sumUp_settled, count1_settled]

theorem doDrainComplete_settled (s : State) :
    (doDrainComplete s).settled = s.settled := by
  unfold doDrainComplete
  simp only [settled_mk, settled_eta, apply_ite State.settled, ite_self, regPut_settled]

theorem doDrainLate_settled (s : State) :
    (doDrainLate s).settled = s.settled := by
  unfold doDrainLate
  simp only [settled_mk, settled_eta, apply_ite State.settled, ite_self, raise_settled]

theorem doPwrWarnShortPulse_settled (samples : Nat) (s : State) :
    (doPwrWarnShortPulse samples s).settled = s.settled := by
  unfold doPwrWarnShortPulse
  (try dsimp only); (repeat' split) <;> simp only [settled_mk, settled_eta, count1_settled]

theorem doPwrWarnReturn_settled (s : State) :
    (doPwrWarnReturn s).settled = s.settled := by
  unfold doPwrWarnReturn
  (try dsimp only); (repeat' split) <;> simp only [settled_mk, settled_eta]

theorem ctxUnpark_settled (s : State) (n : Nat) :
    (ctxUnpark s n).settled = s.settled := by
  unfold ctxUnpark
  simp only [settled_mk, settled_eta, apply_ite State.settled, ite_self, boundSet_settled, ctxPut_settled, rekeyResumeEv_settled]

theorem resumeFlush_settled (s : State) :
    (resumeFlush s).settled = s.settled := by
  unfold resumeFlush
  (try dsimp only); (repeat' split) <;>
    simp only [settled_mk, settled_eta, apply_ite State.settled, ite_self, foldl_settled, implies_true, queueFlush_settled]

theorem doResume_settled (s : State) :
    (doResume s).settled = s.settled := by
  unfold doResume
  (try dsimp only); (repeat' split) <;>
    simp only [settled_mk, settled_eta, apply_ite State.settled, ite_self, foldl_settled, implies_true, raise_settled, nvPush_settled, resumeFlush_settled, ctxUnpark_settled, rkSchedule_settled, rkPoll_settled]

theorem doResetRelease_settled (por bistShort : Bool) (s : State) :
    (doResetRelease por bistShort s).settled = s.settled := by
  unfold doResetRelease
  simp only [settled_mk, settled_eta, apply_ite State.settled, ite_self, modeSend_settled]

theorem fuseApply_settled (img : FuseImage) (s : State) :
    (fuseApply img s).settled = s.settled := by
  unfold fuseApply
  (try dsimp only); (repeat' split) <;>
    simp only [settled_mk, settled_eta, apply_ite State.settled, ite_self, foldl_settled, implies_true, countUp_settled, rowRemap_settled, regPut_settled, faultLow_settled, raise_settled]

theorem logIgnore_settled (s : State) :
    (logIgnore s).settled = s.settled := by
  unfold logIgnore
  simp only [settled_mk, settled_eta, countUp_settled]

theorem logApply_settled (e : LogEnt) (s : State) :
    (logApply e s).settled = s.settled := by
  unfold logApply
  (try dsimp only); (repeat' split) <;>
    simp only [settled_mk, settled_eta, apply_ite State.settled, ite_self, foldl_settled, implies_true, countUp_settled, rowRemap_settled, logIgnore_settled, pipeRetire_settled, sliceLose_settled, slicePut_settled]

theorem logPlace_settled (s : State) (i : Nat) :
    (logPlace s i).settled = s.settled := by
  unfold logPlace
  first
  | with_reducible rfl
  | ((try dsimp only); repeat' split) <;> (first | (with_reducible rfl) | (simp only [settled_mk, settled_eta, apply_ite State.settled, ite_self, logApply_settled, logIgnore_settled]; done) | (simp only [settled_mk, settled_eta, apply_ite State.settled, ite_self, foldl_settled, implies_true, logApply_settled, logIgnore_settled]; done) | (simp_all only [settled_mk, settled_eta, apply_ite State.settled, ite_self, foldl_settled, implies_true, logApply_settled, logIgnore_settled]; done))

theorem doFuseLoadDone_settled (img : FuseImage) (s : State) : (doFuseLoadDone img s).settled = s.settled := by
  unfold doFuseLoadDone
  split
  · dsimp only
    rw [settled_mk, settled_eta, foldl_settled _ (fun s i => logPlace_settled s i), fuseApply_settled, settled_mk, settled_eta]
  · rfl

theorem bistRow_settled (mac row : Nat) (soft : Bool) (s : State) :
    (bistRow mac row soft s).settled = s.settled := by
  unfold bistRow
  first
  | with_reducible rfl
  | ((try dsimp only); repeat' split) <;> (first | (with_reducible rfl) | (simp only [settled_mk, settled_eta, apply_ite State.settled, ite_self, logAppend_settled, countUp_settled, rowRemap_settled, raise_settled, rowBad_settled]; done) | (simp only [settled_mk, settled_eta, apply_ite State.settled, ite_self, foldl_settled, implies_true, logAppend_settled, countUp_settled, rowRemap_settled, raise_settled, rowBad_settled]; done) | (simp_all only [settled_mk, settled_eta, apply_ite State.settled, ite_self, foldl_settled, implies_true, logAppend_settled, countUp_settled, rowRemap_settled, raise_settled, rowBad_settled]; done))

theorem bistOne_settled (s : State) (b : BistFail) :
    (bistOne s b).settled = s.settled := by
  unfold bistOne
  (try dsimp only); (repeat' split) <;> simp only [settled_mk, settled_eta, bistRow_settled, sliceJudge_settled, pipeRetire_settled, sliceLose_settled, linkMod_settled]

theorem bistAll_settled (s : State) (l : List BistFail) : (bistAll s l).1.settled = s.settled := by
  have h : ∀ (l : List BistFail) (a : State × Bool),
      (l.foldl (fun a b => (bistOne a.1 b, a.2 && bistMends a.1 b)) a).1.settled = a.1.settled := by
    intro l
    induction l with
    | nil => intro a; rfl
    | cons b t ih => intro a; simp only [List.foldl_cons, ih, bistOne_settled]
  exact h l (s, true)

theorem bistKind_settled (fails : List BistFail) (s : State) (k : Nat) : (bistKind fails s k).settled = s.settled := by
  unfold bistKind
  (try dsimp only); (repeat' split) <;> simp only [raiseSev_settled, regPut_settled, bistAll_settled]

theorem doBistDone_settled (fails : List BistFail) (s : State) :
    (doBistDone fails s).settled = s.settled := by
  unfold doBistDone
  (try dsimp only); (repeat' split) <;>
    simp only [settled_mk, settled_eta, apply_ite State.settled, ite_self, foldl_settled, implies_true, bistKind_settled, regPut_settled]

theorem recSelect_settled (a b : Nat) (valid : Nat → Bool) (s : State) : (recSelect a b valid s).2.settled = s.settled :=
  selNote_settled _ s

theorem recSelect_settled_of {a b : Nat} {valid : Nat → Bool} {s : State} {pp} (h : recSelect a b valid s = pp) : pp.2.settled = s.settled := h ▸ recSelect_settled a b valid s

theorem recSlot_settled (s : State) (k : Nat) :
    (recSlot s k).settled = s.settled := by
  unfold recSlot
  (try dsimp only); (repeat' split) <;>
    ((try have hk_recSelect := recSelect_settled_of (by assumption : recSelect _ _ _ _ = _)); simp_all only [settled_mk, settled_eta, apply_ite State.settled, foldl_settled, ite_self, recSelect_settled, slotPut_settled, rowBad_settled])

theorem seedMarks_settled (k ext mark : Nat) (s : State) :
    (seedMarks k ext mark s).settled = s.settled := by
  unfold seedMarks
  (try dsimp only); (repeat' split) <;>
    simp only [settled_mk, settled_eta, apply_ite State.settled, ite_self, foldl_settled, implies_true, regPut_settled]

theorem recFmt_settled (s : State) (j : Nat) :
    (recFmt s j).settled = s.settled := by
  unfold recFmt
  (try dsimp only); (repeat' split) <;>
    ((try have hk_recSelect := recSelect_settled_of (by assumption : recSelect _ _ _ _ = _)); simp_all only [settled_mk, settled_eta, apply_ite State.settled, foldl_settled, ite_self, recSelect_settled, nvPush_settled, seedMarks_settled])

theorem recFree_settled (k : Nat) (s : State) :
    (recFree k s).settled = s.settled := by
  unfold recFree
  (try dsimp only); (repeat' split) <;> simp only [settled_mk, settled_eta, seedMarks_settled, fmtRelease_settled, nvPush_settled]

theorem recFinish_settled (k : CkptRec) (s : State) :
    (recFinish k s).settled = s.settled := by
  unfold recFinish
  (try dsimp only); (repeat' split) <;> simp only [settled_mk, settled_eta, nvPush_settled, slotPut_settled, recFree_settled, rowBad_settled]

theorem ckptAdd_settled (k : CkptRec) (a : List CkptRec × State) : (ckptAdd k a).2.settled = a.2.settled := by
  unfold ckptAdd
  (repeat' split) <;> simp only [nvNote_settled]

theorem recCkpt_settled (n : Nat) (acc : List CkptRec × State) (c : Nat) : (recCkpt n acc c).2.settled = acc.2.settled := by
  unfold recCkpt
  split
  · rename_i heq; have hk := recSelect_settled_of heq; simpa only using hk
  · rename_i heq
    have hk := recSelect_settled_of heq
    simp only at hk
    (try dsimp only); (repeat' split) <;> simp only [ckptAdd_settled, nvNote_settled, recFinish_settled, apply_ite State.settled, ite_self, hk]

theorem recResume_settled (s : State) (k : CkptRec) :
    (recResume s k).settled = s.settled := by
  unfold recResume
  simp only [settled_mk, settled_eta, apply_ite State.settled, ite_self, slotPut_settled, seedMarks_settled, ctxPut_settled]

theorem recQueue_settled (l : List CkptRec) (s : State) (k : Nat) :
    (recQueue l s k).settled = s.settled := by
  unfold recQueue
  simp only [settled_mk, settled_eta, apply_ite State.settled, ite_self, rkEnqueue_settled]

theorem recKcv_settled (k place : Nat) (s : State) : (recKcv k place s).2.2.settled = s.settled := by
  unfold recKcv
  (try dsimp only); split <;> simp only [nvNote_settled]

theorem recKcv_settled_of {k place : Nat} {s : State} {pp} (h : recKcv k place s = pp) : pp.2.2.settled = s.settled :=
  h ▸ recKcv_settled k place s

theorem recKcvs_settled (s : State) (k : Nat) : (recKcvs s k).settled = s.settled := by
  unfold recKcvs
  (try dsimp only); repeat' split
  all_goals simp only [slotPut_settled, recKcv_settled]

theorem recImage_settled (s : State) : (recImage s).2.settled = s.settled := by
  unfold recImage
  have hf : ([imageA, imageB].foldl (fun s a => if imageWindup s a = true ∧ (imageVals s a).isNone then nvNote a 3 s else s) s).settled
      = s.settled := foldl_settled _ (fun s a => by split <;> simp only [nvNote_settled]) _ _
  dsimp only
  split
  · rename_i heq
    have hk := recSelect_settled_of heq
    simp only at hk ⊢
    rw [hk]; exact hf
  · rename_i heq
    have hk := recSelect_settled_of heq
    simp only [nvNote_settled] at hk ⊢
    rw [hk]; exact hf

theorem recImage_settled_of {s : State} {pp} (h : recImage s = pp) : pp.2.settled = s.settled := h ▸ recImage_settled s

theorem recTables_settled (n : Nat) (s : State) : (recTables n s).2.settled = s.settled := by
  have hc : ∀ (l : List Nat) (a : List CkptRec × State), (l.foldl (recCkpt n) a).2.settled = a.2.settled := by
    intro l
    induction l with
    | nil => intro a; rfl
    | cons b t ih => intro a; simp only [List.foldl_cons, ih, recCkpt_settled]
  unfold recTables
  dsimp only
  rw [foldl_settled _ (recQueue_settled _), foldl_settled _ recKcvs_settled, foldl_settled _ recResume_settled, hc]
  dsimp only
  rw [foldl_settled _ (fun s k => by split <;> simp only [seedMarks_settled]), foldl_settled _ recFmt_settled, foldl_settled _ recSlot_settled]

theorem recTables_settled_of {n : Nat} {s : State} {pp} (h : recTables n s = pp) : pp.2.settled = s.settled := h ▸ recTables_settled n s

theorem doRecoveryDone_settled (s : State) :
    (doRecoveryDone s).settled = s.settled := by
  unfold doRecoveryDone
  (try dsimp only); (repeat' split) <;> simp only [settled_mk, settled_eta, regPut_settled, nvNote_settled, recTables_settled, recImage_settled, takeFree_settled, nvPush_settled, raise_settled]

theorem snapPut_settled (idx sub row v : Nat) (s : State) :
    (snapPut idx sub row v s).settled = s.settled := by
  unfold snapPut
  simp only [settled_mk, settled_eta]

theorem snapLink_settled (s : State) (p : Nat) :
    (snapLink s p).settled = s.settled := by
  unfold snapLink
  simp only [settled_mk, settled_eta, snapPut_settled]

theorem snapMedia_settled (s : State) (m : Nat) :
    (snapMedia s m).settled = s.settled := by
  unfold snapMedia
  (try dsimp only); (repeat' split) <;>
    simp only [settled_mk, settled_eta, apply_ite State.settled, ite_self, foldl_settled, implies_true, snapPut_settled]

theorem snapHeld_settled (s : State) : (snapHeld s).settled = s.settled := by
  unfold snapHeld
  dsimp only
  rw [foldl_settled _ (fun s e => by (repeat' split) <;> simp only [snapPut_settled])]
  simp only [settled_mk, settled_eta]

theorem snapshots_settled (s : State) :
    (snapshots s).settled = s.settled := by
  unfold snapshots
  (try dsimp only); (repeat' split) <;>
    simp only [settled_mk, settled_eta, apply_ite State.settled, ite_self, foldl_settled, implies_true, snapMedia_settled, snapLink_settled, snapPut_settled, snapHeld_settled, regPut_settled]

theorem slotsRestart_settled (s : State) (m : Nat) :
    (slotsRestart s m).settled = s.settled := by
  unfold slotsRestart
  (try dsimp only); (repeat' split) <;>
    simp only [settled_mk, settled_eta, apply_ite State.settled, ite_self, foldl_settled, implies_true, snapPut_settled, mediaPut_settled]

theorem busyPort_settled (c : Nat) (s : State) (m : Nat) :
    (busyPort c s m).settled = s.settled := by
  unfold busyPort
  simp only [settled_mk, settled_eta, apply_ite State.settled, ite_self, countUp_settled]

theorem clockTo_settled (c : Nat) (s : State) :
    (clockTo c s).settled = s.settled := by
  unfold clockTo
  first
  | with_reducible rfl
  | ((try dsimp only); repeat' split) <;> (first | (with_reducible rfl) | (simp only [settled_mk, settled_eta, apply_ite State.settled, ite_self, busyPort_settled]; done) | (simp only [settled_mk, settled_eta, apply_ite State.settled, ite_self, foldl_settled, implies_true, busyPort_settled]; done) | (simp_all only [settled_mk, settled_eta, apply_ite State.settled, ite_self, foldl_settled, implies_true, busyPort_settled]; done))

theorem landings_settled (t0 : Nat) (s : State) :
    (landings t0 s).settled = s.settled := by
  unfold landings
  first
  | with_reducible rfl
  | ((try dsimp only); repeat' split) <;> (first | (with_reducible rfl) | (simp only [settled_mk, settled_eta, apply_ite State.settled, ite_self, orphansDue_settled, landFlush_settled]; done) | (simp only [settled_mk, settled_eta, apply_ite State.settled, ite_self, foldl_settled, implies_true, orphansDue_settled, landFlush_settled]; done) | (simp_all only [settled_mk, settled_eta, apply_ite State.settled, ite_self, foldl_settled, implies_true, orphansDue_settled, landFlush_settled]; done))

theorem cyclesTo_settled (c : Nat) (s : State) :
    (cyclesTo c s).settled = s.settled := by
  unfold cyclesTo
  (try dsimp only); (repeat' split) <;>
    simp only [settled_mk, settled_eta, apply_ite State.settled, ite_self, foldl_settled, implies_true, landings_settled, clockTo_settled]

theorem doTick_settled (s : State) :
    (doTick s).settled = s.settled := by
  unfold doTick
  simp only [settled_mk, settled_eta, apply_ite State.settled, ite_self, cyclesTo_settled]

theorem lateDir_settled (m : Nat) (s : State) (d : Dir) :
    (lateDir m s d).settled = s.settled := by
  unfold lateDir
  (try dsimp only); (repeat' split) <;> simp only [settled_mk, settled_eta, raise_settled]

theorem latePort_settled (s : State) (m : Nat) :
    (latePort s m).settled = s.settled := by
  unfold latePort
  simp only [settled_mk, settled_eta, apply_ite State.settled, ite_self, count1_settled, lateDir_settled]

theorem doFrameEnd_settled (s : State) :
    (doFrameEnd s).settled = s.settled := by
  unfold doFrameEnd
  (try dsimp only); (repeat' split) <;>
    simp only [settled_mk, settled_eta, apply_ite State.settled, ite_self, foldl_settled, implies_true, cyclesTo_settled, evFrameEnd_settled, latePort_settled]

theorem rwApply_settled (s : State) :
    (rwApply s).settled = s.settled := by
  unfold rwApply
  (try dsimp only); (repeat' split) <;>
    simp only [settled_mk, settled_eta, apply_ite State.settled, ite_self, foldl_settled, implies_true, regPut_settled]

theorem eraseNow_settled (s : State) :
    (eraseNow s).settled = s.settled := by
  unfold eraseNow
  (try dsimp only); (repeat' split) <;>
    simp only [settled_mk, settled_eta, apply_ite State.settled, ite_self, foldl_settled, implies_true, slotPut_settled]

theorem newlyUnserved_settled (before : State) (s : State) :
    (newlyUnserved before s).settled = s.settled := by
  unfold newlyUnserved
  (try dsimp only); (repeat' split) <;>
    simp only [settled_mk, settled_eta, apply_ite State.settled, ite_self, foldl_settled, implies_true, portEmpty_settled]

theorem watchRestart_settled (s : State) :
    (watchRestart s).settled = s.settled := by
  unfold watchRestart
  first
  | with_reducible rfl
  | ((try dsimp only); repeat' split) <;> (first | (with_reducible rfl) | (simp only [settled_mk, settled_eta, apply_ite State.settled, ite_self]; done) | (simp only [settled_mk, settled_eta, apply_ite State.settled, ite_self, foldl_settled, implies_true]; done) | (simp_all only [settled_mk, settled_eta, apply_ite State.settled, ite_self, foldl_settled, implies_true]; done))

theorem rowWindow_settled (s : State) :
    (rowWindow s).settled = s.settled := by
  unfold rowWindow
  first
  | with_reducible rfl
  | ((try dsimp only); repeat' split) <;> (first | (with_reducible rfl) | (simp only [settled_mk, settled_eta, apply_ite State.settled, ite_self, watchRestart_settled]; done) | (simp only [settled_mk, settled_eta, apply_ite State.settled, ite_self, foldl_settled, implies_true, watchRestart_settled]; done) | (simp_all only [settled_mk, settled_eta, apply_ite State.settled, ite_self, foldl_settled, implies_true, watchRestart_settled]; done))

theorem stallCount_settled (s : State) (p : Nat) :
    (stallCount s p).settled = s.settled := by
  unfold stallCount
  simp only [settled_mk, settled_eta, apply_ite State.settled, ite_self, count1_settled, linkPut_settled]

theorem masterBack_settled (s : State) (n : Nat) :
    (masterBack s n).settled = s.settled := by
  unfold masterBack
  (try dsimp only); (repeat' split) <;> simp only [settled_mk, settled_eta]

theorem statRoll_settled (s : State) :
    (statRoll s).settled = s.settled := by
  unfold statRoll
  (try dsimp only); (repeat' split) <;>
    simp only [settled_mk, settled_eta, apply_ite State.settled, ite_self, foldl_settled, implies_true, snapPut_settled]

theorem strobeEnds_settled (s : State) :
    (strobeEnds s).settled = s.settled := by
  unfold strobeEnds
  (try dsimp only); (repeat' split) <;>
    simp only [settled_mk, settled_eta, apply_ite State.settled, ite_self, foldl_settled, implies_true, slotsRestart_settled, stallCount_settled, snapshots_settled, clockTo_settled, doFrameEnd_settled]

theorem strobeSlices_settled (s : State) :
    (strobeSlices s).settled = s.settled := by
  unfold strobeSlices
  simp only [settled_mk, settled_eta, newlyUnserved_settled, slicesStrobe_settled]

theorem strobeJack_settled (s : State) :
    (strobeJack s).settled = s.settled := by
  unfold strobeJack
  simp only [settled_mk, settled_eta, apply_ite State.settled, ite_self, jackClear_settled]

theorem strobeMasters_settled (s : State) :
    (strobeMasters s).settled = s.settled := by
  unfold strobeMasters
  (try dsimp only); (repeat' split) <;>
    simp only [settled_mk, settled_eta, apply_ite State.settled, ite_self, foldl_settled, implies_true, masterBack_settled]

theorem frameNext_settled (s : State) :
    (frameNext s).settled = s.settled := by
  unfold frameNext
  simp only [settled_mk, settled_eta]

theorem objVal_settled (staged : Bool) (o : Obj) (idx sub row : Nat) (s : State) :
    (objVal staged o idx sub row s).2.settled = s.settled := by
  unfold objVal
  (try dsimp only); (repeat' split) <;> simp only [settled_mk, settled_eta, takeFree_settled]

theorem objVal_settled_of {staged : Bool} {o : Obj} {idx sub row : Nat} {s : State} {pp} (h : objVal staged o idx sub row s = pp) : pp.2.settled = s.settled := h ▸ objVal_settled staged o idx sub row s

theorem msgSend_settled (eid op : Byte) (k : Nat) (result : Byte) (seq : BitVec 32) (body : List Byte) (s : State) :
    (msgSend eid op k result seq body s).settled = s.settled := by
  unfold msgSend
  (try dsimp only); (repeat' split) <;> simp only [settled_mk, settled_eta]

theorem msgAnswer_settled (h : MsgHdr) (op : Nat) (rc : Byte) (seq : BitVec 32) (body : List Byte) (s : State) :
    (msgAnswer h op rc seq body s).settled = s.settled := by
  unfold msgAnswer
  simp only [settled_mk, settled_eta, apply_ite State.settled, ite_self, count1_settled, msgSend_settled]

theorem subTake_settled (k : Nat) (s : State) : (subTake k s).2.settled = s.settled := by
  unfold subTake
  (try dsimp only); (repeat' split) <;> simp only [settled_mk, settled_eta]

theorem subTake_settled_of {k : Nat} {s : State} {pp} (h : subTake k s = pp) : pp.2.settled = s.settled := h ▸ subTake_settled k s

theorem doEventMessage_settled (k : Nat) (s : State) : (doEventMessage k s).settled = s.settled := by
  unfold doEventMessage
  split
  · rename_i heq; have hk := subTake_settled_of heq; simpa only using hk
  · rename_i heq; have hk := subTake_settled_of heq; simp only at hk; simp only [msgSend_settled, hk]

theorem entryAsk_settled (s : State) : (entryAsk s).settled = s.settled := by
  unfold entryAsk
  exact foldl_settled _ (fun s k => by (try dsimp only); (repeat' split) <;> simp only [nvPush_settled, settled_mk, settled_eta]) _ _

theorem stagePut_settled (s : State) :
    (stagePut s).settled = s.settled := by
  unfold stagePut
  (try dsimp only); (repeat' split) <;>
    simp only [settled_mk, settled_eta, apply_ite State.settled, ite_self, foldl_settled, implies_true, cfgPut_settled]

theorem linkGens_settled (old new : Nat) (s : State) :
    (linkGens old new s).settled = s.settled := by
  unfold linkGens
  (try dsimp only); (repeat' split) <;>
    simp only [settled_mk, settled_eta, apply_ite State.settled, ite_self, foldl_settled, implies_true, regPut_settled]

theorem growMark_settled (k : Nat) (s : State) (g : Extent × Option Nat) :
    (growMark k s g).settled = s.settled := by
  unfold growMark
  (try dsimp only); (repeat' split) <;> simp only [settled_mk, settled_eta, regPut_settled, rkEnqueue_settled, ctxPut_settled]

theorem growSlotMarks_settled (s : State) (g : Nat × List (Extent × Option Nat)) :
    (growSlotMarks s g).settled = s.settled := by
  unfold growSlotMarks
  (try dsimp only); (repeat' split) <;>
    simp only [settled_mk, settled_eta, apply_ite State.settled, ite_self, foldl_settled, implies_true, growMark_settled]

theorem restoreMark_settled (s : State) (row : Nat) :
    (restoreMark s row).settled = s.settled := by
  unfold restoreMark
  simp only [settled_mk, settled_eta, regPut_settled]

theorem windowNote_settled (old : Nat) (s : State) :
    (windowNote old s).settled = s.settled := by
  unfold windowNote
  first
  | with_reducible rfl
  | ((try dsimp only); repeat' split) <;> (first | (with_reducible rfl) | (simp only [settled_mk, settled_eta, apply_ite State.settled, ite_self]; done) | (simp only [settled_mk, settled_eta, apply_ite State.settled, ite_self, foldl_settled, implies_true]; done) | (simp_all only [settled_mk, settled_eta, apply_ite State.settled, ite_self, foldl_settled, implies_true]; done))

theorem applyNote_settled (s : State) :
    (applyNote s).settled = s.settled := by
  unfold applyNote
  simp only [settled_mk, settled_eta, raise_settled]

theorem slotCmd_settled (kidx v : Nat) (s : State) :
    (slotCmd kidx v s).2.settled = s.settled := by
  unfold slotCmd
  (try dsimp only); (repeat' split) <;> simp only [settled_mk, settled_eta, slotActivate_settled, slotDiscard_settled, slotRetire_settled]

theorem slotCmd_settled_of {kidx v : Nat} {s : State} {pp} (h : slotCmd kidx v s = pp) : pp.2.settled = s.settled := h ▸ slotCmd_settled kidx v s

theorem rekeyReqCmd_settled (kidx : Nat) (s : State) :
    (rekeyReqCmd kidx s).2.settled = s.settled := by
  unfold rekeyReqCmd
  (try dsimp only); (repeat' split) <;> simp only [settled_mk, settled_eta, rkSchedule_settled, nextGenCause_settled]

theorem rekeyReqCmd_settled_of {kidx : Nat} {s : State} {pp} (h : rekeyReqCmd kidx s = pp) : pp.2.settled = s.settled := h ▸ rekeyReqCmd_settled kidx s

theorem prefillStart_settled (s : State) :
    (prefillStart s).settled = s.settled := by
  unfold prefillStart
  simp only [settled_mk, settled_eta]

theorem linkResetCmd_settled (p : Nat) (s : State) :
    (linkResetCmd p s).settled = s.settled := by
  unfold linkResetCmd
  simp only [settled_mk, settled_eta, apply_ite State.settled, ite_self, linkDown_settled]

theorem mpFlushCmd_settled (m : Nat) (s : State) :
    (mpFlushCmd m s).settled = s.settled := by
  unfold mpFlushCmd
  simp only [settled_mk, settled_eta, apply_ite State.settled, ite_self, mediaPut_settled]

theorem masterResetCmd_settled (v : Nat) (s : State) :
    (masterResetCmd v s).settled = s.settled := by
  unfold masterResetCmd
  (try dsimp only); (repeat' split) <;>
    simp only [settled_mk, settled_eta, apply_ite State.settled, ite_self, foldl_settled, implies_true, masterBack_settled]

theorem rwWrite_settled (idx sub row v : Nat) (s : State) :
    (rwWrite idx sub row v s).2.settled = s.settled := by
  unfold rwWrite
  (try dsimp only); (repeat' split) <;> simp only [settled_mk, settled_eta, iqFlushSet_settled, regPut_settled]

theorem rwWrite_settled_of {idx sub row v : Nat} {s : State} {pp} (h : rwWrite idx sub row v s = pp) : pp.2.settled = s.settled := h ▸ rwWrite_settled idx sub row v s

theorem alertAckWrite_settled (v : Nat) (s : State) :
    (alertAckWrite v s).settled = s.settled := by
  unfold alertAckWrite
  simp only [settled_mk, settled_eta, regPut_settled]

theorem rowRead_settled (staged : Bool) (idx row : Nat) (l : List (Nat × Obj)) (s : State) :
    (rowRead staged idx row l s).2.settled = s.settled := by
  induction l generalizing s with
  | nil => rfl
  | cons e t ih =>
    unfold rowRead
    exact (ih _).trans (objVal_settled _ _ _ _ _ _)

theorem rowRead_settled_of {staged : Bool} {idx row : Nat} {l : List (Nat × Obj)} {s : State} {pp}
    (h : rowRead staged idx row l s = pp) : pp.2.settled = s.settled := h ▸ rowRead_settled staged idx row l s

theorem msgDrop_settled (mki reason : Nat) (s : State) :
    (msgDrop mki reason s).settled = s.settled := by
  unfold msgDrop
  simp only [settled_mk, settled_eta, count1_settled, sumSet_settled]

theorem seqTake_settled (k : Nat) (q : BitVec 32) (s : State) :
    (seqTake k q s).settled = s.settled := by
  unfold seqTake
  simp only [settled_mk, settled_eta]

theorem msgResult_settled (h : MsgHdr) (op : Nat) (rc : Byte) (s : State) :
    (msgResult h op rc s).settled = s.settled := by
  unfold msgResult
  simp only [settled_mk, settled_eta, msgAnswer_settled]

theorem readBody_settled (h : MsgHdr) (body : List Byte) (s : State) :
    (readBody h body s).settled = s.settled := by
  unfold readBody
  (try dsimp only); (repeat' split) <;> simp only [settled_mk, settled_eta, msgResult_settled, objVal_settled, msgAnswer_settled]

theorem readRowBody_settled (h : MsgHdr) (body : List Byte) (s : State) : (readRowBody h body s).settled = s.settled := by
  unfold readRowBody
  (try dsimp only); repeat' split
  all_goals simp only [msgResult_settled, msgAnswer_settled, rowRead_settled]

theorem subscribeBody_settled (h : MsgHdr) (body : List Byte) (s : State) :
    (subscribeBody h body s).settled = s.settled := by
  unfold subscribeBody
  simp only [settled_mk, settled_eta, apply_ite State.settled, ite_self, msgResult_settled]

theorem winPut_settled (dbg : Bool) (x : WinClass) (s : State) :
    (winPut dbg x s).settled = s.settled := by
  unfold winPut
  simp only [settled_mk, settled_eta, apply_ite State.settled, ite_self]

theorem winAck_settled (err : Bool) (v : Nat) (s : State) :
    (winAck err v s).settled = s.settled := by
  unfold winAck
  simp only [settled_mk, settled_eta]

theorem winRefuse_settled (dbg : Bool) (addr : Nat) (rc : Byte) (s : State) :
    (winRefuse dbg addr rc s).settled = s.settled := by
  unfold winRefuse
  simp only [settled_mk, settled_eta, winAck_settled, winPut_settled]

theorem winDone_settled (dbg : Bool) (addr : Nat) (r : Byte × State) : (winDone dbg addr r).settled = r.2.settled := by
  unfold winDone
  split <;> simp only [winAck_settled, winRefuse_settled]

theorem rowSelWrite_settled (dbg : Bool) (idx sub v : Nat) (s : State) :
    (rowSelWrite dbg idx sub v s).2.settled = s.settled := by
  unfold rowSelWrite
  (try dsimp only); (repeat' split) <;> simp only [settled_mk, settled_eta, winPut_settled]

theorem rowSelWrite_settled_of {dbg : Bool} {idx sub v : Nat} {s : State} {pp} (h : rowSelWrite dbg idx sub v s = pp) : pp.2.settled = s.settled := h ▸ rowSelWrite_settled dbg idx sub v s

theorem winRegWrite_settled (dbg : Bool) (sub v : Nat) (s : State) :
    (winRegWrite dbg sub v s).2.settled = s.settled := by
  unfold winRegWrite
  (try dsimp only); (repeat' split) <;> simp only [settled_mk, settled_eta, winPut_settled]

theorem winRegWrite_settled_of {dbg : Bool} {sub v : Nat} {s : State} {pp} (h : winRegWrite dbg sub v s = pp) : pp.2.settled = s.settled := h ▸ winRegWrite_settled dbg sub v s

theorem winRead_settled (dbg : Bool) (addr : Nat) (s : State) {v n : Nat} {t : State}
    (h : winRead dbg addr s = .ok (v, n, t)) : t.settled = s.settled := by
  unfold winRead at h
  dsimp only at h
  split at h
  · cases h; rfl
  · split at h
    · cases h
    · split at h
      · cases h; rfl
      · cases h
        exact objVal_settled _ _ _ _ _ _

end Sys2Proof.Machine
end

