-- ==== Sys2Proof/Laws/Wrap.lean ====
section
/-! SUPPORT. KW recovers what it wraps: every 48 bytes are the plaintext of some payload, and every key of some payload under
its binding (R129). -/

namespace Sys2Proof.Machine

/-- Multiplication by x is linear. -/
theorem xtime_xor (a b : Byte) : xtime (a ^^^ b) = xtime a ^^^ xtime b := by
  have h : (a ^^^ b).msb = (a.msb ^^ b.msb) := by simp
  have s : (a ^^^ b) <<< 1 = a <<< 1 ^^^ b <<< 1 := BitVec.shiftLeft_xor_distrib a b 1
  unfold xtime
  rw [h, s]
  cases a.msb <;> cases b.msb <;> simp <;> (try ac_rfl)
  apply BitVec.eq_of_getLsbD_eq; intro i hi; simp
  cases (a <<< 1).getLsbD i <;> cases (b<<<1).getLsbD i <;> cases (27#8).getLsbD i <;> simp_all

/-- Multiplication by a constant is linear. -/
theorem gmul_xor (c : Nat) (a b : Byte) : gmul c (a ^^^ b) = gmul c a ^^^ gmul c b := by
  simp only [gmul, xtime_xor]
  cases c.testBit 0 <;> cases c.testBit 1 <;> cases c.testBit 2 <;> cases c.testBit 3 <;> simp <;> ac_rfl

/-- The products of the coefficients of MixColumns and of its inverse, on every byte. -/
theorem gmul_inv : ∀ x : Byte,
    (gmul 14 (gmul 2 x) ^^^ gmul 11 (gmul 1 x) ^^^ gmul 13 (gmul 1 x) ^^^ gmul 9 (gmul 3 x) = x) ∧
    (gmul 14 (gmul 3 x) ^^^ gmul 11 (gmul 2 x) ^^^ gmul 13 (gmul 1 x) ^^^ gmul 9 (gmul 1 x) = 0#8) ∧
    (gmul 14 (gmul 1 x) ^^^ gmul 11 (gmul 3 x) ^^^ gmul 13 (gmul 2 x) ^^^ gmul 9 (gmul 1 x) = 0#8) ∧
    (gmul 14 (gmul 1 x) ^^^ gmul 11 (gmul 1 x) ^^^ gmul 13 (gmul 3 x) ^^^ gmul 9 (gmul 2 x) = 0#8) := by
  decide +kernel

/-- The inverse S-box undoes the S-box. -/
theorem sbox_inv : ∀ x : Byte, invSbox (sbox x) = x := by decide +kernel

/-- One byte of a column: the inverse mix of the mix. -/
theorem mix_byte (x0 x1 x2 x3 : Byte) :
    gmul 14 (gmul 2 x0 ^^^ gmul 3 x1 ^^^ gmul 1 x2 ^^^ gmul 1 x3) ^^^
    gmul 11 (gmul 2 x1 ^^^ gmul 3 x2 ^^^ gmul 1 x3 ^^^ gmul 1 x0) ^^^
    gmul 13 (gmul 2 x2 ^^^ gmul 3 x3 ^^^ gmul 1 x0 ^^^ gmul 1 x1) ^^^
    gmul 9 (gmul 2 x3 ^^^ gmul 3 x0 ^^^ gmul 1 x1 ^^^ gmul 1 x2) = x0 := by
  obtain ⟨h0, -, -, -⟩ := gmul_inv x0
  obtain ⟨-, h1, -, -⟩ := gmul_inv x1
  obtain ⟨-, -, h2, -⟩ := gmul_inv x2
  obtain ⟨-, -, -, h3⟩ := gmul_inv x3
  simp only [gmul_xor]
  calc _ = (gmul 14 (gmul 2 x0) ^^^ gmul 11 (gmul 1 x0) ^^^ gmul 13 (gmul 1 x0) ^^^ gmul 9 (gmul 3 x0)) ^^^
      (gmul 14 (gmul 3 x1) ^^^ gmul 11 (gmul 2 x1) ^^^ gmul 13 (gmul 1 x1) ^^^ gmul 9 (gmul 1 x1)) ^^^
      (gmul 14 (gmul 1 x2) ^^^ gmul 11 (gmul 3 x2) ^^^ gmul 13 (gmul 2 x2) ^^^ gmul 9 (gmul 1 x2)) ^^^
      (gmul 14 (gmul 1 x3) ^^^ gmul 11 (gmul 1 x3) ^^^ gmul 13 (gmul 3 x3) ^^^ gmul 9 (gmul 2 x3)) := by ac_rfl
    _ = x0 := by rw [h0, h1, h2, h3]; simp

/-- A list of 16 bytes is 16 bytes. -/
theorem list16 {l : List Byte} (h : l.length = 16) : ∃ a b c d e f g i j k m n o p q r,
    l = [a, b, c, d, e, f, g, i, j, k, m, n, o, p, q, r] := by
  match l, h with
  | [a, b, c, d, e, f, g, i, j, k, m, n, o, p, q, r], _ => exact ⟨_, _, _, _, _, _, _, _, _, _, _, _, _, _, _, _, rfl⟩

/-- InvMixColumns undoes MixColumns. -/
theorem invMix_mix {l : List Byte} (h : l.length = 16) : invMixColumns (mixColumns l) = l := by
  obtain ⟨a, b, c, d, e, f, g, i, j, k, m, n, o, p, q, r, rfl⟩ := list16 h
  simp only [invMixColumns, mixColumns, List.range, List.range.loop, List.map, mixByte, byteAt, List.getD,
    Nat.reduceDiv, Nat.reduceMod, Nat.reduceMul, Nat.reduceAdd, List.getElem?_cons_zero, List.getElem?_cons_succ,
    Option.getD_some, mix_byte]

/-- InvShiftRows undoes ShiftRows. -/
theorem invShift_shift {l : List Byte} (h : l.length = 16) : invShiftRows (shiftRows l) = l := by
  obtain ⟨a, b, c, d, e, f, g, i, j, k, m, n, o, p, q, r, rfl⟩ := list16 h
  rfl

/-- A key added twice cancels. -/
theorem xorBytes_xorBytes {l k : List Byte} (h : l.length = k.length) : xorBytes (xorBytes l k) k = l := by
  induction l generalizing k with
  | nil => simp [xorBytes]
  | cons x t ih =>
    cases k with
    | nil => simp at h
    | cons y u =>
      simp only [xorBytes, List.zipWith] at ih ⊢
      rw [ih (by simpa using h)]
      simp [BitVec.xor_assoc]

/-- InvSubBytes undoes SubBytes. -/
theorem map_invSbox_sbox (l : List Byte) : (l.map sbox).map invSbox = l := by
  simp [Function.comp_def, sbox_inv]

/-- Every state is the result of the inverse rounds on some state. -/
theorem aesInvRounds_surj (ks : List (List Byte)) (hk : ∀ k ∈ ks, k.length = 16) (t : List Byte) (ht : t.length = 16) :
    ∃ st : List Byte, st.length = 16 ∧ aesInvRounds ks st = t := by
  have hx : ∀ {a k : List Byte}, a.length = 16 → k.length = 16 → (xorBytes a k).length = 16 := by
    intro a k h1 h2; simp [xorBytes, h1, h2]
  have hs : ∀ a : List Byte, (shiftRows a).length = 16 := by intro a; simp [shiftRows]
  have last : ∀ k u : List Byte, k.length = 16 → u.length = 16 →
      ∃ st : List Byte, st.length = 16 ∧ xorBytes ((invShiftRows st).map invSbox) k = u := by
    intro k u h1 h2
    refine ⟨shiftRows ((xorBytes u k).map sbox), hs _, ?_⟩
    rw [invShift_shift (by simp [hx h2 h1]), map_invSbox_sbox, xorBytes_xorBytes (by rw [h1, h2])]
  induction ks generalizing t with
  | nil => exact ⟨t, ht, rfl⟩
  | cons k ks ih =>
    have hk0 := hk k (by simp)
    cases ks with
    | nil => exact last k t hk0 ht
    | cons k1 ks =>
      obtain ⟨u, hu, e⟩ := ih (fun x hx => hk x (by simp [hx])) t ht
      obtain ⟨st, h1, h2⟩ := last k (mixColumns u) hk0 (by simp [mixColumns])
      exact ⟨st, h1, by rw [aesInvRounds, h2, invMix_mix hu, e]; simp⟩

/-- The last byte of a list is the lowest of its block. -/
theorem blockOfBytes_append (l : List Byte) (b : Byte) :
    blockOfBytes (l ++ [b]) = (blockOfBytes l <<< 8) ||| b.setWidth 128 := by
  simp [blockOfBytes]

/-- Byte j of a block, counted from its last, is byte j of the list, counted from its end. -/
theorem extract_blockOfBytes (l : List Byte) (j : Nat) (hl : l.length ≤ 16) (hj : j < l.length) :
    (blockOfBytes l).extractLsb' (8 * j) 8 = l.getD (l.length - 1 - j) 0#8 := by
  obtain ⟨m, rfl⟩ : ∃ m, l = List.reverse m := ⟨l.reverse, by simp⟩
  induction m generalizing j with
  | nil => simp at hj
  | cons b m ih =>
    rw [List.reverse_cons] at hl hj ⊢
    generalize m.reverse = l at ih hl hj ⊢
    rw [blockOfBytes_append]
    simp only [List.length_append, List.length_singleton] at hl hj
    cases j with
    | zero =>
      simp only [List.length_append, List.length_singleton]
      simp
      apply BitVec.eq_of_getLsbD_eq; intro i hi
      simp [hi]
      omega
    | succ j =>
      have h := ih j (by omega) (by omega)
      simp only [List.length_append, List.length_singleton]
      have e : l.length + 1 - 1 - (j + 1) = l.length - 1 - j := by omega
      have q : l.length - 1 - j < l.length := by omega
      have g : (l ++ [b]).getD (l.length - 1 - j) 0#8 = l.getD (l.length - 1 - j) 0#8 := by
        simp [List.getD, q, List.getElem?_append_left q]
      rw [e, g, ← h]
      apply BitVec.eq_of_getLsbD_eq; intro i hi
      simp only [BitVec.getLsbD_extractLsb', BitVec.getLsbD_or, BitVec.getLsbD_shiftLeft, BitVec.getLsbD_setWidth, hi,
        decide_true, Bool.true_and]
      have h1 : 8 * (j + 1) + i < 128 := by omega
      have h2 : ¬ 8 * (j + 1) + i < 8 := by omega
      have h3 : 8 * (j + 1) + i - 8 = 8 * j + i := by omega
      have h4 : b.getLsbD (8 * (j + 1) + i) = false := BitVec.getLsbD_of_ge _ _ (by omega)
      simp [h1, h2, h3, h4]

/-- The bytes of the block of 16 bytes. -/
theorem blockBytes_blockOfBytes {l : List Byte} (h : l.length = 16) : blockBytes (blockOfBytes l) = l := by
  apply List.ext_getElem
  · simp [blockBytes, h]
  · intro i h1 h2
    simp only [blockBytes, List.getElem_map, List.getElem_range]
    rw [extract_blockOfBytes l (15 - i) (by omega) (by omega)]
    have e : l.length - 1 - (15 - i) = i := by omega
    rw [e]
    simp [List.getD, h2]

/-- The block of the bytes of a block. -/
theorem blockOfBytes_blockBytes (b : Block) : blockOfBytes (blockBytes b) = b := by
  have hl : (blockBytes b).length = 16 := by simp [blockBytes]
  apply BitVec.eq_of_getLsbD_eq; intro i hi
  have h := extract_blockOfBytes (blockBytes b) (i / 8) (by omega) (by omega)
  have h2 : (blockBytes b).getD ((blockBytes b).length - 1 - i / 8) 0#8 = b.extractLsb' (8 * (i / 8)) 8 := by
    rw [hl]
    have e : 15 - (16 - 1 - i / 8) = i / 8 := by omega
    have h3 : 16 - 1 - i / 8 < (blockBytes b).length := by omega
    simp only [List.getD, h3, List.getElem?_eq_getElem, Option.getD_some]
    simp only [blockBytes, List.getElem_map, List.getElem_range, e]
  rw [h2] at h
  have g := congrArg (fun x => x.getLsbD (i % 8)) h
  have e : 8 * (i / 8) + i % 8 = i := by omega
  have m : i % 8 < 8 := by omega
  simpa [BitVec.getLsbD_extractLsb', m, e] using g

/-- Every block is the inverse cipher of some block. -/
theorem aes256Inv_surj (k : Key) (hk : (roundKeys k).all (fun x => x.length == 16) = true) (y : Block) :
    ∃ x, aes256Inv k x = y := by
  have hm : ∀ r ∈ (roundKeys k).reverse, r.length = 16 := by
    intro r hr; simpa using List.all_eq_true.mp hk r (by simpa using hr)
  unfold aes256Inv
  cases h : (roundKeys k).reverse with
  | nil => exact ⟨y, rfl⟩
  | cons k0 ks =>
    rw [h] at hm
    obtain ⟨st, h1, h2⟩ := aesInvRounds_surj ks (fun r hr => hm r (by simp [hr])) (blockBytes y) (by simp [blockBytes])
    have h0 : k0.length = 16 := hm k0 (by simp)
    refine ⟨blockOfBytes (xorBytes st k0), ?_⟩
    have h3 : (xorBytes st k0).length = 16 := by simp [xorBytes, h1, h0]
    simp only
    rw [blockBytes_blockOfBytes h3, xorBytes_xorBytes (by rw [h1, h0]), h2, blockOfBytes_blockBytes]

/-- Every result of the unwrap steps has a start. -/
theorem kwSteps_surj (kek : Key) (n : Nat) (hs : ∀ y, ∃ x, aes256Inv kek x = y) (t : Nat) (a : BitVec 64)
    (rs : List (BitVec 64)) (hn : 0 < n) (hr : rs.length = n) :
    ∃ a0 rs0, rs0.length = n ∧ kwSteps kek n t a0 rs0 = (a, rs) := by
  induction t generalizing a rs with
  | zero => exact ⟨a, rs, hr, rfl⟩
  | succ t ih =>
    obtain ⟨a1, rs1, h1, e1⟩ := ih a rs hr
    obtain ⟨x, hx⟩ := hs (a1 ++ rs1.getD (t % n) 0#64)
    have hi : t % n < n := Nat.mod_lt _ hn
    refine ⟨x.extractLsb' 64 64 ^^^ BitVec.ofNat 64 (t + 1), rs1.set (t % n) (x.extractLsb' 0 64), by simp [h1], ?_⟩
    rw [kwSteps]
    have hg : (rs1.set (t % n) (x.extractLsb' 0 64)).getD (t % n) 0#64 = x.extractLsb' 0 64 := by
      simp [List.getD, h1, hi]
    have hx2 : (x.extractLsb' 64 64 ^^^ BitVec.ofNat 64 (t + 1) ^^^ BitVec.ofNat 64 (t + 1)) ++ x.extractLsb' 0 64 = x := by
      rw [BitVec.xor_assoc, BitVec.xor_self, BitVec.xor_zero]
      apply BitVec.eq_of_getLsbD_eq; intro i h
      simp only [BitVec.getLsbD_append, BitVec.getLsbD_extractLsb']
      by_cases c : i < 64
      · simp [c]
      · have : i - 64 < 64 := by omega
        have e : 64 + (i - 64) = i := by omega
        simp [c, this, e]
    simp only [hg, hx2, hx]
    have e2 : (a1 ++ rs1.getD (t % n) 0#64 : BitVec 128).extractLsb' 64 64 = a1 := by
      apply BitVec.eq_of_getLsbD_eq; intro i h
      simp only [BitVec.getLsbD_append, BitVec.getLsbD_extractLsb', h]
      simp
    have e3 : (a1 ++ rs1.getD (t % n) 0#64 : BitVec 128).extractLsb' 0 64 = rs1.getD (t % n) 0#64 := by
      apply BitVec.eq_of_getLsbD_eq; intro i h
      simp only [BitVec.getLsbD_append, BitVec.getLsbD_extractLsb', h]
      simp [h]
    rw [e2, e3]
    have e4 : (rs1.set (t % n) (x.extractLsb' 0 64)).set (t % n) (rs1.getD (t % n) 0#64) = rs1 := by
      rw [List.set_set]
      apply List.ext_getElem
      · simp
      · intro i q1 q2
        by_cases c : t % n = i
        · subst c; simp [List.getD, h1, hi]
        · simp [c]
    rw [e4, e1]

/-- A list of six semiblocks is six semiblocks. -/
theorem list6 {l : List (BitVec 64)} (h : l.length = 6) : ∃ a b c d e f, l = [a, b, c, d, e, f] := by
  match l, h with
  | [a, b, c, d, e, f], _ => exact ⟨_, _, _, _, _, _, rfl⟩

/-- The part of an appended value above its low half, and within it. -/
theorem extract_append_high {w v : Nat} (x : BitVec w) (y : BitVec v) (s n : Nat) (h : v ≤ s) :
    (x ++ y).extractLsb' s n = x.extractLsb' (s - v) n := by
  apply BitVec.eq_of_getLsbD_eq; intro i hi
  simp only [BitVec.getLsbD_extractLsb', BitVec.getLsbD_append, hi, decide_true, Bool.true_and]
  have h1 : ¬ s + i < v := by omega
  have h2 : s + i - v = s - v + i := by omega
  simp [h1, h2]

/-- The low part of an appended value. -/
theorem extract_append_low {w v : Nat} (x : BitVec w) (y : BitVec v) : (x ++ y).extractLsb' 0 v = y := by
  apply BitVec.eq_of_getLsbD_eq; intro i hi
  simp [BitVec.getLsbD_append, hi]

/-- All bits of a value. -/
theorem extract_all {w : Nat} (x : BitVec w) : x.extractLsb' 0 w = x := by
  apply BitVec.eq_of_getLsbD_eq; intro i hi
  simp [hi]

/-- A semiblock pushed behind those before it. -/
theorem push_semiblock (pt : BitVec 384) (n : Nat) :
    (pt >>> (64 * (n + 1))) <<< 64 ||| (pt.extractLsb' (64 * n) 64).setWidth 384 = pt >>> (64 * n) := by
  apply BitVec.eq_of_getLsbD_eq; intro i hi
  simp only [BitVec.getLsbD_or, BitVec.getLsbD_shiftLeft, BitVec.getLsbD_setWidth, BitVec.getLsbD_extractLsb',
    BitVec.getLsbD_ushiftRight, hi, decide_true, Bool.true_and]
  by_cases c : i < 64
  · simp [c]
  · have e : 64 * (n + 1) + (i - 64) = 64 * n + i := by omega
    simp [c, e]

/-- Every 48 bytes are the plaintext of some wrapped payload. -/
theorem kwUnwrap_surj (kek : Key) (hk : (roundKeys kek).all (fun x => x.length == 16) = true) (pt : BitVec 384) :
    ∃ ct, kwUnwrap kek ct = some pt := by
  obtain ⟨a0, rs0, h1, e1⟩ := kwSteps_surj kek 6 (aes256Inv_surj kek hk) 36 0xA6A6A6A6A6A6A6A6#64
    ((List.range 6).map (fun i => pt.extractLsb' (64 * (5 - i)) 64)) (by decide) (by simp)
  obtain ⟨r0, r1, r2, r3, r4, r5, rfl⟩ := list6 h1
  refine ⟨a0 ++ r0 ++ r1 ++ r2 ++ r3 ++ r4 ++ r5, ?_⟩
  have c0 : (a0 ++ r0 ++ r1 ++ r2 ++ r3 ++ r4 ++ r5 : BitVec 448).extractLsb' 384 64 = a0 := by
    simp only [extract_append_high, Nat.reduceLeDiff, Nat.reduceSub, Nat.le_refl, extract_all]
  have c1 : (List.range 6).map (fun i => (a0 ++ r0 ++ r1 ++ r2 ++ r3 ++ r4 ++ r5 : BitVec 448).extractLsb' (64 * (5 - i)) 64) =
      [r0, r1, r2, r3, r4, r5] := by
    simp only [List.range, List.range.loop, List.map, Nat.reduceSub, Nat.reduceMul, extract_append_high, Nat.reduceLeDiff,
      extract_append_low, Nat.le_refl]
  unfold kwUnwrap
  simp only [c1, e1, if_true, c0]
  refine congrArg some ?_
  simp only [List.range, List.range.loop, List.map, List.foldl, Nat.reduceSub]
  have z : (0#384 : BitVec 384) = pt >>> (64 * (5 + 1)) := by
    apply BitVec.eq_of_getLsbD_eq; intro i hi
    simp [BitVec.getLsbD_of_ge]
  rw [z, push_semiblock pt 5, push_semiblock pt 4, push_semiblock pt 3,
    push_semiblock pt 2, push_semiblock pt 1, push_semiblock pt 0]
  simp

/-- Every key has, for every binding, a payload from which the key port recovers it. -/
theorem kpOpen_surj (kek key : Key) (k : KpCmd) (kidx msel cls prin use : Nat)
    (hk : (roundKeys kek).all (fun x => x.length == 16) = true) :
    ∃ p, kpOpen kek { k with payload := p } kidx msel cls prin use = some key := by
  obtain ⟨b, hb⟩ : ∃ b, b = leBytes 2 kidx ++ leBytes 1 msel ++ leBytes 1 cls ++ leBytes 2 prin ++ leBytes 1 use ++
      List.replicate 9 0#8 := ⟨_, rfl⟩
  have hl : b.length = 16 := by simp [hb, leBytes]
  obtain ⟨ct, h⟩ := kwUnwrap_surj kek hk (key ++ blockOfBytes b)
  refine ⟨ct, ?_⟩
  unfold kpOpen
  simp only [h, ← hb]
  have e : (List.range 16).map (fun i => (key ++ blockOfBytes b : BitVec 384).extractLsb' (8 * (15 - i)) 8) = b := by
    rw [← blockBytes_blockOfBytes hl, blockOfBytes_blockBytes, blockBytes]
    apply List.map_congr_left
    intro i hi
    have hi : i < 16 := List.mem_range.mp hi
    apply BitVec.eq_of_getLsbD_eq; intro j hj
    simp only [BitVec.getLsbD_extractLsb', BitVec.getLsbD_append, hj]
    have q : 8 * (15 - i) + j < 128 := by omega
    simp [q]
  rw [if_pos e]
  refine congrArg some ?_
  rw [extract_append_high _ _ _ _ (by decide)]
  exact extract_all key

end Sys2Proof.Machine
end

