-- ==== Sys2Proof/Tests/Slice0.lean ====
section
/-! SUPPORT. Small tests of single commands, the refusals of well-formedness, and, for the hypotheses of the obligations,
states and operands that meet them. -/

namespace Sys2Proof.Tests
open Sys2Proof Sys2Proof.Machine

-- One theorem after the other: each evaluates in the kernel, and many at once would need a thread of their own each.
set_option Elab.async false

-- States that the tests start from

/-- Put values in force. -/
def cfgs (l : List (Nat × Nat × Nat × Nat)) (s : State) : State :=
  l.foldl (fun s x => cfgPut x.1 x.2.1 x.2.2.1 x.2.2.2 s) s

/-- The block in service. -/
def served : State := { State.reset with pwr := { stage := .served } }

/-- The block in service in cycle 8 of a frame. -/
def inFrame (n : BitVec 56) : State := { served with clk := { running := true, frame := n, cycle := 8 } }

/-- Slot 1 in a given state, of class `cls`, for principal 1, over lines 0 to 1,023, with its tag region at line 4,096; the host
stream (0, 0) with a window of 64 cells; a full grant of the debug master. -/
def withSlot (cls : Nat) (x : Slot) (s : State) : State :=
  cfgs [(0x4000, 2, 1, 1), (0x4000, 3, 1, cls), (0x4000, 8, 1, 4096), (0x4002, 1, 1, 1), (0x4002, 2, 1, 3), (0x4003, 1, 4, 0),
    (0x4003, 2, 4, 1023), (0x4003, 3, 4, 1), (0x4001, 1, 0, 1), (0x4001, 4, 0, 1), (0x4001, 0x10, 0, 64), (0x5000, 1, 1, 15)]
    (slotPut 1 x s)

/-- An ACTIVE slot of generation 1. -/
def slotA : Slot := { st := .active, gen := 1, matA := some { key := 7, usable := 0 } }

/-- A link that is up. -/
def linkUp : LinkSt := { up := true, lock := true, rate := 0, force := { maxTags := 64, replayLimit := 4, depth := 8 } }

/-- In service in cycle 8 of frame 1, with an ACTIVE slot of a class, and link 0 up with 64 credits granted on stream 0. -/
def busy (cls : Nat) : State :=
  { withSlot cls slotA (inFrame 1) with
    links := [(0, linkUp)], accts := [(0, { granted := 64, sent := 64 })] }

/-- A header of stream 0 and slot 1. -/
def hd (tag : BitVec 16) (a : Addr) : Hdr := { sid := 0, tag := tag, kidx := 1, addr := a }

/-- An item of link 0 for line 0 with its queue, landed in frame 0. -/
def it (op : ReqOp) (a : Addr) : Item := { src := .link 0, op := op, h := hd 5 a, slot := 1, arr := 3 }

/-- A granted transaction of an item. -/
def tx (i : Item) (st : TxSt) : Txn := { id := 4, item := i, st := st, port := 0 }

/-- A key-port command. -/
def kp (kidx : BitVec 16) (msel : Byte) (payload : BitVec 448) : KpCmd :=
  { seq := 9, kidx := kidx, msel := msel, resv := 0, payload := payload, framed := true }

-- Well-formedness refuses an ill-formed term of each check

/-- A message header of zeros. -/
def blankMh : MsgHdr :=
  { eid := 0, enterprise := 0, sver := 0, mki := 0, flags := 0, seq := 0, session := 0, cfgGen := 0, cmac := 0 }

theorem test_wf_refuses :
    Instr.wf (.rxIdle 0 [272] 0) = false ∧ Instr.wf (.rxDataFlit 0 [5, 5] 0 0) = false ∧ Instr.wf (.rxAckOnly 0 [272] 0) = false ∧
    Instr.wf (.rxHeartbeat 0 [272] 0 0 0) = false ∧ Instr.wf (.rxDown 0 [272] 0) = false ∧
    Instr.wf (.rxBadFlit 0 [272] 0) = false ∧ Instr.wf (.rxReservedType 0 [272] 0) = false ∧
    Instr.wf (.fgReadGrant 0 { pipes := [(12, 1)] }) = false ∧ Instr.wf (.fgReadGrant 0 { upset := [(384, 0)] }) = false ∧
    Instr.wf (.lineArrival 0 0 0 0 0 { rows := [(768, 0, true)] }) = false ∧ Instr.wf (.bistDone [.spare 0 4]) = false ∧
    Instr.wf (.fuseLoadDone { ok := true, engineId := 0, rows := [], cols := [(768, 0)] }) = false ∧
    Instr.wf (.readLine (.link 0) { sid := 0, tag := 0, kidx := 0, addr := 0, odd := some 9 }) = false ∧
    Instr.wf (.readLine (.master 0) { sid := 0, tag := 0, kidx := 0, addr := 0, odd := some 8 }) = false ∧
    Instr.wf (.loadKek { odd := some 5, seq := 0, kidx := 0, msel := 0, resv := 0, payload := 0, framed := true }) = false ∧
    Instr.wf (.read { blankMh with odd := some 7 } []) = false ∧
    Instr.wf (.vote 0 .w { rows := [(0, 1024, true)] }) = false ∧ Instr.wf (.bistDone [.row 768 0]) = false ∧
    Instr.wf (.fuseLoadDone { ok := true, engineId := 0, rows := [(0, 0, 4)] }) = false ∧
    Instr.wf (.fuseLoadDone { ok := true, engineId := 0, rows := [(0, 1024, 0)] }) = false ∧
    Instr.wf (.creditReturn 0 [(0, 0), (0, 0), (0, 0), (0, 0)]) = false ∧ Instr.wf (.copyBackDone 0) = false ∧
    Instr.wf (.copyBackDone 21) = false ∧ Instr.wf (.poolSweepPass [(384, 0)] 0 0 []) = false ∧
    Instr.wf (.poolSweepPass [] 262144 1 []) = false := by decide

theorem test_wf_admits :
    Instr.wf (.rxIdle 0 [0, 271] 0) = true ∧
    Instr.wf (.readLine (.master 0) { sid := 0, tag := 0, kidx := 0, addr := 0, odd := some 9 }) = true ∧ Instr.wf (.copyBackDone 20) = true ∧
    Instr.wf (.fgReadGrant 0 { pipes := [(11, 1)], rows := [(767, 1023, true)] }) = true ∧
    Instr.wf (.creditReturn 0 [(0, 0), (0, 0), (0, 0)]) = true ∧
    Instr.wf (.poolSweepPass [(383, 4)] 262144 0 []) = true := by decide

-- The standards of Table 00.4, on their published vectors

/-- FIPS 197, appendix C.3. -/
theorem test_aes_fips197 :
    aes256 0x000102030405060708090a0b0c0d0e0f101112131415161718191a1b1c1d1e1f#256 0x00112233445566778899aabbccddeeff#128 =
      0x8ea2b7ca516745bfeafc49904b496089#128 := by decide +kernel

/-- FIPS 197, the inverse cipher. -/
theorem test_aes_inverse :
    aes256Inv 0x000102030405060708090a0b0c0d0e0f101112131415161718191a1b1c1d1e1f#256 0x8ea2b7ca516745bfeafc49904b496089#128 =
      0x00112233445566778899aabbccddeeff#128 := by decide +kernel

/-- SP 800-38B, appendix D.3: the CMAC of the empty string under AES-256. -/
theorem test_cmac_sp800_38b :
    cmac 0x603deb1015ca71be2b73aef0857d77811f352c073b6108d72d9810a30914dff4#256 [] =
      0x028962f61b7bf89efc6b551f4667d983#128 := by decide +kernel

/-- FIPS 180-4: SHA-256 of "abc". -/
theorem test_sha256_abc :
    sha256 [0x61#8, 0x62#8, 0x63#8] =
      0xba7816bf8f01cfea414140de5dae2223b00361a396177a9cb410ff61f20015ad#256 := by decide +kernel

/-- The check value of CRC-16 with polynomial 1021h and initial value FFFFh over "123456789". -/
theorem test_crc16_check :
    crc16 0xFFFF#16 [0x31#8, 0x32#8, 0x33#8, 0x34#8, 0x35#8, 0x36#8, 0x37#8, 0x38#8, 0x39#8] = 0x29B1#16 := by decide +kernel

-- Single commands

/-- R29: FRAME_STROBE moves the frame number by one and restarts the cycle. -/
theorem test_strobe : (match exec .frameStrobe (inFrame 5) with
    | .next t => t.clk == { running := true, frame := 6#56, cycle := 0 }
    | _ => false) = true := by decide +kernel

/-- R376: a reset drops the KEK and every slot. -/
theorem test_reset_erases : (match exec (.reset true) { busy 1 with keys := { (busy 1).keys with kek := some 1 } } with
    | .next t => t.keys.kek == none && t.keys.slots == [] && t.clk.running == false
    | _ => false) = true := by decide +kernel

/-- R137: the blown debug lock forces bits 0 and 1 of G_DEBUG to 0 and leaves bits 2 and 3. -/
theorem test_debug_lock : (match exec .debugLockBlown (busy 1) with
    | .next t => cfgVal t 0x5000 1 1 == 12 && t.keys.debugLock
    | _ => false) = true := by decide +kernel

/-- R131: the KEK is accepted once; its check value under the all-zero key is DC95C0h. -/
theorem test_load_kek : (match exec (.loadKek (kp 0 0 0)) served with
    | .next t => t.keys.kek == some 0 && t.keys.kpRsp == some { opc := 1, seq := 9, result := 0, kcv := 0xDC95C0#24 }
    | _ => false) = true := by decide +kernel

/-- Table 06.9: a second KEK is answered KP_KEK_HELD. -/
theorem test_load_kek_again : (match exec (.loadKek (kp 0 0 0)) { served with keys := { served.keys with kek := some 1 } } with
    | .next t => t.keys.kek == some 1 && t.keys.kpRsp == some { opc := 1, seq := 9, result := kpKekHeld, kcv := 0 }
    | _ => false) = true := by decide +kernel

/-- R138: a qualified zeroize_n erases the KEK and the materials. -/
theorem test_zeroize : (match exec .zeroizeQualify { busy 1 with keys := { (busy 1).keys with kek := some 1 } } with
    | .next t => t.keys.kek == none && (slotOf t 1).matA == none && (slotOf t 1).st == .zeroized
    | _ => false) = true := by decide +kernel

/-- R135, R187: a READ_LINE with room enters the queue of its line's port. -/
theorem test_read_line : (match exec (.readLine (.link 0) (hd 7 16)) (busy 1) with
    | .next t => t.pool.items.map (fun i => (i.h.tag, i.slot, i.q / 8)) == [(7#16, 1, portOf (busy 1) 16)]
    | _ => false) = true := by decide +kernel

/-- Table 06.11 step 6: a line outside every extent is answered EXTENT_FAULT. -/
theorem test_read_line_fault : (match exec (.readLine (.link 0) (hd 7 1024)) (busy 1) with
    | .next t => (eqOf t 0).any (fun r => r.tag == 7 && r.status == 0x08) && t.pool.items == []
    | _ => false) = true := by decide +kernel

/-- R184: a master above 4 does not send. -/
theorem test_master_absent : (match exec (.readLine (.master 5) (hd 7 16)) (busy 1) with
    | .next t => t.pool.items == []
    | _ => false) = true := by decide +kernel

/-- R176: a FENCE waits while an earlier request of its stream waits. -/
theorem test_fence_waits : (match exec (.fenceComplete (.link 0) 0)
      { busy 1 with pool := { (busy 1).pool with items := [it .readLine 0], fences := [{ src := .link 0, sid := 0, tag := 6, arr := 4 }] } } with
    | .next t => t.pool.fences.length == 1
    | _ => false) = true := by decide +kernel

/-- R252: a granted READ_LINE issues its read on its port. -/
theorem test_read_grant : (match exec (.fgReadGrant 0 {}) { busy 1 with pool := { (busy 1).pool with items := [it .readLine 0] } } with
    | .next t => (mediaOf t 0).fifoR.map (fun o => (o.kind, o.addr)) == [(.read, 0)] && t.pool.items == []
    | _ => false) = true := by decide +kernel

/-- R53, Table 03.7 row 2: a virgin line reads as zeros with OK in class W. -/
theorem test_virgin_read : (match exec (.lineArrival 0 2 0 0 (linePar 0) {})
      { busy 1 with
        pool := { (busy 1).pool with txns := [tx (it .readLine 0) .reading] }
        media := [(0, { outR := [(2, { kind := .read, addr := 0, owner := .txn 4 })] })] } with
    | .next t => (eqOf t 0).any (fun r => r.tag == 5 && r.status == 0 && r.data == some 0) && t.pool.txns == []
    | _ => false) = true := by decide +kernel

/-- R255: ACCEPTED without a write that waits for it makes the port FAILED. -/
theorem test_accepted_stray : (match exec (.accepted 3) served with
    | .next t => (mediaOf t 3).failed && t.pins.faultLow
    | _ => false) = true := by decide +kernel

/-- R218: a DOWN flit drops a link that is up with cause 5. -/
theorem test_down_flit : (match exec (.rxDown 0 [] 0) (busy 1) with
    | .next t => !(linkOf t 0).up && regVal t (linkIdx 0 1) 9 0 == 5
    | _ => false) = true := by decide +kernel

/-- R225: the replay timer goes back to UNA. -/
theorem test_replay_timer : (match exec (.replayTimer 0 false {})
      { busy 1 with links := [(0, { linkUp with una := 2, nxt := 4 })] } with
    | .next t => (linkOf t 0).replay == some 2 && (linkOf t 0).expiries == 1
    | _ => false) = true := by decide +kernel

/-- R311: an access with a byte enable clear is refused with ACCESS, and WIN_ERR holds code and address. -/
theorem test_window_enables : (match exec (.windowWrite { addr := 0x204002#24, be := 7, dbg := false } 1) served with
    | .next t => t.winOut == some { err := true, value := 0 } && t.winL.err == 0x20400203#32
    | _ => false) = true := by decide +kernel

/-- R319: a write of TAG_CLEAN_AGE enters the staging set and leaves the value in force. -/
theorem test_rws_write : (match exec (.rwsWrite { addr := 0x204002#24, be := 15, dbg := false } 100) served with
    | .next t => t.staged == [(okey 0x2040 2 0, 100)] && cfgVal t 0x2040 2 0 == 64 && t.commit.owner == 1
    | _ => false) = true := by decide +kernel

/-- R310: a value out of range is refused with RANGE. -/
theorem test_rws_range : (match exec (.rwsWrite { addr := 0x204002#24, be := 15, dbg := false } 0) served with
    | .next t => t.staged == [] && t.winL.err == 0x20400204#32
    | _ => false) = true := by decide +kernel

/-- R313: local firmware and debug have their own row selects. -/
theorem test_row_select : (match exec (.windowWrite { addr := 0x4000FE#24, be := 15, dbg := false } 5) served with
    | .next t => winRow t false 0x4000 == 5 && winRow t true 0x4000 == 0
    | _ => false) = true := by decide +kernel

/-- R213: LINK_RESET drops a link with cause 7. -/
theorem test_link_reset : (match exec (.linkReset false 0 true) (busy 1) with
    | .next t => !(linkOf t 0).up && regVal t (linkIdx 0 1) 9 0 == 7
    | _ => false) = true := by decide +kernel

/-- R354: ALERT_ACK clears the acknowledged levels alone. -/
theorem test_alert_ack : (match exec (.alertAck false 5) (regPut 0x2500 5 0 15 served) with
    | .next t => regVal t 0x2500 5 0 == 10
    | _ => false) = true := by decide +kernel

/-- R356: the recorder takes the oldest record while it is online. -/
theorem test_recorder : (match exec .recorderAccept
      { regPut 0x2500 0x0A 0 1 served with ev := { backlog := [{ code := 1, source := 2, frame := 3, p1 := 4, p2 := 5, p3 := 6 }] } } with
    | .next t => t.ev.backlog == [] && (t.ev.recTx.map (fun r => r.code)) == some 1
    | _ => false) = true := by decide +kernel

/-- R279: a page commit stores its bytes at its address, and reads back. -/
theorem test_page_commit : (match exec (.nvPageDone false)
      { served with nvu := { served.nvu with page := some { addr := 64, data := [(2, 0x5A)], jobs := [] } } } with
    | .next t => t.nv == [(66, 0x5A#8)] && (t.nvu.page.map (fun p => p.reading)) == some true
    | _ => false) = true := by decide +kernel

/-- R267: a qualified warning in service begins the drain. -/
theorem test_power_warning : (match exec .pwrWarnQualify served with
    | .next t => t.pwr.phase == .draining && !t.pins.persistOk
    | _ => false) = true := by decide +kernel


-- Witnesses: concrete states and operands that meet the hypotheses of each obligation

/-- A link state that differs from linkUp in what is given, alone on link 0. -/
def onLink (x : LinkSt) (s : State) : State := { s with links := [(0, x)] }

/-- The block with items waiting. -/
def waiting (l : List Item) (s : State) : State := { s with pool := { s.pool with items := l } }

/-- The block with the frame number moved on. -/
def later (n : BitVec 56) (s : State) : State := { s with clk := { s.clk with frame := n } }

/-- The block in a power phase. -/
def phased (p : PwrPhase) (s : State) : State := { s with pwr := { s.pwr with phase := p } }

/-- Media port 0 in a state. -/
def port0 (x : Media) (s : State) : State := { s with media := [(0, x)] }

/-- Rekey context 0. -/
def ctx0 (c : Ctx) (s : State) : State := { s with rk := { s.rk with ctxs := [(0, c)] } }

/-- A running pass over slot 1 from generation 0. -/
def cx (cause : Nat) : Ctx := { st := .running, kidx := 1, cause := cause, gen := 0, bound := 0, takes := 0 }

theorem witness_StepRunsFrontCommand :
    ({ served with pending := [.frameStrobe, .frameEnd] } : State).pending = .frameStrobe :: [.frameEnd] := rfl

theorem witness_StepTicksWhenQueueIsEmpty :
    served.pending = [] ∧ served.clk.running = true ∧ served.clk.cycle ≤ 1023 ∧
    ({ served with clk := { cycle := 1023 } } : State).clk.cycle ≤ 1023 ∧
    ({ served with clk := { running := false } } : State).clk.running = false := by decide

/-- A state of the invariant with a command at its front. -/
def fronted : State := { served with pins := { pinOe := true }, pending := [.frameStrobe] }

theorem witness_EveryStepKeepsInvariant : fronted.Inv ∧ ∃ t, step fronted = .next t :=
  ⟨⟨rfl, by decide, rfl, rfl, rfl, by decide⟩, _, rfl⟩

theorem witness_CommandsLeaveTheQueue : ∃ t, exec .frameEnd fronted = .next t := ⟨_, rfl⟩

theorem witness_NvStoreIsWrittenByPageCommits :
    (∃ t, exec .frameStrobe served = .next t) ∧ (∀ e, Instr.frameStrobe ≠ .nvPageDone e) ∧
    ∀ p, Instr.frameStrobe ≠ .reset p := ⟨⟨_, rfl⟩, nofun, nofun⟩

theorem witness_KeysAreReplacedByLoadsAndZeroization :
    (∃ t, exec (.loadMgmtKey (kp 0 0 0)) served = .next t) ∧ (Instr.loadMgmtKey (kp 0 0 0) ≠ .zeroizeQualify) ∧
    (∀ p, Instr.loadMgmtKey (kp 0 0 0) ≠ .reset p) ∧ (∀ k, Instr.loadMgmtKey (kp 0 0 0) ≠ .loadKek k) ∧
    ∀ k, Instr.loadKek (kp 0 0 0) ≠ .loadMgmtKey k := ⟨⟨_, rfl⟩, nofun, nofun, nofun, nofun⟩

theorem witness_SessionsWindowAndStagingHaveTheirWriters :
    (∃ t, exec .frameEnd served = .next t) ∧ (∀ p, Instr.frameEnd ≠ .reset p) ∧ (∀ k, Instr.frameEnd ≠ .loadMgmtKey k) ∧
    isMessage .frameEnd = false ∧ isWindow .frameEnd = false ∧ isCommitUnit .frameEnd = false :=
  ⟨⟨_, rfl⟩, nofun, nofun, rfl, rfl, rfl⟩

theorem witness_FrameNumberAndPowerPhaseHaveTheirMovers :
    (∃ t, exec .commitApply served = .next t) ∧ (∀ p, Instr.commitApply ≠ .reset p) ∧
    (∀ p b, Instr.commitApply ≠ .resetRelease p b) ∧ Instr.commitApply ≠ .frameStrobe ∧ Instr.commitApply ≠ .frameEnd ∧
    Instr.commitApply ≠ .commitSample ∧ Instr.commitApply ≠ .commitDeferLimit ∧ Instr.commitApply ≠ .pwrWarnQualify ∧
    Instr.commitApply ≠ .drainComplete ∧ Instr.commitApply ≠ .resume :=
  ⟨⟨_, rfl⟩, nofun, nofun, nofun, nofun, nofun, nofun, nofun, nofun, nofun⟩

theorem witness_ResetAndReleaseStartAnew :
    ({ served with clk := { running := false } } : State).clk.running = false ∧ served.nvu.page = none := by decide

theorem witness_StartUpPassesItsStages :
    State.reset.clk.running = true ∧ State.reset.pwr.stage = .fuse ∧
    ({ served with pwr := { stage := .bist } } : State).pwr.stage = .bist ∧
    ({ served with pwr := { stage := .recovery } } : State).pwr.stage = .recovery ∧ served.pwr.phase = .service ∧
    ({ inFrame 1 with pwr := { stage := .served, imageDue := some 0 } } : State).pwr.imageDue = some 0 ∧
    0 < frameNo (inFrame 1) ∧ imageNow (inFrame 1) = none := by decide +kernel

theorem witness_FrameHappeningsMoveTheClock :
    served.clk.running = true ∧ served.clk.cycle ≤ 1020 ∧ served.commit.phase ≠ .pending := by decide

/-- A commit that waits for its frame, with a readiness of the units given by `cb`. -/
def pendingCommit (cb : Tab Nat) : State :=
  { busy 1 with staged := [(okey 0x2040 2 0, 100)],
                commit := { phase := .pending, owner := 8, target := 1, named := 0, copyBack := cb } }

theorem witness_CommitsPrepareSampleAndApply_sample :
    sampleDue (pendingCommit []) = true ∧ needEntry (cyclesTo 1020 (pendingCommit [])) = [] ∧
    firstFault (stateFaults (cyclesTo 1020 (pendingCommit []))) = none ∧
    allReady (cyclesTo 1020 (pendingCommit [])) = true := by decide +kernel

theorem witness_CommitsPrepareSampleAndApply :
    ({ served with commit := { phase := .preparing } } : State).commit.phase = .preparing ∧
    sampleDue (later 16384 (pendingCommit [(3, 1)])) = true ∧ deferLimit (later 16384 (pendingCommit [(3, 1)])) = true ∧
    firstFault (stateFaults (later 16384 (pendingCommit [(3, 1)]))) = none ∧
    allReady (later 16384 (pendingCommit [(3, 1)])) = false ∧
    ({ inFrame 1 with commit := { phase := .pending, decided := .apply, target := 1 } } : State).commit.decided = .apply ∧
    1 ≤ frameNo (inFrame 1) ∧ ({ served with commit := { refresh := true } } : State).commit.refresh = true ∧
    ({ served with commit := { refresh := true, published := true } } : State).commit.published = true ∧
    (later 2097152 (pendingCommit [])).commit.owner ≠ 0 ∧
    framesOver (later 2097152 (pendingCommit [])) (pendingCommit []).commit.ownerSeen
      (1024 * cfgVal (later 2097152 (pendingCommit [])) 0x2200 7 0) = true := by decide +kernel

theorem witness_PowerWarningDrainsToParked :
    served.clk.running = true ∧ served.pwr.phase = .service ∧ (phased .draining served).pwr.phase ≠ .service ∧
    ({ served with pwr := { stage := .served, phase := .draining, sessionDone := true } } : State).pwr.sessionDone = true ∧
    ({ served with pwr := { stage := .bist, phase := .draining, interrupted := true } } : State).nvu.page = none ∧
    (phased .draining served).pwr.interrupted = false ∧ (phased .draining served).pwr.sessionDone = false ∧
    (phased .draining served).pwr.late = false ∧
    ({ served with pwr := { stage := .served, late := true } } : State).pwr.late = true ∧
    tabFind ({ served with ev := { sums := [(warnGlitchKey, { count := 1 })] } } : State).ev.sums warnGlitchKey =
      some { count := 1 } := by decide +kernel

/-- PARKED since frame 1 with the input returned in frame 2. -/
def parked : State :=
  cfgs [(0x2300, 1, 0, 1)] { inFrame 4 with pwr := { stage := .served, phase := .parked, parkedAt := 1, returned := some 2 } }

theorem witness_ResumeReturnsToService :
    parked.pwr.phase = .parked ∧ cfgVal parked 0x2300 1 0 ≠ 0 ∧ parked.pwr.parkedAt < frameNo parked ∧
    parked.pwr.returned = some 2 ∧ 2 + 1 + cfgVal parked 0x2300 1 0 ≤ frameNo parked ∧ served.pwr.phase ≠ .parked := by
  decide +kernel

theorem witness_ZeroizationErasesEveryKey :
    served.clk.running = true ∧ served.keys.zer.lowQual = false ∧
    ({ served with keys := { zer := { lowQual := true, erasing := true } } } : State).keys.zer.lowQual = true ∧
    ({ served with keys := { zer := { lowQual := true, erasing := true } } } : State).keys.zer.erasing = true ∧
    ({ inFrame 17 with keys := { zer := { returned := some 0 } } } : State).keys.zer.returned = some 0 ∧
    0 + 17 ≤ frameNo (inFrame 17) ∧ frameNo (inFrame 16) < 0 + 17 := by decide

-- Key port

/-- Slot 1 in a state, with the KEK 0. -/
def kekSlot (x : Slot) : State := let s := withSlot 1 x served; { s with keys := { s.keys with kek := some 0 } }

theorem witness_KekAndManagementKeysLoad :
    (kpEarly 1 (kp 0 0 0) true served = none ∧ served.keys.kek = none ∧ (kekSlot {}).keys.kek = some 0 ∧
      kpEarly 1 (kp 0 0 0) true (kekSlot {}) = none ∧ kpEarly 3 (kp 0 2 0) true (kekSlot {}) = none) ∧
    (∀ p, kpEarly 3 (kp 0 2 p) true (kekSlot {}) = kpEarly 3 (kp 0 2 0) true (kekSlot {})) ∧
    ∃ p, kpOpen 0 (kp 0 2 p) 0 2 0 0 2 = some 7 :=
  ⟨by decide +kernel, fun _ => rfl, kpOpen_surj 0 7 (kp 0 2 0) 0 2 0 0 2 (by decide +kernel)⟩

theorem witness_LoadKeyFillsItsRegister :
    (kpEarly 2 (kp 1 0 0) true (kekSlot {}) = none ∧ kpEarly 2 (kp 1 1 0) true (kekSlot {}) = none ∧
      slotClass (kekSlot {}) 1 = 1 ∧ cfgVal (kekSlot {}) 0x4000 2 1 = 1 ∧ keyAdmit (slotOf (kekSlot {}) 1) false = .fresh ∧
      keyAdmit { slotA with matA := none } false = .reload ∧
      reloadOk { slotA with matA := none, kcvA := matKcv 7 } false 7 = true ∧
      keyAdmit { slotA with st := .rotating } true = .reload ∧
      reloadOk { slotA with st := .rotating, kcvB := matKcv 7 } true 7 = true ∧
      reloadOk { slotA with matA := none, kcvABad := true } false 7 = false ∧ keyAdmit slotA true = .rotate ∧
      keyAdmit slotA false = .no ∧ served.keys.kek = none ∧ kpEarly 2 (kp 1 0 0) true served = none) ∧
    (∀ p, kpEarly 2 (kp 1 0 p) true (kekSlot {}) = kpEarly 2 (kp 1 0 0) true (kekSlot {}) ∧
      kpEarly 2 (kp 1 1 p) true (kekSlot {}) = kpEarly 2 (kp 1 1 0) true (kekSlot {})) ∧
    (∃ p, kpOpen 0 (kp 1 0 p) 1 0 1 1 1 = some 7) ∧ ∃ p, kpOpen 0 (kp 1 1 p) 1 1 1 1 1 = some 7 :=
  ⟨by decide +kernel, fun _ => ⟨rfl, rfl⟩, kpOpen_surj 0 7 (kp 1 0 0) 1 0 1 1 1 (by decide +kernel),
    kpOpen_surj 0 7 (kp 1 1 0) 1 1 1 1 1 (by decide +kernel)⟩

theorem witness_EraseSlotAndQueryKcv :
    kpEarly 4 (kp 1 0 0) false (kekSlot slotA) = none ∧ (slotOf (kekSlot slotA) 1).st = .active ∧
    (slotOf (kekSlot { slotA with st := .loaded }) 1).st = .loaded ∧ kpEarly 5 (kp 1 0 0) false (kekSlot slotA) = none ∧
    kpEarly 5 (kp 1 1 0) false (kekSlot slotA) = none ∧ (slotOf (kekSlot slotA) 1).matA = some { key := 7, usable := 0 } ∧
    (slotOf (kekSlot slotA) 1).matB = none := by decide +kernel

-- Links

/-- An LCW with a SEQ and an ACK. -/
def lcw (seq ack : Nat) : BitVec 64 := BitVec.ofNat 64 (seq * 16 + ack * 65536)

theorem witness_RateLockAndTimersOfALink :
    (linkOf (busy 1) 0).rate ≠ 1 ∧ (linkOf (busy 1) 0).up = true ∧ (linkOf (busy 1) 0).rate = 0 ∧
    (linkOf served 0).up = false ∧ (linkOf served 0).negOpen = false ∧ (linkOf served 0).rate ≠ 1 ∧
    (busy 1).clk.running = true ∧ (linkOf (busy 1) 0).rate ≠ 3 ∧ (linkOf (busy 1) 0).bistDown = false ∧
    (linkOf (busy 1) 0).lock = true ∧ (linkOf (onLink { linkUp with lost := some (0, 2) } (inFrame 3)) 0).lost = some (0, 2) ∧
    0 + 1 + 2 ≤ frameNo (inFrame 3) ∧ frameNo (inFrame 2) < 0 + 1 + 2 ∧
    0 < (linkOf (onLink { linkUp with uncovered := 1 } served) 0).uncovered ∧
    (linkOf (onLink { linkUp with una := 1, nxt := 2 } served) 0).una ≠
      (linkOf (onLink { linkUp with una := 1, nxt := 2 } served) 0).nxt ∧
    (linkOf (busy 1) 0).nakAt ≠ some (now (busy 1)) ∧ linkUp.expiries + 1 < linkUp.force.replayLimit ∧
    linkUp.force.replayLimit ≤ { linkUp with expiries := 3 }.expiries + 1 := by decide +kernel

theorem witness_FlitsAreTakenInSequence :
    linkHears (busy 1) 0 = true ∧ (linkOf (busy 1) 0).up = true ∧ lcwCheck linkUp true true (lcw 0 4095) = none ∧
    seqDist (lcwSeq (lcw 0 4095)) linkUp.e = 0 ∧ lcwCheck linkUp true true (lcw 1 4095) = none ∧
    seqDist (lcwSeq (lcw 1 4095)) linkUp.e ≠ 0 ∧ seqDist (lcwSeq (lcw 2048 4095)) linkUp.e ≤ 2048 ∧
    2048 < seqDist (lcwSeq (lcw 2049 4095)) linkUp.e ∧ lcwCheck linkUp true true (lcw 2049 4095) = none ∧
    lcwCheck linkUp true true (lcw 0 7) ≠ none ∧ lcwCheck linkUp false true (lcw 0 4095) = none ∧
    lcwCheck linkUp false true (lcw 0 7) ≠ none ∧ lcwCheck linkUp false false (lcw 0 7) = none ∧
    lcwCheck linkUp false false (lcw 2049 7) ≠ none ∧ linkUp.nakSent = false ∧
    (1#64 ≠ 0#64 ∧ 1#64 ≠ ownDigest64 (busy 1)) := by decide +kernel

theorem witness_WhatDropsALink :
    linkHears (busy 1) 0 = true ∧ (linkOf (busy 1) 0).up = true ∧
    linkHears (onLink { linkUp with up := false } served) 0 = true ∧
    (linkOf (onLink { linkUp with up := false } served) 0).up = false ∧
    (linkOf (onLink { linkUp with up := false } served) 0).negOpen = false ∧
    (linkOf (onLink { linkUp with up := false, negOpen := true, selSent := true } served) 0).negOpen = true ∧
    (linkOf (onLink { linkUp with up := false, negOpen := true, selSent := true } served) 0).selSent = true := by
  decide +kernel

/-- An offer that the engine accepts, and the values of a confirm. -/
def offer : Offer :=
  { versions := 2, flags := 0, classes := 6, depth := 64, maxTags := 256, tAck := 500, hbUs := 100, partnerId := 3, negId := 4,
    resv := false }

/-- Values sent in a select, and the confirm that repeats them. -/
def vals : NegVals := { version := 1, classes := 2, depth := 64, maxTags := 256, tAck := 500, hbUs := 100, negId := 4 }

/-- The confirm of vals. -/
def confirm : Confirm :=
  { version := 1, flags := 0, classes := 2, depth := 64, maxTags := 256, tAck := 500, hbUs := 100, negId := 4 }

/-- Link 0 not up, with or without a select. -/
def negotiating (v : Option NegVals) (sent : Bool) : State :=
  onLink { linkUp with up := false, negOpen := v.isSome, select := v, selSent := sent } served

theorem witness_NegotiationBringsALinkUp :
    linkHears (negotiating none false) 0 = true ∧ (negotiating none false).pwr.stage = .served ∧
    (linkOf (negotiating none false) 0).up = false ∧ offerResult (ownFor (negotiating none false) 0 4) offer = 0 ∧
    (linkOf (negotiating none false) 0).select = none ∧ (linkOf (negotiating (some vals) false) 0).select = some vals ∧
    vals.negId = offer.negId ∧ offerResult (ownFor (negotiating none false) 0 4) { offer with versions := 4 } ≠ 0 ∧
    linkHears (busy 1) 0 = true ∧ (linkOf (busy 1) 0).up = true ∧ (linkOf (negotiating (some vals) true) 0).selSent = true ∧
    linkHears (negotiating (some vals) true) 0 = true ∧ confirmMatches vals confirm = true ∧
    confirmMatches vals { confirm with depth := 32 } = false ∧ (linkOf (negotiating none false) 0).selSent = false := by
  decide +kernel

/-- A held flit. -/
def held2 : HeldFlit := { seq := 2, vcmask := 0, body := 0, fates := [] }

/-- Link 0 ready to send a response. -/
def sending : State :=
  let s := onLink { linkUp with mayData := true } (busy 1)
  { s with pool := { s.pool with eq := [(0, [{ op := 0x81#8, status := 0#8, tag := 5#16 }])] } }

theorem witness_TheNextFlitOfALane :
    served.clk.running = true ∧ (linkOf served 0).rate = 3 ∧ (linkOf (negotiating none false) 0).rate ≠ 3 ∧
    0 < (linkOf (onLink { linkUp with up := false, downLeft := 3 } served) 0).downLeft ∧
    (linkOf (negotiating none false) 0).downLeft = 0 ∧ (linkOf (negotiating none false) 0).selectDue = [] ∧
    (linkOf (onLink { linkUp with up := false, selectDue := [(0, vals)] } served) 0).selectDue = (0, vals) :: [] ∧
    (linkOf (onLink { linkUp with up := false, bistDown := true } served) 0).bistDown = true ∧
    (linkOf (onLink { linkUp with first := true } served) 0).first = true ∧
    (linkOf (onLink { linkUp with hbDue := true } served) 0).hbDue = true ∧
    (linkOf (onLink { linkUp with una := 2, nxt := 3, held := [held2], replay := some 2 } served) 0).held[seqDist 2 2]? =
      some held2 ∧
    (linkOf sending 0).up = true ∧ (linkOf sending 0).first = false ∧ (linkOf sending 0).hbDue = false ∧
    (linkOf sending 0).replay = none ∧ (linkOf sending 0).rate ≠ 3 ∧ dataReady sending 0 = true ∧
    ptrField (rowErrors { cells := [(0, 1)] } sending) 129 { cells := [(0, 1)] } = none ∧
    (rspsRead { cells := [(0, 1)] } 0 (fillSlots 15 15 (eqOf sending 0)).1).map (fun e => e.2.1) = [1] ∧
    ptrField (rowErrors {} sending) 129 {} = none ∧
    (rspsRead {} 0 (fillSlots 15 15 (eqOf sending 0)).1).map (fun e => e.2.1) = [0] ∧
    ptrField (rowErrors {} sending) 129 { ptr := some 2 } = some 2 ∧ dataReady (busy 1) 0 = false := by decide +kernel

theorem witness_ResyncListIsSentAndAcknowledged :
    (linkOf (onLink { linkUp with resync := 1 } served) 0).up = true ∧
    (linkOf (onLink { linkUp with resync := 1 } served) 0).resync = 1 ∧
    resyncReady (onLink { linkUp with resync := 1 } served) 0 = true ∧
    (linkOf (onLink { linkUp with resync := 3 } served) 0).resync = 3 ∧
    (0#16).toNat = regVal (onLink { linkUp with resync := 3 } served) (linkIdx 0 1) 8 0 % 65536 ∧
    (1#16).toNat ≠ regVal (onLink { linkUp with resync := 3 } served) (linkIdx 0 1) 8 0 % 65536 := by decide +kernel

theorem witness_CreditsAreReturnedAndGranted :
    (linkOf (busy 1) 0).up = true ∧ (0x8000#16).getLsbD 15 = true ∧ (0#16).getLsbD 15 = false ∧
    tabFind (busy 1).accts (acctKey 0 ((0#16).extractLsb' 0 12).toNat) = some { granted := 64, sent := 64 } ∧
    ((64#16).toNat + 65536 - 0) % 65536 ≤ acctOut { granted := 64, sent := 64 } ∧
    acctOut { granted := 64, sent := 64 } < ((65#16).toNat + 65536 - 0) % 65536 ∧
    tabFind (busy 1).accts (acctKey 0 ((1#16).extractLsb' 0 12).toNat) = none ∧ (1#16) ≠ 0#16 ∧
    linkServes (busy 1) 0 = true ∧ 5 / 4096 = (0 : Fin 128).val ∧
    framesOver (later 9 (busy 1)) 0 (cfgVal (later 9 (busy 1)) 0x20A0 7 0) = true := by decide +kernel

-- Requests

theorem takes (s : State) (src : Src) (h : Hdr) (n : Nat)
    (d : srcClosed s src = false ∧ s.pwr.stage = .served ∧ reqFault s src (hdrTaken src h) = none ∧
      creditOver s src (hdrTaken src h).sid n = false ∧ tagHeld s src (hdrTaken src h).tag = false) : TakesItem s src h n :=
  ⟨d.1, d.2.1, d.2.2.1, d.2.2.2.1, d.2.2.2.2⟩

/-- The queue that a READ_LINE of line 16 enters. -/
def queue16 : Nat := portOf (busy 1) 16 * 8 + prioOf (busy 1) (.link 0) 0

/-- The block in which that queue is being flushed. -/
def flushed : State := regPut (iqIdx (portOf (busy 1) 16)) 1 0 255 (busy 1)

/-- The block in which every port has failed. -/
def failedAll : State := { busy 1 with media := (List.range 16).map (fun m => (m, { failed := true })) }

theorem witness_RequestsEnterTheirQueueOrAreAnswered :
    (∀ op : ReqOp, TakesItem (busy 1) (.link 0) (hd 7 16) (opCells op)) ∧
    TakesItem (busy 1) (.master 0) (hd 7 16) 1 ∧ TakesItem flushed (.link 0) (hd 7 16) 1 ∧
    TakesItem failedAll (.link 0) (hd 7 16) 1 ∧ TakesItem (busy 1) (.link 0) (hd 7 1024) 1 := by
  refine ⟨fun op => takes _ _ _ _ ?_, takes _ _ _ _ ?_, takes _ _ _ _ ?_, takes _ _ _ _ ?_, takes _ _ _ _ ?_⟩
  · cases op <;> decide +kernel
  · decide +kernel
  · decide +kernel
  · decide +kernel
  · decide +kernel

theorem witness_RequestsEnterTheirQueueOrAreAnswered_checks :
    chkReq (busy 1) true (.link 0) .readLine (hd 7 16) = .pass 1 ∧ chkReq (busy 1) true (.link 0) .writeLine (hd 7 16) = .pass 1 ∧
    chkReq (busy 1) true (.link 0) .writePartial (hd 7 16) = .pass 1 ∧
    chkReq (busy 1) true (.master 0) .readRaw (hd 7 16) = .pass 1 ∧ chkReq (busy 1) true (.master 0) .writeRaw (hd 7 16) = .pass 1 ∧
    chkReq (busy 3) true (.master 0) .readTag (hd 7 4096) = .pass 1 ∧
    chkReq (busy 3) true (.master 0) .writeTag (hd 7 4096) = .pass 1 ∧ flushing (busy 1) queue16 = false ∧
    (mediaOf (busy 1) (queue16 / 8)).failed = false ∧
    (mediaOf (busy 1) (queue16 / 8)).unserved = false ∧
    chkReq (busy 1) true (.link 0) .readLine (hd 7 1024) = .fail 6 8 ∧
    chkReq flushed true (.link 0) .readLine (hd 7 16) = .pass 1 ∧ flushing flushed queue16 = true ∧
    chkReq failedAll true (.link 0) .readLine (hd 7 16) = .pass 1 ∧ flushing failedAll queue16 = false ∧
    (mediaOf failedAll (queue16 / 8)).failed = true := by decide +kernel

/-- The block in which the copies of a queue's pointers have come to differ. -/
def torn (q : Nat) (s : State) : State := { s with pool := { s.pool with ptrBad := [(q, 2)] } }

theorem witness_RequestsEnterTheirQueueOrAreAnswered_pool :
    tabFind (busy 1).pool.ptrBad queue16 = none ∧ TakesItem (torn queue16 (busy 1)) (.link 0) (hd 7 16) 1 ∧
    chkReq (torn queue16 (busy 1)) true (.link 0) .readLine (hd 7 16) = .pass 1 ∧
    flushing (torn queue16 (busy 1)) queue16 = false ∧ tabFind (torn queue16 (busy 1)).pool.ptrBad queue16 = some 2 ∧
    eqSound (busy 1) (.link 0) ∧ eqSound flushed (.link 0) ∧ eqSound failedAll (.link 0) ∧
    TakesItem (torn 129 (busy 1)) (.link 0) (hd 7 1024) 1 ∧
    tabFind (torn 129 (busy 1)).pool.ptrBad (129 + 2 * (0 : Fin 128).val) = some 2 ∧
    chkReq (torn 129 (busy 1)) true (.link 0) .readLine (hd 7 1024) = .fail 6 8 := by
  refine ⟨rfl, takes _ _ _ _ ?_, ?_, ?_, rfl, fun _ _ => rfl, fun _ _ => rfl, fun _ _ => rfl, takes _ _ _ _ ?_, rfl, ?_⟩ <;>
    decide +kernel

theorem witness_RequestsEnterTheirQueueOrAreAnswered_faults :
    srcClosed (busy 1) (.link 0) = false ∧ (busy 1).pwr.stage = .served ∧
    reqFault (busy 1) (.link 0) (hdrTaken (.link 0) { hd 7 16 with odd := some 10 }) = some 0 ∧
    srcClosed (busy 1) (.master 4) = false ∧
    reqFault (busy 1) (.master 4) (hdrTaken (.master 4) { hd 7 16 with odd := some 9 }) = some 0 ∧
    (reqFault (waiting [it .readLine 0] (busy 1)) (.link 0) (hdrTaken (.link 0) (hd 5 16))).isSome = true := by decide +kernel

/-- A fence of stream 0. -/
def fenceA : FenceEnt := { src := .link 0, sid := 0, tag := 6, arr := 4 }

theorem witness_FencesWaitForEarlierRequests :
    TakesItem (busy 1) (.link 0) (hd 7 16) 1 ∧ streamRow (busy 1) 0 0 = some 0 ∧
    principalOk (busy 1) (cfgVal (busy 1) 0x4001 4 0) = true ∧
    ({ busy 1 with pool := { fences := [fenceA] } } : State).pool.fences.find? (fun g => srcEq g.src fenceA.src &&
      (match fenceA.src with
        | .link _ => g.sid == fenceA.sid
        | .master _ => true)) = some fenceA ∧
    fenceBlocked { busy 1 with pool := { fences := [fenceA] } } fenceA = false ∧
    fenceBlocked { busy 1 with pool := { fences := [fenceA], items := [it .readLine 0] } } fenceA = true :=
  ⟨witness_RequestsEnterTheirQueueOrAreAnswered.1 .readLine, by decide +kernel⟩

-- Grants

/-- The block with one item, which its slot takes. -/
def one (op : ReqOp) : State := waiting [it op 0] (busy 1)

theorem witness_ReadGrantsIssueOrAnswer :
    (∀ op ∈ [ReqOp.readLine, .readRaw, .writePartial],
      let i : Item := { it op 0 with ext := 1 }
      let s := waiting [i] (busy 1)
      slotFor s 0 .r = some .fg ∧ fgPick s 0 .r = .item i ∧ lineClash s 0 .r i = false ∧ grantRefusal s i = none) ∧
    slotFor (slotPut 1 { slotA with st := .zeroized } (one .readLine)) 0 .r = some .fg ∧
    fgPick (slotPut 1 { slotA with st := .zeroized } (one .readLine)) 0 .r = .item (it .readLine 0) ∧
    grantRefusal (slotPut 1 { slotA with st := .zeroized } (one .readLine)) (it .readLine 0) = some (7, stKeyAbsent) := by
  decide +kernel

/-- The block with a Jack entry for line 0 under the slot's generation. -/
def jacked (s : State) : State := { s with jack := { s.jack with entries := [(jackKey 0 (jackSet 0) 0, jackPack 0 3 1 1 0)] } }

/-- The block with a merged partial write. -/
def merged (x : Slot) : State :=
  slotPut 1 x { busy 1 with pool := { (busy 1).pool with txns := [tx (it .writePartial 0) .merged] } }

theorem witness_WriteGrantsStartTheirWrite :
    (∀ op ∈ [ReqOp.writeRaw, .writeLine, .writePartial],
      slotFor (one op) 0 .w = some .fg ∧ fgPick (one op) 0 .w = .item (it op 0) ∧ lineClash (one op) 0 .w (it op 0) = false ∧
      grantRefusal (one op) (it op 0) = none) ∧
    jackEntry (one .writeLine) 0 = none ∧ slotFor (jacked (one .writeLine)) 0 .w = some .fg ∧
    fgPick (jacked (one .writeLine)) 0 .w = .item (it .writeLine 0) ∧
    jackEntry (jacked (one .writeLine)) 0 = some (jackKey 0 (jackSet 0) 0, jackPack 0 3 1 1 0) ∧
    (genByKgen4 slotA (jeKgen4 (jackPack 0 3 1 1 0))).isSome = true ∧ (it .writePartial 0).ext = 0#64 ∧
    slotFor (merged slotA) 0 .w = some .fg ∧ fgPick (merged slotA) 0 .w = .merged (tx (it .writePartial 0) .merged) ∧
    step7 (merged slotA) .writePartial 1 = stOk ∧ slotFor (merged { slotA with st := .zeroized }) 0 .w = some .fg ∧
    fgPick (merged { slotA with st := .zeroized }) 0 .w = .merged (tx (it .writePartial 0) .merged) ∧
    step7 (merged { slotA with st := .zeroized }) .writePartial 1 ≠ stOk := by decide +kernel

theorem witness_WritesAreEncryptedUnderAFreshCounter :
    genKeys (slotPut 1 { slotA with matA := none } (busy 1)) 1 1 = none ∧ (genKeys (busy 1) 1 1).isSome = true ∧
    genForWrite (busy 1) 1 0 (some (jackPack 0 3 1 1 0)) = 1 ∧ flightMax (busy 1) 0 1 1 = 0 ∧
    (jeLctr (jackPack 0 0xFFFFFE#24 1 1 0)).toNat < 2 ^ 24 - 1 ∧ 2 ^ 24 - 1 ≤ (jeLctr (jackPack 0 0xFFFFFF#24 1 1 0)).toNat ∧
    genByKgen4 slotA (jeKgen4 (jackPack 0 3 1 1 0)) = some 1 := by decide +kernel

/-- A tag way at line 4,096, and the block with tag lines. -/
def way (dirty : Bool) : TagWay := { addr := 4096, kidx := 1, valid := 0xFF#8, dirty := dirty }

/-- The block with the tag cache given. -/
def tags (c : TagCache) (l : List Item) : State := waiting l { busy 3 with tagc := c }

theorem witness_TagLineSlotsFetchAndWriteBack :
    portOf (busy 3) 4096 = 4 ∧
    (let f : TagFetch := { tl := 4096, kidx := 1 }
     slotFor (tags { fetches := [f] } []) 4 .r = some .tg ∧ fetchPick (tags { fetches := [f] } []) 4 = some f ∧
     rawTagPick (tags { fetches := [f] } []) 4 .r = none) ∧
    (let i : Item := { it .readTag 4096 with src := .master 0, q := 32 }
     slotFor (tags {} [i]) 4 .r = some .tg ∧ fetchPick (tags {} [i]) 4 = none ∧ rawTagPick (tags {} [i]) 4 .r = some i ∧
     grantRefusal (tags {} [i]) i = none ∧ tagFind (tags {} [i]) 4096 = none) := by decide +kernel

theorem witness_TagLineSlotsFetchAndWriteBack_write :
    (let c : TagCache := { ways := [(8, { way true with evict := true })] }
     slotFor (tags c []) 4 .w = some .tg ∧ wbPick (tags c []) 4 = some (8, { way true with evict := true }) ∧
     rawTagPick (tags c []) 4 .w = none) ∧
    (let i : Item := { it .writeTag 4096 with src := .master 0, q := 32 }
     slotFor (tags {} [i]) 4 .w = some .tg ∧ wbPick (tags {} [i]) 4 = none ∧ rawTagPick (tags {} [i]) 4 .w = some i ∧
     grantRefusal (tags {} [i]) i = none) := by decide +kernel

/-- The block with probes on port 0. -/
def probing (l : List Probe) (pf : Option (Nat × Nat)) : State := { busy 1 with jack := { probes := [(0, l)], prefill := pf } }

theorem witness_ProbesAreIssued :
    (let p : Probe := { addr := 0, kidx := 1, kind := .write }
     slotFor (probing [p] none) 0 .r = some .sp ∧
     (probesOf (probing [p] none) 0).find? (fun q => !q.issued && !q.void && probeIsWrite q) = some p) ∧
    (let p : Probe := { addr := 0, kidx := 1, kind := .look }
     slotFor (probing [p] none) 0 .r = some .sp ∧ (probing [p] none).pwr.phase = .service ∧
     (probesOf (probing [p] none) 0).find? (fun q => !q.issued && !q.void && probeIsWrite q) = none ∧
     (probesOf (probing [p] none) 0).find? (fun q => !q.issued && !q.void && probeIsLook q) = some p) ∧
    slotFor (probing [] (some (0, 2))) 0 .r = some .sp ∧ prefillDue (probing [] (some (0, 2))) 0 = true ∧
    jackEntry (probing [] (some (0, 2))) 0 = none ∧ probeOf (probing [] (some (0, 2))) 0 = none := by decide +kernel

-- Rekey engine

/-- Slot 1 with two live generations, and context 0 in a pass over it. -/
def passing (c : Ctx) : State :=
  regPut 0x3A00 8 0 100 (ctx0 c (withSlot 1 { slotA with gen := 1, two := true } (inFrame 2)))

theorem witness_ContextsTakeLines :
    takeOk (passing (cx 2)) 0 = true ∧ ctxOf (passing (cx 2)) 0 = cx 2 ∧
    portDead (passing (cx 2)) (portOf (passing (cx 2)) 0) = false ∧ flightUnder (passing (cx 2)) 0 1 (ctxTo (cx 2)) = false ∧
    flightUnder (passing (cx 2)) 0 1 0 = false ∧ aheadHas (cx 2) 0 = false ∧ aheadFull (cx 2) = false := by decide +kernel

/-- A write of line 0 in flight under a generation. -/
def inFlight (g : BitVec 32) (s : State) : State :=
  port0 { outW := [(1, { kind := .write, addr := 0, owner := .txn 9, kidx := 1, gen := g, lctr := 5, counted := true })] } s

theorem witness_ContextsTakeLines_flight :
    takeOk (inFlight 1 (passing (cx 2))) 0 = true ∧ flightUnder (inFlight 1 (passing (cx 2))) 0 1 (ctxTo (cx 2)) = true ∧
    takeOk (inFlight 0 (passing (cx 2))) 0 = true ∧ flightUnder (inFlight 0 (passing (cx 2))) 0 1 (ctxTo (cx 2)) = false ∧
    flightUnder (inFlight 0 (passing (cx 2))) 0 1 0 = true ∧
    aheadFull { cx 2 with ahead := (List.range 64).map (fun i => { addr := 5000 + i }) } = true := by decide +kernel

/-- A step of line 0. -/
def stepA (st : StepSt) : StepLine := { addr := 0, st := st, port := 0, side := scPack 3 0 1 1 false 0 }

theorem witness_StepsReadAndWrite :
    slotFor (passing { cx 2 with steps := [stepA .taken] }) 0 .r = some .rk ∧
    rkReadPick (passing { cx 2 with steps := [stepA .taken] }) 0 = some (0, 0, false) ∧
    slotFor (passing { cx 2 with steps := [stepA .decided] }) 0 .w = some .rk ∧
    rkWritePick (passing { cx 2 with steps := [stepA .decided] }) 0 = some (0, stepA .decided) ∧
    (genKeys (passing { cx 2 with steps := [stepA .decided] }) 1 1).isSome = true ∧
    slotFor (passing { cx 4 with steps := [stepA .decided] }) 0 .w = some .rk ∧
    rkWritePick (passing { cx 4 with steps := [stepA .decided] }) 0 = some (0, stepA .decided) ∧
    genByKgen4 (slotOf (passing { cx 4 with steps := [{ stepA .decided with side := scPack 3 5 1 1 false 0 }] }) 1)
      (scKgen4 (scPack 3 5 1 1 false 0)) = none ∧
    rkWritePick (passing { cx 4 with steps := [{ stepA .decided with side := scPack 3 5 1 1 false 0 }] }) 0 =
      some (0, { stepA .decided with side := scPack 3 5 1 1 false 0 }) := by decide +kernel

/-- Context 0 whose start record was confirmed in frame 0. -/
def starting (cause : Nat) : Ctx := { st := .starting, kidx := 1, cause := cause, gen := 1, bound := 0, startConf := some 0 }

/-- Context 0 whose completion was confirmed in frame 0. -/
def ending (cause : Nat) : Ctx := { st := .completing, kidx := 1, cause := cause, gen := 1, bound := walkEnd, doneConf := some 0 }

theorem witness_PassesStartAndComplete :
    (∀ n ∈ [1, 2, 3, 4], ctxOf (ctx0 (starting n) (busy 1)) 0 = starting n ∧ (starting n).startConf = some 0 ∧
      (starting n).st = .starting ∧ 0 < frameNo (ctx0 (starting n) (busy 1)) ∧ (starting n).bound ≠ walkEnd) ∧
    ctxMats (busy 1) 1 2 = true ∧ (∀ n ∈ [1, 2, 3, 4], doneDue (ctx0 (ending n) (busy 1)) 0 = true) ∧
    (slotOf (busy 1) 1).st ≠ .zeroized ∧ fmtAgain (busy 1) 1 = false := by decide +kernel

-- Slices, repair and the media ports

/-- A line held for a vote, of slice 3 on port 0. -/
def voteHold (d : Dir) (again : Bool) (ks chk : Block) : Hold :=
  { slice := 3, kind := .vote, dir := d, owner := .txn 4, port := 0, kidx := 1, addr := 0, gen := 1, lctr := 4,
    good := List.replicate 5 0, ks := ks :: List.replicate 4 0, chk := chk :: List.replicate 4 0, blks := [0], duties := 0x9876543210#64, checker := 11, again := again }

/-- A line held after an SCHK mismatch. -/
def schkHold : Hold := { voteHold .r false 0 0 with kind := .schk }

/-- The block with a held line and its transaction. -/
def holding (h : Hold) : State :=
  { busy 1 with rep := { holds := [h] }, pool := { (busy 1).pool with txns := [tx (it .readLine 0) .schkHold] } }

theorem witness_VotesAndRecomputesSettleHeldLines :
    (∀ d ∈ [Dir.w, .r], ∀ again ∈ [false, true], ∀ k ∈ [(0, 1), (1, 0), (1, 2)],
      let h := voteHold d again (BitVec.ofNat 128 k.1) (BitVec.ofNat 128 k.2)
      holdPort (holding h) 3 .vote d = some 0 ∧ claimOk (holding h) 0 d = true ∧
      (holding h).rep.holds.find? (fun y => y.slice == 3 && y.kind == .vote && y.dir == d) = some h ∧
      (blocksOn {} 10 h.blks h.good h.ks = h.ks ↔ k.1 = 0) ∧ (blocksOn {} 10 h.blks h.good h.ks = h.chk ↔ k.2 = 0) ∧
      ownerPurges (holding h) h.owner = false) ∧
    blocksOn { pipes := [(10, 1)] } 10 [0] (List.replicate 5 0) (List.replicate 5 0) ≠
      blocksOn { pipes := [(10, 1)] } 11 [0] (List.replicate 5 0) (List.replicate 5 0) ∧
    holdPort (busy 1) 3 .vote .w = none ∧ holdPort (holding schkHold) 3 .schk .r = some 0 ∧
    claimOk (holding schkHold) 0 .r = true ∧
    (holding schkHold).rep.holds.find? (fun y => y.slice == 3 && y.kind == .schk) = some schkHold ∧
    txnFind (holding schkHold) 4 = some (tx (it .readLine 0) .schkHold) := by decide +kernel

/-- The block with a row repair queued. -/
def repairing : State := cfgs [(0x2400, 3, 0, 1)] { busy 1 with rep := { queue := [(0, 5)] } }

theorem witness_RepairsAndFlushesTakeTheirSlots :
    slotFor repairing 0 .w = some .mx ∧ rowPick repairing 0 = some (0, 5) ∧ spareFree repairing 0 = some 0 ∧
    spareFree { repairing with rep := { queue := [(0, 5)], spares := [0, 1, 2, 3] } } 0 = none ∧
    (mediaOf (phased .draining (busy 1)) 0).failed = false ∧ claimOk (phased .draining (busy 1)) 0 .w = true ∧
    (mediaOf (phased .draining (busy 1)) 0).drainFlush = false ∧ drainPortDone (phased .draining (busy 1)) 0 = true ∧
    claimOk (port0 { flushReq := true } (busy 1)) 0 .w = true ∧ dirBusy (port0 { flushReq := true } (busy 1)) 0 .w = false ∧
    (mediaOf (port0 { flushReq := true } (busy 1)) 0).flushReq = true := by decide +kernel

/-- Operations of line 0 on a port. -/
def opW : MOp := { kind := .write, addr := 0, owner := .txn 4 }

/-- A read of line 0 for transaction 4. -/
def opR : MOp := { kind := .read, addr := 0, owner := .txn 4 }

theorem witness_MediaWritesAreTakenAndPersisted :
    (mediaOf (port0 { fifoW := [opW] } (busy 1)) 0).fifoW = opW :: [] ∧ writeMayGo { fifoW := [opW] } opW = true ∧
    tabFind (mediaOf (port0 { fifoW := [opW] } (busy 1)) 0).outW (7#12).toNat = none ∧
    (mediaOf (port0 { fifoR := [opR] } (busy 1)) 0).fifoR = opR :: [] ∧ readMayGo { fifoR := [opR] } (now (busy 1)) opR = true ∧
    (2047#12).toNat < 2048 ∧ (mediaOf (port0 { outW := [(7, opW)], accWait := [7] } (busy 1)) 0).accWait = 7 :: [] ∧
    tabFind (mediaOf (port0 { outW := [(7, opW)], accWait := [7] } (busy 1)) 0).outW 7 = some opW ∧
    (mediaOf (busy 1) 0).accWait = [] ∧ (mediaOf (busy 1) 0).failed = false ∧
    tabFind (mediaOf (port0 { outW := [(7, { opW with accepted := true })] } (busy 1)) 0).outW (7#12).toNat =
      some { opW with accepted := true } ∧
    txnFind ({ busy 1 with pool := { txns := [tx (it .writeLine 0) .writing] } } : State) 4 =
      some (tx (it .writeLine 0) .writing) ∧
    opReads .writeLine = false ∧ (it .writeLine 0).gone = false ∧ portDead (busy 1) 0 = false := by decide +kernel

theorem witness_PortsFailAndStall :
    (mediaOf (port0 { fifoW := [opW] } (busy 1)) 0).fifoW = opW :: [] ∧ writeMayGo { fifoW := [opW] } opW = true ∧
    opW.tries + 1 < cfgVal (busy 1) 0x20B0 3 0 ∧ cfgVal (busy 1) 0x20B0 3 0 ≤ { opW with tries := 20 }.tries + 1 ∧
    writeMayGo { fifoW := [{ opW with tries := 20 }] } { opW with tries := 20 } = true ∧
    tabFind (mediaOf (port0 { outW := [(7, opW)] } (busy 1)) 0).outW (7#12).toNat = some opW ∧ opW.timedOut = false ∧
    (BitVec.ofNat 32 (cfgVal (busy 1) 0x20B0 4 0)).toNat = cfgVal (busy 1) 0x20B0 4 0 := by decide +kernel

/-- The block with a read outstanding for an item. -/
def awaiting (op : ReqOp) (keyless : Bool) : State :=
  port0 { outR := [(2, opR)] }
    { busy 1 with pool := { (busy 1).pool with txns := [{ tx (it op 0) .reading with keyless := keyless }] } }

/-- The payload blocks of line 0 of slot 1 under LCTR 3. -/
def lineKs : List Block := lineBlocks 1 1 (deriveKeys 7 1) 1 0 3

/-- A stored line of zeros, poisoned or not. -/
def stored (psn : Bool) : BitVec 576 := mediaJoin (lineXor 0 lineKs) (scPack 3 1 1 1 psn (lineSchk 0 0 lineKs))

theorem witness_LinesThatArriveAnswerReads :
    tabFind (mediaOf (awaiting .readLine false) 0).outR (2#11).toNat = some opR ∧ respKind opR = 0 ∧ opR.timedOut = false ∧
    txnFind (awaiting .readLine false) 4 = some (tx (it .readLine 0) .reading) ∧
    (it .readLine 0).gone = false ∧ opReads .readLine = true ∧ opReads .readRaw = true ∧
    slotClass (awaiting .readLine false) 1 ≠ 3 ∧ earlyRow (awaiting .readLine false) 1 (lnSide (stored true)) = .gen 1 ∧
    scLctr (lnSide (stored true)) = 3 ∧ schkOk 0 (stored true) lineKs = true := by decide +kernel

theorem witness_LinesThatArriveAnswerReads_keys :
    genKeys (awaiting .readLine false) 1 1 = some (deriveKeys 7 1) ∧
    eqSound (awaiting .readLine true) (.link 0) ∧ txnFind (awaiting .readLine true) 4 =
      some { tx (it .readLine 0) .reading with keyless := true } := ⟨rfl, fun _ _ => rfl, rfl⟩

theorem witness_ProbesFetchesAndTimeoutsEnd :
    (let p : Probe := { addr := 0, kidx := 1, kind := .write, issued := true }
     let o : MOp := { kind := .sidecar, addr := 0, owner := .probe }
     let s := port0 { outR := [(2, o)] } (probing [p] none)
     tabFind (mediaOf s 0).outR (2#11).toNat = some o ∧ probeOut s 0 0 = some p ∧ p.kidx ≠ 0 ∧ portOf s 0 = 0 ∧
     s.rep.badRows = []) ∧
    (let o : MOp := { kind := .read, addr := 4096, owner := .tagFetch 4096 }
     let s := port0 { outR := [(2, o)] }
       (tags { ways := [(8, { way false with valid := 0 })], fetches := [{ tl := 4096, kidx := 1, issued := true }] } [])
     tabFind (mediaOf s 0).outR (2#11).toNat = some o ∧ s.tagc.fetches.any (fun f => f.tl == 4096) = true ∧
     tagFind s 4096 = some (8, { way false with valid := 0 })) ∧
    tabFind (mediaOf (awaiting .readLine false) 0).outR (2#11).toNat = some opR ∧
    txnFind (awaiting .readLine false) 4 = some (tx (it .readLine 0) .reading) := by decide +kernel

theorem witness_SweepsReturnRetiredIds : served.clk.running = true := rfl

-- NV store, recorder and alerts

/-- A page in progress. -/
def pageA (reading : Bool) (tries : Nat) : NvPage :=
  { addr := 64, data := [(2, 0x5A)], jobs := [{ recs := [.slot 1 2 false false 0], act := .activate 1 }], reading := reading,
    tries := tries }

theorem witness_PageCommitsStoreAndConfirm :
    ({ served with nvu := { page := some (pageA false 1) } } : State).nvu.page = some (pageA false 1) ∧
    (pageA false 1).reading = false ∧ ((pageA false 1).data.map (fun e => e.1)).Nodup ∧ (pageA false 1).tries < 3 ∧
    (pageA true 1).reading = true ∧ nvMatches (pageA true 1) 0x5A0000#512 = true ∧
    nvMatches (pageA true 1) 0#512 = false ∧ 3 ≤ (pageA true 3).tries ∧ served.pwr.phase = .service := by decide +kernel

/-- A record, and a subscription that holds it. -/
def recA : EvRec := { code := 1, source := 2, frame := 3, p1 := 4, p2 := 5, p3 := 6 }

theorem witness_RecordsGoToTheirReaders :
    regVal (regPut 0x2500 0x0A 0 1 { served with ev := { backlog := [recA] } }) 0x2500 0x0A 0 ≠ 0 ∧
    (regPut 0x2500 0x0A 0 1 { served with ev := { backlog := [recA] } }).ev.backlog = recA :: [] ∧
    tabFind ({ served with ev := { subs := [(2, { minSev := 0, first := 0, last := 9, eid := 1, queue := [recA] })] } } :
      State).ev.subs 2 = some { minSev := 0, first := 0, last := 9, eid := 1, queue := [recA] } ∧
    tabFind ({ served with keys := { mks := [(2, 7)] } } : State).keys.mks 2 = some 7 ∧
    ({ served with ev := { clearing := some (1, 2, 3) } } : State).ev.clearing = some (1, 2, 3) := by decide +kernel

theorem witness_OccurrencesAreCaptured :
    (3 < 4 ∧ 1123 < 1124) ∧ srcDead (onLink { bistDown := true } served) 5 = true ∧ srcDead served 5 = false ∧
    srcDead (onLink { bistDown := true } served) 768 = false ∧ cfgVal served 0x4004 1 1123 = 0 ∧
    cfgVal served 0x4004 2 1123 ≤ 3 ∧ tabFind served.ev.acc 1123 = none ∧
    cfgVal (cfgs [(0x4004, 1, 1123, 1)] served) 0x4004 1 1123 ≠ 0 ∧
    0 < cfgVal (cfgs [(0x4004, 2, 1123, 1)] served) 0x4004 2 1123 ∧ alertLevel 0xFE 3 = some 3 ∧ alertLevel 2 0 = some 2 := by
  decide +kernel

-- Witnesses: messages, commits and the window

/-- The block in service with key 5 at MK0. -/
def keyed : State := { inFrame 1 with keys := { mks := [(0, 5)] } }

/-- The header of an authentic request under MK0. -/
def mh (op : Nat) (flags : Byte) (body : List Byte) : MsgHdr :=
  let h : MsgHdr :=
    { eid := 9, enterprise := 0xF1B5, sver := 1, mki := 0, flags := flags, seq := 1, session := 0, cfgGen := 0, cmac := 0 }
  { h with cmac := msgMac 5 0xF1B5 (reqPayload op h body) }

theorem inSession (op : Nat) (flags : Byte) (body : List Byte) (s : State)
    (r : s.clk.running = true ∧ s.pwr.stage = .served ∧ tabFind s.keys.mks 0 = some 5 ∧ sessionVal s 0 = 0 ∧ lastSeq s 0 = 0#32)
    (l : body.length ≤ 1056) (f : flags.toNat < (if op = 6 then 4 else 2)) : InSession s op (mh op flags body) body := by
  obtain ⟨r1, r2, r3, r4, r5⟩ := r
  refine ⟨r1, r2, ?_, rfl, ?_, ?_, ?_⟩
  · have e : ¬ (1056 < body.length) := by omega
    have k : tabFind s.keys.mks (hdrKey (mh op flags body)) = some 5 := r3
    have m : msgMac 5 (mh op flags body).enterprise.toNat (reqPayload op (mh op flags body) body) =
      (mh op flags body).cmac := rfl
    have n : (mh op flags body).enterprise.toNat = enterpriseNo := rfl
    have v : (mh op flags body).sver = 0x01#8 := rfl
    rw [n] at m
    have w : (mh op flags body).mtype = 0x7F#8 := rfl
    simp only [msgFault, k, n, v, e, w]
    simp
    exact m
  · exact r4.symm
  · show lastSeq s 0 < 1#32
    rw [r5]
    decide
  · simp only [headOk, mh]
    simp
    exact decide_eq_true f

/-- The object that an access reaches satisfies a test. -/
def reaches (w : Who) (idx sub row : Nat) (p : Obj → Bool) : Bool :=
  match objReach w idx sub row with
  | .ok o => p o
  | .error _ => false

/-- An access does not reach its object. -/
def refuses (w : Who) (idx sub row : Nat) : Bool :=
  match objReach w idx sub row with
  | .ok _ => false
  | .error _ => true

/-- The objects of a row operation are reached, with a width. -/
def rowReaches (w : Who) (idx row sub n wid : Nat) : Bool :=
  match rowReach w idx row sub n with
  | .ok l => rowWidth l == wid
  | .error _ => false

/-- A row operation does not reach its objects. -/
def rowRefuses (w : Who) (idx row sub n : Nat) : Bool :=
  match rowReach w idx row sub n with
  | .ok _ => false
  | .error _ => true

theorem witness_MessagesAreCheckedBeforeTheyAct :
    State.reset.pwr.stage ≠ .served ∧ (keyed.clk.running = true ∧ keyed.pwr.stage = .served) ∧
    msgFault 1 { mh 1 0 [] with enterprise := 0 } [] keyed = some 2 ∧
    InSession keyed 1 (mh 1 0 (bodyHead 0x2040 2 0 0)) (bodyHead 0x2040 2 0 0) ∧
    (mh 1 0 []).session.toNat ≠ sessionVal { keyed with sessions := [(0, { loads := 1 })] } 0 ∧
    (mh 1 0 []).seq ≤ lastSeq { keyed with sessions := [(0, { lastSeq := 1 })] } 0 ∧ headOk 1 (mh 1 2 []) = false := by
  refine ⟨by decide, by decide, by decide +kernel, inSession _ _ _ _ (by decide) (by decide) (by decide), by decide, by decide,
    by decide +kernel⟩

theorem witness_MessagesReadAndSubscribe :
    (headFits 0x2040 2 0 0 ∧ headFits 0x4000 1 4 7 ∧ headFits 0xFFFF 255 255 (2 ^ 24 - 1)) ∧
    InSession keyed 1 (mh 1 0 (bodyHead 0x2040 2 0 0)) (bodyHead 0x2040 2 0 0) ∧
    reaches (.f 0) 0x2040 2 0 (fun _ => rowForm 0x2040 0) = true ∧
    InSession keyed 1 (mh 1 0 (bodyHead 0xFFFF 1 0 0)) (bodyHead 0xFFFF 1 0 0) ∧ refuses (.f 0) 0xFFFF 1 0 = true ∧
    InSession keyed 3 (mh 3 1 (bodyHead 0x2040 1 2 0)) (bodyHead 0x2040 1 2 0) ∧
    (∃ n, rowReaches (.f 0) 0x2040 0 1 2 n = true) ∧
    InSession keyed 3 (mh 3 0 (bodyHead 0xFFFF 1 253 0)) (bodyHead 0xFFFF 1 253 0) ∧ rowRefuses (.f 0) 0xFFFF 0 1 253 = true ∧
    InSession keyed 7 (mh 7 0 [0xFF, 0, 0, 0, 0x63, 4]) [0xFF, 0, 0, 0, 0x63, 4] ∧
    [0xFF#8, 0, 0, 0, 0x63, 4] = leBytes 1 0xFF ++ [0#8] ++ leBytes 2 0 ++ leBytes 2 1123 ∧
    InSession keyed 7 (mh 7 0 [4, 0, 0, 0, 0x64, 4]) [4, 0, 0, 0, 0x64, 4] ∧
    [4#8, 0, 0, 0, 0x64, 4] = leBytes 1 4 ++ [0#8] ++ leBytes 2 0 ++ leBytes 2 1124 := by
  refine ⟨by unfold headFits; decide, inSession _ _ _ _ (by decide) (by decide) (by decide), by decide +kernel,
    inSession _ _ _ _ (by decide) (by decide) (by decide), by decide +kernel,
    inSession _ _ _ _ (by decide) (by decide) (by decide), ⟨4, by decide +kernel⟩,
    inSession _ _ _ _ (by decide) (by decide) (by decide), by decide +kernel,
    inSession _ _ _ _ (by decide) (by decide) (by decide), by decide,
    inSession _ _ _ _ (by decide) (by decide) (by decide), by decide⟩

theorem witness_MessagesWriteObjects :
    reaches (.f 0) 0x2040 2 0 (fun o => o.ty.width == 2 && rowForm 0x2040 0) = true ∧
    InSession keyed 2 (mh 2 0 (bodyHead 0x2040 2 0 0 ++ leBytes 2 2 ++ [100, 0])) (bodyHead 0x2040 2 0 0 ++ leBytes 2 2 ++ [100, 0]) ∧
    rowReaches (.f 0) 0x2040 0 1 2 4 = true ∧
    InSession keyed 4 (mh 4 0 (bodyHead 0x2040 1 2 0 ++ leBytes 2 4 ++ [1, 0, 100, 0]))
      (bodyHead 0x2040 1 2 0 ++ leBytes 2 4 ++ [1, 0, 100, 0]) ∧
    InSession keyed 2 (mh 2 0 (clearBody true)) (clearBody true) ∧ keyed.ev.clearing = none ∧
    InSession { keyed with ev := { clearing := some (0, 0, 0) } } 2 (mh 2 0 (clearBody true)) (clearBody true) ∧
    InSession keyed 2 (mh 2 0 (clearBody false)) (clearBody false) := by
  refine ⟨by decide +kernel, inSession _ _ _ _ (by decide) (by decide) (by decide), by decide +kernel,
    inSession _ _ _ _ (by decide) (by decide) (by decide), inSession _ _ _ _ (by decide) (by decide) (by decide), rfl,
    inSession _ _ _ _ (by decide) (by decide) (by decide), inSession _ _ _ _ (by decide) (by decide) (by decide)⟩

/-- The block with a staging set in a phase of a commit, for an owner. -/
def staging (ph : CommitPhase) (owner : Nat) : State :=
  { keyed with staged := [(okey 0x2040 2 0, 100)], commit := { phase := ph, owner := owner } }

/-- The same with a slot's extent above the lines of the medium: R322 refuses it. -/
def badStaging (owner : Nat) : State := { staging .staging owner with staged := [(okey 0x4003 1 4, 1), (okey 0x4003 3 4, 1)] }

theorem earliestFrame_pos (s : State) : 0 < earliestFrame s := by
  unfold earliestFrame
  omega

theorem witness_CommitsAndAbortsAreTakenOrRefused :
    (∀ ph ∈ [CommitPhase.idle, .staging, .preparing, .pending], ∀ own ∈ [0, 1, 8, 9],
      InSession (staging ph own) 5 (mh 5 0 (leBytes 8 0)) (leBytes 8 0)) ∧
    InSession keyed 5 (mh 5 0 (leBytes 8 (2 ^ 64 - 1))) (leBytes 8 (2 ^ 64 - 1)) ∧ keyed.staged = [] ∧
    keyed.commit.owner = 0 ∧ (staging .staging 9).commit.breakable = false ∧ 0 < earliestFrame (staging .staging 8) ∧
    (∀ f ∈ [0#8, 2], InSession (staging .staging 8) 6 (mh 6 f []) []) ∧ winServed keyed ∧ (mh 6 2 []).flags.getLsbD 1 = true ∧
    ({ keyed with commit := { phase := .pending, decided := .apply } } : State).commit.decided = .apply := by
  refine ⟨?_, inSession _ _ _ _ (by decide) (by decide) (by decide), rfl, rfl, rfl, ?_, ?_, ⟨rfl, rfl⟩, by decide, rfl⟩
  · intro ph hp own ho
    exact inSession _ _ _ _ ⟨rfl, rfl, rfl, (rfl : _ = sessionVal keyed 0).trans (by decide), rfl⟩ (by decide) (by decide)
  · exact earliestFrame_pos _
  · intro f hf
    refine inSession _ _ _ _ ⟨rfl, rfl, rfl, (rfl : _ = sessionVal keyed 0).trans (by decide), rfl⟩ (by decide) ?_
    simp only [List.mem_cons, List.not_mem_nil, or_false] at hf
    rcases hf with rfl | rfl <;> decide

theorem witness_CommitsAndAbortsAreTakenOrRefused_checks :
    firstFault (commitFaults (staging .staging 8)) = none ∧ (firstFault (commitFaults (badStaging 8))).isSome = true := by
  decide +kernel

/-- An access of the window at an object. -/
def wa (idx sub : Nat) (dbg : Bool) : WinAcc := { addr := BitVec.ofNat 24 (idx * 256 + sub), be := 15, dbg := dbg }

theorem witness_WindowAccessesReachTheirObject :
    State.reset.clk.running = true ∧ State.reset.pwr.stage ≠ .served ∧ { wa 0x2040 2 false with be := 7 }.be ≠ 0xF#4 ∧
    WinAt served (wa 0x2040 2 false) 0x2040 2 0 ∧ reaches (winWho false) 0x2040 2 0 (fun _ => true) = true ∧
    WinAt served (wa 0xFF40 2 true) 0xFF40 2 0 ∧ refuses (winWho true) 0xFF40 2 0 = true ∧
    (wa 0x20FF 0x0F false).addr.toNat = 0x20FF * 256 + 0x0F ∧ tableRows 0x4000 ≠ 0 ∧
    (2 ^ 24 - 1 : BitVec 32).toNat < 2 ^ 24 :=
  ⟨rfl, by decide, by decide, ⟨⟨rfl, rfl⟩, rfl, by decide, by decide +kernel, by decide +kernel⟩, by decide +kernel,
    ⟨⟨rfl, rfl⟩, rfl, by decide, by decide +kernel, by decide +kernel⟩, by decide +kernel, by decide, by decide +kernel,
    by decide⟩

theorem witness_WindowCommandsMeetTheDictionary :
    winCommand (.tagCacheFlush false true) = some (false, 0x2040, 6, 0, 1) ∧ winServed served ∧
    State.reset.pwr.stage ≠ .served ∧ refuses (winWho true) 0x5010 7 0 = true ∧
    winCommand (.activate false 0) = some (false, 0x4000, 0x0A, 0, 1) ∧ rowZero 0x4000 0 = true ∧
    reaches (winWho false) 0x4000 0x0A 0 (fun _ => true) = true ∧
    winCommand (.rekeyReq false 1 2) = some (false, 0x4000, 0x0C, 1, 2) ∧ rowZero 0x4000 1 = false ∧
    reaches (winWho false) 0x4000 0x0C 1 (fun o => !o.admits 2) = true :=
  ⟨rfl, ⟨rfl, rfl⟩, by decide, by decide +kernel, rfl, by decide +kernel, by decide +kernel, rfl, by decide +kernel,
    by decide +kernel⟩

theorem witness_SlotCommandsActOnTheirSlot :
    winServed (busy 1) ∧ 1#15 ≠ 0#15 ∧ activateOk (slotPut 1 { slotA with st := .loaded } (busy 1)) 1 = true ∧
    activateOk (busy 1) 1 = false ∧ (slotOf (slotPut 1 { slotA with st := .loaded } (busy 1)) 1).st = .loaded ∧
    (slotOf (busy 1) 1).st ≠ .loaded ∧ retireOk (busy 1) 1 = true ∧ retireOk served 1 = false ∧
    (slotOf (busy 1) 1).st = .active ∧ slotA.gen ≠ 0xFFFFFFFF#32 ∧
    (slotOf (slotPut 1 { slotA with gen := 0xFFFFFFFF } (busy 1)) 1).gen = 0xFFFFFFFF#32 ∧
    (slotOf served 1).st ≠ .active ∧ (slotOf served 1).st ≠ .rotating :=
  ⟨⟨rfl, rfl⟩, by decide +kernel⟩

theorem witness_UnitCommandsHaveTheirEffect :
    winServed (busy 1) ∧ (linkOf (busy 1) 0).bistDown = false ∧ (linkOf (onLink { bistDown := true } served) 0).bistDown = true ∧
    (mediaOf (busy 1) 0).failed = false ∧ (mediaOf (busy 1) 0).flushReq = false ∧ (mediaOf (busy 1) 0).flushOut = false ∧
    (mediaOf failedAll 0).failed = true ∧ (31#8).toNat ≤ 31 ∧ (31#8).toNat.testBit 4 = true ∧
    4 ∈ ({ served with pool := { masterStop := [4] } } : State).pool.masterStop ∧ (15#8).toNat ≤ 15 ∧
    (phased .draining (busy 1)).pwr.phase = .draining ∧ (busy 1).pwr.phase = .service ∧
    (regVal (busy 1) (iqIdx 0) 1 0).testBit 7 = false :=
  ⟨⟨rfl, rfl⟩, by decide +kernel⟩

theorem witness_StagedWritesEnterTheStagingSet :
    reaches (.f 0) 0x2040 2 0 (fun o => decide (o.acc = .rws) && (objWrite (.f 0) o 0x2040 2 0 100 keyed).1 == rcOk) = true ∧
    reaches (winWho false) 0x2040 2 0 (fun o => (objWrite (winWho false) o 0x2040 2 0 100 keyed).1 == rcOk) = true := by
  decide +kernel

theorem witness_StagedViewReturnsTheStagingBank :
    InSession keyed 1 (mh 1 1 (bodyHead 0x2040 2 0 0)) (bodyHead 0x2040 2 0 0) ∧ headFits 0x2040 2 0 0 ∧
    reaches (.f 0) 0x2040 2 0 (fun o => decide (o.acc = .rws)) = true ∧
    WinAt served (wa 0x2040 2 false) 0x2040 2 0 ∧ reaches (winWho false) 0x2040 2 0 (fun _ => true) = true :=
  ⟨inSession _ _ _ _ (by decide) (by decide) (by decide), by unfold headFits; decide, by decide +kernel,
    ⟨⟨rfl, rfl⟩, rfl, by decide, by decide +kernel, by decide +kernel⟩, by decide +kernel⟩

theorem witness_UnlistedObjectsAnswerNoObject :
    headFits 0x2040 0 0 0 ∧ (objFind 0x2040 0 = none) ∧ (tableRows 0x4000 ≠ 0 ∧ tableRows 0x4000 ≤ 32768) ∧
    InSession keyed 1 (mh 1 0 (bodyHead 0x2040 0 0 0)) (bodyHead 0x2040 0 0 0) ∧
    InSession keyed 2 (mh 2 0 (bodyHead 0x2040 0 0 0 ++ leBytes 2 0 ++ [])) (bodyHead 0x2040 0 0 0 ++ leBytes 2 0 ++ []) ∧
    WinAt served (wa 0x2040 0 false) 0x2040 0 0 ∧ isRowSel 0x2040 0 = false ∧ isRowSel 0x4000 1 = false ∧
    (tableRows 0x4000 ≠ 0 ∧ objFind 0x4000 0x7F = none) :=
  ⟨by unfold headFits; decide, by decide +kernel, by decide +kernel, inSession _ _ _ _ (by decide) (by decide) (by decide),
    inSession _ _ _ _ (by decide) (by decide) (by decide),
    ⟨⟨rfl, rfl⟩, rfl, by decide, by decide +kernel, by decide +kernel⟩, by decide +kernel⟩

theorem witness_TagEntriesHaveTheirFields :
    slotClass (busy 3) 1 = 3 ∧ tagPlace (busy 3) 1 9 = some (4097, 1) ∧ tagPlace (busy 3) 1 0 = some (4096, 0) ∧
    tagFind (tags { ways := [(8, way false)] } []) 4096 = some (8, way false) := by decide +kernel

-- Witnesses: the clauses that start-up, the frame and the power states add

/-- Cells of the NV store that hold a record at its place. -/
def recCells (s : State) (r : NvRec) : List Host.Cell :=
  ((nvEncode s r).2.mapIdx (fun i b => ((nvEncode s r).1 + i, b))).filter (fun e => e.2 != 0#8)

/-- Recovery before it, with the session record of a clean shutdown and the record of an active slot in the store. -/
def recovering : State :=
  { State.reset with
    pwr := { stage := .recovery }, clk := { running := true },
    nv := recCells { served with nvu := { powerCycles := 6 } } (.session 1) ++ recCells served (.slot 2 2 false false 9) }

theorem witness_StartUpPassesItsStages_records :
    recovering.pwr.stage = .recovery ∧ recovering.pwr.phase = .service ∧ (sessionSel recovering).1 = some 0 ∧
    nvNat recovering 4 4 = 6 ∧ nvNat recovering 8 1 = 1 ∧ (sessionSel { recovering with nv := [] }).1 = none ∧
    (∀ e ∈ recovering.nv, e.1 < 0x1000 ∨ 0x3000 ≤ e.1) ∧
    (nvSelect recovering (0x30000 + 2 * 8) (0x70000 + 2 * 8) (slotRecValid recovering)).1 = some (0x30000 + 2 * 8) ∧
    nvNat recovering (0x30000 + 2 * 8 + 1) 1 % 8 ≠ 0 ∧ 0 < 2 ∧ 2 < 2 ^ 15 := by decide +kernel

theorem witness_StartUpPassesItsStages_repairs :
    State.reset.rep.remap = [] ∧ State.reset.rep.spares = [] ∧
    (let l : List (Nat × Nat × Nat) := [(0, 0, 0), (767, 1023, 3)]
     (∀ r ∈ l, r.1 < 768 ∧ r.2.1 < 1024 ∧ r.2.2 < 4) ∧ (l.map (fun r => rowNo r.1 r.2.1)).Nodup ∧
      (l.map (fun r => r.1 * 4 + r.2.2)).Nodup) ∧
    spareFree { served with pwr := { stage := .bist } } 767 = some 0 ∧ (767 < 768 ∧ 1023 < 1024) := by decide +kernel

/-- The bytes of a configuration image of one record in the store: TAG_CLEAN_AGE 100. -/
def imageCells : List Host.Cell :=
  [(0x10000, 1), (0x10001, 0xB1), (0x10002, 7), (0x10006, 16)] ++
    (serPreamble ++ serScalar 0x2040 2 100 ++ [0xFF#8, 0xFF#8]).mapIdx (fun i b => (0x10040 + i, b))

/-- Frame 1 in cycle 0 with an image due and two bytes for its CRC. -/
def imaged (x y : Byte) : State :=
  { served with
    clk := { running := true, frame := 1 }, pwr := { stage := .served, imageDue := some 0 }
    nv := imageCells ++ [(0x1FFFE, x), (0x1FFFF, y)] }

theorem tabGet_skip (l : Tab Byte) (p q i : Nat) (x y : Byte) (hp : i ≠ p) (hq : i ≠ q) :
    tabGet 0#8 (l ++ [(p, x), (q, y)]) i = tabGet 0#8 l i := by
  induction l with
  | nil => simp [tabGet, hp, hq]
  | cons e t ih => simp only [List.cons_append, tabGet, ih]

theorem tabGet_last (l r : Tab Byte) (i : Nat) (h : ∀ e ∈ l, e.1 ≠ i) : tabGet 0#8 (l ++ r) i = tabGet 0#8 r i := by
  induction l with
  | nil => rfl
  | cons e t ih =>
    have n : i ≠ e.1 := fun c => h e List.mem_cons_self c.symm
    simp only [List.cons_append, tabGet, if_neg n, ih (fun f hf => h f (List.mem_cons_of_mem _ hf))]

theorem imaged_low (x y : Byte) (i : Nat) (h : i < 65534) :
    nvByteAt (imaged x y) (0x10000 + i) = tabGet 0#8 imageCells (0x10000 + i) :=
  tabGet_skip _ _ _ _ _ _ (by omega) (by omega)

theorem imageCells_low : ∀ e ∈ imageCells, e.1 < 0x10100 := by decide +kernel

theorem imaged_valid : ∃ x y, imageNow (imaged x y) = some (7, [(okey 0x2040 2 0, 100)]) := by
  obtain ⟨c, hc⟩ : ∃ c, c = (crc16 0xFFFF#16 (leBytes 3 imageA ++
    (List.range 65534).map (fun i => tabGet 0#8 imageCells (imageA + i)))).toNat := ⟨_, rfl⟩
  refine ⟨BitVec.ofNat 8 c, BitVec.ofNat 8 (c / 256), ?_⟩
  generalize hs : imaged (BitVec.ofNat 8 c) (BitVec.ofNat 8 (c / 256)) = s
  have low : nvBytes s imageA 65534 = (List.range 65534).map (fun i => tabGet 0#8 imageCells (imageA + i)) := by
    subst hs
    exact List.map_congr_left (fun i hi => imaged_low _ _ i (List.mem_range.1 hi))
  have top : nvBytes s (imageA + 65536 - 2) 2 = windupCrc imageA (nvBytes s imageA (65536 - 2)) := by
    have past : ∀ i, 0x10100 ≤ i → nvByteAt s i =
        tabGet 0#8 [(0x1FFFE, BitVec.ofNat 8 c), (0x1FFFF, BitVec.ofNat 8 (c / 256))] i := fun i hi => by
      subst hs
      exact tabGet_last _ _ _ (fun e he => by have := imageCells_low e he; omega)
    have e : windupCrc imageA (nvBytes s imageA (65536 - 2)) = [BitVec.ofNat 8 c, BitVec.ofNat 8 (c / 256)] := by
      show leBytes 2 (crc16 0xFFFF#16 (leBytes 3 imageA ++ nvBytes s imageA 65534)).toNat = _
      rw [low, ← hc]
      rfl
    rw [e]
    show [nvByteAt s 0x1FFFE, nvByteAt s 0x1FFFF] = _
    rw [past _ (by decide), past _ (by decide)]
    rfl
  have small : ∀ n a, (∀ i, i < n → a + i < 65534) →
      nvBytes s (0x10000 + a) n = (List.range n).map (fun i => tabGet 0#8 imageCells (0x10000 + a + i)) := by
    intro n a h
    subst hs
    refine List.map_congr_left (fun i hi => ?_)
    rw [Nat.add_assoc]
    exact imaged_low _ _ (a + i) (h i (List.mem_range.1 hi))
  have t : nvNat s (imageA + 1) 1 = 0xB1 := by
    rw [nvNat, show imageA + 1 = 0x10000 + 1 from rfl, small 1 1 (by omega)]
    decide +kernel
  have v : imageVals s imageA = some [(okey 0x2040 2 0, 100)] := by
    rw [imageVals, nvNat, show imageA + 6 = 0x10000 + 6 from rfl, small 4 6 (by omega),
      show natOfLe ((List.range 4).map (fun i => tabGet 0#8 imageCells (0x10000 + 6 + i))) = 16 by decide +kernel,
      show imageA + 64 = 0x10000 + 64 from rfl, small 16 64 (by omega)]
    decide +kernel
  have g : nvNat s (imageA + 2) 4 = 7 := by
    rw [nvNat, show imageA + 2 = 0x10000 + 2 from rfl, small 4 2 (by omega)]
    decide +kernel
  have b : nvNat s (imageB + 1) 1 ≠ 0xB1 := by
    have z : nvByteAt s (imageB + 1) = 0#8 := by
      subst hs
      exact (tabGet_last _ _ _ (fun e he => by have := imageCells_low e he; unfold imageB; omega)).trans rfl
    show (nvByteAt s (imageB + 1)).toNat + 256 * 0 ≠ 0xB1
    rw [z]
    decide
  have w : windupOk s imageA 65536 = true := decide_eq_true top
  have va : imageValid s imageA = true := by simp [imageValid, imageWindup, t, w, v]
  have vb : imageValid s imageB = false := by simp [imageValid, imageWindup, b]
  simp [imageNow, nvSelect, va, vb, v, g]

theorem witness_StartUpPassesItsStages_image :
    (∃ x y gen l, (imaged x y).pwr.imageDue = some 0 ∧ frameNo (imaged x y) = 0 + 1 ∧ (imaged x y).clk.cycle = 0 ∧
      imageNow (imaged x y) = some (gen, l) ∧ (l.map (fun e => e.1)).Nodup ∧ l ≠ []) ∧
    (later 1 { served with pwr := { stage := .served, imageDue := some 0 } }).pwr.imageDue = some 0 ∧
    imageNow (later 1 { served with pwr := { stage := .served, imageDue := some 0 } }) = none := by
  obtain ⟨x, y, h⟩ := imaged_valid
  exact ⟨⟨x, y, 7, _, rfl, rfl, rfl, h, by simp, by simp⟩, rfl, by decide +kernel⟩

theorem witness_CommitsPrepareSampleAndApply_apply :
    (let s := later 1 { busy 1 with clk := { running := true }, commit := { phase := .pending, decided := .apply, target := 1 } }
     s.commit.decided = .apply ∧ s.commit.target = frameNo s ∧ s.clk.cycle = 0) ∧
    (let s := later 2097152 { pendingCommit [] with clk := { running := true } }
     s.commit.owner ≠ 0 ∧ s.clk.cycle = 0 ∧ framesOver s s.commit.ownerSeen (1024 * cfgVal s 0x2200 7 0) = true) := by
  decide +kernel

theorem witness_PowerWarningDrainsToParked_sample :
    (let s := { served with clk := { running := true, cycle := 1020 }, commit := { phase := .pending, decided := .apply } }
     s.clk.running = true ∧ s.pwr.phase = .service ∧ s.pwr.stage = .served ∧ s.clk.cycle = 1020 ∧ s.commit.decided = .apply) ∧
    State.reset.pwr.stage ≠ .served ∧ served.clk.cycle ≠ 1020 := by decide

/-- PARKED in cycle 0 of the frame in which the resume is due, with a context that ran. -/
def resuming (interrupted : Bool) : State :=
  let s := ctx0 { cx 2 with ckpt := 3 } { parked with clk := { running := true, frame := 4 } }
  { s with pwr := { s.pwr with interrupted := interrupted } }

theorem witness_ResumeReturnsToService_due :
    ∀ b ∈ [false, true], (resuming b).pwr.phase = .parked ∧ cfgVal (resuming b) 0x2300 1 0 ≠ 0 ∧
      (resuming b).clk.cycle = 0 ∧ (resuming b).pwr.returned = some 2 ∧
      frameNo (resuming b) = max (2 + 1 + cfgVal (resuming b) 0x2300 1 0) ((resuming b).pwr.parkedAt + 1) ∧
      (resuming b).pwr.interrupted = b ∧ (ctxOf (resuming b) 0).st = .running := by decide +kernel

/-- The block just after it answered a LOAD_KEK. -/
def answered : State :=
  { served with keys := { kpRsp := some { opc := 1, seq := 9, result := 0, kcv := 0 },
                          kpLast := some { cyc := now served, cmd := kp 0 0 0, slot := {}, high := false } } }

theorem witness_ZeroizationErasesEveryKey_clauses :
    answered.clk.running = true ∧ answered.keys.zer.lowQual = false ∧
    (answered.keys.kpLast.map (fun l => l.cyc)) = some (now answered) ∧ answered.keys.kpRsp.isSome = true ∧
    served.keys.kpLast = none ∧
    (let s : Nat → State := fun n => later (BitVec.ofNat 56 n) { served with keys := { zer := { returned := some 0 } } }
     (s 17).keys.zer.returned = some 0 ∧ frameNo (s 17) = 0 + 17 ∧ (s 17).clk.cycle = 0 ∧ frameNo (s 18) ≠ 0 + 17 ∧
     (s 16).keys.zer.lowQual = false) := by decide +kernel

theorem witness_EraseSlotAndQueryKcv_badField :
    served.clk.running = true ∧ served.pwr.stage = .served ∧ kpFieldsOk 1 { kp 0 0 0 with odd := some 6 } = false ∧
    kpFieldsOk 4 (kp 1 1 0) = false ∧ kpFieldsOk 5 (kp 0 0 0) = false := by decide +kernel

-- Witnesses: the clauses that the links add

/-- A flit passes without an error on a link that hears, holds lock or has seen seven good flits. -/
theorem passes (s : State) (p : Nat) (errs : List Nat) (h : linkHears s p = true ∧
    (fecDecode (linkOf s p).light errs).isSome = true ∧ ((linkOf s p).lock = true ∨ 7 ≤ (linkOf s p).run)) :
    FlitPasses s p errs := ⟨h.1, h.2.1, h.2.2⟩

theorem witness_FlitsPass :
    FlitPasses (busy 1) 0 [] ∧ FlitPasses (busy 1) 0 [0, 4, 1] ∧ FlitPasses (negotiating (some vals) true) 0 [] ∧
    FlitPasses (onLink { linkUp with lock := false, run := 7 } served) 0 [] ∧
    FlitPasses (negotiating none false) 0 [] := by
  refine ⟨passes _ _ _ ?_, passes _ _ _ ?_, passes _ _ _ ?_, passes _ _ _ ?_, passes _ _ _ ?_⟩ <;> decide +kernel

theorem witness_RateLockAndTimersOfALink_expiry :
    (let s := onLink { linkUp with lost := some (0, 2) } (later 3 served)
     (linkOf s 0).lost = some (0, 2) ∧ frameNo s = 0 + 1 + 2 ∧ s.clk.cycle = 0) ∧
    (linkOf (busy 1) 0).lost = none ∧ linkUp.expiries + 1 < linkUp.force.replayLimit := by decide +kernel

theorem witness_FlitsAreTakenInSequence_forms :
    lcwForm true (lcw 0 0) = none ∧ lcwForm true (1#64 <<< 63) ≠ none ∧
    (linkOf (negotiating none false) 0).up = false ∧ lcwForm false (lcw 0 0) = none ∧
    lcwForm false (1#64 <<< 63) ≠ none := by decide +kernel

/-- Link 0 in a search for lock, with a run. -/
def searching (lock : Bool) (run : Nat) : State := onLink { linkUp with lock := lock, run := run } served

theorem witness_WhatDropsALink_lock :
    flitOf (.rxIdle 0 [0, 4, 8] 0) = some ((0 : Fin 128).val, [0, 4, 8]) ∧ linkHears (searching false 6) 0 = true ∧
    (fecDecode (linkOf (searching false 6) 0).light []).isSome = true ∧ (linkOf (searching false 6) 0).lock = false ∧
    (linkOf (searching false 6) 0).run < 7 ∧ fecDecode (linkOf (searching false 6) 0).light [0, 4, 8] = none ∧
    (linkOf (searching true 2) 0).lock = true ∧ (linkOf (searching true 2) 0).run < 3 ∧
    3 ≤ (linkOf (searching true 3) 0).run ∧ linkHears (onLink { linkUp with rate := 3 } served) 0 = false ∧
    linkHears (searching true 3) 0 = true ∧ flitCrcOk 0 = false ∧ (linkOf (busy 1) 0).up = true := by decide +kernel

theorem witness_WhatDropsALink_crc : ∃ flit, flitCrcOk flit = true :=
  ⟨(crc32 (List.replicate 252 0#8)).setWidth 2048 <<< 2016, by decide +kernel⟩

theorem witness_NegotiationBringsALinkUp_first :
    (linkOf (onLink { linkUp with up := false, own := some (4, { maxTags := 9 }) } served) 0).own = some (offer.negId, { maxTags := 9 }) ∧
    (linkOf (negotiating none false) 0).own = none := by decide +kernel

theorem witness_CreditsAreReturnedAndGranted_hold :
    (let s := later 9 { busy 1 with clk := { running := true }, accts := [(0, { granted := 64, sent := 60, advAt := some 0 })] }
     linkServes s 0 = true ∧ s.clk.cycle = 0 ∧ tabFind s.accts 0 = some { granted := 64, sent := 60, advAt := some 0 } ∧
     0 / 4096 = (0 : Fin 128).val ∧ framesOver s 0 (cfgVal s 0x20A0 7 0) = true) ∧
    linkServes (onLink { linkUp with up := false } served) 0 = false := by decide +kernel

-- Witnesses: the clauses that the slots add

/-- A header cell with an error outside the bytes of its routing. -/
theorem witness_ReadGrantsIssueOrAnswer_pool :
    (busy 1).pool.ptrBad = [] ∧ eqSound (one .readLine) (.link 0) ∧ (it .readLine 0).gone = false ∧
    (itemRead (it .readLine 0) { cells := [(0, 1)] }).hdr = 1 := ⟨rfl, fun _ _ => rfl, rfl, by decide +kernel⟩

theorem witness_WriteGrantsStartTheirWrite_completes :
    (let s := jacked (one .writeLine)
     let e := jackPack 0 3 1 1 0
     itemWhole (it .writeLine 0) = true ∧ genForWrite s 1 (itemLine (it .writeLine 0)) (some e) = 1 ∧
     (genKeys s 1 1).isSome = true ∧ counterBase s 1 (itemLine (it .writeLine 0)) 1 e = 3 ∧ 3 < 2 ^ 24 - 1 ∧
     (∀ y ∈ s.pool.txns, y.id ≠ s.pool.nextId)) ∧
    jackLive (one .writeLine) 1 (itemLine (it .writeLine 0)) = false ∧ eqSound (one .writePartial) (.link 0) ∧
    (let s := merged slotA
     let x := tx (it .writePartial 0) .merged
     let e := fillEntry s 1 (itemLine x.item) (lnSide x.line)
     jackEntry s (itemLine x.item) = none ∧ genForWrite s 1 (itemLine x.item) (some e) = 1 ∧
     (genKeys s 1 1).isSome = true ∧ counterBase s 1 (itemLine x.item) 1 e = 0) ∧
    (let s := jacked (merged slotA)
     jackEntry s 0 = some (jackKey 0 (jackSet 0) 0, jackPack 0 3 1 1 0) ∧
     (genByKgen4 (slotOf s 1) (jeKgen4 (jackPack 0 3 1 1 0))).isSome = true ∧
     slotFor s 0 .w = some .fg ∧ fgPick s 0 .w = .merged (tx (it .writePartial 0) .merged) ∧
     step7 s .writePartial 1 = stOk) :=
  ⟨by decide +kernel, by decide +kernel, fun _ _ => rfl, by decide +kernel, by decide +kernel⟩

theorem witness_TagLineSlotsFetchAndWriteBack_picks :
    (let f : TagFetch := { tl := 4096, kidx := 1 }
     tgPick (tags { fetches := [f] } []) 4 .r = some (.fetch f) ∧ tagClash (tags { fetches := [f] } []) 4 .r (.fetch f) = false) ∧
    (let i : Item := { it .readTag 4096 with src := .master 0, q := 32 }
     let full : TagCache := { ways := [(8, way false)] }
     tgPick (tags {} [i]) 4 .r = some (.raw i) ∧ tagClash (tags {} [i]) 4 .r (.raw i) = false ∧
     tabFind (tags {} [i]).pool.ptrBad i.q = none ∧ tagFind (tags {} [i]) (itemLine i) = none ∧
     tgPick (tags full [i]) 4 .r = some (.raw i) ∧ tagFind (tags full [i]) (itemLine i) = some (8, way false) ∧
     (way false).valid = 0xFF#8 ∧ slotFor (tags full [i]) 4 .r = some .tg ∧ grantRefusal (tags full [i]) i = none) ∧
    (let x := { way true with evict := true }
     let f : TagFetch := { tl := 4096, kidx := 1 }
     let s := tags { ways := [(8, x)] } []
     tgPick s 4 .w = some (.back 8 x) ∧ tagClash s 4 .w (.back 8 x) = false ∧
     tagClash (tags { ways := [(8, x)], fetches := [f] } []) 4 .w (.back 8 x) = true) ∧
    (let i : Item := { it .writeTag 4096 with src := .master 0, q := 32 }
     tgPick (tags {} [i]) 4 .w = some (.raw i) ∧ tagClash (tags {} [i]) 4 .w (.raw i) = false ∧
     tagFind (tags { ways := [(8, way false)] } [i]) (itemLine i) = some (8, way false)) := by decide +kernel

theorem witness_TagLineSlotsFetchAndWriteBack_sound :
    eqSound (busy 3) (.master 0) ∧ ({ it .readTag 4096 with src := .master 0 } : Item).gone = false := ⟨nofun, rfl⟩

theorem witness_ProbesAreIssued_picks :
    (let p : Probe := { addr := 0, kidx := 1, kind := .write }
     probeNext (probing [p] none) 0 probeIsWrite = some p) ∧
    (let p : Probe := { addr := 0, kidx := 1, kind := .look }
     spSpare (probing [p] none) 0 = true ∧ lookDue (probing [p] none) 0 = true ∧
     probeNext (probing [p] none) 0 probeIsLook = some p) ∧
    spSpare (probing [] (some (0, 2))) 0 = true ∧ (probing [] (some (0, 2))).jack.prefill = some (0, 2) ∧
    (let p : Probe := { addr := 0, kidx := 1, kind := .look, issued := true }
     spSpare (probing [p] (some (0, 2))) 0 = true ∧ prefillDue (probing [p] (some (0, 2))) 0 = true ∧
     (probeOf (probing [p] (some (0, 2))) 0).isSome = true) := by decide +kernel

theorem witness_StepsReadAndWrite_entries :
    (let s := passing { cx 2 with steps := [stepA .decided] }
     (ctxOf s 0).cause ≠ 4 ∧ jackEntry s 0 = none ∧
     counterBase s 1 0 (ctxTo (cx 2)) (fillEntry s 1 0 (stepA .decided).side) < 2 ^ 24 - 1) ∧
    (let s := jacked (passing { cx 2 with steps := [stepA .decided] })
     slotFor s 0 .w = some .rk ∧ rkWritePick s 0 = some (0, stepA .decided) ∧
     jackEntry s 0 = some (jackKey 0 (jackSet 0) 0, jackPack 0 3 1 1 0) ∧
     (genByKgen4 (slotOf s 1) (jeKgen4 (jackPack 0 3 1 1 0))).isSome = true ∧
     counterBase s 1 0 (ctxTo (cx 2)) (jackPack 0 3 1 1 0) < 2 ^ 24 - 1) :=
  ⟨by decide +kernel, by decide +kernel⟩

theorem witness_PassesStartAndComplete_absent :
    ctxMats (slotPut 1 { slotA with matA := none } (busy 1)) 1 2 = false ∧
    (∀ n ∈ [1, 2, 3, 4], ctxMats (slotPut 1 { slotA with matB := some { key := 9, usable := 0 } } (busy 1)) 1 n = true) := by
  decide +kernel

theorem witness_VotesAndRecomputesSettleHeldLines_recompute :
    (it .readLine 0).op = .readLine ∧ (it .readLine 0).gone = false ∧ eqSound (holding schkHold) (.link 0) ∧
    schkOk 0 (stored true) lineKs = true ∧ schkOk 1 (stored true) lineKs = false :=
  ⟨rfl, rfl, fun _ _ => rfl, by decide +kernel, by decide +kernel⟩

theorem witness_RepairsAndFlushesTakeTheirSlots_drain :
    dirBusy (phased .draining (busy 1)) 0 .w = false ∧ (phased .draining (busy 1)).pwr.phase = .draining ∧
    (port0 { flushReq := true } (busy 1)).pwr.phase = .service := by decide +kernel

theorem witness_SoundQueues :
    eqSound { busy 1 with pool := { txns := [tx (it .writeLine 0) .writing] } } (.link 0) ∧
    eqSound (awaiting .readLine false) (.link 0) ∧ (∀ e ∈ served.pool.lost, e.1 = 1 → eqSound served e.2.src) ∧
    (∀ i ∈ (one .readLine).pool.items, eqSound (one .readLine) i.src) :=
  ⟨fun _ _ => rfl, fun _ _ => rfl, fun _ h => absurd h List.not_mem_nil, fun _ _ _ _ => rfl⟩

theorem witness_ProbesFetchesAndTimeoutsEnd_keys :
    (0 < 2 ^ 40) ∧ (tx (it .readLine 0) .reading).keyless = false ∧ opReads .readLine = true ∧
    ({ kind := .sidecar, addr := 0, owner := .probe } : MOp).timedOut = false := by decide

-- Witnesses: the clauses that messages, commits and the window add

theorem witness_MessagesAreCheckedBeforeTheyAct_types :
    ({ mh 1 0 [] with mtype := 0 } : MsgHdr).mtype ≠ 0x7F#8 ∧
    (({ mh 1 0 [] with odd := some 9 } : MsgHdr).odd.map (fun o => o.toNat)).getD 1 = 9 := by decide

/-- The header of an authentic request of an operation outside Table 15.3. -/
def oddMh : MsgHdr := { mh 9 0 [] with odd := some 9 }

theorem witness_MessagesAreCheckedBeforeTheyAct_odd :
    msgFault 9 oddMh [] keyed = none ∧ oddMh.session.toNat = sessionVal keyed (hdrKey oddMh) ∧
    lastSeq keyed (hdrKey oddMh) < oddMh.seq ∧ oddMh.odd ≠ none := by decide +kernel

theorem witness_CommitsAndAbortsAreTakenOrRefused_breakable :
    (∀ h, h = 8 ∨ h = 1 → let s := { staging .staging 9 with commit := { phase := .staging, owner := 9, breakable := true } }
      s.staged ≠ [] ∧ s.commit.owner ≠ 0 ∧ s.commit.owner ≠ h ∧ s.commit.breakable = true ∧ s.commit.phase = .staging) ∧
    InSession { staging .staging 9 with commit := { phase := .staging, owner := 9, breakable := true } } 5
      (mh 5 0 (leBytes 8 0)) (leBytes 8 0) ∧
    (staging .staging 8).commit.decided ≠ .apply :=
  ⟨fun h hh => by rcases hh with rfl | rfl <;> decide,
    inSession _ _ _ _ ⟨rfl, rfl, rfl, (rfl : _ = sessionVal keyed 0).trans (by decide), rfl⟩ (by decide) (by decide), by decide⟩

theorem witness_SlotCommandsActOnTheirSlot_last :
    (let x := { slotA with st := .rotating, gen := 0xFFFFFFFF, two := true }
     (slotOf (slotPut 1 x (busy 1)) 1).st = .rotating ∧ x.two = true) ∧
    (let x := { slotA with st := .rotating, gen := 0xFFFFFFFF }
     slotOf (slotPut 1 x (busy 1)) 1 = x ∧ x.two = false) := by decide +kernel

theorem witness_UnitCommandsHaveTheirEffect_parts :
    (mediaOf (busy 1) 0).drainOut = false ∧ (mediaOf (port0 { drainOut := true } (busy 1)) 0).drainOut = true ∧
    tagsOf (busy 1) (.master 4) = [] ∧
    (let s := waiting [{ it .readLine 0 with src := .master 4 }] (busy 1)
     tagsOf s (.master 4) ≠ []) ∧
    (let s := waiting [{ it .readLine 0 with t0 := 2 ^ 60 }, it .readLine 0] (busy 1)
     ∀ i ∈ s.pool.items, i.q / 8 = (0 : Fin 16).val) := by decide +kernel

end Sys2Proof.Tests
end

/-! SUPPORT. Tag entries (R76): the bytes of an entry in its tag line, what a write of an entry leaves in the tag cache, and
which steps of the issue of a write leave the cached ways alone. -/

namespace Sys2Proof.Machine

-- Entries of a tag line

/-- Bit `i` of entry `e` after entry `f` is set. -/
theorem getLsbD_tagEntryOf_tagEntrySet (d : Line) (v : BitVec 64) {e f i : Nat} (he : e < 8) (hi : i < 64) :
    (tagEntryOf (tagEntrySet d f v) e).getLsbD i = if e = f then v.getLsbD i else (tagEntryOf d e).getLsbD i := by
  have hb : 64 * e + i < 512 := by omega
  simp only [tagEntryOf, tagEntrySet, BitVec.getLsbD_extractLsb', BitVec.getLsbD_or, BitVec.getLsbD_and,
    BitVec.getLsbD_not, BitVec.getLsbD_shiftLeft, BitVec.getLsbD_setWidth, BitVec.getLsbD_allOnes, hi, hb, decide_true,
    Bool.true_and]
  rcases Nat.lt_trichotomy e f with h | rfl | h
  · have hne : e ≠ f := Nat.ne_of_lt h
    have below : 64 * e + i < 64 * f := by omega
    simp only [hne, below, if_false, decide_true, Bool.not_true, Bool.not_false, Bool.false_and, Bool.and_true,
      Bool.or_false]
  · have within : 64 * e + i - 64 * e = i := by omega
    have notBelow : ¬ 64 * e + i < 64 * e := by omega
    have inLine : i < 512 := by omega
    simp only [within, notBelow, inLine, hi, if_true, decide_true, decide_false, Bool.not_true, Bool.not_false,
      Bool.true_and, Bool.and_false, Bool.false_or]
  · have hne : e ≠ f := Nat.ne_of_gt h
    have above : 64 ≤ 64 * e + i - 64 * f := by omega
    have notIn : ¬ 64 * e + i - 64 * f < 64 := by omega
    simp only [hne, notIn, BitVec.getLsbD_of_ge v _ above, if_false, decide_false, Bool.and_false, Bool.not_false,
      Bool.and_true, Bool.or_false]

/-- The entry that is set reads back. -/
theorem tagEntryOf_tagEntrySet_same (d : Line) (v : BitVec 64) {e : Nat} (he : e < 8) :
    tagEntryOf (tagEntrySet d e v) e = v :=
  BitVec.eq_of_getLsbD_eq fun i hi => by rw [getLsbD_tagEntryOf_tagEntrySet d v he hi, if_pos rfl]

/-- Every other entry stands: entries do not overlap. -/
theorem tagEntryOf_tagEntrySet_ne (d : Line) (v : BitVec 64) {e f : Nat} (hf : f < 8) (hne : f ≠ e) :
    tagEntryOf (tagEntrySet d e v) f = tagEntryOf d f :=
  BitVec.eq_of_getLsbD_eq fun i hi => by rw [getLsbD_tagEntryOf_tagEntrySet d v hf hi, if_neg hne]

theorem length_leBytes (n v : Nat) : (leBytes n v).length = n := by
  induction n generalizing v with
  | zero => rfl
  | succ n ih => simp only [leBytes, List.length_cons, ih]

/-- Byte `i` of a little-endian number is its bits [8i+7:8i] (R8). -/
theorem getElem_leBytes (n v i : Nat) (hi : i < (leBytes n v).length) :
    (leBytes n v)[i] = BitVec.ofNat 8 (v / 2 ^ (8 * i)) := by
  induction n generalizing v i with
  | zero => exact absurd hi (Nat.not_lt_zero i)
  | succ n ih =>
    cases i with
    | zero => simp only [leBytes, List.getElem_cons_zero, Nat.mul_zero, Nat.pow_zero, Nat.div_one]
    | succ i => simp only [leBytes, List.getElem_cons_succ, ih, Nat.div_div_eq_div_mul, Nat.mul_succ, Nat.pow_add,
        Nat.mul_comm (2 ^ (8 * i)), Nat.reducePow]

theorem getElem_lineBytes (d : Line) (i : Nat) (hi : i < (lineBytes d).length) :
    (lineBytes d)[i] = d.extractLsb' (8 * i) 8 := by
  simp only [lineBytes, List.getElem_map, List.getElem_range]

@[simp] theorem length_lineBytes (d : Line) : (lineBytes d).length = 64 := by
  simp only [lineBytes, List.length_map, List.length_range]

/-- Byte `j` of an entry is byte `8e + j` of its tag line. -/
theorem extract_tagEntryOf (d : Line) {e j : Nat} (hj : j < 8) :
    (tagEntryOf d e).extractLsb' (8 * j) 8 = d.extractLsb' (8 * (8 * e + j)) 8 := by
  apply BitVec.eq_of_getLsbD_eq
  intro i hi
  have inEntry : 8 * j + i < 64 := by omega
  have place : 64 * e + (8 * j + i) = 8 * (8 * e + j) + i := by omega
  simp only [tagEntryOf, BitVec.getLsbD_extractLsb', hi, inEntry, place, decide_true, Bool.true_and]

/-- Entry `e` is bytes `8e` to `8e + 7` of its tag line, little-endian. -/
theorem lineBytes_tagEntry (d : Line) {e : Nat} (he : e < 8) :
    ((lineBytes d).drop (8 * e)).take 8 = leBytes 8 (tagEntryOf d e).toNat := by
  apply List.ext_getElem
  · simp only [List.length_take, List.length_drop, length_lineBytes, length_leBytes]
    omega
  · intro j hj hj'
    have hj8 : j < 8 := by simpa only [length_leBytes] using hj'
    rw [List.getElem_take, List.getElem_drop, getElem_lineBytes, getElem_leBytes, ← extract_tagEntryOf d hj8,
      BitVec.extractLsb', Nat.shiftRight_eq_div_pow]

-- Ways of the tag cache

/-- The lookup of a tag line depends on the ways alone. -/
theorem tagFind_congr {s t : State} (h : t.tagc.ways = s.tagc.ways) (tl : Nat) : tagFind t tl = tagFind s tl := by
  unfold tagFind
  rw [h]

theorem tagCached_congr {s t : State} (h : t.tagc.ways = s.tagc.ways) (tl e : Nat) :
    tagCached t tl e = tagCached s tl e := by
  unfold tagCached
  rw [tagFind_congr h]

/-- The way that is found holds the tag line that is looked up. -/
theorem tagFind_addr {s : State} {tl k : Nat} {x : TagWay} (h : tagFind s tl = some (k, x)) : x.addr = tl := by
  obtain ⟨w, -, hw⟩ := List.exists_of_findSome?_eq_some h
  split at hw
  · obtain ⟨ha, he⟩ := Option.ite_none_right_eq_some.1 hw
    cases he
    exact ha
  · exact absurd hw nofun

/-- A way that is put in the place of the one found, for the same tag line, is the one found from there on. -/
theorem tagFind_wayPut {s : State} {tl k : Nat} {x y : TagWay} (h : tagFind s tl = some (k, x)) (hy : y.addr = tl) :
    tagFind (wayPut k y s) tl = some (k, y) := by
  unfold tagFind at h ⊢
  obtain ⟨before, w, after, hl, hw, hbefore⟩ := List.findSome?_eq_some_iff.1 h
  have hk : tagSet tl * 8 + w = k := by grind
  refine List.findSome?_eq_some_iff.2 ⟨before, w, after, hl, ?_, fun u hu => ?_⟩
  · simp only [wayPut, tabFind_tabSet, hk, if_true, hy]
  · have huk : tagSet tl * 8 + u ≠ k := fun heq => by
      obtain rfl : u = w := by omega
      rw [hbefore u hu] at hw
      cases hw
    simpa only [wayPut, tabFind_tabSet, huk, if_false] using hbefore u hu

theorem tagFind_wayUse {s : State} {tl k : Nat} {x y : TagWay} (h : tagFind s tl = some (k, x)) (hy : y.addr = tl) :
    tagFind (wayUse k y s) tl = some (k, { y with used := s.tagc.uses }) :=
  tagFind_wayPut (by rwa [tagFind_congr rfl]) hy

/-- An entry that is written to a cached tag line is valid and reads back (R81). -/
theorem tagCached_tagWrite {kidx tl e seq k : Nat} {v : BitVec 64} {x : TagWay} {s : State} (he : e < 8)
    (h : tagFind s tl = some (k, x)) : tagCached (tagWrite kidx tl e seq v s) tl e = some v := by
  have addr : x.addr = tl := tagFind_addr h
  have isValid : (x.valid ||| 1#8 <<< e).getLsbD e = true := by
    simp only [he, BitVec.getLsbD_eq_getElem, BitVec.getElem_or, BitVec.getElem_shiftLeft, Nat.lt_irrefl, decide_false,
      Bool.not_false, Nat.sub_self, BitVec.getElem_one, decide_true, Bool.and_self, Bool.or_true]
  unfold tagWrite
  rw [h]
  dsimp only
  unfold tagCached
  rw [tagFind_wayUse h]
  · simp only [isValid, if_true, tagEntryOf_tagEntrySet_same x.data v he]
  · exact addr

/-- Where no error is found, the check of a tag-cache line changes nothing (R86). -/
theorem tagSecded_clean (tl : Nat) (s : State) : tagSecded {} tl s = s := by
  unfold tagSecded
  split <;> rfl

theorem tagPlace_entry_lt {s : State} {kidx a tl e : Nat} (h : tagPlace s kidx a = some (tl, e)) : e < 8 := by
  unfold tagPlace at h
  split at h
  · cases h
  · cases h
    exact Nat.mod_lt _ (by decide)

-- What the issue of a write leaves alone in the tag cache

@[simp] theorem ownerOwes_tagc (o : MOwner) (tl seq : Nat) (s : State) : (ownerOwes o tl seq s).tagc = s.tagc := by
  cases o with
  | step n a =>
    unfold ownerOwes tagOwe
    dsimp only
    split
    · rw [ctxPut_tagc]
    · rfl
  | _ => rfl

/-- A fetch that a write-back asks for leaves the ways alone. -/
theorem fetchAsk_wb_ways (tl kidx : Nat) (owners : List MOwner) (s : State) :
    (fetchAsk tl kidx owners true s).tagc.ways = s.tagc.ways := by
  unfold fetchAsk
  split
  · rfl
  · split <;> rfl

@[simp] theorem wbFetches_ways (s : State) : (wbFetches s).tagc.ways = s.tagc.ways := by
  refine foldl_keeps (fun s => s.tagc.ways) _ (fun s e => ?_) _ s
  split
  · exact fetchAsk_wb_ways ..
  · rfl

@[simp] theorem issueW_tagc (m : Nat) (o : MOp) (s : State) : (issueW m o s).tagc = s.tagc := rfl

@[simp] theorem tagUnreserve_ways (o : MOwner) (s : State) : (tagUnreserve o s).tagc.ways = s.tagc.ways := rfl

@[simp] theorem aheadIssued_tagc (kidx a : Nat) (g : BitVec 32) (s : State) : (aheadIssued kidx a g s).tagc = s.tagc := by
  unfold aheadIssued
  split
  · rfl
  · dsimp only
    split
    · rw [ctxPut_tagc]
    · rfl

@[simp] theorem stepWritten_tagc (o : MOwner) (s : State) : (stepWritten o s).tagc = s.tagc := by
  cases o <;> rfl

@[simp] theorem creditRelease_tagc (p sid n : Nat) (s : State) : (creditRelease p sid n s).tagc = s.tagc := by
  rw [creditRelease_frame]

@[simp] theorem txnConsume_tagc (t : Txn) (s : State) : (txnConsume t s).tagc = s.tagc := by
  unfold txnConsume
  dsimp only
  split
  · rw [creditRelease_tagc, txnPut_tagc]
  · rw [txnPut_tagc]

@[simp] theorem ownerIssued_tagc (o : MOwner) (g : BitVec 32) (c : BitVec 24) (s : State) :
    (ownerIssued o g c s).tagc = s.tagc := by
  cases o with
  | txn id =>
    unfold ownerIssued
    dsimp only
    split
    · rw [txnConsume_tagc]
    · rfl
  | _ => rfl

-- The entry that a write leaves

/-- The tag entry of a write: MAC56 of the line as stored, and below it CECHO, the low bits of the LCTR (R76). -/
def WriteReq.tagEntry (w : WriteReq) (ks : List Block) (s : State) : BitVec 64 :=
  mac56 w.h (lineXor w.pt ks)
    (scPack w.lctr (w.gen.setWidth 4) (BitVec.ofNat 15 w.kidx) (BitVec.ofNat 2 (slotClass s w.kidx)) w.psn
      (lineSchk w.pt w.addr ks)) (BitVec.ofNat 40 w.addr) (ks.getD 4 0#128) ++ w.lctr.setWidth 8

/-- The issue of a write of class CI changes the cached ways as the write of its tag entry does. -/
theorem writeIssue_ways {w : WriteReq} {tl e : Nat} {s : State} (ks : List Block) (hc : slotClass s w.kidx = 3)
    (hp : tagPlace s w.kidx w.addr = some (tl, e)) :
    (writeIssue w ks {} s).tagc.ways = (tagWrite w.kidx tl e s.mseq (w.tagEntry ks s) s).tagc.ways := by
  unfold writeIssue
  simp only [hc, hp, if_true, tagSecded_clean, ownerIssued_tagc, stepWritten_tagc, tagUnreserve_ways, aheadIssued_tagc,
    issueW_tagc]
  split <;> simp only [wbFetches_ways, ownerOwes_tagc, WriteReq.tagEntry, hc]

/-- After the issue of a write of class CI, its cached tag line holds the entry of the write. -/
theorem tagCached_writeIssue {w : WriteReq} {tl e k : Nat} {x : TagWay} {s : State} (ks : List Block)
    (hc : slotClass s w.kidx = 3) (hp : tagPlace s w.kidx w.addr = some (tl, e)) (hf : tagFind s tl = some (k, x)) :
    tagCached (writeIssue w ks {} s) tl e = some (w.tagEntry ks s) := by
  rw [tagCached_congr (writeIssue_ways ks hc hp), tagCached_tagWrite (tagPlace_entry_lt hp) hf]

theorem WriteReq.tagEntry_cecho (w : WriteReq) (ks : List Block) (s : State) :
    (w.tagEntry ks s).extractLsb' 0 8 = w.lctr.extractLsb' 0 8 := by
  rw [tagEntry, extract_append_low]
  rfl

theorem WriteReq.tagEntry_mac (w : WriteReq) (ks : List Block) (s : State) :
    (w.tagEntry ks s).extractLsb' 8 56 =
      mac56 w.h (lineXor w.pt ks)
        (scPack w.lctr (w.gen.setWidth 4) (BitVec.ofNat 15 w.kidx) (BitVec.ofNat 2 (slotClass s w.kidx)) w.psn
          (lineSchk w.pt w.addr ks)) (BitVec.ofNat 40 w.addr) (ks.getD 4 0#128) := by
  rw [tagEntry, extract_append_high _ _ _ _ (Nat.le_refl 8), extract_all]

end Sys2Proof.Machine

namespace Sys2Proof
open Sys2Proof.Machine

/-- Settles O60: the issue of a write changes the cached ways as the write of its entry does, which reads back; bytes and
entries of a tag line are compared place by place. -/
theorem tagEntriesHaveTheirFields : Obligations.TagEntriesHaveTheirFields := by
  unfold Obligations.TagEntriesHaveTheirFields
  constructor
  · intro w ks tl e k x s hclass hplace hfind
    exact ⟨w.tagEntry ks s, tagCached_writeIssue ks hclass hplace hfind, w.tagEntry_cecho ks s, w.tagEntry_mac ks s⟩
  · intro d v e he
    exact ⟨lineBytes_tagEntry d he, tagEntryOf_tagEntrySet_same d v he, fun f hf hne => tagEntryOf_tagEntrySet_ne d v hf hne⟩

end Sys2Proof

/-! SUPPORT. Staged writes and staged views (R319, R324): which writes reach the staging set and what they leave, what
an accepted READ and a served window read answer, and what the check of a message and of an access leaves alone. -/

namespace Sys2Proof.Machine

-- The staging set (R319, R320)

/-- A staging set that is broken is discarded; beside it only the commit unit, the registers and the events change. -/
theorem stageBreak_frame (w : Who) (s : State) :
    stageBreak w s = { s with staged := [], regs := (stageBreak w s).regs, ev := (stageBreak w s).ev,
                              commit := (stageBreak w s).commit } := by
  unfold stageBreak
  dsimp only
  rw [raise_frame]
  rfl

/-- A writer that is let in finds the state as it was, or breaks the set of another owner (R320). -/
theorem stageEnter_cases {w : Who} {s t : State} (h : stageEnter w s = .ok t) :
    t = s ∨ s.commit.owner ≠ 0 ∧ s.commit.owner ≠ w.owner ∧ t = stageBreak w s := by
  unfold stageEnter at h
  split at h
  · cases h
  · split at h
    · cases h
      exact .inl rfl
    · next notFree =>
      split at h
      · cases h
        simp only [not_or] at notFree
        exact .inr ⟨notFree.1, notFree.2.1, rfl⟩
      · cases h

/-- No refusal of a writer is OK. -/
theorem stageEnter_error_ne_ok {w : Who} {s : State} {rc : Byte} (h : stageEnter w s = .error rc) : rc ≠ rcOk := by
  unfold stageEnter at h
  split at h
  · cases h
    decide
  · split at h
    · cases h
    · split at h
      · cases h
      · cases h
        decide

/-- The staging set after an accepted write: the value is set in the set that the writer was let into. -/
theorem stageWrite_ok {w : Who} {idx sub row v : Nat} {s u : State} (h : stageWrite w idx sub row v s = (rcOk, u)) :
    ∃ t, stageEnter w s = .ok t ∧
      u = { t with staged := tabSet t.staged (okey idx sub row) v, commit := u.commit } := by
  unfold stageWrite at h
  split at h
  · cases h
  · split at h
    · next rc refused =>
      exact absurd (congrArg Prod.fst h) (stageEnter_error_ne_ok refused)
    · next t entered =>
      cases h
      exact ⟨t, entered, rfl⟩

/-- An accepted write of an RWS object is a write of the staging set. -/
theorem objWrite_rws_ok {w : Who} {o : Obj} {idx sub row v : Nat} {s u : State} (hrws : o.acc = .rws)
    (h : objWrite w o idx sub row v s = (rcOk, u)) : stageWrite w idx sub row v s = (rcOk, u) := by
  unfold objWrite at h
  split at h
  · cases h
  · split at h
    · cases h
    · split at h
      · cases h
      · rwa [hrws] at h

/-- What a writer that is let in leaves alone; where no other owner holds the set, also the entries staged before. -/
theorem stageEnter_frame {w : Who} {s t : State} (h : stageEnter w s = .ok t) :
    t.cfg = s.cfg ∧ t.nv = s.nv ∧ t.nvu = s.nvu ∧
      (s.commit.owner = 0 ∨ s.commit.owner = w.owner → t.staged = s.staged) := by
  rcases stageEnter_cases h with rfl | ⟨notFree, notOwn, rfl⟩
  · exact ⟨rfl, rfl, rfl, fun _ => rfl⟩
  · rw [stageBreak_frame]
    exact ⟨rfl, rfl, rfl, fun held => absurd held (not_or.2 ⟨notFree, notOwn⟩)⟩

/-- The staged value of a listed entry is the listed one. -/
theorem stagedVal_of_find {s : State} {idx sub row v : Nat} (h : tabFind s.staged (okey idx sub row) = some v) :
    stagedVal s idx sub row = v := by
  unfold stagedVal
  rw [h]

/-- A reset empties the staging set and takes its owner away (R319). -/
theorem doReset_staging (por : Bool) (s : State) : (doReset por s).staged = [] ∧ (doReset por s).commit.owner = 0 := by
  unfold doReset
  exact ⟨regPut_staged .., congrArg Commit.owner (regPut_commit ..)⟩

-- The values of objects by view (R324)

/-- Values in force depend on their bank alone. -/
theorem cfgVal_congr {s t : State} (hc : t.cfg = s.cfg) (idx sub row : Nat) :
    cfgVal t idx sub row = cfgVal s idx sub row := by
  unfold cfgVal
  rw [hc]

/-- Staged values depend on the two banks alone. -/
theorem stagedVal_congr {s t : State} (hc : t.cfg = s.cfg) (hs : t.staged = s.staged) (idx sub row : Nat) :
    stagedVal t idx sub row = stagedVal s idx sub row := by
  unfold stagedVal
  rw [hs, cfgVal_congr hc]

/-- The staged view of an RWS object is its staged value. -/
theorem objVal_staged_view {o : Obj} (hrws : o.acc = .rws) (idx sub row : Nat) (s : State) :
    (objVal true o idx sub row s).1 = stagedVal s idx sub row := by
  simp only [objVal, hrws, viewVal, if_true]

/-- The plain view of an RWS object is its value in force. -/
theorem objVal_plain_view {o : Obj} (hrws : o.acc = .rws) (idx sub row : Nat) (s : State) :
    (objVal false o idx sub row s).1 = cfgVal s idx sub row := by
  simp only [objVal, hrws, viewVal, Bool.false_eq_true, if_false]

/-- Objects that are not RWS have one value in both views. -/
theorem objVal_view_eq {o : Obj} (hrws : o.acc ≠ .rws) (view : Bool) (idx sub row : Nat) (s : State) :
    objVal view o idx sub row s = objVal false o idx sub row s := by
  unfold objVal
  cases hacc : o.acc with
  | rws => exact absurd hacc hrws
  | _ => rfl

/-- The value that a read answers by view, where the banks read are those of an earlier state (R324). -/
theorem objVal_by_view {s t u : State} {view : Bool} {o : Obj} {idx sub row v : Nat} (hcfg : t.cfg = s.cfg)
    (hstaged : t.staged = s.staged) (hv : objVal view o idx sub row t = (v, u)) :
    (o.acc = .rws → view = true → v = stagedVal s idx sub row) ∧
    (o.acc = .rws → view = false → v = cfgVal s idx sub row) ∧
    (o.acc ≠ .rws → v = (objVal false o idx sub row t).1) := by
  have answered : v = (objVal view o idx sub row t).1 := by rw [hv]
  rw [answered]
  refine ⟨?_, ?_, fun hrws => by rw [objVal_view_eq hrws]⟩
  · rintro hrws rfl
    rw [objVal_staged_view hrws, stagedVal_congr hcfg hstaged]
  · rintro hrws rfl
    rw [objVal_plain_view hrws, cfgVal_congr hcfg]

/-- A read of an object changes nothing but the model's own counter of free values. -/
theorem objVal_frame {view : Bool} {o : Obj} {idx sub row v : Nat} {t u : State}
    (hv : objVal view o idx sub row t = (v, u)) : u = { t with free := u.free } := by
  unfold objVal at hv
  split at hv
  · cases hv; rfl
  · cases hv; rfl
  · cases hv; rfl
  · split at hv <;> cases hv <;> rfl
  · cases hv; rfl

/-- A state that is settled as another is has its staging set and its owner. -/
theorem staging_of_settled {s t : State} (h : t.settled = s.settled) :
    t.staged = s.staged ∧ t.commit.owner = s.commit.owner :=
  ⟨congrArg Prod.fst h, congrArg (fun p => p.2.owner) h⟩

-- What every accepted message and every served access leaves alone

/-- An owner's access restarts its idle time and changes nothing else (R320). -/
theorem ownerSeen_frame (w : Who) (s : State) :
    ownerSeen w s = { s with commit := { s.commit with ownerSeen := (ownerSeen w s).commit.ownerSeen,
                                                       breakable := (ownerSeen w s).commit.breakable } } := by
  unfold ownerSeen
  split <;> rfl

/-- A message that is taken leaves all but its session and the owner's idle time alone (R317, R320). -/
theorem msgTaken_frame (h : MsgHdr) (s : State) :
    msgTaken h s = { s with sessions := (msgTaken h s).sessions,
                            commit := { s.commit with ownerSeen := (msgTaken h s).commit.ownerSeen,
                                                      breakable := (msgTaken h s).commit.breakable } } := by
  unfold msgTaken
  rw [ownerSeen_frame]
  rfl

/-- An access that is taken leaves all but the owner's idle time alone (R320). -/
theorem winTaken_frame (dbg : Bool) (s : State) :
    winTaken dbg s = { s with commit := { s.commit with ownerSeen := (winTaken dbg s).commit.ownerSeen,
                                                        breakable := (winTaken dbg s).commit.breakable } } :=
  ownerSeen_frame _ s

@[simp] theorem msgTaken_cfg (h : MsgHdr) (s : State) : (msgTaken h s).cfg = s.cfg := by
  rw [msgTaken_frame]

@[simp] theorem msgTaken_staged (h : MsgHdr) (s : State) : (msgTaken h s).staged = s.staged := by
  rw [msgTaken_frame]

@[simp] theorem msgTaken_owner (h : MsgHdr) (s : State) : (msgTaken h s).commit.owner = s.commit.owner := by
  rw [msgTaken_frame]

@[simp] theorem msgTaken_mmTx (h : MsgHdr) (s : State) : (msgTaken h s).mmTx = s.mmTx := by
  rw [msgTaken_frame]

@[simp] theorem msgTaken_keys (h : MsgHdr) (s : State) : (msgTaken h s).keys = s.keys := by
  rw [msgTaken_frame]

@[simp] theorem winTaken_cfg (dbg : Bool) (s : State) : (winTaken dbg s).cfg = s.cfg := by
  rw [winTaken_frame]

@[simp] theorem winTaken_staged (dbg : Bool) (s : State) : (winTaken dbg s).staged = s.staged := by
  rw [winTaken_frame]

@[simp] theorem winTaken_owner (dbg : Bool) (s : State) : (winTaken dbg s).commit.owner = s.commit.owner := by
  rw [winTaken_frame]

@[simp] theorem winOf_winTaken (dbg : Bool) (s : State) (d : Bool) : winOf (winTaken dbg s) d = winOf s d := by
  rw [winTaken_frame]
  rfl

@[simp] theorem winRow_winTaken (dbg : Bool) (s : State) (d : Bool) (idx : Nat) :
    winRow (winTaken dbg s) d idx = winRow s d idx := by
  simp only [winRow, winOf_winTaken]

-- Messages (R315 to R317)

/-- A number of n bytes is read back from its bytes (R8). -/
theorem natOfLe_leBytes {n v : Nat} (h : v < 2 ^ (8 * n)) : natOfLe (leBytes n v) = v := by
  induction n generalizing v with
  | zero => simp only [leBytes, natOfLe]; omega
  | succ n ih =>
    have fits : v / 256 < 2 ^ (8 * n) := Nat.div_lt_of_lt_mul (by rw [Nat.mul_succ, Nat.pow_add] at h; omega)
    simp only [leBytes, natOfLe, ih fits, BitVec.toNat_ofNat]
    omega

theorem length_bodyHead (idx sub n row : Nat) : (bodyHead idx sub n row).length = 8 := rfl

/-- The reserved byte of a body's head is zero (Table 15.4). -/
theorem byteAt_bodyHead_reserved (idx sub n row : Nat) : byteAt (bodyHead idx sub n row) 7 = 0#8 := rfl

/-- The address that a body carries is read back from its head. -/
theorem bodyAddr_bodyHead {idx sub n row : Nat} (h : headFits idx sub n row) :
    bodyAddr (bodyHead idx sub n row) = (idx, sub, n, row) := by
  obtain ⟨hidx, hsub, hn, hrow⟩ := h
  have idxBytes : (bodyHead idx sub n row).take 2 = leBytes 2 idx := rfl
  have subByte : byteAt (bodyHead idx sub n row) 2 = BitVec.ofNat 8 sub := rfl
  have nByte : byteAt (bodyHead idx sub n row) 3 = BitVec.ofNat 8 n := rfl
  have rowBytes : ((bodyHead idx sub n row).drop 4).take 3 = leBytes 3 row := rfl
  rw [bodyAddr, idxBytes, subByte, nByte, rowBytes, natOfLe_leBytes hidx, natOfLe_leBytes hrow,
    BitVec.toNat_ofNat, BitVec.toNat_ofNat, Nat.mod_eq_of_lt hsub, Nat.mod_eq_of_lt hn]

/-- An authentic message names a management key that is loaded. -/
theorem InSession.key {s : State} {op : Nat} {h : MsgHdr} {body : List Byte} (hs : InSession s op h body) :
    ∃ key, tabFind s.keys.mks (hdrKey h) = some key := by
  have authentic := hs.authentic
  unfold msgFault at authentic
  split at authentic
  · cases authentic
  · split at authentic
    · cases authentic
    · next key found => exact ⟨key, found⟩

/-- A message that passes the checks acts on the state in which it is taken (R316, R317). -/
theorem msgReceive_inSession {s : State} {op : Nat} {h : MsgHdr} {body : List Byte} (hs : InSession s op h body)
    (go : State → State) : msgReceive op h body go s = go (msgTaken h s) := by
  have served : ¬ (s.clk.running = false ∨ s.pwr.stage ≠ .served) := by simp [hs.running, hs.served]
  have inSequence : ¬ h.seq ≤ lastSeq s (hdrKey h) := BitVec.not_le.2 hs.sequence
  unfold msgReceive
  simp only [served, if_false, hs.ownOp, Option.map_none, Option.getD_none, hs.authentic, hs.session, inSequence,
    hs.head, ne_eq, not_true_eq_false, and_self, if_true]
  rfl

/-- The answer to an authentic message joins the messages that wait, and carries what it answers. -/
theorem sends_msgAnswer {s u : State} {op : Nat} {h : MsgHdr} {body : List Byte} (hs : InSession s op h body)
    (hq : u.mmTx = s.mmTx) (hk : u.keys = s.keys) (rc : Byte) (seq : BitVec 32) (answer : List Byte) :
    sends s (msgAnswer h op rc seq answer u) h op rc seq answer := by
  obtain ⟨key, loaded⟩ := hs.key
  rw [← hk] at loaded
  unfold sends msgAnswer
  simp only [loaded, Option.isNone_some, Bool.false_eq_true, if_false, ← hq]
  split
  · simp only [msgSend, loaded]
    exact ⟨_, rfl, rfl, rfl, rfl, rfl, rfl⟩
  · rw [count1_frame]
    simp only [msgSend, loaded]
    exact ⟨_, rfl, rfl, rfl, rfl, rfl, rfl⟩

/-- An accepted READ of an object that its sender reaches answers the object's value in the view of its flag. -/
theorem doRead_inSession {h : MsgHdr} {idx sub row v : Nat} {o : Obj} {s u : State} (hfit : headFits idx sub 0 row)
    (hs : InSession s 1 h (bodyHead idx sub 0 row)) (ho : objReach (.f (hdrKey h)) idx sub row = .ok o)
    (hrow : rowForm idx row = true) (hv : objVal (h.flags.getLsbD 0) o idx sub row (msgTaken h s) = (v, u)) :
    doRead h (bodyHead idx sub 0 row) s = msgAnswer h 1 rcOk h.seq (lenBody (leBytes o.ty.width v)) u := by
  unfold doRead
  rw [msgReceive_inSession hs]
  unfold readBody
  simp only [bodyAddr_bodyHead hfit, length_bodyHead, byteAt_bodyHead_reserved, ne_eq, not_true_eq_false, or_self,
    if_false, ho, hrow, Bool.true_eq_false, hv]

-- The local window (R311 to R313)

/-- A served access acts on the state in which it is taken (R368). -/
theorem winAccess_served {dbg : Bool} {s : State} (hs : winServed s) (go : State → State) :
    winAccess dbg go s = go (winTaken dbg s) := by
  obtain ⟨running, served⟩ := hs
  unfold winAccess
  simp only [running, served, Bool.true_eq_false, ne_eq, not_true_eq_false, if_false]
  rfl

/-- A window read of an object outside index 20FF returns its value in the view of its class, with its width. -/
theorem winRead_object {a : WinAcc} {idx sub row v : Nat} {o : Obj} {s u : State} (hw : WinAt s a idx sub row)
    (hidx : idx ≠ 0x20FF) (ho : objReach (winWho a.dbg) idx sub row = .ok o)
    (hv : objVal (decide ((winOf s a.dbg).view = 1#8)) o idx sub row (winTaken a.dbg s) = (v, u)) :
    winRead a.dbg a.addr.toNat (winTaken a.dbg s) = .ok (v, o.ty.words, u) := by
  obtain ⟨place, subFits⟩ := hw.address
  have idxOf : winIdx a.addr.toNat = idx := by unfold winIdx; omega
  have subOf : winSub a.addr.toNat = sub := by unfold winSub; omega
  unfold winRead
  simp only [idxOf, subOf, hw.noSelect, Bool.false_eq_true, if_false, winRow_winTaken, ← hw.rowIs, ho, hidx,
    winOf_winTaken, hv]

/-- A window read of an object is acknowledged with word 0 of its value, and the words above it are latched (R312). -/
theorem doWideValueRead_object {a : WinAcc} {idx sub row v : Nat} {o : Obj} {s u : State} (hw : WinAt s a idx sub row)
    (hidx : idx ≠ 0x20FF) (ho : objReach (winWho a.dbg) idx sub row = .ok o)
    (hv : objVal (decide ((winOf s a.dbg).view = 1#8)) o idx sub row (winTaken a.dbg s) = (v, u)) :
    doWideValueRead a s =
      winAck false (v % 2 ^ 32) (winPut a.dbg (wideLatch o.ty.words v (winOf u a.dbg)) u) := by
  unfold doWideValueRead
  rw [winAccess_served hw.served]
  simp only [hw.enables, ne_eq, not_true_eq_false, if_false, winRead_object hw hidx ho hv]

end Sys2Proof.Machine

namespace Sys2Proof
open Sys2Proof.Machine

/-- Settles O57: an accepted write of an RWS object is a write of the staging set, which is set in the state that the
writer was let into; a reset leaves an empty set. -/
theorem stagedWritesEnterTheStagingSet : Obligations.StagedWritesEnterTheStagingSet := by
  unfold Obligations.StagedWritesEnterTheStagingSet
  constructor
  · intro w o idx sub row v s u hrws hwrite
    obtain ⟨t, entered, hu⟩ := stageWrite_ok (objWrite_rws_ok hrws hwrite)
    obtain ⟨hcfg, hnv, hnvu, hstaged⟩ := stageEnter_frame entered
    have bank : u.staged = tabSet t.staged (okey idx sub row) v := congrArg State.staged hu
    have found : tabFind u.staged (okey idx sub row) = some v := by rw [bank, tabFind_tabSet, if_pos rfl]
    refine ⟨stagedVal_of_find found, found, (congrArg State.cfg hu).trans hcfg, (congrArg State.nv hu).trans hnv,
      (congrArg State.nvu hu).trans hnvu, fun held k other => ?_⟩
    rw [bank, tabFind_tabSet, if_neg other, hstaged held]
  · exact fun por s => ⟨doReset por s, rfl, doReset_staging por s⟩

/-- Settles O58: the answer of a READ and of a window read is `objVal` in the view that is asked for, over a state whose
banks and owner are those before the access. -/
theorem stagedViewReturnsTheStagingBank : Obligations.StagedViewReturnsTheStagingBank := by
  unfold Obligations.StagedViewReturnsTheStagingBank
  constructor
  · intro h idx sub row o s hfit hs ho hrow
    obtain ⟨⟨v, u⟩, hv⟩ : ∃ r, objVal (h.flags.getLsbD 0) o idx sub row (msgTaken h s) = r := ⟨_, rfl⟩
    have answer := doRead_inSession hfit hs ho hrow hv
    have messages : u.mmTx = s.mmTx := by rw [objVal_frame hv, msgTaken_mmTx]
    have keys : u.keys = s.keys := by rw [objVal_frame hv, msgTaken_keys]
    have settled : (doRead h (bodyHead idx sub 0 row) s).settled = (msgTaken h s).settled := by
      rw [answer, msgAnswer_settled, objVal_settled_of hv]
    obtain ⟨staged, owner⟩ := staging_of_settled settled
    exact ⟨_, v, rfl, answer ▸ sends_msgAnswer hs messages keys .., staged.trans (msgTaken_staged h s),
      owner.trans (msgTaken_owner h s), objVal_by_view (msgTaken_cfg h s) (msgTaken_staged h s) hv⟩
  · intro a idx sub row o s hw hidx ho
    obtain ⟨⟨v, u⟩, hv⟩ : ∃ r, objVal (decide ((winOf s a.dbg).view = 1#8)) o idx sub row (winTaken a.dbg s) = r :=
      ⟨_, rfl⟩
    have answer := doWideValueRead_object hw hidx ho hv
    have settled : (doWideValueRead a s).settled = (winTaken a.dbg s).settled := by
      rw [answer, winAck_settled, winPut_settled, objVal_settled_of hv]
    obtain ⟨staged, owner⟩ := staging_of_settled settled
    obtain ⟨stagedView, plainView, otherView⟩ := objVal_by_view (winTaken_cfg a.dbg s) (winTaken_staged a.dbg s) hv
    exact ⟨_, v, rfl, congrArg State.winOut answer, staged.trans (winTaken_staged a.dbg s),
      owner.trans (winTaken_owner a.dbg s), fun hrws view => stagedView hrws (decide_eq_true view),
      fun hrws view => plainView hrws (decide_eq_false view), otherView⟩

end Sys2Proof

/-! SUPPORT. What the map does not list (R339): such an object refuses every access with NO_OBJECT, and what a refused
READ, a refused WRITE and a refused window access answer and leave alone. -/

namespace Sys2Proof.Machine

-- The map (R313, R339)

/-- Every row of the object tables begins at subindex 1 or above (R339). -/
theorem objTable_sub_pos (hi : Nat) : (objTable hi).all (fun o => decide (0 < o.sub)) = true := by
  unfold objTable
  split <;> decide

/-- No object lies at subindex 0 (R339). -/
theorem objFind_sub_zero (idx : Nat) : objFind idx 0 = none := by
  refine List.find?_eq_none.2 fun o member covered => ?_
  have positive : 0 < o.sub := of_decide_eq_true (List.all_eq_true.1 (objTable_sub_pos _) o member)
  obtain ⟨⟨below, -⟩, -⟩ : (o.sub ≤ 0 ∧ 0 < o.sub + o.subs) ∧ _ := by
    simpa only [Obj.covers, Bool.and_eq_true, decide_eq_true_eq] using covered
  omega

theorem isRowSel_eq_false {idx sub : Nat} :
    isRowSel idx sub = false ↔ ¬ (tableRows idx ≠ 0 ∧ (sub = 0xFE ∨ sub = 0xFF)) := by
  rw [← Bool.not_eq_true, isRowSel, Bool.and_eq_true, Bool.or_eq_true, decide_eq_true_eq, decide_eq_true_eq,
    decide_eq_true_eq]

/-- Nobody reaches what the map does not list, and the refusal is NO_OBJECT whatever the rights (R339). -/
theorem objReach_notListed {idx sub row : Nat} (w : Who) (hn : notListed idx sub row) :
    objReach w idx sub row = .error rcNoObject := by
  obtain ⟨noSelect, noObject | beyond⟩ := hn
  · simp only [objReach, noObject, isRowSel_eq_false.1 noSelect, if_false]
  · unfold objReach
    cases objFind idx sub with
    | none => simp only [isRowSel_eq_false.1 noSelect, if_false]
    | some o => simp only [beyond, ne_eq, not_false_eq_true, and_self, if_true]

-- Refused messages (R315, R316)

/-- An answer changes the messages that wait and the counters, nothing else. -/
theorem msgAnswer_frame (h : MsgHdr) (op : Nat) (rc : Byte) (seq : BitVec 32) (body : List Byte) (s : State) :
    msgAnswer h op rc seq body s =
      { s with mmTx := (msgAnswer h op rc seq body s).mmTx, regs := (msgAnswer h op rc seq body s).regs } := by
  unfold msgAnswer msgSend
  split
  · rfl
  · dsimp only
    split
    · split <;> rfl
    · rw [count1_frame]
      split <;> rfl

/-- A READ of an object that its sender does not reach is answered with the refusal alone. -/
theorem doRead_refused {h : MsgHdr} {idx sub row : Nat} {rc : Byte} {s : State} (hfit : headFits idx sub 0 row)
    (hs : InSession s 1 h (bodyHead idx sub 0 row)) (hr : objReach (.f (hdrKey h)) idx sub row = .error rc) :
    doRead h (bodyHead idx sub 0 row) s = msgAnswer h 1 rc h.seq [] (msgTaken h s) := by
  unfold doRead
  rw [msgReceive_inSession hs]
  unfold readBody
  simp only [bodyAddr_bodyHead hfit, length_bodyHead, byteAt_bodyHead_reserved, ne_eq, not_true_eq_false, or_self,
    if_false, hr, msgResult]

/-- An authentic message fits its transport (R315). -/
theorem InSession.length_le {s : State} {op : Nat} {h : MsgHdr} {body : List Byte} (hs : InSession s op h body) :
    body.length ≤ 1056 := by
  have authentic := hs.authentic
  unfold msgFault at authentic
  split at authentic
  · cases authentic
  · next sound => exact Nat.le_of_not_lt fun long => sound (.inr (.inr long))

/-- The body of a WRITE: the head, LEN and the value (Table 15.4). -/
def writeBodyOf (idx sub row : Nat) (vs : List Byte) : List Byte :=
  bodyHead idx sub 0 row ++ leBytes 2 vs.length ++ vs

theorem length_writeBodyOf (idx sub row : Nat) (vs : List Byte) :
    (writeBodyOf idx sub row vs).length = 10 + vs.length := by
  simp only [writeBodyOf, List.length_append, length_bodyHead, length_leBytes]

theorem byteAt_writeBodyOf_reserved (idx sub row : Nat) (vs : List Byte) :
    byteAt (writeBodyOf idx sub row vs) 7 = 0#8 := rfl

theorem bodyAddr_writeBodyOf {idx sub row : Nat} (hfit : headFits idx sub 0 row) (vs : List Byte) :
    bodyAddr (writeBodyOf idx sub row vs) = (idx, sub, 0, row) := by
  have headOnly : bodyAddr (writeBodyOf idx sub row vs) = bodyAddr (bodyHead idx sub 0 row) := rfl
  rw [headOnly, bodyAddr_bodyHead hfit]

/-- LEN is read back where it fits its two bytes. -/
theorem len_writeBodyOf (idx sub row : Nat) {vs : List Byte} (hlen : vs.length < 2 ^ 16) :
    natOfLe (((writeBodyOf idx sub row vs).drop 8).take 2) = vs.length := by
  have lenBytes : ((writeBodyOf idx sub row vs).drop 8).take 2 = leBytes 2 vs.length := rfl
  rw [lenBytes, natOfLe_leBytes hlen]

/-- A WRITE of an object that its sender does not reach is answered with the refusal alone. -/
theorem doWrite_refused {h : MsgHdr} {idx sub row : Nat} {vs : List Byte} {rc : Byte} {s : State}
    (hfit : headFits idx sub 0 row) (hs : InSession s 2 h (writeBodyOf idx sub row vs))
    (hr : objReach (.f (hdrKey h)) idx sub row = .error rc) :
    doWrite h (writeBodyOf idx sub row vs) s = msgAnswer h 2 rc h.seq [] (msgTaken h s) := by
  have bodyLength := length_writeBodyOf idx sub row vs
  have lenFits : vs.length < 2 ^ 16 := by
    have := hs.length_le
    omega
  have notShort : ¬ 10 + vs.length < 10 := by omega
  unfold doWrite
  rw [msgReceive_inSession hs]
  unfold writeBody
  simp only [bodyAddr_writeBodyOf hfit, bodyLength, byteAt_writeBodyOf_reserved, len_writeBodyOf idx sub row lenFits,
    notShort, ne_eq, not_true_eq_false, or_self, if_false, hr, msgResult]

-- Refused window accesses (R311)

theorem WinAt.idx_eq {s : State} {a : WinAcc} {idx sub row : Nat} (hw : WinAt s a idx sub row) :
    winIdx a.addr.toNat = idx := by
  obtain ⟨place, subFits⟩ := hw.address
  unfold winIdx
  omega

theorem WinAt.sub_eq {s : State} {a : WinAcc} {idx sub row : Nat} (hw : WinAt s a idx sub row) :
    winSub a.addr.toNat = sub := by
  obtain ⟨place, subFits⟩ := hw.address
  unfold winSub
  omega

/-- A refusal changes the window's own state alone. -/
theorem winRefuse_frame (dbg : Bool) (addr : Nat) (rc : Byte) (s : State) :
    winRefuse dbg addr rc s =
      { s with winL := (winRefuse dbg addr rc s).winL, winD := (winRefuse dbg addr rc s).winD,
               winOut := (winRefuse dbg addr rc s).winOut } := by
  cases dbg <;> rfl

theorem winNo_winRefuse (dbg : Bool) (addr : Nat) (rc : Byte) (s : State) :
    winNo (winRefuse dbg addr rc s) dbg addr rc := by
  cases dbg <;> exact ⟨rfl, rfl⟩

/-- A window write of an object that its class does not reach is refused. -/
theorem doWindowWrite_refused {a : WinAcc} {v idx sub row : Nat} {rc : Byte} {s : State} (hw : WinAt s a idx sub row)
    (hr : objReach (winWho a.dbg) idx sub row = .error rc) (hrc : rc ≠ rcOk) :
    doWindowWrite a v s = winRefuse a.dbg a.addr.toNat rc (winTaken a.dbg s) := by
  have written : winWrite a.dbg a.addr.toNat v (winTaken a.dbg s) = (rc, winTaken a.dbg s) := by
    unfold winWrite
    simp only [hw.idx_eq, hw.sub_eq, hw.noSelect, Bool.false_eq_true, if_false, winRow_winTaken, ← hw.rowIs, hr]
  unfold doWindowWrite
  rw [winAccess_served hw.served]
  simp only [hw.enables, ne_eq, not_true_eq_false, if_false, written, winDone, hrc]

/-- A window read of an object that its class does not reach is refused. -/
theorem doWideValueRead_refused {a : WinAcc} {idx sub row : Nat} {rc : Byte} {s : State} (hw : WinAt s a idx sub row)
    (hr : objReach (winWho a.dbg) idx sub row = .error rc) :
    doWideValueRead a s = winRefuse a.dbg a.addr.toNat rc (winTaken a.dbg s) := by
  have answered : winRead a.dbg a.addr.toNat (winTaken a.dbg s) = .error rc := by
    unfold winRead
    simp only [hw.idx_eq, hw.sub_eq, hw.noSelect, Bool.false_eq_true, if_false, winRow_winTaken, ← hw.rowIs, hr]
  unfold doWideValueRead
  rw [winAccess_served hw.served]
  simp only [hw.enables, ne_eq, not_true_eq_false, if_false, answered]

/-- Each of the three plain accesses to what the map does not list is the same refusal (R311, R339). -/
theorem exec_window_notListed {a : WinAcc} {v : BitVec 32} {c : Instr} {idx sub row : Nat} {s : State}
    (hc : c = .windowWrite a v ∨ c = .rwsWrite a v ∨ c = .wideValueRead a) (hw : WinAt s a idx sub row)
    (hn : notListed idx sub row) :
    exec c s = .next (winRefuse a.dbg a.addr.toNat rcNoObject (winTaken a.dbg s)) := by
  have unreached := objReach_notListed (winWho a.dbg) hn
  have refused : rcNoObject ≠ rcOk := by decide
  rcases hc with rfl | rfl | rfl
  · exact congrArg Host.Outcome.next (doWindowWrite_refused hw unreached refused)
  · exact congrArg Host.Outcome.next (doWindowWrite_refused hw unreached refused)
  · exact congrArg Host.Outcome.next (doWideValueRead_refused hw unreached)

end Sys2Proof.Machine

namespace Sys2Proof
open Sys2Proof.Machine

/-- Settles O59: no principal reaches what the map does not list, so that each route answers the refusal of `objReach`
before it reads or writes anything; no row of the object tables begins at subindex 0. -/
theorem unlistedObjectsAnswerNoObject : Obligations.UnlistedObjectsAnswerNoObject := by
  unfold Obligations.UnlistedObjectsAnswerNoObject
  refine ⟨fun h idx sub row s hfit hn => ⟨fun hs => ?_, ?_⟩, fun a v c idx sub row s hc hw hn => ?_, fun idx row => ?_,
    fun idx sub row _ hnone => ?_⟩
  · have answer := doRead_refused hfit hs (objReach_notListed _ hn)
    exact ⟨_, rfl, answer ▸ sends_msgAnswer hs (msgTaken_mmTx h s) (msgTaken_keys h s) .., answer ▸ msgAnswer_frame ..⟩
  · rintro vs _ rfl hs
    have answer : doWrite h _ s = _ := doWrite_refused hfit hs (objReach_notListed _ hn)
    exact ⟨_, rfl, answer ▸ sends_msgAnswer hs (msgTaken_mmTx h s) (msgTaken_keys h s) .., answer ▸ msgAnswer_frame ..⟩
  · exact ⟨_, exec_window_notListed hc hw hn, winNo_winRefuse .., winRefuse_frame ..⟩
  · exact ⟨isRowSel_eq_false.2 fun select => by omega, .inl (objFind_sub_zero idx)⟩
  · cases hsel : isRowSel idx sub with
    | true => exact .inr rfl
    | false => exact .inl ⟨hsel, .inl hnone⟩

end Sys2Proof

/-! SUPPORT. Every command at once: what each leaves of the queue, the NV store and the clock, of the power and start-up
stages, of the sessions, the window and the keys, and of the staging set; the few that change a part, one by one. -/

namespace Sys2Proof.Machine

-- The queue, the NV store and the clock

/-- The commands that move the clock or write the NV store, and reset. -/
def movesKept : Instr → Bool
  | .reset _ | .resetRelease _ _ | .frameStrobe | .frameEnd | .commitSample | .commitDeferLimit | .nvPageDone _ => true
  | _ => false

theorem exec_kept {c : Instr} {s t : State} (h : exec c s = .next t) (hc : movesKept c = false) :
    t.kept = s.kept := by
  cases c
  case reset | resetRelease | frameStrobe | frameEnd | commitSample | commitDeferLimit | nvPageDone => cases hc
  all_goals
    obtain rfl := Host.Outcome.next.inj h
    simp only [apply_ite State.kept, ite_self,
      ctxSuspendAbsent_kept, doAbort_kept, doAccepted_kept, doAckTimer_kept, doBistDone_kept,
      doCommitApply_kept, doCommitPrepared_kept, doCommit_kept, doCopyBackDone_kept, doCreditReturn_kept,
      doDebugLockBlown_kept, doDigestRefreshDone_kept, doDrainComplete_kept, doDrainLate_kept, doEraseSlot_kept,
      doEventMessage_kept, doFenceComplete_kept, doFgReadGrant_kept, doFgWriteGrant_kept, doFlitTransmit_kept,
      doFlushPersist_kept, doFormatComplete_kept, doFuseLoadDone_kept, doGrantHoldExpiry_kept, doHbLost_kept,
      doHeartbeatDue_kept, doHoldoffEnd_kept, doLineArrival_kept, doLoadKek_kept, doLoadKey_kept,
      doLoadMgmtKey_kept, doLockGained_kept, doLockLost_kept, doLookaheadProbe_kept, doMediaHandshake_kept,
      doMpStall_kept, doNvReadDone_kept, doPartialReadGrant_kept, doPartialWriteGrant_kept,
      doPersistTimeout_kept, doPersisted_kept, doPoolSweepPass_kept, doPrefillProbe_kept, doPurgeComplete_kept,
      doPwrWarnQualify_kept, doPwrWarnReturn_kept, doPwrWarnShortPulse_kept, doQueryKcv_kept, doRateChange_kept,
      doReadRow_kept, doReadTimeout_kept, doRead_kept, doRecOnlineChange_kept, doRecorderAccept_kept,
      doRecorderClearAck_kept, doRecoveryDone_kept, doRekeyComplete_kept, doRekeyPassStart_kept,
      doRekeyStepWrite_kept, doRekeyStep_kept, doRekeyTake_kept, doReplayTimer_kept, doResume_kept,
      doResyncDone_kept, doResyncSend_kept, doRowRepair_kept, doRxAckOnly_kept, doRxBadFlit_kept,
      doRxDataFlit_kept, doRxDown_kept, doRxHeartbeat_kept, doRxIdle_kept, doRxParamConfirm_kept,
      doRxParamOffer_kept, doRxReservedType_kept, doSidecarArrival_kept, doSidecarProbe_kept,
      doStageBreakable_kept, doStartupImageApply_kept, doSubscribe_kept, doTLosExpiry_kept, doTNegExpiry_kept,
      doTagWriteback_kept, doTaglineArrival_kept, doTaglineFetch_kept, doTransferError_kept,
      doWideValueRead_kept, doWindowWrite_kept, doWriteRow_kept, doWrite_kept, doZeroizeDone_kept,
      doZeroizeQualify_kept, doZeroizeReturn_kept, doZeroizeShortPulse_kept, drainPoll_kept, fenceReceive_kept,
      reqReceive_kept, rkPoll_kept, rkSchedule_kept, schkCmd_kept, tagMakeRoom_kept, voteCmd_kept, winCmd_kept]

/-- RESET leaves the queue. -/
@[simp] theorem doReset_pending (por : Bool) (s : State) : (doReset por s).pending = s.pending := rfl

/-- RESET_RELEASE starts the clock and leaves the queue and the NV store. -/
theorem doResetRelease_kept (por b : Bool) (s : State) :
    (doResetRelease por b s).kept =
      if s.clk.running then s.kept else (s.pending, s.nv, { running := true, frame := 0, cycle := 0 }) := by
  unfold doResetRelease
  dsimp only
  rw [apply_ite State.kept, apply_ite State.kept, modeSend_kept]
  simp only [kept_mk, ite_self]

theorem frameNext_kept (s : State) :
    (frameNext s).kept = (s.pending, s.nv, { s.clk with frame := s.clk.frame + 1#56, cycle := 0 }) := rfl

/-- FRAME_STROBE moves the clock alone among the kept. -/
theorem doFrameStrobe_kept (s : State) :
    (doFrameStrobe s).kept = if s.clk.running = false then s.kept
      else (s.pending, s.nv, { s.clk with frame := s.clk.frame + 1#56, cycle := 0 }) := by
  have ends := strobeEnds_kept s
  unfold doFrameStrobe
  rw [apply_ite State.kept, strobeDuties_kept, landings_kept, frameNext_kept]
  generalize strobeEnds s = u at ends
  unfold State.kept at ends
  simp only [Prod.mk.injEq] at ends
  obtain ⟨pending, nv, clk⟩ := ends
  rw [pending, nv, clk]

/-- COMMIT_SAMPLE moves the clock up to cycle 1,020 alone among the kept. -/
theorem doCommitSample_kept (s : State) :
    (doCommitSample s).kept = if s.clk.running = true ∧ s.clk.cycle ≤ 1020
      then (s.pending, s.nv, { s.clk with cycle := max 1020 s.clk.cycle }) else s.kept := by
  unfold doCommitSample
  dsimp only
  rw [apply_ite State.kept, apply_ite State.kept, commitSample_kept, entryAsk_kept, ite_self, cyclesTo_kept]

/-- COMMIT_DEFER_LIMIT moves the clock up to cycle 1,020, if anything, alone among the kept. -/
theorem doCommitDeferLimit_kept (s : State) :
    (doCommitDeferLimit s).kept = s.kept ∨
      s.clk.cycle ≤ 1020 ∧ (doCommitDeferLimit s).kept = (s.pending, s.nv, { s.clk with cycle := max 1020 s.clk.cycle }) := by
  unfold doCommitDeferLimit
  split
  · next due =>
    obtain ⟨sampled, -⟩ := due
    simp only [sampleDue, Bool.and_eq_true, decide_eq_true_eq] at sampled
    obtain ⟨⟨⟨⟨-, early⟩, -⟩, -⟩, -⟩ := sampled
    exact .inr ⟨early, by rw [commitAbort_kept, cyclesTo_kept]⟩
  · exact .inl rfl

/-- NV_PAGE_DONE leaves the queue and the clock, and the NV store in its canonical form. -/
theorem doNvPageDone_keeps (err : Bool) (s : State) :
    (doNvPageDone err s).pending = s.pending ∧ (doNvPageDone err s).clk = s.clk ∧
      (tabWf 0#8 s.nv = true → tabWf 0#8 (doNvPageDone err s).nv = true) := by
  unfold doNvPageDone
  split
  · exact ⟨rfl, rfl, id⟩
  · next p _ =>
    split
    · exact ⟨rfl, rfl, id⟩
    · split
      · dsimp only [takeFree]
        generalize hu : State.mk .. = u
        have kept := nvRetry_kept p u
        refine ⟨(pending_of_kept kept).trans (hu ▸ rfl), (clk_of_kept kept).trans (hu ▸ rfl), fun h => ?_⟩
        rw [nv_of_kept kept, ← hu]
        exact tabWf_foldl_tabPut 0#8 (fun e : Nat × Byte => p.addr + e.1) (fun e => Config.nvByte s.free e.1) p.data _ h
      · exact ⟨rfl, rfl, nvApply_wf p s.nv⟩

/-- How a command other than RESET and NV_PAGE_DONE moves the clock. -/
def ClkMoves (c : Instr) (k l : Clk) : Prop :=
  match c with
  | .resetRelease _ _ => l = k ∨ l = { running := true, frame := 0, cycle := 0 }
  | .frameStrobe => l = k ∨ l = { k with frame := k.frame + 1#56, cycle := 0 }
  | .frameEnd | .commitSample | .commitDeferLimit => ∃ n, l = { k with cycle := n } ∧ (k.cycle ≤ 1023 → n ≤ 1023)
  | _ => l = k

/-- Of the queue, the NV store and the clock, every command but RESET and NV_PAGE_DONE moves the clock alone. -/
theorem exec_moves {c : Instr} {s t : State} (h : exec c s = .next t) (hr : ∀ p, c ≠ .reset p)
    (hn : ∀ e, c ≠ .nvPageDone e) : ∃ k, t.kept = (s.pending, s.nv, k) ∧ ClkMoves c s.clk k := by
  cases moves : movesKept c with
  | false =>
    refine ⟨s.clk, exec_kept h moves, ?_⟩
    cases c
    case resetRelease | frameStrobe | frameEnd | commitSample | commitDeferLimit => cases moves
    all_goals rfl
  | true =>
    cases c
    case reset p => exact absurd rfl (hr p)
    case nvPageDone e => exact absurd rfl (hn e)
    case resetRelease por b =>
      obtain rfl := Host.Outcome.next.inj h
      have kept := doResetRelease_kept por b s
      split at kept
      · exact ⟨_, kept, .inl rfl⟩
      · exact ⟨_, kept, .inr rfl⟩
    case frameStrobe =>
      obtain rfl := Host.Outcome.next.inj h
      have kept := doFrameStrobe_kept s
      split at kept
      · exact ⟨_, kept, .inl rfl⟩
      · exact ⟨_, kept, .inr rfl⟩
    case frameEnd =>
      obtain rfl := Host.Outcome.next.inj h
      have kept := doFrameEnd_kept s
      split at kept
      · exact ⟨_, kept, _, rfl, id⟩
      · exact ⟨_, kept, _, rfl, fun h => by omega⟩
    case commitSample =>
      obtain rfl := Host.Outcome.next.inj h
      have kept := doCommitSample_kept s
      split at kept
      · exact ⟨_, kept, _, rfl, fun h => by omega⟩
      · exact ⟨_, kept, _, rfl, id⟩
    case commitDeferLimit =>
      obtain rfl := Host.Outcome.next.inj h
      rcases doCommitDeferLimit_kept s with kept | ⟨-, kept⟩
      · exact ⟨_, kept, _, rfl, id⟩
      · exact ⟨_, kept, _, rfl, fun h => by omega⟩
    all_goals cases moves

/-- No command touches the queue. -/
theorem exec_pending {c : Instr} {s t : State} (h : exec c s = .next t) : t.pending = s.pending := by
  by_cases hr : ∃ p, c = .reset p
  · obtain ⟨p, rfl⟩ := hr
    exact Host.Outcome.next.inj h ▸ rfl
  by_cases hn : ∃ e, c = .nvPageDone e
  · obtain ⟨e, rfl⟩ := hn
    exact Host.Outcome.next.inj h ▸ (doNvPageDone_keeps e s).1
  obtain ⟨k, kept, -⟩ := exec_moves h (fun p hc => hr ⟨p, hc⟩) (fun e hc => hn ⟨e, hc⟩)
  exact congrArg (fun k => k.1) kept

-- Power, start-up and zeroization

/-- The commands that move a stage of power, start-up or zeroization. -/
def movesStood : Instr → Bool
  | .reset _ | .resetRelease _ _ | .fuseLoadDone _ | .bistDone _ | .recoveryDone | .pwrWarnQualify | .drainComplete
  | .resume | .zeroizeQualify | .zeroizeDone | .zeroizeReturn | .holdoffEnd | .debugLockBlown | .loadKek _ => true
  | _ => false

theorem exec_stood {c : Instr} {s t : State} (h : exec c s = .next t) (hc : movesStood c = false) :
    t.stood = s.stood := by
  cases c
  case reset | resetRelease | fuseLoadDone | bistDone | recoveryDone | pwrWarnQualify | drainComplete | resume
    | zeroizeQualify | zeroizeDone | zeroizeReturn | holdoffEnd | debugLockBlown | loadKek => cases hc
  all_goals
    obtain rfl := Host.Outcome.next.inj h
    simp only [apply_ite State.stood, ite_self,
      ctxSuspendAbsent_stood, doAbort_stood, doAccepted_stood, doAckTimer_stood, doCommitApply_stood,
      doCommitDeferLimit_stood, doCommitPrepared_stood, doCommitSample_stood, doCommit_stood,
      doCopyBackDone_stood, doCreditReturn_stood, doDigestRefreshDone_stood, doDrainLate_stood,
      doEraseSlot_stood, doEventMessage_stood, doFenceComplete_stood, doFgReadGrant_stood, doFgWriteGrant_stood,
      doFlitTransmit_stood, doFlushPersist_stood, doFormatComplete_stood, doFrameEnd_stood, doFrameStrobe_stood,
      doGrantHoldExpiry_stood, doHbLost_stood, doHeartbeatDue_stood, doLineArrival_stood, doLoadKey_stood,
      doLoadMgmtKey_stood, doLockGained_stood, doLockLost_stood, doLookaheadProbe_stood, doMediaHandshake_stood,
      doMpStall_stood, doNvPageDone_stood, doNvReadDone_stood, doPartialReadGrant_stood,
      doPartialWriteGrant_stood, doPersistTimeout_stood, doPersisted_stood, doPoolSweepPass_stood,
      doPrefillProbe_stood, doPurgeComplete_stood, doPwrWarnReturn_stood, doPwrWarnShortPulse_stood,
      doQueryKcv_stood, doRateChange_stood, doReadRow_stood, doReadTimeout_stood, doRead_stood,
      doRecOnlineChange_stood, doRecorderAccept_stood, doRecorderClearAck_stood, doRekeyComplete_stood,
      doRekeyPassStart_stood, doRekeyStepWrite_stood, doRekeyStep_stood, doRekeyTake_stood, doReplayTimer_stood,
      doResyncDone_stood, doResyncSend_stood, doRowRepair_stood, doRxAckOnly_stood, doRxBadFlit_stood,
      doRxDataFlit_stood, doRxDown_stood, doRxHeartbeat_stood, doRxIdle_stood, doRxParamConfirm_stood,
      doRxParamOffer_stood, doRxReservedType_stood, doSidecarArrival_stood, doSidecarProbe_stood,
      doStageBreakable_stood, doStartupImageApply_stood, doSubscribe_stood, doTLosExpiry_stood,
      doTNegExpiry_stood, doTagWriteback_stood, doTaglineArrival_stood, doTaglineFetch_stood,
      doTransferError_stood, doWideValueRead_stood, doWindowWrite_stood, doWriteRow_stood, doWrite_stood,
      doZeroizeShortPulse_stood, drainPoll_stood, fenceReceive_stood, reqReceive_stood, rkPoll_stood,
      schkCmd_stood, tagMakeRoom_stood, voteCmd_stood, winCmd_stood]

/-- What stood holds, part by part. -/
theorem stood_iff {s t : State} : t.stood = s.stood ↔
    t.pins.pinOe = s.pins.pinOe ∧ t.pins.persistOk = s.pins.persistOk ∧ t.pins.zeroized = s.pins.zeroized ∧
      t.pwr.phase = s.pwr.phase ∧ t.pwr.stage = s.pwr.stage ∧ t.keys.zer = s.keys.zer ∧
      t.keys.debugLock = s.keys.debugLock := by
  unfold State.stood
  simp only [Prod.mk.injEq]

/-- FUSE_LOAD_DONE lets pin_oe rise and goes on to BIST. -/
theorem doFuseLoadDone_stood (img : FuseImage) (s : State) :
    (doFuseLoadDone img s).stood = if s.clk.running = true ∧ s.pwr.stage = .fuse
      then (true, s.pins.persistOk, s.pins.zeroized, s.pwr.phase, .bist, s.keys.zer, s.keys.debugLock) else s.stood := by
  unfold doFuseLoadDone
  split
  · dsimp only
    generalize hu : List.foldl logPlace _ _ = u
    have stood : u.stood = s.stood := by rw [← hu, foldl_stood _ logPlace_stood, fuseApply_stood, stood_mk, stood_eta]
    obtain ⟨-, ok, zeroized, phase, -, zer, lock⟩ := stood_iff.1 stood
    rw [stood_mk, ok, zeroized, phase, zer, lock]
  · rfl

/-- BIST_DONE goes on to recovery. -/
theorem doBistDone_stood (fails : List BistFail) (s : State) :
    (doBistDone fails s).stood = if s.clk.running = true ∧ s.pwr.stage = .bist
      then (s.pins.pinOe, s.pins.persistOk, s.pins.zeroized, s.pwr.phase, .recovery, s.keys.zer, s.keys.debugLock)
      else s.stood := by
  unfold doBistDone
  split
  · dsimp only
    generalize hu : List.foldl (bistKind fails) _ _ = u
    have stood : u.stood = s.stood := by rw [← hu, foldl_stood _ (bistKind_stood fails)]
    obtain ⟨oe, ok, zeroized, phase, -, zer, lock⟩ := stood_iff.1 stood
    rw [regPut_stood, stood_mk, oe, ok, zeroized, phase, zer, lock]
  · rfl

/-- POWER_CYCLES and the shutdown byte of the session record at a copy's address, or zeros. -/
def sessionRead (ses : Option Nat) (s : State) : Nat × Nat :=
  match ses with
  | some a => (nvNat s (a + 4) 4, nvNat s (a + 8) 1)
  | none => (0, 0)

/-- Recovery notes an irregular session record. -/
def recoveryNote (s : State) : State :=
  match sessionSel s with
  | (some a, true) => nvNote a 1 (regPut 0x6300 6 0 0 s)
  | _ => regPut 0x6300 6 0 0 s

/-- The registers that recovery leaves, of the image's generation `gen` and of `n` power cycles before. -/
def recoveryRegs (gen n prev : Nat) (s : State) : State :=
  regPut 0x6300 7 0 (Config.recoveryUs (takeFree s).1).toNat
    (regPut 0x2300 5 0 gen (regPut 0x2300 4 0 ((n + 1) % 2 ^ 32) (regPut 0x2300 3 0 prev (takeFree s).2)))

/-- Recovery's last duties: the session record is queued, an unclean shutdown reported. -/
def recoveryEnd (img : Option Nat) (n prev resumed : Nat) (s : State) : State :=
  let gen := match img with
    | some a => nvNat s (a + 2) 4
    | none => 0
  let u := recoveryRegs gen n prev s
  let v := nvPush { recs := [.session 1], act := .none }
    { u with nvu := { u.nvu with powerCycles := (n + 1) % 2 ^ 32, prevShutdown := prev } }
  if prev = 1 then raise .uncleanStart (srcGlobal 4) ((n + 1) % 2 ^ 32) resumed 0 v else v

/-- What recovery has restored and noted before the block serves. -/
def recoveryWork (s : State) : State :=
  let n := sessionRead (sessionSel s).1 (recoveryNote s)
  let r := recTables n.1 (recoveryNote s)
  recoveryEnd (recImage r.2).1 n.1 n.2 r.1 (recImage r.2).2

/-- The block serves; the image is due. -/
def serve (s : State) : State := { s with pwr := { s.pwr with stage := .served, imageDue := some (frameNo s) } }

/-- RECOVERY_DONE in two parts: recovery's work, and the block that serves after it. -/
theorem doRecoveryDone_eq {s : State} (hs : s.pwr.stage = .recovery) (hp : s.pwr.phase = .service) :
    doRecoveryDone s = serve (recoveryWork s) := by
  unfold doRecoveryDone recoveryWork recoveryNote
  rw [hs, hp]
  rcases sessionSel s with ⟨_ | a, _ | _⟩
  all_goals
    simp only [sessionRead, Bool.false_eq_true, if_true, if_false]
    refine congrArg serve ?_
    generalize recTables _ _ = r
    rcases recImage r.2 with ⟨_ | b, u⟩ <;> rfl

theorem recoveryWork_stood (s : State) : (recoveryWork s).stood = s.stood := by
  have note : (recoveryNote s).stood = s.stood := by
    unfold recoveryNote
    split <;> simp only [nvNote_stood, regPut_stood]
  unfold recoveryWork recoveryEnd recoveryRegs
  simp only [apply_ite State.stood, raise_stood, nvPush_stood, ite_self, stood_mk, stood_eta, regPut_stood,
    takeFree_stood, recImage_stood, recTables_stood, note]

/-- RECOVERY_DONE lets the block serve. -/
theorem doRecoveryDone_stood (s : State) :
    (doRecoveryDone s).stood = if s.pwr.stage = .recovery ∧ s.pwr.phase = .service
      then (s.pins.pinOe, s.pins.persistOk, s.pins.zeroized, s.pwr.phase, .served, s.keys.zer, s.keys.debugLock)
      else s.stood := by
  split
  · next due =>
    obtain ⟨stage, phase⟩ := due
    obtain ⟨oe, ok, zeroized, phase', -, zer, lock⟩ := stood_iff.1 (recoveryWork_stood s)
    rw [doRecoveryDone_eq stage phase, serve, stood_mk, oe, ok, zeroized, phase', zer, lock]
  · next other =>
    unfold doRecoveryDone
    split
    · next stage phase => exact absurd ⟨stage, phase⟩ other
    · rfl

/-- DRAIN_COMPLETE lets persist_ok rise and parks the engine. -/
theorem doDrainComplete_stood (s : State) :
    (doDrainComplete s).stood = if s.pwr.phase = .draining ∧ drainOver s = true
      then (s.pins.pinOe, true, s.pins.zeroized, .parked, s.pwr.stage, s.keys.zer, s.keys.debugLock) else s.stood := by
  unfold doDrainComplete
  split <;> rfl

/-- What the drain abandons and asks for once it has begun. -/
def drainBegun (s : State) : State :=
  let t := imageDrop ((List.range 64).foldl ctxAbandon s)
  drainPoll (wbFetches (sampleUndo
    ((List.range 16).foldl (fun s m => mediaMod m (fun x => { x with drainFlush := false, drainOut := false }) s) t)))

theorem drainBegun_stood (s : State) : (drainBegun s).stood = s.stood := by
  unfold drainBegun
  simp only [drainPoll_stood, wbFetches_stood, sampleUndo_stood, foldl_stood, mediaMod_stood, implies_true,
    imageDrop_stood, ctxAbandon_stood]

/-- The power state once a warning is qualified: `early` says that start-up is interrupted. -/
def Pwr.warned (early : Bool) (t : Nat) (x : Pwr) : Pwr :=
  { x with phase := .draining, qualAt := t, late := false, sessionQueued := false, sessionDone := false, returned := none,
           interrupted := early, drainWrites := 0 }

/-- PWR_WARN_QUALIFY in service, before and after the end of recovery (R267, R285). -/
theorem doPwrWarnQualify_service {s : State} (hp : s.pwr.phase = .service) (hr : s.clk.running = true) :
    ∃ u, u = raise .pwrWarn (srcGlobal 0) (acceptedWrites s) (dirtyLines s) (nvQueued s) s ∧
      (s.pwr.stage ≠ .served → doPwrWarnQualify s =
        { u with pwr := u.pwr.warned true (now u), nvu := { u.nvu with jobs := [], held := u.nvu.jobs ++ u.nvu.held } }) ∧
      (s.pwr.stage = .served → doPwrWarnQualify s = drainBegun { u with pwr := u.pwr.warned false (now u) }) := by
  obtain ⟨u, hu⟩ : ∃ u, u = raise .pwrWarn (srcGlobal 0) (acceptedWrites s) (dirtyLines s) (nvQueued s) s := ⟨_, rfl⟩
  have stage : u.pwr = s.pwr := by rw [hu, raise_frame]
  refine ⟨u, hu, fun h => ?_, fun h => ?_⟩
  all_goals
    unfold doPwrWarnQualify
    rw [hp, hr]
    simp only [← hu, stage, h, ne_eq, not_true_eq_false, not_false_eq_true, decide_true, decide_false, if_true,
      Bool.false_eq_true, if_false, Pwr.warned, drainBegun]

/-- PWR_WARN_QUALIFY in service begins the drain. -/
theorem doPwrWarnQualify_stood (s : State) :
    (doPwrWarnQualify s).stood = if s.pwr.phase = .service ∧ s.clk.running = true
      then (s.pins.pinOe, s.pins.persistOk, s.pins.zeroized, .draining, s.pwr.stage, s.keys.zer, s.keys.debugLock)
      else s.stood := by
  split
  · next due =>
    obtain ⟨phase, running⟩ := due
    obtain ⟨u, hu, early, late⟩ := doPwrWarnQualify_service phase running
    have stood : u.stood = s.stood := by rw [hu, raise_stood]
    obtain ⟨oe, ok, zeroized, -, stage, zer, lock⟩ := stood_iff.1 stood
    by_cases h : s.pwr.stage = .served
    · rw [late h, drainBegun_stood, stood_mk, oe, ok, zeroized, zer, lock]
      simp only [Pwr.warned, stage]
    · rw [early h, stood_mk, oe, ok, zeroized, zer, lock]
      simp only [Pwr.warned, stage]
  · next other =>
    unfold doPwrWarnQualify
    split
    · rfl
    · next phase running => exact absurd ⟨phase, running⟩ other
    · rfl

/-- What a resume brings back after service has returned: `early` says that start-up was interrupted. -/
def resumed (early : Bool) (held : List NvJob) (s : State) : State :=
  if early then held.foldl (fun s j => nvPush j s) s
  else
    rkSchedule (rkPoll (resumeFlush ((List.range 64).foldl ctxUnpark
      (held.foldl (fun s j => nvPush j s) (nvPush { recs := [.session 1], act := .sessionRun } s)))))

theorem resumed_stood (early : Bool) (held : List NvJob) (s : State) : (resumed early held s).stood = s.stood := by
  unfold resumed
  simp only [apply_ite State.stood, foldl_stood, nvPush_stood, implies_true, rkSchedule_stood, rkPoll_stood,
    resumeFlush_stood, ctxUnpark_stood, ite_self]

/-- Service returns: persist_ok falls, and the changes held back are taken out of the agent (R275). -/
def unparked (early : Bool) (s : State) : State :=
  { s with pins := { s.pins with persistOk := false }, nvu := { s.nvu with held := [] },
           pwr := { s.pwr with phase := .service, returned := none, interrupted := false, holdWrites := !early } }

/-- RESUME in two parts: service returns, and what it brings back. -/
theorem doResume_eq {s : State} (h : resumeDue s = true) :
    ∃ u, u = raise .resume (srcGlobal 3) (frameNo s - s.pwr.parkedAt) 0 0 s ∧
      doResume s = resumed s.pwr.interrupted u.nvu.held (unparked s.pwr.interrupted u) := by
  refine ⟨_, rfl, ?_⟩
  unfold doResume
  rw [if_pos h]
  rfl

/-- RESUME lets persist_ok fall and returns to service. -/
theorem doResume_stood (s : State) :
    (doResume s).stood = if resumeDue s = true
      then (s.pins.pinOe, false, s.pins.zeroized, .service, s.pwr.stage, s.keys.zer, s.keys.debugLock) else s.stood := by
  split
  · next due =>
    obtain ⟨u, hu, resumes⟩ := doResume_eq due
    have stood : u.stood = s.stood := by rw [hu, raise_stood]
    obtain ⟨oe, -, zeroized, -, stage, zer, lock⟩ := stood_iff.1 stood
    rw [resumes, resumed_stood, unparked, stood_mk, oe, zeroized, zer, lock, stage]
  · next early =>
    unfold doResume
    rw [if_neg early]

-- Zeroization

/-- The keys are erased: the slots', the KEK and the management keys, with the subscriptions (R138). -/
def keysErased (drain : Bool) (disc n : Nat) (s : State) : State :=
  let t := (s.keys.slots.map (fun e => e.1)).foldl (fun s k => slotZeroize k s) s
  { t with keys := { t.keys with
      kek := none, mks := [], eraseNext := []
      zer := { lowQual := true, erasing := true, erased := t.keys.zer.erased, returned := none, discards := disc,
               slotsErased := n, drainRan := drain } }
           ev := { t.ev with subs := [] } }

/-- Work in flight ends after the erase (Table 06.14). -/
def zeroizeWork (ends : List Txn) (s : State) : State :=
  let t := ends.foldl zeroizeTxn s
  drainPoll (ctxSuspendAll { t with pool := { t.pool with txns := t.pool.txns.map (fun t =>
    if zeroizeWaits t then { t with keyless := true } else t) } })

/-- The counts of a zeroization. -/
def zeroizeCounted (disc : Nat) (s : State) : State := countUp 0x6060 5 0 disc (count1 0x6060 3 0 s)

/-- A zeroization whose key-port command is aborted (Table 06.14). -/
def zeroizeDo (s : State) : State :=
  let ends := s.pool.txns.filter zeroizeEnds
  let drain := decide (s.pwr.phase = .draining)
  let disc := if drain then ends.length else 0
  zeroizeWork ends (keysErased drain disc (s.keys.slots.filter (fun e => e.2.matA.isSome || e.2.matB.isSome)).length
    (zeroizeCounted disc s))

/-- ZEROIZE_QUALIFY in two parts: the key-port command of its cycle is aborted, then keys are erased and work ends. -/
theorem doZeroizeQualify_eq {s : State} (hq : s.keys.zer.lowQual = false) (hr : s.clk.running = true) :
    doZeroizeQualify s = zeroizeDo (kpAbort s) := by
  unfold doZeroizeQualify
  rw [hq, hr]
  rw [if_neg (by decide)]
  rfl

theorem doZeroizeQualify_idle {s : State} (h : s.keys.zer.lowQual = true ∨ s.clk.running = false) :
    doZeroizeQualify s = s := by
  unfold doZeroizeQualify
  rw [if_pos h]

/-- What the undoing of a key-port command leaves standing: `zeroized` and the erase it shows go back together (R388). -/
theorem kpUndo_stood (opc : Nat) (l : KpLast) (s : State) :
    (kpUndo opc l s).stood = s.stood ∨ (kpUndo opc l s).stood = (s.pins.pinOe, s.pins.persistOk, l.high, s.pwr.phase,
      s.pwr.stage, { s.keys.zer with erased := l.high }, s.keys.debugLock) := by
  unfold kpUndo
  split
  · exact .inr rfl
  · refine .inl ?_
    rw [slotPut_stood]
    split <;> rfl
  · exact .inl rfl
  · exact .inl rfl

/-- What the abort of a key-port command leaves standing. -/
theorem kpAbort_stood (s : State) :
    (kpAbort s).stood = s.stood ∨ ∃ high, (kpAbort s).stood = (s.pins.pinOe, s.pins.persistOk, high, s.pwr.phase,
      s.pwr.stage, { s.keys.zer with erased := high }, s.keys.debugLock) := by
  unfold kpAbort
  split
  · next l r _ _ =>
    split
    · rw [kpRefuse_stood, regPut_stood]
      exact (kpUndo_stood r.opc.toNat l s).imp_right fun h => ⟨_, h⟩
    · exact .inl rfl
  · exact .inl rfl

theorem keysErased_stood (drain : Bool) (disc n : Nat) (s : State) :
    (keysErased drain disc n s).stood = (s.pins.pinOe, s.pins.persistOk, s.pins.zeroized, s.pwr.phase, s.pwr.stage,
      { lowQual := true, erasing := true, erased := s.keys.zer.erased, returned := none, discards := disc,
        slotsErased := n, drainRan := drain }, s.keys.debugLock) := by
  unfold keysErased
  dsimp only
  generalize hu : List.foldl _ _ _ = u
  have stood : u.stood = s.stood := by rw [← hu, foldl_stood _ fun s k => slotZeroize_stood k s]
  obtain ⟨oe, ok, zeroized, phase, stage, zer, lock⟩ := stood_iff.1 stood
  rw [stood_mk, oe, ok, zeroized, phase, stage, zer, lock]

theorem zeroizeWork_stood (ends : List Txn) (s : State) : (zeroizeWork ends s).stood = s.stood := by
  unfold zeroizeWork
  rw [drainPoll_stood, ctxSuspendAll_stood, stood_mk, stood_eta, foldl_stood _ zeroizeTxn_stood]

/-- The erase itself leaves the pins and the power stages. -/
theorem zeroizeDo_stood (s : State) :
    ∃ z, (zeroizeDo s).stood =
      (s.pins.pinOe, s.pins.persistOk, s.pins.zeroized, s.pwr.phase, s.pwr.stage, z, s.keys.debugLock) ∧
      z.lowQual = true ∧ z.erasing = true ∧ z.erased = s.keys.zer.erased ∧ z.returned = none := by
  unfold zeroizeDo
  dsimp only
  rw [zeroizeWork_stood, keysErased_stood]
  generalize hu : zeroizeCounted _ s = u
  have stood : u.stood = s.stood := by rw [← hu, zeroizeCounted, countUp_stood, count1_stood]
  obtain ⟨oe, ok, zeroized, phase, stage, zer, lock⟩ := stood_iff.1 stood
  rw [oe, ok, zeroized, phase, stage, zer, lock]
  exact ⟨_, rfl, rfl, rfl, rfl, rfl⟩

/-- LOAD_KEK lets `zeroized` fall with the erase that it shows, or leaves both (R138). -/
theorem doLoadKek_stood (k : KpCmd) (s : State) :
    (doLoadKek k s).stood = s.stood ∨ (doLoadKek k s).stood = (s.pins.pinOe, s.pins.persistOk, false, s.pwr.phase,
      s.pwr.stage, { s.keys.zer with erased := false }, s.keys.debugLock) := by
  unfold doLoadKek
  split
  · exact .inl (kpEarlyDo_stood ..)
  · split
    · exact .inl (kpRefuse_stood ..)
    · exact .inr (kpDone_stood ..)

-- The invariant

/-- The invariant after a step that leaves what is kept, from what it leaves standing. -/
theorem State.Inv.of_stood {s t : State} {oe ok z lock : Bool} {ph : PwrPhase} {st : StartStage} {zer : Zeroize}
    (h : s.Inv) (hk : t.kept = s.kept) (hs : t.stood = (oe, ok, z, ph, st, zer, lock))
    (hoe : oe = decide (st ≠ .fuse)) (hok : ok = decide (ph = .parked)) (hz : z = zer.erased)
    (hst : s.clk.running = false → st = .fuse) : t.Inv := by
  unfold State.stood at hs
  simp only [Prod.mk.injEq] at hs
  obtain ⟨h1, h2, h3, h4, h5, h6, -⟩ := hs
  exact ⟨nv_of_kept hk ▸ h.nvCanonical, clk_of_kept hk ▸ h.cycleInFrame, by rw [h2, h4, hok], by rw [h1, h5, hoe],
    by rw [h3, h6, hz], fun hr => h5.trans (hst (clk_of_kept hk ▸ hr))⟩

/-- The invariant after a step that leaves what has stood and moves the clock of the kept alone. -/
theorem State.Inv.of_moved {s t : State} {k : Clk} (h : s.Inv) (hk : t.kept = (s.pending, s.nv, k))
    (hs : t.stood = s.stood) (hcycle : k.cycle ≤ 1023) (hrun : k.running = false → s.clk.running = false) : t.Inv := by
  have nv : t.nv = s.nv := congrArg (fun k => k.2.1) hk
  have clk : t.clk = k := congrArg (fun k => k.2.2) hk
  obtain ⟨oe, ok, zeroized, phase, stage, zer, -⟩ := stood_iff.1 hs
  exact ⟨nv ▸ h.nvCanonical, clk ▸ hcycle, by rw [ok, phase]; exact h.persistOkIsParked,
    by rw [oe, stage]; exact h.pinOeAfterFuses, by rw [zeroized, zer]; exact h.zeroizedIsErased,
    fun stopped => stage.trans (h.stoppedIsUnstarted (hrun (clk ▸ stopped)))⟩

end Sys2Proof.Machine

namespace Sys2Proof.Machine

-- Each step that moves a stage keeps the invariant

theorem doReset_inv {s : State} (por : Bool) (h : s.Inv) : (doReset por s).Inv := by
  refine ⟨?_, Nat.zero_le _, rfl, rfl, rfl, fun _ => rfl⟩
  show tabWf 0#8 (match s.nvu.page with
    | some p => if p.reading then s.nv else nvApply p s.nv
    | none => s.nv) = true
  split
  · split
    · exact h.nvCanonical
    · exact nvApply_wf _ _ h.nvCanonical
  · exact h.nvCanonical

theorem doResetRelease_stood (por b : Bool) (s : State) :
    (doResetRelease por b s).stood = if s.clk.running then s.stood else (s.pins.pinOe, s.pins.persistOk, s.pins.zeroized,
      s.pwr.phase, .fuse, s.keys.zer, s.keys.debugLock) := by
  unfold doResetRelease
  dsimp only
  rw [apply_ite State.stood, apply_ite State.stood, modeSend_stood]
  simp only [stood_mk, ite_self]

theorem doResetRelease_inv {s : State} (por b : Bool) (h : s.Inv) : (doResetRelease por b s).Inv := by
  have kept := doResetRelease_kept por b s
  have stood := doResetRelease_stood por b s
  cases running : s.clk.running with
  | true =>
    rw [running, if_pos rfl] at kept stood
    exact h.of_same kept stood
  | false =>
    rw [running, if_neg (by decide)] at kept stood
    rw [← h.stoppedIsUnstarted running] at stood
    exact h.of_moved kept stood (Nat.zero_le _) (fun stopped => nomatch stopped)

theorem doFuseLoadDone_inv {s : State} (img : FuseImage) (h : s.Inv) : (doFuseLoadDone img s).Inv := by
  have stood := doFuseLoadDone_stood img s
  split at stood
  · next due =>
    exact h.of_stood (doFuseLoadDone_kept img s) stood rfl h.persistOkIsParked h.zeroizedIsErased
      fun stopped => absurd due.1 (by rw [stopped]; decide)
  · exact h.of_same (doFuseLoadDone_kept img s) stood

theorem doBistDone_inv {s : State} (fails : List BistFail) (h : s.Inv) : (doBistDone fails s).Inv := by
  have stood := doBistDone_stood fails s
  split at stood
  · next due =>
    have oe := h.pinOeAfterFuses
    rw [due.2] at oe
    exact h.of_stood (doBistDone_kept fails s) stood oe h.persistOkIsParked h.zeroizedIsErased
      fun stopped => absurd due.1 (by rw [stopped]; decide)
  · exact h.of_same (doBistDone_kept fails s) stood

theorem doRecoveryDone_inv {s : State} (h : s.Inv) : (doRecoveryDone s).Inv := by
  have stood := doRecoveryDone_stood s
  split at stood
  · next due =>
    have oe := h.pinOeAfterFuses
    rw [due.1] at oe
    exact h.of_stood (doRecoveryDone_kept s) stood oe h.persistOkIsParked h.zeroizedIsErased
      fun stopped => absurd (h.stoppedIsUnstarted stopped) (by rw [due.1]; decide)
  · exact h.of_same (doRecoveryDone_kept s) stood

theorem doDrainComplete_inv {s : State} (h : s.Inv) : (doDrainComplete s).Inv := by
  have stood := doDrainComplete_stood s
  split at stood
  · exact h.of_stood (doDrainComplete_kept s) stood h.pinOeAfterFuses rfl h.zeroizedIsErased h.stoppedIsUnstarted
  · exact h.of_same (doDrainComplete_kept s) stood

theorem doPwrWarnQualify_inv {s : State} (h : s.Inv) : (doPwrWarnQualify s).Inv := by
  have stood := doPwrWarnQualify_stood s
  split at stood
  · next due =>
    have ok := h.persistOkIsParked
    rw [due.1] at ok
    exact h.of_stood (doPwrWarnQualify_kept s) stood h.pinOeAfterFuses ok h.zeroizedIsErased h.stoppedIsUnstarted
  · exact h.of_same (doPwrWarnQualify_kept s) stood

theorem doResume_inv {s : State} (h : s.Inv) : (doResume s).Inv := by
  have stood := doResume_stood s
  split at stood
  · exact h.of_stood (doResume_kept s) stood h.pinOeAfterFuses rfl h.zeroizedIsErased h.stoppedIsUnstarted
  · exact h.of_same (doResume_kept s) stood

theorem kpAbort_inv {s : State} (h : s.Inv) : (kpAbort s).Inv := by
  rcases kpAbort_stood s with stood | ⟨high, stood⟩
  · exact h.of_same (kpAbort_kept s) stood
  · exact h.of_stood (kpAbort_kept s) stood h.pinOeAfterFuses h.persistOkIsParked rfl h.stoppedIsUnstarted

theorem doZeroizeQualify_inv {s : State} (h : s.Inv) : (doZeroizeQualify s).Inv := by
  by_cases idle : s.keys.zer.lowQual = true ∨ s.clk.running = false
  · rwa [doZeroizeQualify_idle idle]
  · have kept := doZeroizeQualify_kept s
    simp only [not_or, Bool.not_eq_true, Bool.not_eq_false] at idle
    have aborted := kpAbort_inv h
    rw [doZeroizeQualify_eq idle.1 idle.2] at kept ⊢
    obtain ⟨z, stood, -, -, erased, -⟩ := zeroizeDo_stood (kpAbort s)
    exact aborted.of_stood (kept.trans (kpAbort_kept s).symm) stood aborted.pinOeAfterFuses aborted.persistOkIsParked
      (aborted.zeroizedIsErased.trans erased.symm) aborted.stoppedIsUnstarted

theorem doZeroizeDone_stood (s : State) :
    (doZeroizeDone s).stood = if s.keys.zer.erasing then (s.pins.pinOe, s.pins.persistOk, true, s.pwr.phase, s.pwr.stage,
      { s.keys.zer with erasing := false, erased := true }, s.keys.debugLock) else s.stood := by
  unfold doZeroizeDone
  dsimp only
  rw [apply_ite State.stood, raise_stood, stood_mk]

theorem doZeroizeDone_inv {s : State} (h : s.Inv) : (doZeroizeDone s).Inv := by
  have stood := doZeroizeDone_stood s
  split at stood
  · exact h.of_stood (doZeroizeDone_kept s) stood h.pinOeAfterFuses h.persistOkIsParked rfl h.stoppedIsUnstarted
  · exact h.of_same (doZeroizeDone_kept s) stood

theorem doZeroizeReturn_inv {s : State} (h : s.Inv) : (doZeroizeReturn s).Inv := by
  unfold doZeroizeReturn
  split
  · exact ⟨h.nvCanonical, h.cycleInFrame, h.persistOkIsParked, h.pinOeAfterFuses, h.zeroizedIsErased, h.stoppedIsUnstarted⟩
  · exact h

theorem doHoldoffEnd_inv {s : State} (h : s.Inv) : (doHoldoffEnd s).Inv := by
  unfold doHoldoffEnd
  split
  · exact h
  · split
    · exact ⟨h.nvCanonical, h.cycleInFrame, h.persistOkIsParked, h.pinOeAfterFuses, h.zeroizedIsErased, h.stoppedIsUnstarted⟩
    · exact h

theorem doDebugLockBlown_inv {s : State} (h : s.Inv) : (doDebugLockBlown s).Inv :=
  ⟨h.nvCanonical, h.cycleInFrame, h.persistOkIsParked, h.pinOeAfterFuses, h.zeroizedIsErased, h.stoppedIsUnstarted⟩

theorem doLoadKek_inv {s : State} (k : KpCmd) (h : s.Inv) : (doLoadKek k s).Inv := by
  rcases doLoadKek_stood k s with stood | stood
  · exact h.of_same (doLoadKek_kept k s) stood
  · exact h.of_stood (doLoadKek_kept k s) stood h.pinOeAfterFuses h.persistOkIsParked rfl h.stoppedIsUnstarted

theorem doNvPageDone_inv {s : State} (err : Bool) (h : s.Inv) : (doNvPageDone err s).Inv := by
  obtain ⟨-, clk, canonical⟩ := doNvPageDone_keeps err s
  obtain ⟨oe, ok, zeroized, phase, stage, zer, -⟩ := stood_iff.1 (doNvPageDone_stood err s)
  exact ⟨canonical h.nvCanonical, clk ▸ h.cycleInFrame, by rw [ok, phase]; exact h.persistOkIsParked,
    by rw [oe, stage]; exact h.pinOeAfterFuses, by rw [zeroized, zer]; exact h.zeroizedIsErased,
    by rw [clk, stage]; exact h.stoppedIsUnstarted⟩

end Sys2Proof.Machine

namespace Sys2Proof.Machine

theorem exec_recoveryDone_inv {s : State} (h : s.Inv) : (rkSchedule (doRecoveryDone s)).Inv :=
  (doRecoveryDone_inv h).of_same (rkSchedule_kept _) (rkSchedule_stood _)

/-- A clock that a command moves stays in its frame and is not stopped. -/
theorem ClkMoves.inFrame {c : Instr} {k l : Clk} (h : ClkMoves c k l) (hk : k.cycle ≤ 1023) :
    l.cycle ≤ 1023 ∧ (l.running = false → k.running = false) := by
  cases c
  case resetRelease => rcases h with rfl | rfl <;> simp [hk]
  case frameStrobe => rcases h with rfl | rfl <;> simp [hk]
  case frameEnd | commitSample | commitDeferLimit =>
    obtain ⟨n, rfl, le⟩ := h
    exact ⟨le hk, id⟩
  all_goals
    obtain rfl : _ = _ := h
    exact ⟨hk, id⟩

/-- Every command keeps the invariant: those that move a stage by the lemma of each, the others because they leave what it
speaks of and move the clock within its frame. -/
theorem exec_inv {c : Instr} {s t : State} (h : s.Inv) (hx : exec c s = .next t) : t.Inv := by
  cases moves : movesStood c with
  | false =>
    by_cases hn : ∃ e, c = .nvPageDone e
    · obtain ⟨e, rfl⟩ := hn
      exact Host.Outcome.next.inj hx ▸ doNvPageDone_inv e h
    · obtain ⟨k, kept, clk⟩ := exec_moves hx (by rintro p rfl; cases moves) fun e hc => hn ⟨e, hc⟩
      obtain ⟨cycle, running⟩ := clk.inFrame h.cycleInFrame
      exact h.of_moved kept (exec_stood hx moves) cycle running
  | true =>
    cases c
    case reset p => exact Host.Outcome.next.inj hx ▸ doReset_inv p h
    case resetRelease p b => exact Host.Outcome.next.inj hx ▸ doResetRelease_inv p b h
    case fuseLoadDone img => exact Host.Outcome.next.inj hx ▸ doFuseLoadDone_inv img h
    case bistDone fails => exact Host.Outcome.next.inj hx ▸ doBistDone_inv fails h
    case recoveryDone => exact Host.Outcome.next.inj hx ▸ exec_recoveryDone_inv h
    case pwrWarnQualify => exact Host.Outcome.next.inj hx ▸ doPwrWarnQualify_inv h
    case drainComplete => exact Host.Outcome.next.inj hx ▸ doDrainComplete_inv h
    case resume => exact Host.Outcome.next.inj hx ▸ doResume_inv h
    case zeroizeQualify => exact Host.Outcome.next.inj hx ▸ doZeroizeQualify_inv h
    case zeroizeDone => exact Host.Outcome.next.inj hx ▸ doZeroizeDone_inv h
    case zeroizeReturn => exact Host.Outcome.next.inj hx ▸ doZeroizeReturn_inv h
    case holdoffEnd => exact Host.Outcome.next.inj hx ▸ doHoldoffEnd_inv h
    case debugLockBlown => exact Host.Outcome.next.inj hx ▸ doDebugLockBlown_inv h
    case loadKek k => exact Host.Outcome.next.inj hx ▸ doLoadKek_inv k h
    all_goals cases moves

/-- A cycle of the clock moves the clock alone among the kept. -/
theorem doTick_kept (s : State) :
    (doTick s).kept = if s.clk.running then (s.pending, s.nv, { s.clk with cycle := max (min 1023 (s.clk.cycle + 1)) s.clk.cycle })
      else s.kept := by
  unfold doTick
  rw [apply_ite State.kept, cyclesTo_kept]

/-- A cycle of the clock keeps the invariant. -/
theorem doTick_inv {s : State} (h : s.Inv) : (doTick s).Inv := by
  have kept := doTick_kept s
  split at kept
  · have cycle := h.cycleInFrame
    exact h.of_moved kept (doTick_stood s) (by dsimp only; omega) id
  · exact h.of_same kept (doTick_stood s)

/-- The invariant does not speak of the queue. -/
theorem State.Inv.pending {s : State} (q : List Instr) (h : s.Inv) : ({ s with pending := q } : State).Inv :=
  ⟨h.nvCanonical, h.cycleInFrame, h.persistOkIsParked, h.pinOeAfterFuses, h.zeroizedIsErased, h.stoppedIsUnstarted⟩

end Sys2Proof.Machine

namespace Sys2Proof
open Sys2Proof.Machine

/-- Settles O1: the definition of a step at a queue that is not empty. -/
theorem stepRunsFrontCommand : Obligations.StepRunsFrontCommand := by
  unfold Obligations.StepRunsFrontCommand
  intro c rest s h
  unfold step
  rw [h]

/-- Settles O2: a tick moves the clock by one cycle, up to the last of the frame, and leaves the queue. -/
theorem stepTicksWhenQueueIsEmpty : Obligations.StepTicksWhenQueueIsEmpty := by
  unfold Obligations.StepTicksWhenQueueIsEmpty
  intro s empty
  have ticks : step s = .next (doTick s) := by
    unfold step
    rw [empty]
  have kept := doTick_kept s
  cases running : s.clk.running with
  | false => exact ⟨s, by rw [ticks, doTick, running]; rfl, empty, running, rfl, fun _ => rfl, nofun⟩
  | true =>
    rw [running, if_pos rfl] at kept
    have clk : (doTick s).clk = _ := congrArg (fun k => k.2.2) kept
    refine ⟨doTick s, ticks, (congrArg (fun k => k.1) kept).trans empty, by rw [clk, running], by rw [clk], nofun, ?_⟩
    intro _ cycle
    rw [clk]
    dsimp only
    omega

/-- Settles O3: the reset state is the blank one, field by field. -/
theorem resetStateIsBlank : Obligations.ResetStateIsBlank := by
  unfold Obligations.ResetStateIsBlank
  exact ⟨rfl, rfl, rfl, rfl, rfl, fun _ => rfl, fun _ _ _ => rfl, rfl, rfl, rfl, fun _ => rfl, fun _ => rfl, rfl, rfl, rfl,
    rfl, rfl, rfl, fun _ => rfl⟩

/-- Settles O4: the blank NV store is canonical, the clock stands in cycle 0, and no pin and no stage has moved. -/
theorem invariantHoldsAtReset : Obligations.InvariantHoldsAtReset := by
  unfold Obligations.InvariantHoldsAtReset
  exact ⟨rfl, Nat.zero_le _, rfl, rfl, rfl, fun _ => rfl⟩

/-- Settles O5: the commands that move a part of the invariant keep it one by one, the others leave what it speaks of. -/
theorem everyStepKeepsInvariant : Obligations.EveryStepKeepsInvariant := by
  unfold Obligations.EveryStepKeepsInvariant
  intro s t h hstep
  unfold step at hstep
  split at hstep
  · exact Host.Outcome.next.inj hstep ▸ doTick_inv h
  · exact exec_inv (h.pending _) hstep

/-- Settles O6: a frame of every command. -/
theorem commandsLeaveTheQueue : Obligations.CommandsLeaveTheQueue := by
  unfold Obligations.CommandsLeaveTheQueue
  exact fun _ _ _ h => exec_pending h

/-- Settles O7: every command but NV_PAGE_DONE and RESET leaves the NV store whole. -/
theorem nvStoreIsWrittenByPageCommits : Obligations.NvStoreIsWrittenByPageCommits := by
  unfold Obligations.NvStoreIsWrittenByPageCommits
  intro c s t h hn hr a
  obtain ⟨k, kept, -⟩ := exec_moves h hr hn
  have nv : t.nv = s.nv := congrArg (fun k => k.2.1) kept
  unfold nvByteOf
  rw [nv]

end Sys2Proof

namespace Sys2Proof.Machine

-- Sessions, the window and the keys

/-- The commands that write a session, the window's registers, the KEK or a management key. -/
def movesOwned (c : Instr) : Bool :=
  isMessage c || isWindow c ||
    match c with
    | .reset _ | .zeroizeQualify | .loadKek _ | .loadMgmtKey _ => true
    | _ => false

theorem exec_owned {c : Instr} {s t : State} (h : exec c s = .next t) (hc : movesOwned c = false) :
    t.owned = s.owned := by
  cases c
  case reset | zeroizeQualify | loadKek | loadMgmtKey | read | write | readRow | writeRow | commit | abort | subscribe
    | recorderClear | windowWrite | wideValueRead | rwsWrite | commitReq | abortReq | activate | discard | retire
    | rekeyReq | tagCacheFlush | jackPrefill | jackInvalidate | linkReset | mpFlush | masterReset | alertAck
    | iqFlush => cases hc
  all_goals
    obtain rfl := Host.Outcome.next.inj h
    simp only [apply_ite State.owned, ite_self,
      ctxSuspendAbsent_owned, doAccepted_owned, doAckTimer_owned, doBistDone_owned, doCommitApply_owned,
      doCommitDeferLimit_owned, doCommitPrepared_owned, doCommitSample_owned, doCopyBackDone_owned,
      doCreditReturn_owned, doDebugLockBlown_owned, doDigestRefreshDone_owned, doDrainComplete_owned,
      doDrainLate_owned, doEraseSlot_owned, doEventMessage_owned, doFenceComplete_owned, doFgReadGrant_owned,
      doFgWriteGrant_owned, doFlitTransmit_owned, doFlushPersist_owned, doFormatComplete_owned,
      doFrameEnd_owned, doFrameStrobe_owned, doFuseLoadDone_owned, doGrantHoldExpiry_owned, doHbLost_owned,
      doHeartbeatDue_owned, doHoldoffEnd_owned, doLineArrival_owned, doLoadKey_owned, doLockGained_owned,
      doLockLost_owned, doLookaheadProbe_owned, doMediaHandshake_owned, doMpStall_owned, doNvPageDone_owned,
      doNvReadDone_owned, doPartialReadGrant_owned, doPartialWriteGrant_owned, doPersistTimeout_owned,
      doPersisted_owned, doPoolSweepPass_owned, doPrefillProbe_owned, doPurgeComplete_owned,
      doPwrWarnQualify_owned, doPwrWarnReturn_owned, doPwrWarnShortPulse_owned, doQueryKcv_owned,
      doRateChange_owned, doReadTimeout_owned, doRecOnlineChange_owned, doRecorderAccept_owned,
      doRecorderClearAck_owned, doRecoveryDone_owned, doRekeyComplete_owned, doRekeyPassStart_owned,
      doRekeyStepWrite_owned, doRekeyStep_owned, doRekeyTake_owned, doReplayTimer_owned, doResetRelease_owned,
      doResume_owned, doResyncDone_owned, doResyncSend_owned, doRowRepair_owned, doRxAckOnly_owned,
      doRxBadFlit_owned, doRxDataFlit_owned, doRxDown_owned, doRxHeartbeat_owned, doRxIdle_owned,
      doRxParamConfirm_owned, doRxParamOffer_owned, doRxReservedType_owned, doSidecarArrival_owned,
      doSidecarProbe_owned, doStageBreakable_owned, doStartupImageApply_owned, doTLosExpiry_owned,
      doTNegExpiry_owned, doTagWriteback_owned, doTaglineArrival_owned, doTaglineFetch_owned,
      doTransferError_owned, doZeroizeDone_owned, doZeroizeReturn_owned, doZeroizeShortPulse_owned,
      drainPoll_owned, fenceReceive_owned, reqReceive_owned, rkPoll_owned, rkSchedule_owned, schkCmd_owned,
      tagMakeRoom_owned, voteCmd_owned]

/-- What owned holds, part by part. -/
theorem owned_iff {s t : State} : t.owned = s.owned ↔
    t.sessions = s.sessions ∧ t.winL = s.winL ∧ t.winD = s.winD ∧ t.winOut = s.winOut ∧ t.keys.kek = s.keys.kek ∧
      t.keys.mks = s.keys.mks := by
  unfold State.owned
  simp only [Prod.mk.injEq]

/-- A message that is received leaves the window and the keys, where its effect does. -/
theorem msgReceive_owned {own : Nat} {h : MsgHdr} {body : List Byte} {go : State → State}
    (hgo : ∀ s, (go s).owned = s.owned) (s : State) : (msgReceive own h body go s).owned.2 = s.owned.2 := by
  unfold msgReceive
  dsimp only
  split
  · rfl
  · split
    · rw [msgDrop_owned]
    · split
      · rw [msgAnswer_owned]
      · split
        · rw [msgAnswer_owned]
        · split
          · rw [hgo, ownerSeen_owned]; rfl
          · rw [msgAnswer_owned, ownerSeen_owned]; rfl

/-- A message changes sessions alone among the owned. -/
theorem exec_message_owned {c : Instr} {s t : State} (h : exec c s = .next t) (hc : isMessage c = true) :
    t.owned.2 = s.owned.2 := by
  cases c
  case read m b => exact Host.Outcome.next.inj h ▸ msgReceive_owned (readBody_owned m b) s
  case write m b => exact Host.Outcome.next.inj h ▸ msgReceive_owned (writeBody_owned m b) s
  case readRow m b => exact Host.Outcome.next.inj h ▸ msgReceive_owned (readRowBody_owned m b) s
  case writeRow m b => exact Host.Outcome.next.inj h ▸ msgReceive_owned (writeRowBody_owned m b) s
  case commit m b => exact Host.Outcome.next.inj h ▸ msgReceive_owned (commitBody_owned m b) s
  case abort m b => exact Host.Outcome.next.inj h ▸ msgReceive_owned (abortMsg_owned m b) s
  case subscribe m b => exact Host.Outcome.next.inj h ▸ msgReceive_owned (subscribeBody_owned m b) s
  case recorderClear m v => exact Host.Outcome.next.inj h ▸ msgReceive_owned (writeBody_owned m (clearBody v)) s
  all_goals cases hc

/-- The sessions, the KEK and the management keys. -/
def State.keyed (s : State) : Tab Session × Option Key × Tab Key := (s.sessions, s.keys.kek, s.keys.mks)

theorem keyed_of_owned {s t : State} (h : t.owned = s.owned) : t.keyed = s.keyed := by
  obtain ⟨sessions, -, -, -, kek, mks⟩ := owned_iff.1 h
  unfold State.keyed
  rw [sessions, kek, mks]

theorem winPut_keyed (dbg : Bool) (x : WinClass) (s : State) : (winPut dbg x s).keyed = s.keyed := by
  unfold winPut
  split <;> rfl

theorem winAck_keyed (err : Bool) (v : Nat) (s : State) : (winAck err v s).keyed = s.keyed := rfl

theorem winRefuse_keyed (dbg : Bool) (addr : Nat) (rc : Byte) (s : State) : (winRefuse dbg addr rc s).keyed = s.keyed := by
  unfold winRefuse
  rw [winAck_keyed, winPut_keyed]

theorem winDone_keyed (dbg : Bool) (addr : Nat) (r : Byte × State) : (winDone dbg addr r).keyed = r.2.keyed := by
  unfold winDone
  split
  · rfl
  · exact winRefuse_keyed ..

theorem winAccess_keyed {dbg : Bool} {go : State → State} (hgo : ∀ s, (go s).keyed = s.keyed) (s : State) :
    (winAccess dbg go s).keyed = s.keyed := by
  unfold winAccess
  split
  · rfl
  · split
    · rfl
    · rw [hgo, keyed_of_owned (ownerSeen_owned ..)]

theorem winWrite_keyed (dbg : Bool) (addr v : Nat) (s : State) : (winWrite dbg addr v s).2.keyed = s.keyed := by
  unfold winWrite rowSelWrite winRegWrite
  dsimp only
  split
  · (repeat' split) <;> simp only [winPut_keyed]
  · split
    · rfl
    · split
      · (repeat' split) <;> simp only [winPut_keyed]
      · exact keyed_of_owned (objWrite_owned ..)

theorem doWindowWrite_keyed (a : WinAcc) (v : Nat) (s : State) : (doWindowWrite a v s).keyed = s.keyed :=
  winAccess_keyed (fun s => by
    split
    · exact winRefuse_keyed ..
    · rw [winDone_keyed, winWrite_keyed]) s

theorem doWideValueRead_keyed (a : WinAcc) (s : State) : (doWideValueRead a s).keyed = s.keyed :=
  winAccess_keyed (fun s => by
    split
    · exact winRefuse_keyed ..
    · split
      · exact winRefuse_keyed ..
      · next read =>
        rw [winAck_keyed, winPut_keyed, keyed_of_owned (winRead_owned _ _ _ read)]) s

theorem winCmd_keyed (dbg : Bool) (idx sub row v : Nat) (s : State) : (winCmd dbg idx sub row v s).keyed = s.keyed :=
  winAccess_keyed (fun s => by rw [winDone_keyed, keyed_of_owned (dictWrite_owned ..)]) s

/-- An access of the window leaves the sessions and the keys. -/
theorem exec_window_keyed {c : Instr} {s t : State} (h : exec c s = .next t) (hc : isWindow c = true) :
    t.keyed = s.keyed := by
  cases c
  case windowWrite a v => exact Host.Outcome.next.inj h ▸ doWindowWrite_keyed a v.toNat s
  case rwsWrite a v => exact Host.Outcome.next.inj h ▸ doWindowWrite_keyed a v.toNat s
  case wideValueRead a => exact Host.Outcome.next.inj h ▸ doWideValueRead_keyed a s
  case commitReq | abortReq | activate | discard | retire | rekeyReq | tagCacheFlush | jackPrefill | jackInvalidate
    | linkReset | mpFlush | masterReset | alertAck | iqFlush => exact Host.Outcome.next.inj h ▸ winCmd_keyed ..
  all_goals cases hc

/-- LOAD_KEK changes the KEK alone among the owned. -/
theorem doLoadKek_owned (k : KpCmd) (s : State) : ∃ kek, (doLoadKek k s).owned =
    (s.sessions, s.winL, s.winD, s.winOut, kek, s.keys.mks) := by
  unfold doLoadKek
  split
  · exact ⟨_, kpEarlyDo_owned ..⟩
  · split
    · exact ⟨_, kpRefuse_owned ..⟩
    · exact ⟨_, kpDone_owned ..⟩

/-- LOAD_MGMT_KEY changes the sessions and the management keys alone among the owned. -/
theorem doLoadMgmtKey_owned (k : KpCmd) (s : State) : ∃ ss mks, (doLoadMgmtKey k s).owned =
    (ss, s.winL, s.winD, s.winOut, s.keys.kek, mks) := by
  unfold doLoadMgmtKey
  split
  · exact ⟨_, _, kpEarlyDo_owned ..⟩
  · split
    · exact ⟨_, _, kpRefuse_owned ..⟩
    · split
      · exact ⟨_, _, kpRefuse_owned ..⟩
      · exact ⟨_, _, kpDone_owned ..⟩

/-- The abort of a key-port command leaves the window; the sessions too where there is none in this cycle. -/
theorem kpAbort_owned (s : State) : ∃ ss kek, (kpAbort s).owned = (ss, s.winL, s.winD, s.winOut, kek, s.keys.mks) ∧
    ((∀ l, s.keys.kpLast = some l → l.cyc ≠ now s) → ss = s.sessions) := by
  unfold kpAbort
  split
  · next l r last _ =>
    split
    · next same =>
      have undo : ∃ ss kek, (kpUndo r.opc.toNat l s).owned = (ss, s.winL, s.winD, s.winOut, kek, s.keys.mks) := by
        unfold kpUndo
        split
        · exact ⟨_, _, rfl⟩
        · rw [slotPut_owned]
          split <;> exact ⟨_, _, rfl⟩
        · exact ⟨_, _, rfl⟩
        · exact ⟨_, _, rfl⟩
      obtain ⟨ss, kek, undo⟩ := undo
      exact ⟨ss, kek, by rw [kpRefuse_owned, regPut_owned, undo], fun none => absurd same (none l last)⟩
    · exact ⟨_, _, rfl, fun _ => rfl⟩
  · exact ⟨_, _, rfl, fun _ => rfl⟩

/-- The erase itself leaves the sessions and the window, and no key. -/
theorem zeroizeDo_owned (s : State) :
    (zeroizeDo s).owned = (s.sessions, s.winL, s.winD, s.winOut, none, []) := by
  unfold zeroizeDo zeroizeWork keysErased
  dsimp only
  rw [drainPoll_owned, ctxSuspendAll_owned, owned_mk, owned_eta, foldl_owned _ zeroizeTxn_owned, owned_mk]
  generalize hu : List.foldl _ _ _ = u
  have owned : u.owned = s.owned := by
    rw [← hu, foldl_owned _ fun s k => slotZeroize_owned k s, zeroizeCounted, countUp_owned, count1_owned]
  obtain ⟨sessions, l, d, out, -, -⟩ := owned_iff.1 owned
  rw [sessions, l, d, out]

/-- ZEROIZE_QUALIFY leaves the window, and the sessions but for a key-port command that it aborts. -/
theorem doZeroizeQualify_owned (s : State) :
    (doZeroizeQualify s).winL = s.winL ∧ (doZeroizeQualify s).winD = s.winD ∧ (doZeroizeQualify s).winOut = s.winOut ∧
      ((∀ l, s.keys.kpLast = some l → l.cyc ≠ now s) → (doZeroizeQualify s).sessions = s.sessions) := by
  by_cases idle : s.keys.zer.lowQual = true ∨ s.clk.running = false
  · rw [doZeroizeQualify_idle idle]
    exact ⟨rfl, rfl, rfl, fun _ => rfl⟩
  · simp only [not_or, Bool.not_eq_true, Bool.not_eq_false] at idle
    obtain ⟨ss, kek, owned, same⟩ := kpAbort_owned s
    have erased := zeroizeDo_owned (kpAbort s)
    rw [← doZeroizeQualify_eq idle.1 idle.2] at erased
    unfold State.owned at owned erased
    simp only [Prod.mk.injEq] at owned erased
    obtain ⟨sessions, l, d, out, -, -⟩ := owned
    obtain ⟨sessions', l', d', out', -, -⟩ := erased
    exact ⟨l'.trans l, d'.trans d, out'.trans out, fun h => sessions'.trans (sessions.trans (same h))⟩

-- The power phase

/-- The power phase and persist_ok. -/
def State.powered (s : State) : PwrPhase × Bool := (s.pwr.phase, s.pins.persistOk)

theorem powered_of_stood {s t : State} {oe z lock : Bool} {st : StartStage} {zer : Zeroize}
    (h : t.stood = (oe, s.pins.persistOk, z, s.pwr.phase, st, zer, lock)) : t.powered = s.powered := by
  unfold State.stood at h
  simp only [Prod.mk.injEq] at h
  obtain ⟨-, ok, -, phase, -, -, -⟩ := h
  unfold State.powered
  rw [phase, ok]

theorem kpAbort_powered (s : State) : (kpAbort s).powered = s.powered := by
  rcases kpAbort_stood s with stood | ⟨high, stood⟩
  · exact powered_of_stood stood
  · exact powered_of_stood stood

theorem doZeroizeQualify_powered (s : State) : (doZeroizeQualify s).powered = s.powered := by
  by_cases idle : s.keys.zer.lowQual = true ∨ s.clk.running = false
  · rw [doZeroizeQualify_idle idle]
  · simp only [not_or, Bool.not_eq_true, Bool.not_eq_false] at idle
    rw [doZeroizeQualify_eq idle.1 idle.2]
    obtain ⟨z, stood, -⟩ := zeroizeDo_stood (kpAbort s)
    exact (powered_of_stood stood).trans (kpAbort_powered s)

/-- No command but the warning, the end of the drain, the resume and reset moves the power phase or persist_ok. -/
theorem exec_powered {c : Instr} {s t : State} (h : exec c s = .next t) (hq : c ≠ .pwrWarnQualify)
    (hd : c ≠ .drainComplete) (hres : c ≠ .resume) (hr : ∀ p, c ≠ .reset p) : t.powered = s.powered := by
  cases moves : movesStood c with
  | false => exact powered_of_stood (exec_stood h moves)
  | true =>
    cases c
    case reset p => exact absurd rfl (hr p)
    case pwrWarnQualify => exact absurd rfl hq
    case drainComplete => exact absurd rfl hd
    case resume => exact absurd rfl hres
    case resetRelease p b =>
      obtain rfl := Host.Outcome.next.inj h
      have stood := doResetRelease_stood p b s
      split at stood <;> exact powered_of_stood stood
    case fuseLoadDone img =>
      obtain rfl := Host.Outcome.next.inj h
      have stood := doFuseLoadDone_stood img s
      split at stood <;> exact powered_of_stood stood
    case bistDone fails =>
      obtain rfl := Host.Outcome.next.inj h
      have stood := doBistDone_stood fails s
      split at stood <;> exact powered_of_stood stood
    case recoveryDone =>
      obtain rfl := Host.Outcome.next.inj h
      have stood := (rkSchedule_stood (doRecoveryDone s)).trans (doRecoveryDone_stood s)
      split at stood <;> exact powered_of_stood stood
    case zeroizeQualify => exact Host.Outcome.next.inj h ▸ doZeroizeQualify_powered s
    case zeroizeDone =>
      obtain rfl := Host.Outcome.next.inj h
      have stood := doZeroizeDone_stood s
      split at stood <;> exact powered_of_stood stood
    case zeroizeReturn =>
      obtain rfl := Host.Outcome.next.inj h
      unfold doZeroizeReturn
      split <;> rfl
    case holdoffEnd =>
      obtain rfl := Host.Outcome.next.inj h
      unfold doHoldoffEnd
      repeat' split
      all_goals rfl
    case debugLockBlown => exact Host.Outcome.next.inj h ▸ rfl
    case loadKek k =>
      obtain rfl := Host.Outcome.next.inj h
      rcases doLoadKek_stood k s with stood | stood <;> exact powered_of_stood stood
    all_goals cases moves

-- The staging set and the commit unit

theorem exec_settled {c : Instr} {s t : State} (h : exec c s = .next t) (hm : isMessage c = false)
    (hw : isWindow c = false) (hu : isCommitUnit c = false) (hr : ∀ p, c ≠ .reset p) : t.settled = s.settled := by
  cases c
  case reset p => exact absurd rfl (hr p)
  case read | write | readRow | writeRow | commit | abort | subscribe | recorderClear => cases hm
  case windowWrite | wideValueRead | rwsWrite | commitReq | abortReq | activate | discard | retire
    | rekeyReq | tagCacheFlush | jackPrefill | jackInvalidate | linkReset | mpFlush | masterReset | alertAck
    | iqFlush => cases hw
  case pwrWarnQualify | startupImageApply | frameStrobe | commitSample | commitDeferLimit | commitApply | commitPrepared
    | copyBackDone | digestRefreshDone | stageBreakable | debugLockBlown => cases hu
  all_goals
    obtain rfl := Host.Outcome.next.inj h
    simp only [apply_ite State.settled, ite_self,
      ctxSuspendAbsent_settled, doAccepted_settled, doAckTimer_settled, doBistDone_settled,
      doCreditReturn_settled, doDrainComplete_settled, doDrainLate_settled, doEraseSlot_settled,
      doEventMessage_settled, doFenceComplete_settled, doFgReadGrant_settled, doFgWriteGrant_settled,
      doFlitTransmit_settled, doFlushPersist_settled, doFormatComplete_settled, doFrameEnd_settled,
      doFuseLoadDone_settled, doGrantHoldExpiry_settled, doHbLost_settled, doHeartbeatDue_settled,
      doHoldoffEnd_settled, doLineArrival_settled, doLoadKek_settled, doLoadKey_settled, doLoadMgmtKey_settled,
      doLockGained_settled, doLockLost_settled, doLookaheadProbe_settled, doMediaHandshake_settled,
      doMpStall_settled, doNvPageDone_settled, doNvReadDone_settled, doPartialReadGrant_settled,
      doPartialWriteGrant_settled, doPersistTimeout_settled, doPersisted_settled, doPoolSweepPass_settled,
      doPrefillProbe_settled, doPurgeComplete_settled, doPwrWarnReturn_settled, doPwrWarnShortPulse_settled,
      doQueryKcv_settled, doRateChange_settled, doReadTimeout_settled, doRecOnlineChange_settled,
      doRecorderAccept_settled, doRecorderClearAck_settled, doRecoveryDone_settled, doRekeyComplete_settled,
      doRekeyPassStart_settled, doRekeyStepWrite_settled, doRekeyStep_settled, doRekeyTake_settled,
      doReplayTimer_settled, doResetRelease_settled, doResume_settled, doResyncDone_settled,
      doResyncSend_settled, doRowRepair_settled, doRxAckOnly_settled, doRxBadFlit_settled, doRxDataFlit_settled,
      doRxDown_settled, doRxHeartbeat_settled, doRxIdle_settled, doRxParamConfirm_settled,
      doRxParamOffer_settled, doRxReservedType_settled, doSidecarArrival_settled, doSidecarProbe_settled,
      doTLosExpiry_settled, doTNegExpiry_settled, doTagWriteback_settled, doTaglineArrival_settled,
      doTaglineFetch_settled, doTransferError_settled, doZeroizeDone_settled, doZeroizeQualify_settled,
      doZeroizeReturn_settled, doZeroizeShortPulse_settled, drainPoll_settled, fenceReceive_settled,
      reqReceive_settled, rkPoll_settled, rkSchedule_settled, schkCmd_settled, tagMakeRoom_settled,
      voteCmd_settled]

end Sys2Proof.Machine

namespace Sys2Proof
open Sys2Proof.Machine

/-- Settles O8: messages and accesses of the window leave the keys, each load writes its own kind, and the other commands
leave both kinds. -/
theorem keysAreReplacedByLoadsAndZeroization : Obligations.KeysAreReplacedByLoadsAndZeroization := by
  unfold Obligations.KeysAreReplacedByLoadsAndZeroization
  intro c s t h hz hr
  by_cases message : isMessage c = true
  · have owned := exec_message_owned h message
    unfold State.owned at owned
    simp only [Prod.mk.injEq] at owned
    obtain ⟨-, -, -, kek, mks⟩ := owned
    exact ⟨fun _ => kek, fun _ => mks⟩
  by_cases window : isWindow c = true
  · have keyed := exec_window_keyed h window
    unfold State.keyed at keyed
    simp only [Prod.mk.injEq] at keyed
    exact ⟨fun _ => keyed.2.1, fun _ => keyed.2.2⟩
  by_cases hk : ∃ k, c = .loadKek k
  · obtain ⟨k, rfl⟩ := hk
    obtain ⟨kek, owned⟩ := doLoadKek_owned k s
    obtain rfl := Host.Outcome.next.inj h
    unfold State.owned at owned
    simp only [Prod.mk.injEq] at owned
    exact ⟨fun other => absurd rfl (other k), fun _ => owned.2.2.2.2.2⟩
  by_cases hm : ∃ k, c = .loadMgmtKey k
  · obtain ⟨k, rfl⟩ := hm
    obtain ⟨ss, mks, owned⟩ := doLoadMgmtKey_owned k s
    obtain rfl := Host.Outcome.next.inj h
    unfold State.owned at owned
    simp only [Prod.mk.injEq] at owned
    exact ⟨fun _ => owned.2.2.2.2.1, fun other => absurd rfl (other k)⟩
  have others : movesOwned c = false := by
    unfold movesOwned
    rw [Bool.not_eq_true] at message window
    rw [message, window]
    cases c
    case zeroizeQualify => exact absurd rfl hz
    case reset p => exact absurd rfl (hr p)
    case loadKek k => exact absurd ⟨k, rfl⟩ hk
    case loadMgmtKey k => exact absurd ⟨k, rfl⟩ hm
    all_goals rfl
  obtain ⟨-, -, -, -, kek, mks⟩ := owned_iff.1 (exec_owned h others)
  exact ⟨fun _ => kek, fun _ => mks⟩

/-- Settles O9: messages leave the window, accesses of the window the sessions, and the other commands both; the abort of a
key-port command in the cycle of a zeroization is the one writer beside them. -/
theorem sessionsWindowAndStagingHaveTheirWriters : Obligations.SessionsWindowAndStagingHaveTheirWriters := by
  unfold Obligations.SessionsWindowAndStagingHaveTheirWriters
  refine ⟨fun c s t h hr => ?_, fun c s t h hm hw hu hr => Prod.mk.inj (exec_settled h hm hw hu hr)⟩
  by_cases message : isMessage c = true
  · have owned := exec_message_owned h message
    unfold State.owned at owned
    simp only [Prod.mk.injEq] at owned
    obtain ⟨l, d, out, -, -⟩ := owned
    exact ⟨fun none => absurd (message.symm.trans none) (by decide), fun _ => ⟨l, d, out⟩⟩
  by_cases window : isWindow c = true
  · have keyed := exec_window_keyed h window
    exact ⟨fun _ _ _ => congrArg (fun k => k.1) keyed, fun none => absurd (window.symm.trans none) (by decide)⟩
  by_cases hz : c = .zeroizeQualify
  · subst hz
    obtain rfl := Host.Outcome.next.inj h
    obtain ⟨l, d, out, sessions⟩ := doZeroizeQualify_owned s
    exact ⟨fun _ _ none => sessions (none rfl), fun _ => ⟨l, d, out⟩⟩
  by_cases hk : ∃ k, c = .loadKek k
  · obtain ⟨k, rfl⟩ := hk
    obtain ⟨kek, owned⟩ := doLoadKek_owned k s
    obtain rfl := Host.Outcome.next.inj h
    unfold State.owned at owned
    simp only [Prod.mk.injEq] at owned
    obtain ⟨sessions, l, d, out, -, -⟩ := owned
    exact ⟨fun _ _ _ => sessions, fun _ => ⟨l, d, out⟩⟩
  by_cases hm : ∃ k, c = .loadMgmtKey k
  · obtain ⟨k, rfl⟩ := hm
    obtain ⟨ss, mks, owned⟩ := doLoadMgmtKey_owned k s
    obtain rfl := Host.Outcome.next.inj h
    unfold State.owned at owned
    simp only [Prod.mk.injEq] at owned
    obtain ⟨-, l, d, out, -, -⟩ := owned
    exact ⟨fun _ other _ => absurd rfl (other k), fun _ => ⟨l, d, out⟩⟩
  have others : movesOwned c = false := by
    unfold movesOwned
    rw [Bool.not_eq_true] at message window
    rw [message, window]
    cases c
    case zeroizeQualify => exact absurd rfl hz
    case reset p => exact absurd rfl (hr p)
    case loadKek k => exact absurd ⟨k, rfl⟩ hk
    case loadMgmtKey k => exact absurd ⟨k, rfl⟩ hm
    all_goals rfl
  obtain ⟨sessions, l, d, out, -, -⟩ := owned_iff.1 (exec_owned h others)
  exact ⟨fun _ _ _ => sessions, fun _ => ⟨l, d, out⟩⟩

/-- Settles O10: of the clock by the moves of each command, of the power phase by what each leaves standing. -/
theorem frameNumberAndPowerPhaseHaveTheirMovers : Obligations.FrameNumberAndPowerPhaseHaveTheirMovers := by
  unfold Obligations.FrameNumberAndPowerPhaseHaveTheirMovers
  refine ⟨fun c s t h hr hrr => ?_, fun c s t h hq hd hres hr => ?_⟩
  · by_cases hn : ∃ e, c = .nvPageDone e
    · obtain ⟨e, rfl⟩ := hn
      obtain rfl := Host.Outcome.next.inj h
      have clk := (doNvPageDone_keeps e s).2.1
      exact ⟨fun _ => by rw [clk]; exact ⟨rfl, rfl⟩, fun _ _ _ _ => clk⟩
    · obtain ⟨k, kept, clk⟩ := exec_moves h hr fun e he => hn ⟨e, he⟩
      obtain rfl : t.clk = k := congrArg (fun k => k.2.2) kept
      cases c
      case resetRelease p b => exact absurd rfl (hrr p b)
      case frameStrobe => exact ⟨fun other => absurd rfl other, fun other => absurd rfl other⟩
      case frameEnd | commitSample | commitDeferLimit =>
        obtain ⟨n, clk, -⟩ := clk
        exact ⟨fun _ => by rw [clk]; exact ⟨rfl, rfl⟩, by simp⟩
      all_goals
        obtain clk : t.clk = s.clk := clk
        exact ⟨fun _ => by rw [clk]; exact ⟨rfl, rfl⟩, fun _ _ _ _ => clk⟩
  · exact Prod.mk.inj (exec_powered h hq hd hres hr)

end Sys2Proof

namespace Sys2Proof.Machine

/-- A control record changes the event unit alone. -/
theorem ctlSend_frame (code : Nat) (p1 p2 p3 : BitVec 32) (s : State) :
    ctlSend code p1 p2 p3 s = { s with ev := (ctlSend code p1 p2 p3 s).ev } := by
  unfold ctlSend
  dsimp only
  split <;> rfl

theorem modeSend_frame (s : State) : modeSend s = { s with ev := (modeSend s).ev } := ctlSend_frame ..

/-- RESET_RELEASE of a stopped block starts the clock and the fuse load, and may send MODE. -/
theorem doResetRelease_frame (por short : Bool) {s : State} (stopped : s.clk.running = false) :
    doResetRelease por short s =
      { s with clk := { running := true, frame := 0, cycle := 0 }
               pwr := { s.pwr with stage := .fuse, bistShort := if por then short else s.pwr.bistShort }
               ev := (doResetRelease por short s).ev } := by
  unfold doResetRelease
  rw [stopped, if_neg (by decide)]
  generalize (if por = true then short else s.pwr.bistShort) = b
  dsimp only
  split
  · rw [modeSend_frame]
  · rfl

/-- A frame whose last cycle has had its FRAME_END, in its first cycle: the model's own states never stand so. -/
def endedEarly : State := { State.reset with clk := { running := true, frame := 0#56, cycle := 0 }, ev := { ended := true } }

end Sys2Proof.Machine

namespace Sys2Proof
open Sys2Proof.Machine

/-- Settles O11: the parts of the states that RESET and RESET_RELEASE build. -/
theorem resetAndReleaseStartAnew : Obligations.ResetAndReleaseStartAnew := by
  unfold Obligations.ResetAndReleaseStartAnew
  refine ⟨fun por s => ⟨_, rfl, rfl, rfl, rfl, rfl, rfl, rfl, rfl, rfl, rfl, rfl, rfl, rfl, rfl, rfl, rfl, rfl, rfl, rfl,
    rfl, rfl, rfl, rfl, rfl, fun page => ?_⟩, fun por short s stopped => ⟨_, rfl, ?_⟩⟩
  · show (match s.nvu.page with
      | some p => if p.reading then s.nv else nvApply p s.nv
      | none => s.nv) = s.nv
    rw [page]
  · rw [doResetRelease_frame por short stopped]
    exact ⟨rfl, rfl, fun h => if_pos h, rfl, rfl, rfl, rfl, rfl, rfl⟩

/-- Refutes O17: where FRAME_END has come in this frame, a short pulse of zeroize_n is captured at once and counts on its
event source too; the clause on the short pulse lets the event unit and its own counter change alone. -/
theorem not_zeroizationErasesEveryKey : ¬ Obligations.ZeroizationErasesEveryKey := by
  unfold Obligations.ZeroizationErasesEveryKey
  rintro ⟨-, -, -, -, -, pulse, -⟩
  obtain ⟨t, next, same⟩ := pulse endedEarly rfl rfl
  have counts : t = doZeroizeShortPulse endedEarly := (Host.Outcome.next.inj next).symm
  have regs := congrArg (fun t => regVal t 0x4004 0x11 1037) same
  rw [counts] at regs
  exact absurd regs (by decide)

/-- Refutes O13: where FRAME_END has come in this frame, a second one leaves the clock, also before cycle 1,023; the clause
on FRAME_END asks for cycle 1,023 of every running state. -/
theorem not_frameHappeningsMoveTheClock : ¬ Obligations.FrameHappeningsMoveTheClock := by
  unfold Obligations.FrameHappeningsMoveTheClock
  rintro ⟨-, ends, -⟩
  obtain ⟨t, next, clk, -⟩ := ends endedEarly rfl (by decide)
  have same : t = endedEarly := (Host.Outcome.next.inj next).symm
  rw [same] at clk
  exact absurd (congrArg Clk.cycle clk) (by decide)

end Sys2Proof

namespace Sys2Proof.Machine

/-- Bytes of a format entry between SEQ and CRC, of no slot. -/
def fmtFreeRest : List Byte := 0xF1#8 :: List.replicate 12 0#8

/-- A prepared commit that makes an extent of a live CI slot valid, while the two copies of the format entry that the slot
is given are both valid and of one SEQ: a selection between them is reported (R280). -/
def irregularEntry : State :=
  { State.reset with
    keys := { slots := [(1, { st := .active, gen := 1#32 })] }
    cfg := [(okey 0x4000 3 1, 3)]
    staged := [(okey 0x4003 3 4, 1)]
    commit := { phase := .preparing }
    nv := nvWrite 0x3000 (windupCopy 0x3000 1 fmtFreeRest) (nvWrite 0x4000 (windupCopy 0x4000 1 fmtFreeRest) []) }

end Sys2Proof.Machine

namespace Sys2Proof
open Sys2Proof.Machine

/-- Refutes O14: a commit that grows a CI extent asks for a format entry as it is prepared, and the choice of that entry's
copy may be irregular, which counts in NV_IRREGULAR; the clause on COMMIT_PREPARED lets no register change. -/
theorem not_commitsPrepareSampleAndApply : ¬ Obligations.CommitsPrepareSampleAndApply := by
  unfold Obligations.CommitsPrepareSampleAndApply
  rintro ⟨prepares, -⟩
  obtain ⟨t, next, -, -, -, -, regs, -⟩ := prepares irregularEntry rfl
  have prepared : t = doCommitPrepared irregularEntry := (Host.Outcome.next.inj next).symm
  have count : tabGet 0 t.regs (okey 0x6300 6 0) = 0 := by rw [regs]; rfl
  rw [prepared] at count
  exact absurd count (by decide +kernel)

end Sys2Proof

/-! SUPPORT. The key port: what each of its answers changes and counts, and registers that an event leaves alone. -/

namespace Sys2Proof.Machine

-- Registers that an occurrence leaves alone

theorem regVal_congr {s t : State} (h : t.regs = s.regs) (idx sub row : Nat) : regVal t idx sub row = regVal s idx sub row := by
  unfold regVal
  rw [h]

/-- A count leaves every other register alone. -/
theorem regVal_countUp_ne {idx sub row n : Nat} {s : State} {i j r : Nat} (h : okey i j r ≠ okey idx sub row) :
    regVal (countUp idx sub row n s) i j r = regVal s i j r := regVal_regPut_ne _ _ _ _ _ _ _ _ h

theorem regVal_alertSet {route sev : Nat} {s : State} {idx sub row : Nat} (h : okey idx sub row ≠ okey 0x2500 5 0) :
    regVal (alertSet route sev s) idx sub row = regVal s idx sub row := by
  unfold alertSet
  split
  · exact regVal_regPut_ne _ _ _ _ _ _ _ _ h
  · rfl

theorem regVal_srcNote {src code sev : Nat} {b : Bool} {s : State} {idx sub row : Nat}
    (h : ∀ k, k < 256 → okey idx sub row ≠ okey 0x4004 k src) :
    regVal (srcNote src code sev b s) idx sub row = regVal s idx sub row := by
  unfold srcNote
  dsimp only
  refine (regVal_congr (s := regPut 0x4004 0x13 src _ _) rfl _ _ _).trans ?_
  rw [regVal_regPut_ne _ _ _ _ _ _ _ _ (h _ (by decide)), regVal_regPut_ne _ _ _ _ _ _ _ _ (h _ (by decide)),
    regVal_regPut_ne _ _ _ _ _ _ _ _ (h _ (by decide))]
  exact regVal_countUp_ne (h _ (by decide))

/-- An occurrence writes its source's row of the source table and the pending alerts; every other register stays. -/
theorem regVal_raiseSev {e : Ev} {sev src p1 p2 p3 : Nat} {s : State} {idx sub row : Nat} (hsrc : src < 2 ^ 24)
    (hsub : sub < 256) (hrow : row < 2 ^ 24) (hidx : idx ≠ 0x4004) (halert : idx ≠ 0x2500 ∨ sub ≠ 5) :
    regVal (raiseSev e sev src p1 p2 p3 s) idx sub row = regVal s idx sub row := by
  have rowNe : ∀ k, k < 256 → okey idx sub row ≠ okey 0x4004 k src := fun k hk h =>
    hidx ((okey_inj _ _ _ _ _ _ hsub hk hrow hsrc).1 h).1
  have alertNe : okey idx sub row ≠ okey 0x2500 5 0 := fun h => by
    obtain ⟨i, j, -⟩ := (okey_inj _ _ _ _ _ _ hsub (by decide) hrow (by decide)).1 h
    exact halert.elim (· i) (· j)
  unfold raiseSev
  split
  · rfl
  · dsimp only
    generalize hu : srcNote src _ sev _ s = u
    have note : regVal u idx sub row = regVal s idx sub row := by rw [← hu, regVal_srcNote rowNe]
    split
    · rw [regVal_alertSet alertNe]
      exact note
    · exact note

/-- An occurrence of the usual severity leaves the other registers alone. -/
theorem regVal_raise {e : Ev} {src p1 p2 p3 : Nat} {s : State} {idx sub row : Nat} (hsrc : src < 2 ^ 24)
    (hsub : sub < 256) (hrow : row < 2 ^ 24) (hidx : idx ≠ 0x4004) (halert : idx ≠ 0x2500 ∨ sub ≠ 5) :
    regVal (raise e src p1 p2 p3 s) idx sub row = regVal s idx sub row := regVal_raiseSev hsrc hsub hrow hidx halert

-- Answers of the key port

/-- Early checks that pass: the block serves and the fields are in range. -/
theorem kpEarly_none {opc : Nat} {k : KpCmd} {load : Bool} {s : State} (h : kpEarly opc k load s = none) :
    s.pwr.stage = .served ∧ kpFieldsOk opc k = true := by
  unfold kpEarly at h
  split at h
  · cases h
  · next served =>
    split at h
    · cases h
    · next fields => exact ⟨Decidable.not_not.1 served, Bool.not_eq_false _ ▸ fields⟩

/-- Fields in range name no OPC of their own. -/
theorem kpFieldsOk_opc {opc : Nat} {k : KpCmd} (h : kpFieldsOk opc k = true) (b : Byte) : kpOpc b k = b := by
  unfold kpFieldsOk at h
  simp only [Bool.and_eq_true, Option.isNone_iff_eq_none] at h
  obtain ⟨⟨⟨odd, -⟩, -⟩, -⟩ := h
  unfold kpOpc
  rw [odd]
  rfl

theorem kpEarly_opc {opc : Nat} {k : KpCmd} {load : Bool} {s : State} (h : kpEarly opc k load s = none) (b : Byte) :
    kpOpc b k = b := kpFieldsOk_opc (kpEarly_none h).2 b

/-- A refusal changes the answer of the key port, registers and the event unit. -/
theorem kpRefuse_frame (opc : Byte) (k : KpCmd) (res : Byte) (s : State) :
    kpRefuse opc k res s =
      { s with keys := { s.keys with kpRsp := some { opc := kpOpc opc k, seq := k.seq, result := res, kcv := 0#24 }
                                     kpLast := none }
               regs := (kpRefuse opc k res s).regs, ev := (kpRefuse opc k res s).ev } := by
  unfold kpRefuse
  dsimp only
  rw [raise_frame]
  rfl

/-- A refusal is counted. -/
theorem regVal_kpRefuse (opc : Byte) (k : KpCmd) (res : Byte) (s : State) :
    regVal (kpRefuse opc k res s) 0x6060 2 0 = min (regVal s 0x6060 2 0 + 1) (2 ^ 32 - 1) := by
  unfold kpRefuse
  dsimp only
  rw [regVal_raise (by decide) (by decide) (by decide) (by decide) (.inl (by decide)),
    regVal_count1 (by decide) (by decide +kernel)]
  rfl

/-- A command performed changes the answer, what an abort restores, and its count. -/
theorem kpDone_frame (opc : Byte) (k : KpCmd) (v : BitVec 24) (s0 s : State) :
    kpDone opc k v s0 s =
      { s with keys := { s.keys with kpRsp := some { opc := kpOpc opc k, seq := k.seq, result := kpOk, kcv := v }
                                     kpLast := (kpDone opc k v s0 s).keys.kpLast }
               regs := (kpDone opc k v s0 s).regs } := rfl

/-- A command performed is counted. -/
theorem regVal_kpDone (opc : Byte) (k : KpCmd) (v : BitVec 24) (s0 s : State) :
    regVal (kpDone opc k v s0 s) 0x6060 1 0 = min (regVal s 0x6060 1 0 + 1) (2 ^ 32 - 1) := by
  have h : regVal (kpDone opc k v s0 s) 0x6060 1 0 = regVal (count1 0x6060 1 0 (kpRespond opc k kpOk v s)) 0x6060 1 0 := rfl
  rw [h, regVal_count1 (by decide) (by decide +kernel)]
  rfl

end Sys2Proof.Machine

namespace Sys2Proof
open Sys2Proof.Machine

/-- Settles O18: the two ends of LOAD_KEK, and the one of LOAD_MGMT_KEY that loads. -/
theorem kekAndManagementKeysLoad : Obligations.KekAndManagementKeysLoad := by
  unfold Obligations.KekAndManagementKeysLoad
  refine ⟨fun k s early => ⟨fun none => ?_, fun held => ?_⟩, fun k s kek mk early held opens => ?_⟩
  · refine ⟨doLoadKek k s, rfl, ?_⟩
    unfold doLoadKek
    rw [early, none]
    dsimp only
    rw [regVal_kpDone, kpDone_frame, kpEarly_opc early]
    exact ⟨rfl, rfl, rfl, rfl, rfl, rfl, rfl, rfl⟩
  · refine ⟨doLoadKek k s, rfl, ?_⟩
    obtain ⟨kek, held⟩ := Option.ne_none_iff_exists'.1 held
    unfold doLoadKek
    rw [early, held]
    dsimp only
    rw [kpRefuse_frame, kpEarly_opc early]
    exact ⟨rfl, rfl⟩
  · refine ⟨doLoadMgmtKey k s, rfl, ?_⟩
    unfold doLoadMgmtKey
    rw [early, held]
    dsimp only
    rw [opens]
    dsimp only
    rw [kpDone_frame, kpEarly_opc early]
    dsimp only
    refine ⟨?_, fun j other => ⟨?_, ?_, ?_⟩, ?_, ?_, rfl, rfl, rfl⟩
    · rw [tabFind_tabSet, if_pos rfl]
    · rw [tabFind_tabSet, if_neg other]
    · rw [tabGet_tabPut, if_neg other]
    · rw [tabFind_tabDel, if_neg other]
    · rw [tabGet_tabPut, if_pos rfl]
    · rw [tabFind_tabDel, if_pos rfl]

end Sys2Proof

namespace Sys2Proof.Machine

-- LOAD_KEY

theorem slotOf_congr {s t : State} (h : t.keys.slots = s.keys.slots) (k : Nat) : slotOf t k = slotOf s k := by
  unfold slotOf
  rw [h]

@[simp] theorem slotOf_nvPush (j : NvJob) (s : State) (k : Nat) : slotOf (nvPush j s) k = slotOf s k :=
  slotOf_congr (by rw [nvPush_frame]) k

@[simp] theorem slotOf_kpDone (opc : Byte) (k : KpCmd) (v : BitVec 24) (s0 s : State) (j : Nat) :
    slotOf (kpDone opc k v s0 s) j = slotOf s j := rfl

@[simp] theorem slotOf_kpRefuse (opc : Byte) (k : KpCmd) (res : Byte) (s : State) (j : Nat) :
    slotOf (kpRefuse opc k res s) j = slotOf s j := slotOf_congr (by rw [kpRefuse_frame]) j

/-- Material that is installed changes the slots and, for a rotation, the NV unit and what a selection reports. -/
theorem keyInstall_frame (adm : KeyAdmit) (kidx : Nat) (toB : Bool) (key : Key) (s : State) :
    keyInstall adm kidx toB key s =
      { s with keys := { s.keys with slots := (keyInstall adm kidx toB key s).keys.slots
                                     eraseNext := (keyInstall adm kidx toB key s).keys.eraseNext }
               nvu := (keyInstall adm kidx toB key s).nvu, regs := (keyInstall adm kidx toB key s).regs
               ev := (keyInstall adm kidx toB key s).ev } := by
  cases adm
  case rotate =>
    unfold keyInstall
    dsimp only
    rw [nvPush_frame]
    rfl
  all_goals rfl

/-- Material that is installed leaves the other slots. -/
theorem slotOf_keyInstall_ne (adm : KeyAdmit) {kidx : Nat} (toB : Bool) (key : Key) (s : State) {j : Nat} (h : j ≠ kidx) :
    slotOf (keyInstall adm kidx toB key s) j = slotOf s j := by
  cases adm
  case no => rfl
  all_goals
    unfold keyInstall
    simp only [slotOf_nvPush, slotOf_slotPut, if_neg h]
  case fresh => rfl

theorem slotOf_keyInstall_fresh (kidx : Nat) (toB : Bool) (key : Key) (s : State) :
    slotOf (keyInstall .fresh kidx toB key s) kidx =
      { slotOf s kidx with st := .loaded, matA := some { key := key, usable := frameNo s + 1 }, kcvA := matKcv key } := by
  unfold keyInstall
  simp only [slotOf_slotPut, if_true]

theorem slotOf_keyInstall_rotate (kidx : Nat) (toB : Bool) (key : Key) (s : State) :
    slotOf (keyInstall .rotate kidx toB key s) kidx =
      { slotOf s kidx with matB := some { key := key, usable := frameNo s + 1 }, kcvB := matKcv key, kcvBBad := false } := by
  unfold keyInstall
  simp only [slotOf_nvPush, slotOf_slotPut, if_true]

/-- A slot that may leave ZEROIZED keeps its materials. -/
theorem slotReloaded_mats (x : Slot) : (slotReloaded x).matA = x.matA ∧ (slotReloaded x).matB = x.matB := by
  unfold slotReloaded
  split <;> exact ⟨rfl, rfl⟩

theorem slotOf_keyInstall_reload (kidx : Nat) (toB : Bool) (key : Key) (s : State) :
    (slotOf (keyInstall .reload kidx toB key s) kidx).matA =
        (if toB then (slotOf s kidx).matA else some { key := key, usable := frameNo s + 1 }) ∧
      (slotOf (keyInstall .reload kidx toB key s) kidx).matB =
        (if toB then some { key := key, usable := frameNo s + 1 } else (slotOf s kidx).matB) := by
  unfold keyInstall
  simp only [slotOf_slotPut, if_true]
  obtain ⟨a, b⟩ := slotReloaded_mats { (if toB = true then
    { slotOf s kidx with matB := some { key := key, usable := frameNo s + 1 } }
    else { slotOf s kidx with matA := some { key := key, usable := frameNo s + 1 } }) with restored := false }
  rw [a, b]
  cases toB <;> exact ⟨rfl, rfl⟩

/-- How LOAD_KEY ends once its payload unwraps (R129, R133, Table 06.10). -/
def loadKeyEnd (k : KpCmd) (key : Key) (s : State) : State :=
  let x := slotOf s k.kidx.toNat
  let toB := decide (k.msel = 1#8)
  let adm := keyAdmit x toB
  if adm = .no then kpRefuse 0x02#8 k kpState s
  else if adm = .reload ∧ reloadOk x toB key = false then kpRefuse 0x02#8 k kpKcvMismatch s
  else kpDone 0x02#8 k (matKcv key) s (keyInstall adm k.kidx.toNat toB key s)

theorem doLoadKey_opens {k : KpCmd} {s : State} {kek key : Key} (early : kpEarly 2 k true s = none)
    (held : s.keys.kek = some kek)
    (opens : kpOpen kek k k.kidx.toNat k.msel.toNat (slotClass s k.kidx.toNat) (cfgVal s 0x4000 2 k.kidx.toNat) 1 = some key) :
    doLoadKey k s = loadKeyEnd k key s := by
  unfold doLoadKey loadKeyEnd
  rw [early, held]
  dsimp only
  rw [opens]

/-- However LOAD_KEY ends, it leaves the other slots, the KEK, the NV store, the clock, the pins and the configuration. -/
theorem loadKeyEnd_keeps (k : KpCmd) (key : Key) (s : State) :
    (∀ j, j ≠ k.kidx.toNat → slotOf (loadKeyEnd k key s) j = slotOf s j) ∧ (loadKeyEnd k key s).nv = s.nv ∧
      (loadKeyEnd k key s).clk = s.clk ∧ (loadKeyEnd k key s).pins = s.pins ∧ (loadKeyEnd k key s).cfg = s.cfg ∧
      (loadKeyEnd k key s).keys.kek = s.keys.kek := by
  have refused : ∀ res, (∀ j, j ≠ k.kidx.toNat → slotOf (kpRefuse 0x02#8 k res s) j = slotOf s j) ∧
      (kpRefuse 0x02#8 k res s).nv = s.nv ∧ (kpRefuse 0x02#8 k res s).clk = s.clk ∧
      (kpRefuse 0x02#8 k res s).pins = s.pins ∧ (kpRefuse 0x02#8 k res s).cfg = s.cfg ∧
      (kpRefuse 0x02#8 k res s).keys.kek = s.keys.kek := fun res => by
    refine ⟨fun j _ => slotOf_kpRefuse .., ?_⟩
    rw [kpRefuse_frame]
    exact ⟨rfl, rfl, rfl, rfl, rfl⟩
  unfold loadKeyEnd
  dsimp only
  split
  · exact refused _
  · split
    · exact refused _
    · refine ⟨fun j other => by rw [slotOf_kpDone, slotOf_keyInstall_ne _ _ _ _ other], ?_⟩
      rw [kpDone_frame, keyInstall_frame]
      exact ⟨rfl, rfl, rfl, rfl, rfl⟩

end Sys2Proof.Machine

namespace Sys2Proof
open Sys2Proof.Machine

/-- Settles O19: the ends of LOAD_KEY by how Table 06.10 admits it. -/
theorem loadKeyFillsItsRegister : Obligations.LoadKeyFillsItsRegister := by
  unfold Obligations.LoadKeyFillsItsRegister
  refine fun k s early => ⟨fun kek key x toB held hx hb opens => ⟨doLoadKey k s, rfl, ?_⟩, fun none => ?_⟩
  · subst hx hb
    rw [doLoadKey_opens early held opens]
    obtain ⟨others, nv, clk, pins, cfg, kek'⟩ := loadKeyEnd_keeps k key s
    refine ⟨others, nv, clk, pins, cfg, kek', fun fresh => ?_, fun reload ok toA => ?_, fun reload ok toB => ?_,
      fun reload bad => ?_, fun rotate => ?_, fun no => ?_⟩ <;> unfold loadKeyEnd <;> dsimp only
    · rw [fresh, if_neg (by decide), if_neg (by simp), slotOf_kpDone, slotOf_keyInstall_fresh, kpDone_frame, kpEarly_opc early]
      exact ⟨rfl, rfl⟩
    · rw [reload, if_neg (by decide), ok, if_neg (by simp), slotOf_kpDone, (slotOf_keyInstall_reload ..).1,
        (slotOf_keyInstall_reload ..).2, toA, kpDone_frame, kpEarly_opc early]
      exact ⟨rfl, rfl, rfl⟩
    · rw [reload, if_neg (by decide), ok, if_neg (by simp), slotOf_kpDone, (slotOf_keyInstall_reload ..).1,
        (slotOf_keyInstall_reload ..).2, toB]
      exact ⟨rfl, rfl⟩
    · rw [reload, if_neg (by decide), bad, if_pos ⟨rfl, rfl⟩, slotOf_kpRefuse, kpRefuse_frame, kpEarly_opc early]
      exact ⟨rfl, rfl⟩
    · rw [rotate, if_neg (by decide), if_neg (by simp), slotOf_kpDone, slotOf_keyInstall_rotate]
    · rw [if_pos no, kpRefuse_frame, kpEarly_opc early]
  · refine ⟨doLoadKey k s, rfl, ?_⟩
    unfold doLoadKey
    rw [early, none]
    dsimp only
    rw [kpRefuse_frame, kpEarly_opc early]
    exact ⟨rfl, rfl⟩

end Sys2Proof

namespace Sys2Proof.Machine

-- ERASE_SLOT and the contexts that it suspends

theorem foldl_mediaMod_frame (l : List Nat) (f : Media → Media) (s : State) :
    l.foldl (fun s m => mediaMod m f s) s = { s with media := (l.foldl (fun s m => mediaMod m f s) s).media } := by
  induction l generalizing s with
  | nil => rfl
  | cons m t ih => rw [List.foldl_cons, ih]; rfl

/-- The steps of a context lose what they await: in the media ports, the holds and the tag cache. -/
theorem stepsDrop_frame (n : Nat) (s : State) :
    stepsDrop n s = { s with media := (stepsDrop n s).media, rep := (stepsDrop n s).rep, tagc := (stepsDrop n s).tagc } := by
  unfold stepsDrop
  dsimp only
  rw [foldl_mediaMod_frame]

/-- What a suspension may change. -/
theorem ctxSuspend_frame (n : Nat) (s : State) :
    ctxSuspend n s =
      { s with rk := (ctxSuspend n s).rk, media := (ctxSuspend n s).media, rep := (ctxSuspend n s).rep
               tagc := (ctxSuspend n s).tagc, nvu := (ctxSuspend n s).nvu, regs := (ctxSuspend n s).regs
               ev := (ctxSuspend n s).ev } := by
  unfold ctxSuspend
  dsimp only
  split
  · generalize hu : ctxPut n _ s = u
    have changed : u = { s with rk := u.rk } := by rw [← hu]; rfl
    split
    · rw [stepsDrop_frame]
      generalize stepsDrop n u = v
      rw [changed]
    · rw [nvPush_frame, stepsDrop_frame]
      generalize nvPush _ _ = w
      generalize stepsDrop n u = v
      rw [changed]
  · rfl

/-- A register that neither events nor the NV unit's reports write. -/
structure RegQuiet (idx sub row : Nat) : Prop where
  subFits : sub < 256
  rowFits : row < 2 ^ 24
  noSource : idx ≠ 0x4004
  noAlert : idx ≠ 0x2500 ∨ sub ≠ 5
  noReport : idx ≠ 0x6300 ∨ sub ≠ 6

theorem regVal_raise_quiet {e : Ev} {src p1 p2 p3 : Nat} {s : State} {idx sub row : Nat} (hsrc : src < 2 ^ 24)
    (h : RegQuiet idx sub row) : regVal (raise e src p1 p2 p3 s) idx sub row = regVal s idx sub row :=
  regVal_raise hsrc h.subFits h.rowFits h.noSource h.noAlert

theorem regVal_jobNote {s : State} {j : NvJob} {idx sub row : Nat} (h : RegQuiet idx sub row) :
    regVal (jobNote s j) idx sub row = regVal s idx sub row := by
  have other : okey idx sub row ≠ okey 0x6300 6 0 := fun same => by
    obtain ⟨i, k, -⟩ := (okey_inj _ _ _ _ _ _ h.subFits (by decide) h.rowFits (by decide)).1 same
    exact h.noReport.elim (· i) (· k)
  unfold jobNote
  split
  · rfl
  · split
    · rfl
    · unfold selNote
      split
      · unfold nvNote
        rw [regVal_raise_quiet (by decide) h, regVal_countUp_ne other]
      · rfl

theorem regVal_nvKick {s : State} {idx sub row : Nat} (h : RegQuiet idx sub row) :
    regVal (nvKick s) idx sub row = regVal s idx sub row := by
  unfold nvKick
  split
  · rfl
  · split
    · rfl
    · split
      · split
        · split
          exact (foldl_keeps (fun s => regVal s idx sub row) jobNote (fun _ _ => regVal_jobNote h) _ _)
        · rfl
      · split <;> rfl

theorem regVal_nvPush {j : NvJob} {s : State} {idx sub row : Nat} (h : RegQuiet idx sub row) :
    regVal (nvPush j s) idx sub row = regVal s idx sub row := by
  unfold nvPush
  split
  · exact (regVal_nvKick h).trans rfl
  · rfl

theorem regVal_ctxSuspend {n : Nat} {s : State} {idx sub row : Nat} (h : RegQuiet idx sub row) :
    regVal (ctxSuspend n s) idx sub row = regVal s idx sub row := by
  have dropped : ∀ u, regVal (stepsDrop n u) idx sub row = regVal u idx sub row := fun u =>
    regVal_congr (by rw [stepsDrop_frame]) _ _ _
  unfold ctxSuspend
  dsimp only
  split
  · split
    · exact (dropped _).trans rfl
    · rw [regVal_nvPush h, dropped]
      rfl
  · rfl

theorem regVal_ctxSuspendAbsent {s : State} {idx sub row : Nat} (h : RegQuiet idx sub row) :
    regVal (ctxSuspendAbsent s) idx sub row = regVal s idx sub row :=
  foldl_keeps (fun s => regVal s idx sub row) _ (fun s n => by
    dsimp only
    split
    · exact regVal_ctxSuspend h
    · rfl) _ _

/-- A suspension of contexts leaves the keys and the pins. -/
theorem ctxSuspendAbsent_keys (s : State) : (ctxSuspendAbsent s).keys = s.keys :=
  foldl_keeps State.keys _ (fun s n => by
    dsimp only
    split
    · rw [ctxSuspend_frame]
    · rfl) _ _

theorem ctxSuspendAbsent_pins (s : State) : (ctxSuspendAbsent s).pins = s.pins :=
  foldl_keeps State.pins _ (fun s n => by
    dsimp only
    split
    · rw [ctxSuspend_frame]
    · rfl) _ _

theorem foldl_cfgPut_frame {α : Type} (idx sub row v : α → Nat) (l : List α) (s : State) :
    l.foldl (fun s x => cfgPut (idx x) (sub x) (row x) (v x) s) s =
      { s with cfg := (l.foldl (fun s x => cfgPut (idx x) (sub x) (row x) (v x) s) s).cfg } := by
  induction l generalizing s with
  | nil => rfl
  | cons x t ih => rw [List.foldl_cons, ih]; rfl

/-- A grant row's defaults are configuration alone. -/
theorem grantReset_frame (kidx : Nat) (s : State) : grantReset kidx s = { s with cfg := (grantReset kidx s).cfg } :=
  foldl_cfgPut_frame (fun _ => 0x5000) (fun i => i + 1) (fun _ => kidx) (fun i => objDefault 0x5000 (i + 1)) _ s

/-- The erase of a slot changes the slots and, with the row's grants, the configuration. -/
theorem slotErase_frame (kidx : Nat) (s : State) :
    slotErase kidx s =
      { s with keys := { s.keys with slots := (slotErase kidx s).keys.slots }, cfg := (slotErase kidx s).cfg } := by
  unfold slotErase
  dsimp only
  split
  · rfl
  · rfl
  · rw [grantReset_frame]
    rfl
  · rfl

theorem slotOf_grantReset (kidx : Nat) (s : State) (j : Nat) : slotOf (grantReset kidx s) j = slotOf s j :=
  slotOf_congr (by rw [grantReset_frame]) j

theorem slotOf_slotErase_ne {kidx j : Nat} (s : State) (h : j ≠ kidx) : slotOf (slotErase kidx s) j = slotOf s j := by
  unfold slotErase
  dsimp only
  split <;> simp only [slotOf_grantReset, slotOf_slotPut, if_neg h]

/-- The state that an erase moves a slot to (Table 06.4, R389). -/
def slotErased (x : Slot) : Slot :=
  if x.st = .empty ∨ x.st = .zeroized then x
  else if x.st = .loaded then { rowBad := x.rowBad }
  else { x with st := .zeroized, prior := x.st, matA := none, matB := none }

theorem slotOf_slotErase (kidx : Nat) (s : State) : slotOf (slotErase kidx s) kidx = slotErased (slotOf s kidx) := by
  unfold slotErase slotErased
  dsimp only
  split
  · next st => simp only [st, true_or, if_true]
  · next st => simp only [st, or_true, if_true]
  · next st => simp only [st, slotOf_grantReset, slotOf_slotPut, if_true, reduceCtorEq, or_self, if_false]
  · next ne nz nl =>
    rw [slotOf_slotPut, if_pos rfl, if_neg (not_or.2 ⟨ne, nz⟩), if_neg nl]

theorem slotErased_mats {x : Slot} (he : x.st ≠ .empty) (hz : x.st ≠ .zeroized) :
    (slotErased x).matA = none ∧ (slotErased x).matB = none := by
  unfold slotErased
  rw [if_neg (not_or.2 ⟨he, hz⟩)]
  split <;> exact ⟨rfl, rfl⟩

-- The bytes of the key port

theorem natOfBe_beBytes {n v : Nat} (h : v < 2 ^ (8 * n)) : natOfBe (beBytes n v) = v := by
  unfold natOfBe beBytes
  rw [List.reverse_reverse, natOfLe_leBytes h]

theorem length_beBytes (n v : Nat) : (beBytes n v).length = n := by
  unfold beBytes
  rw [List.length_reverse, length_leBytes]

/-- A command's bytes, field by field. -/
theorem kpCmdBytes_eq (opc : Byte) (k : KpCmd) : ∃ p : List Byte, p = beBytes 56 k.payload.toNat ∧ p.length = 56 ∧
    ∃ i0 i1 r0 r1 r2 : Byte, [i0, i1] = leBytes 2 k.kidx.toNat ∧ [r0, r1, r2] = leBytes 3 k.resv.toNat ∧
      kpCmdBytes opc k = kpOpc opc k :: k.seq :: i0 :: i1 :: k.msel :: r0 :: r1 :: r2 :: p :=
  ⟨_, rfl, length_beBytes _ _, _, _, _, _, _, rfl, rfl, rfl⟩

theorem kpCmdBytes_length (opc : Byte) (k : KpCmd) : (kpCmdBytes opc k).length = 64 := by
  obtain ⟨p, -, length, i0, i1, r0, r1, r2, -, -, bytes⟩ := kpCmdBytes_eq opc k
  rw [bytes]
  simp only [List.length_cons, length]

theorem kpCmdRead_kpCmdBytes (opc : Byte) (k : KpCmd) :
    kpCmdRead (kpCmdBytes opc k) k.framed = (kpOpc opc k, { k with odd := none }) := by
  obtain ⟨p, payload, length, i0, i1, r0, r1, r2, kidx, resv, bytes⟩ := kpCmdBytes_eq opc k
  have kidxIs : natOfLe [i0, i1] = k.kidx.toNat := kidx ▸ natOfLe_leBytes k.kidx.isLt
  have resvIs : natOfLe [r0, r1, r2] = k.resv.toNat := resv ▸ natOfLe_leBytes k.resv.isLt
  have payloadIs : natOfBe (p.take 56) = k.payload.toNat := by
    rw [List.take_of_length_le (Nat.le_of_eq length), payload]
    exact natOfBe_beBytes k.payload.isLt
  rw [bytes]
  unfold kpCmdRead byteAt
  simp only [List.getD_cons_zero, List.getD_cons_succ, List.drop_succ_cons, List.drop_zero, List.take_succ_cons,
    List.take_zero, kidxIs, resvIs, payloadIs, BitVec.ofNat_toNat, BitVec.setWidth_eq]

/-- What a command whose OPC or fields are out of range leaves (R130, R388). -/
def BadFieldAnswered (opc : Byte) (k : KpCmd) (s t : State) : Prop :=
  t.keys = { s.keys with kpRsp := some { opc := kpOpc opc k, seq := k.seq, result := kpBadField, kcv := 0#24 }
                         kpLast := none } ∧
    regVal t 0x6060 2 0 = min (regVal s 0x6060 2 0 + 1) (2 ^ 32 - 1) ∧ t.nv = s.nv ∧ t.clk = s.clk ∧ t.pins = s.pins

section
variable {k : KpCmd} {s t : State} {opc : Byte}

theorem kpRefuse_badField (refused : t = kpRefuse opc k kpBadField s) : BadFieldAnswered opc k s t := by
  subst refused
  refine ⟨?_, regVal_kpRefuse .., ?_⟩
  · rw [kpRefuse_frame]
  · rw [kpRefuse_frame]
    exact ⟨rfl, rfl, rfl⟩

theorem ctxSuspendAbsent_badField (h : BadFieldAnswered opc k s t) : BadFieldAnswered opc k s (ctxSuspendAbsent t) := by
  obtain ⟨keys, count, nv, clk, pins⟩ := h
  have kept := ctxSuspendAbsent_kept t
  refine ⟨?_, ?_, (nv_of_kept kept).trans nv, (clk_of_kept kept).trans clk, (ctxSuspendAbsent_pins t).trans pins⟩
  · rw [ctxSuspendAbsent_keys, keys]
  · rw [regVal_ctxSuspendAbsent ⟨by decide, by decide, by decide, .inl (by decide), .inl (by decide)⟩, count]

theorem kpEarlyDo_badField (running : s.clk.running = true) : kpEarlyDo opc k kpBadField s = kpRefuse opc k kpBadField s := by
  unfold kpEarlyDo
  rw [running, if_neg (by decide), if_neg (by decide)]

variable (running : s.clk.running = true)
include running

theorem doLoadKek_badField (early : kpEarly 1 k true s = some kpBadField) : doLoadKek k s = kpRefuse 1#8 k kpBadField s := by
  unfold doLoadKek
  rw [early]
  exact kpEarlyDo_badField running

theorem doLoadKey_badField (early : kpEarly 2 k true s = some kpBadField) : doLoadKey k s = kpRefuse 2#8 k kpBadField s := by
  unfold doLoadKey
  rw [early]
  exact kpEarlyDo_badField running

theorem doLoadMgmtKey_badField (early : kpEarly 3 k true s = some kpBadField) :
    doLoadMgmtKey k s = kpRefuse 3#8 k kpBadField s := by
  unfold doLoadMgmtKey
  rw [early]
  exact kpEarlyDo_badField running

theorem doEraseSlot_badField (early : kpEarly 4 k false s = some kpBadField) :
    doEraseSlot k s = kpRefuse 4#8 k kpBadField s := by
  unfold doEraseSlot
  rw [early]
  exact kpEarlyDo_badField running

theorem doQueryKcv_badField (early : kpEarly 5 k false s = some kpBadField) :
    doQueryKcv k s = kpRefuse 5#8 k kpBadField s := by
  unfold doQueryKcv
  rw [early]
  exact kpEarlyDo_badField running

end

end Sys2Proof.Machine

namespace Sys2Proof
open Sys2Proof.Machine

/-- Settles O20: the erase of a slot, the answers of QUERY_KCV, the refusal of fields out of range, and the bytes. -/
theorem eraseSlotAndQueryKcv : Obligations.EraseSlotAndQueryKcv := by
  unfold Obligations.EraseSlotAndQueryKcv
  refine ⟨fun k s early => ?_, fun k s early => ?_, fun op c k s row running served fields => ?_, fun opc k => ?_, fun r => ?_⟩
  · have keys := ctxSuspendAbsent_keys (doEraseSlot k s)
    have pins := ctxSuspendAbsent_pins (doEraseSlot k s)
    have kept := (ctxSuspendAbsent_kept (doEraseSlot k s)).trans (doEraseSlot_kept k s)
    have erases : doEraseSlot k s = kpDone 0x04#8 k 0#24 s (slotErase k.kidx.toNat s) := by
      unfold doEraseSlot
      rw [early]
    have slots : ∀ j, slotOf (ctxSuspendAbsent (doEraseSlot k s)) j = slotOf (slotErase k.kidx.toNat s) j := fun j => by
      rw [slotOf_congr (congrArg KeyStore.slots keys), erases, slotOf_kpDone]
    refine ⟨_, rfl, ?_⟩
    rw [slots, slotOf_slotErase]
    refine ⟨slotErased_mats, fun active => ?_, fun loaded => ?_, fun j other => ?_, ?_⟩
    · unfold slotErased
      rw [active]
      exact ⟨rfl, rfl⟩
    · unfold slotErased
      rw [loaded]
      rfl
    · rw [slots, slotOf_slotErase_ne _ other]
    · rw [nv_of_kept kept, clk_of_kept kept, keys, pins, erases, kpDone_frame, slotErase_frame, kpEarly_opc early]
      exact ⟨rfl, rfl, rfl, rfl, rfl, rfl⟩
  · refine ⟨doQueryKcv k s, rfl, ?_⟩
    unfold doQueryKcv
    rw [early]
    dsimp only
    cases present : (if k.msel = 1#8 then (slotOf s k.kidx.toNat).matB else (slotOf s k.kidx.toNat).matA) with
    | none =>
      dsimp only
      rw [kpRefuse_frame, kpEarly_opc early]
      exact ⟨nofun, fun _ => rfl, rfl⟩
    | some m =>
      dsimp only
      refine ⟨fun m' h => ?_, nofun, rfl⟩
      obtain rfl := Option.some.inj h
      refine ⟨?_, regVal_kpDone ..⟩
      rw [kpDone_frame, kpEarly_opc early]
  · have early : ∀ load, kpEarly op k load s = some kpBadField := fun load => by
      unfold kpEarly
      rw [served, if_neg (by decide), fields, if_pos rfl]
    simp only [List.mem_cons, Prod.mk.injEq, List.not_mem_nil, or_false] at row
    rcases row with ⟨rfl, rfl⟩ | ⟨rfl, rfl⟩ | ⟨rfl, rfl⟩ | ⟨rfl, rfl⟩ | ⟨rfl, rfl⟩
    · exact ⟨_, rfl, kpRefuse_badField (doLoadKek_badField running (early true))⟩
    · exact ⟨_, rfl, kpRefuse_badField (doLoadKey_badField running (early true))⟩
    · exact ⟨_, rfl, kpRefuse_badField (doLoadMgmtKey_badField running (early true))⟩
    · exact ⟨_, rfl, ctxSuspendAbsent_badField (kpRefuse_badField (doEraseSlot_badField running (early false)))⟩
    · exact ⟨_, rfl, kpRefuse_badField (doQueryKcv_badField running (early false))⟩
  · exact ⟨kpCmdBytes_length opc k, kpCmdRead_kpCmdBytes opc k⟩
  · refine ⟨rfl, rfl, ?_, rfl⟩
    exact natOfBe_beBytes (n := 3) r.kcv.isLt

end Sys2Proof

/-! SUPPORT. The event unit and the NV unit: what an occurrence writes, who takes a record, and what a page commit and its
read-back leave. -/

namespace Sys2Proof.Machine

-- Occurrences

/-- The row of the source table after an occurrence on its source. -/
theorem regVal_srcNote_own {src code sev : Nat} {b : Bool} {s : State} (hsrc : src < 2 ^ 24) :
    regVal (srcNote src code sev b s) 0x4004 0x13 src = frameNo s ∧
      regVal (srcNote src code sev b s) 0x4004 0x10 src % 2 = 1 ∧
      regVal (srcNote src code sev b s) 0x4004 0x11 src = min (regVal s 0x4004 0x11 src + 1) (2 ^ 32 - 1) := by
  have sub : ∀ i j, i < 256 → j < 256 → i ≠ j → okey 0x4004 i src ≠ okey 0x4004 j src := fun i j hi hj other same =>
    other ((okey_inj _ _ _ _ _ _ hi hj hsrc hsrc).1 same).2.1
  unfold srcNote
  dsimp only
  refine ⟨regVal_regPut_same .., ?_, ?_⟩
  · refine (congrArg (· % 2) (regVal_congr (s := regPut 0x4004 0x13 src _ _) rfl _ _ _)).trans ?_
    rw [regVal_regPut_ne _ _ _ _ _ _ _ _ (sub _ _ (by decide) (by decide) (by decide)),
      regVal_regPut_ne _ _ _ _ _ _ _ _ (sub _ _ (by decide) (by decide) (by decide)), regVal_regPut_same]
    omega
  · refine (regVal_congr (s := regPut 0x4004 0x13 src _ _) rfl _ _ _).trans ?_
    rw [regVal_regPut_ne _ _ _ _ _ _ _ _ (sub _ _ (by decide) (by decide) (by decide)),
      regVal_regPut_ne _ _ _ _ _ _ _ _ (sub _ _ (by decide) (by decide) (by decide)),
      regVal_regPut_ne _ _ _ _ _ _ _ _ (sub _ _ (by decide) (by decide) (by decide))]
    exact regVal_count1 (by decide) (by decide +kernel)

theorem srcNote_acc (src code sev : Nat) (b : Bool) (s : State) : (srcNote src code sev b s).ev.acc = s.ev.acc := rfl

theorem alertSet_ev (route sev : Nat) (s : State) : (alertSet route sev s).ev = s.ev := by
  rw [alertSet_frame]

theorem regVal_alertSet_bit {route sev k : Nat} {s : State} (level : alertLevel route sev = some k) :
    (regVal (alertSet route sev s) 0x2500 5 0).testBit k = true := by
  unfold alertSet
  rw [level]
  dsimp only
  rw [regVal_regPut_same, Nat.testBit_or, Nat.testBit_two_pow_self, Bool.or_true]

/-- The event unit once an occurrence is folded into its source's accumulator of the frame. -/
def folded (e : Ev) (sev src p1 p2 p3 : Nat) (s u : State) : State :=
  let a := evFold (tabFind s.ev.acc src) (evInfo e).1 sev s.clk.cycle (BitVec.ofNat 32 p1) (BitVec.ofNat 32 p2)
    (BitVec.ofNat 32 p3)
  { u with ev := { u.ev with acc := tabSet u.ev.acc src a } }

/-- An occurrence that its source reports. -/
theorem raiseSev_reported {e : Ev} {sev src p1 p2 p3 : Nat} {s : State} (live : srcDead s src = false)
    (enabled : cfgVal s 0x4004 1 src = 0) (severe : cfgVal s 0x4004 2 src ≤ sev) :
    raiseSev e sev src p1 p2 p3 s =
      alertSet (cfgVal s 0x4004 4 src) sev (folded e sev src p1 p2 p3 s (srcNote src (evInfo e).1 sev true s)) := by
  unfold raiseSev
  rw [live, if_neg (by decide)]
  simp only [enabled, severe, decide_true, Bool.and_self, if_true]
  rfl

/-- An occurrence that its source does not report. -/
theorem raiseSev_unreported {e : Ev} {sev src p1 p2 p3 : Nat} {s : State} (live : srcDead s src = false)
    (unreported : cfgVal s 0x4004 1 src ≠ 0 ∨ sev < cfgVal s 0x4004 2 src) :
    raiseSev e sev src p1 p2 p3 s = srcNote src (evInfo e).1 sev false s := by
  have off : (decide (cfgVal s 0x4004 1 src = 0) && decide (cfgVal s 0x4004 2 src ≤ sev)) = false := by
    rcases unreported with disabled | mild
    · rw [decide_eq_false disabled, Bool.false_and]
    · rw [decide_eq_false (Nat.not_le.2 mild), Bool.and_false]
  unfold raiseSev
  rw [live, if_neg (by decide)]
  simp only [off]
  rfl

end Sys2Proof.Machine

namespace Sys2Proof
open Sys2Proof.Machine

/-- Settles O48: an occurrence notes its source, and a reported one is folded and raises its alert. -/
theorem occurrencesAreCaptured : Obligations.OccurrencesAreCaptured := by
  unfold Obligations.OccurrencesAreCaptured
  intro e sev src p1 p2 p3 s _ hsrc
  have fits : src < 2 ^ 24 := by omega
  have alertNe : ∀ k, okey 0x4004 k src ≠ okey 0x2500 5 0 := fun k => by unfold okey; omega
  refine ⟨raiseSev_frame .., fun dead => by unfold raiseSev; rw [dead, if_pos rfl], fun live => ?_⟩
  have rows : ∀ b, regVal (srcNote src (evInfo e).1 sev b s) 0x2500 5 0 = regVal s 0x2500 5 0 := fun b =>
    regVal_srcNote fun k _ => (alertNe k).symm
  by_cases reported : cfgVal s 0x4004 1 src = 0 ∧ cfgVal s 0x4004 2 src ≤ sev
  · obtain ⟨enabled, severe⟩ := reported
    have raised := raiseSev_reported (e := e) (p1 := p1) (p2 := p2) (p3 := p3) live enabled severe
    have own : ∀ k, regVal (raiseSev e sev src p1 p2 p3 s) 0x4004 k src =
        regVal (srcNote src (evInfo e).1 sev true s) 0x4004 k src := fun k => by
      rw [raised, regVal_alertSet (alertNe k)]
      rfl
    obtain ⟨frame, bit, count⟩ := regVal_srcNote_own (code := (evInfo e).1) (sev := sev) (b := true) (s := s) fits
    rw [own, own, own]
    refine ⟨frame, bit, count, fun _ _ => ?_, fun off => ?_⟩
    · rw [raised, alertSet_ev]
      have entry := tabFind_tabSet (srcNote src (evInfo e).1 sev true s).ev.acc src (evFold (tabFind s.ev.acc src)
        (evInfo e).1 sev s.clk.cycle (BitVec.ofNat 32 p1) (BitVec.ofNat 32 p2) (BitVec.ofNat 32 p3)) src
      rw [if_pos rfl] at entry
      refine ⟨(congrArg Option.isSome entry).trans rfl, fun fresh => entry.trans ?_, fun k level => regVal_alertSet_bit level⟩
      rw [fresh]
      rfl
    · exact absurd off (by omega)
  · have unreported : cfgVal s 0x4004 1 src ≠ 0 ∨ sev < cfgVal s 0x4004 2 src := by omega
    obtain ⟨frame, bit, count⟩ := regVal_srcNote_own (code := (evInfo e).1) (sev := sev) (b := false) (s := s) fits
    rw [raiseSev_unreported live unreported]
    exact ⟨frame, bit, count, fun enabled severe => absurd ⟨enabled, severe⟩ reported, fun _ => ⟨srcNote_acc .., rows _⟩⟩

end Sys2Proof

/-! SUPPORT. The NV unit: bytes of a page, what a presented page commit keeps, and what a read-back confirms. -/

namespace Sys2Proof.Machine

-- Bytes of a page

section
variable {α β : Type} [DecidableEq β] {d d' : β} {key : α → Nat} {val : α → β}

theorem tabGet_foldl_tabPut_other {l : List α} {t : Tab β} {a : Nat} (h : ∀ e ∈ l, key e ≠ a) :
    tabGet d' (l.foldl (fun t e => tabPut d t (key e) (val e)) t) a = tabGet d' t a := by
  induction l generalizing t with
  | nil => rfl
  | cons e l ih =>
    rw [List.foldl_cons, ih fun x hx => h x (List.mem_cons_of_mem _ hx),
      tabGet_tabPut_ne _ _ _ _ _ _ (h e List.mem_cons_self).symm]

theorem tabGet_foldl_tabPut_mem {l : List α} {t : Tab β} (distinct : (l.map key).Nodup) {e : α} (he : e ∈ l) :
    tabGet d (l.foldl (fun t e => tabPut d t (key e) (val e)) t) (key e) = val e := by
  induction l generalizing t with
  | nil => cases he
  | cons x l ih =>
    rw [List.map_cons, List.nodup_cons] at distinct
    obtain ⟨fresh, distinct⟩ := distinct
    rw [List.foldl_cons]
    rcases List.mem_cons.1 he with rfl | he
    · have other : ∀ y ∈ l, key y ≠ key e := fun y hy same => fresh (same ▸ List.mem_map_of_mem hy)
      rw [tabGet_foldl_tabPut_other other, tabGet_tabPut, if_pos rfl]
    · exact ih distinct he

end

-- The NV unit

/-- What the presentation of pages leaves alone: confirmed changes that wait for the strobe, and changes given up. -/
def State.nvPast (s : State) : List NvAct × List NvJob := (s.nvu.acts, s.nvu.failed)

theorem nvKick_nvPast (s : State) : (nvKick s).nvPast = s.nvPast := by
  unfold nvKick
  split
  · rfl
  · split
    · rfl
    · split
      · split
        · split
          exact foldl_keeps State.nvPast jobNote (fun s j => by rw [jobNote_frame]; rfl) _ _
        · rfl
      · split <;> rfl

theorem nvPush_nvPast (j : NvJob) (s : State) : (nvPush j s).nvPast = s.nvPast := by
  unfold nvPush
  split
  · exact (nvKick_nvPast _).trans rfl
  · rfl

theorem drainCkpt_frame (s : State) (n : Nat) :
    drainCkpt s n = { s with nvu := (drainCkpt s n).nvu, regs := (drainCkpt s n).regs, ev := (drainCkpt s n).ev
                             rk := (drainCkpt s n).rk } := by
  unfold drainCkpt
  dsimp only
  split
  · unfold ckptPush
    rw [nvPush_frame]
    rfl
  · rfl

theorem drainCkpt_nvPast (s : State) (n : Nat) : (drainCkpt s n).nvPast = s.nvPast := by
  unfold drainCkpt
  dsimp only
  split
  · exact (nvPush_nvPast _ _).trans rfl
  · rfl

theorem foldl_drainCkpt_frame (l : List Nat) (s : State) :
    l.foldl drainCkpt s = { s with nvu := (l.foldl drainCkpt s).nvu, regs := (l.foldl drainCkpt s).regs
                                   ev := (l.foldl drainCkpt s).ev, rk := (l.foldl drainCkpt s).rk } := by
  induction l generalizing s with
  | nil => rfl
  | cons n l ih => rw [List.foldl_cons, ih, drainCkpt_frame]

/-- The drain's poll queues records: it changes the NV unit, the contexts' checkpoint flags and its own flag. -/
theorem drainPoll_frame (s : State) :
    drainPoll s = { s with nvu := (drainPoll s).nvu, regs := (drainPoll s).regs, ev := (drainPoll s).ev
                           rk := (drainPoll s).rk
                           pwr := { s.pwr with sessionQueued := (drainPoll s).pwr.sessionQueued } } := by
  unfold drainPoll
  split
  · dsimp only
    split
    · rw [nvPush_frame, foldl_drainCkpt_frame]
    · rw [foldl_drainCkpt_frame]
  · rfl

theorem drainPoll_nvPast (s : State) : (drainPoll s).nvPast = s.nvPast := by
  unfold drainPoll
  split
  · dsimp only
    split
    · rw [nvPush_nvPast]
      exact foldl_keeps State.nvPast drainCkpt drainCkpt_nvPast _ _
    · exact foldl_keeps State.nvPast drainCkpt drainCkpt_nvPast _ _
  · rfl

theorem drainPoll_service {s : State} (service : s.pwr.phase = .service) : drainPoll s = s := by
  unfold drainPoll
  rw [if_neg]
  intro draining
  rw [service] at draining
  cases draining.1

-- Confirmed changes

theorem imageStart_frame (s : State) :
    imageStart s = { s with nvu := (imageStart s).nvu, regs := (imageStart s).regs, ev := (imageStart s).ev } := by
  unfold imageStart
  dsimp only
  split
  · rw [nvKick_frame]
    unfold selNote
    split
    · unfold nvNote
      rw [raise_frame]
      rfl
    · rfl
  · rfl

theorem imageStart_nvPast (s : State) : (imageStart s).nvPast = s.nvPast := by
  unfold imageStart
  dsimp only
  split
  · rw [nvKick_nvPast]
    unfold selNote
    split
    · unfold nvNote
      rw [raise_frame]
      rfl
    · rfl
  · rfl

theorem imageCatch_frame (s : State) :
    imageCatch s = { s with nvu := (imageCatch s).nvu, regs := (imageCatch s).regs, ev := (imageCatch s).ev } := by
  unfold imageCatch
  split
  · exact imageStart_frame s
  · rfl

theorem imageCatch_nvPast (s : State) : (imageCatch s).nvPast = s.nvPast := by
  unfold imageCatch
  split
  · exact imageStart_nvPast s
  · rfl

/-- What a confirmed change may touch at once. -/
structure Confirmed (s t : State) : Prop where
  frame : t = { s with nvu := t.nvu, regs := t.regs, ev := t.ev, rk := t.rk, pwr := t.pwr }
  acts : s.nvu.acts ⊆ t.nvu.acts
  clean : s.pwr.sessionDone = true → t.pwr.sessionDone = true

theorem Confirmed.refl (s : State) : Confirmed s s := ⟨rfl, List.Subset.refl _, id⟩

theorem Confirmed.trans {s t u : State} (h : Confirmed s t) (g : Confirmed t u) : Confirmed s u where
  frame := by rw [g.frame, h.frame]
  acts := fun _ ha => g.acts (h.acts ha)
  clean := g.clean ∘ h.clean

theorem nvConfirm_confirmed (a : NvAct) (s : State) : Confirmed s (nvConfirm a s) := by
  cases a with
  | none => exact Confirmed.refl s
  | ckpt c b => exact ⟨rfl, List.Subset.refl _, id⟩
  | passStart c => exact ⟨rfl, List.Subset.refl _, id⟩
  | passDone c => exact ⟨rfl, List.Subset.refl _, id⟩
  | sessionClean => exact ⟨rfl, List.Subset.refl _, fun _ => rfl⟩
  | sessionRun =>
    have past := congrArg Prod.fst (imageCatch_nvPast { s with pwr := { s.pwr with holdWrites := false } })
    refine ⟨?_, fun a ha => ?_, fun done => ?_⟩
    · unfold nvConfirm
      dsimp only
      rw [imageCatch_frame]
    · show a ∈ (imageCatch { s with pwr := { s.pwr with holdWrites := false } }).nvu.acts
      rw [show (imageCatch { s with pwr := { s.pwr with holdWrites := false } }).nvu.acts = s.nvu.acts from past]
      exact ha
    · unfold nvConfirm
      dsimp only
      rw [imageCatch_frame]
      exact done
  | imageDone => exact Confirmed.refl s
  | fmtEntry k => exact ⟨rfl, List.subset_append_left _ _, id⟩
  | activate k => exact ⟨rfl, List.subset_append_left _ _, id⟩
  | rotate k => exact ⟨rfl, List.subset_append_left _ _, id⟩
  | retire k => exact ⟨rfl, List.subset_append_left _ _, id⟩
  | spent k => exact ⟨rfl, List.subset_append_left _ _, id⟩

theorem nvJobDone_confirmed (s : State) (j : NvJob) : Confirmed s (nvJobDone s j) := by
  unfold nvJobDone
  split
  · exact Confirmed.refl s
  · split
    · exact Confirmed.refl s
    · split
      · split <;> exact ⟨rfl, List.Subset.refl _, id⟩
      · exact Confirmed.refl s
  · exact nvConfirm_confirmed ..
  · exact Confirmed.refl s

theorem foldl_nvJobDone_confirmed (l : List NvJob) (s : State) : Confirmed s (l.foldl nvJobDone s) := by
  induction l generalizing s with
  | nil => exact Confirmed.refl s
  | cons j l ih => exact (nvJobDone_confirmed s j).trans (ih _)

-- A failed read-back

theorem nvRetry_again {p : NvPage} {s : State} (left : p.tries < 3) : nvRetry p s = count1 0x6300 0x05 0
    { s with nvu := { s.nvu with page := some { p with tries := p.tries + 1, reading := false } } } := by
  unfold nvRetry
  rw [if_pos left]

theorem nvRetry_frame (p : NvPage) (s : State) :
    nvRetry p s = { s with nvu := (nvRetry p s).nvu, regs := (nvRetry p s).regs, ev := (nvRetry p s).ev } := by
  unfold nvRetry
  split
  · rfl
  · dsimp only
    rw [nvKick_frame, raise_frame]
    rfl

theorem nvRetry_failed {p : NvPage} {s : State} (spent : 3 ≤ p.tries) {j : NvJob} (hj : j ∈ p.jobs) :
    j ∈ (nvRetry p s).nvu.failed := by
  unfold nvRetry
  rw [if_neg (by omega)]
  dsimp only
  generalize hu : regPut 0x2300 0x07 0 1 _ = u
  rw [show (nvKick { u with nvu := _ }).nvu.failed = _ from congrArg Prod.snd (nvKick_nvPast _)]
  exact List.mem_append_right _ hj

/-- A change with one record left, not an image page, is confirmed. -/
theorem nvJobDone_last {s : State} {j : NvJob} {r : NvRec} (last : j.recs = [r]) (plain : ∀ n, r ≠ .image n) :
    nvJobDone s j = nvConfirm j.act s := by
  unfold nvJobDone
  rw [last]
  cases r with
  | image n => exact absurd rfl (plain n)
  | _ => rfl

/-- What the confirmation of every change of a page leaves, for a change that it confirms. -/
theorem foldl_nvJobDone_last {l : List NvJob} {s : State} {j : NvJob} {r : NvRec} (hj : j ∈ l) (last : j.recs = [r])
    (plain : ∀ n, r ≠ .image n) : ∃ u, Confirmed (nvConfirm j.act u) (l.foldl nvJobDone s) := by
  obtain ⟨front, back, rfl⟩ := List.append_of_mem hj
  refine ⟨front.foldl nvJobDone s, ?_⟩
  rw [List.foldl_append, List.foldl_cons, nvJobDone_last last plain]
  exact foldl_nvJobDone_confirmed _ _

end Sys2Proof.Machine

namespace Sys2Proof
open Sys2Proof.Machine

/-- Settles O46: the bytes of a page commit, and its read-back. -/
theorem pageCommitsStoreAndConfirm : Obligations.PageCommitsStoreAndConfirm := by
  unfold Obligations.PageCommitsStoreAndConfirm
  refine ⟨fun p s page waits => ⟨⟨_, rfl, ?_⟩, ⟨_, rfl, ?_⟩⟩, fun p page s here reading => ⟨fun matched => ?_, fun err failed => ?_⟩⟩
  · have done : doNvPageDone false s = count1 0x6300 0x04 0
        { s with nv := p.data.foldl (fun m e => tabPut 0#8 m (p.addr + e.1) e.2) s.nv
                 nvu := { s.nvu with page := some { p with reading := true } } } := by
      unfold doNvPageDone
      simp only [page, waits]
      rfl
    rw [done]
    refine ⟨rfl, fun a other => tabGet_foldl_tabPut_other other, fun distinct e he => ?_, rfl⟩
    refine tabGet_foldl_tabPut_mem (key := fun e : Nat × Byte => p.addr + e.1) ?_ he
    rw [← Function.comp_def (fun o => p.addr + o) Prod.fst, ← List.map_map]
    exact List.Pairwise.map _ (fun _ _ other same => other (Nat.add_left_cancel same)) distinct
  · have done : doNvPageDone true s = nvRetry p { s with
        free := (takeFree s).2.free
        nv := p.data.foldl (fun m e => tabPut 0#8 m (p.addr + e.1) (Config.nvByte (takeFree s).1 e.1)) s.nv } := by
      unfold doNvPageDone
      simp only [page, waits]
      rfl
    rw [done]
    refine ⟨fun a other => ?_, fun left => ?_, ?_⟩
    · rw [nvRetry_frame]
      exact tabGet_foldl_tabPut_other other
    · rw [nvRetry_again left]
      rfl
    · rw [nvRetry_frame]
  · have done : doNvReadDone false page s = nvKick (p.jobs.foldl nvJobDone
        { s with nvu := { s.nvu with page := none, jobs := p.jobs.filterMap nvJobRest ++ s.nvu.jobs } }) := by
      unfold doNvReadDone
      simp only [here, reading, matched]
      rfl
    refine ⟨_, rfl, ?_⟩
    rw [done]
    generalize hv : { s with nvu := { s.nvu with page := none, jobs := p.jobs.filterMap nvJobRest ++ s.nvu.jobs } } = v
    have kept : v.nv = s.nv ∧ v.keys = s.keys ∧ v.pins = s.pins ∧ v.clk = s.clk := by
      rw [← hv]
      exact ⟨rfl, rfl, rfl, rfl⟩
    have acts : ∀ u : State, (drainPoll (nvKick u)).nvu.acts = u.nvu.acts := fun u =>
      congrArg Prod.fst ((drainPoll_nvPast _).trans (nvKick_nvPast u))
    refine ⟨fun j hj r k last plain act => ?_, fun j hj r last plain act => ?_, ?_⟩
    · obtain ⟨u, confirmed⟩ := foldl_nvJobDone_last (s := v) hj last plain
      rw [acts]
      refine confirmed.acts ?_
      rw [act]
      exact List.mem_append_right _ List.mem_cons_self
    · obtain ⟨u, confirmed⟩ := foldl_nvJobDone_last (s := v) hj last plain
      rw [drainPoll_frame, nvKick_frame]
      refine confirmed.clean ?_
      rw [act]
      rfl
    · rw [drainPoll_frame, nvKick_frame, (foldl_nvJobDone_confirmed p.jobs v).frame]
      exact kept
  · have done : doNvReadDone err page s = nvRetry p s := by
      unfold doNvReadDone
      simp only [here, reading]
      rw [if_neg (by decide), if_neg]
      rintro ⟨sound, matched⟩
      rcases failed with wrong | wrong
      · rw [sound] at wrong
        cases wrong
      · rw [matched] at wrong
        cases wrong
    refine ⟨_, rfl, ?_⟩
    rw [done]
    refine ⟨fun spent j hj => ?_, ?_, ?_, ?_, fun service left => ?_⟩
    · rw [show (drainPoll (nvRetry p s)).nvu.failed = _ from congrArg Prod.snd (drainPoll_nvPast _)]
      exact nvRetry_failed spent hj
    · rw [drainPoll_frame, nvRetry_frame]
    · rw [drainPoll_frame, nvRetry_frame]
    · rw [drainPoll_frame, nvRetry_frame]
    · rw [nvRetry_again left, drainPoll_service (by exact service)]
      exact ⟨rfl, rfl⟩

end Sys2Proof

/-! SUPPORT. The rules of the media ports' queues: an operation issued, a slot used; and records on their way to readers. -/

namespace Sys2Proof.Machine

-- Media ports

@[simp] theorem mediaOf_mediaMod (m : Nat) (f : Media → Media) (s : State) (n : Nat) :
    mediaOf (mediaMod m f s) n = if n = m then f (mediaOf s m) else mediaOf s n := mediaOf_mediaPut ..

theorem mediaOf_congr {s t : State} (h : t.media = s.media) (m : Nat) : mediaOf t m = mediaOf s m := by
  unfold mediaOf
  rw [h]

theorem mediaOf_issueW (m : Nat) (o : MOp) (s : State) (n : Nat) :
    mediaOf (issueW m o s) n = if n = m then
      { mediaOf s m with fifoW := (mediaOf s m).fifoW ++ [{ o with seq := s.mseq, cyc := now s }] } else mediaOf s n := by
  unfold issueW
  rw [mediaOf_mediaMod]
  rfl

theorem mediaOf_issueR (m : Nat) (o : MOp) (s : State) (n : Nat) :
    mediaOf (issueR m o s) n = if n = m then
      { mediaOf s m with fifoR := (mediaOf s m).fifoR ++ [{ o with seq := s.mseq, cyc := now s }] } else mediaOf s n := by
  unfold issueR
  rw [mediaOf_mediaMod]
  rfl

/-- A port once a slot of a direction and class is used at an instant for a line. -/
def slotUsed (d : Dir) (c : Cls) (at' line : Nat) (x : Media) : Media :=
  let k := slotKey d (clsNo c)
  let x := { x with slots := tabPut 0 x.slots k (tabGet 0 x.slots k + 1) }
  match d with
  | .w => { x with stampW := some (at', line) }
  | .r => { x with stampR := some (at', line) }

theorem slotUse_eq (m : Nat) (d : Dir) (c : Cls) (line : Nat) (s : State) :
    slotUse m d c line s = mediaMod m (slotUsed d c (now s) line) s := rfl

theorem slotUse_frame (m : Nat) (d : Dir) (c : Cls) (line : Nat) (s : State) :
    slotUse m d c line s = { s with media := (slotUse m d c line s).media } := rfl

@[simp] theorem slotUsed_fifoR (d : Dir) (c : Cls) (a l : Nat) (x : Media) : (slotUsed d c a l x).fifoR = x.fifoR := by
  cases d <;> rfl

@[simp] theorem slotUsed_fifoW (d : Dir) (c : Cls) (a l : Nat) (x : Media) : (slotUsed d c a l x).fifoW = x.fifoW := by
  cases d <;> rfl

theorem mediaOf_slotUse (m : Nat) (d : Dir) (c : Cls) (line : Nat) (s : State) (n : Nat) :
    mediaOf (slotUse m d c line s) n = if n = m then slotUsed d c (now s) line (mediaOf s m) else mediaOf s n := by
  rw [slotUse_eq, mediaOf_mediaMod]

theorem slotUse_fifoR (m : Nat) (d : Dir) (c : Cls) (line : Nat) (s : State) (n : Nat) :
    (mediaOf (slotUse m d c line s) n).fifoR = (mediaOf s n).fifoR := by
  rw [mediaOf_slotUse]
  split
  · next same => rw [slotUsed_fifoR, same]
  · rfl

theorem slotUse_fifoW (m : Nat) (d : Dir) (c : Cls) (line : Nat) (s : State) (n : Nat) :
    (mediaOf (slotUse m d c line s) n).fifoW = (mediaOf s n).fifoW := by
  rw [mediaOf_slotUse]
  split
  · next same => rw [slotUsed_fifoW, same]
  · rfl

-- Wide counters

/-- A U64 counter wraps (R342). -/
theorem regVal_count1_wide {idx sub row : Nat} {s : State} (wide : typeMax idx sub = 2 ^ 64 - 1) :
    regVal (count1 idx sub row s) idx sub row = (regVal s idx sub row + 1) % 2 ^ 64 := by
  unfold count1 countUp
  rw [regVal_regPut_same, if_pos (.inr wide), wide, Nat.sub_add_cancel (by decide)]

-- Probes

/-- The probes of a port with those of a line marked issued. -/
def probeMarked (a : Nat) (l : List Probe) : List Probe :=
  l.map (fun q => if q.addr = a ∧ q.void = false then { q with issued := true } else q)

/-- A probe that goes next, issued and counted. -/
def probeSent (m : Nat) (p : Probe) (ctr : Nat) (s : State) : State :=
  issueR m { kind := .sidecar, addr := p.addr, owner := .probe, kidx := p.kidx }
    (count1 0x6050 ctr 0 (probesPut m (probeMarked p.addr (probesOf s m)) s))

theorem probeIssue_some {s : State} {m : Nat} {want : Probe → Bool} {ctr : Nat} {p : Probe}
    (next : probeNext s m want = some p) : probeIssue m want ctr s = probeSent m p ctr s := by
  unfold probeIssue
  rw [next]
  rfl

theorem probeSent_fifoR (m : Nat) (p : Probe) (ctr : Nat) (s : State) :
    (mediaOf (probeSent m p ctr s) m).fifoR = (mediaOf s m).fifoR ++
      [{ kind := .sidecar, addr := p.addr, owner := .probe, kidx := p.kidx, seq := s.mseq, cyc := now s }] := by
  unfold probeSent
  rw [mediaOf_issueR, if_pos rfl]
  rfl

theorem probesOf_probeSent (m : Nat) (p : Probe) (ctr : Nat) (s : State) :
    probesOf (probeSent m p ctr s) m = probeMarked p.addr (probesOf s m) :=
  (probesOf_probesPut m _ s m).trans (if_pos rfl)

theorem probeMarked_issued {a : Nat} {l : List Probe} {q : Probe} (hq : q ∈ probeMarked a l) (same : q.addr = a)
    (good : q.void = false) : q.issued = true := by
  obtain ⟨r, -, rfl⟩ := List.mem_map.1 hq
  by_cases named : r.addr = a ∧ r.void = false
  · rw [if_pos named]
  · rw [if_neg named] at same good
    exact absurd ⟨same, good⟩ named

theorem probeSent_frame (m : Nat) (p : Probe) (ctr : Nat) (s : State) :
    probeSent m p ctr s = { s with media := (probeSent m p ctr s).media, mseq := (probeSent m p ctr s).mseq
                                   jack := (probeSent m p ctr s).jack, regs := (probeSent m p ctr s).regs } := rfl

theorem probeSent_prefill (m : Nat) (p : Probe) (ctr : Nat) (s : State) :
    (probeSent m p ctr s).jack.prefill = s.jack.prefill := rfl

theorem regVal_probeSent {m : Nat} {p : Probe} {ctr : Nat} {s : State} (wide : typeMax 0x6050 ctr = 2 ^ 64 - 1) :
    regVal (probeSent m p ctr s) 0x6050 ctr 0 = (regVal s 0x6050 ctr 0 + 1) % 2 ^ 64 := by
  unfold probeSent
  rw [issueR_frame]
  generalize hu : probesPut m _ s = u
  have regs : u.regs = s.regs := by rw [← hu]; rfl
  refine (regVal_congr (s := count1 0x6050 ctr 0 u) rfl _ _ _).trans ?_
  rw [regVal_count1_wide wide, regVal_congr regs]

/-- A probe sent in an SP slot is the last read of its port, counted, and nothing else changes. -/
theorem probeSent_slotUse {m : Nat} {p : Probe} {ctr : Nat} {s t : State} (wide : typeMax 0x6050 ctr = 2 ^ 64 - 1)
    (sent : t = probeSent m p ctr (slotUse m .r .sp noLine s)) :
    (mediaOf t m).fifoR = (mediaOf s m).fifoR ++
      [{ kind := .sidecar, addr := p.addr, owner := .probe, kidx := p.kidx, seq := s.mseq, cyc := now s }] ∧
    regVal t 0x6050 ctr 0 = (regVal s 0x6050 ctr 0 + 1) % 2 ^ 64 ∧
    t = { s with media := t.media, mseq := t.mseq, jack := t.jack, regs := t.regs } := by
  subst sent
  refine ⟨?_, ?_, ?_⟩
  · rw [probeSent_fifoR, slotUse_fifoR]
    rfl
  · rw [regVal_probeSent wide, regVal_congr (s := s) (t := slotUse m .r .sp noLine s) rfl]
  · rw [probeSent_frame, slotUse_frame]

/-- The earlier of two probes. -/
theorem foldl_ord_le (l : List Probe) (p : Probe) :
    (l.foldl (fun b q => if q.ord < b.ord then q else b) p).ord ≤ p.ord ∧
      ∀ q ∈ l, (l.foldl (fun b q => if q.ord < b.ord then q else b) p).ord ≤ q.ord := by
  induction l generalizing p with
  | nil => exact ⟨Nat.le_refl _, nofun⟩
  | cons x l ih =>
    obtain ⟨first, rest⟩ := ih (if x.ord < p.ord then x else p)
    rw [List.foldl_cons]
    have least : (if x.ord < p.ord then x else p).ord ≤ p.ord ∧ (if x.ord < p.ord then x else p).ord ≤ x.ord := by
      split <;> omega
    refine ⟨Nat.le_trans first least.1, fun q hq => ?_⟩
    rcases List.mem_cons.1 hq with rfl | hq
    · exact Nat.le_trans first least.2
    · exact rest q hq

theorem probeNext_ord {s : State} {m : Nat} {want : Probe → Bool} {p q : Probe} (next : probeNext s m want = some p)
    (hq : q ∈ probesOf s m) (waits : (!q.issued && !q.void && want q) = true) : p.ord ≤ q.ord := by
  have mem : q ∈ (probesOf s m).filter (fun p => !p.issued && !p.void && want p) := List.mem_filter.2 ⟨hq, waits⟩
  unfold probeNext at next
  split at next
  · cases next
  · next first rest found =>
    obtain rfl := Option.some.inj next
    obtain ⟨least, others⟩ := foldl_ord_le rest first
    rw [found] at mem
    rcases List.mem_cons.1 mem with rfl | mem
    · exact least
    · exact others q mem

theorem probeWaits_of_next {s : State} {m : Nat} {want : Probe → Bool} {p : Probe} (next : probeNext s m want = some p) :
    probeWaits s m want = true := by
  unfold probeNext at next
  split at next
  · cases next
  · next first rest found =>
    have mem : first ∈ (probesOf s m).filter (fun p => !p.issued && !p.void && want p) := found ▸ List.mem_cons_self
    obtain ⟨here, waits⟩ := List.mem_filter.1 mem
    exact List.any_eq_true.2 ⟨first, here, waits⟩

-- The prefill

/-- The probe of a prefill's line. -/
def prefillProbe (s : State) (a : Nat) : Probe :=
  { addr := a, kidx := (slotByAddr s a).getD 0, kind := .prefill, prefill := true }

/-- A prefill moved on to its next line. -/
def prefillMoved (a left : Nat) (s : State) : State := { s with jack := { s.jack with prefill := prefillNext a left } }

section
variable {m a left : Nat} {s : State} (spare : spSpare s m = true) (prefill : s.jack.prefill = some (a, left))
  (due : prefillDue s m = true)
include spare prefill due

theorem doPrefillProbe_known (known : (probeOf s a).isSome = true) : doPrefillProbe m s = prefillMoved a left s := by
  unfold doPrefillProbe
  rw [prefill]
  dsimp only
  rw [if_pos ⟨spare, due⟩, if_pos (by exact known)]
  rfl

theorem doPrefillProbe_fresh (fresh : probeOf s a = none) : doPrefillProbe m s = probeSent m (prefillProbe s a) 7
    (slotUse m .r .sp noLine (probesPut m (probesOf s m ++ [prefillProbe s a]) (prefillMoved a left s))) := by
  have here : portOf s a = m := by
    unfold prefillDue at due
    rw [prefill] at due
    exact beq_iff_eq.1 (Bool.and_eq_true_iff.1 due).1
  have next : probeNext (slotUse m .r .sp noLine (probesPut m (probesOf s m ++ [prefillProbe s a]) (prefillMoved a left s))) m
      (fun p => p.addr == a) = some (prefillProbe s a) := by
    have probes : probesOf (slotUse m .r .sp noLine (probesPut m (probesOf s m ++ [prefillProbe s a])
        (prefillMoved a left s))) m = probesOf s m ++ [prefillProbe s a] :=
      (probesOf_probesPut m _ _ m).trans (if_pos rfl)
    have none : (probesOf s m).filter (fun p => !p.issued && !p.void && p.addr == a) = [] := by
      unfold probeOf at fresh
      rw [here, List.find?_eq_none] at fresh
      refine List.filter_eq_nil_iff.2 fun p hp waits => fresh p hp ?_
      obtain ⟨good, line⟩ := Bool.and_eq_true_iff.1 waits
      rw [line, (Bool.and_eq_true_iff.1 good).2]
      rfl
    have own : [prefillProbe s a].filter (fun p => !p.issued && !p.void && p.addr == a) = [prefillProbe s a] := by
      rw [List.filter_cons_of_pos]
      · rfl
      · exact beq_self_eq_true a
    unfold probeNext
    rw [probes, List.filter_append, none, own]
    rfl
  unfold doPrefillProbe
  rw [prefill]
  dsimp only
  rw [if_pos ⟨spare, due⟩, if_neg]
  · exact probeIssue_some next
  · have moved : (probeOf (prefillMoved a left s) a).isSome = false := congrArg Option.isSome fresh
    exact fun found => nomatch (found.symm.trans moved : true = false)

end

-- Insertion into a rising list

theorem mem_insertNat {a n : Nat} {l : List Nat} : a ∈ insertNat n l ↔ a = n ∨ a ∈ l := by
  induction l with
  | nil => simp [insertNat]
  | cons x l ih =>
    unfold insertNat
    split
    · simp
    · split
      · next same => simp [same]
      · rw [List.mem_cons, ih, List.mem_cons]
        exact or_left_comm

-- Records

theorem ctlAdmit_frame (n : Nat) (s : State) :
    ctlAdmit n s = { s with ev := { s.ev with backlog := (ctlAdmit n s).ev.backlog, ctlWait := (ctlAdmit n s).ev.ctlWait } } := by
  induction n generalizing s with
  | zero => rfl
  | succ n ih =>
    unfold ctlAdmit
    split
    · rfl
    · split
      · rw [ih]
      · rfl

theorem ctlAdmit_none {n : Nat} {s : State} (none : s.ev.ctlWait = []) : ctlAdmit n s = s := by
  cases n with
  | zero => rfl
  | succ n =>
    unfold ctlAdmit
    rw [none]

theorem ctlSend_modeSent (code : Nat) (p1 p2 p3 : BitVec 32) (s : State) :
    (ctlSend code p1 p2 p3 s).ev.modeSent = s.ev.modeSent := by
  unfold ctlSend
  dsimp only
  split <;> rfl

-- The repair log and flushes

/-- An entry of the repair log takes a place, or is counted as not logged; rows, spares and the queue stay. -/
theorem logAppend_frame (e : LogEnt) (s : State) :
    logAppend e s = { s with
      rep := { s.rep with notLogged := (logAppend e s).rep.notLogged, logFull := (logAppend e s).rep.logFull
                          logPlaces := (logAppend e s).rep.logPlaces }
      nvu := (logAppend e s).nvu, regs := (logAppend e s).regs, ev := (logAppend e s).ev } := by
  unfold logAppend
  split
  · dsimp only
    split
    · rfl
    · rw [raise_frame]
  · dsimp only
    rw [nvPush_frame]

/-- A flush issued in an MX slot is the last write of its port. -/
theorem flushIssue_fifoW (m : Nat) (o : MOwner) (s : State) :
    mediaOf (flushIssue m o s) m = { slotUsed .w .mx (now s) noLine (mediaOf s m) with
      fifoW := (mediaOf s m).fifoW ++ [{ kind := .flush, addr := 0, owner := o, seq := s.mseq, cyc := now s }] } := by
  unfold flushIssue
  rw [mediaOf_issueW, if_pos rfl, mediaOf_slotUse, if_pos rfl, slotUsed_fifoW]
  rfl

/-- FLUSH_PERSIST of the drain. -/
theorem doFlushPersist_drain {m : Nat} {s : State} (alive : (mediaOf s m).failed = false) (free : claimOk s m .w = true)
    (idle : dirBusy s m .w = false) (draining : s.pwr.phase = .draining) (first : (mediaOf s m).drainFlush = false)
    (last : drainPortDone s m = true) :
    doFlushPersist m s = flushIssue m .drainFlush (mediaMod m (fun y => { y with drainFlush := true, drainOut := true }) s) := by
  unfold doFlushPersist
  simp only [alive, free, idle, draining, first, last]
  rfl

/-- FLUSH_PERSIST in service, on request. -/
theorem doFlushPersist_service {m : Nat} {s : State} (alive : (mediaOf s m).failed = false) (free : claimOk s m .w = true)
    (idle : dirBusy s m .w = false) (service : s.pwr.phase = .service) (asked : (mediaOf s m).flushReq = true) :
    doFlushPersist m s = flushIssue m .flush (mediaMod m (fun y => { y with flushReq := false, flushOut := true }) s) := by
  unfold doFlushPersist
  simp only [alive, free, idle, service, asked]
  rfl

/-- The slot of a row repair is used, and the row has left the queue. -/
def repairTaken (m mac row : Nat) (s : State) : State :=
  let u := slotUse m .w .mx noLine s
  { u with rep := { u.rep with queue := u.rep.queue.filter (fun e => e != (mac, row)) } }

theorem repairTaken_frame (m mac row : Nat) (s : State) : repairTaken m mac row s =
    { s with media := (slotUse m .w .mx noLine s).media
             rep := { s.rep with queue := s.rep.queue.filter (fun e => e != (mac, row)) } } := rfl

section
variable {m mac row : Nat} {s : State} (slot : slotFor s m .w = some .mx) (picked : rowPick s m = some (mac, row))
include slot picked

theorem doRowRepair_out (out : spareFree s mac = none) : ∃ media regs ev noted, doRowRepair m s =
    { s with media := media, regs := regs, ev := ev
             rep := { s.rep with queue := s.rep.queue.filter (fun e => e != (mac, row)), outNoted := noted } } := by
  have done : doRowRepair m s = raise .rowSparesOut (srcGlobal 33) mac row 0
      { repairTaken m mac row s with rep := { (repairTaken m mac row s).rep with
        outNoted := insertNat (rowNo mac row) s.rep.outNoted } } := by
    unfold doRowRepair
    rw [if_pos slot, picked]
    dsimp only
    split
    · rfl
    · next sp found => exact nomatch (Eq.symm out).trans found
  rw [done, raise_frame]
  exact ⟨_, _, _, _, rfl⟩

theorem doRowRepair_spare {sp : Nat} (spare : spareFree s mac = some sp) :
    ∃ media nvu regs ev n full places, doRowRepair m s =
      { s with media := media, nvu := nvu, regs := regs, ev := ev
               rep := { s.rep with
                 queue := s.rep.queue.filter (fun e => e != (mac, row)), remap := tabSet s.rep.remap (rowNo mac row) sp
                 spares := insertNat (mac * 4 + sp) s.rep.spares, notLogged := n, logFull := full, logPlaces := places } } := by
  have done : doRowRepair m s = logAppend { kind := 1, spare := sp, macroNo := mac, row := row }
      (raise .rowRepair (srcGlobal 32) mac row sp (countUp 0x2400 0x0D 0 1 (rowRemap mac row sp (repairTaken m mac row s)))) := by
    unfold doRowRepair
    rw [if_pos slot, picked]
    dsimp only
    split
    · next found => exact nomatch (Eq.symm spare).trans found
    · next q found =>
      obtain rfl := Option.some.inj ((Eq.symm spare).trans found)
      rfl
  rw [done, logAppend_frame]
  generalize logAppend _ _ = v
  rw [raise_frame]
  generalize raise _ _ _ _ _ _ = u
  rw [countUp_frame]
  generalize countUp _ _ _ _ _ = w
  rw [repairTaken_frame]
  dsimp only [rowRemap]
  exact ⟨(slotUse m .w .mx noLine s).media, v.nvu, v.regs, v.ev, v.rep.notLogged, v.rep.logFull, v.rep.logPlaces, rfl⟩

end

end Sys2Proof.Machine

namespace Sys2Proof
open Sys2Proof.Machine

/-- Settles O47: the recorder and the subscriptions take their oldest records; CLEAR and RECORDER_READY. -/
theorem recordsGoToTheirReaders : Obligations.RecordsGoToTheirReaders := by
  unfold Obligations.RecordsGoToTheirReaders
  refine ⟨fun r rest s online waits => ⟨_, rfl, ?_⟩, fun k sb r rest key s sub queue held => ?_, fun p1 p2 p3 s clearing => ?_,
    fun online s => ⟨_, rfl, ?_⟩⟩
  · have done : doRecorderAccept s =
        ctlAdmit 1 (count1 0x2500 9 0 { s with ev := { s.ev with backlog := rest, recTx := some r } }) := by
      unfold doRecorderAccept
      rw [if_neg online, waits]
    rw [done]
    refine ⟨?_, fun none => ?_, ?_⟩
    · rw [ctlAdmit_frame]
      rfl
    · rw [ctlAdmit_none (by exact none)]
      rfl
    · rw [ctlAdmit_frame]
      rfl
  · have taken : exec (.eventMessage k) s = .next (msgSend sb.eid 0x88#8 k 0x00#8 (sb.seq + 1#32) (recBytes r)
        { s with ev := { s.ev with subs := tabSet s.ev.subs k { sb with queue := rest, seq := sb.seq + 1#32 } } }) := by
      show Host.Outcome.next (doEventMessage k s) = _
      unfold doEventMessage subTake
      rw [sub]
      dsimp only
      rw [queue]
    unfold msgSend at taken
    dsimp only at taken
    rw [held] at taken
    refine ⟨_, _, taken, rfl, rfl, rfl, rfl, rfl, ?_, rfl⟩
    exact (tabFind_tabSet ..).trans (if_pos rfl)
  · show Host.Outcome.next (doRecorderClearAck s) = _
    unfold doRecorderClearAck
    rw [clearing]
  · unfold doRecOnlineChange
    generalize (if online = true then 1 else 0) = v
    dsimp only
    split
    · rw [modeSend_frame]
      refine ⟨regVal_regPut_same .., fun _ _ => ctlSend_modeSent .., rfl⟩
    · next later =>
      refine ⟨regVal_regPut_same .., fun up running => ?_, rfl⟩
      exact Classical.byContradiction fun unsent => later ⟨up, running, eq_false_of_ne_true unsent⟩

/-- Settles O35: a probe is issued as the last read of its port, counted and marked issued. -/
theorem probesAreIssued : Obligations.ProbesAreIssued := by
  unfold Obligations.ProbesAreIssued
  refine ⟨fun m p s slot next => ?_, fun m p s spare due next => ?_, fun m a left s spare prefill due => ⟨_, rfl, ?_⟩⟩
  · have used : probeNext (slotUse m .r .sp noLine s) m probeIsWrite = some p := next
    have issued : doSidecarProbe m s = probeSent m p 6 (slotUse m .r .sp noLine s) := by
      unfold doSidecarProbe
      rw [if_pos ⟨slot, probeWaits_of_next next⟩, probeIssue_some used]
    obtain ⟨queue, count, frame⟩ := probeSent_slotUse (ctr := 6) (by decide +kernel) issued
    refine ⟨_, rfl, fun q hq isWrite unissued good => ?_, queue, count, fun q hq same good => ?_, frame⟩
    · exact probeNext_ord next hq (by rw [unissued, good, probeIsWrite, decide_eq_true isWrite]; rfl)
    · rw [issued, probesOf_probeSent] at hq
      exact probeMarked_issued hq same good
  · have used : probeNext (slotUse m .r .sp noLine s) m probeIsLook = some p := next
    have issued : doLookaheadProbe m s = probeSent m p 7 (slotUse m .r .sp noLine s) := by
      unfold doLookaheadProbe
      rw [if_pos ⟨spare, due⟩, probeIssue_some used]
    obtain ⟨queue, count, frame⟩ := probeSent_slotUse (ctr := 7) (by decide +kernel) issued
    exact ⟨_, rfl, queue, count, frame⟩
  · refine ⟨?_, fun fresh => ?_, fun known => ?_, ?_⟩
    · cases known : probeOf s a with
      | none => rw [doPrefillProbe_fresh spare prefill due known, probeSent_prefill]; rfl
      | some q => rw [doPrefillProbe_known spare prefill due (known ▸ rfl)]; rfl
    · rw [doPrefillProbe_fresh spare prefill due fresh, probeSent_fifoR, slotUse_fifoR, probesOf_probeSent]
      refine ⟨_, rfl, rfl, rfl, rfl, { prefillProbe s a with issued := true }, ?_, rfl, rfl, rfl⟩
      have probes : probesOf (slotUse m .r .sp noLine (probesPut m (probesOf s m ++ [prefillProbe s a])
          (prefillMoved a left s))) m = probesOf s m ++ [prefillProbe s a] :=
        (probesOf_probesPut m.val _ _ m.val).trans (if_pos rfl)
      rw [probes]
      exact List.mem_map.2 ⟨prefillProbe s a, List.mem_append_right _ List.mem_cons_self, if_pos ⟨rfl, rfl⟩⟩
    · rw [doPrefillProbe_known spare prefill due known]
      rfl
    · cases known : probeOf s a with
      | none =>
        obtain ⟨-, -, frame⟩ := probeSent_slotUse (by decide +kernel) (doPrefillProbe_fresh spare prefill due known)
        exact frame
      | some q => rw [doPrefillProbe_known spare prefill due (known ▸ rfl)]; rfl

/-- Settles O40: a row repair takes the next spare row, and a flush issues in its slot. -/
theorem repairsAndFlushesTakeTheirSlots : Obligations.RepairsAndFlushesTakeTheirSlots := by
  unfold Obligations.RepairsAndFlushesTakeTheirSlots
  refine ⟨fun m mac row s slot picked => ⟨_, rfl, ?_⟩, fun m s alive free idle => ⟨fun draining first last => ⟨_, rfl, ?_⟩,
    fun service asked => ⟨_, rfl, ?_⟩⟩⟩
  · cases spare : spareFree s mac with
    | none =>
      obtain ⟨media, regs, ev, noted, done⟩ := doRowRepair_out slot picked spare
      rw [done]
      exact ⟨rfl, nofun, fun _ => ⟨rfl, rfl⟩, rfl⟩
    | some sp =>
      obtain ⟨media, nvu, regs, ev, n, full, places, done⟩ := doRowRepair_spare slot picked spare
      rw [done]
      refine ⟨rfl, fun q same => ?_, nofun, rfl⟩
      obtain rfl := Option.some.inj same
      exact ⟨(tabFind_tabSet ..).trans (if_pos rfl), mem_insertNat.2 (.inl rfl)⟩
  · rw [doFlushPersist_drain alive free idle draining first last, flushIssue_fifoW, mediaOf_mediaMod, if_pos rfl]
    exact ⟨rfl, rfl, rfl, rfl⟩
  · rw [doFlushPersist_service alive free idle service asked, flushIssue_fifoW, mediaOf_mediaMod, if_pos rfl]
    exact ⟨rfl, rfl, rfl, rfl⟩

end Sys2Proof

/-! SUPPORT. The links: what an operation of one link may touch, what a flit that passes its receiver leaves, and the timers of
the keeper. -/

namespace Sys2Proof.Machine

-- Operations on one link

theorem linkOf_congr {s t : State} (h : t.links = s.links) (p : Nat) : linkOf t p = linkOf s p := by
  unfold linkOf
  rw [h]

theorem eqOf_congr {s t : State} (h : t.pool = s.pool) (p : Nat) : eqOf t p = eqOf s p := by
  unfold eqOf
  rw [h]

/-- An operation on link p alone: it changes registers, the event unit and that link's row. -/
structure LinkTouched (p : Nat) (s t : State) : Prop where
  frame : t = { s with regs := t.regs, ev := t.ev, links := t.links }
  others : ∀ q, q ≠ p → linkOf t q = linkOf s q

namespace LinkTouched
variable {p : Nat} {s t u : State}

theorem refl (p : Nat) (s : State) : LinkTouched p s s := ⟨rfl, fun _ _ => rfl⟩

theorem trans (h : LinkTouched p s t) (g : LinkTouched p t u) : LinkTouched p s u where
  frame := by rw [g.frame, h.frame]
  others q hq := (g.others q hq).trans (h.others q hq)

/-- An operation that changes registers and the event unit alone touches no link. -/
theorem of_note (h : t = { s with regs := t.regs, ev := t.ev }) : LinkTouched p s t where
  frame := by rw [h]
  others q _ := linkOf_congr (by rw [h]) q

theorem put (x : LinkSt) (s : State) : LinkTouched p s (linkPut p x s) where
  frame := rfl
  others q hq := by rw [linkOf_linkPut, if_neg hq]

theorem mod (f : LinkSt → LinkSt) (s : State) : LinkTouched p s (linkMod p f s) := put ..

theorem raise (e : Ev) (src p1 p2 p3 : Nat) (s : State) : LinkTouched p s (Machine.raise e src p1 p2 p3 s) :=
  of_note (raise_frame ..)

theorem count (idx sub row : Nat) (s : State) : LinkTouched p s (count1 idx sub row s) := of_note rfl

theorem reg (idx sub row v : Nat) (s : State) : LinkTouched p s (regPut idx sub row v s) := of_note rfl

theorem sumSet (k : Nat) (f : FrameSum) (s : State) : LinkTouched p s (Machine.sumSet k f s) := of_note (sumSet_frame k f s)

theorem sumUp (e : Ev) (src a b c : Nat) (s : State) : LinkTouched p s (Machine.sumUp e src a b c s) := of_note (sumUp_frame ..)

theorem eqOf (h : LinkTouched p s t) (q : Nat) : eqOf t q = Machine.eqOf s q := eqOf_congr (by rw [h.frame]) q

/-- A drop after operations on the link itself is a drop from the state before them. -/
theorem dropped {c : Nat} (h : LinkTouched p s u) (light : (linkOf u p).light = (linkOf s p).light)
    (up : (linkOf u p).up = (linkOf s p).up) (everUp : (linkOf u p).everUp = (linkOf s p).everUp)
    (d : LinkDropped u t p c) : LinkDropped s t p c where
  isDown := d.isDown
  downFlits := light ▸ d.downFlits
  startsAnew := d.startsAnew
  wasUp := by rw [d.wasUp, up, everUp]
  noResponses := d.noResponses
  marked := d.marked
  counted := d.counted
  others q hq := by
    rw [← h.others q hq, ← h.eqOf q, ← h.eqOf p]
    exact d.others q hq
  kept := by rw [d.kept, h.frame]

end LinkTouched

section
variable {e : Ev} {src p1 p2 p3 idx sub row k : Nat} {f : FrameSum} {s : State} {q : Nat}

theorem linkOf_raise : linkOf (raise e src p1 p2 p3 s) q = linkOf s q := linkOf_congr (by rw [raise_frame]) q

theorem linkOf_sumSet : linkOf (sumSet k f s) q = linkOf s q := linkOf_congr (by rw [sumSet_frame]) q

theorem linkOf_sumUp : linkOf (sumUp e src p1 p2 p3 s) q = linkOf s q := linkOf_congr (by rw [sumUp_frame]) q

theorem linkOf_count1 : linkOf (count1 idx sub row s) q = linkOf s q := rfl

theorem linkOf_regPut {v : Nat} : linkOf (regPut idx sub row v s) q = linkOf s q := rfl

end

-- Registers of a link

/-- A register of a link is written neither by events nor by reports of the NV unit. -/
theorem linkIdx_quiet (p : Fin 128) {g sub : Nat} (hg : g < 16) (hsub : sub < 256) : RegQuiet (linkIdx p g) sub 0 where
  subFits := hsub
  rowFits := by decide
  noSource := by unfold linkIdx; omega
  noAlert := .inl (by unfold linkIdx; omega)
  noReport := .inl (by unfold linkIdx; omega)

theorem okey_linkIdx_ne {p g g' a b : Nat} (_ : g < 16) (_ : g' < 16) (ha : a < 256) (hb : b < 256) (ne : g ≠ g' ∨ a ≠ b) :
    okey (linkIdx p g) a 0 ≠ okey (linkIdx p g') b 0 := by
  intro same
  obtain ⟨i, j, -⟩ := (okey_inj _ _ _ _ _ _ ha hb (by decide) (by decide)).1 same
  unfold linkIdx at i
  omega

theorem regVal_sumSet {idx sub row k : Nat} {f : FrameSum} {s : State} (h : RegQuiet idx sub row) :
    regVal (sumSet k f s) idx sub row = regVal s idx sub row := by
  unfold sumSet
  dsimp only
  split
  · rfl
  · split
    · unfold sumAmend
      split
      · dsimp only
        split <;> rfl
      · rfl
    · unfold sumFlush
      split
      · rw [regVal_raise_quiet (by omega) h]
        rfl
      · rfl

theorem regVal_sumUp {idx sub row : Nat} {e : Ev} {src a b c : Nat} {s : State} (h : RegQuiet idx sub row) :
    regVal (sumUp e src a b c s) idx sub row = regVal s idx sub row := regVal_sumSet h

theorem regVal_linkPut {p : Nat} {x : LinkSt} {s : State} {idx sub row : Nat} :
    regVal (linkPut p x s) idx sub row = regVal s idx sub row := rfl

theorem regVal_linkMod {p : Nat} {f : LinkSt → LinkSt} {s : State} {idx sub row : Nat} :
    regVal (linkMod p f s) idx sub row = regVal s idx sub row := rfl

/-- Groups and subindices of the counters of a link that its receiver and its keeper count. -/
def linkCounters : List (Nat × Nat) := [(1, 5), (1, 6), (1, 7), (1, 0x0B), (2, 6), (3, 8)]

theorem typeMax_linkCounter : ∀ p : Fin 128, ∀ e ∈ linkCounters, typeMax (linkIdx p e.1) e.2 = 2 ^ 32 - 1 := by
  decide +kernel

/-- A counter of a link counts one and stops at its largest value. -/
theorem regVal_linkCount {p : Fin 128} {g sub : Nat} {s : State} (counter : (g, sub) ∈ linkCounters) :
    regVal (count1 (linkIdx p g) sub 0 s) (linkIdx p g) sub 0 = min (regVal s (linkIdx p g) sub 0 + 1) (2 ^ 32 - 1) := by
  have large := typeMax_linkCounter p (g, sub) counter
  have small : linkIdx p g ≠ 0x6000 := by
    have fits : g < 16 := by
      simp only [linkCounters, List.mem_cons, Prod.mk.injEq, List.not_mem_nil, or_false] at counter
      omega
    unfold linkIdx
    omega
  dsimp only at large
  rw [regVal_count1 small (by rw [large]; decide), large]

-- Row errors of a command

/-- A state without its registers, its event unit and its links. -/
def State.apart (s : State) : State := { s with regs := [], ev := {}, links := [] }

theorem apart_iff {s t : State} : t.apart = s.apart ↔ t = { s with regs := t.regs, ev := t.ev, links := t.links } := by
  constructor
  · intro h
    have back : ∀ u : State, { u.apart with regs := u.regs, ev := u.ev, links := u.links } = u := fun _ => rfl
    rw [← back t, h]
    rfl
  · intro h
    rw [h]
    rfl

theorem apart_note {s t : State} (h : t = { s with regs := t.regs, ev := t.ev }) : t.apart = s.apart := by
  rw [h]
  rfl

theorem raise_apart (e : Ev) (src p1 p2 p3 : Nat) (s : State) : (raise e src p1 p2 p3 s).apart = s.apart :=
  apart_note (raise_frame ..)

theorem LinkTouched.apart {p : Nat} {s t : State} (h : LinkTouched p s t) : t.apart = s.apart := apart_iff.2 h.frame

theorem rowBad_apart (mac row : Nat) (s : State) : (rowBad mac row s).apart = (rowBad mac row s.apart).apart := by
  unfold rowBad
  dsimp only
  split
  · rfl
  · have held : (fun c => !cellHeld s c) = fun c => !cellHeld s.apart c := rfl
    rw [held]
    split <;> rfl

theorem keyRowUe_apart (mac row : Nat) (s : State) : (keyRowUe mac row s).apart = (keyRowUe mac row s.apart).apart := by
  unfold keyRowUe
  split
  · dsimp only
    rw [raise_apart, raise_apart, show s.apart.rep = s.rep from rfl]
    split
    · rfl
    · exact rowBad_apart ..
  · rfl

theorem rowQueue_apart (mac row : Nat) (s : State) : (rowQueue mac row s).apart = rowQueue mac row s.apart := by
  unfold rowQueue
  rw [show s.apart.rep = s.rep from rfl]
  split <;> rfl

/-- The errors that a watch list has counted for a row. -/
def rowCount (l : List RowWatch) (row : Nat) : Nat :=
  match l.find? (fun w => w.row == row) with
  | some w => w.count
  | none => 0

/-- The watch list with one more error of a row, and the row queued once its count is reached. -/
def rowWatch (e : Nat × Nat × Bool) (s : State) : State :=
  let l := watchAdd (tabGet [] s.rep.watch e.1) e.2.1
  let u := { s with rep := { s.rep with watch := tabPut [] s.rep.watch e.1 l } }
  if e.2.2 = true ∨ cfgVal s 0x2400 1 0 ≤ rowCount l e.2.1 then rowQueue e.1 e.2.1 u else u

theorem rowError_eq (s : State) (e : Nat × Nat × Bool) :
    rowError s e = rowWatch e (if e.2.2 then keyRowUe e.1 e.2.1 s else s) := rfl

theorem rowWatch_apart (e : Nat × Nat × Bool) (s : State) : (rowWatch e s).apart = rowWatch e s.apart := by
  unfold rowWatch
  dsimp only
  rw [show s.apart.rep = s.rep from rfl, show cfgVal s.apart 0x2400 1 0 = cfgVal s 0x2400 1 0 from rfl]
  split
  · exact rowQueue_apart ..
  · rfl

theorem rowError_apart (s : State) (e : Nat × Nat × Bool) : (rowError s e).apart = (rowError s.apart e).apart := by
  rw [rowError_eq, rowError_eq, rowWatch_apart, rowWatch_apart]
  split
  · rw [keyRowUe_apart]
  · rfl

theorem foldl_rowError_apart (l : List (Nat × Nat × Bool)) {s t : State} (same : t.apart = s.apart) :
    (l.foldl rowError t).apart = (l.foldl rowError s).apart := by
  induction l generalizing s t with
  | nil => exact same
  | cons e l ih => exact ih (by rw [rowError_apart, same, ← rowError_apart])

/-- The errors of the rows that a command reads do not look at registers, events or links. -/
theorem rowErrors_apart (f : Faults) {s t : State} (same : t.apart = s.apart) :
    (rowErrors f t).apart = (rowErrors f s).apart := by
  unfold rowErrors
  dsimp only
  refine foldl_rowError_apart _ (apart_iff.2 ?_)
  rw [apart_iff.1 same]

theorem rowBad_links (mac row : Nat) (s : State) : (rowBad mac row s).links = s.links := by
  unfold rowBad
  dsimp only
  split
  · rfl
  · split <;> rfl

theorem keyRowUe_links (mac row : Nat) (s : State) : (keyRowUe mac row s).links = s.links := by
  unfold keyRowUe
  split
  · dsimp only
    rw [raise_frame]
    split
    · rfl
    · exact rowBad_links ..
  · rfl

theorem rowWatch_frame (e : Nat × Nat × Bool) (s : State) : rowWatch e s = { s with rep := (rowWatch e s).rep } := by
  unfold rowWatch rowQueue
  dsimp only
  split
  · split <;> rfl
  · rfl

theorem rowErrors_links (f : Faults) (s : State) : (rowErrors f s).links = s.links :=
  foldl_keeps State.links rowError (fun s e => by
    rw [rowError_eq, rowWatch_frame]
    split
    · exact keyRowUe_links ..
    · rfl) _ _

theorem linkOf_rowErrors {f : Faults} {s : State} {q : Nat} : linkOf (rowErrors f s) q = linkOf s q :=
  linkOf_congr (rowErrors_links f s) q

/-- A register outside the repair unit's. -/
theorem regVal_rowErrors {f : Faults} {s : State} {idx sub row : Nat} (h : RegQuiet idx sub row) (own : idx ≠ 0x2400) :
    regVal (rowErrors f s) idx sub row = regVal s idx sub row := by
  have apart : ∀ k, k < 256 → okey idx sub row ≠ okey 0x2400 k 0 := fun k hk same =>
    own ((okey_inj _ _ _ _ _ _ h.subFits hk h.rowFits (by decide)).1 same).1
  have bad : ∀ mac r u, regVal (rowBad mac r u) idx sub row = regVal u idx sub row := fun mac r u => by
    unfold rowBad
    dsimp only
    split
    · exact regVal_countUp_ne (apart _ (by decide))
    · split
      · exact regVal_countUp_ne (apart _ (by decide))
      · exact (regVal_countUp_ne (apart _ (by decide))).trans (regVal_countUp_ne (apart _ (by decide)))
  refine foldl_keeps (fun s => regVal s idx sub row) rowError (fun s e => ?_) _ _
  rw [rowError_eq, rowWatch_frame]
  refine (regVal_congr (s := if e.2.2 then keyRowUe e.1 e.2.1 s else s) rfl _ _ _).trans ?_
  split
  · unfold keyRowUe
    split
    · dsimp only
      rw [regVal_raise_quiet (by decide) h]
      split
      · rfl
      · exact bad ..
    · rfl
  · rfl

end Sys2Proof.Machine

namespace Sys2Proof.Machine

-- Drops after a note

theorem linkOf_linkMod_same (p : Nat) (f : LinkSt → LinkSt) (s : State) : linkOf (linkMod p f s) p = f (linkOf s p) :=
  (linkOf_linkMod p f s p).trans (if_pos rfl)

theorem linkOf_linkPut_same (p : Nat) (x : LinkSt) (s : State) : linkOf (linkPut p x s) p = x :=
  (linkOf_linkPut p x s p).trans (if_pos rfl)

theorem LinkTouched.of_apart {p : Nat} {s t : State} (apart : t.apart = s.apart) (others : ∀ q, q ≠ p → linkOf t q = linkOf s q) :
    LinkTouched p s t := ⟨apart_iff.1 apart, others⟩

/-- A drop right after an event is a drop. -/
theorem linkDown_raise_dropped (p c : Nat) (e : Ev) (src p1 p2 p3 : Nat) (s : State) :
    LinkDropped s (linkDown p c (raise e src p1 p2 p3 s)) p c :=
  (LinkTouched.raise (p := p) e src p1 p2 p3 s).dropped (by rw [linkOf_raise]) (by rw [linkOf_raise]) (by rw [linkOf_raise])
    (linkDown_dropped ..)

theorem replayParity_dropped (p n : Nat) (s : State) : LinkDropped s (replayParity p n s) p 4 := linkDown_raise_dropped ..

theorem linkDropPool_rate (p : Nat) (s : State) : (linkOf (linkDropPool p s) p).rate = (linkOf s p).rate := by
  obtain ⟨f, v, fed, -, done⟩ := linkDropPool_dropped p s
  have self := fed.self.1
  have links : (linkDropPool p s).links = v.links := by rw [done]
  rw [linkOf_congr links, self]
  exact (congrArg LinkSt.rate (linkOf_linkPut_same p _ s)).trans rfl

/-- A drop leaves the rate of its link. -/
theorem linkDown_rate (p c : Nat) (s : State) : (linkOf (linkDown p c s) p).rate = (linkOf s p).rate := by
  unfold linkDown
  dsimp only
  rw [linkOf_linkMod, if_pos rfl]
  dsimp only
  rw [linkDropPool_rate, linkOf_regPut, linkOf_count1, linkOf_count1, linkOf_raise]

-- Lock

theorem lockLose_touched (p : Nat) (s : State) : LinkTouched p s (lockLose p s) := by
  unfold lockLose
  exact ((LinkTouched.count _ _ _ s).trans (.sumUp _ _ _ _ _ _)).trans (.mod _ _)

theorem linkOf_lockLose (p : Nat) (s : State) : linkOf (lockLose p s) p = { linkOf s p with
    lock := false, run := 0
    lost := match (linkOf s p).lost with
      | some l => some l
      | none => if (linkOf s p).up || (linkOf s p).negOpen then some (frameNo s, cfgVal s 0x2090 1 0) else none } := by
  unfold lockLose
  dsimp only
  rw [linkOf_linkMod_same, linkOf_sumUp, linkOf_count1]
  have start : losStart (sumUp .linkLockLost (srcLink p 0) (if (linkOf s p).light = true then 1 else 0) 0 0
      (count1 (linkIdx p 1) 7 0 s)) = (frameNo s, cfgVal s 0x2090 1 0) := by
    rw [sumUp_frame]
    rfl
  rw [start]
  cases (linkOf s p).lost <;> rfl

theorem regVal_lockLose (p : Fin 128) (s : State) :
    regVal (lockLose p s) (linkIdx p 1) 7 0 = min (regVal s (linkIdx p 1) 7 0 + 1) (2 ^ 32 - 1) := by
  unfold lockLose
  dsimp only
  rw [regVal_linkMod, regVal_sumUp (linkIdx_quiet p (by decide) (by decide)), regVal_linkCount (by decide)]

-- The replay timer

/-- The expiry of the replay timer is noted (R224, R226). -/
def replayNoted (p : Nat) (s : State) : State :=
  let x := linkOf s p
  sumUp .linkReplayTimer (srcLink p 1) x.una (x.expiries + 1) 0
    (linkPut p { x with expiries := x.expiries + 1, timerAt := some (now s, x.expiries) } s)

theorem replayNoted_touched (p : Nat) (s : State) : LinkTouched p s (replayNoted p s) :=
  (LinkTouched.put _ s).trans (.sumUp _ _ _ _ _ _)

theorem linkOf_replayNoted (p : Nat) (s : State) : linkOf (replayNoted p s) p = { linkOf s p with
    expiries := (linkOf s p).expiries + 1, timerAt := some (now s, (linkOf s p).expiries) } := by
  unfold replayNoted
  rw [linkOf_sumUp, linkOf_linkPut_same]

section
variable {p : Nat} {bad : Bool} {f : Faults} {s : State} (up : (linkOf s p).up = true) (held : (linkOf s p).una ≠ (linkOf s p).nxt)
  (quiet : (linkOf s p).nakAt ≠ some (now s))
include up held quiet

theorem doReplayTimer_due : doReplayTimer p bad f s =
    if (linkOf s p).force.replayLimit ≤ (linkOf s p).expiries + 1 then linkDown p 3 (replayNoted p s)
    else if bad then replayParity p (linkOf s p).una (rowErrors f (count1 (linkIdx p 2) 6 0 (replayNoted p s)))
    else linkMod p (fun y => { y with replay := some y.una }) (rowErrors f (count1 (linkIdx p 2) 6 0 (replayNoted p s))) := by
  unfold doReplayTimer
  dsimp only
  rw [if_neg]
  · rfl
  · rintro (down | same | nak)
    · rw [up] at down
      cases down
    · exact held same
    · exact quiet nak

theorem doReplayTimer_limit (limit : (linkOf s p).force.replayLimit ≤ (linkOf s p).expiries + 1) :
    LinkDropped s (doReplayTimer p bad f s) p 3 := by
  rw [doReplayTimer_due up held quiet, if_pos limit]
  have link := linkOf_replayNoted p s
  exact (replayNoted_touched p s).dropped (by rw [link]) (by rw [link]) (by rw [link]) (linkDown_dropped ..)

theorem doReplayTimer_bad (under : (linkOf s p).expiries + 1 < (linkOf s p).force.replayLimit) :
    LinkDropped (rowErrors f s) (doReplayTimer p true f s) p 4 := by
  rw [doReplayTimer_due up held quiet, if_neg (by omega), if_pos rfl]
  have noted := (replayNoted_touched p s).trans (.count (linkIdx p 2) 6 0 _)
  have link : linkOf (rowErrors f (count1 (linkIdx p 2) 6 0 (replayNoted p s))) p = _ :=
    linkOf_rowErrors.trans (linkOf_count1.trans (linkOf_replayNoted p s))
  have touched : LinkTouched p (rowErrors f s) (rowErrors f (count1 (linkIdx p 2) 6 0 (replayNoted p s))) :=
    .of_apart (rowErrors_apart f noted.apart) fun q hq => by
      rw [linkOf_rowErrors, linkOf_rowErrors, noted.others q hq]
  exact touched.dropped (by rw [link, linkOf_rowErrors]) (by rw [link, linkOf_rowErrors]) (by rw [link, linkOf_rowErrors])
    (replayParity_dropped ..)

end

end Sys2Proof.Machine

namespace Sys2Proof
open Sys2Proof.Machine

/-- Settles O21: the rate, the lock and the timers of a link. -/
theorem rateLockAndTimersOfALink : Obligations.RateLockAndTimersOfALink := by
  unfold Obligations.RateLockAndTimersOfALink
  refine ⟨fun p rate s => ⟨fun same => ?_, fun other => ?_⟩, fun p s running served alive => ?_, fun p s locked => ?_,
    fun p f los s lost => ⟨fun frame cycle => ?_, fun early => ?_⟩, fun p s lost => ?_,
    fun p s up => ⟨fun waits => ?_, ?_, fun held quiet f => ⟨fun under => ?_, fun under => ?_, fun limit bad => ?_⟩⟩⟩
  · show Host.Outcome.next (doRateChange p rate.toNat s) = _
    unfold doRateChange
    rw [if_pos same]
  · refine ⟨_, rfl, ?_⟩
    unfold doRateChange
    rw [if_neg other]
    dsimp only
    split
    · next live =>
      refine ⟨?_, fun _ => ?_, fun down quiet => ?_⟩
      · rw [linkDown_rate, linkOf_linkPut, if_pos rfl]
      · exact (LinkTouched.put _ s).dropped (by rw [linkOf_linkPut_same]) (by rw [linkOf_linkPut_same])
          (by rw [linkOf_linkPut_same]) (linkDown_dropped ..)
      · rw [down, quiet] at live
        simp at live
    · next idle => exact ⟨by rw [linkOf_linkPut_same], fun live => absurd live idle, fun _ _ => rfl⟩
  · show Host.Outcome.next (doLockGained p s) = _
    unfold doLockGained
    dsimp only
    rw [if_neg (by rw [alive, running]; simpa using served)]
    rfl
  · refine ⟨_, rfl, ?_⟩
    unfold doLockLost
    rw [if_pos locked]
    exact ⟨linkOf_lockLose p s, regVal_lockLose p s, (lockLose_touched p s).others, (lockLose_touched p s).frame⟩
  · refine ⟨_, rfl, ?_⟩
    unfold doTLosExpiry
    rw [lost]
    dsimp only
    rw [if_pos (by unfold framesEnd; rw [frame, cycle]; simp)]
    exact linkDown_dropped ..
  · show Host.Outcome.next (doTLosExpiry p s) = _
    unfold doTLosExpiry
    rw [lost]
    dsimp only
    rw [if_neg]
    unfold framesEnd
    rw [Bool.and_eq_true, decide_eq_true_iff, decide_eq_true_iff]
    omega
  · show Host.Outcome.next (doTLosExpiry p s) = _
    unfold doTLosExpiry
    rw [lost]
  · show Host.Outcome.next (doAckTimer p s) = _
    refine congrArg (fun x => Host.Outcome.next (linkPut p x s)) (if_pos ?_)
    rw [up, decide_eq_true waits]
    rfl
  · show Host.Outcome.next (doHeartbeatDue p s) = _
    exact congrArg (fun x => Host.Outcome.next (linkPut p x s)) (if_pos up)
  · refine ⟨_, rfl, ?_⟩
    rw [doReplayTimer_due up held quiet, if_neg (by omega), if_neg (by decide)]
    have noted := (replayNoted_touched p s).trans (.count (linkIdx p 2) 6 0 _)
    have quietReg : RegQuiet (linkIdx p 2) 6 0 := linkIdx_quiet p (by decide) (by decide)
    refine ⟨?_, ?_, fun q hq => ?_, ?_⟩
    · rw [linkOf_linkMod_same, linkOf_rowErrors, linkOf_count1, linkOf_replayNoted]
    · rw [regVal_linkMod, regVal_rowErrors quietReg (by unfold linkIdx; omega), regVal_linkCount (by decide)]
      unfold replayNoted
      rw [regVal_sumUp quietReg, regVal_linkPut]
    · rw [linkOf_linkMod, if_neg hq, linkOf_rowErrors, noted.others q hq]
    · exact apart_iff.1 ((LinkTouched.mod (p := p) _ _).apart.trans (rowErrors_apart f noted.apart))
  · exact ⟨_, rfl, doReplayTimer_bad up held quiet under⟩
  · exact ⟨_, rfl, doReplayTimer_limit up held quiet limit⟩

end Sys2Proof

/-! SUPPORT. The receiver of a link: what a flit that is passed on leaves, and what its ACK, NAK and RXLOCK fields do. -/

namespace Sys2Proof.Machine

theorem LinkTouched.counts {p : Nat} (idx sub row n : Nat) (s : State) : LinkTouched p s (countUp idx sub row n s) := .of_note rfl

theorem LinkTouched.event {p : Nat} (ev : EvUnit) (s : State) : LinkTouched p s { s with ev := ev } := .of_note rfl

-- A flit that is passed on

/-- The state on which a flit that is passed on acts: lock is held, and its corrected symbols are counted (R209, R212). -/
def passed (p n : Nat) (s : State) : State := fecCount p n (linkPut p (linkHeld s (linkOf s p)) s)

theorem linkHeld_locked {s : State} {x : LinkSt} (locked : x.lock = true) : linkHeld s x = { x with run := 0 } := by
  unfold linkHeld
  rw [if_pos locked]
  cases x
  cases locked
  rfl

theorem rxFlit_passes {s : State} {p : Nat} {errs : List Nat} (h : FlitPasses s p errs) :
    ∃ n, ∀ go, rxFlit p errs go s = go (passed p n s) := by
  obtain ⟨n, decoded⟩ := Option.isSome_iff_exists.1 h.decodes
  refine ⟨n, fun go => ?_⟩
  unfold rxFlit
  rw [if_neg (by rw [h.hears]; decide), decoded]
  dsimp only
  unfold flitGood
  dsimp only
  by_cases locked : (linkOf s p).lock = true
  · rw [if_pos locked]
    unfold passed
    rw [linkHeld_locked locked]
  · have run : ¬ (linkOf s p).run + 1 < 8 := by
      have := h.locked.resolve_left locked
      omega
    rw [if_neg locked, if_neg run]
    unfold passed lockGain linkMod linkHeld
    rw [if_neg locked]

theorem passed_frame (p n : Nat) (s : State) :
    passed p n s = { s with regs := (passed p n s).regs, links := (passed p n s).links } := rfl

theorem linkOf_passed (p n : Nat) (s : State) : linkOf (passed p n s) p = linkHeld s (linkOf s p) := by
  unfold passed fecCount
  exact (linkOf_congr (s := linkPut p (linkHeld s (linkOf s p)) s) rfl p).trans (linkOf_linkPut_same ..)

theorem passed_touched (p n : Nat) (s : State) : LinkTouched p s (passed p n s) := by
  unfold passed fecCount
  exact ((LinkTouched.put _ s).trans (.counts _ _ _ _ _)).trans (.counts _ _ _ _ _)

/-- The count of corrected symbols is SUB 4 of group 1 of the link. -/
theorem regVal_passed {p : Fin 128} {n g sub : Nat} {s : State} (hg : g < 16) (hsub : sub < 256) (other : g ≠ 1 ∨ sub ≠ 4) :
    regVal (passed p n s) (linkIdx p g) sub 0 = regVal s (linkIdx p g) sub 0 := by
  have total : okey (linkIdx p g) sub 0 ≠ okey 0x6000 7 0 := fun same => by
    have fits := (okey_inj _ _ _ _ _ _ hsub (by decide) (by decide) (by decide)).1 same
    unfold linkIdx at fits
    omega
  unfold passed fecCount
  rw [regVal_countUp_ne total, regVal_countUp_ne (okey_linkIdx_ne hg (by decide) hsub (by decide) other), regVal_linkPut]

theorem lcwCheck_linkHeld (s : State) (x : LinkSt) (data acks : Bool) (w : BitVec 64) :
    lcwCheck (linkHeld s x) data acks w = lcwCheck x data acks w := rfl

theorem lcwError_dropped (p c : Nat) (w : BitVec 64) (s : State) : LinkDropped s (lcwError p c w s) p 2 :=
  linkDown_raise_dropped ..

/-- A drop from the state on which a flit acts. -/
theorem passed_dropped {p n c : Nat} {s t : State} (d : LinkDropped (passed p n s) t p c) : LinkDropped s t p c :=
  (passed_touched p n s).dropped (by rw [linkOf_passed]; rfl) (by rw [linkOf_passed]; rfl) (by rw [linkOf_passed]; rfl) d

-- ACK, NAK and RXLOCK

theorem ackTake_frame (x : LinkSt) (a : Nat) : ackTake x a = { x with
    una := (ackTake x a).una, held := (ackTake x a).held, replay := (ackTake x a).replay
    expiries := (ackTake x a).expiries } := by
  unfold ackTake
  dsimp only
  split <;> rfl

/-- Lock changes nothing of what an ACK releases. -/
theorem ackTake_linkHeld (s : State) (x : LinkSt) (a : Nat) : ackTake (linkHeld s x) a = { linkHeld s x with
    una := (ackTake x a).una, held := (ackTake x a).held, replay := (ackTake x a).replay
    expiries := (ackTake x a).expiries } := by
  by_cases idle : seqDist (a + 1) x.una = 0 ∨ seqOpen x < seqDist (a + 1) x.una
  · have same : ackTake (linkHeld s x) a = linkHeld s x := if_pos idle
    have here : ackTake x a = x := if_pos idle
    rw [same, here]
    rfl
  · have here : ackTake x a = _ := if_neg idle
    rw [here]
    exact if_neg idle

theorem nakSum_touched (p : Nat) (sent : Option Nat) (s : State) : LinkTouched p s (nakSum p sent s) := .sumSet ..

theorem timerUndo_touched (p : Nat) (s : State) : LinkTouched p s (timerUndo p s) := by
  unfold timerUndo
  split
  · exact .refl p s
  · dsimp only
    split
    · exact .refl p s
    · exact ((LinkTouched.event _ s).trans (.reg _ _ _ _ _)).trans (.mod _ _)

theorem linkOf_timerUndo (p : Nat) (s : State) : linkOf (timerUndo p s) p = { linkOf s p with
    expiries := (linkOf (timerUndo p s) p).expiries, timerAt := (linkOf (timerUndo p s) p).timerAt } := by
  unfold timerUndo
  split
  · rfl
  · dsimp only
    split
    · rfl
    · rw [linkOf_linkMod_same]
      rfl

theorem nakTake_touched (p : Nat) (x : LinkSt) (w : BitVec 64) (s : State) : LinkTouched p s (nakTake p x w s) := by
  unfold nakTake
  split
  · exact (((LinkTouched.count _ _ _ s).trans (nakSum_touched _ _ _)).trans (timerUndo_touched _ _)).trans (.mod _ _)
  · exact .refl p s

/-- What a NAK may change of its link. -/
theorem linkOf_nakTake (p : Nat) (x : LinkSt) (w : BitVec 64) (s : State) : ∃ replay nakAt expiries timerAt,
    linkOf (nakTake p x w s) p = { linkOf s p with
      replay := replay, nakAt := nakAt, expiries := expiries, timerAt := timerAt } := by
  unfold nakTake
  split
  · dsimp only
    rw [linkOf_linkMod_same, linkOf_timerUndo]
    have sum : linkOf (nakSum p none (count1 (linkIdx p 2) 5 0 s)) p = linkOf s p := linkOf_sumSet
    rw [sum]
    exact ⟨_, _, _, _, rfl⟩
  · exact ⟨_, _, _, _, rfl⟩

/-- The fields of a flit with a good CRC: ACK and NAK where its type carries them, and RXLOCK (R215, R223). -/
def fieldsTaken (p : Nat) (acks : Bool) (w : BitVec 64) (s : State) : State :=
  rxlockNote p w (if acks then ackFields p w s else s)

theorem fieldsTaken_touched (p : Nat) (acks : Bool) (w : BitVec 64) (s : State) : LinkTouched p s (fieldsTaken p acks w s) := by
  unfold fieldsTaken rxlockNote
  split
  · exact ((LinkTouched.put _ s).trans (nakTake_touched _ _ _ _)).trans (.mod _ _)
  · exact .mod _ _

/-- What the fields of a flit leave of its link. -/
theorem linkOf_fieldsTaken (p : Nat) (acks : Bool) (w : BitVec 64) (s : State) : ∃ replay nakAt expiries timerAt,
    linkOf (fieldsTaken p acks w s) p = { (if acks then ackTake (linkOf s p) (lcwAck w) else linkOf s p) with
      mayData := (linkOf s p).mayData || lcwRxlock w
      replay := replay, nakAt := nakAt, expiries := expiries, timerAt := timerAt } := by
  unfold fieldsTaken rxlockNote
  rw [linkOf_linkMod_same]
  split
  · unfold ackFields
    dsimp only
    obtain ⟨r, n, x, t, taken⟩ := linkOf_nakTake p (linkOf s p) w (linkPut p (ackTake (linkOf s p) (lcwAck w)) s)
    rw [taken, linkOf_linkPut_same, ackTake_frame]
    exact ⟨r, n, x, t, rfl⟩
  · exact ⟨_, _, _, _, rfl⟩

-- DATA flits

section
variable {p : Fin 128} {w : BitVec 64} {body : BitVec 1920} {s : State}

theorem rxData_error {c : Nat} (up : (linkOf s p).up = true) (check : lcwCheck (linkOf s p) true true w = some c) :
    rxData p w body s = lcwError p c w s := by
  unfold rxData
  dsimp only
  rw [if_neg (by rw [up]; decide), check]

/-- A DATA flit with sound fields, by the distance of its SEQ. -/
theorem rxData_sound (up : (linkOf s p).up = true) (check : lcwCheck (linkOf s p) true true w = none) :
    rxData p w body s =
      if seqDist (lcwSeq w) (linkOf s p).e = 0 then dataAccept p w body (fieldsTaken p true w s)
      else if seqDist (lcwSeq w) (linkOf s p).e ≤ 2048 then
        linkMod p (fun y => { nakWant y with retxSeen := (nakWant y).retxSeen || lcwRetx w }) (fieldsTaken p true w s)
      else linkMod p (fun y => { y with retxSeen := y.retxSeen || lcwRetx w })
        (count1 (linkIdx p 2) 8 0 (fieldsTaken p true w s)) := by
  unfold rxData
  dsimp only
  rw [if_neg (by rw [up]; decide), check]
  rfl

theorem rxData_down (down : (linkOf s p).up = false) (form : lcwForm true w = none) :
    rxData p w body s = count1 (linkIdx p 1) 0x0B 0 s := by
  unfold rxData
  dsimp only
  rw [if_pos down, form]

theorem rxData_down_error {c : Nat} (down : (linkOf s p).up = false) (form : lcwForm true w = some c) :
    rxData p w body s = lcwError p c w (count1 (linkIdx p 1) 0x0B 0 s) := by
  unfold rxData
  dsimp only
  rw [if_pos down, form]

end

/-- The keeper's fields once a DATA flit in sequence is accepted (R219). -/
def dataCovered (x : LinkSt) : LinkSt := { x with
  e := (x.e + 1) % 4096, ack := x.e, nakOwed := false, nakSent := false, retxSeen := false
  uncovered := x.uncovered + 1
  ackDue := x.ackDue || decide (x.force.depth / 4 ≤ x.uncovered + 1) }

theorem dataAccept_eq (p : Fin 128) (w : BitVec 64) (body : BitVec 1920) (s : State) :
    dataAccept p w body s = slotRun 15 p (lcwVc w) body 0 (linkMod p dataCovered (count1 (linkIdx p 4) 5 0 s)) := rfl

/-- A NAK that is wanted changes what is owed alone. -/
theorem nakWant_frame (x : LinkSt) : nakWant x = { x with nakOwed := (nakWant x).nakOwed } := by
  unfold nakWant
  split <;> rfl

theorem nakWant_fresh {x : LinkSt} (unsent : x.nakSent = false) : (nakWant x).nakOwed = true := by
  unfold nakWant
  rw [unsent, Bool.false_and, if_neg (by decide)]

-- ACK_ONLY, IDLE and HEARTBEAT flits

/-- The state that an ACK_ONLY, IDLE or HEARTBEAT flit with sound fields leaves: a NAK is wanted where its SEQ is ahead. -/
def plainTaken (p : Nat) (acks : Bool) (w : BitVec 64) (s : State) : State :=
  if seqDist (lcwSeq w) (linkOf s p).e = 0 then fieldsTaken p acks w s else linkMod p nakWant (fieldsTaken p acks w s)

theorem plainTaken_touched (p : Nat) (acks : Bool) (w : BitVec 64) (s : State) : LinkTouched p s (plainTaken p acks w s) := by
  unfold plainTaken
  split
  · exact fieldsTaken_touched ..
  · exact (fieldsTaken_touched ..).trans (.mod _ _)

theorem linkOf_plainTaken (p : Nat) (acks : Bool) (w : BitVec 64) (s : State) : ∃ replay nakAt expiries timerAt nakOwed,
    linkOf (plainTaken p acks w s) p = { (if acks then ackTake (linkOf s p) (lcwAck w) else linkOf s p) with
      mayData := (linkOf s p).mayData || lcwRxlock w, nakOwed := nakOwed
      replay := replay, nakAt := nakAt, expiries := expiries, timerAt := timerAt } := by
  obtain ⟨r, n, x, t, taken⟩ := linkOf_fieldsTaken p acks w s
  unfold plainTaken
  split
  · rw [taken]
    exact ⟨_, _, _, _, _, rfl⟩
  · rw [linkOf_linkMod_same, nakWant_frame, taken]
    exact ⟨_, _, _, _, _, rfl⟩

section
variable {p : Nat} {errs : List Nat} {acks : Bool} {w : BitVec 64} {s : State} (h : FlitPasses s p errs)
  (up : (linkOf s p).up = true)
include h up

theorem rxPlain_sound (check : lcwCheck (linkOf s p) false acks w = none) :
    ∃ n, ∀ go, rxPlain p errs acks w go s = go (plainTaken p acks w (passed p n s)) := by
  obtain ⟨n, runs⟩ := rxFlit_passes h
  refine ⟨n, fun go => ?_⟩
  unfold rxPlain
  rw [runs]
  dsimp only
  rw [linkOf_passed, lcwCheck_linkHeld, if_neg (by show ¬ (linkOf s p).up = false; rw [up]; decide), check]
  unfold plainTaken
  rw [linkOf_passed]
  rfl

theorem rxPlain_error (check : lcwCheck (linkOf s p) false acks w ≠ none) (go : State → State) :
    LinkDropped s (rxPlain p errs acks w go s) p 2 := by
  obtain ⟨n, runs⟩ := rxFlit_passes h
  obtain ⟨c, check⟩ := Option.ne_none_iff_exists'.1 check
  unfold rxPlain
  rw [runs]
  dsimp only
  rw [linkOf_passed, lcwCheck_linkHeld, if_neg (by show ¬ (linkOf s p).up = false; rw [up]; decide), check]
  exact passed_dropped (lcwError_dropped ..)

end

-- The digest of the partner

theorem peerNote_touched (p : Nat) (dig : BitVec 64) (gen : BitVec 32) (s : State) : LinkTouched p s (peerNote p dig gen s) := by
  unfold peerNote
  dsimp only
  have noted : LinkTouched p s (regPut (linkIdx p 3) 7 0 gen.toNat (regPut (linkIdx p 3) 6 0 dig.toNat s)) :=
    (LinkTouched.reg _ _ _ _ s).trans (.reg _ _ _ _ _)
  split
  · exact (noted.trans (.mod _ _)).trans (.raise _ _ _ _ _ _)
  · exact noted

theorem linkOf_peerNote (p : Nat) (dig : BitVec 64) (gen : BitVec 32) (s : State) :
    linkOf (peerNote p dig gen s) p = { linkOf s p with peerNoted := (linkOf (peerNote p dig gen s) p).peerNoted } := by
  unfold peerNote
  dsimp only
  split
  · rw [linkOf_raise, linkOf_linkMod_same]
    rfl
  · rfl

theorem peerNote_noted {p : Nat} {dig : BitVec 64} {gen : BitVec 32} {s : State} (real : dig ≠ 0#64)
    (other : dig ≠ ownDigest64 s) : (linkOf (peerNote p dig gen s) p).peerNoted = true := by
  unfold peerNote
  dsimp only
  by_cases noted : (linkOf s p).peerNoted = true
  · rw [if_neg]
    · exact noted
    · rintro ⟨-, -, fresh⟩
      rw [linkOf_regPut, linkOf_regPut, noted] at fresh
      cases fresh
  · rw [if_pos ⟨real, other, eq_false_of_ne_true noted⟩, linkOf_raise, linkOf_linkMod_same]

theorem regVal_peerNote (p : Fin 128) (dig : BitVec 64) (gen : BitVec 32) (s : State) :
    regVal (peerNote p dig gen s) (linkIdx p 3) 6 0 = dig.toNat ∧ regVal (peerNote p dig gen s) (linkIdx p 3) 7 0 = gen.toNat := by
  have six : RegQuiet (linkIdx p 3) 6 0 := linkIdx_quiet p (by decide) (by decide)
  have seven : RegQuiet (linkIdx p 3) 7 0 := linkIdx_quiet p (by decide) (by decide)
  have src : srcLink p 2 < 2 ^ 24 := by unfold srcLink; omega
  have digest : regVal (regPut (linkIdx p 3) 7 0 gen.toNat (regPut (linkIdx p 3) 6 0 dig.toNat s)) (linkIdx p 3) 6 0 =
      dig.toNat := by
    rw [regVal_regPut_ne _ _ _ _ _ _ _ _ (okey_linkIdx_ne (by decide) (by decide) (by decide) (by decide) (.inr (by decide))),
      regVal_regPut_same]
  unfold peerNote
  dsimp only
  split
  · rw [regVal_raise_quiet src six, regVal_raise_quiet src seven, regVal_linkMod, regVal_linkMod, regVal_regPut_same]
    exact ⟨digest, rfl⟩
  · exact ⟨digest, regVal_regPut_same ..⟩

-- What a flit with an error of its LCW does

theorem rxDataFlit_error {p : Fin 128} {fec : List Nat} {w : BitVec 64} {body : BitVec 1920} {s : State}
    (h : FlitPasses s p fec) (up : (linkOf s p).up = true) (wrong : lcwCheck (linkOf s p) true true w ≠ none) :
    LinkDropped s (doRxDataFlit p fec w body s) p 2 := by
  obtain ⟨n, runs⟩ := rxFlit_passes h
  obtain ⟨c, wrong⟩ := Option.ne_none_iff_exists'.1 wrong
  have link := linkOf_passed p n s
  have upHere : (linkOf (passed p n s) p).up = true := by rw [link]; exact up
  have wrongHere : lcwCheck (linkOf (passed p n s) p) true true w = some c := by rw [link]; exact wrong
  unfold doRxDataFlit
  rw [runs, rxData_error upHere wrongHere]
  exact passed_dropped (lcwError_dropped ..)

theorem rxDataFlit_down_error {p : Fin 128} {fec : List Nat} {w : BitVec 64} {body : BitVec 1920} {s : State}
    (h : FlitPasses s p fec) (down : (linkOf s p).up = false) (wrong : lcwForm true w ≠ none) :
    LinkDropped s (doRxDataFlit p fec w body s) p 2 := by
  obtain ⟨n, runs⟩ := rxFlit_passes h
  obtain ⟨c, wrong⟩ := Option.ne_none_iff_exists'.1 wrong
  have downHere : (linkOf (passed p n s) p).up = false := by rw [linkOf_passed]; exact down
  unfold doRxDataFlit
  rw [runs, rxData_down_error downHere wrong]
  have counted := LinkTouched.count (p := p) (linkIdx p 1) 0x0B 0 (passed p n s)
  have link : linkOf (count1 (linkIdx p 1) 0x0B 0 (passed p n s)) p = linkOf (passed p n s) p := linkOf_count1 ..
  refine passed_dropped (counted.dropped ?_ ?_ ?_ (lcwError_dropped p c w _))
  all_goals rw [link]

/-- What a flit that only carries acknowledgements leaves: its link's ACK fields, and every other link. -/
structure AcksTaken (p : Nat) (acks : Bool) (w : BitVec 64) (s t : State) : Prop where
  una : (linkOf t p).una = (if acks then ackTake (linkOf s p) (lcwAck w) else linkOf s p).una
  held : (linkOf t p).held = (if acks then ackTake (linkOf s p) (lcwAck w) else linkOf s p).held
  mayData : (linkOf t p).mayData = ((linkOf s p).mayData || lcwRxlock w)
  expected : (linkOf t p).e = (linkOf s p).e
  touched : LinkTouched p s t

theorem plainTaken_acks (p n : Nat) (acks : Bool) (w : BitVec 64) (s : State) :
    AcksTaken p acks w s (plainTaken p acks w (passed p n s)) := by
  have touched := (passed_touched p n s).trans (plainTaken_touched p acks w _)
  obtain ⟨r, a, x, t, o, link⟩ := linkOf_plainTaken p acks w (passed p n s)
  rw [linkOf_passed] at link
  cases acks with
  | true =>
    rw [if_pos rfl, ackTake_linkHeld] at link
    exact ⟨by rw [link]; rfl, by rw [link]; rfl, by rw [link]; rfl, by rw [link]; rfl, touched⟩
  | false =>
    rw [if_neg (by decide)] at link
    exact ⟨by rw [link]; rfl, by rw [link]; rfl, by rw [link]; rfl, by rw [link]; rfl, touched⟩

end Sys2Proof.Machine

namespace Sys2Proof
open Sys2Proof.Machine

section
variable {p : Fin 128} {fec : List Nat} {w : BitVec 64} {body : BitVec 1920} {s : State} (h : FlitPasses s p fec)
  (up : (linkOf s p).up = true)
include h up

/-- A DATA flit in sequence (R219). -/
theorem rxDataFlit_inSequence (sound : lcwCheck (linkOf s p) true true w = none)
    (here : seqDist (lcwSeq w) (linkOf s p).e = 0) : ∃ u,
    exec (.rxDataFlit p fec w body) s = .next (slotRun 15 p (lcwVc w) body 0 u) ∧
    (linkOf u p).e = ((linkOf s p).e + 1) % 4096 ∧ (linkOf u p).ack = (linkOf s p).e ∧
    (linkOf u p).uncovered = (linkOf s p).uncovered + 1 ∧ (linkOf u p).nakOwed = false ∧
    (linkOf u p).una = (ackTake (linkOf s p) (lcwAck w)).una ∧ (∀ q, q ≠ p.val → linkOf u q = linkOf s q) ∧
    u = { s with regs := u.regs, ev := u.ev, links := u.links } := by
  obtain ⟨n, runs⟩ := rxFlit_passes h
  have link := linkOf_passed p n s
  have upHere : (linkOf (passed p n s) p).up = true := link ▸ up
  have flit : exec (.rxDataFlit p fec w body) s = .next (rxData p w body (passed p n s)) := congrArg Host.Outcome.next (runs _)
  have touched := (passed_touched p n s).trans (fieldsTaken_touched p true w _)
  obtain ⟨r, a, x, t, fields⟩ := linkOf_fieldsTaken p true w (passed p n s)
  rw [if_pos rfl, link, ackTake_linkHeld] at fields
  rw [rxData_sound upHere (link ▸ sound), if_pos (link ▸ here), dataAccept_eq] at flit
  have all := (touched.trans (.count (linkIdx p 4) 5 0 _)).trans (.mod dataCovered _)
  refine ⟨_, flit, ?_, ?_, ?_, ?_, ?_, all.others, all.frame⟩
  all_goals rw [linkOf_linkMod_same, linkOf_count1, fields]; rfl

/-- A DATA flit out of sequence: ahead, or a repeat (R220, R221). -/
theorem rxDataFlit_away (sound : lcwCheck (linkOf s p) true true w = none)
    (away : seqDist (lcwSeq w) (linkOf s p).e ≠ 0) : ∃ t,
    exec (.rxDataFlit p fec w body) s = .next t ∧ (linkOf t p).e = (linkOf s p).e ∧ (linkOf t p).ack = (linkOf s p).ack ∧
    (seqDist (lcwSeq w) (linkOf s p).e ≤ 2048 → (linkOf s p).nakSent = false → (linkOf t p).nakOwed = true) ∧
    (2048 < seqDist (lcwSeq w) (linkOf s p).e → (linkOf t p).nakOwed = (linkOf s p).nakOwed) ∧
    (∀ q, q ≠ p.val → linkOf t q = linkOf s q) ∧ t = { s with regs := t.regs, ev := t.ev, links := t.links } := by
  obtain ⟨n, runs⟩ := rxFlit_passes h
  have link := linkOf_passed p n s
  have upHere : (linkOf (passed p n s) p).up = true := link ▸ up
  have flit : exec (.rxDataFlit p fec w body) s = .next (rxData p w body (passed p n s)) := congrArg Host.Outcome.next (runs _)
  have touched := (passed_touched p n s).trans (fieldsTaken_touched p true w _)
  obtain ⟨r, a, x, t, fields⟩ := linkOf_fieldsTaken p true w (passed p n s)
  rw [if_pos rfl, link, ackTake_linkHeld] at fields
  rw [rxData_sound upHere (link ▸ sound), if_neg (link ▸ away)] at flit
  have distance : seqDist (lcwSeq w) (linkOf (passed p n s) p).e = seqDist (lcwSeq w) (linkOf s p).e := by rw [link]; rfl
  rw [distance] at flit
  refine ⟨_, flit, ?_⟩
  split
  · next ahead =>
    have all := touched.trans (.mod (fun y => { nakWant y with retxSeen := (nakWant y).retxSeen || lcwRetx w }) _)
    rw [linkOf_linkMod_same]
    refine ⟨?_, ?_, fun _ unsent => nakWant_fresh ?_, fun far => absurd ahead (Nat.not_le.2 far), all.others, all.frame⟩
    · rw [nakWant_frame, fields]
      rfl
    · rw [nakWant_frame, fields]
      rfl
    · rw [fields]
      exact unsent
  · next far =>
    have all := (touched.trans (.count (linkIdx p 2) 8 0 _)).trans
      (.mod (fun y => { y with retxSeen := y.retxSeen || lcwRetx w }) _)
    rw [linkOf_linkMod_same, linkOf_count1, fields]
    exact ⟨rfl, rfl, fun near => absurd near far, fun _ => rfl, all.others, all.frame⟩

/-- A HEARTBEAT with sound fields leaves what its partner published readable (R236). -/
theorem rxHeartbeat_sound {dig : BitVec 64} {gen : BitVec 32} (sound : lcwCheck (linkOf s p) false true w = none) : ∃ t,
    exec (.rxHeartbeat p fec w dig gen) s = .next t ∧
    (linkOf t p).una = (ackTake (linkOf s p) (lcwAck w)).una ∧
    (linkOf t p).mayData = ((linkOf s p).mayData || lcwRxlock w) ∧
    regVal t (linkIdx p 3) 6 0 = dig.toNat ∧ regVal t (linkIdx p 3) 7 0 = gen.toNat ∧
    (dig ≠ 0#64 → dig ≠ ownDigest64 s → (linkOf t p).peerNoted = true) ∧
    (∀ q, q ≠ p.val → linkOf t q = linkOf s q) ∧ t = { s with regs := t.regs, ev := t.ev, links := t.links } := by
  obtain ⟨n, runs⟩ := rxPlain_sound h up sound
  have taken := plainTaken_acks p n true w s
  have all := taken.touched.trans (peerNote_touched p dig gen _)
  obtain ⟨digest, generation⟩ := regVal_peerNote p dig gen (plainTaken p true w (passed p n s))
  refine ⟨_, congrArg Host.Outcome.next (runs _), ?_, ?_, digest, generation, fun real other => peerNote_noted real ?_, all.others, all.frame⟩
  · rw [linkOf_peerNote]
    exact taken.una
  · rw [linkOf_peerNote]
    exact taken.mayData
  · rw [taken.touched.frame]
    exact other

end

/-- A DATA flit on a link that is down is dropped and counted (R218). -/
theorem rxDataFlit_down {p : Fin 128} {fec : List Nat} {w : BitVec 64} {body : BitVec 1920} {s : State}
    (h : FlitPasses s p fec) (down : (linkOf s p).up = false) (form : lcwForm true w = none) : ∃ t,
    exec (.rxDataFlit p fec w body) s = .next t ∧
    regVal t (linkIdx p 1) 0x0B 0 = min (regVal s (linkIdx p 1) 0x0B 0 + 1) (2 ^ 32 - 1) ∧
    linkOf t p = linkHeld s (linkOf s p) ∧ (∀ q, q ≠ p.val → linkOf t q = linkOf s q) ∧
    t = { s with regs := t.regs, links := t.links } := by
  obtain ⟨n, runs⟩ := rxFlit_passes h
  have link := linkOf_passed p n s
  have downHere : (linkOf (passed p n s) p).up = false := link ▸ down
  have flit : exec (.rxDataFlit p fec w body) s = .next (rxData p w body (passed p n s)) := congrArg Host.Outcome.next (runs _)
  rw [rxData_down downHere form] at flit
  refine ⟨_, flit, ?_, (linkOf_count1 ..).trans link, (passed_touched p n s).others, rfl⟩
  rw [regVal_linkCount (by decide), regVal_passed (by decide) (by decide) (.inr (by decide))]

/-- Settles O22: DATA flits by their SEQ, and what ACK_ONLY, HEARTBEAT and IDLE flits leave. -/
theorem flitsAreTakenInSequence : Obligations.FlitsAreTakenInSequence := by
  unfold Obligations.FlitsAreTakenInSequence
  refine ⟨fun p fec w body s h up => ⟨rxDataFlit_inSequence h up, rxDataFlit_away h up,
      fun wrong => ⟨_, rfl, rxDataFlit_error h up wrong⟩⟩,
    fun p fec w body s h down => ⟨rxDataFlit_down h down, fun wrong => ⟨_, rfl, rxDataFlit_down_error h down wrong⟩⟩,
    fun p fec w dig gen s h up => ⟨fun sound => ⟨?_, rxHeartbeat_sound h up sound⟩,
      fun wrong => ⟨⟨_, rfl, rxPlain_error h up wrong _⟩, ⟨_, rfl, rxPlain_error h up wrong _⟩⟩, fun sound => ?_,
      fun wrong => ⟨_, rfl, rxPlain_error h up wrong _⟩⟩⟩
  · obtain ⟨n, runs⟩ := rxPlain_sound h up sound
    have taken := plainTaken_acks p n true w s
    exact ⟨_, congrArg Host.Outcome.next (runs id), taken.una, taken.held, taken.mayData, taken.expected, taken.touched.others,
      taken.touched.frame⟩
  · obtain ⟨n, runs⟩ := rxPlain_sound h up sound
    have taken := plainTaken_acks p n false w s
    exact ⟨_, congrArg Host.Outcome.next (runs id), taken.una, taken.held, taken.mayData, taken.touched.others, taken.touched.frame⟩

end Sys2Proof

/-! SUPPORT. What drops a link, and its negotiation. -/

namespace Sys2Proof.Machine

theorem linkOf_badSum {p : Nat} {crc : Bool} {s : State} {q : Nat} : linkOf (badSum p crc s) q = linkOf s q := linkOf_sumSet

theorem badSum_touched (p : Nat) (crc : Bool) (s : State) : LinkTouched p s (badSum p crc s) := .sumSet ..

theorem regVal_badSum {idx sub row p : Nat} {crc : Bool} {s : State} (h : RegQuiet idx sub row) :
    regVal (badSum p crc s) idx sub row = regVal s idx sub row := regVal_sumSet h

-- Flits of a link that negotiates

section
variable {p : Nat} {errs : List Nat} {w : BitVec 64} {s : State} (h : FlitPasses s p errs)
include h

theorem rxNegotiate_sound (sound : lcwForm false w = none) :
    ∃ n, ∀ go, rxNegotiate p errs w go s = go (passed p n s) := by
  obtain ⟨n, runs⟩ := rxFlit_passes h
  refine ⟨n, fun go => ?_⟩
  unfold rxNegotiate
  rw [runs, sound]

theorem rxNegotiate_error (wrong : lcwForm false w ≠ none) (go : State → State) :
    LinkDropped s (rxNegotiate p errs w go s) p 2 := by
  obtain ⟨n, runs⟩ := rxFlit_passes h
  obtain ⟨c, wrong⟩ := Option.ne_none_iff_exists'.1 wrong
  unfold rxNegotiate
  rw [runs, wrong]
  exact passed_dropped (lcwError_dropped ..)

end

-- Every flit goes through the receiver of its link

theorem exec_flitOf {c : Instr} {p : Nat} {fec : List Nat} (flit : flitOf c = some (p, fec)) :
    (∃ q : Fin 128, q.val = p) ∧ ∃ go, ∀ s, exec c s = .next (rxFlit p fec go s) := by
  unfold flitOf at flit
  split at flit
  case h_10 => cases flit
  all_goals
    cases flit
    exact ⟨⟨_, rfl⟩, _, fun _ => rfl⟩

section
variable {p : Nat} {fec : List Nat} {go : State → State} {s : State}

theorem rxFlit_deaf (deaf : linkHears s p = false) : rxFlit p fec go s = s := if_pos deaf

theorem rxFlit_searching {n : Nat} (hears : linkHears s p = true) (decoded : fecDecode (linkOf s p).light fec = some n)
    (unlocked : (linkOf s p).lock = false) (few : (linkOf s p).run < 7) :
    rxFlit p fec go s = linkPut p { linkOf s p with run := (linkOf s p).run + 1 } s := by
  unfold rxFlit
  rw [if_neg (by rw [hears]; decide), decoded]
  unfold flitGood
  dsimp only
  rw [if_neg (by rw [unlocked]; decide), if_pos (by omega)]

/-- What an uncorrectable flit does while lock is held, before its run is counted (R211, R217). -/
def flitBad (p : Nat) (s : State) : State :=
  let u := badSum p false (count1 (linkIdx p 1) 5 0 s)
  if (linkOf u p).up then linkMod p nakWant u else u

theorem rxFlit_lost (hears : linkHears s p = true) (lost : fecDecode (linkOf s p).light fec = none) :
    rxFlit p fec go s =
      if (linkOf s p).lock then
        if (linkOf s p).run + 1 < 4 then linkMod p (fun y => { y with run := (linkOf s p).run + 1 }) (flitBad p s)
        else lockLose p (flitBad p s)
      else linkPut p { linkOf s p with
        run := 0, bitPos := ((linkOf s p).bitPos + 1) % (8 * wireLen (linkOf s p).light) } s := by
  unfold rxFlit
  rw [if_neg (by rw [hears]; decide), lost]
  rfl

end

theorem flitBad_touched (p : Nat) (s : State) : LinkTouched p s (flitBad p s) := by
  have counted := (LinkTouched.count (p := p) (linkIdx p 1) 5 0 s).trans (badSum_touched p false _)
  unfold flitBad
  dsimp only
  split
  · exact counted.trans (.mod _ _)
  · exact counted

theorem linkOf_flitBad (p : Nat) (s : State) :
    linkOf (flitBad p s) p = if (linkOf s p).up then nakWant (linkOf s p) else linkOf s p := by
  unfold flitBad
  dsimp only
  rw [linkOf_badSum, linkOf_count1]
  split
  · rw [linkOf_linkMod_same, linkOf_badSum, linkOf_count1]
  · rw [linkOf_badSum, linkOf_count1]

theorem regVal_flitBad (p : Fin 128) (s : State) :
    regVal (flitBad p s) (linkIdx p 1) 5 0 = min (regVal s (linkIdx p 1) 5 0 + 1) (2 ^ 32 - 1) ∧
    regVal (flitBad p s) (linkIdx p 1) 7 0 = regVal s (linkIdx p 1) 7 0 := by
  have same : ∀ sub, regVal (flitBad p s) (linkIdx p 1) sub 0 =
      regVal (badSum p false (count1 (linkIdx p 1) 5 0 s)) (linkIdx p 1) sub 0 := fun sub => by
    unfold flitBad
    dsimp only
    split <;> rfl
  rw [same, same, regVal_badSum (linkIdx_quiet p (by decide) (by decide)),
    regVal_badSum (linkIdx_quiet p (by decide) (by decide)), regVal_linkCount (by decide)]
  exact ⟨rfl, regVal_countUp_ne (okey_linkIdx_ne (by decide) (by decide) (by decide) (by decide) (.inr (by decide)))⟩

theorem regVal_lockLose_bad (p : Fin 128) (s : State) :
    regVal (lockLose p s) (linkIdx p 1) 5 0 = regVal s (linkIdx p 1) 5 0 := by
  unfold lockLose
  dsimp only
  rw [regVal_linkMod, regVal_sumUp (linkIdx_quiet p (by decide) (by decide))]
  exact regVal_countUp_ne (okey_linkIdx_ne (by decide) (by decide) (by decide) (by decide) (.inr (by decide)))

/-- An uncorrectable flit while lock is held (R211, R212). -/
theorem rxFlit_lost_locked {p : Fin 128} {fec : List Nat} {go : State → State} {s : State} (hears : linkHears s p = true)
    (lost : fecDecode (linkOf s p).light fec = none) (locked : (linkOf s p).lock = true) : ∃ t, rxFlit p fec go s = t ∧
    regVal t (linkIdx p 1) 5 0 = min (regVal s (linkIdx p 1) 5 0 + 1) (2 ^ 32 - 1) ∧
    ((linkOf s p).up = true → (linkOf t p).nakOwed = (nakWant (linkOf s p)).nakOwed) ∧
    ((linkOf s p).run < 3 → (linkOf t p).lock = true ∧ (linkOf t p).run = (linkOf s p).run + 1) ∧
    (3 ≤ (linkOf s p).run → (linkOf t p).lock = false ∧ (linkOf t p).run = 0 ∧
      regVal t (linkIdx p 1) 7 0 = min (regVal s (linkIdx p 1) 7 0 + 1) (2 ^ 32 - 1)) ∧
    (∀ q, q ≠ p.val → linkOf t q = linkOf s q) ∧ t = { s with regs := t.regs, ev := t.ev, links := t.links } := by
  have flit := rxFlit_lost (go := go) hears lost
  obtain ⟨counted, losses⟩ := regVal_flitBad p s
  have link := linkOf_flitBad p s
  have touched := flitBad_touched p s
  rw [if_pos locked] at flit
  by_cases few : (linkOf s p).run + 1 < 4
  · rw [if_pos few] at flit
    have all := touched.trans (.mod (fun y => { y with run := (linkOf s p).run + 1 }) _)
    refine ⟨_, flit, counted, fun up => ?_, fun _ => ⟨?_, ?_⟩, fun many => absurd few (by omega), all.others, all.frame⟩
    · rw [linkOf_linkMod_same, link, if_pos up]
    · rw [linkOf_linkMod_same, link]
      split
      · rw [nakWant_frame]
        exact locked
      · exact locked
    · rw [linkOf_linkMod_same]
  · rw [if_neg few] at flit
    have all := touched.trans (lockLose_touched p _)
    refine ⟨_, flit, (regVal_lockLose_bad ..).trans counted, fun up => ?_, fun under => absurd few (by omega),
      fun _ => ⟨?_, ?_, ?_⟩, all.others, all.frame⟩
    · rw [linkOf_lockLose, link, if_pos up]
    · rw [linkOf_lockLose]
    · rw [linkOf_lockLose]
    · rw [regVal_lockLose, losses]

/-- A flit whose CRC fails is counted, and a NAK is owed on a link that is up (R211, R217). -/
theorem doRxBadFlit_passed {p : Fin 128} {fec : List Nat} {s : State} (h : FlitPasses s p fec) (flit : BitVec 2048) :
    ∃ t, doRxBadFlit p fec flit s = t ∧
      (flitCrcOk flit = false → regVal t (linkIdx p 1) 6 0 = min (regVal s (linkIdx p 1) 6 0 + 1) (2 ^ 32 - 1) ∧
        ((linkOf s p).up = true → linkOf t p = nakWant (linkHeld s (linkOf s p)))) ∧
      (flitCrcOk flit = true ∨ (linkOf s p).up = false → linkOf t p = linkHeld s (linkOf s p)) ∧
      (∀ q, q ≠ p.val → linkOf t q = linkOf s q) ∧ t = { s with regs := t.regs, ev := t.ev, links := t.links } := by
  obtain ⟨n, runs⟩ := rxFlit_passes h
  have touched := passed_touched p n s
  have link := linkOf_passed p n s
  refine ⟨_, runs _, ?_⟩
  by_cases ok : flitCrcOk flit = true
  · rw [if_pos ok]
    exact ⟨fun bad => (by rw [ok] at bad; cases bad), fun _ => link, touched.others, touched.frame⟩
  · rw [if_neg ok]
    have counted := (touched.trans (.count (linkIdx p 1) 6 0 _)).trans (badSum_touched p true _)
    have bad : linkOf (badSum p true (count1 (linkIdx p 1) 6 0 (passed p n s))) p = linkHeld s (linkOf s p) := by
      rw [linkOf_badSum, linkOf_count1, link]
    have failures : regVal (badSum p true (count1 (linkIdx p 1) 6 0 (passed p n s))) (linkIdx p 1) 6 0 =
        min (regVal s (linkIdx p 1) 6 0 + 1) (2 ^ 32 - 1) := by
      rw [regVal_badSum (linkIdx_quiet p (by decide) (by decide)), regVal_linkCount (by decide),
        regVal_passed (by decide) (by decide) (.inr (by decide))]
    have upHeld : (linkHeld s (linkOf s p)).up = (linkOf s p).up := rfl
    dsimp only
    rw [bad, upHeld]
    by_cases up : (linkOf s p).up = true
    · rw [if_pos up]
      have all := counted.trans (.mod nakWant _)
      refine ⟨fun _ => ⟨failures, fun _ => ?_⟩, fun idle => ?_, all.others, all.frame⟩
      · rw [linkOf_linkMod_same, bad]
      · rw [up] at idle
        simp [ok] at idle
    · rw [if_neg up]
      exact ⟨fun _ => ⟨failures, fun here => absurd here up⟩, fun _ => bad, counted.others, counted.frame⟩

theorem doHbLost_dropped {p : Nat} {s : State} (up : (linkOf s p).up = true) : LinkDropped s (doHbLost p s) p 6 := by
  unfold doHbLost
  dsimp only
  rw [if_pos up]
  exact (LinkTouched.count (p := p) _ _ _ s).dropped rfl rfl rfl (linkDown_raise_dropped ..)

theorem doTNegExpiry_dropped {p : Nat} {s : State} (opened : (linkOf s p).negOpen = true)
    (sent : (linkOf s p).selSent = true) : LinkDropped s (doTNegExpiry p s) p 6 := by
  unfold doTNegExpiry
  dsimp only
  rw [if_pos ⟨opened, sent⟩]
  exact linkDown_dropped ..

end Sys2Proof.Machine

namespace Sys2Proof
open Sys2Proof.Machine

/-- Settles O23: DOWN flits, errors of the LCW, lost heartbeats, and flits that do not decode. -/
theorem whatDropsALink : Obligations.WhatDropsALink := by
  unfold Obligations.WhatDropsALink
  refine ⟨fun p fec w s => ⟨fun h sound live => ?_, fun h sound down closed => ?_, fun h wrong => ?_, fun h => ?_,
      fun up => ⟨_, rfl, doHbLost_dropped up⟩, fun opened sent => ⟨_, rfl, doTNegExpiry_dropped opened sent⟩,
      fun h flit => ?_⟩,
    fun c p fec s flit => ?_⟩
  · obtain ⟨n, runs⟩ := rxNegotiate_sound h sound
    refine ⟨_, congrArg Host.Outcome.next (runs _), ?_⟩
    rw [if_pos (by rw [linkOf_passed]; exact live)]
    exact passed_dropped (linkDown_dropped ..)
  · obtain ⟨n, runs⟩ := rxNegotiate_sound h sound
    refine ⟨_, congrArg Host.Outcome.next (runs _), ?_⟩
    rw [if_neg (by rw [linkOf_passed]; show ¬ ((linkOf s p).up = true ∨ (linkOf s p).negOpen = true); rw [down, closed]; simp)]
    exact ⟨linkOf_passed p n s, (passed_touched p n s).others, passed_frame p n s⟩
  · exact ⟨_, rfl, rxNegotiate_error h wrong _⟩
  · obtain ⟨n, runs⟩ := rxFlit_passes h
    exact ⟨_, congrArg Host.Outcome.next (runs _), passed_dropped (lcwError_dropped ..)⟩
  · obtain ⟨t, runs, facts⟩ := doRxBadFlit_passed h flit
    exact ⟨t, congrArg Host.Outcome.next runs, facts⟩
  · obtain ⟨⟨p, rfl⟩, go, runs⟩ := exec_flitOf flit
    refine ⟨fun deaf => ?_, fun hears => ⟨fun decoded unlocked few => ?_, fun lost unlocked => ?_, fun lost locked => ?_⟩⟩
    · rw [runs, rxFlit_deaf deaf]
    · obtain ⟨n, decoded⟩ := Option.isSome_iff_exists.1 decoded
      rw [runs, rxFlit_searching hears decoded unlocked few]
    · rw [runs, rxFlit_lost hears lost, if_neg (by rw [unlocked]; decide)]
    · obtain ⟨t, ends, facts⟩ := rxFlit_lost_locked (go := go) hears lost locked
      exact ⟨t, (runs s).trans (congrArg Host.Outcome.next ends), facts⟩

end Sys2Proof

/-! SUPPORT. Offers and confirms: the state that each leaves. -/

namespace Sys2Proof.Machine

/-- The values of an own side, which depend on the configuration, the repairs and CFG_GEN alone. -/
theorem ownVals_touched {p : Nat} {s t : State} (h : LinkTouched p s t) (gen : cfgGen t = cfgGen s) : ownVals t p = ownVals s p := by
  unfold ownVals
  rw [gen, h.frame]
  rfl

theorem ownFor_touched {p : Nat} {neg : BitVec 32} {s t : State} (h : LinkTouched p s t) (gen : cfgGen t = cfgGen s)
    (own : (linkOf t p).own = (linkOf s p).own) : ownFor t p neg = ownFor s p neg := by
  unfold ownFor
  rw [own, ownVals_touched h gen]

theorem cfgGen_passed (p n : Nat) (s : State) : cfgGen (passed p n s) = cfgGen s := by
  have total : okey 0x2200 1 0 ≠ okey 0x6000 7 0 := by decide
  have corrected : okey 0x2200 1 0 ≠ okey (linkIdx p 1) 4 0 := fun same => by
    have fits := (okey_inj _ _ _ _ _ _ (by decide) (by decide) (by decide) (by decide)).1 same
    omega
  unfold passed fecCount cfgGen
  rw [regVal_countUp_ne total, regVal_countUp_ne corrected, regVal_linkPut]

theorem stage_touched {p : Nat} {s t : State} (h : LinkTouched p s t) : t.pwr.stage = s.pwr.stage := by rw [h.frame]

/-- The link on which an offer acts. -/
def negOpened (p : Nat) (s : State) : State := linkMod p (fun x => { x with negOpen := true, downOn := false }) s

theorem rxOffer_open {p : Nat} {o : Offer} {s : State} (served : s.pwr.stage = .served) (down : (linkOf s p).up = false) :
    rxOffer p o s =
      if offerResult (ownFor s p o.negId) o = 0 then offerAccept p (ownFor s p o.negId) o (negOpened p s)
      else offerRefuse p (offerResult (ownFor s p o.negId) o) (ownFor s p o.negId) o (negOpened p s) := by
  have own : ownFor (negOpened p s) p o.negId = ownFor s p o.negId :=
    ownFor_touched (.mod _ _) rfl (by unfold negOpened; rw [linkOf_linkMod_same])
  unfold rxOffer
  rw [if_neg (by rw [served]; simp), if_neg (by rw [down]; decide)]
  dsimp only
  unfold negOpened at own
  rw [own]
  rfl

/-- The select that an accepted offer leaves: the one that waits where the offer repeats it (R234). -/
def selectFor (v : OwnVals) (o : Offer) (x : LinkSt) : NegVals :=
  match x.select with
  | some u => if u.negId = o.negId then u else offerVals v x.rate o
  | none => offerVals v x.rate o

theorem selectFor_repeat {v : OwnVals} {o : Offer} {x : LinkSt} {u : NegVals} (waits : x.select = some u)
    (same : u.negId = o.negId) : selectFor v o x = u := by
  unfold selectFor
  rw [waits]
  exact if_pos same

theorem selectFor_new {v : OwnVals} {o : Offer} {x : LinkSt} (other : ∀ u, x.select = some u → u.negId ≠ o.negId) :
    selectFor v o x = offerVals v x.rate o := by
  unfold selectFor
  split
  · next u waits => exact if_neg (other u waits)
  · rfl

theorem linkOf_offerAccept (p : Nat) (v : OwnVals) (o : Offer) (s : State) :
    linkOf (offerAccept p v o s) p = { linkOf s p with
      select := some (selectFor v o (linkOf s p))
      selSent := (linkOf s p).selSent && decide ((linkOf s p).select = some (selectFor v o (linkOf s p)))
      own := some (o.negId, v)
      selectDue := (linkOf s p).selectDue ++ [(0, selectFor v o (linkOf s p))] } := by
  unfold offerAccept
  dsimp only
  rw [linkOf_linkMod_same, linkOf_regPut]
  rfl

theorem offerAccept_touched (p : Nat) (v : OwnVals) (o : Offer) (s : State) : LinkTouched p s (offerAccept p v o s) := by
  unfold offerAccept
  exact (LinkTouched.reg _ _ _ _ s).trans (.mod _ _)

/-- An accepted offer raises nothing. -/
theorem offerAccept_frame (p : Nat) (v : OwnVals) (o : Offer) (s : State) : offerAccept p v o s = { s with
    regs := (offerAccept p v o s).regs, links := (offerAccept p v o s).links } := rfl

theorem regVal_offerAccept (p : Nat) (v : OwnVals) (o : Offer) (s : State) :
    regVal (offerAccept p v o s) (linkIdx p 3) 5 0 = o.partnerId.toNat := by
  unfold offerAccept
  dsimp only
  rw [regVal_linkMod, regVal_regPut_same]

theorem offerRefuse_touched (p res : Nat) (v : OwnVals) (o : Offer) (s : State) :
    LinkTouched p s (offerRefuse p res v o s) := by
  unfold offerRefuse
  exact ((LinkTouched.count _ _ _ s).trans (.raise _ _ _ _ _ _)).trans (.mod _ _)

theorem linkOf_offerRefuse (p res : Nat) (v : OwnVals) (o : Offer) (s : State) :
    linkOf (offerRefuse p res v o s) p = { linkOf s p with
      select := none, selSent := false, own := some (o.negId, v)
      selectDue := (linkOf s p).selectDue ++ [(res, { negId := o.negId, linkGen := v.linkGen })] } := by
  unfold offerRefuse
  dsimp only
  rw [linkOf_linkMod_same, linkOf_raise, linkOf_count1]

/-- What an offer finds on a link that its flit reaches: the link as lock leaves it, with a negotiation open. -/
theorem linkOf_negOpened_passed (p n : Nat) (s : State) :
    linkOf (negOpened p (passed p n s)) p = { linkHeld s (linkOf s p) with negOpen := true, downOn := false } := by
  unfold negOpened
  rw [linkOf_linkMod_same, linkOf_passed]

theorem negOpened_passed_frame (p n : Nat) (s : State) : negOpened p (passed p n s) = { s with
    regs := (negOpened p (passed p n s)).regs, links := (negOpened p (passed p n s)).links } := rfl

theorem negOpened_passed_touched (p n : Nat) (s : State) : LinkTouched p s (negOpened p (passed p n s)) :=
  (passed_touched p n s).trans (.mod _ _)

-- The confirm

theorem linkUp_touched (p : Nat) (v : NegVals) (s : State) : LinkTouched p s (linkUp p v s) := by
  unfold linkUp
  exact ((LinkTouched.reg _ _ _ _ s).trans (.mod _ _)).trans (.raise _ _ _ _ _ _)

theorem linkOf_linkUp (p : Nat) (v : NegVals) (s : State) : linkOf (linkUp p v s) p = { linkOf s p with
    up := true, first := true, force := v, negOpen := false, select := none, selSent := false, selectDue := [], own := none
    downOn := false, downLeft := 0, light := v.light, lock := (linkOf s p).lock && !v.light
    lost := if v.light then some (losStart s) else none
    run := 0, mayData := false, resync := 1, hbCount := 0, peerNoted := false } := by
  unfold linkUp
  dsimp only
  rw [linkOf_raise, linkOf_linkMod_same, linkOf_regPut]
  rfl

theorem regVal_linkUp (p : Fin 128) (v : NegVals) (s : State) : regVal (linkUp p v s) (linkIdx p 0) 0x0F 0 = v.linkGen := by
  unfold linkUp
  dsimp only
  rw [regVal_raise_quiet (by unfold srcLink; omega) (linkIdx_quiet p (by decide) (by decide)), regVal_linkMod, regVal_regPut_same]

end Sys2Proof.Machine

namespace Sys2Proof
open Sys2Proof.Machine

section
variable {p : Fin 128} {fec : List Nat} {w : BitVec 64} {o : Offer} {own : OwnVals} {s : State} (h : FlitPasses s p fec)
  (sound : lcwForm false w = none) (served : s.pwr.stage = .served) (mine : own = ownFor s p o.negId)
include h sound served mine

/-- An offer on a link that is not up opens a negotiation, and is accepted or refused by its RESULT. -/
theorem rxParamOffer_open (down : (linkOf s p).up = false) : ∃ n, exec (.rxParamOffer p fec o w) s = .next
    (if offerResult own o = 0 then offerAccept p own o (negOpened p (passed p n s))
     else offerRefuse p (offerResult own o) own o (negOpened p (passed p n s))) := by
  obtain ⟨n, runs⟩ := rxNegotiate_sound h sound
  have touched := passed_touched p n s
  have ownHere : ownFor (passed p n s) p o.negId = own :=
    (ownFor_touched touched (cfgGen_passed p n s) (by rw [linkOf_passed]; rfl)).trans mine.symm
  have runs := (runs (rxOffer p o)).trans
    (rxOffer_open ((stage_touched touched).trans served) (by rw [linkOf_passed]; exact down))
  rw [ownHere] at runs
  exact ⟨n, congrArg Host.Outcome.next runs⟩

theorem rxParamOffer_accepted (down : (linkOf s p).up = false) (accepted : offerResult own o = 0) : ∃ n,
    exec (.rxParamOffer p fec o w) s = .next (offerAccept p own o (negOpened p (passed p n s))) ∧
    linkOf (offerAccept p own o (negOpened p (passed p n s))) p = { linkHeld s (linkOf s p) with
      negOpen := true, downOn := false
      select := some (selectFor own o (linkOf s p))
      selSent := (linkOf s p).selSent && decide ((linkOf s p).select = some (selectFor own o (linkOf s p)))
      own := some (o.negId, own)
      selectDue := (linkOf s p).selectDue ++ [(0, selectFor own o (linkOf s p))] } := by
  obtain ⟨n, runs⟩ := rxParamOffer_open h sound served mine down
  rw [if_pos accepted] at runs
  refine ⟨n, runs, ?_⟩
  rw [linkOf_offerAccept, linkOf_negOpened_passed]
  rfl

/-- An accepted offer with another NEG_ID than the waiting select's gets the values chosen for it. -/
theorem rxParamOffer_new (down : (linkOf s p).up = false) (accepted : offerResult own o = 0)
    (other : ∀ v, (linkOf s p).select = some v → v.negId ≠ o.negId) : ∃ t, exec (.rxParamOffer p fec o w) s = .next t ∧
    linkOf t p = { linkHeld s (linkOf s p) with
      negOpen := true, downOn := false, selSent := false, select := some (offerVals own (linkOf s p).rate o)
      own := some (o.negId, own), selectDue := (linkOf s p).selectDue ++ [(0, offerVals own (linkOf s p).rate o)] } ∧
    regVal t (linkIdx p 3) 5 0 = o.partnerId.toNat ∧ (∀ q, q ≠ p.val → linkOf t q = linkOf s q) ∧
    t = { s with regs := t.regs, links := t.links } := by
  obtain ⟨n, runs, link⟩ := rxParamOffer_accepted h sound served mine down accepted
  have unsent : decide ((linkOf s p).select = some (offerVals own (linkOf s p).rate o)) = false :=
    decide_eq_false fun same => other _ same rfl
  rw [selectFor_new other, unsent, Bool.and_false] at link
  have all := (negOpened_passed_touched p n s).trans (offerAccept_touched p own o _)
  refine ⟨_, runs, link, regVal_offerAccept .., all.others, ?_⟩
  rw [offerAccept_frame, negOpened_passed_frame]

/-- An accepted offer that repeats the NEG_ID of the waiting select gets that select again (R234). -/
theorem rxParamOffer_repeated (down : (linkOf s p).up = false) (accepted : offerResult own o = 0) {v : NegVals}
    (waits : (linkOf s p).select = some v) (same : v.negId = o.negId) : ∃ t, exec (.rxParamOffer p fec o w) s = .next t ∧
    linkOf t p = { linkHeld s (linkOf s p) with
      negOpen := true, downOn := false, own := some (o.negId, own)
      selectDue := (linkOf s p).selectDue ++ [(0, v)] } ∧
    t = { s with regs := t.regs, links := t.links } := by
  obtain ⟨n, runs, link⟩ := rxParamOffer_accepted h sound served mine down accepted
  rw [selectFor_repeat waits same, decide_eq_true waits, Bool.and_true] at link
  refine ⟨_, runs, ?_, ?_⟩
  · rw [link, ← waits]
    rfl
  · rw [offerAccept_frame, negOpened_passed_frame]

theorem rxParamOffer_refused (down : (linkOf s p).up = false) (refused : offerResult own o ≠ 0) : ∃ t,
    exec (.rxParamOffer p fec o w) s = .next t ∧
    linkOf t p = { linkHeld s (linkOf s p) with
      negOpen := true, downOn := false, selSent := false, select := none, own := some (o.negId, own)
      selectDue := (linkOf s p).selectDue ++ [(offerResult own o, { negId := o.negId, linkGen := own.linkGen })] } ∧
    (∀ q, q ≠ p.val → linkOf t q = linkOf s q) ∧ t = { s with regs := t.regs, ev := t.ev, links := t.links } := by
  obtain ⟨n, runs⟩ := rxParamOffer_open h sound served mine down
  rw [if_neg refused] at runs
  have all := (negOpened_passed_touched p n s).trans (offerRefuse_touched p (offerResult own o) own o _)
  refine ⟨_, runs, ?_, all.others, all.frame⟩
  rw [linkOf_offerRefuse, linkOf_negOpened_passed]
  rfl

end

section
variable {p : Fin 128} {fec : List Nat} {w : BitVec 64} {c : Confirm} {s : State} (h : FlitPasses s p fec)
  (sound : lcwForm false w = none) (served : s.pwr.stage = .served)
include h sound served

theorem rxParamOffer_up {o : Offer} (up : (linkOf s p).up = true) :
    ∃ t, exec (.rxParamOffer p fec o w) s = .next t ∧ LinkDropped s t p 6 := by
  obtain ⟨n, runs⟩ := rxNegotiate_sound h sound
  refine ⟨_, congrArg Host.Outcome.next (runs _), ?_⟩
  unfold rxOffer
  rw [if_neg (by rw [stage_touched (passed_touched p n s), served]; simp), if_pos (by rw [linkOf_passed]; exact up)]
  exact passed_dropped (linkDown_dropped ..)

/-- A confirm that is checked against the select that waits. -/
theorem rxParamConfirm_sent {v : NegVals} (sent : (linkOf s p).selSent = true) (waits : (linkOf s p).select = some v) :
    ∃ n, exec (.rxParamConfirm p fec c w) s =
      .next (if confirmMatches v c then linkUp p v (passed p n s) else linkDown p 6 (passed p n s)) := by
  obtain ⟨n, runs⟩ := rxNegotiate_sound h sound
  refine ⟨n, congrArg Host.Outcome.next ((runs _).trans ?_)⟩
  have sentHere : (linkOf (passed p n s) p).selSent = true := by rw [linkOf_passed]; exact sent
  have waitsHere : (linkOf (passed p n s) p).select = some v := by rw [linkOf_passed]; exact waits
  unfold rxConfirm
  dsimp only
  rw [if_neg (by rw [stage_touched (passed_touched p n s), served]; simp), sentHere, waitsHere]

theorem rxParamConfirm_unsent (unsent : (linkOf s p).selSent = false ∨ (linkOf s p).select = none) :
    ∃ n, exec (.rxParamConfirm p fec c w) s = .next (count1 (linkIdx p 3) 8 0 (passed p n s)) := by
  obtain ⟨n, runs⟩ := rxNegotiate_sound h sound
  refine ⟨n, congrArg Host.Outcome.next ((runs _).trans ?_)⟩
  unfold rxConfirm
  dsimp only
  rw [if_neg (by rw [stage_touched (passed_touched p n s), served]; simp)]
  split
  · next sent waits =>
    rw [linkOf_passed] at sent waits
    cases unsent with
    | inl unsent => exact nomatch (Eq.symm unsent).trans sent
    | inr none => exact nomatch (Eq.symm none).trans waits
  · rfl

end

/-- Settles O24: what offers and confirms leave. -/
theorem negotiationBringsALinkUp : Obligations.NegotiationBringsALinkUp := by
  unfold Obligations.NegotiationBringsALinkUp
  refine ⟨fun p fec w o own n s h sound served mine values => ⟨fun down accepted other => ?_,
      fun down accepted v waits same => rxParamOffer_repeated h sound served mine down accepted waits same,
      rxParamOffer_refused h sound served mine, rxParamOffer_up h sound served, fun v had => ?_, fun had => ?_⟩,
    fun p fec w c v s h sound served sent waits => ⟨fun matching => ?_, fun differing => ?_⟩,
    fun p fec w c s h sound served unsent => ?_,
    fun p fec w o c s h wrong => ⟨⟨_, rfl, rxNegotiate_error h wrong _⟩, ⟨_, rfl, rxNegotiate_error h wrong _⟩⟩⟩
  · rw [values]
    exact rxParamOffer_new h sound served mine down accepted other
  · rw [mine]
    unfold ownFor
    rw [had]
    exact if_pos rfl
  · rw [mine]
    unfold ownFor
    rw [had]
  · obtain ⟨n, runs⟩ := rxParamConfirm_sent (c := c) h sound served sent waits
    rw [if_pos matching] at runs
    have all := (passed_touched p n s).trans (linkUp_touched p v _)
    refine ⟨_, runs, ?_, ?_, ?_, ?_, ?_, ?_, ?_, ?_, regVal_linkUp .., all.others, all.frame⟩
    case refine_6 =>
      rw [linkOf_linkUp, linkOf_passed]
      rfl
    all_goals rw [linkOf_linkUp]
  · obtain ⟨n, runs⟩ := rxParamConfirm_sent (c := c) h sound served sent waits
    rw [if_neg (by rw [differing]; decide)] at runs
    exact ⟨_, runs, passed_dropped (linkDown_dropped ..)⟩
  · obtain ⟨n, runs⟩ := rxParamConfirm_unsent (c := c) h sound served unsent
    refine ⟨_, runs, (linkOf_count1 ..).trans (linkOf_passed p n s), ?_, (passed_touched p n s).others, rfl⟩
    rw [regVal_linkCount (by decide), regVal_passed (by decide) (by decide) (.inl (by decide))]

end Sys2Proof

/-! SUPPORT. Credits and partner items: what grants, releases and returns leave of links, queues and accounts. -/

namespace Sys2Proof.Machine

/-- What settling credits may change: accounts, the partner items of queues and those that wait for a kept cell. No count
of an account but GRANTED and SENT moves, and only a closing account may end (R239, R240, R243). -/
structure CreditFed (s t : State) : Prop where
  links : ∀ q, linkOf t q = { linkOf s q with feed := (linkOf t q).feed }
  pool : t.pool = { s.pool with eq := t.pool.eq }
  frame : t = { s with links := t.links, accts := t.accts, pastAccts := t.pastAccts, pool := t.pool }
  counts : ∀ k b, tabFind t.accts k = some b → ∃ a, tabFind s.accts k = some a ∧ b.received = a.received ∧
    b.returned = a.returned ∧ b.held = a.held ∧ b.closing = a.closing
  stays : ∀ k a, tabFind s.accts k = some a → a.closing = false → (tabFind t.accts k).isSome = true

namespace CreditFed
variable {s t u : State}

theorem refl (s : State) : CreditFed s s :=
  ⟨fun _ => rfl, rfl, rfl, fun _ b found => ⟨b, found, rfl, rfl, rfl, rfl⟩, fun _ _ found _ => Option.isSome_iff_exists.2 ⟨_, found⟩⟩

theorem trans (h : CreditFed s t) (g : CreditFed t u) : CreditFed s u where
  links q := by rw [g.links q, h.links q]
  pool := by rw [g.pool, h.pool]
  frame := by rw [g.frame, h.frame]
  counts k c found := by
    obtain ⟨b, foundB, r, n, d, o⟩ := g.counts k c found
    obtain ⟨a, foundA, r', n', d', o'⟩ := h.counts k b foundB
    exact ⟨a, foundA, r.trans r', n.trans n', d.trans d', o.trans o'⟩
  stays k a found opened := by
    obtain ⟨b, foundB⟩ := Option.isSome_iff_exists.1 (h.stays k a found opened)
    obtain ⟨a', foundA, -, -, -, same⟩ := h.counts k b foundB
    cases found.symm.trans foundA
    exact g.stays k b foundB (same.trans opened)

theorem foldl {α : Type} (f : State → α → State) (h : ∀ s x, CreditFed s (f s x)) (l : List α) (s : State) :
    CreditFed s (l.foldl f s) := by
  induction l generalizing s with
  | nil => exact refl s
  | cons x l ih =>
    rw [List.foldl_cons]
    exact (h s x).trans (ih _)

/-- One account's GRANTED and SENT move. -/
theorem grant {k : Nat} {a : Acct} (found : tabFind s.accts k = some a) (granted sent : Nat) (advAt : Option Nat) :
    CreditFed s { s with accts := tabSet s.accts k { a with granted := granted, sent := sent, advAt := advAt } } where
  links _ := rfl
  pool := rfl
  frame := rfl
  counts j b foundB := by
    dsimp only at foundB
    rw [tabFind_tabSet] at foundB
    split at foundB
    · next same =>
      cases foundB
      exact ⟨a, same ▸ found, rfl, rfl, rfl, rfl⟩
    · exact ⟨b, foundB, rfl, rfl, rfl, rfl⟩
  stays j b foundB _ := by
    dsimp only
    rw [tabFind_tabSet]
    split
    · rfl
    · exact Option.isSome_iff_exists.2 ⟨_, foundB⟩

/-- A step that touches no account. -/
theorem of_pool (links : ∀ q, linkOf t q = { linkOf s q with feed := (linkOf t q).feed })
    (pool : t.pool = { s.pool with eq := t.pool.eq }) (frame : t = { s with links := t.links, pool := t.pool }) : CreditFed s t where
  links := links
  pool := pool
  frame := by rw [frame]
  counts k b found := ⟨b, (by rw [frame] at found; exact found), rfl, rfl, rfl, rfl⟩
  stays k a found _ := Option.isSome_iff_exists.2 ⟨a, by rw [frame]; exact found⟩

end CreditFed

theorem partnerLink_creditFed (p : Nat) (r : Rsp) (s : State) : CreditFed s (partnerLink p r s) :=
  .of_pool (fun _ => rfl) rfl rfl

theorem linkFeed_creditFed (p : Nat) (f : List Rsp) (s : State) : CreditFed s (linkMod p (fun x => { x with feed := f }) s) := by
  refine .of_pool (fun q => ?_) rfl rfl
  rw [linkOf_linkMod]
  split
  · next same => rw [same]
  · rfl

theorem partnerPush_creditFed (p : Nat) (r : Rsp) (s : State) : CreditFed s (partnerPush p r s) := by
  unfold partnerPush
  split
  · exact partnerLink_creditFed ..
  · exact linkFeed_creditFed p ((linkOf s p).feed ++ [r]) s

theorem partnerFeed_creditFed (n p : Nat) (s : State) : CreditFed s (partnerFeed n p s) := by
  induction n generalizing s with
  | zero => exact .refl s
  | succ n ih =>
    unfold partnerFeed
    split
    · exact .refl s
    · split
      · exact ((linkFeed_creditFed p _ s).trans (partnerLink_creditFed p _ _)).trans (ih _)
      · exact .refl s

/-- The accounts of some keys are marked sent. -/
def acctsSent (ks : List Nat) (t : Tab Acct) : Tab Acct :=
  ks.foldl (fun t k => match tabFind t k with
    | some a => tabSet t k { a with sent := a.granted, advAt := none }
    | none => t) t

theorem acctsSent_cons (k : Nat) (ks : List Nat) (t : Tab Acct) : acctsSent (k :: ks) t = acctsSent ks (acctsSent [k] t) := rfl

theorem tabFind_acctsSent (ks : List Nat) (t : Tab Acct) (k : Nat) : tabFind (acctsSent ks t) k =
    if k ∈ ks then (tabFind t k).map (fun a => { a with sent := a.granted, advAt := none }) else tabFind t k := by
  have one : ∀ (j : Nat) (t : Tab Acct), tabFind (acctsSent [j] t) k =
      if k = j then (tabFind t k).map (fun a => { a with sent := a.granted, advAt := none }) else tabFind t k := fun j t => by
    show tabFind (match tabFind t j with
      | some a => tabSet t j { a with sent := a.granted, advAt := none }
      | none => t) k = _
    split
    · next a found =>
      rw [tabFind_tabSet]
      split
      · next same =>
        rw [same, found]
        rfl
      · rfl
    · next none =>
      split
      · next same =>
        rw [same, none]
        rfl
      · rfl
  induction ks generalizing t with
  | nil =>
    rw [if_neg List.not_mem_nil]
    rfl
  | cons j ks ih =>
    rw [acctsSent_cons, ih, one]
    by_cases here : k = j
    · subst here
      simp only [if_true, List.mem_cons, true_or, Option.map_map]
      split
      · rfl
      · rfl
    · simp only [here, if_false, List.mem_cons, false_or]

theorem acctsSent_creditFed (ks : List Nat) (s : State) : CreditFed s { s with accts := acctsSent ks s.accts } where
  links _ := rfl
  pool := rfl
  frame := rfl
  counts k b found := by
    dsimp only at found
    rw [tabFind_acctsSent] at found
    split at found
    · obtain ⟨a, foundA, same⟩ := Option.map_eq_some_iff.1 found
      exact ⟨a, foundA, by rw [← same], by rw [← same], by rw [← same], by rw [← same]⟩
    · exact ⟨b, found, rfl, rfl, rfl, rfl⟩
  stays k a found _ := by
    dsimp only
    rw [tabFind_acctsSent, found]
    split <;> rfl

/-- The entries of the next item of a grant. -/
def grantEntries (ks : List Nat) (s : State) : List (Nat × Nat) :=
  (ks.take 3).filterMap (fun k => match tabFind s.accts k with
    | some a => some (k % 4096, a.granted)
    | none => none)

theorem grantSend_cons {n p k : Nat} {ks : List Nat} {s : State} : grantSend (n + 1) p (k :: ks) s =
    grantSend n p ((k :: ks).drop 3) (partnerPush p (grantItem (grantEntries (k :: ks) s))
      { s with accts := acctsSent ((k :: ks).take 3) s.accts }) := rfl

theorem grantSend_creditFed (n p : Nat) (ks : List Nat) (s : State) : CreditFed s (grantSend n p ks s) := by
  induction n generalizing ks s with
  | zero => exact .refl s
  | succ n ih =>
    cases ks with
    | nil => exact .refl s
    | cons k ks =>
      rw [grantSend_cons]
      exact ((acctsSent_creditFed _ s).trans (partnerPush_creditFed p _ _)).trans (ih _ _)

theorem partnerPush_accts (p : Nat) (r : Rsp) (s : State) : (partnerPush p r s).accts = s.accts := by
  rw [partnerPush_frame]

/-- With an item for every key, every account of the list is sent. -/
theorem grantSend_accts (n p : Nat) (ks : List Nat) (s : State) (enough : ks.length ≤ n) (k : Nat) :
    tabFind (grantSend n p ks s).accts k =
      if k ∈ ks then (tabFind s.accts k).map (fun a => { a with sent := a.granted, advAt := none }) else tabFind s.accts k := by
  induction n generalizing ks s with
  | zero =>
    cases List.length_eq_zero_iff.1 (Nat.le_zero.1 enough)
    rw [if_neg List.not_mem_nil]
    rfl
  | succ n ih =>
    cases ks with
    | nil =>
      rw [if_neg List.not_mem_nil]
      rfl
    | cons j ks =>
      have shorter : ((j :: ks).drop 3).length ≤ n := by
        rw [List.length_drop]
        omega
      have parts : k ∈ j :: ks ↔ k ∈ (j :: ks).take 3 ∨ k ∈ (j :: ks).drop 3 := by
        rw [← List.mem_append, List.take_append_drop]
      rw [grantSend_cons, ih _ _ shorter, partnerPush_accts]
      dsimp only
      rw [tabFind_acctsSent]
      simp only [parts]
      by_cases first : k ∈ (j :: ks).take 3 <;> by_cases later : k ∈ (j :: ks).drop 3
      · rw [if_pos first, if_pos later, if_pos (.inl first), Option.map_map]
        rfl
      · rw [if_pos first, if_neg later, if_pos (.inl first)]
      · rw [if_neg first, if_pos later, if_pos (.inr later)]
      · rw [if_neg first, if_neg later, if_neg (not_or.2 ⟨first, later⟩)]

theorem grantBatch_creditFed (p : Nat) (s : State) : CreditFed s (grantBatch p s) := by
  unfold grantBatch
  dsimp only
  split
  · exact grantSend_creditFed ..
  · exact .refl s

theorem creditRaise_creditFed (k : Nat) (s : State) : CreditFed s (creditRaise k s) := by
  unfold creditRaise
  split
  · exact .refl s
  · next a found =>
    split
    · next closing =>
      split
      · refine ⟨fun _ => rfl, rfl, rfl, fun j b foundB => ⟨b, ?_, rfl, rfl, rfl, rfl⟩, fun j b foundB opened => ?_⟩
        · dsimp only at foundB
          rw [tabFind_tabDel] at foundB
          split at foundB
          · cases foundB
          · exact foundB
        · dsimp only
          rw [tabFind_tabDel]
          split
          · next same =>
            rw [same, found] at foundB
            cases foundB
            rw [closing] at opened
            cases opened
          · exact Option.isSome_iff_exists.2 ⟨b, foundB⟩
      · exact .refl s
    · dsimp only
      split
      · exact .refl s
      · exact .grant found ..

theorem creditRaiseAll_creditFed (s : State) : CreditFed s (creditRaiseAll s) := by
  unfold creditRaiseAll
  exact (CreditFed.foldl _ (fun s k => creditRaise_creditFed k s) _ s).trans
    (CreditFed.foldl _ (fun s p => grantBatch_creditFed p s) _ _)

theorem creditSettle_creditFed (p k : Nat) (s : State) : CreditFed s (creditSettle p k s) := by
  unfold creditSettle
  dsimp only
  split
  · exact (creditRaise_creditFed k s).trans (creditRaiseAll_creditFed _)
  · exact (creditRaise_creditFed k s).trans (grantBatch_creditFed p _)

-- The CREDIT_RETURN

theorem creditOverrun_dropped (p : Fin 128) (sid : BitVec 12) (cost : Nat) (s : State) :
    LinkDropped s (creditOverrun p sid cost none s) p 6 := by
  unfold creditOverrun
  dsimp only
  have dropped : ∀ {u : State}, LinkTouched p s u → linkOf u p = linkOf s p → LinkDropped s (linkDown p 6 u) p 6 :=
    fun touched link => touched.dropped (by rw [link]) (by rw [link]) (by rw [link]) (linkDown_dropped ..)
  split
  · exact dropped ((LinkTouched.raise _ _ _ _ _ s).trans (.count _ _ _ _)) ((linkOf_count1 ..).trans linkOf_raise)
  · exact dropped (.raise _ _ _ _ _ s) linkOf_raise

/-- The account of an entry within the credits out. -/
def acctReturned (a : Acct) (count : BitVec 16) : Acct := { a with
  received := (a.received + (count.toNat + 65536 - a.returned) % 65536) % 65536, returned := count.toNat }

/-- The state after an entry within the credits out. -/
def creditReturned (p : Fin 128) (k : Nat) (a : Acct) (count : BitVec 16) (s : State) : State :=
  creditSettle p.val k { s with accts := tabSet s.accts k (acctReturned a count) }

section
variable {p : Fin 128} {sid count : BitVec 16} {rest : List (BitVec 16 × BitVec 16)} {s : State}

theorem creditReturn_skip (invalid : sid.getLsbD 15 = true) : creditReturn p ((sid, count) :: rest) s = creditReturn p rest s :=
  if_pos invalid

theorem creditReturn_within {a : Acct} (valid : sid.getLsbD 15 = false)
    (found : tabFind s.accts (acctKey p (sid.extractLsb' 0 12).toNat) = some a)
    (within : (count.toNat + 65536 - a.returned) % 65536 ≤ acctOut a) :
    creditReturn p ((sid, count) :: rest) s =
      creditReturn p rest (creditReturned p (acctKey p (sid.extractLsb' 0 12).toNat) a count s) := by
  conv => lhs; unfold creditReturn
  dsimp only
  rw [if_neg (by rw [valid]; decide), found]
  exact if_neg (Nat.not_lt.2 within)

theorem creditReturn_beyond {a : Acct} (valid : sid.getLsbD 15 = false)
    (found : tabFind s.accts (acctKey p (sid.extractLsb' 0 12).toNat) = some a)
    (beyond : acctOut a < (count.toNat + 65536 - a.returned) % 65536) :
    LinkDropped s (creditReturn p ((sid, count) :: rest) s) p 6 := by
  unfold creditReturn
  dsimp only
  rw [if_neg (by rw [valid]; decide), found]
  dsimp only
  rw [if_pos beyond]
  exact creditOverrun_dropped ..

theorem creditReturn_unknown (valid : sid.getLsbD 15 = false)
    (unknown : tabFind s.accts (acctKey p (sid.extractLsb' 0 12).toNat) = none) (some : count ≠ 0#16) :
    LinkDropped s (creditReturn p ((sid, count) :: rest) s) p 6 := by
  unfold creditReturn
  dsimp only
  rw [if_neg (by rw [valid]; decide), unknown]
  dsimp only
  rw [if_neg some]
  exact creditOverrun_dropped ..

end

theorem exec_creditReturn {p : Fin 128} {s : State} (up : (linkOf s p).up = true) (es : List (BitVec 16 × BitVec 16)) :
    exec (.creditReturn p es) s = .next (creditReturn p es s) := congrArg Host.Outcome.next (if_pos up)

/-- What an entry within the credits out leaves of its account. -/
theorem creditReturned_account (p : Fin 128) (k : Nat) (a : Acct) (count : BitVec 16) (s : State) :
    (a.closing = false → (tabFind (creditReturned p k a count s).accts k).isSome = true) ∧
    (∀ b, tabFind (creditReturned p k a count s).accts k = some b → b.returned = count.toNat ∧
      b.received = (a.received + (count.toNat + 65536 - a.returned) % 65536) % 65536 ∧ b.held = a.held) := by
  have settled := creditSettle_creditFed p k { s with accts := tabSet s.accts k (acctReturned a count) }
  have here : tabFind (tabSet s.accts k (acctReturned a count)) k = some (acctReturned a count) := by
    rw [tabFind_tabSet, if_pos rfl]
  refine ⟨fun opened => settled.stays k (acctReturned a count) here opened, fun b found => ?_⟩
  obtain ⟨c, foundC, received, returned, held, -⟩ := settled.counts k b found
  cases here.symm.trans foundC
  exact ⟨returned, received, held⟩

theorem creditReturned_fed (p : Fin 128) (k : Nat) (a : Acct) (count : BitVec 16) (s : State) :
    (linkOf (creditReturned p k a count s) p).up = (linkOf s p).up ∧ creditReturned p k a count s = { s with
      accts := (creditReturned p k a count s).accts, pastAccts := (creditReturned p k a count s).pastAccts
      links := (creditReturned p k a count s).links, pool := (creditReturned p k a count s).pool } := by
  have settled := creditSettle_creditFed p k { s with accts := tabSet s.accts k (acctReturned a count) }
  unfold creditReturned
  exact ⟨by rw [settled.links p]; rfl, settled.frame⟩

-- Grants that wait

/-- The keys of the accounts whose advance has waited GRANT_HOLD_FR frames. -/
def grantsDue (p : Nat) (s : State) : List (Nat × Acct) :=
  s.accts.filter (fun e => e.1 / 4096 == p && !e.2.closing && (match e.2.advAt with
    | some f => framesOver s f (cfgVal s 0x20A0 7 0)
    | none => false))

theorem doGrantHoldExpiry_due {p : Nat} {s : State} (serves : linkServes s p = true) (strobe : s.clk.cycle = 0) :
    doGrantHoldExpiry p s = grantSend (grantsDue p s).length p ((grantsDue p s).map (fun e => e.1)) s := if_pos ⟨serves, strobe⟩

theorem mem_of_tabFind {α : Type} {t : Tab α} {k : Nat} {v : α} (found : tabFind t k = some v) : (k, v) ∈ t := by
  induction t with
  | nil => cases found
  | cons e t ih =>
    obtain ⟨j, w⟩ := e
    unfold tabFind at found
    split at found
    · next same =>
      cases found
      rw [same]
      exact List.mem_cons_self
    · exact List.mem_cons_of_mem _ (ih found)

end Sys2Proof.Machine

namespace Sys2Proof
open Sys2Proof.Machine

/-- Settles O27: the entries of a CREDIT_RETURN, and the grants that wait. -/
theorem creditsAreReturnedAndGranted : Obligations.CreditsAreReturnedAndGranted := by
  unfold Obligations.CreditsAreReturnedAndGranted
  refine ⟨fun p sid count rest s up => ⟨exec_creditReturn up [], fun invalid => ?_, fun valid a found => ⟨fun within => ?_, fun beyond => ?_⟩,
      fun valid unknown some => ?_⟩, fun p s serves strobe => ?_, fun p s idle => ?_⟩
  · rw [exec_creditReturn up, exec_creditReturn up, creditReturn_skip invalid]
  · obtain ⟨upStays, frame⟩ := creditReturned_fed p (acctKey p (sid.extractLsb' 0 12).toNat) a count s
    obtain ⟨stays, counts⟩ := creditReturned_account p (acctKey p (sid.extractLsb' 0 12).toNat) a count s
    refine ⟨_, ?_, stays, counts, frame, ?_⟩
    · rw [exec_creditReturn up, creditReturn_within valid found within]
      rfl
    · rw [exec_creditReturn up, creditReturn_within valid found within, exec_creditReturn (upStays.trans up)]
  · rw [exec_creditReturn up]
    exact ⟨_, rfl, creditReturn_beyond valid found beyond⟩
  · rw [exec_creditReturn up]
    exact ⟨_, rfl, creditReturn_unknown valid unknown some⟩
  · refine ⟨_, congrArg Host.Outcome.next (doGrantHoldExpiry_due serves strobe), fun k a f found port opened advanced held => ?_, ?_⟩
    · have due : k ∈ (grantsDue p s).map (fun e => e.1) := by
        refine List.mem_map.2 ⟨(k, a), List.mem_filter.2 ⟨mem_of_tabFind found, ?_⟩, rfl⟩
        rw [advanced]
        simp only [port, opened, held, beq_self_eq_true, Bool.not_false, Bool.and_self]
      rw [grantSend_accts _ _ _ _ (Nat.le_of_eq (by rw [List.length_map])), if_pos due, found]
      rfl
    · rw [grantSend_frame]
  · show Host.Outcome.next (doGrantHoldExpiry p s) = _
    unfold doGrantHoldExpiry
    dsimp only
    rw [if_neg]
    rintro ⟨serves, strobe⟩
    cases idle with
    | inl none => rw [none] at serves; cases serves
    | inr other => exact other strobe

end Sys2Proof

/-! SUPPORT. The RESYNC list: partner items on their way to one link. -/

namespace Sys2Proof.Machine

/-- Partner items are handed to link p: they and those that waited stand in its queue or wait for a kept cell, of which no
more than 32 are used (R190, R193, R246). -/
structure Pushed (p : Nat) (s t : State) : Prop where
  others : ∀ q, q ≠ p → linkOf t q = linkOf s q
  self : linkOf t p = { linkOf s p with feed := (linkOf t p).feed }
  keeps : ∀ r, r ∈ eqOf s p ∨ r ∈ (linkOf s p).feed → r ∈ eqOf t p ∨ r ∈ (linkOf t p).feed
  bound : ((eqOf s p).filter rspPartner).length ≤ 32 → ((eqOf t p).filter rspPartner).length ≤ 32

namespace Pushed
variable {p : Nat} {s t u : State}

theorem of_same (links : t.links = s.links) (eq : t.pool.eq = s.pool.eq) : Pushed p s t := by
  have link := fun q => linkOf_congr links q
  have queue : eqOf t p = eqOf s p := by
    unfold eqOf
    rw [eq]
  exact ⟨fun q _ => link q, by rw [link], fun r held => by rw [link, queue]; exact held, fun few => by rw [queue]; exact few⟩

theorem trans (h : Pushed p s t) (g : Pushed p t u) : Pushed p s u where
  others q hq := (g.others q hq).trans (h.others q hq)
  self := by rw [g.self, h.self]
  keeps r held := g.keeps r (h.keeps r held)
  bound few := g.bound (h.bound few)

end Pushed

theorem eqOf_eqPut_same (p : Nat) (l : List Rsp) (s : State) : eqOf (eqPut p l s) p = l :=
  (tabGet_tabPut ..).trans (if_pos rfl)

theorem eqOf_partnerLink (p : Nat) (r : Rsp) (s : State) : eqOf (partnerLink p r s) p =
    (eqOf s p).takeWhile rspPartner ++ r :: (eqOf s p).dropWhile rspPartner := eqOf_eqPut_same ..

theorem mem_partnerLink (p : Nat) (r x : Rsp) (s : State) : x ∈ eqOf (partnerLink p r s) p ↔ x = r ∨ x ∈ eqOf s p := by
  have parts : x ∈ eqOf s p ↔ x ∈ (eqOf s p).takeWhile rspPartner ∨ x ∈ (eqOf s p).dropWhile rspPartner := by
    rw [← List.mem_append, List.takeWhile_append_dropWhile]
  rw [eqOf_partnerLink, List.mem_append, List.mem_cons, parts]
  exact or_left_comm

theorem partners_partnerLink (p : Nat) (r : Rsp) (s : State) :
    ((eqOf (partnerLink p r s) p).filter rspPartner).length ≤ ((eqOf s p).filter rspPartner).length + 1 := by
  have parts : ((eqOf s p).filter rspPartner).length =
      (((eqOf s p).takeWhile rspPartner).filter rspPartner).length + (((eqOf s p).dropWhile rspPartner).filter rspPartner).length := by
    rw [← List.length_append, ← List.filter_append, List.takeWhile_append_dropWhile]
  rw [eqOf_partnerLink, List.filter_append, List.length_append, parts, List.filter_cons]
  split
  · rw [List.length_cons]
    omega
  · omega

theorem partnerPush_pushed (p : Nat) (r : Rsp) (s : State) :
    Pushed p s (partnerPush p r s) ∧ (r ∈ eqOf (partnerPush p r s) p ∨ r ∈ (linkOf (partnerPush p r s) p).feed) := by
  unfold partnerPush
  split
  · next room =>
    have free := of_decide_eq_true room.1
    refine ⟨⟨fun _ _ => rfl, rfl, fun x held => ?_, fun _ => ?_⟩, .inl ((mem_partnerLink ..).2 (.inl rfl))⟩
    · exact held.imp (fun queued => (mem_partnerLink ..).2 (.inr queued)) id
    · have one := partners_partnerLink p r s
      omega
  · have link := linkOf_linkMod_same p (fun x => { x with feed := x.feed ++ [r] }) s
    refine ⟨⟨fun q hq => by rw [linkOf_linkMod, if_neg hq], by rw [link], fun x held => ?_, id⟩, .inr ?_⟩
    · refine held.imp id fun waits => ?_
      rw [link]
      exact List.mem_append_left _ waits
    · rw [link]
      exact List.mem_append_right _ List.mem_cons_self

theorem foldl_partnerPush (p : Nat) (l : List Rsp) (s : State) :
    Pushed p s (l.foldl (fun s r => partnerPush p r s) s) ∧
    ∀ r ∈ l, r ∈ eqOf (l.foldl (fun s r => partnerPush p r s) s) p ∨ r ∈ (linkOf (l.foldl (fun s r => partnerPush p r s) s) p).feed := by
  induction l generalizing s with
  | nil => exact ⟨.of_same rfl rfl, fun r none => absurd none List.not_mem_nil⟩
  | cons x l ih =>
    rw [List.foldl_cons]
    obtain ⟨first, held⟩ := partnerPush_pushed p x s
    obtain ⟨rest, all⟩ := ih (partnerPush p x s)
    refine ⟨first.trans rest, fun r here => ?_⟩
    cases List.mem_cons.1 here with
    | inl same => exact same ▸ rest.keeps x held
    | inr later => exact all r later

theorem foldl_partnerPush_frame (p : Nat) (l : List Rsp) (s : State) : l.foldl (fun s r => partnerPush p r s) s = { s with
    links := (l.foldl (fun s r => partnerPush p r s) s).links, pool := (l.foldl (fun s r => partnerPush p r s) s).pool } := by
  induction l generalizing s with
  | nil => rfl
  | cons x l ih => rw [List.foldl_cons, ih, partnerPush_frame]

theorem grantSend_pushed (n p : Nat) (ks : List Nat) (s : State) : Pushed p s (grantSend n p ks s) := by
  induction n generalizing ks s with
  | zero => exact .of_same rfl rfl
  | succ n ih =>
    cases ks with
    | nil => exact .of_same rfl rfl
    | cons k ks =>
      rw [grantSend_cons]
      have sent : Pushed p s { s with accts := acctsSent ((k :: ks).take 3) s.accts } := .of_same rfl rfl
      exact (sent.trans (partnerPush_pushed p _ _).1).trans (ih _ _)

-- The list

/-- The link and the register of its length when a RESYNC list goes out. -/
def resyncBegun (p : Nat) (s : State) : State :=
  regPut (linkIdx p 3) 0x0A 0 (resyncEntries (linkOf s p)).length
    (linkPut p { linkOf s p with resync := 2, kept := resyncEntries (linkOf s p), fates := [] } s)

/-- The accounts of the streams of a link. -/
def resyncAccts (p : Nat) (s : State) : List (Nat × Acct) := s.accts.filter (fun e => e.1 / 4096 == p)

/-- The list that goes out. -/
def resyncItems (p : Nat) (s : State) : List Rsp :=
  resyncList s p (!(linkOf s p).kept.isEmpty) (resyncEntries (linkOf s p)) (resyncAccts p s)

/-- The list has gone out and is reported. -/
def resyncGone (p : Nat) (s : State) : State :=
  raise .resyncSent (srcLink p 2) (regVal s (linkIdx p 1) 8 0 % 65536) (resyncEntries (linkOf s p)).length
    (if !(linkOf s p).kept.isEmpty then 1 else 0) ((resyncItems p s).foldl (fun s r => partnerPush p r s) (resyncBegun p s))

theorem doResyncSend_ready {p : Nat} {s : State} (up : (linkOf s p).up = true) (due : (linkOf s p).resync = 1)
    (ready : resyncReady s p = true) : ∃ ks : List Nat, doResyncSend p s = grantSend ks.length p ks (resyncGone p s) :=
  ⟨_, if_pos ⟨up, due, ready⟩⟩

theorem resyncGone_frame (p : Nat) (s : State) : resyncGone p s = { s with
    regs := (resyncGone p s).regs, ev := (resyncGone p s).ev, links := (resyncGone p s).links, pool := (resyncGone p s).pool } := by
  unfold resyncGone
  rw [raise_frame, foldl_partnerPush_frame]
  rfl

theorem resyncGone_pushed (p : Nat) (s : State) : Pushed p (resyncBegun p s) (resyncGone p s) ∧
    ∀ r ∈ resyncItems p s, r ∈ eqOf (resyncGone p s) p ∨ r ∈ (linkOf (resyncGone p s) p).feed := by
  obtain ⟨pushed, held⟩ := foldl_partnerPush p (resyncItems p s) (resyncBegun p s)
  unfold resyncGone
  generalize (resyncItems p s).foldl (fun s r => partnerPush p r s) (resyncBegun p s) = u at pushed held ⊢
  have raised : Pushed p u (raise .resyncSent (srcLink p 2) (regVal s (linkIdx p 1) 8 0 % 65536)
      (resyncEntries (linkOf s p)).length (if !(linkOf s p).kept.isEmpty then 1 else 0) u) :=
    .of_same (by rw [raise_frame]) (by rw [raise_frame])
  exact ⟨pushed.trans raised, fun r here => raised.keeps r (held r here)⟩

theorem regVal_resyncGone (p : Fin 128) (s : State) :
    regVal (resyncGone p s) (linkIdx p 3) 0x0A 0 = (resyncEntries (linkOf s p)).length := by
  unfold resyncGone
  rw [regVal_raise_quiet (by unfold srcLink; omega) (linkIdx_quiet p (by decide) (by decide)), foldl_partnerPush_frame]
  exact regVal_regPut_same ..

theorem linkOf_resyncBegun (p : Nat) (s : State) : linkOf (resyncBegun p s) p =
    { linkOf s p with resync := 2, kept := resyncEntries (linkOf s p), fates := [] } := linkOf_linkPut_same ..

theorem doResyncDone_named {p drop : Nat} {s : State} (up : (linkOf s p).up = true) (sent : (linkOf s p).resync = 3)
    (named : drop = regVal s (linkIdx p 1) 8 0 % 65536) :
    doResyncDone p drop s = linkPut p { linkOf s p with resync := 0, kept := [] } s := by
  unfold doResyncDone
  dsimp only
  rw [if_neg (by rw [up]; decide), if_pos ⟨sent, named⟩]

theorem doResyncDone_other {p drop : Nat} {s : State} (up : (linkOf s p).up = true)
    (other : (linkOf s p).resync ≠ 3 ∨ drop ≠ regVal s (linkIdx p 1) 8 0 % 65536) :
    doResyncDone p drop s = count1 (linkIdx p 3) 8 0 s := by
  unfold doResyncDone
  dsimp only
  rw [if_neg (by rw [up]; decide), if_neg (fun both => other.elim (absurd both.1) (absurd both.2))]

end Sys2Proof.Machine

namespace Sys2Proof
open Sys2Proof.Machine

/-- Settles O26: the RESYNC list goes out, and RESYNC_DONE. -/
theorem resyncListIsSentAndAcknowledged : Obligations.ResyncListIsSentAndAcknowledged := by
  unfold Obligations.ResyncListIsSentAndAcknowledged
  refine ⟨fun p s up due ready => ?_, fun p drop s up =>
    ⟨fun sent named => congrArg Host.Outcome.next (doResyncDone_named up sent named),
     fun other => congrArg Host.Outcome.next (doResyncDone_other up other)⟩⟩
  obtain ⟨ks, runs⟩ := doResyncSend_ready up due ready
  obtain ⟨listed, held⟩ := resyncGone_pushed p s
  have granted := grantSend_pushed ks.length p ks (resyncGone p s)
  have all := listed.trans granted
  have begun := linkOf_resyncBegun p s
  refine ⟨_, congrArg Host.Outcome.next runs, ?_, ?_, fun r here => granted.keeps r (held r here), all.bound, fun q hq => ?_, ?_⟩
  · rw [all.self, begun]
  · rw [grantSend_frame]
    exact regVal_resyncGone p s
  · rw [all.others q hq]
    unfold resyncBegun
    rw [linkOf_regPut, linkOf_linkPut, if_neg hq]
  · rw [grantSend_frame, resyncGone_frame]

end Sys2Proof

/-! SUPPORT. The transmit side of a link: acknowledgements sent, and items handed over. -/

namespace Sys2Proof.Machine

-- What a flit's formation touches

theorem sumUpN_touched (p : Nat) (e : Ev) (src a b c n : Nat) (s : State) : LinkTouched p s (sumUpN e src a b c n s) := by
  unfold sumUpN
  induction n with
  | zero => exact .refl p s
  | succ n ih => exact ih.trans (.sumUp e src a b c _)

theorem linkOf_sumUpN {e : Ev} {src a b c n : Nat} {s : State} {q : Nat} : linkOf (sumUpN e src a b c n s) q = linkOf s q := by
  unfold sumUpN
  induction n with
  | zero => rfl
  | succ n ih => exact linkOf_sumUp.trans ih

theorem wordsNote_touched (p src q kind n : Nat) (s : State) : LinkTouched p s (wordsNote src q kind n s) := by
  unfold wordsNote
  split
  · exact .refl p s
  · exact (LinkTouched.counts _ _ _ _ s).trans (sumUpN_touched ..)

theorem linkOf_wordsNote {src q kind n : Nat} {s : State} {k : Nat} : linkOf (wordsNote src q kind n s) k = linkOf s k := by
  unfold wordsNote
  split
  · rfl
  · exact linkOf_sumUpN

theorem flitSend_touched (p : Nat) (o : FlitOut) (s : State) : LinkTouched p s (flitSend p o s) := .mod _ _

theorem linkOf_flitSend (p : Nat) (o : FlitOut) (s : State) : linkOf (flitSend p o s) p = { linkOf s p with txLast := some o } :=
  linkOf_linkMod_same ..

/-- What an ack-bearing flit leaves of its link (R219, R220). -/
theorem linkOf_ackSend (p ty seq : Nat) (vcm : BitVec 15) (body : BitVec 1920) (retx : Bool) (s : State) :
    linkOf (ackSend p ty seq vcm body retx s) p = { linkOf s p with
      txLast := some (ackFlit (linkOf s p) ty seq vcm body retx)
      uncovered := 0, ackDue := false, nakOwed := false, nakSent := (linkOf s p).nakSent || (linkOf s p).nakOwed
      retxSeen := (linkOf s p).retxSeen && !(linkOf s p).nakOwed } := by
  unfold ackSend
  dsimp only
  rw [linkOf_linkMod_same, linkOf_flitSend]
  have nak : linkOf (if (linkOf s p).nakOwed = true then nakSum p (some (linkOf s p).e) (count1 (linkIdx p 2) 4 0 s) else s) p =
      linkOf s p := by
    split
    · exact linkOf_sumSet
    · rfl
  rw [nak]

theorem ackSend_touched (p ty seq : Nat) (vcm : BitVec 15) (body : BitVec 1920) (retx : Bool) (s : State) :
    LinkTouched p s (ackSend p ty seq vcm body retx s) := by
  unfold ackSend
  dsimp only
  refine LinkTouched.trans (LinkTouched.trans (t := if (linkOf s p).nakOwed = true then
    nakSum p (some (linkOf s p).e) (count1 (linkIdx p 2) 4 0 s) else s) ?_ (flitSend_touched ..)) (.mod _ _)
  split
  · exact (LinkTouched.count _ _ _ s).trans (nakSum_touched ..)
  · exact .refl p s

-- Rows that are read

theorem rowBad_pool (mac row : Nat) (s : State) : (rowBad mac row s).pool = s.pool := by
  unfold rowBad
  dsimp only
  split
  · rfl
  · split <;> rfl

theorem rowErrors_pool (f : Faults) (s : State) : ∃ bad, (rowErrors f s).pool = { s.pool with ptrBad := bad } := by
  refine ⟨_, foldl_keeps State.pool rowError (fun s e => ?_) _ _⟩
  rw [rowError_eq, rowWatch_frame]
  split
  · unfold keyRowUe
    split
    · dsimp only
      rw [raise_frame]
      split
      · rfl
      · exact rowBad_pool ..
    · rfl
  · rfl

theorem eqOf_rowErrors {f : Faults} {s : State} {p : Nat} : eqOf (rowErrors f s) p = eqOf s p := by
  obtain ⟨bad, pool⟩ := rowErrors_pool f s
  unfold eqOf
  rw [pool]

theorem dataReady_rowErrors {f : Faults} {s : State} {p : Nat} : dataReady (rowErrors f s) p = dataReady s p := by
  unfold dataReady linkServes
  rw [linkOf_rowErrors, eqOf_rowErrors]

-- Handing items over

/-- Items of link p are handed over: its cells are released, and the end of a RESYNC list is known (R192, R247). -/
structure HandedOver (p : Nat) (s t : State) : Prop where
  self : linkOf t p = { linkOf s p with feed := (linkOf t p).feed, resync := (linkOf t p).resync }
  others : ∀ q, q ≠ p → linkOf t q = { linkOf s q with feed := (linkOf t q).feed }
  frame : t = { s with regs := t.regs, ev := t.ev, links := t.links, accts := t.accts, pastAccts := t.pastAccts, pool := t.pool }

namespace HandedOver
variable {p : Nat} {s t u : State}

theorem refl (p : Nat) (s : State) : HandedOver p s s := ⟨rfl, fun _ _ => rfl, rfl⟩

theorem trans (h : HandedOver p s t) (g : HandedOver p t u) : HandedOver p s u where
  self := by rw [g.self, h.self]
  others q hq := by rw [g.others q hq, h.others q hq]
  frame := by rw [g.frame, h.frame]

theorem of_fed (h : CreditFed s t) : HandedOver p s t where
  self := by rw [h.links p]
  others q _ := h.links q
  frame := by rw [h.frame]

theorem of_note (h : t = { s with regs := t.regs, ev := t.ev }) : HandedOver p s t := by
  have link := linkOf_congr (s := s) (t := t) (by rw [h])
  exact ⟨by rw [link], fun q _ => by rw [link], by rw [h]⟩

/-- A change of accounts alone. -/
theorem of_accts (accts : Tab Acct) (s : State) : HandedOver p s { s with accts := accts } := ⟨rfl, fun _ _ => rfl, rfl⟩

end HandedOver

theorem creditRelease_handed (p k sid n : Nat) (s : State) : HandedOver p s (creditRelease k sid n s) := by
  unfold creditRelease
  dsimp only
  split
  · exact .refl p s
  · exact (HandedOver.of_accts _ s).trans (.of_fed (creditSettle_creditFed ..))

theorem handOver_handed (p : Nat) (r : Rsp) (s : State) : HandedOver p s (handOver p s r) := by
  unfold handOver
  split
  · split
    · have link := linkOf_linkMod_same p (fun x => { x with resync := 3 }) s
      exact ⟨by rw [link], fun q hq => by rw [linkOf_linkMod, if_neg hq], rfl⟩
    · split
      · exact .of_note rfl
      · exact .refl p s
  · split
    · exact (HandedOver.of_note (t := count1 0x6000 1 0 s) rfl).trans (creditRelease_handed ..)
    · exact creditRelease_handed ..

theorem foldl_handOver_handed (p : Nat) (l : List Rsp) (s : State) : HandedOver p s (l.foldl (handOver p) s) := by
  induction l generalizing s with
  | nil => exact .refl p s
  | cons r l ih => exact (handOver_handed p r s).trans (ih _)

-- A new DATA flit

/-- The items of a flit that leaves, as the LFX reads them. -/
def flitItems (p : Nat) (f : Faults) (s : State) : List (Rsp × Nat × Nat) := rspsRead f 0 (fillSlots 15 15 (eqOf s p)).1

/-- Bad header words of the items read. -/
def badHeads (l : List (Rsp × Nat × Nat)) : Nat := l.foldl (fun n e => n + e.2.1) 0

theorem badHeads_eq_zero (l : List (Rsp × Nat × Nat)) : badHeads l = 0 ↔ ∀ e ∈ l, e.2.1 = 0 := by
  have sum : ∀ n, l.foldl (fun n e => n + e.2.1) n = 0 ↔ n = 0 ∧ ∀ e ∈ l, e.2.1 = 0 := by
    induction l with
    | nil => simp
    | cons e l ih =>
      intro n
      rw [List.foldl_cons, ih, List.forall_mem_cons, Nat.add_eq_zero_iff, and_assoc]
  rw [badHeads, sum]
  simp

/-- The slots of the items of a flit. -/
def flitSlots (l : List (Rsp × Nat × Nat)) : List (BitVec 128) := (l.map (fun e => e.1)).flatMap itemSlots

/-- The flit of the items read, as it is held until it is acknowledged (R216). -/
def flitHeld (seq : Nat) (l : List (Rsp × Nat × Nat)) : HeldFlit :=
  { seq := seq, vcmask := BitVec.ofNat 15 (2 ^ (flitSlots l).length - 1), body := slotsBody (flitSlots l)
    fates := (l.map (fun e => e.1)).filterMap rspFate }

/-- The state once the items have left their queue. -/
def itemsLeft (p : Nat) (f : Faults) (s : State) : State :=
  wordsNote (srcLink p 5) (129 + 2 * p) 3 ((flitItems p f s).foldl (fun n e => n + e.2.2) 0)
    (eqPut p (fillSlots 15 15 (eqOf s p)).2 s)

/-- A flit that is held takes the next sequence number. -/
def heldAdd (h : HeldFlit) (y : LinkSt) : LinkSt :=
  let y := { y with nxt := (y.nxt + 1) % 4096, held := y.held ++ [h] }
  { y with stalled := y.stalled || winFull y }

theorem heldAdd_frame (h : HeldFlit) (y : LinkSt) :
    heldAdd h y = { y with nxt := (y.nxt + 1) % 4096, held := y.held ++ [h], stalled := (heldAdd h y).stalled } := rfl

/-- The state once the flit of the items is formed and held. -/
def itemsFlit (p : Nat) (f : Faults) (s : State) : State :=
  let h := flitHeld (linkOf (itemsLeft p f s) p).nxt (flitItems p f s)
  linkMod p (heldAdd h) (ackSend p 0 (linkOf (itemsLeft p f s) p).nxt h.vcmask h.body false
    (count1 (linkIdx p 4) 6 0 (itemsLeft p f s)))

section
variable {p : Nat} {f : Faults} {s : State}

theorem sendData_reset {fld : Nat} (damaged : ptrField s (129 + 2 * p) f = some fld) :
    sendData p f s = queueReset (129 + 2 * p) fld s := by
  unfold sendData
  rw [damaged]

theorem sendData_bad (sound : ptrField s (129 + 2 * p) f = none) (bad : badHeads (flitItems p f s) ≠ 0) :
    LinkDropped s (sendData p f s) p 2 := by
  unfold sendData
  rw [sound]
  dsimp only
  refine (if_pos bad).symm ▸ ?_
  exact (wordsNote_touched ..).dropped (by rw [linkOf_wordsNote]) (by rw [linkOf_wordsNote]) (by rw [linkOf_wordsNote])
    (linkDown_dropped ..)

theorem sendData_sound (sound : ptrField s (129 + 2 * p) f = none) (good : badHeads (flitItems p f s) = 0) :
    sendData p f s =
      partnerFeed 15 p (((flitItems p f s).map (fun e => e.1)).foldl (handOver p) (itemsFlit p f s)) := by
  have silent : wordsNote (srcLink p 5) (129 + 2 * p) 1 (badHeads (flitItems p f s)) s = s := by
    rw [good]
    rfl
  unfold sendData
  rw [sound]
  dsimp only
  refine (if_neg (fun bad => bad good)).trans ?_
  unfold badHeads flitItems at silent
  rw [silent]
  rfl

theorem linkOf_itemsLeft {q : Nat} : linkOf (itemsLeft p f s) q = linkOf s q := linkOf_wordsNote

theorem itemsLeft_frame : itemsLeft p f s = { s with
    regs := (itemsLeft p f s).regs, ev := (itemsLeft p f s).ev, links := (itemsLeft p f s).links, pool := (itemsLeft p f s).pool } := by
  unfold itemsLeft
  rw [(wordsNote_touched p _ _ _ _ _).frame]
  rfl

theorem itemsFlit_touched : LinkTouched p (itemsLeft p f s) (itemsFlit p f s) := by
  unfold itemsFlit
  exact ((LinkTouched.count _ _ _ _).trans (ackSend_touched ..)).trans (.mod _ _)

/-- A DATA flit that leaves: it is held under the sequence number that it carries. -/
theorem sendData_sent (sound : ptrField s (129 + 2 * p) f = none) (good : badHeads (flitItems p f s) = 0) : ∃ o h,
    (linkOf (sendData p f s) p).txLast = some o ∧ o.ty = 0 ∧ o.seq = (linkOf s p).nxt ∧ o.ack = (linkOf s p).ack ∧
    o.retx = false ∧ o.body = h.body ∧ h.seq = (linkOf s p).nxt ∧
    (linkOf (sendData p f s) p).held = (linkOf s p).held ++ [h] ∧
    (linkOf (sendData p f s) p).nxt = ((linkOf s p).nxt + 1) % 4096 ∧
    (∀ q, q ≠ p → linkOf (sendData p f s) q = { linkOf s q with feed := (linkOf (sendData p f s) q).feed }) ∧
    sendData p f s = { s with regs := (sendData p f s).regs, ev := (sendData p f s).ev, links := (sendData p f s).links
                              accts := (sendData p f s).accts, pastAccts := (sendData p f s).pastAccts
                              pool := (sendData p f s).pool } := by
  have handed := (foldl_handOver_handed p ((flitItems p f s).map (fun e => e.1)) (itemsFlit p f s)).trans
    (.of_fed (partnerFeed_creditFed 15 p _))
  rw [← sendData_sound sound good] at handed
  generalize sendData p f s = t at handed
  have link : linkOf (itemsFlit p f s) p = heldAdd (flitHeld (linkOf s p).nxt (flitItems p f s))
      { linkOf s p with
        txLast := some (ackFlit (linkOf s p) 0 (linkOf s p).nxt (flitHeld (linkOf s p).nxt (flitItems p f s)).vcmask
          (flitHeld (linkOf s p).nxt (flitItems p f s)).body false)
        uncovered := 0, ackDue := false, nakOwed := false, nakSent := (linkOf s p).nakSent || (linkOf s p).nakOwed
        retxSeen := (linkOf s p).retxSeen && !(linkOf s p).nakOwed } := by
    unfold itemsFlit
    dsimp only
    rw [linkOf_linkMod_same, linkOf_ackSend, linkOf_count1, linkOf_itemsLeft]
  rw [heldAdd_frame] at link
  have self := handed.self
  rw [link] at self
  refine ⟨_, flitHeld (linkOf s p).nxt (flitItems p f s), by rw [self], rfl, rfl, rfl, rfl, rfl, rfl, by rw [self],
    by rw [self], fun q hq => ?_, ?_⟩
  · rw [handed.others q hq, itemsFlit_touched.others q hq, linkOf_itemsLeft]
  · rw [handed.frame, itemsFlit_touched.frame, itemsLeft_frame]

theorem sendReplay_held {r : Nat} {h : HeldFlit} (held : (linkOf s p).held[seqDist r (linkOf s p).una]? = some h) (bad : Bool) :
    sendReplay p r bad s = if bad then replayParity p h.seq s else
      ackSend p 0 h.seq h.vcmask h.body true (count1 (linkIdx p 2) 7 0
        (linkPut p { linkOf s p with replay := if (r + 1) % 4096 = (linkOf s p).nxt then none else some ((r + 1) % 4096) } s)) := by
  unfold sendReplay
  dsimp only
  rw [held]

end

-- The order of what is due

section
variable {p : Nat} {bad : Bool} {f : Faults} {s : State}

theorem doFlitTransmit_up (running : s.clk.running = true) (served : (linkOf s p).rate ≠ 3) (alive : (linkOf s p).bistDown = false)
    (up : (linkOf s p).up = true) : doFlitTransmit p bad f s = sendUp p bad f (rowErrors f s) := by
  unfold doFlitTransmit
  dsimp only
  rw [if_neg (by rw [running]; decide), if_neg served, if_neg (by rw [alive]; decide), if_pos up]

theorem doFlitTransmit_down (running : s.clk.running = true) (served : (linkOf s p).rate ≠ 3)
    (alive : (linkOf s p).bistDown = false) (down : (linkOf s p).up = false) : doFlitTransmit p bad f s = sendDown p s := by
  unfold doFlitTransmit
  dsimp only
  rw [if_neg (by rw [running]; decide), if_neg served, if_neg (by rw [alive]; decide), if_neg (by rw [down]; decide)]

theorem sendUp_first (first : (linkOf s p).first = true) : sendUp p bad f s =
    ackSend p 1 (linkOf s p).nxt 0 0 false (linkPut p { linkOf s p with first := false } s) := if_pos first

theorem sendUp_heartbeat (later : (linkOf s p).first = false) (due : (linkOf s p).hbDue = true) : sendUp p bad f s =
    ackSend p 3 (linkOf s p).nxt 0 (heartbeatBody s p ((linkOf s p).hbCount + 1)) false
      (linkPut p { linkOf s p with hbDue := false, hbCount := (linkOf s p).hbCount + 1 } s) := by
  unfold sendUp
  dsimp only
  rw [if_neg (by rw [later]; decide), if_pos due]

theorem sendUp_replay (later : (linkOf s p).first = false) (quiet : (linkOf s p).hbDue = false) {r : Nat}
    (replay : (linkOf s p).replay = some r) : sendUp p bad f s = sendReplay p r bad s := by
  unfold sendUp
  dsimp only
  rw [if_neg (by rw [later]; decide), if_neg (by rw [quiet]; decide), replay]

theorem sendUp_new (later : (linkOf s p).first = false) (quiet : (linkOf s p).hbDue = false)
    (caught : (linkOf s p).replay = none) : sendUp p bad f s =
      if dataReady s p then sendData p f s
      else if (linkOf s p).nakOwed ∨ (linkOf s p).ackDue then ackSend p 1 (linkOf s p).nxt 0 0 false s
      else flitSend p { plainFlit (linkOf s p) 2 0 (linkOf s p).light with seq := (linkOf s p).nxt, txfull := winFull (linkOf s p) } s := by
  unfold sendUp
  dsimp only
  rw [if_neg (by rw [later]; decide), if_neg (by rw [quiet]; decide), caught]

end

end Sys2Proof.Machine

/-! The next flit of a lane. -/

namespace Sys2Proof
open Sys2Proof.Machine

section
variable {p : Fin 128} {bad : Bool} {f : Faults} {s : State} (running : s.clk.running = true)
  (served : (linkOf s p).rate ≠ 3) (alive : (linkOf s p).bistDown = false)
include running served alive

/-- A link that is not up: the DOWN flits of a drop first, then the selects that are due. -/
theorem flitTransmit_down (down : (linkOf s p).up = false) :
    (0 < (linkOf s p).downLeft → ∃ t o, exec (.flitTransmit p bad f) s = .next t ∧
      linkOf t p = { linkOf s p with downLeft := (linkOf s p).downLeft - 1, txLast := some o } ∧ o.ty = 7 ∧
      o.light = (linkOf s p).downLight ∧ t = { s with links := t.links }) ∧
    ((linkOf s p).downLeft = 0 →
      (∀ res v rest, (linkOf s p).selectDue = (res, v) :: rest → ∃ t o, exec (.flitTransmit p bad f) s = .next t ∧
        linkOf t p = { linkOf s p with selectDue := rest, selSent := decide (res = 0), txLast := some o } ∧ o.ty = 5 ∧
        o.body = selectBody s p res v ∧ t = { s with links := t.links }) ∧
      ((linkOf s p).selectDue = [] → ∃ t o, exec (.flitTransmit p bad f) s = .next t ∧
        linkOf t p = { linkOf s p with txLast := some o } ∧ o.ty = (if (linkOf s p).downOn then 7 else 2) ∧
        t = { s with links := t.links })) := by
  have flit := doFlitTransmit_down (bad := bad) (f := f) running served alive down
  unfold sendDown at flit
  dsimp only at flit
  refine ⟨fun left => ?_, fun none => ⟨fun res v rest due => ?_, fun idle => ?_⟩⟩
  · rw [if_pos left] at flit
    refine ⟨_, _, congrArg Host.Outcome.next flit,
      (linkOf_flitSend ..).trans (by rw [linkOf_linkPut_same]), rfl, rfl, rfl⟩
  · rw [if_neg (by omega), due] at flit
    refine ⟨_, _, congrArg Host.Outcome.next flit,
      (linkOf_flitSend ..).trans (by rw [linkOf_linkPut_same]), rfl, rfl, rfl⟩
  · rw [if_neg (by omega), idle] at flit
    exact ⟨_, _, congrArg Host.Outcome.next flit, linkOf_flitSend .., rfl, rfl⟩

variable (up : (linkOf s p).up = true)
include up

theorem flitTransmit_first (first : (linkOf s p).first = true) : ∃ t o, exec (.flitTransmit p bad f) s = .next t ∧
    (linkOf t p).txLast = some o ∧ o.ty = 1 ∧ o.seq = (linkOf s p).nxt ∧ o.ack = (linkOf s p).ack ∧
    o.nak = (linkOf s p).nakOwed ∧ (linkOf t p).first = false ∧
    t = { rowErrors f s with regs := t.regs, ev := t.ev, links := t.links } := by
  have link : linkOf (rowErrors f s) p = linkOf s p := linkOf_rowErrors
  have flit := (doFlitTransmit_up (bad := bad) (f := f) running served alive up).trans (sendUp_first (by rw [link]; exact first))
  rw [link] at flit
  have touched := (LinkTouched.put (p := p) { linkOf s p with first := false } (rowErrors f s)).trans
    (ackSend_touched p 1 (linkOf s p).nxt 0 0 false _)
  have sent := linkOf_ackSend p 1 (linkOf s p).nxt 0 0 false (linkPut p { linkOf s p with first := false } (rowErrors f s))
  rw [linkOf_linkPut_same] at sent
  exact ⟨_, _, congrArg Host.Outcome.next flit, by rw [sent], rfl, rfl, rfl, rfl, by rw [sent], touched.frame⟩

theorem flitTransmit_heartbeat (later : (linkOf s p).first = false) (due : (linkOf s p).hbDue = true) : ∃ t o,
    exec (.flitTransmit p bad f) s = .next t ∧ (linkOf t p).txLast = some o ∧ o.ty = 3 ∧ o.ack = (linkOf s p).ack ∧
    (linkOf t p).hbDue = false ∧ (linkOf t p).hbCount = (linkOf s p).hbCount + 1 ∧
    t = { rowErrors f s with regs := t.regs, ev := t.ev, links := t.links } := by
  have link : linkOf (rowErrors f s) p = linkOf s p := linkOf_rowErrors
  have flit := (doFlitTransmit_up (bad := bad) (f := f) running served alive up).trans
    (sendUp_heartbeat (by rw [link]; exact later) (by rw [link]; exact due))
  rw [link] at flit
  generalize heartbeatBody (rowErrors f s) p ((linkOf s p).hbCount + 1) = body at flit
  have touched := (LinkTouched.put (p := p) { linkOf s p with hbDue := false, hbCount := (linkOf s p).hbCount + 1 }
    (rowErrors f s)).trans (ackSend_touched p 3 (linkOf s p).nxt 0 body false _)
  have sent := linkOf_ackSend p 3 (linkOf s p).nxt 0 body false
    (linkPut p { linkOf s p with hbDue := false, hbCount := (linkOf s p).hbCount + 1 } (rowErrors f s))
  rw [linkOf_linkPut_same] at sent
  exact ⟨_, _, congrArg Host.Outcome.next flit, by rw [sent], rfl, rfl, by rw [sent], by rw [sent], touched.frame⟩

variable (later : (linkOf s p).first = false) (quiet : (linkOf s p).hbDue = false)
include later quiet

theorem flitTransmit_replay {r : Nat} {h : HeldFlit} (replay : (linkOf s p).replay = some r)
    (held : (linkOf s p).held[seqDist r (linkOf s p).una]? = some h) :
    (bad = false → ∃ t o, exec (.flitTransmit p bad f) s = .next t ∧ (linkOf t p).txLast = some o ∧ o.ty = 0 ∧
      o.seq = h.seq ∧ o.body = h.body ∧ o.retx = true ∧ (linkOf t p).held = (linkOf s p).held ∧
      (linkOf t p).replay = (if (r + 1) % 4096 = (linkOf s p).nxt then none else some ((r + 1) % 4096)) ∧
      t = { rowErrors f s with regs := t.regs, ev := t.ev, links := t.links }) ∧
    (bad = true → ∃ t, exec (.flitTransmit p bad f) s = .next t ∧ LinkDropped (rowErrors f s) t p 4) := by
  have link : linkOf (rowErrors f s) p = linkOf s p := linkOf_rowErrors
  have flit := ((doFlitTransmit_up (bad := bad) (f := f) running served alive up).trans
    (sendUp_replay (by rw [link]; exact later) (by rw [link]; exact quiet) (by rw [link]; exact replay))).trans
    (sendReplay_held (by rw [link]; exact held) bad)
  refine ⟨fun sound => ?_, fun damaged => ?_⟩
  · rw [if_neg (by rw [sound]; decide), link] at flit
    generalize (if (r + 1) % 4096 = (linkOf s p).nxt then none else some ((r + 1) % 4096)) = next at flit ⊢
    have touched := ((LinkTouched.put (p := p) { linkOf s p with replay := next } (rowErrors f s)).trans
      (.count (linkIdx p 2) 7 0 _)).trans (ackSend_touched p 0 h.seq h.vcmask h.body true _)
    have sent := linkOf_ackSend p 0 h.seq h.vcmask h.body true
      (count1 (linkIdx p 2) 7 0 (linkPut p { linkOf s p with replay := next } (rowErrors f s)))
    rw [linkOf_count1, linkOf_linkPut_same] at sent
    exact ⟨_, _, congrArg Host.Outcome.next flit, by rw [sent], rfl, rfl, rfl, rfl, by rw [sent], by rw [sent], touched.frame⟩
  · rw [if_pos damaged] at flit
    exact ⟨_, congrArg Host.Outcome.next flit, replayParity_dropped ..⟩

variable (caught : (linkOf s p).replay = none)
include caught

/-- Without a flit that goes first, a lane carries a new DATA flit where one may go. -/
theorem flitTransmit_new : exec (.flitTransmit p bad f) s = .next
    (if dataReady s p then sendData p f (rowErrors f s)
     else if (linkOf s p).nakOwed ∨ (linkOf s p).ackDue then ackSend p 1 (linkOf s p).nxt 0 0 false (rowErrors f s)
     else flitSend p { plainFlit (linkOf s p) 2 0 (linkOf s p).light with
       seq := (linkOf s p).nxt, txfull := winFull (linkOf s p) } (rowErrors f s)) := by
  have link : linkOf (rowErrors f s) p = linkOf s p := linkOf_rowErrors
  have flit := (doFlitTransmit_up (bad := bad) (f := f) running served alive up).trans
    (sendUp_new (by rw [link]; exact later) (by rw [link]; exact quiet) (by rw [link]; exact caught))
  rw [dataReady_rowErrors, link] at flit
  exact congrArg Host.Outcome.next flit

theorem flitTransmit_idle (empty : dataReady s p = false) : ∃ t o, exec (.flitTransmit p bad f) s = .next t ∧
    (linkOf t p).txLast = some o ∧ o.ty = (if (linkOf s p).nakOwed || (linkOf s p).ackDue then 1 else 2) ∧
    o.seq = (linkOf s p).nxt ∧ t = { rowErrors f s with regs := t.regs, ev := t.ev, links := t.links } := by
  have link : linkOf (rowErrors f s) p = linkOf s p := linkOf_rowErrors
  have flit := flitTransmit_new (bad := bad) (f := f) running served alive up later quiet caught
  rw [if_neg (by rw [empty]; decide)] at flit
  by_cases due : (linkOf s p).nakOwed = true ∨ (linkOf s p).ackDue = true
  · rw [if_pos due] at flit
    have sent := linkOf_ackSend p 1 (linkOf s p).nxt 0 0 false (rowErrors f s)
    refine ⟨_, _, flit, by rw [sent], ?_, rfl, (ackSend_touched ..).frame⟩
    rw [if_pos (by rw [Bool.or_eq_true]; exact due)]
    rfl
  · rw [if_neg due] at flit
    have sent := linkOf_flitSend p { plainFlit (linkOf s p) 2 0 (linkOf s p).light with
      seq := (linkOf s p).nxt, txfull := winFull (linkOf s p) } (rowErrors f s)
    refine ⟨_, _, flit, by rw [sent], ?_, rfl, (flitSend_touched p _ _).frame⟩
    rw [if_neg (by rw [Bool.or_eq_true]; exact due)]
    rfl

end

/-- Settles O25: the next flit of a lane, in the order of what is due. -/
theorem theNextFlitOfALane : Obligations.TheNextFlitOfALane := by
  unfold Obligations.TheNextFlitOfALane
  refine fun p bad f s running => ⟨fun stopped => ?_,
    fun served alive down left => (flitTransmit_down running served alive down).1 left,
    fun served alive down none => (flitTransmit_down running served alive down).2 none, fun served dead => ?_,
    fun served alive up => ⟨flitTransmit_first running served alive up, flitTransmit_heartbeat running served alive up,
      fun later quiet r h replay held => flitTransmit_replay running served alive up later quiet replay held,
      fun later quiet caught ready => ?_, fun later quiet caught ready sound good => ?_,
      flitTransmit_idle running served alive up⟩⟩
  · refine congrArg Host.Outcome.next ?_
    unfold doFlitTransmit
    dsimp only
    rw [if_neg (by rw [running]; decide), if_pos stopped]
  · have flit : doFlitTransmit p bad f s = flitSend p (plainFlit (linkOf s p) 2 0 false) s := by
      unfold doFlitTransmit
      dsimp only
      rw [if_neg (by rw [running]; decide), if_neg served, if_pos dead]
    exact ⟨_, _, congrArg Host.Outcome.next flit, linkOf_flitSend .., rfl, rfl⟩
  · have flit := flitTransmit_new (bad := bad) (f := f) running served alive up later quiet caught
    rw [if_pos ready] at flit
    refine ⟨fun sound ⟨e, read, damaged⟩ => ⟨_, flit, sendData_bad sound fun good => ?_⟩, fun fld damaged => ?_⟩
    · rw [badHeads_eq_zero] at good
      unfold flitItems at good
      rw [eqOf_rowErrors] at good
      exact damaged (good e read)
    · rw [flit, sendData_reset damaged]
  · have flit := flitTransmit_new (bad := bad) (f := f) running served alive up later quiet caught
    rw [if_pos ready] at flit
    have whole : badHeads (flitItems p f (rowErrors f s)) = 0 := by
      rw [badHeads_eq_zero]
      unfold flitItems
      rw [eqOf_rowErrors]
      exact good
    have sent := sendData_sent sound whole
    simp only [linkOf_rowErrors] at sent
    obtain ⟨o, h, facts⟩ := sent
    exact ⟨_, o, h, flit, facts⟩

end Sys2Proof

/-! SUPPORT. Management messages: how an answer and a drop look, and what each operation does once it is taken. -/

namespace Sys2Proof.Machine

-- Answers

/-- An answer under a loaded key joins the messages that wait; it counts where it is not OK. -/
theorem sends_loaded {h : MsgHdr} {u : State} {key : Key} (loaded : tabFind u.keys.mks (hdrKey h) = some key) (op : Nat)
    (rc : Byte) (seq : BitVec 32) (body : List Byte) : sends u (msgAnswer h op rc seq body u) h op rc seq body := by
  unfold sends msgAnswer
  rw [if_neg (by rw [loaded]; simp)]
  dsimp only
  split
  · simp only [msgSend, loaded]
    exact ⟨_, rfl, rfl, rfl, rfl, rfl, rfl⟩
  · rw [count1_frame]
    simp only [msgSend, loaded]
    exact ⟨_, rfl, rfl, rfl, rfl, rfl, rfl⟩

theorem msgAnswer_ok_frame (h : MsgHdr) (op : Nat) (seq : BitVec 32) (body : List Byte) (s : State) :
    msgAnswer h op rcOk seq body s = { s with mmTx := (msgAnswer h op rcOk seq body s).mmTx } := by
  unfold msgAnswer msgSend
  split
  · rfl
  · dsimp only
    split <;> rfl

/-- An answer sent from a state that has the messages of another. -/
theorem sends_congr {s u t : State} {h : MsgHdr} {op : Nat} {rc : Byte} {seq : BitVec 32} {body : List Byte}
    (same : u.mmTx = s.mmTx) (sent : sends u t h op rc seq body) : sends s t h op rc seq body := by
  unfold sends at sent ⊢
  rw [← same]
  exact sent

theorem msgTaken_loaded {s : State} {op : Nat} {h : MsgHdr} {body : List Byte} (hs : InSession s op h body) :
    ∃ key, tabFind (msgTaken h s).keys.mks (hdrKey h) = some key := by
  obtain ⟨key, loaded⟩ := hs.key
  exact ⟨key, by rw [msgTaken_keys]; exact loaded⟩

-- Messages that do not act

theorem exec_messageOf {op : Nat} (low : 1 ≤ op) (high : op ≤ 7) (h : MsgHdr) (body : List Byte) :
    ∃ go, ∀ s, exec (messageOf op h body) s = .next (msgReceive op h body go s) := by
  obtain rfl | rfl | rfl | rfl | rfl | rfl | rfl :
      op = 1 ∨ op = 2 ∨ op = 3 ∨ op = 4 ∨ op = 5 ∨ op = 6 ∨ op = 7 := by omega
  · exact ⟨_, fun _ => rfl⟩
  · exact ⟨_, fun _ => rfl⟩
  · exact ⟨_, fun _ => rfl⟩
  · exact ⟨_, fun _ => rfl⟩
  · exact ⟨_, fun _ => rfl⟩
  · exact ⟨_, fun _ => rfl⟩
  · exact ⟨_, fun _ => rfl⟩

/-- A dropped message changes the event unit and registers, and counts in MSG_DROPPED (Table 15.8). -/
theorem msgDrop_counted (mki reason : Nat) (s : State) :
    regVal (msgDrop mki reason s) 0x2201 0x20 0 = min (regVal s 0x2201 0x20 0 + 1) (2 ^ 32 - 1) ∧
    msgDrop mki reason s = { s with regs := (msgDrop mki reason s).regs, ev := (msgDrop mki reason s).ev } := by
  have large : typeMax 0x2201 0x20 = 2 ^ 32 - 1 := by decide +kernel
  have quiet : RegQuiet 0x2201 0x20 0 := ⟨by decide, by decide, by decide, by decide, by decide⟩
  unfold msgDrop
  dsimp only
  refine ⟨?_, ?_⟩
  · rw [regVal_count1 (by decide) (by rw [large]; decide), large, regVal_sumSet quiet]
  · rw [count1_frame, sumSet_frame]

section
variable {own : Nat} {h : MsgHdr} {body : List Byte} {go : State → State} {s : State}

theorem msgReceive_unserved (closed : s.clk.running = false ∨ s.pwr.stage ≠ .served) : msgReceive own h body go s = s :=
  if_pos closed

variable (running : s.clk.running = true) (served : s.pwr.stage = .served)
include running served

theorem msgReceive_fault {reason : Nat} (fault : msgFault ((h.odd.map (fun o => o.toNat)).getD own) h body s = some reason) :
    msgReceive own h body go s = msgDrop h.mki.toNat reason s := by
  unfold msgReceive
  rw [if_neg (by rw [running, served]; simp)]
  dsimp only
  rw [fault]

variable (sound : msgFault ((h.odd.map (fun o => o.toNat)).getD own) h body s = none)
include sound

theorem msgReceive_outOfSession (other : h.session.toNat ≠ sessionVal s (hdrKey h)) : msgReceive own h body go s =
    msgAnswer h ((h.odd.map (fun o => o.toNat)).getD own) rcSession h.seq [] s := by
  unfold msgReceive
  rw [if_neg (by rw [running, served]; simp)]
  dsimp only
  rw [sound]
  exact if_pos other

theorem msgReceive_outOfSequence (here : h.session.toNat = sessionVal s (hdrKey h)) (old : h.seq ≤ lastSeq s (hdrKey h)) :
    msgReceive own h body go s =
      msgAnswer h ((h.odd.map (fun o => o.toNat)).getD own) rcSequence (lastSeq s (hdrKey h)) [] s := by
  unfold msgReceive
  rw [if_neg (by rw [running, served]; simp)]
  dsimp only
  rw [sound]
  dsimp only
  rw [if_neg (Decidable.not_not.2 here), if_pos old]

theorem msgReceive_misformed (here : h.session.toNat = sessionVal s (hdrKey h)) (new : lastSeq s (hdrKey h) < h.seq)
    (wrong : h.odd ≠ none ∨ headOk own h = false) : msgReceive own h body go s =
      msgAnswer h ((h.odd.map (fun o => o.toNat)).getD own) rcFormat h.seq [] (msgTaken h s) := by
  have form : ¬ (h.odd = none ∧ headOk ((h.odd.map (fun o => o.toNat)).getD own) h = true) := fun ⟨mine, head⟩ => by
    rw [mine] at head wrong
    cases wrong with
    | inl odd => exact odd rfl
    | inr bad => exact absurd (bad.symm.trans head) (by decide)
  unfold msgReceive
  rw [if_neg (by rw [running, served]; simp)]
  dsimp only
  rw [sound]
  dsimp only
  rw [if_neg (Decidable.not_not.2 here), if_neg (BitVec.not_le.2 new), if_neg form]
  rfl

end

theorem msgFault_type {w : Nat} {h : MsgHdr} {body : List Byte} {s : State} (other : h.mtype ≠ 0x7F#8) :
    msgFault w h body s = some 2 := if_pos (.inl other)

/-- An authentic message names a loaded key, whatever its operation. -/
theorem msgFault_loaded {w : Nat} {h : MsgHdr} {body : List Byte} {s : State} (sound : msgFault w h body s = none) :
    ∃ key, tabFind s.keys.mks (hdrKey h) = some key := by
  unfold msgFault at sound
  split at sound
  · cases sound
  · split at sound
    · cases sound
    · next key found => exact ⟨key, found⟩

theorem lastSeq_msgTaken (h : MsgHdr) (s : State) : lastSeq (msgTaken h s) (hdrKey h) = h.seq := by
  unfold msgTaken lastSeq
  rw [ownerSeen_frame]
  unfold seqTake
  dsimp only
  rw [tabGet_tabPut, if_pos rfl]

-- READ_ROW

theorem rowRead_frame (staged : Bool) (idx row : Nat) (l : List (Nat × Obj)) (s : State) :
    (rowRead staged idx row l s).2 = { s with free := (rowRead staged idx row l s).2.free } := by
  induction l generalizing s with
  | nil => rfl
  | cons e l ih =>
    obtain ⟨sub, o⟩ := e
    obtain ⟨⟨v, u⟩, read⟩ : ∃ r, objVal staged o idx sub row s = r := ⟨_, rfl⟩
    have whole : (rowRead staged idx row ((sub, o) :: l) s).2 = (rowRead staged idx row l u).2 := by
      conv => lhs; unfold rowRead
      rw [read]
    rw [whole, ih, objVal_frame read]

section
variable {h : MsgHdr} {idx sub n row : Nat} {s : State} (fits : headFits idx sub n row)
  (hs : InSession s 3 h (bodyHead idx sub n row)) (some : 1 ≤ n) (few : n ≤ 253)
include fits hs some few

theorem doReadRow_taken : doReadRow h (bodyHead idx sub n row) s =
    match rowReach (.f (hdrKey h)) idx row sub n with
    | .error rc => msgResult h 3 rc (msgTaken h s)
    | .ok l =>
      if rowForm idx row = false then msgResult h 3 rcFormat (msgTaken h s)
      else msgAnswer h 3 rcOk h.seq (lenBody (rowRead (h.flags.getLsbD 0) idx row l (msgTaken h s)).1)
        (rowRead (h.flags.getLsbD 0) idx row l (msgTaken h s)).2 := by
  have counted : countForm n = true := decide_eq_true ⟨some, few⟩
  unfold doReadRow
  rw [msgReceive_inSession hs]
  unfold readRowBody
  simp only [bodyAddr_bodyHead fits, length_bodyHead, byteAt_bodyHead_reserved, counted, ne_eq, not_true_eq_false,
    Bool.true_eq_false, or_self, if_false] <;> rfl

end

-- WRITE and WRITE_ROW

theorem doWrite_reached {h : MsgHdr} {idx sub row : Nat} {vs : List Byte} {o : Obj} {rc : Byte} {s u : State}
    (fits : headFits idx sub 0 row) (hs : InSession s 2 h (writeBodyOf idx sub row vs))
    (reached : objReach (.f (hdrKey h)) idx sub row = .ok o) (form : rowForm idx row = true) (width : vs.length = o.ty.width)
    (written : objWrite (.f (hdrKey h)) o idx sub row (natOfLe vs) (msgTaken h s) = (rc, u)) :
    doWrite h (writeBodyOf idx sub row vs) s = msgAnswer h 2 rc h.seq [] u := by
  have bodyLength := length_writeBodyOf idx sub row vs
  have lenFits : vs.length < 2 ^ 16 := by
    have := hs.length_le
    omega
  have notShort : ¬ 10 + o.ty.width < 10 := by omega
  have value : (writeBodyOf idx sub row vs).drop 10 = vs := rfl
  unfold doWrite
  rw [msgReceive_inSession hs]
  unfold writeBody
  simp only [bodyAddr_writeBodyOf fits, bodyLength, byteAt_writeBodyOf_reserved, len_writeBodyOf idx sub row lenFits,
    notShort, ne_eq, not_true_eq_false, or_self, if_false, reached, form, Bool.true_eq_false, width, value, written, msgResult]

/-- The body of a WRITE_ROW: the head, LEN and the values (Table 15.4). -/
def writeRowBodyOf (idx sub n row : Nat) (vs : List Byte) : List Byte := bodyHead idx sub n row ++ leBytes 2 vs.length ++ vs

theorem doWriteRow_reached {h : MsgHdr} {idx sub n row : Nat} {vs : List Byte} {l : List (Nat × Obj)} {rc : Byte}
    {s u : State} (fits : headFits idx sub n row) (some : 1 ≤ n) (few : n ≤ 253)
    (hs : InSession s 4 h (writeRowBodyOf idx sub n row vs)) (reached : rowReach (.f (hdrKey h)) idx row sub n = .ok l)
    (form : rowForm idx row = true) (width : vs.length = rowWidth l)
    (written : rowWriteWhole (.f (hdrKey h)) idx row l vs (msgTaken h s) = (rc, u)) :
    doWriteRow h (writeRowBodyOf idx sub n row vs) s = msgAnswer h 4 rc h.seq [] u := by
  have counted : countForm n = true := decide_eq_true ⟨some, few⟩
  have bodyLength : (writeRowBodyOf idx sub n row vs).length = 10 + vs.length := by
    simp only [writeRowBodyOf, List.length_append, length_bodyHead, length_leBytes]
  have lenFits : vs.length < 2 ^ 16 := by
    have := hs.length_le
    omega
  have notShort : ¬ 10 + rowWidth l < 10 := by omega
  have address : bodyAddr (writeRowBodyOf idx sub n row vs) = (idx, sub, n, row) := bodyAddr_bodyHead fits
  have len : natOfLe (((writeRowBodyOf idx sub n row vs).drop 8).take 2) = vs.length := by
    have lenBytes : ((writeRowBodyOf idx sub n row vs).drop 8).take 2 = leBytes 2 vs.length := rfl
    rw [lenBytes, natOfLe_leBytes lenFits]
  have reserved : byteAt (writeRowBodyOf idx sub n row vs) 7 = 0#8 := rfl
  have value : (writeRowBodyOf idx sub n row vs).drop 10 = vs := rfl
  unfold doWriteRow
  rw [msgReceive_inSession hs]
  unfold writeRowBody
  simp only [address, bodyLength, reserved, len, counted, notShort, ne_eq, not_true_eq_false, or_self, if_false, reached,
    form, Bool.true_eq_false, width, value, written, msgResult]

/-- A dictionary write changes no management key. -/
theorem objWrite_mks {w : Who} {o : Obj} {idx sub row v : Nat} {s u : State} {rc : Byte}
    (written : objWrite w o idx sub row v s = (rc, u)) : u.keys.mks = s.keys.mks := by
  have owned : u.owned = s.owned := by
    have := objWrite_owned w o idx sub row v s
    rw [written] at this
    exact this
  exact congrArg (fun p => p.2.2.2.2.2) owned

theorem rowWrite_mks (w : Who) (idx row : Nat) (l : List (Nat × Obj)) (bs : List Byte) (s : State) :
    (rowWrite w idx row l bs s).2.keys.mks = s.keys.mks := by
  induction l generalizing bs s with
  | nil => rfl
  | cons e l ih =>
    obtain ⟨sub, o⟩ := e
    obtain ⟨⟨rc, u⟩, written⟩ : ∃ r, objWrite w o idx sub row (natOfLe (bs.take o.ty.width)) s = r := ⟨_, rfl⟩
    have keys := objWrite_mks written
    unfold rowWrite
    rw [written]
    dsimp only
    split
    · exact (ih ..).trans keys
    · exact keys

/-- A WRITE_ROW is whole: refused, it leaves the state as it was. -/
theorem rowWriteWhole_cases {w : Who} {idx row : Nat} {l : List (Nat × Obj)} {bs : List Byte} {s u : State} {rc : Byte}
    (written : rowWriteWhole w idx row l bs s = (rc, u)) : u.keys.mks = s.keys.mks ∧ (rc ≠ rcOk → u = s) := by
  have keys := rowWrite_mks w idx row l bs s
  obtain ⟨⟨r, t⟩, whole⟩ : ∃ x, rowWrite w idx row l bs s = x := ⟨_, rfl⟩
  unfold rowWriteWhole at written
  rw [whole] at written keys
  dsimp only at written keys
  obtain ⟨code, state⟩ := Prod.mk.inj written
  rw [← code, ← state]
  split
  · next ok => exact ⟨keys, fun other => absurd ok other⟩
  · exact ⟨rfl, fun _ => rfl⟩

-- RECORDER_CLEAR

theorem clearBody_eq (value : Bool) : clearBody value = writeBodyOf 0x2500 3 0 [if value then 1#8 else 0#8] := by
  cases value <;> decide

theorem recorderClear_waits {mki : Nat} {s : State} (unconfirmed : s.ev.clearing ≠ none) : recorderClear mki s = s := by
  unfold recorderClear
  split
  · rfl
  · next none => exact absurd none unconfirmed

/-- A control record enters the backlog or waits for a place (R357). -/
theorem ctlSend_sent (code : Nat) (p1 p2 p3 : BitVec 32) (s : State) : (ctlSend code p1 p2 p3 s).ev.clearing = s.ev.clearing ∧
    ∃ r ∈ (ctlSend code p1 p2 p3 s).ev.backlog ++ (ctlSend code p1 p2 p3 s).ev.ctlWait, r.code = code ∧ r.p1 = p1 := by
  unfold ctlSend
  dsimp only
  split
  · exact ⟨rfl, _, List.mem_append_left _ (List.mem_append_right _ List.mem_cons_self), rfl, rfl⟩
  · exact ⟨rfl, _, List.mem_append_right _ (List.mem_append_right _ List.mem_cons_self), rfl, rfl⟩

theorem recorderClear_sent {mki : Nat} {s : State} (confirmed : s.ev.clearing = none) : recorderClear mki s =
    ctlSend 0xFF02 (BitVec.ofNat 32 mki) (BitVec.ofNat 32 (cfgGen s)) (BitVec.ofNat 32 (regVal s 0x2500 0x09 0))
      { s with ev := { s.ev with clearing := some (BitVec.ofNat 32 mki, BitVec.ofNat 32 (cfgGen s),
        BitVec.ofNat 32 (regVal s 0x2500 0x09 0)) } } := by
  unfold recorderClear
  rw [confirmed]

/-- RECORDER_CLEAR is a command of every fleet manager. -/
theorem objReach_recorderClear (k : Nat) : ∃ o, objReach (.f k) 0x2500 3 0 = .ok o ∧ o.acc = .cmd ∧ o.ty.width = 1 ∧
    ∀ v, v ≤ 1 → o.admits v = true := by
  refine ⟨_, rfl, rfl, rfl, fun v bit => ?_⟩
  obtain rfl | rfl : v = 0 ∨ v = 1 := by omega
  · rfl
  · rfl

theorem objWrite_recorderClear {k : Nat} {o : Obj} (command : o.acc = .cmd) {v : Nat} (fits : o.admits v = true) (s : State) :
    objWrite (.f k) o 0x2500 3 0 v s = (rcOk, if v = 1 then recorderClear k s else s) := by
  have free : debugRefused s 0x2500 3 v = false := by
    unfold debugRefused
    simp
  unfold objWrite
  rw [if_neg (by decide), if_neg (by rw [command]; decide), if_neg (by rw [fits, free]; decide), command]
  rfl

theorem doWrite_clear {h : MsgHdr} {value : Bool} {s : State} (hs : InSession s 2 h (clearBody value)) :
    doWrite h (clearBody value) s =
      msgAnswer h 2 rcOk h.seq [] (if value then recorderClear (hdrKey h) (msgTaken h s) else msgTaken h s) := by
  obtain ⟨o, reached, command, width, admits⟩ := objReach_recorderClear (hdrKey h)
  rw [clearBody_eq] at hs ⊢
  refine doWrite_reached (by unfold headFits; decide) hs reached rfl width.symm ?_
  rw [objWrite_recorderClear command (admits _ (by cases value <;> decide))]
  cases value <;> rfl

end Sys2Proof.Machine

namespace Sys2Proof
open Sys2Proof.Machine

/-- Settles O49: the checks of a message, in their order. -/
theorem messagesAreCheckedBeforeTheyAct : Obligations.MessagesAreCheckedBeforeTheyAct := by
  unfold Obligations.MessagesAreCheckedBeforeTheyAct
  rintro op w h body s low high rfl
  obtain ⟨go, runs⟩ := exec_messageOf low high h body
  refine ⟨fun closed => ?_, fun running served => ⟨fun wrong => ?_, fun sound => ?_⟩⟩
  · rw [runs, msgReceive_unserved closed]
  · have fault : msgFault ((h.odd.map (fun o => o.toNat)).getD op) h body s ≠ none := by
      refine wrong.elim id fun other => ?_
      rw [msgFault_type other]
      decide
    obtain ⟨reason, fault⟩ := Option.ne_none_iff_exists'.1 fault
    obtain ⟨counted, frame⟩ := msgDrop_counted h.mki.toNat reason s
    exact ⟨_, (runs s).trans (congrArg Host.Outcome.next (msgReceive_fault running served fault)), counted, frame⟩
  · obtain ⟨key, loaded⟩ := msgFault_loaded sound
    refine ⟨fun other => ?_, fun here old => ?_, fun here new wrong => ?_⟩
    · exact ⟨_, (runs s).trans (congrArg Host.Outcome.next (msgReceive_outOfSession running served sound other)),
        sends_loaded loaded .., msgAnswer_frame ..⟩
    · exact ⟨_, (runs s).trans (congrArg Host.Outcome.next (msgReceive_outOfSequence running served sound here old)),
        sends_loaded loaded .., msgAnswer_frame ..⟩
    · have taken : tabFind (msgTaken h s).keys.mks (hdrKey h) = some key := by rw [msgTaken_keys]; exact loaded
      refine ⟨_, (runs s).trans (congrArg Host.Outcome.next (msgReceive_misformed running served sound here new wrong)),
        sends_congr (msgTaken_mmTx h s) (sends_loaded taken ..), ?_, msgAnswer_frame ..⟩
      rw [msgAnswer_frame]
      exact lastSeq_msgTaken h s

/-- Settles O51: WRITE, WRITE_ROW and RECORDER_CLEAR. -/
theorem messagesWriteObjects : Obligations.MessagesWriteObjects := by
  unfold Obligations.MessagesWriteObjects
  refine ⟨?_, ?_, fun h s => ⟨fun hs confirmed => ?_, fun hs unconfirmed => ?_, fun hs => ?_⟩⟩
  · rintro h idx sub row vs body o rc u s fits rfl hs reached form width written
    obtain ⟨key, loaded⟩ := msgTaken_loaded hs
    rw [← objWrite_mks written] at loaded
    refine ⟨_, congrArg Host.Outcome.next (doWrite_reached fits hs reached form width written), sends_loaded loaded ..,
      msgAnswer_frame .., ?_⟩
    rintro rfl
    rw [msgAnswer_ok_frame]
  · rintro h idx sub n row vs body l rc u s fits some few rfl hs reached form width written
    obtain ⟨key, loaded⟩ := msgTaken_loaded hs
    obtain ⟨keys, whole⟩ := rowWriteWhole_cases written
    rw [← keys] at loaded
    refine ⟨_, congrArg Host.Outcome.next (doWriteRow_reached fits some few hs reached form width written),
      sends_loaded loaded .., msgAnswer_frame .., ?_, whole⟩
    rintro rfl
    rw [msgAnswer_ok_frame]
  · obtain ⟨key, loaded⟩ := msgTaken_loaded hs
    have write := doWrite_clear hs
    have confirmedHere : (msgTaken h s).ev.clearing = none := by rw [msgTaken_frame]; exact confirmed
    have counts : cfgGen (msgTaken h s) = cfgGen s ∧ regVal (msgTaken h s) 0x2500 9 0 = regVal s 0x2500 9 0 := by
      rw [msgTaken_frame]
      exact ⟨rfl, rfl⟩
    rw [if_pos rfl, recorderClear_sent confirmedHere, counts.1, counts.2] at write
    obtain ⟨clearing, r, sent, code, p1⟩ := ctlSend_sent 0xFF02 (BitVec.ofNat 32 (hdrKey h)) (BitVec.ofNat 32 (cfgGen s))
      (BitVec.ofNat 32 (regVal s 0x2500 9 0)) { msgTaken h s with ev := { (msgTaken h s).ev with
        clearing := some (BitVec.ofNat 32 (hdrKey h), BitVec.ofNat 32 (cfgGen s), BitVec.ofNat 32 (regVal s 0x2500 9 0)) } }
    have frame := ctlSend_frame 0xFF02 (BitVec.ofNat 32 (hdrKey h)) (BitVec.ofNat 32 (cfgGen s))
      (BitVec.ofNat 32 (regVal s 0x2500 9 0)) { msgTaken h s with ev := { (msgTaken h s).ev with
        clearing := some (BitVec.ofNat 32 (hdrKey h), BitVec.ofNat 32 (cfgGen s), BitVec.ofNat 32 (regVal s 0x2500 9 0)) } }
    refine ⟨_, r, congrArg Host.Outcome.next write, ?_, ?_, ?_, code, p1, ?_⟩
    · refine sends_congr ?_ (sends_loaded (key := key) ?_ ..)
      · rw [frame]
        exact msgTaken_mmTx h s
      · rw [frame]
        exact loaded
    · rw [msgAnswer_ok_frame]
      exact clearing
    · rw [msgAnswer_ok_frame]
      exact sent
    · rw [msgAnswer_ok_frame, frame]
  · obtain ⟨key, loaded⟩ := msgTaken_loaded hs
    have write := doWrite_clear hs
    have waits : (msgTaken h s).ev.clearing ≠ none := by rw [msgTaken_frame]; exact unconfirmed
    rw [if_pos rfl, recorderClear_waits waits] at write
    exact ⟨_, congrArg Host.Outcome.next write, sends_congr (msgTaken_mmTx h s) (sends_loaded loaded ..), msgAnswer_ok_frame ..⟩
  · obtain ⟨key, loaded⟩ := msgTaken_loaded hs
    have write := doWrite_clear hs
    rw [if_neg (by decide)] at write
    exact ⟨_, congrArg Host.Outcome.next write, sends_congr (msgTaken_mmTx h s) (sends_loaded loaded ..), msgAnswer_ok_frame ..⟩

end Sys2Proof

/-! Management messages: READ, READ_ROW and SUBSCRIBE. -/

namespace Sys2Proof.Machine

/-- The body of a SUBSCRIBE (Table 15.4). -/
def subscribeBodyOf (sev lo hi : Nat) : List Byte := leBytes 1 sev ++ [0#8] ++ leBytes 2 lo ++ leBytes 2 hi

/-- The subscriptions once a message is accepted (R318, R359). -/
def subsSet (h : MsgHdr) (sev lo hi : Nat) (subs : Tab Subscr) : Tab Subscr :=
  if sev = 0xFF then tabDel subs (hdrKey h)
  else tabSet subs (hdrKey h) { minSev := sev, first := lo, last := hi, eid := h.eid }

theorem tabFind_subsSet (h : MsgHdr) (sev lo hi : Nat) (subs : Tab Subscr) (k : Nat) :
    tabFind (subsSet h sev lo hi subs) k = if k = hdrKey h then
      (if sev = 0xFF then none else some { minSev := sev, first := lo, last := hi, eid := h.eid }) else tabFind subs k := by
  unfold subsSet
  by_cases cancel : sev = 0xFF
  · rw [if_pos cancel, tabFind_tabDel, if_pos cancel]
  · rw [if_neg cancel, tabFind_tabSet, if_neg cancel]

/-- The state in which a subscription is set, replaced or cancelled. -/
def subscribed (h : MsgHdr) (sev lo hi : Nat) (s : State) : State :=
  { s with ev := { s.ev with subs := subsSet h sev lo hi s.ev.subs } }

theorem doSubscribe_taken {h : MsgHdr} {sev lo hi : Nat} {s : State} (sevFits : sev < 2 ^ 8) (loFits : lo < 2 ^ 16)
    (hiFits : hi < 2 ^ 16) (hs : InSession s 7 h (subscribeBodyOf sev lo hi)) : doSubscribe h (subscribeBodyOf sev lo hi) s =
      if hi < lo ∨ 1123 < hi ∨ (3 < sev ∧ sev ≠ 0xFF) then msgAnswer h 7 rcRange h.seq [] (msgTaken h s)
      else msgAnswer h 7 rcOk h.seq [] (subscribed h sev lo hi (msgTaken h s)) := by
  have sevByte : (byteAt (subscribeBodyOf sev lo hi) 0).toNat = sev := by
    have byte : byteAt (subscribeBodyOf sev lo hi) 0 = BitVec.ofNat 8 sev := rfl
    rw [byte, BitVec.toNat_ofNat, Nat.mod_eq_of_lt sevFits]
  have loBytes : natOfLe (((subscribeBodyOf sev lo hi).drop 2).take 2) = lo := by
    have bytes : ((subscribeBodyOf sev lo hi).drop 2).take 2 = leBytes 2 lo := rfl
    rw [bytes, natOfLe_leBytes loFits]
  have hiBytes : natOfLe (((subscribeBodyOf sev lo hi).drop 4).take 2) = hi := by
    have bytes : ((subscribeBodyOf sev lo hi).drop 4).take 2 = leBytes 2 hi := rfl
    rw [bytes, natOfLe_leBytes hiFits]
  have reserved : byteAt (subscribeBodyOf sev lo hi) 1 = 0#8 := rfl
  have size : (subscribeBodyOf sev lo hi).length = 6 := rfl
  unfold doSubscribe
  rw [msgReceive_inSession hs]
  unfold subscribeBody
  dsimp only
  rw [sevByte, loBytes, hiBytes, reserved, size, if_neg (by decide)]
  rfl

end Sys2Proof.Machine

namespace Sys2Proof
open Sys2Proof.Machine

/-- Settles O50: READ and READ_ROW answer what they reach; SUBSCRIBE changes the subscription of its key. -/
theorem messagesReadAndSubscribe : Obligations.MessagesReadAndSubscribe := by
  unfold Obligations.MessagesReadAndSubscribe
  refine ⟨fun h idx sub row s fits hs => ⟨fun o reached form => ?_, fun rc refused => ?_⟩,
    fun h idx sub n row s fits some few hs => ⟨fun l reached form => ?_, fun rc refused => ?_⟩, ?_⟩
  · obtain ⟨key, loaded⟩ := msgTaken_loaded hs
    obtain ⟨⟨v, u⟩, read⟩ : ∃ r, objVal (h.flags.getLsbD 0) o idx sub row (msgTaken h s) = r := ⟨_, rfl⟩
    have frame := objVal_frame read
    have loadedHere : tabFind u.keys.mks (hdrKey h) = .some key := by rw [frame]; exact loaded
    refine ⟨_, congrArg Host.Outcome.next (doRead_inSession fits hs reached form read), ?_, ?_⟩
    · rw [read]
      exact sends_congr (by rw [frame]; exact msgTaken_mmTx h s) (sends_loaded loadedHere ..)
    · rw [msgAnswer_ok_frame, frame]
  · obtain ⟨key, loaded⟩ := msgTaken_loaded hs
    exact ⟨_, congrArg Host.Outcome.next (doRead_refused fits hs refused),
      sends_congr (msgTaken_mmTx h s) (sends_loaded loaded ..), msgAnswer_frame ..⟩
  · obtain ⟨key, loaded⟩ := msgTaken_loaded hs
    have answer := doReadRow_taken fits hs some few
    rw [reached] at answer
    dsimp only at answer
    rw [if_neg (by rw [form]; decide)] at answer
    have frame := rowRead_frame (h.flags.getLsbD 0) idx row l (msgTaken h s)
    generalize rowRead (h.flags.getLsbD 0) idx row l (msgTaken h s) = r at answer frame ⊢
    have loadedHere : tabFind r.2.keys.mks (hdrKey h) = .some key := by rw [frame]; exact loaded
    refine ⟨_, congrArg Host.Outcome.next answer, ?_, ?_⟩
    · exact sends_congr (by rw [frame]; exact msgTaken_mmTx h s) (sends_loaded loadedHere ..)
    · rw [msgAnswer_ok_frame, frame]
  · obtain ⟨key, loaded⟩ := msgTaken_loaded hs
    have answer := doReadRow_taken fits hs some few
    rw [refused] at answer
    exact ⟨_, congrArg Host.Outcome.next answer, sends_congr (msgTaken_mmTx h s) (sends_loaded loaded ..), msgAnswer_frame ..⟩
  · rintro h sev lo hi body s sevFits loFits hiFits rfl hs
    obtain ⟨key, loaded⟩ := msgTaken_loaded hs
    have taken := doSubscribe_taken sevFits loFits hiFits hs
    refine ⟨fun severity ordered low => ?_, fun wrong => ?_⟩
    · rw [if_neg (by omega)] at taken
      have subs : (msgTaken h s).ev.subs = s.ev.subs := by rw [msgTaken_frame]
      have loadedHere : tabFind (subscribed h sev lo hi (msgTaken h s)).keys.mks (hdrKey h) = .some key := loaded
      have messages : (subscribed h sev lo hi (msgTaken h s)).mmTx = s.mmTx := msgTaken_mmTx h s
      refine ⟨_, congrArg Host.Outcome.next taken, sends_congr messages (sends_loaded loadedHere ..), ?_, fun k other => ?_, ?_⟩
      · rw [msgAnswer_ok_frame]
        exact (tabFind_subsSet ..).trans (if_pos rfl)
      · rw [msgAnswer_ok_frame, ← subs]
        exact (tabFind_subsSet ..).trans (if_neg other)
      · rw [msgAnswer_ok_frame]
        rfl
    · rw [if_pos (by omega)] at taken
      exact ⟨_, congrArg Host.Outcome.next taken, sends_congr (msgTaken_mmTx h s) (sends_loaded loaded ..), msgAnswer_frame ..⟩

end Sys2Proof

/-! SUPPORT. The commit unit's COMMIT and ABORT, and the commands of the local window. -/

namespace Sys2Proof.Machine

-- The staging set and its owner

section
variable {w : Who} {s : State}

theorem stageEnter_busy (busy : s.commit.phase = .preparing ∨ s.commit.phase = .pending) : stageEnter w s = .error rcBusy :=
  if_pos busy

variable (free : s.commit.phase = .idle ∨ s.commit.phase = .staging)
include free

theorem phase_not_busy : ¬ (s.commit.phase = .preparing ∨ s.commit.phase = .pending) := by
  cases free with
  | inl idle => rw [idle]; simp
  | inr staging => rw [staging]; simp

theorem stageEnter_own (own : s.commit.owner = 0 ∨ s.commit.owner = w.owner ∨ s.staged = []) : stageEnter w s = .ok s := by
  unfold stageEnter
  rw [if_neg (phase_not_busy free), if_pos own]

theorem stageEnter_other (staged : s.staged ≠ []) (held : s.commit.owner ≠ 0) (other : s.commit.owner ≠ w.owner) :
    stageEnter w s = if s.commit.breakable then .ok (stageBreak w s) else .error rcStageOwned := by
  unfold stageEnter
  rw [if_neg (phase_not_busy free), if_neg (by simp [staged, held, other])]

end

theorem stageBreak_facts (w : Who) (s : State) : (stageBreak w s).staged = [] ∧ (stageBreak w s).commit.owner = w.owner ∧
    (stageBreak w s).commit.breakable = false := ⟨by rw [stageBreak_frame], rfl, rfl⟩

-- The end of a commit that fails

theorem commitReply_frame (rc : Byte) (body : List Byte) (s : State) : commitReply rc body s = { s with
    mmTx := (commitReply rc body s).mmTx, regs := (commitReply rc body s).regs
    commit := { s.commit with reply := (commitReply rc body s).commit.reply } } := by
  unfold commitReply
  split
  · rfl
  · rw [msgAnswer_frame]

/-- What an abort leaves of the commit unit (Table 15.6). -/
theorem commitAbort_frame (cause : Nat) (obj : Option Nat) (s : State) : commitAbort cause obj s = { s with
    mmTx := (commitAbort cause obj s).mmTx, regs := (commitAbort cause obj s).regs, ev := (commitAbort cause obj s).ev
    commit := { s.commit with
      phase := .staging, decided := .none, cause := cause, lastAbortObj := abortObj obj
      reply := (commitAbort cause obj s).commit.reply } } := by
  unfold commitAbort
  dsimp only
  rw [commitReply_frame, raise_frame]

-- COMMIT

/-- The target that a COMMIT names: all ones for the earliest frame (R323). -/
def commitTarget (target : Nat) (s : State) : Nat := if target = 2 ^ 64 - 1 then earliestFrame s else target

/-- The state in which a COMMIT is checked. -/
def commitOpened (s : State) : State := { s with commit := { s.commit with deferCount := 0 } }

/-- A commit that begins to prepare (R323). -/
def commitBegun (target : Nat) (s : State) : State := { s with commit := { s.commit with
  deferCount := 0, phase := .preparing, named := target, target := target, decided := .none } }

section
variable {w : Who} {target : Nat} {s : State}

theorem commitStart_refused {rc : Byte} (refused : stageEnter w s = .error rc) : commitStart w target s = (rc, s) := by
  unfold commitStart
  rw [refused]

theorem commitStart_empty {t : State} (entered : stageEnter w s = .ok t) (none : t.staged = []) :
    commitStart w target s = (rcNothingStaged, t) := by
  unfold commitStart
  rw [entered]
  dsimp only
  rw [none]

theorem commitStart_early (entered : stageEnter w s = .ok s) (some : s.staged ≠ []) (early : target < earliestFrame s)
    (named : target ≠ 2 ^ 64 - 1) : commitStart w target s = (rcCommitAborted, commitAbort 3 none (commitOpened s)) := by
  unfold commitStart
  rw [entered]
  dsimp only
  split
  · next none => exact absurd none some
  · rw [if_neg named, if_pos early]
    rfl

theorem commitTarget_late (late : earliestFrame s ≤ target ∨ target = 2 ^ 64 - 1) :
    ¬ (if target = 2 ^ 64 - 1 then earliestFrame s else target) < earliestFrame s := by
  split
  · exact Nat.lt_irrefl _
  · next named => exact Nat.not_lt.2 (late.resolve_right named)

theorem commitStart_faulty (entered : stageEnter w s = .ok s) (some : s.staged ≠ [])
    (late : earliestFrame s ≤ target ∨ target = 2 ^ 64 - 1) {k : Nat} (fault : firstFault (commitFaults s) = .some k) :
    commitStart w target s = (rcCommitAborted, commitAbort 1 (.some k) (commitOpened s)) := by
  have found : firstFault (commitFaults { s with commit := { s.commit with deferCount := 0 } }) = .some k := fault
  unfold commitStart
  rw [entered]
  dsimp only
  split
  · next none => exact absurd none some
  · rw [if_neg (commitTarget_late late), found]
    rfl

theorem commitStart_sound (entered : stageEnter w s = .ok s) (some : s.staged ≠ [])
    (late : earliestFrame s ≤ target ∨ target = 2 ^ 64 - 1) (sound : firstFault (commitFaults s) = none) :
    commitStart w target s = (rcOk, commitBegun (commitTarget target s) s) := by
  have found : firstFault (commitFaults { s with commit := { s.commit with deferCount := 0 } }) = none := sound
  unfold commitStart
  rw [entered]
  dsimp only
  split
  · next none => exact absurd none some
  · rw [if_neg (commitTarget_late late), found]
    rfl

end

-- ABORT

section
variable {w : Who} {force : Bool} {s : State}

theorem commitCancel_decided (decided : s.commit.decided = .apply) : commitCancel w force s = (rcOk, s) := if_pos decided

variable (open' : s.commit.decided ≠ .apply)
include open'

theorem commitCancel_notOwner (held : s.commit.owner ≠ 0) (other : s.commit.owner ≠ w.owner) (plain : force = false) :
    commitCancel w force s = (rcStageOwned, s) := by
  unfold commitCancel
  rw [if_neg open', if_pos ⟨held, other, plain⟩]

variable (own : s.commit.owner = 0 ∨ s.commit.owner = w.owner ∨ force = true)
include own

omit open' in
theorem cancel_allowed : ¬ (s.commit.owner ≠ 0 ∧ s.commit.owner ≠ w.owner ∧ force = false) := by
  rintro ⟨held, other, plain⟩
  rcases own with free | mine | forced
  · exact held free
  · exact other mine
  · rw [plain] at forced
    cases forced

theorem commitCancel_staging (free : s.commit.phase = .idle ∨ s.commit.phase = .staging) :
    commitCancel w force s = (rcOk, stageDiscard s) := by
  unfold commitCancel
  rw [if_neg open', if_neg (cancel_allowed own)]
  cases free with
  | inl idle => rw [idle]
  | inr staging => rw [staging]

theorem commitCancel_underway (busy : s.commit.phase = .preparing ∨ s.commit.phase = .pending) :
    commitCancel w force s = (rcOk, if force then stageDiscard (commitAbort 5 none s) else commitAbort 5 none s) := by
  unfold commitCancel
  rw [if_neg open', if_neg (cancel_allowed own)]
  cases busy with
  | inl preparing => rw [preparing]
  | inr pending => rw [pending]

end

-- Messages

theorem doCommit_taken {h : MsgHdr} {target : Nat} {s t : State} {rc : Byte} (fits : target < 2 ^ 64)
    (hs : InSession s 5 h (leBytes 8 target)) (started : commitStart (.f (hdrKey h)) target (msgTaken h s) = (rc, t)) :
    doCommit h (leBytes 8 target) s =
      if rc = rcOk then { t with commit := { t.commit with reply := some h } }
      else if rc = rcCommitAborted then msgAnswer h 5 rc h.seq (abortBody t) t
      else msgAnswer h 5 rc h.seq [] t := by
  unfold doCommit
  rw [msgReceive_inSession hs]
  unfold commitBody
  rw [if_neg (by rw [length_leBytes]; simp), natOfLe_leBytes fits, started]
  rfl

theorem doAbort_taken {h : MsgHdr} {s t : State} (hs : InSession s 6 h []) {rc : Byte}
    (cancelled : commitCancel (.f (hdrKey h)) (h.flags.getLsbD 1) (msgTaken h s) = (rc, t)) :
    doAbort h [] s = msgAnswer h 6 rc h.seq [] t := by
  unfold doAbort
  rw [msgReceive_inSession hs]
  unfold abortMsg
  rw [if_neg (by simp), cancelled]
  rfl

/-- A message that is sent is among those that wait. -/
theorem sends_mem {s t : State} {h : MsgHdr} {op : Nat} {rc : Byte} {seq : BitVec 32} {body : List Byte}
    (sent : sends s t h op rc seq body) : ∃ m ∈ t.mmTx, m.eid = h.eid ∧ m.result = rc ∧ m.seq = seq ∧ m.body = body := by
  obtain ⟨m, queue, eid, -, result, number, content⟩ := sent
  exact ⟨m, by rw [queue]; exact List.mem_append_right _ List.mem_cons_self, eid, result, number, content⟩

/-- Another owner's idle time is left alone. -/
theorem ownerSeen_other {w : Who} {s : State} (other : s.commit.owner ≠ w.owner) : ownerSeen w s = s :=
  if_neg fun own => other own.2

theorem earliestFrame_msgTaken (h : MsgHdr) (s : State) : earliestFrame (msgTaken h s) = earliestFrame s := by
  rw [msgTaken_frame]
  rfl

theorem commitFaults_msgTaken (h : MsgHdr) (s : State) : commitFaults (msgTaken h s) = commitFaults s := by
  rw [msgTaken_frame]
  rfl

theorem earliestFrame_winTaken (dbg : Bool) (s : State) : earliestFrame (winTaken dbg s) = earliestFrame s := by
  rw [winTaken_frame]
  rfl

theorem commitFaults_winTaken (dbg : Bool) (s : State) : commitFaults (winTaken dbg s) = commitFaults s := by
  rw [winTaken_frame]
  rfl

-- Commands of the window

theorem winCmd_served {dbg : Bool} {s : State} (served : winServed s) (idx sub row v : Nat) : winCmd dbg idx sub row v s =
    winDone dbg (idx * 256 + sub) (dictWrite (winWho dbg) idx sub row v (winTaken dbg s)) := winAccess_served served _

theorem winDone_ok (dbg : Bool) (addr : Nat) (s : State) : winDone dbg addr (rcOk, s) = winAck false 0 s := if_pos rfl

theorem winDone_no {rc : Byte} (other : rc ≠ rcOk) (dbg : Bool) (addr : Nat) (s : State) :
    winDone dbg addr (rc, s) = winRefuse dbg addr rc s := if_neg other

theorem winOk_winAck (s : State) : winOk (winAck false 0 s) := rfl

theorem winAck_frame (err : Bool) (v : Nat) (s : State) :
    winAck err v s = { s with winOut := (winAck err v s).winOut } := rfl

theorem winRefuse_local (addr : Nat) (rc : Byte) (s : State) : winRefuse false addr rc s = { s with
    winL := (winRefuse false addr rc s).winL, winOut := (winRefuse false addr rc s).winOut } := rfl

/-- A write of a CMD object by a principal that reaches it. -/
theorem dictWrite_cmd {w : Who} {idx sub row v : Nat} {o : Obj} (reached : objReach w idx sub row = .ok o)
    (inner : rowZero idx row = false) (command : o.acc = .cmd) (fits : o.admits v = true) (plain : idx ≠ 0x5000) (s : State) :
    dictWrite w idx sub row v s = cmdWrite w idx sub row v s := by
  have free : debugRefused s idx sub v = false := by
    unfold debugRefused
    simp [plain]
  unfold dictWrite
  rw [reached]
  unfold objWrite
  dsimp only
  rw [if_neg (by rw [inner]; decide), if_neg (by rw [command]; decide), if_neg (by rw [fits, free]; decide), command]

theorem objReach_commitReq : ∃ o, objReach .l 0x2200 4 0 = .ok o ∧ o.acc = .cmd ∧ ∀ v, v < 2 ^ 64 → o.admits v = true := by
  refine ⟨_, rfl, rfl, fun v fits => ?_⟩
  unfold Obj.admits
  rw [Bool.and_eq_true]
  exact ⟨decide_eq_true fits, rfl⟩

theorem objReach_abortReq : ∃ o, objReach .l 0x2200 5 0 = .ok o ∧ o.acc = .cmd ∧ ∀ b : Bool, o.admits (boolNat b) = true := by
  refine ⟨_, rfl, rfl, fun b => ?_⟩
  cases b
  · rfl
  · rfl

theorem commitReq_served {s : State} (served : winServed s) (target : BitVec 64) : exec (.commitReq false target) s =
    .next (winDone false 0x220004 (commitStart .l target.toNat (winTaken false s))) := by
  obtain ⟨o, reached, command, fits⟩ := objReach_commitReq
  have write := dictWrite_cmd reached rfl command (fits _ target.isLt) (by decide) (winTaken false s)
  exact congrArg Host.Outcome.next ((winCmd_served served ..).trans (congrArg (winDone false 0x220004) write))

theorem abortReq_served {s : State} (served : winServed s) (v : Bool) : exec (.abortReq false v) s =
    .next (winDone false 0x220005 (if boolNat v = 1 then commitCancel .l false (winTaken false s) else (rcOk, winTaken false s))) := by
  obtain ⟨o, reached, command, fits⟩ := objReach_abortReq
  have write := dictWrite_cmd reached rfl command (fits v) (by decide) (winTaken false s)
  exact congrArg Host.Outcome.next ((winCmd_served served ..).trans (congrArg (winDone false 0x220005) write))

end Sys2Proof.Machine

/-! COMMIT and ABORT by message and by the local window. -/

namespace Sys2Proof.Machine

section
variable (h : MsgHdr) (dbg : Bool) (s : State)

theorem msgTaken_phase : (msgTaken h s).commit.phase = s.commit.phase := by rw [msgTaken_frame]

theorem msgTaken_decided : (msgTaken h s).commit.decided = s.commit.decided := by rw [msgTaken_frame]

theorem winTaken_phase : (winTaken dbg s).commit.phase = s.commit.phase := by rw [winTaken_frame]

theorem winTaken_decided : (winTaken dbg s).commit.decided = s.commit.decided := by rw [winTaken_frame]

theorem winTaken_reply : (winTaken dbg s).commit.reply = s.commit.reply := by rw [winTaken_frame]

end

theorem msgTaken_breakable {h : MsgHdr} {s : State} (other : s.commit.owner ≠ 8 + hdrKey h) :
    (msgTaken h s).commit.breakable = s.commit.breakable := by
  have same : msgTaken h s = seqTake (hdrKey h) h.seq s := ownerSeen_other (w := .f (hdrKey h)) (s := seqTake (hdrKey h) h.seq s) other
  rw [same]
  rfl

theorem winTaken_breakable {s : State} (other : s.commit.owner ≠ 1) : (winTaken false s).commit.breakable = s.commit.breakable := by
  have same : winTaken false s = s := ownerSeen_other (w := .l) other
  rw [same]

/-- What a failed COMMIT leaves: STAGING with its cause, and the staging set. -/
theorem commitAbort_facts (cause : Nat) (obj : Option Nat) (s : State) :
    (commitAbort cause obj s).commit.phase = .staging ∧ (commitAbort cause obj s).commit.cause = cause ∧
    (commitAbort cause obj s).commit.lastAbortObj = abortObj obj ∧ (commitAbort cause obj s).commit.owner = s.commit.owner ∧
    (commitAbort cause obj s).staged = s.staged ∧ (commitAbort cause obj s).cfg = s.cfg ∧
    (commitAbort cause obj s).keys = s.keys := by
  rw [commitAbort_frame]
  exact ⟨rfl, rfl, rfl, rfl, rfl, rfl, rfl⟩

/-- An answer keeps the commit unit and both banks. -/
theorem msgAnswer_keeps (h : MsgHdr) (op : Nat) (rc : Byte) (seq : BitVec 32) (body : List Byte) (s : State) :
    (msgAnswer h op rc seq body s).commit = s.commit ∧ (msgAnswer h op rc seq body s).staged = s.staged ∧
    (msgAnswer h op rc seq body s).cfg = s.cfg := by
  rw [msgAnswer_frame]
  exact ⟨rfl, rfl, rfl⟩

theorem abortBody_congr {s t : State} (same : t.commit = s.commit) : abortBody t = abortBody s := by
  unfold abortBody
  rw [same]

-- COMMIT by message

section
variable {h : MsgHdr} {target : Nat} {s : State} (fits : target < 2 ^ 64) (hs : InSession s 5 h (leBytes 8 target))
include fits hs

/-- A COMMIT that is refused at once, from a state that keeps the messages and the keys. -/
theorem commit_refused {rc : Byte} {t : State} (started : commitStart (.f (hdrKey h)) target (msgTaken h s) = (rc, t))
    (other : rc ≠ rcOk) (plain : rc ≠ rcCommitAborted) (messages : t.mmTx = s.mmTx) (keys : t.keys = s.keys) :
    exec (.commit h (leBytes 8 target)) s = .next (msgAnswer h 5 rc h.seq [] t) ∧
      sends s (msgAnswer h 5 rc h.seq [] t) h 5 rc h.seq [] := by
  obtain ⟨key, loaded⟩ := hs.key
  have taken := doCommit_taken fits hs started
  rw [if_neg other, if_neg plain] at taken
  exact ⟨congrArg Host.Outcome.next taken, sends_congr messages (sends_loaded (by rw [keys]; exact loaded) ..)⟩

/-- A COMMIT that fails at once is answered with what it leaves (R327). -/
theorem commit_aborted {cause : Nat} {obj : Option Nat}
    (started : commitStart (.f (hdrKey h)) target (msgTaken h s) =
      (rcCommitAborted, commitAbort cause obj (commitOpened (msgTaken h s)))) :
    ∃ t m, exec (.commit h (leBytes 8 target)) s = .next t ∧ m ∈ t.mmTx ∧ m.eid = h.eid ∧ m.result = rcCommitAborted ∧
      m.seq = h.seq ∧ m.body = abortBody t ∧ t.commit.phase = .staging ∧ t.commit.cause = cause ∧
      t.commit.lastAbortObj = abortObj obj ∧ t.staged = s.staged ∧ t.cfg = s.cfg := by
  obtain ⟨key, loaded⟩ := hs.key
  have taken := doCommit_taken fits hs started
  obtain ⟨phase, cause, object, -, staged, cfg, keys⟩ := commitAbort_facts cause obj (commitOpened (msgTaken h s))
  generalize commitAbort _ obj (commitOpened (msgTaken h s)) = u at taken phase cause object staged cfg keys
  have loadedHere : tabFind u.keys.mks (hdrKey h) = some key := by
    rw [keys]
    exact (congrArg (fun k => tabFind k.mks (hdrKey h)) (msgTaken_keys h s)).trans loaded
  rw [if_neg (by decide), if_pos rfl] at taken
  obtain ⟨m, sent, eid, result, number, content⟩ := sends_mem (sends_loaded loadedHere 5 rcCommitAborted h.seq (abortBody u))
  obtain ⟨unit, bank, force⟩ := msgAnswer_keeps h 5 rcCommitAborted h.seq (abortBody u) u
  refine ⟨_, m, congrArg Host.Outcome.next taken, sent, eid, result, number, ?_, ?_, ?_, ?_, ?_, ?_⟩
  · rw [content, abortBody_congr unit]
  · rw [unit, phase]
  · rw [unit, cause]
  · rw [unit, object]
  · rw [bank, staged]
    exact msgTaken_staged h s
  · rw [force, cfg]
    exact msgTaken_cfg h s

theorem commit_begun (begun : commitStart (.f (hdrKey h)) target (msgTaken h s) =
      (rcOk, commitBegun (commitTarget target (msgTaken h s)) (msgTaken h s))) :
    ∃ t, exec (.commit h (leBytes 8 target)) s = .next t ∧ t.commit.phase = .preparing ∧ t.commit.reply = some h ∧
      t.commit.target = (if target = 2 ^ 64 - 1 then earliestFrame s else target) ∧
      t = { msgTaken h s with commit := t.commit } := by
  have taken := doCommit_taken fits hs begun
  rw [if_pos rfl] at taken
  refine ⟨_, congrArg Host.Outcome.next taken, rfl, rfl, ?_, rfl⟩
  rw [← earliestFrame_msgTaken h s]
  rfl

end

-- COMMIT by the window

section
variable {target : BitVec 64} {s : State} (served : winServed s)
include served

theorem commitReq_refused {rc : Byte} {t : State} (started : commitStart .l target.toNat (winTaken false s) = (rc, t))
    (other : rc ≠ rcOk) : exec (.commitReq false target) s = .next (winRefuse false 0x220004 rc t) := by
  rw [commitReq_served served, started, winDone_no other]

theorem commitReq_aborted {cause : Nat} {obj : Option Nat}
    (started : commitStart .l target.toNat (winTaken false s) =
      (rcCommitAborted, commitAbort cause obj (commitOpened (winTaken false s)))) :
    ∃ t, exec (.commitReq false target) s = .next t ∧ winNo t false 0x220004 rcCommitAborted ∧
      t.commit.phase = .staging ∧ t.commit.cause = cause ∧ t.commit.lastAbortObj = abortObj obj ∧ t.staged = s.staged ∧
      t.cfg = s.cfg := by
  obtain ⟨phase, cause, object, -, staged, cfg, -⟩ := commitAbort_facts cause obj (commitOpened (winTaken false s))
  refine ⟨_, commitReq_refused served started (by decide), winNo_winRefuse .., ?_, ?_, ?_, ?_, ?_⟩
  · rw [winRefuse_local, phase]
  · rw [winRefuse_local, cause]
  · rw [winRefuse_local, object]
  · rw [winRefuse_local, staged]
    exact winTaken_staged false s
  · rw [winRefuse_local, cfg]
    exact winTaken_cfg false s

end

end Sys2Proof.Machine

namespace Sys2Proof
open Sys2Proof.Machine

/-- COMMIT by a fleet manager. -/
theorem commit_by_message {h : MsgHdr} {target : Nat} {s : State} (fits : target < 2 ^ 64)
    (hs : InSession s 5 h (leBytes 8 target)) (free : s.commit.phase = .idle ∨ s.commit.phase = .staging) :
    (s.staged ≠ [] → s.commit.owner ≠ 0 → s.commit.owner ≠ 8 + hdrKey h →
      (s.commit.breakable = false → ∃ t, exec (.commit h (leBytes 8 target)) s = .next t ∧
        sends s t h 5 rcStageOwned h.seq [] ∧ t = { msgTaken h s with mmTx := t.mmTx, regs := t.regs }) ∧
      (s.commit.breakable = true → ∃ t, exec (.commit h (leBytes 8 target)) s = .next t ∧
        sends s t h 5 rcNothingStaged h.seq [] ∧ t.staged = [] ∧ t.commit.owner = 8 + hdrKey h ∧
        t.commit.breakable = false ∧
        t = { msgTaken h s with mmTx := t.mmTx, regs := t.regs, ev := t.ev, staged := t.staged, commit := t.commit })) ∧
    (s.staged = [] → ∃ t, exec (.commit h (leBytes 8 target)) s = .next t ∧
      sends s t h 5 rcNothingStaged h.seq [] ∧ t = { msgTaken h s with mmTx := t.mmTx, regs := t.regs }) ∧
    (s.commit.owner = 0 ∨ s.commit.owner = 8 + hdrKey h →
      (s.staged ≠ [] → target < earliestFrame s → target ≠ 2 ^ 64 - 1 → ∃ t m, exec (.commit h (leBytes 8 target)) s = .next t ∧
        m ∈ t.mmTx ∧ m.eid = h.eid ∧ m.result = rcCommitAborted ∧ m.seq = h.seq ∧ m.body = abortBody t ∧
        t.commit.phase = .staging ∧ t.commit.cause = 3 ∧ t.staged = s.staged ∧ t.cfg = s.cfg) ∧
      (s.staged ≠ [] → earliestFrame s ≤ target ∨ target = 2 ^ 64 - 1 →
        (∀ k, firstFault (commitFaults s) = some k → ∃ t m, exec (.commit h (leBytes 8 target)) s = .next t ∧
          m ∈ t.mmTx ∧ m.eid = h.eid ∧ m.result = rcCommitAborted ∧ m.seq = h.seq ∧ m.body = abortBody t ∧
          t.commit.phase = .staging ∧ t.commit.cause = 1 ∧ t.commit.lastAbortObj = abortObj (some k) ∧
          t.staged = s.staged ∧ t.cfg = s.cfg) ∧
        (firstFault (commitFaults s) = none → ∃ t, exec (.commit h (leBytes 8 target)) s = .next t ∧
          t.commit.phase = .preparing ∧ t.commit.reply = some h ∧
          t.commit.target = (if target = 2 ^ 64 - 1 then earliestFrame s else target) ∧
          t = { msgTaken h s with commit := t.commit }))) := by
  have freeHere : (msgTaken h s).commit.phase = .idle ∨ (msgTaken h s).commit.phase = .staging := by
    rw [msgTaken_phase]
    exact free
  have ownerHere := msgTaken_owner h s
  have stagedHere := msgTaken_staged h s
  refine ⟨fun staged held other => ?_, fun none => ?_, fun own => ?_⟩
  · have entered := stageEnter_other (w := .f (hdrKey h)) freeHere (by rw [stagedHere]; exact staged)
      (by rw [ownerHere]; exact held) (by rw [ownerHere]; exact other)
    rw [msgTaken_breakable other] at entered
    refine ⟨fun firm => ?_, fun loose => ?_⟩
    · rw [if_neg (by rw [firm]; decide)] at entered
      obtain ⟨runs, sent⟩ := commit_refused fits hs (commitStart_refused entered) (by decide) (by decide)
        (msgTaken_mmTx h s) (msgTaken_keys h s)
      exact ⟨_, runs, sent, msgAnswer_frame ..⟩
    · rw [if_pos loose] at entered
      obtain ⟨none, owner, firm⟩ := stageBreak_facts (.f (hdrKey h)) (msgTaken h s)
      have frame := stageBreak_frame (.f (hdrKey h)) (msgTaken h s)
      obtain ⟨runs, sent⟩ := commit_refused fits hs (commitStart_empty entered none) (by decide) (by decide)
        (by rw [frame]; exact msgTaken_mmTx h s) (by rw [frame]; exact msgTaken_keys h s)
      obtain ⟨unit, bank, -⟩ := msgAnswer_keeps h 5 rcNothingStaged h.seq [] (stageBreak (.f (hdrKey h)) (msgTaken h s))
      refine ⟨_, runs, sent, bank.trans none, ?_, ?_, ?_⟩
      · rw [unit]
        exact owner
      · rw [unit]
        exact firm
      · rw [msgAnswer_frame, frame]
  · have entered := stageEnter_own (w := .f (hdrKey h)) freeHere (.inr (.inr (stagedHere.trans none)))
    obtain ⟨runs, sent⟩ := commit_refused fits hs (commitStart_empty entered (stagedHere.trans none)) (by decide) (by decide)
      (msgTaken_mmTx h s) (msgTaken_keys h s)
    exact ⟨_, runs, sent, msgAnswer_frame ..⟩
  · have entered := stageEnter_own (w := .f (hdrKey h)) freeHere (by
      rw [ownerHere]
      exact own.imp id .inl)
    have earliest := earliestFrame_msgTaken h s
    have faults := commitFaults_msgTaken h s
    refine ⟨fun staged early named => ?_, fun staged late => ⟨fun k fault => ?_, fun sound => ?_⟩⟩
    · obtain ⟨t, m, runs, sent, eid, result, number, content, phase, cause, -, bank, cfg⟩ := commit_aborted fits hs
        (commitStart_early entered (by rw [stagedHere]; exact staged) (by rw [earliest]; exact early) named)
      exact ⟨t, m, runs, sent, eid, result, number, content, phase, cause, bank, cfg⟩
    · exact commit_aborted fits hs (commitStart_faulty entered (by rw [stagedHere]; exact staged)
        (by rw [earliest]; exact late) (by rw [faults]; exact fault))
    · exact commit_begun fits hs (commitStart_sound entered (by rw [stagedHere]; exact staged)
        (by rw [earliest]; exact late) (by rw [faults]; exact sound))

/-- COMMIT by local firmware. -/
theorem commit_by_window {target : BitVec 64} {s : State} (served : winServed s)
    (free : s.commit.phase = .idle ∨ s.commit.phase = .staging) :
    (s.staged ≠ [] → s.commit.owner ≠ 0 → s.commit.owner ≠ 1 →
      (s.commit.breakable = false → ∃ t, exec (.commitReq false target) s = .next t ∧
        winNo t false 0x220004 rcStageOwned ∧ t = { winTaken false s with winL := t.winL, winOut := t.winOut }) ∧
      (s.commit.breakable = true → ∃ t, exec (.commitReq false target) s = .next t ∧
        winNo t false 0x220004 rcNothingStaged ∧ t.staged = [] ∧ t.commit.owner = 1 ∧ t.commit.breakable = false ∧
        t = { winTaken false s with winL := t.winL, winOut := t.winOut, regs := t.regs, ev := t.ev,
                                    staged := t.staged, commit := t.commit })) ∧
    (s.staged = [] → ∃ t, exec (.commitReq false target) s = .next t ∧ winNo t false 0x220004 rcNothingStaged ∧
      t = { winTaken false s with winL := t.winL, winOut := t.winOut }) ∧
    (s.commit.owner = 0 ∨ s.commit.owner = 1 →
      (s.staged ≠ [] → target.toNat < earliestFrame s → target.toNat ≠ 2 ^ 64 - 1 →
        ∃ t, exec (.commitReq false target) s = .next t ∧
        winNo t false 0x220004 rcCommitAborted ∧ t.commit.phase = .staging ∧ t.commit.cause = 3 ∧
        t.staged = s.staged ∧ t.cfg = s.cfg) ∧
      (s.staged ≠ [] → earliestFrame s ≤ target.toNat ∨ target.toNat = 2 ^ 64 - 1 →
        (∀ k, firstFault (commitFaults s) = some k → ∃ t, exec (.commitReq false target) s = .next t ∧
          winNo t false 0x220004 rcCommitAborted ∧ t.commit.phase = .staging ∧ t.commit.cause = 1 ∧
          t.commit.lastAbortObj = abortObj (some k) ∧ t.staged = s.staged ∧ t.cfg = s.cfg) ∧
        (firstFault (commitFaults s) = none → ∃ t, exec (.commitReq false target) s = .next t ∧ winOk t ∧
          t.commit.phase = .preparing ∧ t.commit.reply = s.commit.reply ∧
          t.commit.target = (if target.toNat = 2 ^ 64 - 1 then earliestFrame s else target.toNat) ∧
          t = { winTaken false s with commit := t.commit, winOut := t.winOut }))) := by
  have freeHere : (winTaken false s).commit.phase = .idle ∨ (winTaken false s).commit.phase = .staging := by
    rw [winTaken_phase]
    exact free
  have ownerHere := winTaken_owner false s
  have stagedHere := winTaken_staged false s
  refine ⟨fun staged held other => ?_, fun none => ?_, fun own => ?_⟩
  · have entered := stageEnter_other (w := .l) freeHere (by rw [stagedHere]; exact staged)
      (by rw [ownerHere]; exact held) (by rw [ownerHere]; exact other)
    rw [winTaken_breakable other] at entered
    refine ⟨fun firm => ?_, fun loose => ?_⟩
    · rw [if_neg (by rw [firm]; decide)] at entered
      exact ⟨_, commitReq_refused served (commitStart_refused entered) (by decide), winNo_winRefuse .., winRefuse_local ..⟩
    · rw [if_pos loose] at entered
      obtain ⟨none, owner, firm⟩ := stageBreak_facts .l (winTaken false s)
      refine ⟨_, commitReq_refused served (commitStart_empty entered none) (by decide), winNo_winRefuse .., ?_, ?_, ?_, ?_⟩
      · rw [winRefuse_local]
        exact none
      · rw [winRefuse_local]
        exact owner
      · rw [winRefuse_local]
        exact firm
      · rw [winRefuse_local, stageBreak_frame]
  · have entered := stageEnter_own (w := .l) freeHere (.inr (.inr (stagedHere.trans none)))
    exact ⟨_, commitReq_refused served (commitStart_empty entered (stagedHere.trans none)) (by decide), winNo_winRefuse ..,
      winRefuse_local ..⟩
  · have entered := stageEnter_own (w := .l) freeHere (by
      rw [ownerHere]
      exact own.imp id .inl)
    have earliest := earliestFrame_winTaken false s
    have faults := commitFaults_winTaken false s
    refine ⟨fun staged early named => ?_, fun staged late => ⟨fun k fault => ?_, fun sound => ?_⟩⟩
    · obtain ⟨t, runs, no, phase, cause, -, bank, cfg⟩ := commitReq_aborted served
        (commitStart_early entered (by rw [stagedHere]; exact staged) (by rw [earliest]; exact early) named)
      exact ⟨t, runs, no, phase, cause, bank, cfg⟩
    · exact commitReq_aborted served (commitStart_faulty entered (by rw [stagedHere]; exact staged)
        (by rw [earliest]; exact late) (by rw [faults]; exact fault))
    · have begun := commitStart_sound entered (by rw [stagedHere]; exact staged)
        (by rw [earliest]; exact late) (by rw [faults]; exact sound)
      have runs := commitReq_served served target
      rw [begun, winDone_ok] at runs
      refine ⟨_, runs, winOk_winAck _, rfl, winTaken_reply false s, ?_, rfl⟩
      rw [← earliest]
      rfl

/-- ABORT by a fleet manager of a commit that is not yet decided. -/
theorem abort_by_message {h : MsgHdr} {s : State} (hs : InSession s 6 h []) (undecided : s.commit.decided ≠ .apply) :
    (s.commit.owner ≠ 0 → s.commit.owner ≠ 8 + hdrKey h → h.flags.getLsbD 1 = false →
      ∃ t, exec (.abort h []) s = .next t ∧ sends s t h 6 rcStageOwned h.seq [] ∧
        t = { msgTaken h s with mmTx := t.mmTx, regs := t.regs }) ∧
    (s.commit.owner = 0 ∨ s.commit.owner = 8 + hdrKey h ∨ h.flags.getLsbD 1 = true →
      (s.commit.phase = .idle ∨ s.commit.phase = .staging → ∃ t, exec (.abort h []) s = .next t ∧ sends s t h 6 rcOk h.seq [] ∧
        t.staged = [] ∧ t.commit.phase = .idle ∧ t.commit.owner = 0 ∧
        t = { msgTaken h s with mmTx := t.mmTx, staged := t.staged, commit := t.commit }) ∧
      (s.commit.phase = .preparing ∨ s.commit.phase = .pending → ∃ t m, exec (.abort h []) s = .next t ∧
        m ∈ t.mmTx ∧ m.eid = h.eid ∧ m.result = rcOk ∧ m.seq = h.seq ∧ t.commit.cause = 5 ∧ t.cfg = s.cfg ∧
        (h.flags.getLsbD 1 = false → t.commit.phase = .staging ∧ t.staged = s.staged ∧
          t.commit.owner = s.commit.owner) ∧
        (h.flags.getLsbD 1 = true → t.staged = [] ∧ t.commit.phase = .idle))) := by
  obtain ⟨key, loaded⟩ := hs.key
  have loadedHere : tabFind (msgTaken h s).keys.mks (hdrKey h) = some key := by rw [msgTaken_keys]; exact loaded
  have undecidedHere : (msgTaken h s).commit.decided ≠ .apply := by rw [msgTaken_decided]; exact undecided
  have ownerHere := msgTaken_owner h s
  refine ⟨fun held other plain => ?_, fun own => ⟨fun free => ?_, fun busy => ?_⟩⟩
  · have taken := doAbort_taken hs (commitCancel_notOwner (w := .f (hdrKey h)) undecidedHere (by rw [ownerHere]; exact held)
      (by rw [ownerHere]; exact other) plain)
    exact ⟨_, congrArg Host.Outcome.next taken, sends_congr (msgTaken_mmTx h s) (sends_loaded loadedHere ..), msgAnswer_frame ..⟩
  · have taken := doAbort_taken hs (commitCancel_staging (w := .f (hdrKey h)) undecidedHere (by rw [ownerHere]; exact own)
      (by rw [msgTaken_phase]; exact free))
    have discarded : tabFind (stageDiscard (msgTaken h s)).keys.mks (hdrKey h) = some key := loadedHere
    have messages : (stageDiscard (msgTaken h s)).mmTx = s.mmTx := msgTaken_mmTx h s
    refine ⟨_, congrArg Host.Outcome.next taken, sends_congr messages (sends_loaded discarded ..), ?_, ?_, ?_, ?_⟩
    · rw [msgAnswer_ok_frame]
      rfl
    · rw [msgAnswer_ok_frame]
      rfl
    · rw [msgAnswer_ok_frame]
      rfl
    · rw [msgAnswer_ok_frame]
      rfl
  · have taken := doAbort_taken hs (commitCancel_underway (w := .f (hdrKey h)) undecidedHere (by rw [ownerHere]; exact own)
      (by rw [msgTaken_phase]; exact busy))
    obtain ⟨phase, cause, -, owner, staged, cfg, keys⟩ := commitAbort_facts 5 none (msgTaken h s)
    generalize commitAbort 5 none (msgTaken h s) = u at taken phase cause owner staged cfg keys
    by_cases force : h.flags.getLsbD 1 = true
    · rw [if_pos force] at taken
      have discarded : tabFind (stageDiscard u).keys.mks (hdrKey h) = some key := by
        show tabFind u.keys.mks (hdrKey h) = some key
        rw [keys]
        exact loadedHere
      obtain ⟨m, sent, eid, result, number, -⟩ := sends_mem (sends_loaded discarded 6 rcOk h.seq [])
      obtain ⟨unit, bank, force'⟩ := msgAnswer_keeps h 6 rcOk h.seq [] (stageDiscard u)
      refine ⟨_, m, congrArg Host.Outcome.next taken, sent, eid, result, number, ?_, ?_, fun plain => ?_, fun _ => ⟨?_, ?_⟩⟩
      · rw [unit]
        exact cause
      · rw [force']
        exact cfg.trans (msgTaken_cfg h s)
      · rw [force] at plain
        cases plain
      · rw [bank]
        rfl
      · rw [unit]
        rfl
    · rw [if_neg force] at taken
      have loadedU : tabFind u.keys.mks (hdrKey h) = some key := by
        rw [keys]
        exact loadedHere
      obtain ⟨m, sent, eid, result, number, -⟩ := sends_mem (sends_loaded loadedU 6 rcOk h.seq [])
      obtain ⟨unit, bank, force'⟩ := msgAnswer_keeps h 6 rcOk h.seq [] u
      refine ⟨_, m, congrArg Host.Outcome.next taken, sent, eid, result, number, ?_, ?_, fun _ => ⟨?_, ?_, ?_⟩,
        fun forced => absurd forced force⟩
      · rw [unit, cause]
      · rw [force', cfg]
        exact msgTaken_cfg h s
      · rw [unit, phase]
      · rw [bank, staged]
        exact msgTaken_staged h s
      · rw [unit, owner]
        exact msgTaken_owner h s

/-- ABORT by local firmware of a commit that is not yet decided. -/
theorem abort_by_window {s : State} (served : winServed s) (undecided : s.commit.decided ≠ .apply) :
    (s.commit.owner ≠ 0 → s.commit.owner ≠ 1 → ∃ t, exec (.abortReq false true) s = .next t ∧
      winNo t false 0x220005 rcStageOwned ∧ t = { winTaken false s with winL := t.winL, winOut := t.winOut }) ∧
    (s.commit.owner = 0 ∨ s.commit.owner = 1 →
      (s.commit.phase = .idle ∨ s.commit.phase = .staging → ∃ t, exec (.abortReq false true) s = .next t ∧ winOk t ∧ t.staged = [] ∧
        t.commit.phase = .idle ∧ t.commit.owner = 0 ∧
        t = { winTaken false s with staged := t.staged, commit := t.commit, winOut := t.winOut }) ∧
      (s.commit.phase = .preparing ∨ s.commit.phase = .pending → ∃ t, exec (.abortReq false true) s = .next t ∧
        winOk t ∧ t.commit.phase = .staging ∧ t.commit.cause = 5 ∧ t.staged = s.staged ∧ t.cfg = s.cfg)) := by
  have undecidedHere : (winTaken false s).commit.decided ≠ .apply := by rw [winTaken_decided]; exact undecided
  have ownerHere := winTaken_owner false s
  have runs := abortReq_served served true
  rw [if_pos (show boolNat true = 1 from rfl)] at runs
  refine ⟨fun held other => ?_, fun own => ⟨fun free => ?_, fun busy => ?_⟩⟩
  · rw [commitCancel_notOwner (w := .l) undecidedHere (by rw [ownerHere]; exact held) (by rw [ownerHere]; exact other) rfl,
      winDone_no (by decide)] at runs
    exact ⟨_, runs, winNo_winRefuse .., winRefuse_local ..⟩
  · rw [commitCancel_staging (w := .l) undecidedHere (by rw [ownerHere]; exact own.imp id .inl)
      (by rw [winTaken_phase]; exact free), winDone_ok] at runs
    exact ⟨_, runs, winOk_winAck _, rfl, rfl, rfl, rfl⟩
  · rw [commitCancel_underway (w := .l) undecidedHere (by rw [ownerHere]; exact own.imp id .inl)
      (by rw [winTaken_phase]; exact busy), if_neg (by decide), winDone_ok] at runs
    obtain ⟨phase, cause, -, -, staged, cfg, -⟩ := commitAbort_facts 5 none (winTaken false s)
    exact ⟨_, runs, winOk_winAck _, phase, cause, staged.trans (winTaken_staged false s), cfg.trans (winTaken_cfg false s)⟩

/-- Settles O52: COMMIT and ABORT by both routes. -/
theorem commitsAndAbortsAreTakenOrRefused : Obligations.CommitsAndAbortsAreTakenOrRefused := by
  unfold Obligations.CommitsAndAbortsAreTakenOrRefused
  refine ⟨fun h target s fits hs => ⟨fun busy => ?_, fun free => commit_by_message fits hs free⟩,
    fun target s served => ⟨fun busy => ?_, fun free => commit_by_window served free⟩,
    fun h s hs => ⟨fun decided => ?_, fun undecided => abort_by_message hs undecided⟩,
    fun s served => ⟨?_, fun decided => ?_, fun undecided => abort_by_window served undecided⟩⟩
  · have entered := stageEnter_busy (w := .f (hdrKey h)) (s := msgTaken h s) (by rw [msgTaken_phase]; exact busy)
    obtain ⟨runs, sent⟩ := commit_refused fits hs (commitStart_refused entered) (by decide) (by decide)
      (msgTaken_mmTx h s) (msgTaken_keys h s)
    exact ⟨_, runs, sent, msgAnswer_frame ..⟩
  · have entered := stageEnter_busy (w := .l) (s := winTaken false s) (by rw [winTaken_phase]; exact busy)
    exact ⟨_, commitReq_refused served (commitStart_refused entered) (by decide), winNo_winRefuse .., winRefuse_local ..⟩
  · obtain ⟨key, loaded⟩ := msgTaken_loaded hs
    have taken := doAbort_taken hs (commitCancel_decided (w := .f (hdrKey h)) (by rw [msgTaken_decided]; exact decided))
    exact ⟨_, congrArg Host.Outcome.next taken, sends_congr (msgTaken_mmTx h s) (sends_loaded loaded ..), msgAnswer_ok_frame ..⟩
  · have runs := abortReq_served served false
    rw [if_neg (by decide), winDone_ok] at runs
    exact runs
  · have runs := abortReq_served served true
    rw [if_pos (show boolNat true = 1 from rfl), commitCancel_decided (by rw [winTaken_decided]; exact decided), winDone_ok] at runs
    exact runs

end Sys2Proof

/-! The accesses and the commands of the local window. -/

namespace Sys2Proof.Machine

-- Refusals

theorem objReach_error_ne_ok {w : Who} {idx sub row : Nat} {rc : Byte} (refused : objReach w idx sub row = .error rc) :
    rc ≠ rcOk := by
  unfold objReach at refused
  split at refused
  · cases refused
    split <;> decide
  · split at refused
    · cases refused
      decide
    · split at refused
      · cases refused
      · cases refused
        decide

theorem objReach_ok_find {w : Who} {idx sub row : Nat} {o : Obj} (reached : objReach w idx sub row = .ok o) :
    objFind idx sub = some o := by
  unfold objReach at reached
  split at reached
  · cases reached
  · next found =>
    split at reached
    · cases reached
    · split at reached
      · cases reached
        exact found
      · cases reached

theorem winAccess_unserved {dbg : Bool} {go : State → State} {s : State} (running : s.clk.running = true)
    (unserved : s.pwr.stage ≠ .served) : winAccess dbg go s = winAck true 0 s := by
  unfold winAccess
  rw [if_neg (by rw [running]; decide), if_pos unserved]

/-- Each of the three plain accesses meets the window first (R368). -/
theorem exec_winAccess {a : WinAcc} {v : BitVec 32} {c : Instr}
    (hc : c = .windowWrite a v ∨ c = .rwsWrite a v ∨ c = .wideValueRead a) :
    ∃ go, (∀ s, exec c s = .next (winAccess a.dbg go s)) ∧
      (a.be ≠ 0xF#4 → ∀ s, go s = winRefuse a.dbg a.addr.toNat rcAccess s) := by
  rcases hc with rfl | rfl | rfl
  · exact ⟨_, fun _ => rfl, fun narrow s => if_pos narrow⟩
  · exact ⟨_, fun _ => rfl, fun narrow s => if_pos narrow⟩
  · exact ⟨_, fun _ => rfl, fun narrow s => if_pos narrow⟩

theorem exec_window_refused {a : WinAcc} {v : BitVec 32} {c : Instr} {idx sub row : Nat} {rc : Byte} {s : State}
    (hc : c = .windowWrite a v ∨ c = .rwsWrite a v ∨ c = .wideValueRead a) (hw : WinAt s a idx sub row)
    (refused : objReach (winWho a.dbg) idx sub row = .error rc) :
    exec c s = .next (winRefuse a.dbg a.addr.toNat rc (winTaken a.dbg s)) := by
  rcases hc with rfl | rfl | rfl
  · exact congrArg Host.Outcome.next (doWindowWrite_refused hw refused (objReach_error_ne_ok refused))
  · exact congrArg Host.Outcome.next (doWindowWrite_refused hw refused (objReach_error_ne_ok refused))
  · exact congrArg Host.Outcome.next (doWideValueRead_refused hw refused)

-- Writes

theorem doWindowWrite_object {a : WinAcc} {v idx sub row : Nat} {o : Obj} {s : State} (hw : WinAt s a idx sub row)
    (plain : idx ≠ 0x20FF) (reached : objReach (winWho a.dbg) idx sub row = .ok o) : doWindowWrite a v s =
      winDone a.dbg a.addr.toNat (objWrite (winWho a.dbg) o idx sub row (wideValue (winOf s a.dbg) o.ty.words v) (winTaken a.dbg s)) := by
  have written : winWrite a.dbg a.addr.toNat v (winTaken a.dbg s) =
      objWrite (winWho a.dbg) o idx sub row (wideValue (winOf s a.dbg) o.ty.words v) (winTaken a.dbg s) := by
    unfold winWrite
    simp only [hw.idx_eq, hw.sub_eq, hw.noSelect, Bool.false_eq_true, if_false, winRow_winTaken, ← hw.rowIs, reached, plain,
      winOf_winTaken]
  unfold doWindowWrite
  rw [winAccess_served hw.served]
  simp only [hw.enables, ne_eq, not_true_eq_false, if_false, written]

/-- A served full-word write at an address, before what it names is known. -/
theorem doWindowWrite_at {a : WinAcc} {v idx sub : Nat} {s : State} (served : winServed s) (enables : a.be = 0xF#4)
    (address : a.addr.toNat = idx * 256 + sub) (subFits : sub < 256) : doWindowWrite a v s =
      winDone a.dbg a.addr.toNat (if isRowSel idx sub then rowSelWrite a.dbg idx sub v (winTaken a.dbg s) else
        match objReach (winWho a.dbg) idx sub (winRow s a.dbg idx) with
        | .error rc => (rc, winTaken a.dbg s)
        | .ok o =>
          if idx = 0x20FF then winRegWrite a.dbg sub v (winTaken a.dbg s)
          else objWrite (winWho a.dbg) o idx sub (winRow s a.dbg idx) (wideValue (winOf s a.dbg) o.ty.words v) (winTaken a.dbg s)) := by
  have idxOf : winIdx a.addr.toNat = idx := by unfold winIdx; omega
  have subOf : winSub a.addr.toNat = sub := by unfold winSub; omega
  unfold doWindowWrite
  rw [winAccess_served served, if_neg (Decidable.not_not.2 enables)]
  unfold winWrite
  simp only [idxOf, subOf, winRow_winTaken, winOf_winTaken] <;> rfl

-- The registers of a class

theorem winOf_winPut_same (dbg : Bool) (x : WinClass) (s : State) : winOf (winPut dbg x s) dbg = x := by
  cases dbg
  · rfl
  · rfl

theorem winOf_winPut_other (dbg : Bool) (x : WinClass) (s : State) : winOf (winPut dbg x s) (!dbg) = winOf s (!dbg) := by
  cases dbg
  · rfl
  · rfl

theorem winPut_frame (dbg : Bool) (x : WinClass) (s : State) :
    winPut dbg x s = { s with winL := (winPut dbg x s).winL, winD := (winPut dbg x s).winD } := by
  cases dbg
  · rfl
  · rfl

theorem winOf_winAck (err : Bool) (v : Nat) (s : State) (d : Bool) : winOf (winAck err v s) d = winOf s d := rfl

theorem winOf_winRefuse_other (dbg : Bool) (addr : Nat) (rc : Byte) (s : State) :
    winOf (winRefuse dbg addr rc s) (!dbg) = winOf s (!dbg) := winOf_winPut_other ..

/-- The words above word 0 stand in the wide buffer (R312). -/
theorem wideLatch_wide {words v i : Nat} (x : WinClass) (low : 1 ≤ i) (high : i < words) :
    tabGet 0#32 (wideLatch words v x).wide i = BitVec.ofNat 32 (v / 2 ^ (32 * i)) := by
  have latched : ∀ n, i ≤ n → tabGet 0#32 ((List.range n).foldl (fun (x : WinClass) j =>
      { x with wide := tabPut 0#32 x.wide (j + 1) (BitVec.ofNat 32 (v / 2 ^ (32 * (j + 1)))) }) x).wide i =
        BitVec.ofNat 32 (v / 2 ^ (32 * i)) := by
    intro n
    induction n with
    | zero => omega
    | succ n ih =>
      intro below
      rw [List.range_succ, List.foldl_append, List.foldl_cons, List.foldl_nil]
      dsimp only
      rw [tabGet_tabPut]
      split
      · next same => rw [same]
      · next other => exact ih (by omega)
  exact latched (words - 1) (by omega)

theorem objReach_winReg (dbg : Bool) {sub : Nat} (low : 1 ≤ sub) (high : sub ≤ 0x10) :
    ∃ o, objReach (winWho dbg) 0x20FF sub 0 = .ok o := by
  have all : ∀ d : Bool, ∀ k : Fin 16, (objReach (winWho d) 0x20FF (k + 1) 0).toOption.isSome = true := by decide +kernel
  have here := all dbg ⟨sub - 1, by omega⟩
  rw [show sub - 1 + 1 = sub from by omega] at here
  cases found : objReach (winWho dbg) 0x20FF sub 0 with
  | ok o => exact ⟨o, rfl⟩
  | error rc =>
    rw [found] at here
    cases here

section
variable {a : WinAcc} {v : BitVec 32} {s : State} (served : winServed s) (enables : a.be = 0xF#4)
include served enables

/-- A write of a register of the class itself (Table 15.8). -/
theorem windowWrite_register {sub : Nat} (address : a.addr.toNat = 0x20FF * 256 + sub) (low : 1 ≤ sub) (high : sub ≤ 0x10) :
    exec (.windowWrite a v) s =
      .next (winDone a.dbg a.addr.toNat (winRegWrite a.dbg sub v.toNat (winTaken a.dbg s))) := by
  obtain ⟨o, reached⟩ := objReach_winReg a.dbg low high
  have noSelect : isRowSel 0x20FF sub = false := isRowSel_eq_false.2 fun select => select.1 rfl
  have row : winRow s a.dbg 0x20FF = 0 := rfl
  have write := doWindowWrite_at (v := v.toNat) served enables address (by omega)
  rw [noSelect, row, reached, if_neg (by decide)] at write
  exact congrArg Host.Outcome.next (write.trans (congrArg (winDone a.dbg a.addr.toNat) (if_pos rfl)))

theorem windowWrite_wide {sub : Nat} (address : a.addr.toNat = 0x20FF * 256 + sub) (low : 1 ≤ sub) (high : sub ≤ 0x0F) :
    ∃ t, exec (.windowWrite a v) s = .next t ∧ winOk t ∧ winOf t a.dbg = { winOf s a.dbg with wide := (winOf t a.dbg).wide } ∧
      tabGet 0#32 (winOf t a.dbg).wide sub = v ∧ winOf t (!a.dbg) = winOf s (!a.dbg) := by
  have write := windowWrite_register (v := v) served enables address low (by omega)
  unfold winRegWrite at write
  dsimp only at write
  rw [if_pos (by omega), winDone_ok] at write
  refine ⟨_, write, winOk_winAck _, ?_, ?_, ?_⟩
  · rw [winOf_winAck, winOf_winPut_same, winOf_winTaken]
  · rw [winOf_winAck, winOf_winPut_same]
    dsimp only
    rw [tabGet_tabPut, if_pos rfl, BitVec.ofNat_toNat, BitVec.setWidth_eq]
  · rw [winOf_winAck, winOf_winPut_other, winOf_winTaken]

theorem windowWrite_view (address : a.addr.toNat = 0x20FF * 256 + 0x10) (small : v.toNat ≤ 1) :
    ∃ t, exec (.windowWrite a v) s = .next t ∧ winOk t ∧ winOf t a.dbg = { winOf s a.dbg with view := v.setWidth 8 } ∧
      winOf t (!a.dbg) = winOf s (!a.dbg) := by
  have write := windowWrite_register (v := v) served enables address (by decide) (by decide)
  unfold winRegWrite at write
  dsimp only at write
  rw [if_neg (by decide), if_pos rfl, if_pos small, winDone_ok] at write
  refine ⟨_, write, winOk_winAck _, ?_, ?_⟩
  · rw [winOf_winAck, winOf_winPut_same, winOf_winTaken, BitVec.ofNat_toNat]
  · rw [winOf_winAck, winOf_winPut_other, winOf_winTaken]

/-- A write of a row select of a table (R313). -/
theorem windowWrite_select {idx sub : Nat} (address : a.addr.toNat = idx * 256 + sub) (subFits : sub < 256)
    (select : isRowSel idx sub = true) : exec (.windowWrite a v) s =
      .next (winDone a.dbg a.addr.toNat (rowSelWrite a.dbg idx sub v.toNat (winTaken a.dbg s))) := by
  have write := doWindowWrite_at (v := v.toNat) served enables address subFits
  rw [if_pos select] at write
  exact congrArg Host.Outcome.next write

theorem windowWrite_ownSelect {idx sub : Nat} (address : a.addr.toNat = idx * 256 + sub) (table : tableRows idx ≠ 0)
    (own : sub = (if a.dbg then 0xFF else 0xFE)) (small : v.toNat < 2 ^ 24) :
    ∃ t, exec (.windowWrite a v) s = .next t ∧ winOk t ∧ winRow t a.dbg idx = v.toNat ∧
      winOf t a.dbg = { winOf s a.dbg with rowSel := (winOf t a.dbg).rowSel } ∧ winOf t (!a.dbg) = winOf s (!a.dbg) := by
  have select : isRowSel idx sub = true := by
    unfold isRowSel
    rw [own]
    cases a.dbg <;> simp [table]
  have write := windowWrite_select (v := v) served enables address (by rw [own]; split <;> decide) select
  unfold rowSelWrite at write
  dsimp only at write
  rw [if_neg (Decidable.not_not.2 own), if_neg (by omega), winDone_ok] at write
  refine ⟨_, write, winOk_winAck _, ?_, ?_, ?_⟩
  · unfold winRow
    rw [if_neg table, winOf_winAck, winOf_winPut_same]
    dsimp only
    rw [tabGet_tabPut, if_pos rfl, BitVec.ofNat_toNat, BitVec.setWidth_eq]
  · rw [winOf_winAck, winOf_winPut_same, winOf_winTaken]
  · rw [winOf_winAck, winOf_winPut_other, winOf_winTaken]

theorem windowWrite_otherSelect {idx sub : Nat} (address : a.addr.toNat = idx * 256 + sub) (table : tableRows idx ≠ 0)
    (other : sub = (if a.dbg then 0xFE else 0xFF)) : ∃ t, exec (.windowWrite a v) s = .next t ∧
      winNo t a.dbg a.addr.toNat rcNoAccess ∧ winOf t (!a.dbg) = winOf s (!a.dbg) := by
  have select : isRowSel idx sub = true := by
    unfold isRowSel
    rw [other]
    cases a.dbg <;> simp [table]
  have foreign : sub ≠ (if a.dbg then 0xFF else 0xFE) := by
    rw [other]
    cases a.dbg <;> decide
  have write := windowWrite_select (v := v) served enables address (by rw [other]; split <;> decide) select
  unfold rowSelWrite at write
  rw [if_pos foreign, winDone_no (by decide)] at write
  refine ⟨_, write, winNo_winRefuse .., ?_⟩
  rw [winOf_winRefuse_other, winOf_winTaken]

end

-- Commands with a row of their own

theorem exec_winCommand {c : Instr} {dbg : Bool} {idx sub row v : Nat} (h : winCommand c = some (dbg, idx, sub, row, v)) (s : State) :
    exec c s = .next (winCmd dbg idx sub row v s) := by
  have bool : ∀ b : Bool, boolNat b = b.toNat := by decide
  unfold winCommand at h
  split at h
  case h_15 => cases h
  case h_2 | h_7 | h_8 | h_9 | h_10 | h_11 =>
    cases h
    rw [← bool]
    rfl
  all_goals
    cases h
    rfl

theorem acc_of_found {idx sub : Nat} {o : Obj} {acc : ObjAcc} (all : (objFind idx sub).map Obj.acc = some acc)
    (found : objFind idx sub = some o) : o.acc = acc := by
  rw [found] at all
  exact Option.some.inj all

theorem linkReset_acc : ∀ p : Fin 128, (objFind (linkIdx p 1) 0x0A).map Obj.acc = some .cmd := by decide +kernel

theorem mpFlush_acc : ∀ m : Fin 16, (objFind (mpIdx m) 2).map Obj.acc = some .cmd := by decide +kernel

theorem iqFlush_acc : ∀ m : Fin 16, (objFind (iqIdx m) 1).map Obj.acc = some .rw := by decide +kernel

/-- The objects of the commands are neither read-only nor written by the engine alone. -/
theorem winCommand_acc {c : Instr} {dbg : Bool} {idx sub row v : Nat} (h : winCommand c = some (dbg, idx, sub, row, v)) {o : Obj}
    (found : objFind idx sub = some o) : ¬ (o.acc = .ro ∨ o.acc = .wk) := by
  unfold winCommand at h
  split at h
  case h_10 p _ =>
    cases h
    rw [acc_of_found (linkReset_acc p) found]
    decide
  case h_11 m _ =>
    cases h
    rw [acc_of_found (mpFlush_acc m) found]
    decide
  case h_14 m _ =>
    cases h
    rw [acc_of_found (iqFlush_acc m) found]
    decide
  case h_15 => cases h
  all_goals
    cases h
    cases found
    decide

theorem winCmd_refused {dbg : Bool} {idx sub row v : Nat} {rc : Byte} {s : State} (served : winServed s)
    (refused : dictWrite (winWho dbg) idx sub row v (winTaken dbg s) = (rc, winTaken dbg s)) (other : rc ≠ rcOk) :
    winCmd dbg idx sub row v s = winRefuse dbg (idx * 256 + sub) rc (winTaken dbg s) := by
  rw [winCmd_served served, refused, winDone_no other]

end Sys2Proof.Machine

namespace Sys2Proof
open Sys2Proof.Machine

/-- Settles O53: the plain accesses of the window. -/
theorem windowAccessesReachTheirObject : Obligations.WindowAccessesReachTheirObject := by
  unfold Obligations.WindowAccessesReachTheirObject
  refine ⟨fun a v c s hc running => ⟨fun unserved => ?_, fun served narrow => ?_, fun idx sub row rc hw refused => ?_⟩,
    fun a v c idx sub row o rc u s hc hw plain reached written => ?_, fun a idx sub row o v s hw plain reached value => ?_,
    fun a v idx sub s served enables address subFits => ⟨?_, ?_, fun table own small => ?_, fun table other => ?_⟩⟩
  · obtain ⟨go, runs, -⟩ := exec_winAccess hc
    rw [runs, winAccess_unserved running unserved]
    rfl
  · obtain ⟨go, runs, refuses⟩ := exec_winAccess hc
    have meets := runs s
    rw [winAccess_served ⟨running, served⟩, refuses narrow] at meets
    exact ⟨_, meets, winNo_winRefuse .., winRefuse_frame ..⟩
  · exact ⟨_, exec_window_refused hc hw refused, winNo_winRefuse .., winRefuse_frame ..⟩
  · have write : exec c s = .next (doWindowWrite a v.toNat s) := by
      rcases hc with rfl | rfl
      · rfl
      · rfl
    rw [doWindowWrite_object hw plain reached, written] at write
    refine ⟨_, write, ?_, fun other => ?_⟩
    · rintro rfl
      exact ⟨winOk_winAck _, winAck_frame ..⟩
    · rw [winDone_no other]
      exact ⟨winNo_winRefuse .., winRefuse_frame ..⟩
  · obtain ⟨⟨x, u⟩, read⟩ : ∃ r, objVal (decide ((winOf s a.dbg).view = 1#8)) o idx sub row (winTaken a.dbg s) = r := ⟨_, rfl⟩
    rw [read] at value
    dsimp only at value
    subst value
    have frame := objVal_frame read
    have registers : ∀ d, winOf u d = winOf s d := fun d => by
      rw [frame]
      exact winOf_winTaken a.dbg s d
    refine ⟨_, congrArg Host.Outcome.next (doWideValueRead_object hw plain reached read), rfl, fun i low high => ?_, ?_, ?_⟩
    · rw [winOf_winAck, winOf_winPut_same]
      exact wideLatch_wide _ low high
    · rw [winOf_winAck, winOf_winPut_other, registers]
    · rw [winAck_frame, winPut_frame, frame]
  · rintro rfl low high
    exact windowWrite_wide served enables address low high
  · rintro rfl rfl small
    exact windowWrite_view served enables address small
  · exact windowWrite_ownSelect served enables address table own small
  · exact windowWrite_otherSelect served enables address table other

/-- Settles O54: a command of the window is a write of its object, and is refused as one. -/
theorem windowCommandsMeetTheDictionary : Obligations.WindowCommandsMeetTheDictionary := by
  unfold Obligations.WindowCommandsMeetTheDictionary
  refine fun c dbg idx sub row v s command => ⟨fun running unserved => ?_, fun served rc refused => ?_⟩
  · rw [exec_winCommand command]
    unfold winCmd
    rw [winAccess_unserved running unserved]
    rfl
  · have runs := exec_winCommand command s
    have meets : dictWrite (winWho dbg) idx sub row v (winTaken dbg s) = (rc, winTaken dbg s) ∧ rc ≠ rcOk := by
      unfold dictWrite
      rcases refused with unreached | ⟨o, reached, ⟨zero, rfl⟩ | ⟨inner, outside, rfl⟩⟩
      · rw [unreached]
        exact ⟨rfl, objReach_error_ne_ok unreached⟩
      · rw [reached]
        exact ⟨if_pos zero, by decide⟩
      · rw [reached]
        unfold objWrite
        dsimp only
        rw [if_neg (by rw [inner]; decide), if_neg (winCommand_acc command (objReach_ok_find reached)), if_pos (.inl outside)]
        exact ⟨rfl, by decide⟩
    rw [winCmd_refused served meets.1 meets.2] at runs
    exact ⟨_, runs, winNo_winRefuse .., winRefuse_frame ..⟩

end Sys2Proof

/-! SUPPORT. Commands of a slot: changes that wait for their records, discarded slots, and the rekey queue. -/

namespace Sys2Proof.Machine

-- Changes that wait

/-- The changes that are queued, held or in the page commit in progress. -/
def nvWaiting (u : NvUnit) : List NvJob := u.jobs ++ u.held ++ (match u.page with
  | some p => p.jobs
  | none => [])

theorem actWaits_of_waiting {s : State} {a : NvAct} {j : NvJob} (waits : j ∈ nvWaiting s.nvu) (own : j.act = a) :
    actWaits s a = true := by
  have same : decide (j.act = a) = true := decide_eq_true own
  unfold nvWaiting at waits
  unfold actWaits
  dsimp only
  simp only [Bool.or_eq_true, List.any_eq_true]
  cases page : s.nvu.page with
  | none =>
    rw [page, List.append_nil, List.mem_append] at waits
    cases waits with
    | inl queued => exact .inl (.inl (.inl ⟨j, queued, same⟩))
    | inr held => exact .inl (.inl (.inr ⟨j, held, same⟩))
  | some p =>
    rw [page, List.mem_append, List.mem_append] at waits
    rcases waits with (queued | held) | taken
    · exact .inl (.inl (.inl ⟨j, queued, same⟩))
    · exact .inl (.inl (.inr ⟨j, held, same⟩))
    · exact .inr (List.any_eq_true.2 ⟨j, taken, same⟩)

/-- A page commit that is gathered takes or leaves every change. -/
theorem mem_nvGather (s : State) (l : List NvJob) (p : NvPage) (seen : List Nat) (j : NvJob) (here : j ∈ p.jobs ∨ j ∈ l) :
    j ∈ (nvGather s l p seen).1.jobs ∨ j ∈ (nvGather s l p seen).2 := by
  induction l generalizing p seen with
  | nil => exact here.elim .inl (fun none => absurd none List.not_mem_nil)
  | cons x l ih =>
    have passed : ∀ r, r = nvGather s l p seen → j ∈ r.1.jobs ∨ j ∈ x :: r.2 := fun r whole => by
      rw [List.mem_cons] at here ⊢
      rcases here with taken | rfl | later
      · have := ih p seen (.inl taken)
        rw [← whole] at this
        exact this.imp id .inr
      · exact .inr (.inl rfl)
      · have := ih p seen (.inr later)
        rw [← whole] at this
        exact this.imp id .inr
    unfold nvGather
    split
    · split
      · refine ih _ _ ?_
        dsimp only
        rw [List.mem_append, List.mem_singleton]
        rw [List.mem_cons] at here
        rcases here with taken | same | later
        · exact .inl (.inl taken)
        · exact .inl (.inr same)
        · exact .inr later
      · exact passed _ rfl
    · exact passed _ rfl

theorem nvKick_waiting {s : State} {j : NvJob} (waits : j ∈ nvWaiting s.nvu) : j ∈ nvWaiting (nvKick s).nvu := by
  unfold nvKick
  split
  · exact waits
  · split
    · exact waits
    · next free =>
      unfold nvWaiting at waits
      rw [free, List.append_nil, List.mem_append] at waits
      split
      · next first rest queue =>
        split
        · next a bs head =>
          have gathered := fun here => mem_nvGather s s.nvu.jobs { addr := a / 64 * 64, data := [], jobs := [] } [] j (.inr here)
          generalize nvGather s s.nvu.jobs { addr := a / 64 * 64, data := [], jobs := [] } [] = r at gathered ⊢
          obtain ⟨p, left⟩ := r
          dsimp only at gathered ⊢
          rw [foldl_raise _ jobNote_frame]
          unfold nvWaiting
          dsimp only
          rw [List.mem_append, List.mem_append]
          cases waits with
          | inl queued => exact (gathered queued).elim .inr (fun later => .inl (.inl later))
          | inr held => exact .inl (.inr held)
        · unfold nvWaiting
          rw [free, List.append_nil, List.mem_append]
          exact waits
      · next none =>
        have held : j ∈ s.nvu.held := waits.resolve_left fun queued => by
          rw [none] at queued
          exact absurd queued List.not_mem_nil
        unfold nvWaiting
        split
        · exact List.mem_append_left _ (List.mem_append_right _ held)
        · exact List.mem_append_left _ (List.mem_append_right _ held)

theorem nvPush_waiting (j : NvJob) (s : State) : j ∈ nvWaiting (nvPush j s).nvu := by
  unfold nvPush
  split
  · exact nvKick_waiting (List.mem_append_left _ (List.mem_append_left _ (List.mem_append_right _ List.mem_cons_self)))
  · exact List.mem_append_left _ (List.mem_append_right _ (List.mem_append_right _ List.mem_cons_self))

/-- A change whose records are queued waits. -/
theorem actWaits_nvPush {j : NvJob} {a : NvAct} (own : j.act = a) (s : State) : actWaits (nvPush j s) a = true :=
  actWaits_of_waiting (nvPush_waiting j s) own

theorem slotActivate_frame (k : Nat) (s : State) : slotActivate k s = { s with
    nvu := (slotActivate k s).nvu, regs := (slotActivate k s).regs, ev := (slotActivate k s).ev } := by
  unfold slotActivate
  dsimp only
  rw [nvPush_frame]
  split <;> rfl

theorem slotRetire_frame (k : Nat) (s : State) : slotRetire k s = { s with
    nvu := (slotRetire k s).nvu, regs := (slotRetire k s).regs, ev := (slotRetire k s).ev } := by
  unfold slotRetire
  exact nvPush_frame _ s

theorem slotSpent_frame (k : Nat) (s : State) : slotSpent k s = { s with
    nvu := (slotSpent k s).nvu, regs := (slotSpent k s).regs, ev := (slotSpent k s).ev } := by
  unfold slotSpent
  exact nvPush_frame _ s

-- DISCARD

theorem cfgVal_grantReset (kidx : Nat) (fits : kidx < 2 ^ 24) (s : State) {i : Nat} (low : i < 5) :
    cfgVal (grantReset kidx s) 0x5000 (i + 1) kidx = objDefault 0x5000 (i + 1) := by
  have reset : ∀ n, n ≤ 5 → i < n → cfgVal ((List.range n).foldl (fun s i =>
      cfgPut 0x5000 (i + 1) kidx (objDefault 0x5000 (i + 1)) s) s) 0x5000 (i + 1) kidx = objDefault 0x5000 (i + 1) := by
    intro n
    induction n with
    | zero => intro _ none; omega
    | succ n ih =>
      intro few below
      rw [List.range_succ, List.foldl_append, List.foldl_cons, List.foldl_nil]
      by_cases last : i = n
      · rw [last, cfgVal_cfgPut_same]
      · rw [cfgVal_cfgPut_ne _ _ _ _ _ _ _ _ fun same =>
          last (by have := ((okey_inj _ _ _ _ _ _ (by omega) (by omega) fits fits).1 same).2.1; omega)]
        exact ih (by omega) (by omega)
  exact reset 5 (Nat.le_refl 5) low

theorem slotDiscard_facts (k : Nat) (fits : k < 2 ^ 24) (s : State) :
    slotOf (slotDiscard k s) k = { matA := (slotOf s k).matA, rowBad := (slotOf s k).rowBad } ∧
    (∀ j, j ≠ k → slotOf (slotDiscard k s) j = slotOf s j) ∧ k ∈ (slotDiscard k s).keys.eraseNext ∧
    (∀ i, i < 5 → cfgVal (slotDiscard k s) 0x5000 (i + 1) k = objDefault 0x5000 (i + 1)) ∧
    slotDiscard k s = { s with keys := (slotDiscard k s).keys, cfg := (slotDiscard k s).cfg } := by
  unfold slotDiscard
  refine ⟨?_, fun j other => ?_, ?_, fun i low => cfgVal_grantReset k fits _ low, ?_⟩
  · rw [slotOf_grantReset]
    exact (slotOf_slotPut ..).trans (if_pos rfl)
  · rw [slotOf_grantReset]
    exact (slotOf_slotPut ..).trans (if_neg other)
  · rw [grantReset_frame]
    exact List.mem_cons_self
  · rw [grantReset_frame]
    rfl

-- The rekey queue

/-- A cause of a slot waits in the queue, or its pass is starting. -/
def causeWaits (k cause : Nat) (s : State) : Prop :=
  (∃ e ∈ s.rk.queue, e.kidx = k ∧ e.cause = cause) ∨
    ∃ n, (ctxOf s n).kidx = k ∧ (ctxOf s n).cause = cause ∧ (ctxOf s n).st = .starting

theorem rkEnqueue_waits (k cause : Nat) (s : State) : causeWaits k cause (rkEnqueue k cause s) := by
  unfold rkEnqueue
  split
  · next queued =>
    obtain ⟨e, here, same⟩ := List.any_eq_true.1 queued
    rw [Bool.and_eq_true, beq_iff_eq, beq_iff_eq] at same
    exact .inl ⟨e, here, same⟩
  · exact .inl ⟨_, List.mem_append_right _ List.mem_cons_self, rfl, rfl⟩

theorem rkEnqueue_frame (k cause : Nat) (s : State) : rkEnqueue k cause s = { s with rk := (rkEnqueue k cause s).rk } := by
  unfold rkEnqueue
  split <;> rfl

theorem ctxOf_congr {s t : State} (same : t.rk.ctxs = s.rk.ctxs) (n : Nat) : ctxOf t n = ctxOf s n := by
  unfold ctxOf
  rw [same]

/-- A start puts its context and takes its entry from the queue. -/
theorem ctxStart_rk (n : Nat) (e : RkEnt) (s : State) : ∃ c : Ctx, c.st = .starting ∧ c.kidx = e.kidx ∧ c.cause = e.cause ∧
    (ctxStart n e s).rk = (rkDequeue e.kidx e.cause (ctxPut n c s)).rk := by
  unfold ctxStart
  dsimp only
  rw [nvPush_frame]
  exact ⟨_, rfl, rfl, rfl, rfl⟩

theorem ctxStart_frame (n : Nat) (e : RkEnt) (s : State) : ctxStart n e s = { s with
    nvu := (ctxStart n e s).nvu, rk := (ctxStart n e s).rk, regs := (ctxStart n e s).regs, ev := (ctxStart n e s).ev } := by
  unfold ctxStart
  dsimp only
  rw [nvPush_frame]
  rfl

theorem ctxStart_waits {k cause n : Nat} {e : RkEnt} {s : State} (free : (ctxOf s n).st = .free) (waits : causeWaits k cause s) :
    causeWaits k cause (ctxStart n e s) := by
  obtain ⟨c, st, kidx, own, rk⟩ := ctxStart_rk n e s
  have ctx : ∀ m, ctxOf (ctxStart n e s) m = if m = n then c else ctxOf s m := fun m => by
    rw [ctxOf_congr (s := ctxPut n c s) (by rw [rk]; rfl), ctxOf_ctxPut]
  have queue : (ctxStart n e s).rk.queue = s.rk.queue.filter (fun f => !(f.kidx == e.kidx && f.cause == e.cause)) := by
    rw [rk]
    rfl
  rcases waits with ⟨f, queued, slot, why⟩ | ⟨m, slot, why, starting⟩
  · by_cases mine : f.kidx = e.kidx ∧ f.cause = e.cause
    · refine .inr ⟨n, ?_⟩
      rw [ctx, if_pos rfl, st, kidx, own, ← mine.1, ← mine.2]
      exact ⟨slot, why, rfl⟩
    · refine .inl ⟨f, ?_, slot, why⟩
      rw [queue, List.mem_filter, Bool.not_eq_true', Bool.and_eq_false_iff, beq_eq_false_iff_ne, beq_eq_false_iff_ne]
      exact ⟨queued, Decidable.not_and_iff_not_or_not.1 mine⟩
  · have other : m ≠ n := fun same => by
      rw [same, free] at starting
      cases starting
    refine .inr ⟨m, ?_⟩
    rw [ctx, if_neg other]
    exact ⟨slot, why, starting⟩

theorem rkFill_waits {k cause : Nat} (n : Nat) {s : State} (waits : causeWaits k cause s) : causeWaits k cause (rkFill n s) := by
  induction n generalizing s with
  | zero => exact waits
  | succ n ih =>
    unfold rkFill
    split
    · exact waits
    · next m free =>
      split
      · exact waits
      · have st := List.find?_some free
        exact ih (ctxStart_waits (eq_of_beq st) waits)

theorem rkFill_frame (n : Nat) (s : State) : rkFill n s = { s with
    nvu := (rkFill n s).nvu, rk := (rkFill n s).rk, regs := (rkFill n s).regs, ev := (rkFill n s).ev } := by
  induction n generalizing s with
  | zero => rfl
  | succ n ih =>
    unfold rkFill
    split
    · rfl
    · split
      · rfl
      · rw [ih, ctxStart_frame]

theorem rkSchedule_frame (s : State) : rkSchedule s = { s with
    nvu := (rkSchedule s).nvu, rk := (rkSchedule s).rk, regs := (rkSchedule s).regs, ev := (rkSchedule s).ev } := by
  unfold rkSchedule
  split
  · exact rkFill_frame 64 s
  · rfl

theorem rkSchedule_waits {k cause : Nat} {s : State} (waits : causeWaits k cause s) : causeWaits k cause (rkSchedule s) := by
  unfold rkSchedule
  split
  · exact rkFill_waits 64 waits
  · exact waits

theorem slotOf_rkSchedule (s : State) (k : Nat) : slotOf (rkSchedule s) k = slotOf s k :=
  slotOf_congr (by rw [rkSchedule_frame]) k

theorem nextGenCause_frame (k : Nat) (s : State) : nextGenCause k s = { s with
    keys := (nextGenCause k s).keys, nvu := (nextGenCause k s).nvu, rk := (nextGenCause k s).rk
    regs := (nextGenCause k s).regs, ev := (nextGenCause k s).ev } := by
  unfold nextGenCause
  dsimp only
  split
  · rfl
  · split
    · split
      · rfl
      · split
        · rfl
        · split
          · rw [slotSpent_frame]
            rfl
          · rfl
    · rw [rkEnqueue_frame]

section
variable {k : Nat} {s : State} (live : (slotOf s k).st = .active ∨ (slotOf s k).st = .rotating)
include live

theorem nextGen_admitted : ¬ ((slotOf s k).st ≠ .active ∧ (slotOf s k).st ≠ .rotating) :=
  fun neither => live.elim neither.1 neither.2

theorem nextGenCause_waits (more : (slotOf s k).gen ≠ 0xFFFFFFFF#32) : causeWaits k 2 (nextGenCause k s) := by
  unfold nextGenCause
  dsimp only
  rw [if_neg (nextGen_admitted live), if_neg more]
  exact rkEnqueue_waits ..

/-- At the last generation an ACTIVE slot, or one with two live generations, is to be SPENT (R116). -/
theorem nextGenCause_spent (last : (slotOf s k).gen = 0xFFFFFFFF#32) (due : (slotOf s k).st = .active ∨ (slotOf s k).two = true) :
    (slotOf (nextGenCause k s) k).spentDue = true := by
  unfold nextGenCause
  dsimp only
  rw [if_neg (nextGen_admitted live), if_pos last]
  split
  · next already => exact already
  · split
    · rw [slotOf_slotPut, if_pos rfl]
    · next one =>
      rw [if_pos (due.resolve_right one), slotOf_congr (s := slotPut k { slotOf s k with spentDue := true } s)
        (by rw [slotSpent_frame]), slotOf_slotPut, if_pos rfl]

theorem nextGenCause_left (last : (slotOf s k).gen = 0xFFFFFFFF#32) (rotating : (slotOf s k).st = .rotating)
    (one : (slotOf s k).two = false) : slotOf (nextGenCause k s) k = slotOf s k := by
  unfold nextGenCause
  dsimp only
  rw [if_neg (nextGen_admitted live), if_pos last]
  split
  · rfl
  · rw [if_neg (by rw [one]; decide), if_neg (by rw [rotating]; decide)]

end

-- The commands

theorem objReach_slotCmd {k : Nat} (fits : k < 32768) : ∃ o, objReach .l 0x4000 0x0A k = .ok o ∧ o.acc = .cmd ∧
    ∀ v, 1 ≤ v → v ≤ 3 → o.admits v = true := by
  have listed : ¬ (tableRows 0x4000 ≠ 0 ∧ tableRows 0x4000 ≤ k) := fun beyond => Nat.not_le.2 fits beyond.2
  refine ⟨_, (if_neg listed).trans rfl, rfl, fun v low high => ?_⟩
  obtain rfl | rfl | rfl : v = 1 ∨ v = 2 ∨ v = 3 := by omega
  · rfl
  · rfl
  · rfl

theorem objReach_rekeyReq {k : Nat} (fits : k < 32768) : ∃ o, objReach .l 0x4000 0x0C k = .ok o ∧ o.acc = .cmd ∧
    o.admits 1 = true := by
  have listed : ¬ (tableRows 0x4000 ≠ 0 ∧ tableRows 0x4000 ≤ k) := fun beyond => Nat.not_le.2 fits beyond.2
  exact ⟨_, (if_neg listed).trans rfl, rfl, rfl⟩

theorem rowZero_slot {k : BitVec 15} (some : k ≠ 0#15) : rowZero 0x4000 k.toNat = false := by
  have other : k.toNat ≠ 0 := fun zero => some (BitVec.eq_of_toNat_eq zero)
  unfold rowZero
  simp [other]

/-- ACTIVATE, DISCARD and RETIRE of SLOT_CMD, each where Table 06.4 permits it. -/
theorem slotCmd_activate {k : Nat} {s : State} (permitted : activateOk s k = true) : slotCmd k 1 s =
    (rcOk, if actWaits s (.activate k) then s else slotActivate k s) :=
  if_pos permitted

theorem slotCmd_discard {k : Nat} {s : State} (loaded : (slotOf s k).st = .loaded) :
    slotCmd k 2 s = (rcOk, slotDiscard k s) :=
  if_pos loaded

theorem slotCmd_retire {k : Nat} {s : State} (permitted : retireOk s k = true) : slotCmd k 3 s =
    (rcOk, if actWaits s (.retire k) then s else slotRetire k s) :=
  if_pos permitted

section
variable {k : BitVec 15} {s : State} (served : winServed s) (some : k ≠ 0#15)
include served some

theorem slotCmd_served {v : Nat} (low : 1 ≤ v) (high : v ≤ 3) : winCmd false 0x4000 0x0A k.toNat v s =
    winDone false 0x40000A (slotCmd k.toNat v (winTaken false s)) := by
  obtain ⟨o, reached, command, fits⟩ := objReach_slotCmd k.isLt
  have write := dictWrite_cmd reached (rowZero_slot some) command (fits v low high) (by decide) (winTaken false s)
  exact (winCmd_served served ..).trans (congrArg (winDone false 0x40000A) write)

theorem rekeyReq_served : exec (.rekeyReq false k 1) s =
    .next (winDone false 0x40000C (rekeyReqCmd k.toNat (winTaken false s))) := by
  obtain ⟨o, reached, command, fits⟩ := objReach_rekeyReq k.isLt
  have write := dictWrite_cmd reached (rowZero_slot some) command fits (by decide) (winTaken false s)
  exact congrArg Host.Outcome.next ((winCmd_served served ..).trans (congrArg (winDone false 0x40000C) write))

end

theorem slotOf_winTaken (dbg : Bool) (s : State) (k : Nat) : slotOf (winTaken dbg s) k = slotOf s k :=
  slotOf_congr (by rw [winTaken_frame]) k

theorem activateOk_winTaken (dbg : Bool) (s : State) (k : Nat) : activateOk (winTaken dbg s) k = activateOk s k := by
  rw [winTaken_frame]
  rfl

theorem retireOk_winTaken (dbg : Bool) (s : State) (k : Nat) : retireOk (winTaken dbg s) k = retireOk s k := by
  rw [winTaken_frame]
  rfl

end Sys2Proof.Machine

namespace Sys2Proof
open Sys2Proof.Machine

section
variable {k : BitVec 15} {s : State} (served : winServed s) (some : k ≠ 0#15)
include served some

theorem activate_permitted (permitted : activateOk s k.toNat = true) : ∃ t, exec (.activate false k) s = .next t ∧ winOk t ∧
    actWaits t (.activate k.toNat) = true ∧
    t = { winTaken false s with nvu := t.nvu, regs := t.regs, ev := t.ev, winOut := t.winOut } := by
  have runs : exec (.activate false k) s = .next _ := congrArg Host.Outcome.next (slotCmd_served served some (by decide) (by decide))
  rw [slotCmd_activate ((activateOk_winTaken ..).trans permitted), winDone_ok] at runs
  refine ⟨_, runs, winOk_winAck _, ?_, ?_⟩
  · show actWaits (if actWaits (winTaken false s) (.activate k.toNat) then winTaken false s
      else slotActivate k.toNat (winTaken false s)) (.activate k.toNat) = true
    split
    · next waits => exact waits
    · exact actWaits_nvPush rfl _
  · split
    · rfl
    · rw [slotActivate_frame]
      rfl

theorem retire_permitted (permitted : retireOk s k.toNat = true) : ∃ t, exec (.retire false k) s = .next t ∧ winOk t ∧
    actWaits t (.retire k.toNat) = true ∧
    t = { winTaken false s with nvu := t.nvu, regs := t.regs, ev := t.ev, winOut := t.winOut } := by
  have runs : exec (.retire false k) s = .next _ := congrArg Host.Outcome.next (slotCmd_served served some (by decide) (by decide))
  rw [slotCmd_retire ((retireOk_winTaken ..).trans permitted), winDone_ok] at runs
  refine ⟨_, runs, winOk_winAck _, ?_, ?_⟩
  · show actWaits (if actWaits (winTaken false s) (.retire k.toNat) then winTaken false s
      else slotRetire k.toNat (winTaken false s)) (.retire k.toNat) = true
    split
    · next waits => exact waits
    · exact actWaits_nvPush rfl _
  · split
    · rfl
    · rw [slotRetire_frame]
      rfl

/-- A command of a slot that Table 06.4 does not permit. -/
theorem slotCmd_refused {v : Nat} (low : 1 ≤ v) (high : v ≤ 3)
    (refused : slotCmd k.toNat v (winTaken false s) = (rcNotPermitted, winTaken false s)) :
    ∃ t, Host.Outcome.next (winCmd false 0x4000 0x0A k.toNat v s) = (.next t : Host.Outcome State Fault Refusal) ∧
      winNo t false 0x40000A rcNotPermitted ∧ t = { winTaken false s with winL := t.winL, winOut := t.winOut } := by
  have runs := slotCmd_served served some low high
  rw [refused, winDone_no (by decide)] at runs
  exact ⟨_, congrArg Host.Outcome.next runs, winNo_winRefuse .., winRefuse_local ..⟩

theorem discard_loaded (loaded : (slotOf s k.toNat).st = .loaded) : ∃ t, exec (.discard false k) s = .next t ∧ winOk t ∧
    slotOf t k.toNat = { matA := (slotOf s k.toNat).matA, rowBad := (slotOf s k.toNat).rowBad } ∧
    (∀ j, j ≠ k.toNat → slotOf t j = slotOf s j) ∧ k.toNat ∈ t.keys.eraseNext ∧
    (∀ i, i < 5 → cfgVal t 0x5000 (i + 1) k.toNat = objDefault 0x5000 (i + 1)) ∧
    t = { winTaken false s with keys := t.keys, cfg := t.cfg, winOut := t.winOut } := by
  have runs : exec (.discard false k) s = .next _ := congrArg Host.Outcome.next (slotCmd_served served some (by decide) (by decide))
  rw [slotCmd_discard ((congrArg Slot.st (slotOf_winTaken ..)).trans loaded), winDone_ok] at runs
  obtain ⟨slot, others, erased, grants, frame⟩ := slotDiscard_facts k.toNat (by omega) (winTaken false s)
  refine ⟨_, runs, winOk_winAck _, ?_, fun j other => ?_, erased, grants, ?_⟩
  · rw [← slotOf_winTaken false s]
    exact slot
  · rw [← slotOf_winTaken false s]
    exact others j other
  · rw [winAck_frame, frame]

theorem rekeyReq_permitted (live : (slotOf s k.toNat).st = .active ∨ (slotOf s k.toNat).st = .rotating) :
    ∃ t, exec (.rekeyReq false k 1) s = .next t ∧ winOk t ∧
      ((slotOf s k.toNat).gen ≠ 0xFFFFFFFF#32 → (∃ e ∈ t.rk.queue, e.kidx = k.toNat ∧ e.cause = 2) ∨
        ∃ n, (ctxOf t n).kidx = k.toNat ∧ (ctxOf t n).cause = 2 ∧ (ctxOf t n).st = .starting) ∧
      ((slotOf s k.toNat).gen = 0xFFFFFFFF#32 → (slotOf s k.toNat).st = .active ∨ (slotOf s k.toNat).two = true →
        (slotOf t k.toNat).spentDue = true) ∧
      ((slotOf s k.toNat).gen = 0xFFFFFFFF#32 → (slotOf s k.toNat).st = .rotating → (slotOf s k.toNat).two = false →
        slotOf t k.toNat = slotOf s k.toNat) ∧
      t = { winTaken false s with keys := t.keys, nvu := t.nvu, rk := t.rk, regs := t.regs, ev := t.ev, winOut := t.winOut } := by
  have runs := rekeyReq_served served some
  have slot := slotOf_winTaken false s k.toNat
  have liveHere : (slotOf (winTaken false s) k.toNat).st = .active ∨ (slotOf (winTaken false s) k.toNat).st = .rotating := by
    rw [slot]
    exact live
  unfold rekeyReqCmd at runs
  rw [if_pos liveHere, winDone_ok] at runs
  refine ⟨_, runs, winOk_winAck _, fun more => ?_, fun last due => ?_, fun last rotating one => ?_, ?_⟩
  · exact rkSchedule_waits (nextGenCause_waits liveHere (by rw [slot]; exact more))
  · show (slotOf (rkSchedule (nextGenCause k.toNat (winTaken false s))) k.toNat).spentDue = true
    rw [slotOf_rkSchedule]
    exact nextGenCause_spent liveHere (by rw [slot]; exact last) (by rw [slot]; exact due)
  · show slotOf (rkSchedule (nextGenCause k.toNat (winTaken false s))) k.toNat = _
    rw [slotOf_rkSchedule, nextGenCause_left liveHere (by rw [slot]; exact last) (by rw [slot]; exact rotating)
      (by rw [slot]; exact one), slot]
  · rw [winAck_frame, rkSchedule_frame, nextGenCause_frame]

end

/-- Settles O55: the commands of a slot. -/
theorem slotCommandsActOnTheirSlot : Obligations.SlotCommandsActOnTheirSlot := by
  unfold Obligations.SlotCommandsActOnTheirSlot
  rintro k x s served some rfl
  refine ⟨activate_permitted served some, fun refused => ?_, discard_loaded served some, fun other => ?_,
    retire_permitted served some, fun refused => ?_, rekeyReq_permitted served some, fun notActive notRotating => ?_⟩
  · refine slotCmd_refused served some (by decide) (by decide) (if_neg ?_)
    rw [activateOk_winTaken, refused]
    decide
  · refine slotCmd_refused served some (by decide) (by decide) (if_neg ?_)
    rw [slotOf_winTaken]
    exact other
  · refine slotCmd_refused served some (by decide) (by decide) (if_neg ?_)
    rw [retireOk_winTaken, refused]
    decide
  · have runs := rekeyReq_served served some
    unfold rekeyReqCmd at runs
    dsimp only at runs
    rw [if_neg (by rw [slotOf_winTaken]; exact not_or.2 ⟨notActive, notRotating⟩), winDone_no (by decide)] at runs
    exact ⟨_, runs, winNo_winRefuse .., winRefuse_local ..⟩

end Sys2Proof

/-! SUPPORT. Completions of requests: what an answer leaves, whom it reaches, and the items that end without an operation. -/

namespace Sys2Proof.Machine

-- Queues that only gain

/-- Every egress queue keeps its responses in order. -/
structure Queued (s t : State) : Prop where
  keeps : ∀ q, (eqOf s q).Sublist (eqOf t q)

namespace Queued
variable {s t u : State}

theorem refl (s : State) : Queued s s := ⟨fun _ => List.Sublist.refl _⟩

theorem trans (h : Queued s t) (g : Queued t u) : Queued s u := ⟨fun q => (h.keeps q).trans (g.keeps q)⟩

theorem of_pool (same : t.pool.eq = s.pool.eq) : Queued s t where
  keeps q := by
    have queue : eqOf t q = eqOf s q := congrArg (tabGet [] · q) same
    exact queue ▸ List.Sublist.refl _

theorem foldl {α : Type} (f : State → α → State) (h : ∀ s x, Queued s (f s x)) (l : List α) (s : State) :
    Queued s (l.foldl f s) := by
  induction l generalizing s with
  | nil => exact refl s
  | cons x l ih => exact (h s x).trans (ih _)

/-- One queue gains. -/
theorem put {p : Nat} {l : List Rsp} (gains : (eqOf s p).Sublist l) : Queued s (eqPut p l s) where
  keeps q := by
    rw [eqOf_eqPut]
    split
    · next same =>
      rw [same]
      exact gains
    · exact List.Sublist.refl _

end Queued

theorem partnerLink_queued (p : Nat) (r : Rsp) (s : State) : Queued s (partnerLink p r s) := by
  refine Queued.put ?_
  conv => lhs; rw [← List.takeWhile_append_dropWhile (p := rspPartner) (l := eqOf s p)]
  exact List.Sublist.append (List.Sublist.refl _) (List.sublist_cons_self ..)

theorem partnerPush_queued (p : Nat) (r : Rsp) (s : State) : Queued s (partnerPush p r s) := by
  unfold partnerPush
  split
  · exact partnerLink_queued ..
  · exact .of_pool rfl

theorem grantSend_queued (n p : Nat) (ks : List Nat) (s : State) : Queued s (grantSend n p ks s) := by
  induction n generalizing ks s with
  | zero => exact .refl s
  | succ n ih =>
    cases ks with
    | nil => exact .refl s
    | cons k ks =>
      rw [grantSend_cons]
      exact (Queued.of_pool (s := s) (t := { s with accts := acctsSent ((k :: ks).take 3) s.accts }) rfl).trans
        ((partnerPush_queued ..).trans (ih ..))

theorem grantBatch_queued (p : Nat) (s : State) : Queued s (grantBatch p s) := by
  unfold grantBatch
  dsimp only
  split
  · exact grantSend_queued ..
  · exact .refl s

theorem creditRaise_queued (k : Nat) (s : State) : Queued s (creditRaise k s) := .of_pool (by rw [creditRaise_frame])

theorem creditSettle_queued (p k : Nat) (s : State) : Queued s (creditSettle p k s) := by
  unfold creditSettle
  dsimp only
  split
  · exact (creditRaise_queued k s).trans ((Queued.foldl _ (fun s k => creditRaise_queued k s) _ _).trans
      (Queued.foldl _ (fun s p => grantBatch_queued p s) _ _))
  · exact (creditRaise_queued k s).trans (grantBatch_queued ..)

-- Answers

/-- What a completion may change while the queues are sound: responses join, cells are released, fates are noted and
completions counted (R192, R193, R196, R203, R239). -/
structure Answered (s t : State) : Prop where
  queues : Queued s t
  links : ∀ q, linkOf t q = { linkOf s q with feed := (linkOf t q).feed, fates := (linkOf t q).fates }
  pool : t.pool = { s.pool with
    eq := t.pool.eq, dmOut := t.pool.dmOut, dmAt := t.pool.dmAt, orphans := t.pool.orphans }
  frame : t = { s with regs := t.regs, links := t.links, accts := t.accts, pastAccts := t.pastAccts, pool := t.pool }

namespace Answered
variable {s t u : State}

theorem refl (s : State) : Answered s s := ⟨.refl s, fun _ => rfl, rfl, rfl⟩

theorem trans (h : Answered s t) (g : Answered t u) : Answered s u where
  queues := h.queues.trans g.queues
  links q := by rw [g.links q, h.links q]
  pool := by rw [g.pool, h.pool]
  frame := by rw [g.frame, h.frame]

theorem of_regs (h : t = { s with regs := t.regs }) : Answered s t where
  queues := .of_pool (by rw [h])
  links q := by rw [linkOf_congr (s := s) (t := t) (by rw [h])]
  pool := by rw [h]
  frame := by rw [h]

theorem of_accts (accts : Tab Acct) (s : State) : Answered s { s with accts := accts } := ⟨.of_pool rfl, fun _ => rfl, rfl, rfl⟩

theorem of_fed (fed : CreditFed s t) (queues : Queued s t) : Answered s t where
  queues := queues
  links q := by rw [fed.links q]
  pool := by rw [fed.pool]
  frame := by rw [fed.frame]

theorem eqSound (h : Answered s t) {src : Src} (sound : Machine.eqSound s src) : Machine.eqSound t src := fun p own => by
  rw [h.pool]
  exact sound p own

theorem items (h : Answered s t) : t.pool.items = s.pool.items := by rw [h.pool]

theorem txns (h : Answered s t) : t.pool.txns = s.pool.txns := by rw [h.pool]

end Answered

theorem creditRelease_answered (p sid n : Nat) (s : State) : Answered s (creditRelease p sid n s) := by
  unfold creditRelease
  dsimp only
  split
  · exact .refl s
  · exact (Answered.of_accts _ s).trans (.of_fed (creditSettle_creditFed ..) (creditSettle_queued ..))

theorem linkFate_answered (p : Nat) (f : FateEnt) (s : State) : Answered s (linkFate p f s) where
  queues := .of_pool rfl
  links q := by
    unfold linkFate
    rw [linkOf_linkMod]
    split
    · next same => rw [same]
    · rfl
  pool := rfl
  frame := rfl

theorem orphanAdd_answered (i : Item) (s : State) : Answered s (orphanAdd i s) := ⟨.of_pool rfl, fun _ => rfl, rfl, rfl⟩

theorem masterRespond_answered (n : Nat) (r : Rsp) (s : State) : Answered s (masterRespond n r s) :=
  ⟨.of_pool rfl, fun _ => rfl, rfl, rfl⟩

/-- A response finds its queue sound, or is known by its fate alone. -/
def sendsSound (s : State) (src : Src) (gone : Bool) : Prop := gone = false → eqSound s src

theorem rspSend_answered {src : Src} {sid : BitVec 12} {gone : Bool} {r : Rsp} {cells : Nat} {s : State}
    (sound : sendsSound s src gone) : Answered s (rspSend src sid gone r cells s) := by
  unfold rspSend
  split
  · next p =>
    split
    · dsimp only
      split
      · exact (linkFate_answered ..).trans (creditRelease_answered ..)
      · exact creditRelease_answered ..
    · next here =>
      rw [eqJoin_sound (sound (by simpa using here) p rfl)]
      refine Answered.trans ⟨.put (List.sublist_append_left ..), fun _ => rfl, rfl, rfl⟩ (creditRelease_answered ..)
  · exact masterRespond_answered ..

/-- A response that is sent reaches its source. -/
theorem mem_rspSend {src : Src} {sid : BitVec 12} {r : Rsp} {cells : Nat} {s : State} (sound : eqSound s src) :
    r ∈ rspsOf (rspSend src sid false r cells s) src := by
  cases src with
  | link p =>
    show r ∈ eqOf (creditRelease p.val sid.toNat (cells - 1) (eqJoin p.val r s)) p.val
    rw [eqJoin_sound (sound p rfl)]
    refine ((creditRelease_answered ..).queues.keeps p.val).subset ?_
    rw [eqOf_eqPut_same]
    exact List.mem_append_right _ List.mem_cons_self
  | master n =>
    have whole : (n.val, r) ∈ (masterRespond n.val r s).pool.dmOut := List.mem_append_right _ List.mem_cons_self
    exact List.mem_map.2 ⟨(n.val, r), List.mem_filter.2 ⟨whole, beq_self_eq_true _⟩, rfl⟩

/-- The response that a completion forms (R168, R180). -/
def answer (it : Item) (status : Nat) (data : Option Line) (psn : Bool) (extra : Side) : Rsp :=
  { op := if opReads it.op then (if data.isSome then 0x81#8 else 0x82#8) else 0x83#8
    status := BitVec.ofNat 8 status, psn := psn && data.isSome, sid := it.h.sid, tag := it.h.tag, extra := extra, data := data
    arr := it.arr, counted := opReads it.op && it.op != .readTag }

theorem complete_eq (it : Item) (status : Nat) (data : Option Line) (psn : Bool) (extra : Side) (cells : Nat) (s : State) :
    complete it status data psn extra cells s =
      rspSend it.src it.h.sid it.gone (answer it status data psn extra) cells (rspStats it.src it.op status s) := rfl

section
variable {it : Item} {status : Nat} {data : Option Line} {psn : Bool} {extra : Side} {cells : Nat} {s : State}

theorem rspStats_answered (src : Src) (op : ReqOp) (status : Nat) (s : State) : Answered s (rspStats src op status s) :=
  .of_regs (rspStats_frame ..)

theorem complete_answered (sound : sendsSound s it.src it.gone) : Answered s (complete it status data psn extra cells s) := by
  rw [complete_eq]
  have counted := rspStats_answered it.src it.op status s
  exact counted.trans (rspSend_answered fun here => counted.eqSound (sound here))

theorem mem_complete (here : it.gone = false) (sound : eqSound s it.src) :
    answer it status data psn extra ∈ rspsOf (complete it status data psn extra cells s) it.src := by
  rw [complete_eq, here]
  exact mem_rspSend ((rspStats_answered ..).eqSound sound)

theorem completeBare_answered (sound : sendsSound s it.src it.gone) : Answered s (completeBare it status cells s) :=
  complete_answered sound

theorem mem_completeBare (here : it.gone = false) (sound : eqSound s it.src) :
    answer it status none false 0 ∈ rspsOf (completeBare it status cells s) it.src := mem_complete here sound

/-- An item whose cells are still to come leaves them as orphans (R196). -/
def orphaned (i : Item) (s : State) : State := if i.stored.isSome then s else orphanAdd i s

theorem orphaned_answered (i : Item) (s : State) : Answered s (orphaned i s) := by
  unfold orphaned
  split
  · exact .refl s
  · exact orphanAdd_answered ..

theorem itemOut_eq (i : Item) (status : Nat) (s : State) :
    itemOut i status s = completeBare i status (i.stored.getD (landed s i)) (orphaned i s) := rfl

theorem itemOut_answered (sound : sendsSound s it.src it.gone) : Answered s (itemOut it status s) := by
  rw [itemOut_eq]
  have orphans := orphaned_answered it s
  exact orphans.trans (completeBare_answered fun here => orphans.eqSound (sound here))

theorem mem_itemOut (here : it.gone = false) (sound : eqSound s it.src) :
    answer it status none false 0 ∈ rspsOf (itemOut it status s) it.src := by
  rw [itemOut_eq]
  exact mem_completeBare here ((orphaned_answered ..).eqSound sound)

theorem itemFlushed_answered (sound : sendsSound s it.src it.gone) : Answered s (itemFlushed it s) := by
  unfold itemFlushed
  have counted : Answered s (count1 (iqIdx (it.q / 8)) 0x21 0 s) := .of_regs rfl
  exact counted.trans (itemOut_answered fun here => counted.eqSound (sound here))

theorem mem_itemFlushed (here : it.gone = false) (sound : eqSound s it.src) :
    answer it stFlushed none false 0 ∈ rspsOf (itemFlushed it s) it.src := mem_itemOut here sound

end

end Sys2Proof.Machine

/-! SUPPORT. Commands of the units: the tag cache, Jack, links, media ports, masters, alerts and the ingress queues. -/

namespace Sys2Proof.Machine

-- What an object admits

/-- Local firmware reaches an object of an access kind, which admits every value below a bound. -/
def admitsBelow (idx sub : Nat) (acc : ObjAcc) (n : Nat) : Bool :=
  (objReach .l idx sub 0).toOption.any (fun o => decide (o.acc = acc) && (List.range n).all o.admits)

theorem reached_of_admitsBelow {idx sub n : Nat} {acc : ObjAcc} (all : admitsBelow idx sub acc n = true) :
    ∃ o, objReach .l idx sub 0 = .ok o ∧ o.acc = acc ∧ ∀ v, v < n → o.admits v = true := by
  unfold admitsBelow at all
  cases reached : objReach .l idx sub 0 with
  | error rc =>
    rw [reached] at all
    cases all
  | ok o =>
    rw [reached] at all
    have both : (decide (o.acc = acc) && (List.range n).all o.admits) = true := all
    rw [Bool.and_eq_true, decide_eq_true_iff, List.all_eq_true] at both
    exact ⟨o, rfl, both.1, fun v low => both.2 v (List.mem_range.2 low)⟩

theorem rowZero_unit {idx : Nat} (low : idx < 0x4000 ∨ 0x5000 < idx) : rowZero idx 0 = false := by
  unfold rowZero
  rw [Bool.and_eq_false_iff, Bool.or_eq_false_iff, decide_eq_false_iff_not, decide_eq_false_iff_not]
  exact .inl ⟨by omega, by omega⟩

section
variable {s : State} (served : winServed s)
include served

/-- A write of a CMD object of the units by local firmware. -/
theorem winCmd_unit {idx sub n v : Nat} (all : admitsBelow idx sub .cmd n = true) (fits : v < n)
    (unit : idx < 0x4000 ∨ 0x5000 < idx) : winCmd false idx sub 0 v s =
    winDone false (idx * 256 + sub) (cmdWrite .l idx sub 0 v (winTaken false s)) := by
  obtain ⟨o, reached, command, admits⟩ := reached_of_admitsBelow all
  exact (winCmd_served served ..).trans (congrArg (winDone false (idx * 256 + sub))
    (dictWrite_cmd reached (rowZero_unit unit) command (admits v fits) (by omega) _))

end

-- The tag cache

theorem fetchAsk_writeback (tl kidx : Nat) (s : State) : fetchAsk tl kidx [] true s = { s with
    tagc := { s.tagc with fetches := (fetchAsk tl kidx [] true s).tagc.fetches }
    regs := (fetchAsk tl kidx [] true s).regs } := by
  unfold fetchAsk
  split
  · rfl
  · split <;> rfl

theorem wbFetches_frame (s : State) : wbFetches s = { s with
    tagc := { s.tagc with fetches := (wbFetches s).tagc.fetches }, regs := (wbFetches s).regs } := by
  unfold wbFetches
  generalize s.tagc.ways = l
  induction l generalizing s with
  | nil => rfl
  | cons e l ih =>
    rw [List.foldl_cons, ih]
    split
    · rw [fetchAsk_writeback]
    · rfl

/-- Every dirty line is waited for. -/
theorem tagFlush_waits {s : State} {e : Nat × TagWay} (way : e ∈ s.tagc.ways) (dirty : e.2.dirty = true) :
    ∃ f ∈ (tagFlush s).tagc.flushSet, f.1 = e.2.addr := by
  unfold tagFlush
  dsimp only
  rw [wbFetches_frame]
  refine ⟨(e.2.addr, s.mseq), List.mem_append_right _ (List.mem_filterMap.2 ⟨e, way, ?_⟩), rfl⟩
  rw [dirty]
  rfl

theorem tagFlush_ways (s : State) : (tagFlush s).tagc.ways.map (fun e => (e.1, { e.2 with askedAt := none })) =
    s.tagc.ways.map (fun e => (e.1, { e.2 with askedAt := none })) := by
  unfold tagFlush
  dsimp only
  rw [wbFetches_frame]
  dsimp only
  rw [List.map_map]
  refine List.map_congr_left fun e _ => ?_
  dsimp only [Function.comp]
  split <;> rfl

theorem tagFlush_frame (s : State) : tagFlush s = { s with tagc := (tagFlush s).tagc, regs := (tagFlush s).regs } := by
  unfold tagFlush
  dsimp only
  rw [wbFetches_frame]

-- Masters

/-- No tag of a master is outstanding. -/
def masterDone (s : State) (n : Nat) : Prop := ∃ h : n < 8, tagsOf s (.master ⟨n, h⟩) = []

theorem masterBack_frame (s : State) (n : Nat) : masterBack s n = { s with pool := { s.pool with
    masterStop := (masterBack s n).pool.masterStop, masterReset := (masterBack s n).pool.masterReset } } := by
  unfold masterBack
  split
  · split <;> rfl
  · rfl

theorem masterDone_masterBack (s : State) (n k : Nat) : masterDone (masterBack s n) k ↔ masterDone s k := by
  rw [masterBack_frame]
  rfl

/-- A master whose tags have completed comes back; any other stays as it was. -/
theorem mem_masterBack (s : State) (n k : Nat) :
    (k ∈ (masterBack s n).pool.masterStop ↔ k ∈ s.pool.masterStop ∧ ¬ (k = n ∧ masterDone s k)) ∧
    (k ∈ (masterBack s n).pool.masterReset ↔ k ∈ s.pool.masterReset ∧ ¬ (k = n ∧ masterDone s k)) := by
  unfold masterBack
  split
  · next low =>
    split
    · next free =>
      have done : ∀ l : List Nat, k ∈ l.filter (fun j => j != n) ↔ k ∈ l ∧ ¬ (k = n ∧ masterDone s k) := fun l => by
        rw [List.mem_filter, bne_iff_ne]
        exact and_congr_right fun _ => ⟨fun other both => other both.1, fun none same =>
          none ⟨same, same ▸ ⟨low, free⟩⟩⟩
      exact ⟨done _, done _⟩
    · next busy =>
      have waits : ¬ (k = n ∧ masterDone s k) := fun ⟨same, _, free⟩ => by
        subst same
        exact busy free
      exact ⟨(and_iff_left waits).symm, (and_iff_left waits).symm⟩
  · next high =>
    have waits : ¬ (k = n ∧ masterDone s k) := fun ⟨same, low, _⟩ => high (same ▸ low)
    exact ⟨(and_iff_left waits).symm, (and_iff_left waits).symm⟩

theorem and_not_and_or {a b c d : Prop} : (a ∧ ¬ (b ∧ d)) ∧ ¬ (c ∧ d) ↔ a ∧ ¬ ((b ∨ c) ∧ d) := by
  rw [or_and_right, not_or, and_assoc]

theorem foldl_masterBack (l : List Nat) (s : State) :
    l.foldl masterBack s = { s with pool := { s.pool with
      masterStop := (l.foldl masterBack s).pool.masterStop, masterReset := (l.foldl masterBack s).pool.masterReset } } ∧
    ∀ k, (k ∈ (l.foldl masterBack s).pool.masterStop ↔ k ∈ s.pool.masterStop ∧ ¬ (k ∈ l ∧ masterDone s k)) ∧
      (k ∈ (l.foldl masterBack s).pool.masterReset ↔ k ∈ s.pool.masterReset ∧ ¬ (k ∈ l ∧ masterDone s k)) := by
  induction l generalizing s with
  | nil => exact ⟨rfl, fun k => by simp⟩
  | cons n l ih =>
    obtain ⟨frame, mem⟩ := ih (masterBack s n)
    rw [List.foldl_cons]
    refine ⟨by rw [frame, masterBack_frame], fun k => ?_⟩
    obtain ⟨stop, reset⟩ := mem k
    obtain ⟨stopOne, resetOne⟩ := mem_masterBack s n k
    rw [stop, reset, stopOne, resetOne, masterDone_masterBack, List.mem_cons]
    exact ⟨and_not_and_or, and_not_and_or⟩

/-- The stopped masters that a value of MASTER_RESET names. -/
def mastersNamed (v : Nat) (s : State) : List Nat :=
  (List.range 5).filter (fun n => v.testBit n && s.pool.masterStop.contains n)

theorem mem_mastersNamed (v : Nat) (s : State) (n : Nat) :
    n ∈ mastersNamed v s ↔ n < 5 ∧ v.testBit n = true ∧ n ∈ s.pool.masterStop := by
  unfold mastersNamed
  rw [List.mem_filter, List.mem_range, Bool.and_eq_true, List.contains_iff_mem]

theorem mem_foldl_insertNat (l : List Nat) (t : List Nat) (n : Nat) :
    n ∈ l.foldl (fun t n => insertNat n t) t ↔ n ∈ l ∨ n ∈ t := by
  induction l generalizing t with
  | nil => simp
  | cons k l ih =>
    rw [List.foldl_cons, ih, mem_insertNat, List.mem_cons, or_assoc]
    exact or_left_comm

/-- The state in which the named masters are to come back. -/
def mastersAsked (v : Nat) (s : State) : State := { s with pool := { s.pool with
  masterReset := (mastersNamed v s).foldl (fun t n => insertNat n t) s.pool.masterReset } }

theorem masterResetCmd_eq (v : Nat) (s : State) : masterResetCmd v s = (mastersNamed v s).foldl masterBack (mastersAsked v s) :=
  rfl

theorem masterDone_mastersAsked (v : Nat) (s : State) (n : Nat) : masterDone (mastersAsked v s) n ↔ masterDone s n := Iff.rfl

theorem masterResetCmd_facts (v : Nat) (s : State) :
    (∀ n, n < 5 → v.testBit n = true → n ∈ s.pool.masterStop →
      (masterDone s n → n ∉ (masterResetCmd v s).pool.masterStop) ∧
      (¬ masterDone s n → n ∈ (masterResetCmd v s).pool.masterStop ∧ n ∈ (masterResetCmd v s).pool.masterReset)) ∧
    (∀ n, v.testBit n = false → (n ∈ (masterResetCmd v s).pool.masterStop ↔ n ∈ s.pool.masterStop)) ∧
    masterResetCmd v s = { s with pool := (masterResetCmd v s).pool } := by
  rw [masterResetCmd_eq]
  obtain ⟨frame, mem⟩ := foldl_masterBack (mastersNamed v s) (mastersAsked v s)
  refine ⟨fun n low named stopped => ?_, fun n plain => ?_, by rw [frame]; rfl⟩
  · obtain ⟨stop, reset⟩ := mem n
    have here : n ∈ mastersNamed v s := (mem_mastersNamed v s n).2 ⟨low, named, stopped⟩
    have asked : n ∈ (mastersAsked v s).pool.masterReset := (mem_foldl_insertNat ..).2 (.inl here)
    rw [stop, reset, masterDone_mastersAsked]
    exact ⟨fun done both => both.2 ⟨here, done⟩, fun busy => ⟨⟨stopped, fun both => busy both.2⟩, asked, fun both => busy both.2⟩⟩
  · rw [(mem n).1]
    refine and_iff_left fun both => ?_
    rw [((mem_mastersNamed v s n).1 both.1).2.1] at plain
    cases plain

end Sys2Proof.Machine

/-! SUPPORT. The flush of ingress queues: its flags, the items that leave, and those that stay. -/

namespace Sys2Proof.Machine

-- The flags of the queues

/-- A note of another register keeps the flush bits of a port. -/
theorem regVal_iqFlags_ne {m idx sub : Nat} (fits : sub < 256) (other : idx ≠ iqIdx m ∨ sub ≠ 1) :
    okey (iqIdx m) 1 0 ≠ okey idx sub 0 := fun same => by
  obtain ⟨index, field, -⟩ := (okey_inj _ _ _ _ _ _ (by decide) fits (by decide) (by decide)).1 same
  exact other.elim (fun ne => ne index.symm) (fun ne => ne field.symm)

theorem iqFlags_quiet {m : Nat} (port : m < 16) : RegQuiet (iqIdx m) 1 0 where
  subFits := by decide
  rowFits := by decide
  noSource := by unfold iqIdx; omega
  noAlert := .inl (by unfold iqIdx; omega)
  noReport := .inl (by unfold iqIdx; omega)

/-- What the end of items may change, whatever the pointers of the queues that answer them: no item is new, and the flush
bits stay (R196, R199, R203). -/
structure Lessened (s t : State) : Prop where
  items : ∀ i ∈ t.pool.items, ∃ j ∈ s.pool.items, i.q = j.q ∧ i.t0 = j.t0
  flags : ∀ m, m < 16 → regVal t (iqIdx m) 1 0 = regVal s (iqIdx m) 1 0
  frame : t = { s with regs := t.regs, ev := t.ev, links := t.links, accts := t.accts, pastAccts := t.pastAccts, pool := t.pool }

namespace Lessened
variable {s t u : State}

theorem refl (s : State) : Lessened s s := ⟨fun i here => ⟨i, here, rfl, rfl⟩, fun _ _ => rfl, rfl⟩

theorem trans (h : Lessened s t) (g : Lessened t u) : Lessened s u where
  items i here := by
    obtain ⟨j, there, q, t0⟩ := g.items i here
    obtain ⟨k, first, q', t0'⟩ := h.items j there
    exact ⟨k, first, q.trans q', t0.trans t0'⟩
  flags m port := (g.flags m port).trans (h.flags m port)
  frame := by rw [g.frame, h.frame]

theorem foldl {α : Type} (f : State → α → State) (l : List α) (h : ∀ s, ∀ x ∈ l, Lessened s (f s x)) (s : State) :
    Lessened s (l.foldl f s) := by
  induction l generalizing s with
  | nil => exact refl s
  | cons x l ih => exact (h s x List.mem_cons_self).trans (ih (fun s y there => h s y (List.mem_cons_of_mem _ there)) _)

theorem of_note (regs : ∀ m, m < 16 → regVal t (iqIdx m) 1 0 = regVal s (iqIdx m) 1 0)
    (h : t = { s with regs := t.regs, ev := t.ev }) : Lessened s t :=
  ⟨fun i here => ⟨i, (by rw [h] at here; exact here), rfl, rfl⟩, regs, by rw [h]⟩

theorem of_answered (h : Answered s t) (regs : t.regs = s.regs) : Lessened s t :=
  ⟨fun i here => ⟨i, h.items ▸ here, rfl, rfl⟩, fun m _ => regVal_congr regs .., by rw [h.frame]⟩

theorem count {idx sub : Nat} (fits : sub < 256) (other : (∀ m, m < 16 → idx ≠ iqIdx m) ∨ sub ≠ 1) (s : State) :
    Lessened s (count1 idx sub 0 s) :=
  of_note (fun m port => regVal_countUp_ne (regVal_iqFlags_ne fits (other.imp_left fun ne => ne m port))) rfl

theorem raise {e : Ev} {src p1 p2 p3 : Nat} (fits : src < 2 ^ 24) (s : State) : Lessened s (Machine.raise e src p1 p2 p3 s) :=
  of_note (fun _ port => regVal_raise_quiet fits (iqFlags_quiet port)) (raise_frame ..)

/-- A change of links alone, or of the pool without its items. -/
theorem of_parts (items : t.pool.items = s.pool.items) (h : t = { s with links := t.links, pool := t.pool }) : Lessened s t :=
  ⟨fun i here => ⟨i, items ▸ here, rfl, rfl⟩, fun m _ => by rw [regVal_congr (s := s) (t := t) (by rw [h])], by rw [h]⟩

end Lessened

theorem linkDropPool_lessened (p : Nat) (s : State) : Lessened s (linkDropPool p s) := by
  unfold linkDropPool
  dsimp only
  generalize hu : eqPut p [] (linkPut p _ s) = u
  have put : Lessened s u := by
    rw [← hu]
    exact .of_parts rfl rfl
  have released := Lessened.foldl (fun s r => if rspPartner r then s else creditRelease p r.sid.toNat 1 s) (eqOf s p)
    (fun s r _ => by
      split
      · exact .refl s
      · exact .of_answered (creditRelease_answered ..) (by rw [creditRelease_frame])) u
  refine (put.trans released).trans ?_
  generalize (eqOf s p).foldl _ u = w
  refine ⟨fun i here => ?_, fun _ _ => rfl, rfl⟩
  obtain ⟨j, there, rfl⟩ := List.mem_map.1 here
  refine ⟨j, there, ?_⟩
  split <;> exact ⟨rfl, rfl⟩

theorem linkIdx_ne_iqIdx {p : Nat} (port : p < 128) (m g : Nat) (group : g < 16) : linkIdx p g ≠ iqIdx m := by
  unfold linkIdx iqIdx
  omega

theorem linkDown_lessened {p : Nat} (port : p < 128) (c : Nat) (s : State) : Lessened s (linkDown p c s) := by
  have counted : ∀ a, Lessened a (count1 (linkIdx p 1) 8 0 a) := .count (by decide) (.inl fun m _ =>
    linkIdx_ne_iqIdx port m 1 (by decide))
  have total : ∀ a, Lessened a (count1 0x6000 8 0 a) := .count (by decide) (.inl fun m _ => by unfold iqIdx; omega)
  have caused : ∀ a, Lessened a (regPut (linkIdx p 1) 9 0 c a) := fun a =>
    .of_note (fun m _ => regVal_regPut_ne _ _ _ _ _ _ _ _ (regVal_iqFlags_ne (by decide)
      (.inl (linkIdx_ne_iqIdx port m 1 (by decide))))) rfl
  have changed : ∀ f a, Lessened a (linkMod p f a) := fun f a => .of_parts rfl rfl
  unfold linkDown
  exact (Lessened.raise (by unfold srcLink; omega) s).trans ((counted _).trans ((total _).trans ((caused _).trans
    ((linkDropPool_lessened p _).trans (changed _ _)))))

theorem queueNewId_lessened (q : Nat) (s : State) : Lessened s (queueNewId q s).2 := by
  unfold queueNewId
  split <;> exact .of_parts rfl rfl

theorem egressStuck_lessened (p : Nat) (s : State) : Lessened s (egressStuck p s) := by
  have emptied : Lessened s (eqPut p [] s) := .of_parts rfl rfl
  have held : ∀ n (a : State), Lessened a { a with pool := { a.pool with stuck := n } } := fun n a => .of_parts rfl rfl
  unfold egressStuck
  exact (emptied.trans (.foldl (fun s f => linkFate p f s) _ (fun s f _ => .of_answered (linkFate_answered ..) rfl) _)).trans
    (held _ _)

theorem queueSrc_small {q : Nat} (fits : q < 384) : queueSrc q < 2 ^ 24 := by
  unfold queueSrc srcMedia srcLink
  split <;> omega

/-- The reset of an egress queue, which may take its link down. -/
theorem egressReset_lessened {q : Nat} (egress : 128 ≤ q) (fits : q < 384) (field : Nat) (s : State) :
    Lessened s (egressReset q field s) := by
  have port : (q - 128) / 2 < 128 := by omega
  have mended : Lessened s (ptrMend q s) := .of_parts rfl rfl
  have counted : ∀ a, Lessened a (count1 0x6090 3 0 a) := .count (by decide) (.inl fun m _ => by unfold iqIdx; omega)
  have taken : ∀ a, Lessened a (count1 (0x3008 + 16 * ((q - 128) / 2)) 3 0 a) :=
    .count (by decide) (.inl fun m _ => by unfold iqIdx; omega)
  have fault : ∀ a, Lessened a (raise .poolFault (srcGlobal 25) q 0 0 a) := .raise (by decide)
  unfold egressReset
  dsimp only
  generalize hu : raise .qPtrMismatch _ _ _ _ _ = u
  have reported : Lessened s u := by
    rw [← hu]
    exact (mended.trans (counted _)).trans (.raise (queueSrc_small fits) _)
  have renewed := queueNewId_lessened q u
  generalize queueNewId q u = r at renewed ⊢
  obtain ⟨ok, v⟩ := r
  refine (reported.trans renewed).trans ?_
  dsimp only
  split
  · split
    · exact (taken v).trans (linkDown_lessened port 2 _)
    · exact ((fault v).trans (egressStuck_lessened ..)).trans ((taken _).trans (linkDown_lessened port 2 _))
  · split
    · exact .refl v
    · exact fault v

theorem eqJoin_lessened {p : Nat} (port : p < 128) (r : Rsp) (s : State) : Lessened s (eqJoin p r s) := by
  unfold eqJoin
  dsimp only
  have put : Lessened s (eqPut p (eqOf s p ++ [r]) s) := .of_parts rfl rfl
  split
  · exact put.trans (egressReset_lessened (by omega) (by omega) _ _)
  · exact put

theorem rspSend_lessened (src : Src) (sid : BitVec 12) (gone : Bool) (r : Rsp) (cells : Nat) (s : State) :
    Lessened s (rspSend src sid gone r cells s) := by
  have released : ∀ p n (s : State), Lessened s (creditRelease p sid.toNat n s) := fun p n s =>
    .of_answered (creditRelease_answered ..) (by rw [creditRelease_frame])
  unfold rspSend
  split
  · next p =>
    split
    · dsimp only
      split
      · exact (Lessened.of_answered (linkFate_answered ..) rfl).trans (released ..)
      · exact released ..
    · exact (eqJoin_lessened p.isLt ..).trans (released ..)
  · exact .of_answered (masterRespond_answered ..) rfl

theorem rspStats_lessened (src : Src) (op : ReqOp) (status : Nat) (s : State) : Lessened s (rspStats src op status s) := by
  have counted : ∀ (sub : Nat) (s : State), sub < 256 → Lessened s (count1 0x6000 sub 0 s) := fun sub s fits =>
    .count fits (.inl fun m _ => by unfold iqIdx; omega) s
  have failed : Lessened s (if 2 ≤ status then count1 0x6000 4 0 s else s) := by
    split
    · exact counted 4 s (by decide)
    · exact .refl s
  unfold rspStats
  dsimp only
  generalize (if 2 ≤ status then count1 0x6000 4 0 s else s) = u at failed ⊢
  split
  · split
    · split
      · exact failed
      · exact failed.trans (counted 1 u (by decide))
    · exact failed
  · split
    · exact failed.trans (counted 2 u (by decide))
    · exact failed

theorem itemFlushed_lessened (i : Item) (s : State) : Lessened s (itemFlushed i s) := by
  unfold itemFlushed
  rw [itemOut_eq]
  unfold completeBare
  rw [complete_eq]
  have orphans : Lessened (count1 (iqIdx (i.q / 8)) 0x21 0 s) (orphaned i (count1 (iqIdx (i.q / 8)) 0x21 0 s)) := by
    refine .of_answered (orphaned_answered ..) ?_
    unfold orphaned
    split <;> rfl
  exact ((Lessened.count (by decide) (.inr (by decide)) s).trans orphans).trans
    ((rspStats_lessened ..).trans (rspSend_lessened ..))

-- The flush of one queue

/-- An item of a queue whose header has landed. -/
def flushable (s : State) (q : Nat) (i : Item) : Prop := i.q = q ∧ i.t0 ≤ now s

/-- The items that the flush of a queue leaves in it. -/
def leftByFlush (q : Nat) (s : State) : State :=
  stickyTrim q { s with pool := { s.pool with items := s.pool.items.filter (fun i => i.q != q || !decide (i.t0 ≤ now s)) } }

theorem leftByFlush_frame (q : Nat) (s : State) : leftByFlush q s = { s with pool := { s.pool with
    items := s.pool.items.filter (fun i => i.q != q || !decide (i.t0 ≤ now s)), sticky := (leftByFlush q s).pool.sticky } } := by
  unfold leftByFlush stickyTrim
  split <;> rfl

theorem mem_leftByFlush {q : Nat} {s : State} {i : Item} :
    i ∈ (leftByFlush q s).pool.items ↔ i ∈ s.pool.items ∧ ¬ flushable s q i := by
  rw [leftByFlush_frame]
  dsimp only
  rw [List.mem_filter, Bool.or_eq_true, bne_iff_ne, Bool.not_eq_true', decide_eq_false_iff_not]
  exact and_congr_right fun _ => Decidable.not_and_iff_not_or_not.symm

/-- The items that the flush of a queue completes. -/
def flushedItems (q : Nat) (s : State) : List Item := s.pool.items.filter (fun i => i.q == q && decide (i.t0 ≤ now s))

theorem queueFlush_eq (q : Nat) (s : State) : ∃ owe, queueFlush q s = raise .qFlush (srcMedia (q / 8) 6) q
    (flushedItems q s).length owe ((flushedItems q s).foldl (fun s i => itemFlushed i s) (leftByFlush q s)) := ⟨_, rfl⟩

/-- After the flush no item of the queue has landed (R196). -/
theorem queueFlush_emptied {q : Nat} (fits : q < 128) (s : State) : Lessened s (queueFlush q s) ∧
    ∀ i ∈ (queueFlush q s).pool.items, ¬ flushable s q i := by
  obtain ⟨owe, whole⟩ := queueFlush_eq q s
  have rest := (Lessened.foldl (fun s i => itemFlushed i s) (flushedItems q s) (fun s i _ => itemFlushed_lessened i s)
    (leftByFlush q s)).trans (.raise (e := .qFlush) (src := srcMedia (q / 8) 6) (p1 := q) (p2 := (flushedItems q s).length)
    (p3 := owe) (by unfold srcMedia; omega) _)
  have left : Lessened s (leftByFlush q s) := ⟨fun i here => ⟨i, (mem_leftByFlush.1 here).1, rfl, rfl⟩,
    fun m _ => regVal_congr (by rw [leftByFlush_frame]) .., by rw [leftByFlush_frame]⟩
  rw [whole]
  refine ⟨left.trans rest, fun i here => ?_⟩
  obtain ⟨j, there, q', t0⟩ := rest.items i here
  unfold flushable
  rw [q', t0]
  exact (mem_leftByFlush.1 there).2

theorem foldl_itemFlushed_answered (l : List Item) (s : State) (sound : ∀ i ∈ l, eqSound s i.src) :
    Answered s (l.foldl (fun s i => itemFlushed i s) s) := by
  induction l generalizing s with
  | nil => exact .refl s
  | cons i l ih =>
    have one := itemFlushed_answered (it := i) (s := s) fun _ => sound i List.mem_cons_self
    exact one.trans (ih _ fun j there => one.eqSound (sound j (List.mem_cons_of_mem _ there)))

/-- While the queues of its items' answers are sound, the flush of a queue takes no other item. -/
theorem queueFlush_sound {q : Nat} {s : State} (sound : ∀ i ∈ s.pool.items, i.q = q → eqSound s i.src) :
    (∀ i ∈ s.pool.items, ¬ flushable s q i → i ∈ (queueFlush q s).pool.items) ∧
    (∀ i ∈ (queueFlush q s).pool.items, i ∈ s.pool.items) ∧ (queueFlush q s).pool.ptrBad = s.pool.ptrBad := by
  obtain ⟨owe, whole⟩ := queueFlush_eq q s
  have answered := foldl_itemFlushed_answered (flushedItems q s) (leftByFlush q s) fun i here => by
    obtain ⟨there, mine⟩ := List.mem_filter.1 here
    rw [Bool.and_eq_true, beq_iff_eq] at mine
    intro p own
    rw [leftByFlush_frame]
    exact sound i there mine.1 p own
  have pool : (queueFlush q s).pool.items = (leftByFlush q s).pool.items ∧ (queueFlush q s).pool.ptrBad = s.pool.ptrBad := by
    rw [whole, raise_frame, answered.pool]
    exact ⟨rfl, by rw [leftByFlush_frame]⟩
  rw [pool.1]
  exact ⟨fun i here stays => mem_leftByFlush.2 ⟨here, stays⟩, fun i here => (mem_leftByFlush.1 here).1, pool.2⟩

end Sys2Proof.Machine

/-! OBLIGATIONS. The commands of the units by local firmware. -/

namespace Sys2Proof.Machine

-- A write of the flush bits

/-- A flush bit rises. -/
def flagRises (old v k : Nat) : Prop := v.testBit k = true ∧ old.testBit k = false

/-- The queues of a port whose flush bits rise are flushed, one after the other. -/
def flushRisen (m old v : Nat) (l : List Nat) (s : State) : State :=
  l.foldl (fun s k => if v.testBit k ∧ old.testBit k = false then queueFlush (m * 8 + k) s else s) s

theorem flushRisen_cons (m old v k : Nat) (l : List Nat) (s : State) : flushRisen m old v (k :: l) s =
    flushRisen m old v l (if v.testBit k ∧ old.testBit k = false then queueFlush (m * 8 + k) s else s) := rfl

theorem Lessened.now {s t : State} (h : Lessened s t) : Machine.now t = Machine.now s := by
  rw [h.frame]
  rfl

theorem flushRisen_emptied {m old v : Nat} (port : m < 16) (l : List Nat) (bits : ∀ k ∈ l, k < 8) (s : State) :
    Lessened s (flushRisen m old v l s) ∧ ∀ k ∈ l, flagRises old v k → ∀ i ∈ (flushRisen m old v l s).pool.items,
      ¬ flushable s (m * 8 + k) i := by
  induction l generalizing s with
  | nil => exact ⟨.refl s, fun k here => absurd here List.not_mem_nil⟩
  | cons k l ih =>
    have bit : m * 8 + k < 128 := by
      have := bits k List.mem_cons_self
      omega
    obtain ⟨flushed, emptied⟩ := queueFlush_emptied bit s
    have first : Lessened s (if v.testBit k ∧ old.testBit k = false then queueFlush (m * 8 + k) s else s) := by
      split
      · exact flushed
      · exact .refl s
    rw [flushRisen_cons]
    obtain ⟨rest, left⟩ := ih (fun j there => bits j (List.mem_cons_of_mem _ there))
      (if v.testBit k ∧ old.testBit k = false then queueFlush (m * 8 + k) s else s)
    refine ⟨first.trans rest, fun j here rises i stays => ?_⟩
    cases here with
    | head =>
      rw [if_pos (show v.testBit k = true ∧ old.testBit k = false from rises)] at rest stays
      obtain ⟨x, there, q, t0⟩ := rest.items i stays
      unfold flushable
      rw [q, t0]
      exact emptied x there
    | tail _ later =>
      have none := left j later rises i stays
      unfold flushable at none ⊢
      rw [first.now] at none
      exact none

/-- While the queues of the port's answers are sound, the items of other ports and those that have not landed stay. -/
theorem flushRisen_stays {m old v : Nat} (port : m < 16) (l : List Nat) (bits : ∀ k ∈ l, k < 8) (s : State)
    (sound : ∀ i ∈ s.pool.items, i.q / 8 = m → eqSound s i.src) {i : Item} (here : i ∈ s.pool.items)
    (spared : i.q / 8 ≠ m ∨ now s < i.t0) : i ∈ (flushRisen m old v l s).pool.items := by
  induction l generalizing s with
  | nil => exact here
  | cons k l ih =>
    have bit : k < 8 := bits k List.mem_cons_self
    have others := fun j there => bits j (List.mem_cons_of_mem k there)
    rw [flushRisen_cons]
    split
    · obtain ⟨stays, noNew, sameBad⟩ := queueFlush_sound (q := m * 8 + k) (s := s) fun j there own =>
        sound j there (by omega)
      have apart : ¬ flushable s (m * 8 + k) i := fun ⟨own, due⟩ => spared.elim (fun other => other (by omega))
        (fun late => Nat.not_lt.2 due late)
      have same := (queueFlush_emptied (q := m * 8 + k) (by omega) s).1.now
      exact ih others _ (fun j there own p src => by
        rw [sameBad]
        exact sound j (noNew j there) own p src) (stays i here apart) (by rw [same]; exact spared)
    · exact ih others s sound here spared

/-- The flush bits of a port as they are written, before any queue is flushed. -/
def flagsSet (m v : Nat) (s : State) : State :=
  let ends := (List.range 8).filter (fun k => (regVal s (iqIdx m) 1 0).testBit k && !v.testBit k)
  { regPut (iqIdx m) 1 0 v s with pool := { s.pool with
      flushEnd := ends.foldl (fun t k => tabSet t (m * 8 + k) (now s)) s.pool.flushEnd } }

theorem iqFlushSet_service {m v : Nat} {s : State} (service : s.pwr.phase = .service) :
    iqFlushSet m v s = flushRisen m (regVal s (iqIdx m) 1 0) v (List.range 8) (flagsSet m v s) := by
  unfold iqFlushSet
  dsimp only [regPut]
  rw [service]
  rfl

theorem linkReset_below : ∀ p : Fin 128, admitsBelow (linkIdx p 1) 0x0A .cmd 2 = true := by decide +kernel

theorem mpFlush_below : ∀ m : Fin 16, admitsBelow (mpIdx m) 2 .cmd 2 = true := by decide +kernel

theorem iqFlush_below : ∀ m : Fin 16, admitsBelow (iqIdx m) 1 .rw 256 = true := by decide +kernel

end Sys2Proof.Machine

namespace Sys2Proof
open Sys2Proof.Machine

section
variable {s : State} (served : winServed s)
include served

/-- A BOOL command of the units: on 1 it acts, on 0 it is only acknowledged. -/
theorem unit_bool {c : Instr} {idx sub : Nat} {v : Bool} {f : State → State}
    (runs : exec c s = .next (winCmd false idx sub 0 (boolNat v) s)) (all : admitsBelow idx sub .cmd 2 = true)
    (unit : idx < 0x4000 ∨ 0x5000 < idx)
    (acts : cmdWrite .l idx sub 0 (boolNat v) (winTaken false s) = (rcOk, if boolNat v = 1 then f (winTaken false s) else winTaken false s)) :
    exec c s = .next (winAck false 0 (if boolNat v = 1 then f (winTaken false s) else winTaken false s)) := by
  rw [runs, winCmd_unit served all (by cases v <;> decide) unit, acts, winDone_ok]

theorem tagCacheFlush_runs (v : Bool) : exec (.tagCacheFlush false v) s =
    .next (winAck false 0 (if boolNat v = 1 then tagFlush (winTaken false s) else winTaken false s)) :=
  unit_bool served rfl (by decide +kernel) (.inl (by decide)) rfl

theorem jackPrefill_runs (v : Bool) : exec (.jackPrefill false v) s =
    .next (winAck false 0 (if boolNat v = 1 then prefillStart (winTaken false s) else winTaken false s)) :=
  unit_bool served rfl (by decide +kernel) (.inl (by decide)) rfl

theorem jackInvalidate_runs (v : Bool) : exec (.jackInvalidate false v) s = .next (winAck false 0 (if boolNat v = 1 then
    { winTaken false s with jack := { (winTaken false s).jack with clearNext := true } } else winTaken false s)) :=
  unit_bool served (f := fun s => { s with jack := { s.jack with clearNext := true } }) rfl (by decide +kernel)
    (.inl (by decide)) rfl

theorem linkReset_runs (p : Fin 128) (v : Bool) : exec (.linkReset false p v) s =
    .next (winAck false 0 (if boolNat v = 1 then linkResetCmd p (winTaken false s) else winTaken false s)) := by
  refine unit_bool served rfl (linkReset_below p) (.inl (by unfold linkIdx; omega)) ?_
  have link : (linkIdx p 1 - 0x3001) / 16 = p := by unfold linkIdx; omega
  unfold cmdWrite
  dsimp only
  rw [if_neg (by unfold linkIdx; omega), if_neg (by unfold linkIdx; omega), if_neg (by unfold linkIdx; omega),
    if_neg (by unfold linkIdx; omega), if_pos (by unfold linkIdx; omega), link]

theorem mpFlush_runs (m : Fin 16) (v : Bool) : exec (.mpFlush false m v) s =
    .next (winAck false 0 (if boolNat v = 1 then mpFlushCmd m (winTaken false s) else winTaken false s)) := by
  refine unit_bool served rfl (mpFlush_below m) (.inl (by unfold mpIdx; omega)) ?_
  have port : (mpIdx m - 0x3800) / 16 = m := by unfold mpIdx; omega
  unfold cmdWrite
  dsimp only
  rw [if_neg (by unfold mpIdx; omega), if_neg (by unfold mpIdx; omega), if_neg (by unfold mpIdx; omega),
    if_neg (by unfold mpIdx; omega), if_neg (by unfold mpIdx; omega), if_pos (by unfold mpIdx; omega), port]

theorem masterReset_runs (v : Byte) (fits : v.toNat ≤ 31) : exec (.masterReset false v) s =
    .next (winAck false 0 (masterResetCmd v.toNat (winTaken false s))) := by
  have below : admitsBelow 0x5010 7 .cmd 32 = true := by decide +kernel
  have runs := (winCmd_unit served below (Nat.lt_succ_of_le fits) (.inr (by decide))).trans (winDone_ok ..)
  exact congrArg Host.Outcome.next runs

/-- A write of an object of the units that is no command. -/
theorem winCmd_plain {idx sub n v : Nat} {acc : ObjAcc} (all : admitsBelow idx sub acc n = true) (fits : v < n)
    (unit : idx < 0x4000) (open' : acc ≠ .ro ∧ acc ≠ .wk) : ∃ o : Obj, o.acc = acc ∧
    winCmd false idx sub 0 v s = winDone false (idx * 256 + sub) (objWrite .l o idx sub 0 v (winTaken false s)) ∧
    ¬ (rowZero idx 0 = true) ∧ ¬ (o.acc = .ro ∨ o.acc = .wk) ∧
    ¬ (o.admits v = false ∨ debugRefused (winTaken false s) idx sub v = true) := by
  obtain ⟨o, reached, kind, admits⟩ := reached_of_admitsBelow all
  have write : dictWrite (winWho false) idx sub 0 v (winTaken false s) = objWrite .l o idx sub 0 v (winTaken false s) := by
    unfold dictWrite
    rw [show objReach (winWho false) idx sub 0 = .ok o from reached]
    rfl
  have free : debugRefused (winTaken false s) idx sub v = false := by
    unfold debugRefused
    rw [decide_eq_false (show idx ≠ 0x5000 by omega), Bool.and_false, Bool.false_and, Bool.false_and]
  refine ⟨o, kind, (winCmd_served served ..).trans (congrArg (winDone false (idx * 256 + sub)) write),
    by rw [rowZero_unit (.inl unit)]; decide, ?_, ?_⟩
  · rw [kind]
    exact fun refused => refused.elim open'.1 open'.2
  · rw [admits v fits, free]
    decide

theorem alertAck_runs (v : Byte) (fits : v.toNat ≤ 15) : exec (.alertAck false v) s =
    .next (winAck false 0 (alertAckWrite v.toNat (winTaken false s))) := by
  obtain ⟨o, kind, runs, inner, writable, admitted⟩ := winCmd_plain served (idx := 0x2500) (sub := 6) (acc := .wo)
    (show admitsBelow 0x2500 6 .wo 16 = true by decide +kernel) (Nat.lt_succ_of_le fits) (by decide) (by decide)
  refine congrArg Host.Outcome.next (runs.trans ?_)
  unfold objWrite
  rw [if_neg inner, if_neg writable, if_neg admitted, kind, winDone_ok]

theorem iqFlush_runs (m : Fin 16) (v : Byte) : exec (.iqFlush false m v) s = .next (winDone false (iqIdx m * 256 + 1)
    (if s.pwr.phase = .draining then (rcBusy, winTaken false s) else (rcOk, iqFlushSet m v.toNat (winTaken false s)))) := by
  have low : iqIdx m < 0x4000 := by unfold iqIdx; omega
  have port : (iqIdx m - 0x3808) / 16 = m := by unfold iqIdx; omega
  have phase : (winTaken false s).pwr.phase = s.pwr.phase := by rw [winTaken_frame]
  have later : ¬ rwAtStrobe (iqIdx m) = true := by
    unfold rwAtStrobe iqIdx
    simp only [Bool.or_eq_true, decide_eq_true_iff]
    omega
  have queues : 0x3808 ≤ iqIdx m ∧ iqIdx m < 0x3900 := by unfold iqIdx; omega
  obtain ⟨o, kind, runs, inner, writable, admitted⟩ := winCmd_plain served (iqFlush_below m) v.isLt low (by decide)
  refine congrArg Host.Outcome.next (runs.trans (congrArg (winDone false (iqIdx m * 256 + 1)) ?_))
  unfold objWrite
  rw [if_neg inner, if_neg writable, if_neg admitted, kind]
  dsimp only
  unfold rwWrite
  rw [if_neg later, if_pos queues, port, phase]

theorem linkReset_acts (p : Fin 128) :
    ((linkOf s p).bistDown = false → ∃ t v, exec (.linkReset false p true) s = .next t ∧ winOk t ∧
      LinkDropped (winTaken false s) v p 7 ∧ t = { v with winOut := t.winOut }) ∧
    ((linkOf s p).bistDown = true → ∃ t, exec (.linkReset false p true) s = .next t ∧ winOk t ∧
      t = { winTaken false s with winOut := t.winOut }) := by
  have link : linkOf (winTaken false s) p = linkOf s p := linkOf_congr (by rw [winTaken_frame]) p
  have runs := linkReset_runs served p true
  rw [if_pos (show boolNat true = 1 from rfl)] at runs
  unfold linkResetCmd at runs
  rw [link] at runs
  refine ⟨fun free => ?_, fun held => ?_⟩
  · rw [free, if_neg (by decide)] at runs
    exact ⟨_, _, runs, winOk_winAck _, linkDown_dropped .., rfl⟩
  · rw [held, if_pos rfl] at runs
    exact ⟨_, runs, winOk_winAck _, rfl⟩

theorem mpFlush_acts (m : Fin 16) :
    ((mediaOf s m).failed = false → (mediaOf s m).flushReq = false → (mediaOf s m).flushOut = false →
      (mediaOf s m).drainOut = false → ∃ t, exec (.mpFlush false m true) s = .next t ∧ winOk t ∧
        mediaOf t m = { mediaOf s m with flushReq := true } ∧ (∀ n, n ≠ m.val → mediaOf t n = mediaOf s n) ∧
        t = { winTaken false s with media := t.media, winOut := t.winOut }) ∧
    ((mediaOf s m).failed = true ∨ (mediaOf s m).flushReq = true ∨ (mediaOf s m).flushOut = true ∨
        (mediaOf s m).drainOut = true → ∃ t, exec (.mpFlush false m true) s = .next t ∧ winOk t ∧
        t = { winTaken false s with winOut := t.winOut }) := by
  have media : ∀ n, mediaOf (winTaken false s) n = mediaOf s n := fun n => mediaOf_congr (by rw [winTaken_frame]) n
  have runs := mpFlush_runs served m true
  rw [if_pos (show boolNat true = 1 from rfl)] at runs
  unfold mpFlushCmd at runs
  dsimp only at runs
  rw [media] at runs
  refine ⟨fun sound unasked unsent undrained => ?_, fun busy => ?_⟩
  · rw [if_neg (by rw [sound, unasked, unsent, undrained]; decide)] at runs
    refine ⟨_, runs, winOk_winAck _, (mediaOf_mediaPut ..).trans (if_pos rfl), fun n other => ?_, rfl⟩
    exact ((mediaOf_mediaPut ..).trans (if_neg other)).trans (media n)
  · rw [if_pos busy] at runs
    exact ⟨_, runs, winOk_winAck _, rfl⟩

theorem masterReset_acts (v : Byte) (fits : v.toNat ≤ 31) : ∃ t, exec (.masterReset false v) s = .next t ∧ winOk t ∧
    (∀ n : Fin 5, v.toNat.testBit n.val = true → n.val ∈ s.pool.masterStop →
      (tagsOf s (.master (n.castLE (by decide))) = [] → n.val ∉ t.pool.masterStop) ∧
      (tagsOf s (.master (n.castLE (by decide))) ≠ [] → n.val ∈ t.pool.masterStop ∧ n.val ∈ t.pool.masterReset)) ∧
    (∀ n, v.toNat.testBit n = false → (n ∈ t.pool.masterStop ↔ n ∈ s.pool.masterStop)) ∧
    t = { winTaken false s with pool := t.pool, winOut := t.winOut } := by
  obtain ⟨named, others, frame⟩ := masterResetCmd_facts v.toNat (winTaken false s)
  have pool : (winTaken false s).pool = s.pool := by rw [winTaken_frame]
  have done : ∀ n : Fin 5, masterDone (winTaken false s) n ↔ tagsOf s (.master (n.castLE (by decide))) = [] := fun n => by
    rw [winTaken_frame]
    exact ⟨fun ⟨_, free⟩ => free, fun free => ⟨Nat.lt_trans n.isLt (by decide), free⟩⟩
  refine ⟨_, masterReset_runs served v fits, winOk_winAck _, fun n bit stopped => ?_, fun n plain => ?_, by rw [winAck_frame, frame]⟩
  · obtain ⟨free, busy⟩ := named n n.isLt bit (by rw [pool]; exact stopped)
    exact ⟨fun none => free ((done n).2 none), fun some => busy fun none => some ((done n).1 none)⟩
  · rw [← pool]
    exact others n plain

theorem iqFlush_service (m : Fin 16) (v : Byte) (service : s.pwr.phase = .service) : ∃ t, exec (.iqFlush false m v) s = .next t ∧
    winOk t ∧ regVal t (iqIdx m) 1 0 = v.toNat ∧
    (∀ k, k < 8 → v.toNat.testBit k = true → (regVal s (iqIdx m) 1 0).testBit k = false →
      ∀ i ∈ t.pool.items, i.q = m.val * 8 + k → now s < i.t0) ∧
    ((∀ i ∈ s.pool.items, i.q / 8 = m.val → eqSound s i.src) →
      ∀ i ∈ s.pool.items, i.q / 8 ≠ m.val ∨ now s < i.t0 → i ∈ t.pool.items) ∧
    t = { winTaken false s with pool := t.pool, accts := t.accts, pastAccts := t.pastAccts, links := t.links,
                                regs := t.regs, ev := t.ev, winOut := t.winOut } := by
  have phase : (winTaken false s).pwr.phase = .service := by rw [winTaken_frame]; exact service
  have pool : (winTaken false s).pool = s.pool := by rw [winTaken_frame]
  have clock : now (flagsSet m v.toNat (winTaken false s)) = now s := by
    unfold flagsSet
    rw [winTaken_frame]
    rfl
  have flag : regVal (winTaken false s) (iqIdx m) 1 0 = regVal s (iqIdx m) 1 0 := regVal_congr (by rw [winTaken_frame]) ..
  have bits : ∀ k ∈ List.range 8, k < 8 := fun k => List.mem_range.1
  have runs := iqFlush_runs served m v
  rw [if_neg (by rw [service]; decide), winDone_ok, iqFlushSet_service phase, flag] at runs
  obtain ⟨flushed, emptied⟩ := flushRisen_emptied (m := m) (old := regVal s (iqIdx m) 1 0) (v := v.toNat) m.isLt _ bits
    (flagsSet m v.toNat (winTaken false s))
  refine ⟨_, runs, winOk_winAck _, (flushed.flags m m.isLt).trans (regVal_regPut_same ..),
    fun k low rises old i stays own => ?_, fun sound i here spared => ?_, ?_⟩
  · have none := emptied k (List.mem_range.2 low) ⟨rises, old⟩ i stays
    unfold flushable at none
    rw [clock] at none
    exact Nat.lt_of_not_le fun due => none ⟨own, due⟩
  · refine flushRisen_stays m.isLt _ bits (flagsSet m v.toNat (winTaken false s)) (fun j there own p src => ?_) ?_ (by rw [clock]; exact spared)
    · show tabFind (winTaken false s).pool.ptrBad _ = none
      rw [pool]
      exact sound j (pool ▸ there) own p src
    · show i ∈ (winTaken false s).pool.items
      rw [pool]
      exact here
  · rw [winAck_frame, flushed.frame]
    rfl

/-- A BOOL command of value 0 is only acknowledged. -/
theorem units_idle {c : Instr} (idle : c = .tagCacheFlush false false ∨ c = .jackPrefill false false ∨
    c = .jackInvalidate false false ∨ (∃ p, c = .linkReset false p false) ∨ (∃ m, c = .mpFlush false m false)) :
    exec c s = .next { winTaken false s with winOut := some { err := false, value := 0#32 } } := by
  rcases idle with rfl | rfl | rfl | ⟨p, rfl⟩ | ⟨m, rfl⟩
  · exact tagCacheFlush_runs served false
  · exact jackPrefill_runs served false
  · exact jackInvalidate_runs served false
  · exact linkReset_runs served p false
  · exact mpFlush_runs served m false

end

/-- Settles O56: the commands of the units. -/
theorem unitCommandsHaveTheirEffect : Obligations.UnitCommandsHaveTheirEffect := by
  unfold Obligations.UnitCommandsHaveTheirEffect
  intro s served
  have regs : ∀ idx sub row, regVal (winTaken false s) idx sub row = regVal s idx sub row := fun idx sub row =>
    regVal_congr (by rw [winTaken_frame]) ..
  have jack : (winTaken false s).jack = s.jack := by rw [winTaken_frame]
  have tags : (winTaken false s).tagc = s.tagc := by rw [winTaken_frame]
  refine ⟨⟨_, tagCacheFlush_runs served true, winOk_winAck _, ?_, fun e way dirty => ?_, ?_⟩,
    ⟨_, jackPrefill_runs served true, winOk_winAck _, ?_, rfl⟩,
    ⟨_, jackInvalidate_runs served true, winOk_winAck _, congrArg (fun j : Jack => { j with clearNext := true }) jack, rfl⟩,
    linkReset_acts served, mpFlush_acts served, masterReset_acts served, fun v fits => ?_,
    fun m v => ⟨fun draining => ?_, iqFlush_service served m v⟩, fun c idle => units_idle served idle⟩
  · rw [← tags]
    exact tagFlush_ways _
  · exact tagFlush_waits (by rw [tags]; exact way) dirty
  · rw [if_pos (show boolNat true = 1 from rfl), winAck_frame, tagFlush_frame]
  · rw [← jack, ← regs, ← regs]
    rfl
  · refine ⟨_, alertAck_runs served v fits, winOk_winAck _, ?_, rfl⟩
    rw [← regs]
    exact regVal_regPut_same ..
  · have runs := iqFlush_runs served m v
    rw [if_pos draining, winDone_no (by decide)] at runs
    exact ⟨_, runs, winNo_winRefuse .., winRefuse_local ..⟩

end Sys2Proof

/-! OBLIGATIONS. What a write stored reads back: the media line and its sidecar. -/

namespace Sys2Proof.Machine

/-- The fields a to a + n - 1 side by side, the first in the lowest bits. -/
def packFields {W : Nat} (f : Nat → BitVec W) (w a n : Nat) : BitVec W :=
  (List.range' a n).foldr (fun i (acc : BitVec W) => (acc <<< w) ||| f i) 0

/-- The bits of fields that are packed side by side, each as wide as its place. -/
theorem getLsbD_packed {W w : Nat} (f : Nat → BitVec W) (wide : 0 < w) (narrow : ∀ i k, w ≤ k → (f i).getLsbD k = false)
    (n a k : Nat) (fits : k < W) : (packFields f w a n).getLsbD k =
      (decide (k < w * n) && (f (a + k / w)).getLsbD (k % w)) := by
  unfold packFields
  induction n generalizing a k with
  | zero => simp
  | succ n ih =>
    rw [List.range'_succ, List.foldr_cons, BitVec.getLsbD_or, BitVec.getLsbD_shiftLeft]
    by_cases low : k < w
    · have bound : k < w * (n + 1) := Nat.lt_of_lt_of_le low (Nat.le_mul_of_pos_right w (Nat.succ_pos n))
      rw [Nat.div_eq_of_lt low, Nat.mod_eq_of_lt low, decide_eq_true low, decide_eq_true bound]
      simp
    · obtain ⟨j, rfl⟩ := Nat.exists_eq_add_of_le' (Nat.le_of_not_lt low)
      have bound : decide (j + w < w * (n + 1)) = decide (j < w * n) :=
        decide_eq_decide.2 (by rw [Nat.mul_succ, Nat.add_lt_add_iff_right])
      rw [Nat.add_sub_cancel, ih (a + 1) j (by omega), narrow a _ (by omega), Nat.add_div_right j wide, Nat.add_mod_right,
        show a + (j / w).succ = a + 1 + j / w by omega, decide_eq_true fits, decide_eq_false low, bound]
      simp

/-- A word of payload and its four sidecar bits. -/
def lineWord (l : Line) (sc : Side) (i : Nat) : BitVec 576 :=
  (l.extractLsb' (32 * i) 32).setWidth 576 ||| ((sc.extractLsb' (4 * i) 4).setWidth 576 <<< 32)

theorem getLsbD_lineWord (l : Line) (sc : Side) (i k : Nat) : (lineWord l sc i).getLsbD k =
    (decide (k < 32) && l.getLsbD (32 * i + k) || (decide (32 ≤ k) && decide (k < 36) && sc.getLsbD (4 * i + (k - 32)))) := by
  unfold lineWord
  rw [BitVec.getLsbD_or, BitVec.getLsbD_setWidth, BitVec.getLsbD_shiftLeft, BitVec.getLsbD_setWidth, BitVec.getLsbD_extractLsb',
    BitVec.getLsbD_extractLsb']
  by_cases payload : k < 32
  · simp [payload, show k < 576 by omega, show ¬ 32 ≤ k by omega]
  · by_cases side : k < 36
    · simp [payload, side, show k < 576 by omega, show 32 ≤ k by omega, show k - 32 < 576 by omega, show k - 32 < 4 by omega]
    · simp [payload, side, show ¬ k - 32 < 4 by omega]

theorem getLsbD_mediaJoin (l : Line) (sc : Side) {i k : Nat} (word : i < 16) (bit : k < 36) :
    (mediaJoin l sc).getLsbD (36 * i + k) = (lineWord l sc i).getLsbD k := by
  have narrow : ∀ i k, 36 ≤ k → (lineWord l sc i).getLsbD k = false := fun i k beyond => by
    rw [getLsbD_lineWord, decide_eq_false (show ¬ k < 32 by omega), decide_eq_false (show ¬ k < 36 by omega)]
    simp
  have packed := getLsbD_packed (lineWord l sc) (by decide) narrow 16 0 (36 * i + k) (by omega)
  have whole : mediaJoin l sc = packFields (lineWord l sc) 36 0 16 := by
    unfold mediaJoin packFields lineWord
    rw [← List.range_eq_range']
    simp only [BitVec.or_assoc]
  rw [whole, packed, decide_eq_true (show 36 * i + k < 36 * 16 by omega), Nat.zero_add, Bool.true_and,
    show (36 * i + k) / 36 = i by omega, show (36 * i + k) % 36 = k by omega]

theorem lnPay_mediaJoin (l : Line) (sc : Side) : lnPay (mediaJoin l sc) = l := by
  refine BitVec.eq_of_getLsbD_eq fun k fits => ?_
  have packed := getLsbD_packed (fun i => ((mediaJoin l sc).extractLsb' (36 * i) 32).setWidth 512) (w := 32) (by decide)
    (fun i k beyond => by rw [BitVec.getLsbD_setWidth, BitVec.getLsbD_of_ge _ k beyond, Bool.and_false]) 16 0 k fits
  unfold packFields at packed
  rw [← List.range_eq_range'] at packed
  refine packed.trans ?_
  rw [decide_eq_true (show k < 32 * 16 from fits), Nat.zero_add, Bool.true_and, BitVec.getLsbD_setWidth,
    BitVec.getLsbD_extractLsb', getLsbD_mediaJoin l sc (by omega) (by omega), getLsbD_lineWord,
    show 32 * (k / 32) + k % 32 = k by omega]
  have low : k % 32 < 32 := Nat.mod_lt k (by decide)
  simp [low, show k % 32 < 512 by omega, show ¬ 32 ≤ k % 32 by omega]

theorem lnSide_mediaJoin (l : Line) (sc : Side) : lnSide (mediaJoin l sc) = sc := by
  refine BitVec.eq_of_getLsbD_eq fun k fits => ?_
  have packed := getLsbD_packed (fun i => ((mediaJoin l sc).extractLsb' (36 * i + 32) 4).setWidth 64) (w := 4) (by decide)
    (fun i k beyond => by rw [BitVec.getLsbD_setWidth, BitVec.getLsbD_of_ge _ k beyond, Bool.and_false]) 16 0 k fits
  unfold packFields at packed
  rw [← List.range_eq_range'] at packed
  refine packed.trans ?_
  have low : k % 4 < 4 := Nat.mod_lt k (by decide)
  rw [decide_eq_true (show k < 4 * 16 from fits), Nat.zero_add, Bool.true_and, BitVec.getLsbD_setWidth,
    BitVec.getLsbD_extractLsb', Nat.add_assoc, getLsbD_mediaJoin l sc (by omega) (by omega), getLsbD_lineWord,
    show 4 * (k / 4) + (32 + k % 4 - 32) = k by omega]
  simp [low, show k % 4 < 64 by omega, show 32 + k % 4 < 36 by omega, show ¬ 32 + k % 4 < 32 by omega]

/-- The plaintext of a line that was encrypted under some blocks comes back under the same blocks (R57). -/
theorem lineXor_lineXor (pt : Line) (ks : List Block) : lineXor (lineXor pt ks) ks = pt := by
  unfold lineXor
  rw [BitVec.xor_assoc, BitVec.xor_self, BitVec.xor_zero]

-- The fields of a sidecar (Table 03.2)

section
variable (c : BitVec 24) (g : BitVec 4) (k : BitVec 15) (p : BitVec 2) (b : Bool) (x : BitVec 16)

theorem scSchk_scPack : scSchk (scPack c g k p b x) = x := BitVec.extractLsb'_append_eq_right

theorem scResv_scPack : scResv (scPack c g k p b x) = 0#2 := by
  unfold scResv scPack
  rw [BitVec.extractLsb'_append_eq_of_le (by decide), BitVec.extractLsb'_append_eq_right]

theorem scPoison_scPack : scPoison (scPack c g k p b x) = b := by
  unfold scPoison scPack
  rw [BitVec.getLsbD_append, if_neg (by decide), BitVec.getLsbD_append, if_neg (by decide), BitVec.getLsbD_append,
    if_pos (by decide)]
  cases b <;> rfl

/-- The fields above the check, the reserved bits and POISON. -/
theorem extract_scPack {start len : Nat} (above : 19 ≤ start) :
    (scPack c g k p b x).extractLsb' start len = (c ++ g ++ k ++ p).extractLsb' (start - 16 - 2 - 1) len := by
  unfold scPack
  rw [BitVec.extractLsb'_append_eq_of_le (by omega), BitVec.extractLsb'_append_eq_of_le (by omega),
    BitVec.extractLsb'_append_eq_of_le (by omega)]

theorem scPcls_scPack : scPcls (scPack c g k p b x) = p.toNat := by
  unfold scPcls
  rw [extract_scPack c g k p b x (by decide), BitVec.extractLsb'_append_eq_right]

theorem scKidx_scPack : scKidx (scPack c g k p b x) = k.toNat := by
  unfold scKidx
  rw [extract_scPack c g k p b x (by decide), BitVec.extractLsb'_append_eq_of_le (by decide), BitVec.extractLsb'_append_eq_right]

theorem scKgen4_scPack : scKgen4 (scPack c g k p b x) = g := by
  unfold scKgen4
  rw [extract_scPack c g k p b x (by decide), BitVec.extractLsb'_append_eq_of_le (by decide),
    BitVec.extractLsb'_append_eq_of_le (by decide), BitVec.extractLsb'_append_eq_right]

theorem scLctr_scPack : scLctr (scPack c g k p b x) = c := by
  unfold scLctr
  rw [extract_scPack c g k p b x (by decide), BitVec.extractLsb'_append_eq_of_le (by decide),
    BitVec.extractLsb'_append_eq_of_le (by decide), BitVec.extractLsb'_append_eq_left]

end

end Sys2Proof.Machine

namespace Sys2Proof
open Sys2Proof.Machine

/-- Settles O33: what a write stored reads back. -/
theorem writtenLinesReadBack : Obligations.WrittenLinesReadBack := by
  unfold Obligations.WrittenLinesReadBack
  rintro pt a kidx cls c g psn ks line rfl
  unfold schkOk
  rw [lnPay_mediaJoin, lnSide_mediaJoin, lineXor_lineXor, scSchk_scPack, scLctr_scPack, scKgen4_scPack, scPoison_scPack,
    scResv_scPack, scKidx_scPack, scPcls_scPack, BitVec.toNat_ofNat, BitVec.toNat_ofNat]
  exact ⟨rfl, decide_eq_true rfl, rfl, rfl, rfl, rfl, Nat.mod_eq_of_lt, Nat.mod_eq_of_lt⟩

end Sys2Proof

/-! SUPPORT. The write path: what counter resolution, encryption and the tag entry leave, and the WRITE_LINE that issues. -/

namespace Sys2Proof.Machine

-- What a line's write may change before its operation issues

/-- Counter resolution and the tag entry change counters, Jack, the tag cache, slots' rekey notes, contexts' ahead sets and
what they owe, and what the events of these report (R81, R99, R112, R113). -/
structure LineWork (s t : State) : Prop where
  ctxs : ∀ n, ctxOf t n = { ctxOf s n with ahead := (ctxOf t n).ahead, tagOwed := (ctxOf t n).tagOwed }
  frame : t = { s with free := t.free, keys := t.keys, nvu := t.nvu, rk := t.rk, jack := t.jack, tagc := t.tagc,
                       regs := t.regs, ev := t.ev }

namespace LineWork
variable {s t u : State}

theorem refl (s : State) : LineWork s s := ⟨fun _ => rfl, rfl⟩

theorem trans (h : LineWork s t) (g : LineWork t u) : LineWork s u where
  ctxs n := by rw [g.ctxs n, h.ctxs n]
  frame := by rw [g.frame, h.frame]

/-- A step that leaves the contexts alone. -/
theorem of_ctxs (ctxs : t.rk.ctxs = s.rk.ctxs) (frame : t = { s with
    free := t.free, keys := t.keys, nvu := t.nvu, rk := t.rk, jack := t.jack, tagc := t.tagc, regs := t.regs, ev := t.ev }) :
    LineWork s t := ⟨fun n => by rw [ctxOf_congr ctxs], frame⟩

theorem of_note (h : t = { s with regs := t.regs, ev := t.ev }) : LineWork s t := of_ctxs (by rw [h]) (by rw [h])

theorem raise (e : Ev) (src p1 p2 p3 : Nat) (s : State) : LineWork s (Machine.raise e src p1 p2 p3 s) := of_note (raise_frame ..)

/-- A context's ahead set, or what it owes, changes. -/
theorem ctxPut {n : Nat} {c : Ctx} (same : c = { ctxOf s n with ahead := c.ahead, tagOwed := c.tagOwed }) :
    LineWork s (Machine.ctxPut n c s) := by
  refine ⟨fun j => ?_, rfl⟩
  rw [ctxOf_ctxPut]
  split
  · next own =>
    rw [own]
    exact same
  · rfl

theorem media (h : LineWork s t) (n : Nat) : mediaOf t n = mediaOf s n := mediaOf_congr (by rw [h.frame]) n

theorem pool (h : LineWork s t) : t.pool = s.pool := by rw [h.frame]

theorem slotClass (h : LineWork s t) (k : Nat) : Machine.slotClass t k = Machine.slotClass s k := by
  rw [h.frame]
  rfl

end LineWork

-- Counter resolution

theorem jackPlace_frame (a : Nat) (s : State) : (jackPlace a s).2 = { s with free := (jackPlace a s).2.free } := by
  unfold jackPlace
  dsimp only
  split <;> rfl

theorem jackWrite_frame (a : Nat) (e : BitVec 64) (s : State) :
    jackWrite a e s = { s with free := (jackWrite a e s).free, jack := (jackWrite a e s).jack } := by
  unfold jackWrite
  split
  · rfl
  · have place := jackPlace_frame a s
    generalize jackPlace a s = r at place ⊢
    obtain ⟨k, t⟩ := r
    dsimp only at place
    split
    · next whole =>
      cases whole
      dsimp only
      rw [place]
    · next whole =>
      cases whole
      rw [place]

theorem jackWrite_work (a : Nat) (e : BitVec 64) (s : State) : LineWork s (jackWrite a e s) :=
  .of_ctxs (by rw [jackWrite_frame]) (by rw [jackWrite_frame])

theorem nextGenCause_ctxs (k : Nat) (s : State) : (nextGenCause k s).rk.ctxs = s.rk.ctxs := by
  unfold nextGenCause
  dsimp only
  split
  · rfl
  · split
    · split
      · rfl
      · split
        · rfl
        · split
          · rw [slotSpent_frame]
            rfl
          · rfl
    · unfold rkEnqueue
      split <;> rfl

theorem nextGenCause_work (k : Nat) (s : State) : LineWork s (nextGenCause k s) :=
  .of_ctxs (nextGenCause_ctxs k s) (by rw [nextGenCause_frame])

theorem slotPut_work (k : Nat) (x : Slot) (s : State) : LineWork s (slotPut k x s) := .of_ctxs rfl rfl

theorem highWater_work (k : Nat) (g : BitVec 32) (s : State) : LineWork s (highWater k g s) := by
  unfold highWater
  dsimp only
  generalize hu : (if (slotOf s k).hwNoted = some g then s else _) = u
  have noted : LineWork s u := by
    rw [← hu]
    split
    · exact .refl s
    · exact (slotPut_work ..).trans (.raise ..)
  split
  · exact noted
  · split
    · exact (noted.trans (nextGenCause_work k u)).trans (slotPut_work ..)
    · exact noted.trans (nextGenCause_work k u)

theorem aheadAdd_work (n a : Nat) (s : State) : LineWork s (aheadAdd n a s) := by
  unfold aheadAdd
  dsimp only
  split
  · exact .ctxPut rfl
  · exact (LineWork.ctxPut (n := n) (c := { ctxOf s n with ahead := (ctxOf s n).ahead ++ [{ addr := a }] }) rfl).trans
      (.of_note rfl)

theorem counterEnd_work (k a : Nat) (g : BitVec 32) (s : State) : LineWork s (counterEnd k a g s) := by
  unfold counterEnd
  dsimp only
  split
  · split
    · exact .raise ..
    · exact (aheadAdd_work ..).trans (.raise ..)
  · exact (slotPut_work ..).trans (.raise ..)

/-- What is left once a line has been issued a counter: its Jack entry, the high water and the end of the counter (R99, R112,
R113). -/
def counterTaken (k a : Nat) (g : BitVec 32) (c : Nat) (s : State) : State :=
  let s := jackWrite a (jackPack a (BitVec.ofNat 24 c) (g.setWidth 4) (BitVec.ofNat 2 (slotClass s k)) 0) s
  let s := if cfgVal s 0x2050 1 0 ≤ c ∧ g = (slotOf s k).gen then highWater k g s else s
  if c = 2 ^ 24 - 1 then counterEnd k a g s else s

/-- The counter that a write takes next is one above the base of its line, or the line is spent (R99, R114). -/
theorem nextLctr_eq (k a : Nat) (g : BitVec 32) (e : BitVec 64) (s : State) : nextLctr k a g e s =
    if 2 ^ 24 - 1 ≤ counterBase s k a g e then (none, s)
    else (some (BitVec.ofNat 24 (counterBase s k a g e + 1)), counterTaken k a g (counterBase s k a g e + 1) s) := rfl

theorem counterTaken_work (k a : Nat) (g : BitVec 32) (c : Nat) (s : State) : LineWork s (counterTaken k a g c s) := by
  unfold counterTaken
  dsimp only
  generalize hu : jackWrite a _ s = u
  have written : LineWork s u := by
    rw [← hu]
    exact jackWrite_work ..
  have marked : LineWork u (if cfgVal u 0x2050 1 0 ≤ c ∧ g = (slotOf u k).gen then highWater k g u else u) := by
    split
    · exact highWater_work ..
    · exact .refl u
  refine (written.trans marked).trans ?_
  generalize (if cfgVal u 0x2050 1 0 ≤ c ∧ g = (slotOf u k).gen then highWater k g u else u) = v
  split
  · exact counterEnd_work ..
  · exact .refl v

-- The tag entry

theorem wayAlloc_frame (tl k : Nat) (s : State) : (wayAlloc tl k s).2 = { s with tagc := (wayAlloc tl k s).2.tagc } := by
  unfold wayAlloc
  dsimp only
  split
  · rfl
  · split <;> rfl

theorem tagWrite_frame (k tl e seq : Nat) (v : BitVec 64) (s : State) :
    tagWrite k tl e seq v s = { s with tagc := (tagWrite k tl e seq v s).tagc } := by
  unfold tagWrite
  dsimp only
  split
  · rfl
  · have alloc := wayAlloc_frame tl k s
    generalize wayAlloc tl k s = r at alloc ⊢
    obtain ⟨w, t⟩ := r
    dsimp only at alloc
    split
    · next whole =>
      cases whole
      rw [alloc]
      rfl
    · next whole =>
      cases whole
      rw [alloc]

theorem tagWrite_work (k tl e seq : Nat) (v : BitVec 64) (s : State) : LineWork s (tagWrite k tl e seq v s) :=
  .of_ctxs (by rw [tagWrite_frame]) (by rw [tagWrite_frame])

theorem tagDropLine_frame (tl : Nat) (s : State) : tagDropLine tl s = { s with tagc := (tagDropLine tl s).tagc } := by
  unfold tagDropLine
  split <;> rfl

theorem tagSecded_frame (f : Faults) (tl : Nat) (s : State) : tagSecded f tl s = { s with
    tagc := (tagSecded f tl s).tagc, regs := (tagSecded f tl s).regs, ev := (tagSecded f tl s).ev } := by
  unfold tagSecded
  split
  · rfl
  · dsimp only
    split
    · unfold tlEv
      rw [raise_frame, tagDropLine_frame]
      split <;> rfl
    · split <;> rfl

theorem tagSecded_work (f : Faults) (tl : Nat) (s : State) : LineWork s (tagSecded f tl s) :=
  .of_ctxs (by rw [tagSecded_frame]) (by rw [tagSecded_frame])

theorem tagOwe_work (n tl seq : Nat) (s : State) : LineWork s (tagOwe n tl seq s) := by
  unfold tagOwe
  dsimp only
  split
  · exact .ctxPut rfl
  · exact .refl s

theorem ownerOwes_work (o : MOwner) (tl seq : Nat) (s : State) : LineWork s (ownerOwes o tl seq s) := by
  unfold ownerOwes
  split
  · exact tagOwe_work ..
  · exact .refl s

theorem wbFetches_work (s : State) : LineWork s (wbFetches s) :=
  .of_ctxs (by rw [wbFetches_frame]) (by rw [wbFetches_frame])

-- The issue

theorem aheadIssued_work (k a : Nat) (g : BitVec 32) (s : State) : LineWork s (aheadIssued k a g s) := by
  unfold aheadIssued
  split
  · exact .refl s
  · dsimp only
    split
    · exact .ctxPut rfl
    · exact .refl s

theorem stepWritten_work (o : MOwner) (s : State) : LineWork s (stepWritten o s) := by
  unfold stepWritten
  split
  · exact .of_note rfl
  · exact .refl s

theorem tagUnreserve_work (o : MOwner) (s : State) : LineWork s (tagUnreserve o s) := .of_ctxs rfl rfl

/-- A line's WRITE_LINE is the last operation of its port's write queue (R66, R252). -/
structure LineIssued (s t : State) (m : Nat) (o : MOp) : Prop where
  media : ∀ n, mediaOf t n = if n = m then { mediaOf s m with fifoW := (mediaOf s m).fifoW ++ [o] } else mediaOf s n
  ctxs : ∀ n, ctxOf t n = { ctxOf s n with ahead := (ctxOf t n).ahead, tagOwed := (ctxOf t n).tagOwed }
  frame : t = { s with free := t.free, keys := t.keys, nvu := t.nvu, rk := t.rk, jack := t.jack, tagc := t.tagc,
                       regs := t.regs, ev := t.ev, media := t.media, mseq := t.mseq }

namespace LineIssued
variable {s t u : State} {m : Nat} {o : MOp}

theorem before (work : LineWork s t) (issued : LineIssued t u m o) : LineIssued s u m o where
  media n := by rw [issued.media n, work.media, work.media]
  ctxs n := by rw [issued.ctxs n, work.ctxs n]
  frame := by rw [issued.frame, work.frame]

theorem after (issued : LineIssued s t m o) (work : LineWork t u) : LineIssued s u m o where
  media n := by rw [work.media, issued.media n]
  ctxs n := by rw [work.ctxs n, issued.ctxs n]
  frame := by rw [work.frame, issued.frame]

theorem fifoW (issued : LineIssued s t m o) : (mediaOf t m).fifoW = (mediaOf s m).fifoW ++ [o] := by
  rw [issued.media m, if_pos rfl]

theorem pool (issued : LineIssued s t m o) : t.pool = s.pool := by rw [issued.frame]

end LineIssued

/-- The operation that carries a line's write with its blocks (R58, R64, R65). -/
def lineOp (w : WriteReq) (ks : List Block) (s : State) : MOp :=
  { kind := .write, addr := w.addr
    data := mediaJoin (lineXor w.pt ks) (scPack w.lctr (w.gen.setWidth 4) (BitVec.ofNat 15 w.kidx)
      (BitVec.ofNat 2 (slotClass s w.kidx)) w.psn (lineSchk w.pt w.addr ks))
    owner := w.owner, kidx := w.kidx, gen := w.gen, lctr := w.lctr, counted := true }

/-- The operation once it has been issued: with its issue number and cycle. -/
def issuedOp (w : WriteReq) (ks : List Block) (s : State) : MOp := { lineOp w ks s with seq := s.mseq, cyc := now s }

theorem lineOp_congr {w : WriteReq} {ks : List Block} {s t : State} (work : LineWork s t) : lineOp w ks t = lineOp w ks s := by
  unfold lineOp
  rw [work.slotClass]

theorem issuedOp_congr {w : WriteReq} {ks : List Block} {s t : State} (work : LineWork s t) :
    issuedOp w ks t = issuedOp w ks s := by
  unfold issuedOp
  rw [lineOp_congr work, work.frame]
  rfl

theorem issueW_lineIssued (w : WriteReq) (ks : List Block) (s : State) :
    LineIssued s (issueW w.port (lineOp w ks s) s) w.port (issuedOp w ks s) where
  media _ := mediaOf_issueW ..
  ctxs _ := rfl
  frame := rfl

/-- The tag entry of a line's write, where its class has one (R81). -/
def tagEntered (w : WriteReq) (ks : List Block) (f : Faults) (s : State) : State :=
  if slotClass s w.kidx = 3 then
    match tagPlace s w.kidx w.addr with
    | some (tl, e) =>
      let sc := scPack w.lctr (w.gen.setWidth 4) (BitVec.ofNat 15 w.kidx) (BitVec.ofNat 2 (slotClass s w.kidx)) w.psn
        (lineSchk w.pt w.addr ks)
      let mac := mac56 w.h (lineXor w.pt ks) sc (BitVec.ofNat 40 w.addr) (ks.getD 4 0#128)
      let s := ownerOwes w.owner tl s.mseq (tagWrite w.kidx tl e s.mseq (mac ++ w.lctr.setWidth 8) (tagSecded f tl s))
      if s.pwr.phase = .draining then wbFetches s else s
    | none => s
  else s

theorem tagEntered_work (w : WriteReq) (ks : List Block) (f : Faults) (s : State) : LineWork s (tagEntered w ks f s) := by
  unfold tagEntered
  split
  · split
    · dsimp only
      generalize hu : ownerOwes w.owner _ s.mseq _ = u
      have entered : LineWork s u := by
        rw [← hu]
        exact ((tagSecded_work ..).trans (tagWrite_work ..)).trans (ownerOwes_work ..)
      split
      · exact entered.trans (wbFetches_work u)
      · exact entered
    · exact .refl s
  · exact .refl s

/-- A line's write issues its operation; what is left is the hazards of its owner. -/
theorem writeIssue_issues (w : WriteReq) (ks : List Block) (f : Faults) (s : State) : ∃ t,
    writeIssue w ks f s = ownerIssued w.owner w.gen w.lctr t ∧ LineIssued s t w.port (issuedOp w ks s) := by
  have entered := tagEntered_work w ks f s
  have issued := issueW_lineIssued w ks (tagEntered w ks f s)
  rw [issuedOp_congr entered, lineOp_congr entered] at issued
  exact ⟨_, rfl, (LineIssued.before entered issued).after
    (((aheadIssued_work ..).trans (tagUnreserve_work ..)).trans (stepWritten_work ..))⟩

-- The slice

theorem pipeErr_none (p : Nat) : pipeErr {} p = 0#128 := rfl

theorem length_mixBlocks (w : BitVec 576) : (mixBlocks w).length = 5 := rfl

theorem length_lineBlocks (cls k : Nat) (keys : GenKeys) (g : BitVec 32) (a : Nat) (c : BitVec 24) :
    (lineBlocks cls k keys g a c).length = 5 := by
  unfold lineBlocks
  split
  · exact length_mixBlocks _
  · rfl

theorem map_getD_five {good : List Block} (five : good.length = 5) :
    (List.range 5).map (fun j => good.getD j 0#128) = good := by
  refine List.ext_getElem (by simp [five]) fun j low high => ?_
  rw [List.getElem_map, List.getElem_range]
  exact (List.getElem_eq_getD 0#128).symm

theorem pipeBlocks_sound {x : Slice} {dir : Dir} {k : Nat} {good : List Block} (five : good.length = 5) :
    pipeBlocks x dir k {} good = (good, none) := by
  have out : (List.range 5).map (fun j => good.getD j 0#128 ^^^ pipeErr {} (blockPipe x (blockDuty x dir k j))) = good := by
    simp only [pipeErr_none, BitVec.xor_zero]
    exact map_getD_five five
  have alt : ∀ p js, blocksOn {} p js good good = good := fun p js => by
    unfold blocksOn
    simp only [pipeErr_none, BitVec.xor_zero, ite_self]
    exact map_getD_five five
  unfold pipeBlocks
  dsimp only
  rw [out, alt, if_neg (fun differs => differs.2.2.2 rfl)]

theorem mixBlocks_zero : mixBlocks 0#576 = List.replicate 5 0#128 := by decide +kernel

theorem sliceBlocks_sound (s : State) (sl cls : Nat) (dir : Dir) {good : List Block} (five : good.length = 5) :
    sliceBlocks s sl cls dir {} good = (good, none) := by
  unfold sliceBlocks
  split
  · refine Prod.ext ?_ rfl
    show List.zipWith (fun x y => x ^^^ y) good (mixBlocks 0#576) = good
    rw [mixBlocks_zero]
    refine List.ext_getElem (by simp [five]) fun j low high => ?_
    rw [List.getElem_zipWith, List.getElem_replicate, BitVec.xor_zero]
  · exact pipeBlocks_sound five

/-- A write that meets no damage issues in its slot (R66). -/
theorem writeSlice_issues (w : WriteReq) (k : GenKeys) (s : State) : ∃ t,
    writeSlice w k {} s = ownerIssued w.owner w.gen w.lctr t ∧
    LineIssued s t w.port (issuedOp w (lineBlocks (slotClass s w.kidx) w.kidx k w.gen w.addr w.lctr) s) := by
  unfold writeSlice
  dsimp only
  rw [sliceBlocks_sound s _ _ .w (length_lineBlocks ..)]
  exact writeIssue_issues ..

theorem issuedOp_lineWritten (w : WriteReq) (k : GenKeys) (s : State) :
    LineWritten s (issuedOp w (lineBlocks (slotClass s w.kidx) w.kidx k w.gen w.addr w.lctr) s) w.kidx w.addr k w.gen w.lctr
      w.pt w.psn := ⟨⟨rfl, rfl⟩, ⟨rfl, rfl, rfl, rfl⟩, rfl⟩

-- The write of a request

/-- What a write of a request is made of (R66). -/
def requestWrite (x : Txn) (g : BitVec 32) (c : BitVec 24) (k : GenKeys) : WriteReq :=
  { owner := .txn x.id, kidx := x.item.slot, addr := x.item.h.addr.toNat, port := x.port, pt := x.payload, psn := x.poison
    gen := g, lctr := c, h := k.tag }

section
variable {x : Txn} {e : BitVec 64} {f : Faults} {s : State}

theorem writeGo_keyless (absent : genKeys s x.item.slot (genForWrite s x.item.slot x.item.h.addr.toNat (some e)) = none) :
    writeGo x e f s = txnFinish x stKeyAbsent s := by
  unfold writeGo
  dsimp only
  rw [absent]

theorem writeGo_spent {k : GenKeys} {g : BitVec 32} (gen : g = genForWrite s x.item.slot x.item.h.addr.toNat (some e))
    (held : genKeys s x.item.slot g = some k)
    (spent : 2 ^ 24 - 1 ≤ counterBase s x.item.slot x.item.h.addr.toNat g e) :
    writeGo x e f s = txnFinish x stCounterSpent (spentNote x.item.slot x.item.h.addr.toNat s) := by
  subst gen
  unfold writeGo
  dsimp only
  rw [held, nextLctr_eq, if_pos spent]

/-- A write of a request with its key and a counter issues its operation (R66). -/
theorem writeGo_issues {k : GenKeys} {g : BitVec 32} (gen : g = genForWrite s x.item.slot x.item.h.addr.toNat (some e))
    (held : genKeys s x.item.slot g = some k)
    (more : counterBase s x.item.slot x.item.h.addr.toNat g e < 2 ^ 24 - 1) : ∃ t o c,
    c = BitVec.ofNat 24 (counterBase s x.item.slot x.item.h.addr.toNat g e + 1) ∧
    writeGo x e {} s = ownerIssued (.txn x.id) g c t ∧ LineIssued s t x.port o ∧ o.owner = .txn x.id ∧
    LineWritten s o x.item.slot x.item.h.addr.toNat k g c x.payload x.poison := by
  have next := (nextLctr_eq x.item.slot x.item.h.addr.toNat g e s).trans (if_neg (Nat.not_le.2 more))
  have work := counterTaken_work x.item.slot x.item.h.addr.toNat g (counterBase s x.item.slot x.item.h.addr.toNat g e + 1) s
  generalize counterTaken x.item.slot x.item.h.addr.toNat g (counterBase s x.item.slot x.item.h.addr.toNat g e + 1) s = u
    at next work
  have runs : writeGo x e {} s = writeSlice (requestWrite x g
      (BitVec.ofNat 24 (counterBase s x.item.slot x.item.h.addr.toNat g e + 1)) k) k {} u := by
    subst gen
    unfold writeGo
    dsimp only
    rw [held, next]
    rfl
  generalize BitVec.ofNat 24 (counterBase s x.item.slot x.item.h.addr.toNat g e + 1) = c at runs next ⊢
  obtain ⟨t, whole, issued⟩ := writeSlice_issues (requestWrite x g c k) k u
  rw [work.slotClass, issuedOp_congr work] at issued
  exact ⟨t, _, c, rfl, runs.trans whole, LineIssued.before work issued, rfl, issuedOp_lineWritten (requestWrite x g c k) k s⟩

end

/-- The hazards of a write's owner clear: its transaction or its step, and the cells of the request (R192). -/
theorem ownerIssued_frame (o : MOwner) (g : BitVec 32) (c : BitVec 24) (s : State) : ownerIssued o g c s = { s with
    rk := (ownerIssued o g c s).rk, pool := (ownerIssued o g c s).pool, links := (ownerIssued o g c s).links
    accts := (ownerIssued o g c s).accts, pastAccts := (ownerIssued o g c s).pastAccts } := by
  unfold ownerIssued
  split
  · split
    · unfold txnConsume
      dsimp only
      split
      · rw [creditRelease_frame]
        rfl
      · rfl
    · rfl
  · rfl
  · rfl

theorem mediaOf_ownerIssued (o : MOwner) (g : BitVec 32) (c : BitVec 24) (s : State) (n : Nat) :
    mediaOf (ownerIssued o g c s) n = mediaOf s n := mediaOf_congr (by rw [ownerIssued_frame]) n

end Sys2Proof.Machine

namespace Sys2Proof
open Sys2Proof.Machine

/-- Settles O32: counter resolution and encryption of a write. -/
theorem writesAreEncryptedUnderAFreshCounter : Obligations.WritesAreEncryptedUnderAFreshCounter := by
  unfold Obligations.WritesAreEncryptedUnderAFreshCounter
  rintro x e kidx a g s rfl rfl gen
  refine ⟨fun absent => writeGo_keyless (gen ▸ absent), fun k base held least => ?_⟩
  subst least
  refine ⟨fun spent => writeGo_spent gen held spent, fun more => ?_⟩
  obtain ⟨t, o, c, counter, runs, issued, own, written⟩ := writeGo_issues gen held more
  subst counter
  refine ⟨o, ?_, own, written⟩
  rw [runs, mediaOf_ownerIssued]
  exact issued.fifoW

end Sys2Proof

/-! OBLIGATIONS. The slots of tag lines: a raw read that is answered from the cache may take its link down. -/

namespace Sys2Proof.Machine

/-- A raw read of tag line 0 by link 0. -/
def rawTagWaits (arr : Nat) : Item :=
  { src := .link 0, op := .readTag, h := { sid := 0, tag := BitVec.ofNat 16 arr, kidx := 1, addr := 0 }, slot := 1, arr := arr }

/-- Two raw reads of link 0 wait for a tag line that is whole in the cache, and the pointers of the link's response queue
differ. -/
def rawTagAnswer : State := { State.reset with
  clk := { running := true, frame := 0#56, cycle := 5 }
  pwr := { State.reset.pwr with stage := .served }
  pool := { State.reset.pool with items := [rawTagWaits 0, rawTagWaits 1], ptrBad := [(129, 0)] }
  tagc := { State.reset.tagc with ways := [(0, { addr := 0, kidx := 1, valid := 0xFF#8 })] } }

end Sys2Proof.Machine

namespace Sys2Proof
open Sys2Proof.Machine

/-- Refutes O34: a raw tag-line read that is answered from the cache while the pointers of its response queue differ takes
its link down (R199), which marks the link's requests that still wait; the clause asks for them as they were. -/
theorem not_tagLineSlotsFetchAndWriteBack : ¬ Obligations.TagLineSlotsFetchAndWriteBack := by
  unfold Obligations.TagLineSlotsFetchAndWriteBack
  rintro ⟨reads, -⟩
  obtain ⟨-, -, raw⟩ := reads 0 rawTagAnswer (by decide +kernel)
  obtain ⟨t, next, items, -⟩ := raw (rawTagWaits 0) (by decide +kernel) (by decide +kernel) (by decide +kernel) (by decide +kernel)
  have runs : t = doTaglineFetch 0 {} rawTagAnswer := (Host.Outcome.next.inj next).symm
  rw [runs] at items
  exact absurd (congrArg (List.map Item.gone) items) (by decide +kernel)

end Sys2Proof

/-! SUPPORT and OBLIGATION. Grants: the slot, the read of the item from the pool, its checks, and the READ_LINE of a read. -/

namespace Sys2Proof.Machine

-- The start of a grant

/-- A slot has been used for an item, which has left its queue. -/
def granting (m : Nat) (d : Dir) (c : Cls) (i : Item) (s : State) : State := itemDel i (slotUse m d c (itemLine i) s)

theorem itemDel_frame (i : Item) (s : State) : itemDel i s = { s with pool := { s.pool with
    items := s.pool.items.filter (fun j => j.arr != i.arr), sticky := (itemDel i s).pool.sticky } } := by
  unfold itemDel stickyTrim
  split <;> rfl

theorem granting_frame (m : Nat) (d : Dir) (c : Cls) (i : Item) (s : State) : granting m d c i s = { s with
    media := (slotUse m d c (itemLine i) s).media
    pool := { s.pool with items := s.pool.items.filter (fun j => j.arr != i.arr), sticky := (granting m d c i s).pool.sticky } } :=
  itemDel_frame ..

theorem rowErrors_cells (cells : List (Nat × BitVec 144)) (s : State) : rowErrors { cells := cells } s = s := rfl

theorem keyFaults_none (k : Nat) (s : State) : keyFaults k {} s = s := by
  unfold keyFaults
  rw [if_neg (fun both => nomatch both.1)]
  rfl

/-- The checks of a grant read no queue and no port (R181). -/
theorem grantRefusal_granting (m : Nat) (d : Dir) (c : Cls) (i : Item) (s : State) :
    grantRefusal (granting m d c i s) i = grantRefusal s i := by
  rw [granting_frame]
  rfl

theorem sumUpN_frame (e : Ev) (src a b c n : Nat) (s : State) : sumUpN e src a b c n s = { s with
    regs := (sumUpN e src a b c n s).regs, ev := (sumUpN e src a b c n s).ev } := by
  unfold sumUpN
  induction n with
  | zero => rfl
  | succ n ih =>
    show sumUp e src a b c (Nat.repeat (sumUp e src a b c) n s) = { s with
      regs := (sumUp e src a b c (Nat.repeat (sumUp e src a b c) n s)).regs
      ev := (sumUp e src a b c (Nat.repeat (sumUp e src a b c) n s)).ev }
    generalize Nat.repeat (sumUp e src a b c) n s = t at ih ⊢
    rw [sumUp_frame, ih]

theorem wordsNote_frame (src q kind n : Nat) (s : State) : wordsNote src q kind n s = { s with
    regs := (wordsNote src q kind n s).regs, ev := (wordsNote src q kind n s).ev } := by
  unfold wordsNote
  split
  · rfl
  · rw [sumUpN_frame]
    rfl

/-- The words of an item's header that fail are counted, and its flush with them (R198). -/
def headNoted (i : Item) (f : Faults) (s : State) : State := count1 (iqIdx (i.q / 8)) 0x21 0
  (wordsNote (srcMedia (i.q / 8) 5) i.q 1 (bitCount 4 (itemRead i f).head.toNat) s)

theorem headNoted_frame (i : Item) (f : Faults) (s : State) :
    headNoted i f s = { s with regs := (headNoted i f s).regs, ev := (headNoted i f s).ev } := by
  unfold headNoted
  rw [wordsNote_frame]
  rfl

section
variable {m : Nat} {d : Dir} {c : Cls} {i : Item} {go : Item → State → State} {s : State}
  (sound : tabFind s.pool.ptrBad i.q = none)
include sound

theorem ptrField_sound {f : Faults} (whole : f.ptr = none) : ptrField (slotUse m d c (itemLine i) s) i.q f = none := by
  unfold ptrField
  rw [whole]
  exact sound

theorem grantRead_sound : grantRead i {} (slotUse m d c (itemLine i) s) = (true, granting m d c i s) := by
  unfold grantRead
  rw [ptrField_sound sound rfl]
  rfl

/-- An item with nothing damaged that passes its checks is worked on. -/
theorem grantItemThen_passes (passed : grantRefusal s i = none) :
    grantItemThen m d c i {} go s = go i (granting m d c i s) := by
  unfold grantItemThen
  dsimp only
  rw [rowErrors_cells, grantRead_sound sound]
  dsimp only
  rw [keyFaults_none, grantRefusal_granting, passed]

theorem grantItemThen_refused {step st : Nat} (refused : grantRefusal s i = some (step, st)) :
    grantItemThen m d c i {} go s = grantRefuse i step st (granting m d c i s) := by
  unfold grantItemThen
  dsimp only
  rw [rowErrors_cells, grantRead_sound sound]
  dsimp only
  rw [keyFaults_none, grantRefusal_granting, refused]

/-- A header that fails parity outside the bytes that answer it makes its item FLUSHED (Table 09.5). -/
theorem grantItemThen_badHeader {cells : List (Nat × BitVec 144)} (bad : (itemRead i { cells := cells }).hdr = 1) :
    grantItemThen m d c i { cells := cells } go s = completeBare i stFlushed (opCells i.op)
      (itemDel i (headNoted i { cells := cells } (slotUse m d c (itemLine i) s))) := by
  unfold grantItemThen
  dsimp only
  rw [rowErrors_cells]
  unfold grantRead
  rw [ptrField_sound sound rfl]
  dsimp only
  rw [bad]
  rfl

end

/-- What a refusal at a grant reports before it answers (Table 08.10). -/
def holdNoted (i : Item) (step st : Nat) (s : State) : State := if st = stCommitHold then commitHoldNote i step s else s

theorem holdNoted_frame (i : Item) (step st : Nat) (s : State) :
    holdNoted i step st s = { s with regs := (holdNoted i step st s).regs, ev := (holdNoted i step st s).ev } := by
  unfold holdNoted
  split
  · unfold commitHoldNote
    rw [raise_frame]
    rfl
  · rfl

/-- What is noted before an item leaves its queue is noted as well after it has left. -/
theorem itemDel_note {i : Item} {s u : State} (noted : u = { s with regs := u.regs, ev := u.ev }) :
    itemDel i u = { itemDel i s with regs := (itemDel i u).regs, ev := (itemDel i u).ev } := by
  rw [noted]
  unfold itemDel stickyTrim
  dsimp only
  split <;> rfl

-- What a grant changes besides its operation

/-- Lookups in Jack and the tag cache, and the transactions of a grant (R82, R103, R107). -/
structure Granted (s t : State) : Prop where
  pool : t.pool = { s.pool with txns := t.pool.txns, nextId := t.pool.nextId }
  frame : t = { s with free := t.free, jack := t.jack, tagc := t.tagc, regs := t.regs, ev := t.ev, pool := t.pool }

namespace Granted
variable {s t u : State}

theorem refl (s : State) : Granted s s := ⟨rfl, rfl⟩

theorem trans (h : Granted s t) (g : Granted t u) : Granted s u where
  pool := by rw [g.pool, h.pool]
  frame := by rw [g.frame, h.frame]

theorem of_lookup (h : t = { s with free := t.free, jack := t.jack, tagc := t.tagc, regs := t.regs, ev := t.ev }) : Granted s t :=
  ⟨by rw [h], by rw [h]⟩

theorem txnPut (t : Txn) (s : State) : Granted s (Machine.txnPut t s) := ⟨rfl, rfl⟩

theorem media (h : Granted s t) (n : Nat) : mediaOf t n = mediaOf s n := mediaOf_congr (by rw [h.frame]) n

theorem items (h : Granted s t) : t.pool.items = s.pool.items := by rw [h.pool]

end Granted

theorem mem_txnPut {t x : Txn} {s : State} (here : x ∈ s.pool.txns) (same : x.id = t.id) : t ∈ (txnPut t s).pool.txns :=
  List.mem_map.2 ⟨x, here, if_pos same⟩

theorem taglineMedia_frame (tl w : Nat) (s : State) : taglineMedia tl w s = { s with
    regs := (taglineMedia tl w s).regs, ev := (taglineMedia tl w s).ev } := by
  unfold taglineMedia tlEv
  rw [raise_frame]
  rfl

theorem fetchAsk_frame (tl k : Nat) (owners : List MOwner) (wb : Bool) (s : State) : fetchAsk tl k owners wb s = { s with
    tagc := (fetchAsk tl k owners wb s).tagc, regs := (fetchAsk tl k owners wb s).regs, ev := (fetchAsk tl k owners wb s).ev } := by
  unfold fetchAsk
  split
  · split
    · rfl
    · rw [taglineMedia_frame]
  · split <;> rfl

theorem tagHit_frame (tl : Nat) (s : State) : tagHit tl s = { s with tagc := (tagHit tl s).tagc, regs := (tagHit tl s).regs } := by
  unfold tagHit
  split <;> rfl

theorem tagLookup_granted (o : MOwner) (k tl e : Nat) (f : Faults) (s : State) : Granted s (tagLookup o k tl e f s) := by
  unfold tagLookup
  dsimp only
  have checked : Granted s (tagSecded f tl s) := .of_lookup (by rw [tagSecded_frame])
  split
  · exact checked.trans (.of_lookup (by rw [tagHit_frame]))
  · exact checked.trans (.of_lookup (by rw [fetchAsk_frame]))

theorem jackLookup_frame (k a : Nat) (pe : Bool) (s : State) : (jackLookup k a pe s).2 = { s with
    jack := (jackLookup k a pe s).2.jack, regs := (jackLookup k a pe s).2.regs, ev := (jackLookup k a pe s).2.ev } := by
  unfold jackLookup
  split
  · rfl
  · split
    · dsimp only
      rw [raise_frame]
      rfl
    · split <;> rfl

theorem lookAhead_frame (k a : Nat) (s : State) :
    lookAhead k a s = { s with jack := (lookAhead k a s).jack, regs := (lookAhead k a s).regs } := by
  unfold lookAhead
  generalize List.range (cfgVal s 0x2050 2 0) = l
  induction l generalizing s with
  | nil => rfl
  | cons j l ih =>
    rw [List.foldl_cons, ih]
    split
    · unfold lookOne
      dsimp only
      split
      · rfl
      · split <;> rfl
    · rfl

theorem lookAhead_granted (k a : Nat) (s : State) : Granted s (lookAhead k a s) := .of_lookup (by rw [lookAhead_frame])

/-- The transaction that a grant opens for an item. -/
def openedTxn (i : Item) (st : TxSt) (s : State) : Txn :=
  { id := s.pool.nextId, item := i, st := st, port := i.q / 8, payload := i.data, mask := i.ext, cells := opCells i.op
    sl := sliceNo s (i.q / 8) }

/-- The state in which it is open. -/
def txnOpened (i : Item) (st : TxSt) (s : State) : State :=
  txnAdd (openedTxn i st s) { s with pool := { s.pool with nextId := s.pool.nextId + 1 } }

theorem txnOpen_eq (i : Item) (st : TxSt) (s : State) : txnOpen i st s = (openedTxn i st s, txnOpened i st s) := rfl

theorem txnOpened_granted (i : Item) (st : TxSt) (s : State) : Granted s (txnOpened i st s) := ⟨rfl, rfl⟩

theorem mem_txnOpened (i : Item) (st : TxSt) (s : State) : openedTxn i st s ∈ (txnOpened i st s).pool.txns :=
  List.mem_append_right _ List.mem_cons_self

/-- A transaction of a number holds an item in a state. -/
def txnStands (id : Nat) (i : Item) (st : TxSt) (s : State) : Prop := ∃ x ∈ s.pool.txns, x.id = id ∧ x.item = i ∧ x.st = st

theorem txnStands_congr {id : Nat} {i : Item} {st : TxSt} {s t : State} (same : t.pool = s.pool) (stands : txnStands id i st s) :
    txnStands id i st t := by
  unfold txnStands
  rw [same]
  exact stands

theorem txnStands_txnPut {id : Nat} {i : Item} {st : TxSt} {t : Txn} {s : State} (stands : txnStands t.id i st s) (own : t.id = id)
    (item : t.item = i) (state : t.st = st) : txnStands id i st (txnPut t s) := by
  obtain ⟨x, here, same, -⟩ := stands
  exact ⟨t, mem_txnPut here same, own, item, state⟩

-- Reads

/-- The read of a line by its transaction. -/
def readOp (id a : Nat) : MOp := { kind := .read, addr := a, owner := .txn id }

/-- A read that is granted opens its transaction and issues its READ_LINE. -/
structure ReadStarts (m : Nat) (i : Item) (s t : State) : Prop where
  work : Granted s t
  stands : txnStands s.pool.nextId i .reading t

theorem jackLookup_granted (k a : Nat) (pe : Bool) (s : State) : Granted s (jackLookup k a pe s).2 :=
  .of_lookup (by rw [jackLookup_frame])

theorem jackLookup_pool (k a : Nat) (pe : Bool) (s : State) : (jackLookup k a pe s).2.pool = s.pool := by
  rw [jackLookup_frame]

theorem tagLookup_pool (o : MOwner) (k tl e : Nat) (f : Faults) (s : State) : (tagLookup o k tl e f s).pool = s.pool := by
  unfold tagLookup
  dsimp only
  split
  · rw [tagHit_frame, tagSecded_frame]
  · rw [fetchAsk_frame, tagSecded_frame]

/-- The lookups of a READ_LINE: its tag entry, then its counter prediction (R82, R103). -/
def readLookups (f : Faults) (i : Item) (t : Txn) (s : State) : State :=
  let s := match itemTag s i with
    | some (tl, e) => tagLookup (.txn t.id) i.slot tl e f s
    | none => s
  let t := { t with tagEnt := (itemTag s i).bind (fun x => tagCached s x.1 x.2) }
  let s := txnPut t s
  match jackLookup i.slot (itemLine i) f.jackPe s with
  | (some e, s) =>
    let g := (genByKgen4 (slotOf s i.slot) (jeKgen4 e)).getD 0#32
    txnPut { t with pred := some (jeLctr e - BitVec.ofNat 24 (jeLead e), g) } (count1 0x6050 1 0 s)
  | (none, s) => lookAhead i.slot (itemLine i) (count1 0x6050 2 0 s)

theorem readGrant_eq (m : Nat) (f : Faults) (i : Item) (s : State) : readGrant m f i s =
    issueR m (readOp s.pool.nextId (itemLine i)) (if i.op = .readLine then
      readLookups f i (openedTxn i .reading s) (txnOpened i .reading s) else txnOpened i .reading s) := rfl

theorem readLookups_keep {f : Faults} {i : Item} {t : Txn} {s : State} (stands : txnStands t.id t.item t.st s) :
    Granted s (readLookups f i t s) ∧ txnStands t.id t.item t.st (readLookups f i t s) := by
  unfold readLookups
  dsimp only
  generalize hu : (match itemTag s i with
    | some (tl, e) => tagLookup (.txn t.id) i.slot tl e f s
    | none => s) = u
  have looked : Granted s u ∧ u.pool = s.pool := by
    rw [← hu]
    split
    · exact ⟨tagLookup_granted .., tagLookup_pool ..⟩
    · exact ⟨.refl s, rfl⟩
  generalize (itemTag u i).bind (fun x => tagCached u x.1 x.2) = ent
  have put : Granted s (txnPut { t with tagEnt := ent } u) := looked.1.trans (.txnPut ..)
  have here : txnStands t.id t.item t.st (txnPut { t with tagEnt := ent } u) :=
    txnStands_txnPut (txnStands_congr looked.2 stands) rfl rfl rfl
  generalize txnPut { t with tagEnt := ent } u = v at put here ⊢
  have found := jackLookup_granted i.slot (itemLine i) f.jackPe v
  have kept := jackLookup_pool i.slot (itemLine i) f.jackPe v
  generalize jackLookup i.slot (itemLine i) f.jackPe v = r at found kept ⊢
  obtain ⟨e, w⟩ := r
  have stays : txnStands t.id t.item t.st w := txnStands_congr kept here
  cases e with
  | some e => exact ⟨(put.trans found).trans ((Granted.of_lookup rfl).trans (.txnPut ..)),
      txnStands_txnPut (s := count1 0x6050 1 0 w) stays rfl rfl rfl⟩
  | none => exact ⟨(put.trans found).trans ((Granted.of_lookup rfl).trans (lookAhead_granted ..)),
      txnStands_congr (s := w) (by dsimp only; rw [lookAhead_frame]; rfl) stays⟩

theorem readGrant_starts (m : Nat) (f : Faults) (i : Item) (s : State) : ∃ t, ReadStarts m i s t ∧
    readGrant m f i s = issueR m (readOp s.pool.nextId (itemLine i)) t ∧ (i.op ≠ .readLine → t.jack = s.jack) := by
  have opened := txnOpened_granted i .reading s
  have stands : txnStands s.pool.nextId i .reading (txnOpened i .reading s) := ⟨_, mem_txnOpened .., rfl, rfl, rfl⟩
  rw [readGrant_eq]
  split
  · next line =>
    obtain ⟨work, stays⟩ := readLookups_keep (f := f) (i := i) (t := openedTxn i .reading s) stands
    exact ⟨_, ⟨opened.trans work, stays⟩, rfl, fun other => absurd line other⟩
  · exact ⟨_, ⟨opened, stands⟩, rfl, fun _ => rfl⟩

theorem itemRead_none (i : Item) : itemRead i {} = { item := i } := rfl

theorem readWords_none (i : Item) : readWords { item := i } = 0 := by
  show bitCount 4 (cellWords 0#16).toNat +
    (List.range 4).foldl (fun n k => n + bitCount 4 (cellWords ((0#64).extractLsb' (16 * k) 16)).toNat) 0 = 0
  decide +kernel

theorem wordFaults_none (i : Item) (s : State) : wordFaults i {} s = s := by
  unfold wordFaults
  rw [itemRead_none, readWords_none]
  exact if_pos rfl

/-- The read half of a partial write with nothing damaged. -/
theorem partialReadStart_starts (m : Nat) (i : Item) (s : State) : ∃ t, ReadStarts m i s t ∧
    partialReadStart m {} i s = issueR m (readOp s.pool.nextId (itemLine i)) t := by
  unfold partialReadStart
  rw [wordFaults_none, itemRead_none]
  dsimp only
  rw [txnOpen_eq]
  dsimp only
  generalize maskFaults _ _ = mask
  generalize (i.psn || _ || _) = poison
  have opened := txnOpened_granted i .reading s
  have stands : txnStands s.pool.nextId i .reading (txnOpened i .reading s) := ⟨_, mem_txnOpened .., rfl, rfl, rfl⟩
  have put : Granted s (txnPut { openedTxn i .reading s with mask := mask, poison := poison } (txnOpened i .reading s)) :=
    opened.trans (.txnPut ..)
  have here : txnStands s.pool.nextId i .reading
      (txnPut { openedTxn i .reading s with mask := mask, poison := poison } (txnOpened i .reading s)) :=
    txnStands_txnPut (id := s.pool.nextId) stands rfl rfl rfl
  generalize txnPut { openedTxn i .reading s with mask := mask, poison := poison } (txnOpened i .reading s) = u at put here ⊢
  refine ⟨_, ⟨?_, ?_⟩, rfl⟩
  · split
    · exact put.trans ((tagLookup_granted ..).trans (.of_lookup rfl))
    · exact put
  · split
    · exact txnStands_congr (s := u) (tagLookup_pool ..) here
    · exact here

end Sys2Proof.Machine

namespace Sys2Proof
open Sys2Proof.Machine

section
variable {m : Fin 16} {i : Item} {s : State} (slot : slotFor s m .r = some .fg) (pick : fgPick s m .r = .item i)
  (free : lineClash s m .r i = false)
include slot pick free

theorem fgReadGrant_runs (f : Faults) (line : i.op ≠ .writePartial) : exec (.fgReadGrant m f) s =
    .next (grantItemThen m .r .fg i f (readGrant m f) s) := by
  refine congrArg Host.Outcome.next ?_
  unfold doFgReadGrant
  rw [if_pos slot, pick]
  dsimp only
  rw [if_neg (fun either => either.elim line (fun clash => by rw [free] at clash; cases clash))]

theorem partialReadGrant_runs (f : Faults) (half : i.op = .writePartial) : exec (.partialReadGrant m f) s =
    .next (grantItemThen m .r .fg i f (partialReadStart m f) s) := by
  refine congrArg Host.Outcome.next ?_
  unfold doPartialReadGrant
  rw [if_pos slot, pick]
  dsimp only
  rw [if_neg (fun either => either.elim (fun other => other half) (fun clash => by rw [free] at clash; cases clash))]

/-- A granted read starts: in either form, its READ_LINE is the last operation of the port's read queue. -/
theorem readGrant_issues (passed : grantRefusal s i = none) (sound : tabFind s.pool.ptrBad i.q = none) :
    ∃ t, exec (if i.op = .writePartial then .partialReadGrant m {} else .fgReadGrant m {}) s = .next t ∧
      t.pool.items = s.pool.items.filter (fun j => j.arr != i.arr) ∧
      (∃ x ∈ t.pool.txns, x.id = s.pool.nextId ∧ x.item = i ∧ x.st = .reading) ∧
      (mediaOf t m).fifoR = (mediaOf s m).fifoR ++
        [{ kind := .read, addr := itemLine i, owner := .txn s.pool.nextId, seq := s.mseq, cyc := now s }] ∧
      (mediaOf t m).stampR = some (now s, itemLine i) ∧ (mediaOf t m).fifoW = (mediaOf s m).fifoW ∧
      (i.op = .readRaw → t.jack = s.jack) ∧ t.keys = s.keys ∧ t.nv = s.nv ∧ t.clk = s.clk ∧ t.cfg = s.cfg := by
  have frame := granting_frame m .r .fg i s
  have ports : ∀ n, mediaOf (granting m .r .fg i s) n = mediaOf (slotUse m .r .fg (itemLine i) s) n := fun n =>
    mediaOf_congr (by rw [frame]) n
  have id : (granting m .r .fg i s).pool.nextId = s.pool.nextId := by rw [frame]
  have jack : (granting m .r .fg i s).jack = s.jack := by rw [frame]
  have runs : ∃ u, ReadStarts m i (granting m .r .fg i s) u ∧ (i.op ≠ .readLine → i.op ≠ .writePartial → u.jack = s.jack) ∧
      exec (if i.op = .writePartial then .partialReadGrant m {} else .fgReadGrant m {}) s =
        .next (issueR m (readOp s.pool.nextId (itemLine i)) u) := by
    by_cases half : i.op = .writePartial
    · obtain ⟨u, starts, whole⟩ := partialReadStart_starts m i (granting m .r .fg i s)
      rw [if_pos half, partialReadGrant_runs slot pick free {} half, grantItemThen_passes sound passed, whole, id]
      exact ⟨u, starts, fun _ other => absurd half other, rfl⟩
    · obtain ⟨u, starts, whole, raw⟩ := readGrant_starts m {} i (granting m .r .fg i s)
      rw [if_neg half, fgReadGrant_runs slot pick free {} half, grantItemThen_passes sound passed, whole, id]
      exact ⟨u, starts, fun other _ => (raw other).trans jack, rfl⟩
  obtain ⟨u, ⟨work, stands⟩, raw, next⟩ := runs
  have port : mediaOf (issueR m (readOp s.pool.nextId (itemLine i)) u) m = { slotUsed .r .fg (now s) (itemLine i) (mediaOf s m) with
      fifoR := (mediaOf s m).fifoR ++
        [{ kind := .read, addr := itemLine i, owner := .txn s.pool.nextId, seq := s.mseq, cyc := now s }] } := by
    rw [mediaOf_issueR, if_pos rfl, work.media, ports, mediaOf_slotUse, if_pos rfl, slotUsed_fifoR, work.frame, frame]
    rfl
  refine ⟨_, next, ?_, id ▸ stands, by rw [port], by rw [port]; rfl, by rw [port]; rfl, fun kind => raw ?_ ?_, ?_, ?_, ?_, ?_⟩
  · show u.pool.items = _
    rw [work.items, frame]
  · rw [kind]
    decide
  · rw [kind]
    decide
  · show u.keys = _
    rw [work.frame, frame]
  · show u.nv = _
    rw [work.frame, frame]
  · show u.clk = _
    rw [work.frame, frame]
  · show u.cfg = _
    rw [work.frame, frame]

/-- A read that its grant answers without an operation. -/
theorem readGrant_answers {f : Faults} (line : i.op ≠ .writePartial) (here : i.gone = false) (answers : eqSound s i.src)
    {u : State} {st : Nat} (noted : u = { granting m .r .fg i s with regs := u.regs, ev := u.ev })
    (ends : grantItemThen m .r .fg i f (readGrant m f) s = completeBare i st (opCells i.op) u) :
    ∃ t, exec (.fgReadGrant m f) s = .next t ∧
      t.pool.items = s.pool.items.filter (fun j => j.arr != i.arr) ∧ t.pool.txns = s.pool.txns ∧
      (mediaOf t m).fifoR = (mediaOf s m).fifoR ∧
      ∃ r ∈ rspsOf t i.src, r.tag = i.h.tag ∧ r.status = BitVec.ofNat 8 st ∧ r.data = none := by
  rw [granting_frame] at noted
  have sound : eqSound u i.src := fun p own => by
    rw [noted]
    exact answers p own
  have answered := completeBare_answered (status := st) (cells := opCells i.op) (s := u) fun _ => sound
  refine ⟨_, (fgReadGrant_runs slot pick free f line).trans (congrArg Host.Outcome.next ends), ?_, ?_, ?_,
    _, mem_completeBare here sound, rfl, rfl, rfl⟩
  · rw [answered.items, noted]
  · rw [answered.txns, noted]
  · rw [mediaOf_congr (s := slotUse m .r .fg (itemLine i) s) (by rw [answered.frame, noted]), slotUse_fifoR]

end

/-- Settles O30: what a read grant issues or answers. -/
theorem readGrantsIssueOrAnswer : Obligations.ReadGrantsIssueOrAnswer := by
  unfold Obligations.ReadGrantsIssueOrAnswer
  refine ⟨fun m i s slot pick free passed sound => readGrant_issues slot pick free passed sound,
    fun m i s slot pick line free here sound answers => ⟨fun step status refused => ?_, fun cells bad => ?_⟩⟩
  · have ends := grantItemThen_refused (m := m) (d := .r) (c := .fg) (go := readGrant m {}) sound refused
    exact readGrant_answers slot pick free line here answers (holdNoted_frame ..) ends
  · exact readGrant_answers slot pick free line here answers (itemDel_note (headNoted_frame ..))
      (grantItemThen_badHeader sound bad)

end Sys2Proof

/-! SUPPORT. What the counter of a write rests on, the entries that lookups and fills give, and the probe of a miss. -/

namespace Sys2Proof.Machine

-- What a write's generation and counter rest on

/-- Two states in which the writes of a generation take the same key and counter (R62, R99). -/
structure SameCounters (s t : State) : Prop where
  cfg : t.cfg = s.cfg
  keys : t.keys = s.keys
  clk : t.clk = s.clk
  holds : t.rep.holds = s.rep.holds
  writes : ∀ n, portWrites t n = portWrites s n

/-- Two states in which a line's next write takes the same generation, key and counter (R147). -/
structure SameWrites (s t : State) : Prop extends SameCounters s t where
  rk : t.rk = s.rk

namespace SameCounters
variable {s t : State} (h : SameCounters s t)
include h

theorem lineFlights (a : Nat) : Machine.lineFlights t a = Machine.lineFlights s a := by
  have port : portOf t a = portOf s a := by
    unfold portOf cfgVal
    rw [h.cfg]
  unfold Machine.lineFlights
  rw [port, h.writes, h.holds]

theorem slotOf (k : Nat) : Machine.slotOf t k = Machine.slotOf s k := slotOf_congr (by rw [h.keys]) k

theorem counterBase (k a : Nat) (g : BitVec 32) (e : BitVec 64) : Machine.counterBase t k a g e = Machine.counterBase s k a g e := by
  unfold Machine.counterBase flightMax
  rw [h.slotOf, h.lineFlights]

theorem genKeys (k : Nat) (g : BitVec 32) : Machine.genKeys t k g = Machine.genKeys s k g := by
  have key : ∀ m, matKey t m = matKey s m := fun m => by
    unfold matKey frameNo
    rw [h.clk]
  unfold Machine.genKeys
  rw [h.slotOf, key]

theorem slotClass (k : Nat) : Machine.slotClass t k = Machine.slotClass s k := by
  unfold Machine.slotClass cfgVal
  rw [h.cfg]

/-- A line as it is written in either state. -/
theorem lineWritten {o : MOp} {k a : Nat} {keys : GenKeys} {g : BitVec 32} {c : BitVec 24} {pt : Line} {psn : Bool}
    (written : LineWritten t o k a keys g c pt psn) : LineWritten s o k a keys g c pt psn where
  isWrite := written.isWrite
  recorded := written.recorded
  carries := by
    rw [← h.slotClass]
    exact written.carries

end SameCounters

namespace SameWrites
variable {s t : State} (h : SameWrites s t)
include h

theorem ctxFor (k : Nat) : Machine.ctxFor t k = Machine.ctxFor s k := by
  unfold Machine.ctxFor ctxOf
  rw [h.rk]

theorem genForWrite (k a : Nat) (e : Option (BitVec 64)) : Machine.genForWrite t k a e = Machine.genForWrite s k a e := by
  have ctx : ∀ n, ctxOf t n = ctxOf s n := fun n => ctxOf_congr (by rw [h.rk]) n
  unfold Machine.genForWrite flightUnder
  dsimp only
  simp only [h.slotOf, h.lineFlights, h.ctxFor, ctx]

end SameWrites

theorem portWrites_congr {s t : State} {n : Nat} (fifo : (mediaOf t n).fifoW = (mediaOf s n).fifoW)
    (out : (mediaOf t n).outW = (mediaOf s n).outW) : portWrites t n = portWrites s n := by
  unfold portWrites
  rw [fifo, out]

theorem slotUsed_outW (d : Dir) (c : Cls) (a l : Nat) (x : Media) : (slotUsed d c a l x).outW = x.outW := by
  cases d <;> rfl

theorem portWrites_slotUse (m : Nat) (d : Dir) (c : Cls) (line : Nat) (s : State) (n : Nat) :
    portWrites (slotUse m d c line s) n = portWrites s n := by
  refine portWrites_congr (slotUse_fifoW ..) ?_
  rw [mediaOf_slotUse]
  split
  · next same => rw [slotUsed_outW, same]
  · rfl

theorem sameWrites_slotUse (m : Nat) (d : Dir) (c : Cls) (line : Nat) (s : State) : SameWrites s (slotUse m d c line s) :=
  ⟨⟨rfl, rfl, rfl, rfl, portWrites_slotUse m d c line s⟩, rfl⟩

/-- A change of other parts. -/
theorem SameCounters.of_frame {s t u : State} (h : SameCounters s t) (frame : u = { t with
    free := u.free, pool := u.pool, rk := u.rk, jack := u.jack, tagc := u.tagc, regs := u.regs, ev := u.ev }) :
    SameCounters s u where
  cfg := by rw [frame, ← h.cfg]
  keys := by rw [frame, ← h.keys]
  clk := by rw [frame, ← h.clk]
  holds := by rw [frame, ← h.holds]
  writes n := by
    rw [← h.writes n]
    unfold portWrites
    rw [mediaOf_congr (s := t) (t := u) (by rw [frame])]

theorem SameWrites.of_frame {s t u : State} (h : SameWrites s t) (frame : u = { t with
    free := u.free, pool := u.pool, jack := u.jack, regs := u.regs, ev := u.ev }) : SameWrites s u where
  toSameCounters := h.toSameCounters.of_frame (by rw [frame])
  rk := by rw [frame, ← h.rk]

-- Entries

theorem jackEntry_congr {s t : State} (jack : t.jack.entries = s.jack.entries) (cfg : t.cfg = s.cfg) (a : Nat) :
    jackEntry t a = jackEntry s a := by
  have port : portOf t a = portOf s a := by
    unfold portOf cfgVal
    rw [cfg]
  unfold jackEntry
  rw [port, jack]

theorem jackLookup_hit {k a w : Nat} {e : BitVec 64} {s : State} (entry : jackEntry s a = some (w, e))
    (live : (genByKgen4 (slotOf s k) (jeKgen4 e)).isSome = true) : jackLookup k a false s = (some e, s) := by
  obtain ⟨g, found⟩ := Option.isSome_iff_exists.1 live
  unfold jackLookup
  rw [entry]
  dsimp only
  rw [if_neg (by decide), found]

theorem jackLookup_none {k a : Nat} {pe : Bool} {s : State} (none : jackEntry s a = none) : jackLookup k a pe s = (.none, s) := by
  unfold jackLookup
  rw [none]

/-- A lookup that does not hit gives no entry. -/
theorem jackLookup_miss {k a : Nat} {s : State} (miss : jackLive s k a = false) : (jackLookup k a false s).1 = none := by
  unfold jackLive at miss
  unfold jackLookup
  split at miss
  · next w e entry =>
    rw [entry]
    dsimp only
    rw [if_neg (by decide)]
    split
    · rfl
    · next g found =>
      rw [found] at miss
      cases miss
  · next none =>
    rw [none]

/-- Where a line had no entry, the entry that one new way leaves it is that one. -/
theorem jackEntry_tabSet {a k w : Nat} {e v : BitVec 64} {s t : State} (none : jackEntry s a = none) (cfg : t.cfg = s.cfg)
    (entries : t.jack.entries = tabSet s.jack.entries k e) (after : jackEntry t a = some (w, v)) : v = e := by
  have port : portOf t a = portOf s a := by
    unfold portOf cfgVal
    rw [cfg]
  unfold jackEntry at none after
  rw [port, entries] at after
  obtain ⟨j, here, found⟩ := List.exists_of_findSome?_eq_some after
  have old := List.findSome?_eq_none_iff.1 none j here
  rw [tabFind_tabSet] at found
  by_cases same : jackKey (portOf s a) (jackSet a) j = k
  · rw [if_pos same] at found
    dsimp only at found
    split at found
    · cases found
      rfl
    · cases found
  · rw [if_neg same] at found
    exact nomatch old.symm.trans found

theorem jackEntry_jackWrite {a w : Nat} {e v : BitVec 64} {s : State} (none : jackEntry s a = none)
    (after : jackEntry (jackWrite a e s) a = some (w, v)) : v = e := by
  unfold jackWrite at after
  rw [none] at after
  dsimp only at after
  have place := jackPlace_frame a s
  generalize jackPlace a s = r at place after
  obtain ⟨k, t⟩ := r
  dsimp only at place
  cases k with
  | none =>
    dsimp only at after
    rw [jackEntry_congr (s := s) (by rw [place]) (by rw [place]), none] at after
    cases after
  | some k => exact jackEntry_tabSet none (k := k) (by rw [place]) (by rw [place]) after

end Sys2Proof.Machine

/-! SUPPORT. What a raw write slot starts (R109, R161), and the pick of a slot (R194). -/

namespace Sys2Proof.Machine

-- The consumption of a request's cells

theorem txnConsume_answered (t : Txn) (s : State) : Answered (txnPut { t with cells := 1 } s) (txnConsume t s) := by
  unfold txnConsume
  dsimp only
  split
  · exact creditRelease_answered ..
  · exact .refl _

theorem txnConsume_frame (t : Txn) (s : State) : txnConsume t s = { s with
    regs := (txnConsume t s).regs, links := (txnConsume t s).links, accts := (txnConsume t s).accts
    pastAccts := (txnConsume t s).pastAccts, pool := (txnConsume t s).pool } := by
  rw [(txnConsume_answered t s).frame]
  rfl

theorem txnConsume_items (t : Txn) (s : State) : (txnConsume t s).pool.items = s.pool.items :=
  (txnConsume_answered t s).items

theorem mem_txnConsume {t x : Txn} {s : State} (here : x ∈ s.pool.txns) (same : x.id = t.id) :
    { t with cells := 1 } ∈ (txnConsume t s).pool.txns := by
  rw [(txnConsume_answered t s).txns]
  exact mem_txnPut (t := { t with cells := 1 }) here same

-- A raw write

theorem jackInvalidate_frame (a : Nat) (s : State) : jackInvalidate a s = { s with jack := (jackInvalidate a s).jack } := by
  unfold jackInvalidate
  split <;> rfl

theorem jackInvalidate_drops {a k : Nat} {e : BitVec 64} {s : State} (entry : jackEntry s a = some (k, e)) :
    tabFind (jackInvalidate a s).jack.entries k = none := by
  unfold jackInvalidate
  rw [entry]
  show tabFind (tabDel s.jack.entries k) k = none
  rw [tabFind_tabDel, if_pos rfl]

theorem probeAdd_frame (k a n : Nat) (s : State) : probeAdd k a n s = { s with
    jack := { s.jack with probes := (probeAdd k a n s).jack.probes } } := by
  unfold probeAdd
  dsimp only
  split <;> rfl

theorem probeVoid_frame (a : Nat) (s : State) : probeVoid a s = { s with
    media := (probeVoid a s).media, jack := { s.jack with probes := (probeVoid a s).jack.probes } } := by
  unfold probeVoid
  dsimp only
  split
  · split
    · rw [probeAdd_frame]
      rfl
    · rfl
  · rfl

/-- A port whose probes of a line are void: what they bring is discarded (R109). -/
def probesLost (a : Nat) (x : Media) : Media :=
  let dead := fun (o : MOp) => if o.kind = .sidecar ∧ o.addr = a then { o with owner := .flush } else o
  { x with fifoR := x.fifoR.map dead, outR := x.outR.map (fun e => (e.1, dead e.2)) }

theorem probeVoid_media (a : Nat) (s : State) : (probeVoid a s).media = s.media ∨
    (probeVoid a s).media = (mediaMod (portOf s a) (probesLost a) s).media := by
  unfold probeVoid
  dsimp only
  split
  · refine .inr ?_
    split
    · rw [probeAdd_frame]
      rfl
    · rfl
  · exact .inl rfl

theorem probeVoid_fifoW (a : Nat) (s : State) (n : Nat) : (mediaOf (probeVoid a s) n).fifoW = (mediaOf s n).fifoW := by
  rcases probeVoid_media a s with same | lost
  · rw [mediaOf_congr same]
  · rw [mediaOf_congr lost, mediaOf_mediaMod]
    split
    · next here => rw [here, probesLost]
    · rfl

theorem rawAhead_frame (i : Item) (sc : Side) (s : State) : rawAhead i sc s = { s with
    rk := (rawAhead i sc s).rk, regs := (rawAhead i sc s).regs, ev := (rawAhead i sc s).ev } := by
  unfold rawAhead
  dsimp only
  split
  · rfl
  · split
    · split
      · rw [raise_frame]
      · unfold aheadAdd
        dsimp only
        split <;> rfl
    · rfl

/-- What the grant of a raw write leaves before its operation is issued. -/
def rawStarted (i : Item) (s : State) : State :=
  rawAhead i i.ext (probeVoid (itemLine i) (jackInvalidate (itemLine i)
    (txnConsume { openedTxn i .writing s with rawPoison := false } (txnOpened i .writing s))))

theorem readBad_none (i : Item) : readBad { item := i } = false := rfl

theorem rawWriteGrant_none (m : Nat) (i : Item) (s : State) : rawWriteGrant m {} i s = issueW m
    { kind := .write, addr := itemLine i, data := mediaJoin i.data i.ext, owner := .txn s.pool.nextId } (rawStarted i s) := by
  unfold rawWriteGrant
  rw [itemRead_none]
  dsimp only
  rw [readBad_none, wordFaults_none]
  rfl

/-- A raw write leaves its queue and the entry of its line, and opens its transaction. -/
theorem rawStarted_facts (i : Item) (s : State) : (rawStarted i s).pool.items = s.pool.items ∧
    (∀ n, (mediaOf (rawStarted i s) n).fifoW = (mediaOf s n).fifoW) ∧
    (∀ k e, jackEntry s (itemLine i) = some (k, e) → tabFind (rawStarted i s).jack.entries k = none) ∧
    (rawStarted i s).keys = s.keys ∧ (rawStarted i s).nv = s.nv ∧ (rawStarted i s).clk = s.clk ∧
    (rawStarted i s).mseq = s.mseq := by
  unfold rawStarted
  have consumed := txnConsume_frame { openedTxn i .writing s with rawPoison := false } (txnOpened i .writing s)
  have items := txnConsume_items { openedTxn i .writing s with rawPoison := false } (txnOpened i .writing s)
  generalize txnConsume { openedTxn i .writing s with rawPoison := false } (txnOpened i .writing s) = t at consumed items ⊢
  have entries := fun k e => jackInvalidate_drops (a := itemLine i) (k := k) (e := e) (s := t)
  have gone := jackInvalidate_frame (itemLine i) t
  generalize jackInvalidate (itemLine i) t = u at entries gone ⊢
  have fifo := probeVoid_fifoW (itemLine i) u
  have void := probeVoid_frame (itemLine i) u
  generalize probeVoid (itemLine i) u = v at fifo void ⊢
  rw [rawAhead_frame]
  refine ⟨?_, fun n => ?_, fun k e entry => ?_, ?_, ?_, ?_, ?_⟩
  · show v.pool.items = _
    rw [void, gone]
    exact items
  · show (mediaOf v n).fifoW = _
    rw [fifo, mediaOf_congr (s := s) (t := u) (by rw [gone, consumed]; rfl)]
  · show tabFind v.jack.entries k = none
    rw [void]
    refine entries k e ?_
    rw [jackEntry_congr (s := s) (by rw [consumed]; rfl) (by rw [consumed]; rfl), entry]
  · show v.keys = _
    rw [void, gone, consumed]
    rfl
  · show v.nv = _
    rw [void, gone, consumed]
    rfl
  · show v.clk = _
    rw [void, gone, consumed]
    rfl
  · show v.mseq = _
    rw [void, gone, consumed]
    rfl

-- The pick of a slot

theorem oldest_mem {l : List Item} {i : Item} (found : oldest l = some i) : i ∈ l := by
  induction l generalizing i with
  | nil => cases found
  | cons j l ih =>
    unfold oldest at found
    split at found
    · cases found
      exact List.mem_cons_self
    · next k rest =>
      split at found
      · cases found
        exact List.mem_cons_of_mem _ (ih rest)
      · cases found
        exact List.mem_cons_self

theorem byPriority_mem {l : List Item} {i : Item} (found : byPriority l = some i) : i ∈ l := by
  unfold byPriority at found
  obtain ⟨k, -, here⟩ := List.exists_of_findSome?_eq_some found
  exact List.mem_of_find?_eq_some here

/-- An item to which a slot is granted is a ready one. -/
theorem fgPick_mem {m : Nat} {d : Dir} {i : Item} {s : State} (pick : fgPick s m d = .item i) : i ∈ readyItems s m d .fg := by
  unfold fgPick at pick
  dsimp only at pick
  generalize found : oldest ((readyItems s m d .fg).filter (itemDue s)) = due at pick
  have due_mem : ∀ {j}, due = some j → j ∈ readyItems s m d .fg := fun same =>
    (List.mem_filter.1 (oldest_mem (found.trans same))).1
  split at pick
  · split at pick
    · cases pick
    · cases pick
      exact due_mem rfl
  · cases pick
    exact due_mem rfl
  · cases pick
  · split at pick
    · next j by' =>
      cases pick
      exact byPriority_mem by'
    · cases pick

theorem fgPick_port {m : Nat} {d : Dir} {i : Item} {s : State} (pick : fgPick s m d = .item i) : i.q / 8 = m := by
  have ready := (List.mem_filter.1 (fgPick_mem pick)).2
  simp only [Bool.and_eq_true, beq_iff_eq] at ready
  exact ready.1.1

end Sys2Proof.Machine

/-! SUPPORT. The probe of a miss, and the two ways of a full-line write (R104 to R107, R178). -/

namespace Sys2Proof.Machine

-- Probes of a miss

/-- The probes of a state are those of another, and more. -/
structure ProbesGrow (s t : State) : Prop where
  keeps : ∀ n p, p ∈ probesOf s n → p ∈ probesOf t n
  cfg : t.cfg = s.cfg

namespace ProbesGrow
variable {s t u : State}

theorem refl (s : State) : ProbesGrow s s := ⟨fun _ _ here => here, rfl⟩

theorem trans (h : ProbesGrow s t) (g : ProbesGrow t u) : ProbesGrow s u :=
  ⟨fun n p here => g.keeps n p (h.keeps n p here), g.cfg.trans h.cfg⟩

theorem portOf (h : ProbesGrow s t) (a : Nat) : Machine.portOf t a = Machine.portOf s a := by
  unfold Machine.portOf cfgVal
  rw [h.cfg]

theorem probeOf (h : ProbesGrow s t) {a : Nat} (out : (probeOf s a).isSome = true) : (Machine.probeOf t a).isSome = true := by
  unfold Machine.probeOf at out ⊢
  rw [List.find?_isSome] at out ⊢
  obtain ⟨p, here, own⟩ := out
  exact ⟨p, h.portOf a ▸ h.keeps _ p here, own⟩

theorem append {m : Nat} (p : Probe) (s : State) : ProbesGrow s (probesPut m (probesOf s m ++ [p]) s) where
  keeps n q here := by
    rw [probesOf_probesPut]
    split
    · next same => exact List.mem_append_left _ (same ▸ here)
    · exact here
  cfg := rfl

end ProbesGrow

theorem lookOne_grows (k a : Nat) (s : State) : ProbesGrow s (lookOne k a s) := by
  unfold lookOne
  dsimp only
  split
  · exact .refl s
  · split
    · exact ⟨fun _ _ here => here, rfl⟩
    · exact .append _ s

theorem lookAhead_grows (k a : Nat) (s : State) : ProbesGrow s (lookAhead k a s) := by
  unfold lookAhead
  generalize List.range (cfgVal s 0x2050 2 0) = l
  induction l generalizing s with
  | nil => exact .refl s
  | cons i l ih =>
    rw [List.foldl_cons]
    refine ProbesGrow.trans ?_ (ih _)
    split
    · exact lookOne_grows ..
    · exact .refl s

theorem probeOf_probeAdd (k a n : Nat) (s : State) : (probeOf (probeAdd k a n s) a).isSome = true := by
  have port : ∀ l, portOf (probesPut (portOf s a) l s) a = portOf s a := fun _ => rfl
  unfold probeAdd
  dsimp only
  split
  · next p found =>
    unfold probeOf at found ⊢
    rw [port, probesOf_probesPut, if_pos rfl, List.find?_isSome]
    refine ⟨_, List.mem_map.2 ⟨p, List.mem_of_find?_eq_some found, rfl⟩, ?_⟩
    have own := List.find?_some found
    split
    · exact own
    · exact own
  · unfold probeOf
    rw [port, probesOf_probesPut, if_pos rfl, List.find?_isSome]
    exact ⟨_, List.mem_append_right _ List.mem_cons_self, by simp⟩

-- The grant of a full-line write

theorem readMask_none (i : Item) : readMask { item := i } = 0#8 := rfl

/-- The transaction of a full-line write, as it is put back before its lookup. -/
def wholeTxn (i : Item) (s : State) : Txn := { openedTxn i .probeWait s with poison := i.psn }

theorem fullWriteGrant_whole {i : Item} (whole : itemWhole i = true) (s : State) : fullWriteGrant {} i s =
    writeResolve (wholeTxn i s) {} (txnPut (wholeTxn i s) (txnOpened i .probeWait s)) := by
  have mask : (if i.op = .writePartial then maskFaults i.ext (readMask { item := i }) else BitVec.allOnes 64) ≠ 0#64 := by
    split
    · next half =>
      unfold itemWhole at whole
      rw [half] at whole
      have ones : i.ext = BitVec.allOnes 64 := by simpa using whole
      rw [ones, readMask_none]
      decide +kernel
    · decide
  have poison : (i.psn || decide (({ item := i } : ItemRead).data ≠ 0#64) || decide (readMask { item := i } ≠ 0#8)) = i.psn := by
    show (i.psn || false || false) = i.psn
    rw [Bool.or_false, Bool.or_false]
  unfold fullWriteGrant
  dsimp only
  rw [wordFaults_none, itemRead_none]
  dsimp only
  rw [if_neg mask, txnOpen_eq, poison]
  rfl

theorem fullWriteGrant_zero {i : Item} (half : i.op = .writePartial) (zero : i.ext = 0#64) (s : State) :
    fullWriteGrant {} i s = completeBare i stOk (opCells i.op) s := by
  have mask : maskFaults i.ext (readMask { item := i }) = 0#64 := by
    rw [zero, readMask_none]
    decide +kernel
  unfold fullWriteGrant
  dsimp only
  rw [wordFaults_none, itemRead_none, if_pos half, mask, if_pos rfl]

/-- A write that missed Jack has its probe, with its look-ahead (R106, R107). -/
def missProbed (t : Txn) (s : State) : State := lookAhead t.item.slot t.item.h.addr.toNat
  (probeAdd t.item.slot t.item.h.addr.toNat t.id (txnPut { t with st := .probeWait } (count1 0x6050 4 0 s)))

/-- A way of the tag cache is reserved for a write of class CI. -/
def missReserved (t : Txn) (s : State) : State :=
  if slotClass s t.item.slot = 3 then
    match tagPlace s t.item.slot t.item.h.addr.toNat with
    | some (tl, _) => tagReserve (.txn t.id) tl s
    | none => s
  else s

theorem missReserved_frame (t : Txn) (s : State) : missReserved t s = { s with tagc := (missReserved t s).tagc } := by
  unfold missReserved
  split
  · split <;> rfl
  · rfl

theorem missProbed_frame (t : Txn) (s : State) : missProbed t s = { s with
    jack := (missProbed t s).jack, regs := (missProbed t s).regs, pool := (txnPut { t with st := .probeWait } s).pool } := by
  unfold missProbed
  rw [lookAhead_frame, probeAdd_frame]
  rfl

theorem probeOf_missProbed (t : Txn) (s : State) : (probeOf (missProbed t s) t.item.h.addr.toNat).isSome = true :=
  (lookAhead_grows ..).probeOf (probeOf_probeAdd ..)

theorem writeResolve_miss {t : Txn} {s u : State} (missed : jackLookup t.item.slot t.item.h.addr.toNat false s = (none, u)) :
    writeResolve t {} s = missReserved t (missProbed t u) := by
  unfold writeResolve
  dsimp only
  rw [missed]
  rfl

theorem writeResolve_hit {t : Txn} {s u : State} {e : BitVec 64}
    (hit : jackLookup t.item.slot t.item.h.addr.toNat false s = (some e, u)) :
    writeResolve t {} s = writeGo t e {} (count1 0x6050 3 0 u) := by
  unfold writeResolve
  dsimp only
  rw [hit]

end Sys2Proof.Machine

/-! SUPPORT. What a write slot starts for an item (R104 to R109, R178). -/

namespace Sys2Proof.Machine

-- The write of a request whose operation has issued

theorem ownerIssued_items (o : MOwner) (g : BitVec 32) (c : BitVec 24) (s : State) :
    (ownerIssued o g c s).pool.items = s.pool.items := by
  unfold ownerIssued
  split
  · split
    · exact txnConsume_items ..
    · rfl
  · rfl
  · rfl

/-- The one transaction of a write then waits for its completion (R192). -/
theorem ownerIssued_txn {x : Txn} {s : State} (here : x ∈ s.pool.txns) (one : ∀ y ∈ s.pool.txns, y.id = x.id → y = x)
    (g : BitVec 32) (c : BitVec 24) :
    { x with st := .writing, gen := g, lctr := c, cells := 1 } ∈ (ownerIssued (.txn x.id) g c s).pool.txns := by
  have found : txnFind s x.id = some x := by
    unfold txnFind
    cases look : s.pool.txns.find? (fun t => t.id == x.id) with
    | none => exact absurd (List.find?_eq_none.1 look x here) (by simp)
    | some y => rw [one y (List.mem_of_find?_eq_some look) (by simpa using List.find?_some look)]
  unfold ownerIssued
  dsimp only
  rw [found]
  exact mem_txnConsume (t := { x with st := .writing, gen := g, lctr := c }) here rfl

/-- A write of a request with its key and a counter, from a state in which it is the same write: its operation joins the
port's queue. -/
theorem writeGo_runs {x : Txn} {e : BitVec 64} {s u : State} {k : GenKeys} {g : BitVec 32} {base : Nat} (same : SameWrites s u)
    (gen : g = genForWrite s x.item.slot (itemLine x.item) (some e)) (held : genKeys s x.item.slot g = some k)
    (counter : base = counterBase s x.item.slot (itemLine x.item) g e) (more : base < 2 ^ 24 - 1) : ∃ t o,
    writeGo x e {} u = t ∧ (mediaOf t x.port).fifoW = (mediaOf u x.port).fifoW ++ [o] ∧ o.owner = .txn x.id ∧
    LineWritten s o x.item.slot (itemLine x.item) k g (BitVec.ofNat 24 (base + 1)) x.payload x.poison ∧
    t.pool.items = u.pool.items ∧
    (x ∈ u.pool.txns → (∀ y ∈ u.pool.txns, y.id = x.id → y = x) →
      { x with st := .writing, gen := g, lctr := BitVec.ofNat 24 (base + 1), cells := 1 } ∈ t.pool.txns) := by
  subst counter
  rw [← same.genForWrite] at gen
  rw [← same.genKeys] at held
  rw [← same.counterBase] at more ⊢
  obtain ⟨t, o, c, rfl, whole, issued, own, written⟩ := writeGo_issues gen held more
  refine ⟨_, o, whole, ?_, own, same.lineWritten written, ?_, fun here one => ?_⟩
  · rw [mediaOf_ownerIssued, issued.fifoW]
  · rw [ownerIssued_items, issued.pool]
  · exact ownerIssued_txn (issued.pool ▸ here) (issued.pool ▸ one) ..

theorem itemWhole_line {i : Item} (whole : itemWhole i = true) : i.op ≠ .writeRaw := fun raw => by
  unfold itemWhole at whole
  rw [raw] at whole
  cases whole

theorem jackLive_congr {s t : State} (jack : t.jack.entries = s.jack.entries) (cfg : t.cfg = s.cfg) (keys : t.keys = s.keys)
    (k a : Nat) : jackLive t k a = jackLive s k a := by
  unfold jackLive
  rw [jackEntry_congr jack cfg]
  have slot : slotOf t k = slotOf s k := slotOf_congr (by rw [keys]) k
  simp only [slot]

/-- A full-line write with its transaction open (R105). -/
def wholeOpened (i : Item) (s : State) : State := txnPut (wholeTxn i s) (txnOpened i .probeWait s)

theorem wholeOpened_granted (i : Item) (s : State) : Granted s (wholeOpened i s) :=
  (txnOpened_granted ..).trans (.txnPut ..)

theorem wholeOpened_jack (i : Item) (s : State) : (wholeOpened i s).jack = s.jack := rfl

theorem wholeOpened_whole (i : Item) (s : State) : wholeOpened i s = { s with pool := { s.pool with
    txns := (wholeOpened i s).pool.txns, nextId := s.pool.nextId + 1 } } := rfl

/-- A full-line write's transaction stands alone under its id. -/
theorem wholeOpened_one (i : Item) (s : State) :
    ∀ y ∈ (wholeOpened i s).pool.txns, y.id = (wholeTxn i s).id → y = wholeTxn i s := fun y here same => by
  obtain ⟨z, from', rfl⟩ := List.mem_map.1 here
  by_cases own : z.id = (wholeTxn i s).id
  · rw [if_pos own]
  · rw [if_neg own] at same
    exact absurd same own

theorem mem_wholeOpened (i : Item) (s : State) : wholeTxn i s ∈ (wholeOpened i s).pool.txns :=
  mem_txnPut (t := wholeTxn i s) (mem_txnOpened i .probeWait s) rfl

/-- A write that misses Jack waits for its probe (R104, R106). -/
theorem writeResolve_waits {t : Txn} {s : State} (here : t ∈ s.pool.txns)
    (miss : jackLive s t.item.slot (itemLine t.item) = false) : ∃ u, writeResolve t {} s = u ∧
    u.pool.items = s.pool.items ∧ { t with st := .probeWait } ∈ u.pool.txns ∧
    (probeOf u (itemLine t.item)).isSome = true ∧ (∀ n, mediaOf u n = mediaOf s n) ∧ u.keys = s.keys := by
  have missed := jackLookup_miss miss
  have looked := jackLookup_pool t.item.slot (itemLine t.item) false s
  have looks := jackLookup_granted t.item.slot (itemLine t.item) false s
  generalize found : jackLookup t.item.slot (itemLine t.item) false s = r at missed looked looks
  obtain ⟨r, u⟩ := r
  obtain rfl : r = none := missed
  dsimp only at looked looks
  have probed := probeOf_missProbed t u
  have frame := missProbed_frame t u
  rw [writeResolve_miss found]
  generalize missProbed t u = v at probed frame ⊢
  rw [missReserved_frame]
  refine ⟨_, rfl, ?_, ?_, probed, fun n => ?_, ?_⟩
  · show v.pool.items = _
    rw [frame]
    exact looks.items
  · show _ ∈ v.pool.txns
    rw [frame]
    exact mem_txnPut (t := { t with st := .probeWait }) (x := t) (looked.symm ▸ here) rfl
  · rw [← looks.media]
    exact mediaOf_congr (by rw [frame]) n
  · show v.keys = _
    rw [frame, looks.frame]

section
variable {m : Fin 16} {i : Item} {s : State} (slot : slotFor s m .w = some .fg) (pick : fgPick s m .w = .item i)
  (free : lineClash s m .w i = false) (passed : grantRefusal s i = none) (sound : tabFind s.pool.ptrBad i.q = none)
include slot pick free passed sound

theorem fgWriteGrant_runs : exec (.fgWriteGrant m {}) s = .next
    (if i.op = .writeRaw then rawWriteGrant m {} i (granting m .w .fg i s) else fullWriteGrant {} i (granting m .w .fg i s)) := by
  refine congrArg Host.Outcome.next ?_
  unfold doFgWriteGrant
  rw [if_pos slot, pick]
  dsimp only
  rw [if_neg (by rw [free]; decide), if_neg (by unfold entryGone; simp), if_neg (fun repair => repair.2.2.1 rfl),
    grantItemThen_passes sound passed, grantItemThen_passes sound passed]

/-- A raw write goes out as it stands (R171). -/
theorem writeGrant_raw (raw : i.op = .writeRaw) : ∃ t, exec (.fgWriteGrant m {}) s = .next t ∧
    t.pool.items = s.pool.items.filter (fun j => j.arr != i.arr) ∧
    (mediaOf t m).fifoW = (mediaOf s m).fifoW ++
      [{ kind := .write, addr := itemLine i, data := mediaJoin i.data i.ext, owner := .txn s.pool.nextId,
         seq := s.mseq, cyc := now s }] ∧
    (∀ k e, jackEntry s (itemLine i) = some (k, e) → tabFind t.jack.entries k = none) ∧ t.keys = s.keys ∧
    t.nv = s.nv := by
  have frame := granting_frame m .w .fg i s
  have ports : ∀ n, mediaOf (granting m .w .fg i s) n = mediaOf (slotUse m .w .fg (itemLine i) s) n := fun n =>
    mediaOf_congr (by rw [frame]) n
  have runs := fgWriteGrant_runs slot pick free passed sound
  rw [if_pos raw, rawWriteGrant_none] at runs
  generalize granting m .w .fg i s = u at frame ports runs
  obtain ⟨items, fifo, drops, keys, nv, clk, mseq⟩ := rawStarted_facts i u
  generalize rawStarted i u = t at items fifo drops keys nv clk mseq runs
  have time : now t = now s := by
    unfold now
    rw [clk, frame]
  refine ⟨_, runs, ?_, ?_, fun k e entry => drops k e ?_, ?_, ?_⟩
  · show t.pool.items = _
    rw [items, frame]
  · rw [mediaOf_issueW, if_pos rfl]
    dsimp only
    rw [fifo, ports, slotUse_fifoW, mseq, time, frame]
  · rw [jackEntry_congr (s := s) (by rw [frame]) (by rw [frame]), entry]
  · show t.keys = _
    rw [keys, frame]
  · show t.nv = _
    rw [nv, frame]

/-- A full-line write that misses Jack waits for its probe (R104, R106). -/
theorem writeGrant_miss (whole : itemWhole i = true) (miss : jackLive s i.slot (itemLine i) = false) :
    ∃ t, exec (.fgWriteGrant m {}) s = .next t ∧
      t.pool.items = s.pool.items.filter (fun j => j.arr != i.arr) ∧
      (∃ x ∈ t.pool.txns, x.id = s.pool.nextId ∧ x.item = i ∧ x.st = .probeWait ∧ x.payload = i.data ∧ x.poison = i.psn) ∧
      (probeOf t (itemLine i)).isSome = true ∧ (mediaOf t m).fifoW = (mediaOf s m).fifoW ∧ t.keys = s.keys := by
  have frame := granting_frame m .w .fg i s
  have ports : ∀ n, mediaOf (granting m .w .fg i s) n = mediaOf (slotUse m .w .fg (itemLine i) s) n := fun n =>
    mediaOf_congr (by rw [frame]) n
  have runs := fgWriteGrant_runs slot pick free passed sound
  rw [if_neg (itemWhole_line whole), fullWriteGrant_whole whole] at runs
  generalize granting m .w .fg i s = u at frame ports runs
  have start := wholeOpened_granted i u
  have here := mem_wholeOpened i u
  have jack : jackLive (wholeOpened i u) i.slot (itemLine i) = false := by
    rw [jackLive_congr (s := s) (by rw [wholeOpened_jack, frame]) (by rw [start.frame, frame]) (by rw [start.frame, frame]), miss]
  obtain ⟨t, resolve, items, waits, probed, media, keys⟩ := writeResolve_waits here jack
  refine ⟨t, runs.trans (congrArg Host.Outcome.next resolve), ?_, ⟨_, waits, ?_, rfl, rfl, rfl, rfl⟩, probed, ?_, ?_⟩
  · rw [items, start.items, frame]
  · show u.pool.nextId = _
    rw [frame]
  · rw [media, start.media, ports, slotUse_fifoW]
  · rw [keys, start.frame, frame]

/-- A full-line write that hits Jack goes on with its entry (R104). -/
theorem writeGrant_hit {k : Nat} {e : BitVec 64} (whole : itemWhole i = true) (entry : jackEntry s (itemLine i) = some (k, e))
    (live : (genByKgen4 (slotOf s i.slot) (jeKgen4 e)).isSome = true) : ∃ u x,
    exec (.fgWriteGrant m {}) s = .next (writeGo x e {} u) ∧
    (x.id = s.pool.nextId ∧ x.item = i ∧ x.payload = i.data ∧ x.poison = i.psn ∧ x.port = m.val) ∧
    x ∈ u.pool.txns ∧ u = { s with pool := u.pool, media := u.media, regs := u.regs } ∧ SameWrites s u ∧
    u.pool.items = s.pool.items.filter (fun j => j.arr != i.arr) ∧ (∀ n, (mediaOf u n).fifoW = (mediaOf s n).fifoW) ∧
    (∀ y ∈ u.pool.txns, y.id = x.id → y = x) := by
  have frame := granting_frame m .w .fg i s
  have media : ∀ n, mediaOf (granting m .w .fg i s) n = mediaOf (slotUse m .w .fg (itemLine i) s) n := fun n =>
    mediaOf_congr (by rw [frame]) n
  have runs := fgWriteGrant_runs slot pick free passed sound
  rw [if_neg (itemWhole_line whole), fullWriteGrant_whole whole] at runs
  generalize granting m .w .fg i s = u at frame media runs
  have start := wholeOpened_whole i u
  have here := mem_wholeOpened i u
  have id : (wholeTxn i u).id = s.pool.nextId := by
    show u.pool.nextId = _
    rw [frame]
  have one := wholeOpened_one i u
  have hit := jackLookup_hit (s := wholeOpened i u) (k := i.slot)
    ((jackEntry_congr (s := s) (by rw [start, frame]) (by rw [start, frame]) _).trans entry)
    (by rw [slotOf_congr (s := s) (by rw [start, frame]), live])
  have resolve := writeResolve_hit (t := wholeTxn i u) hit
  refine ⟨_, _, runs.trans (congrArg Host.Outcome.next resolve), ⟨id, rfl, rfl, rfl, fgPick_port pick⟩, here, ?_, ?_, ?_, fun n => ?_, one⟩
  · show count1 0x6050 3 0 (wholeOpened i u) = _
    generalize wholeOpened i u = t at start ⊢
    rw [start, frame]
    rfl
  · refine (sameWrites_slotUse m .w .fg (itemLine i) s).of_frame ?_
    show count1 0x6050 3 0 (wholeOpened i u) = _
    generalize wholeOpened i u = t at start ⊢
    rw [start, frame]
    rfl
  · show (wholeOpened i u).pool.items = _
    rw [start, frame]
  · show (mediaOf (wholeOpened i u) n).fifoW = _
    rw [mediaOf_congr (s := u) (by rw [start]), media, slotUse_fifoW]

/-- A partial write whose mask is zero answers OK without a media operation (R178). -/
theorem writeGrant_zero (half : i.op = .writePartial) (zero : i.ext = 0#64) (here : i.gone = false) (answers : eqSound s i.src) :
    ∃ t, exec (.fgWriteGrant m {}) s = .next t ∧
      t.pool.items = s.pool.items.filter (fun j => j.arr != i.arr) ∧ t.pool.txns = s.pool.txns ∧
      (mediaOf t m).fifoW = (mediaOf s m).fifoW ∧
      ∃ r ∈ rspsOf t i.src, r.tag = i.h.tag ∧ r.status = BitVec.ofNat 8 stOk := by
  have frame := granting_frame m .w .fg i s
  have runs := fgWriteGrant_runs slot pick free passed sound
  rw [if_neg (by rw [half]; decide), fullWriteGrant_zero half zero] at runs
  generalize granting m .w .fg i s = u at frame runs
  have answers' : eqSound u i.src := fun p own => by
    rw [frame]
    exact answers p own
  have answered := completeBare_answered (status := stOk) (cells := opCells i.op) (s := u) fun _ => answers'
  refine ⟨_, runs, ?_, ?_, ?_, _, mem_completeBare here answers', rfl, rfl⟩
  · rw [answered.items, frame]
  · rw [answered.txns, frame]
  · rw [mediaOf_congr (s := slotUse m .w .fg (itemLine i) s) (by rw [answered.frame, frame]), slotUse_fifoW]

end

end Sys2Proof.Machine

/-! SUPPORT and OBLIGATION. A write half's entry and its write, and what a write slot starts (R105, R177). -/

namespace Sys2Proof.Machine

-- The entry of a write half

theorem jackCompare_frame (k a : Nat) (sc : Side) (s : State) : jackCompare k a sc s = { s with
    jack := (jackCompare k a sc s).jack, regs := (jackCompare k a sc s).regs, ev := (jackCompare k a sc s).ev } := by
  have regress : ∀ t : State, jackRegress k a sc t = { t with
      regs := (jackRegress k a sc t).regs, ev := (jackRegress k a sc t).ev } := fun t => by
    unfold jackRegress
    rw [raise_frame]
    rfl
  unfold jackCompare
  dsimp only
  split
  · rfl
  · split
    · split
      · rfl
      · rw [regress]
    · split
      · rfl
      · split
        · split
          · rw [regress]
          · split
            · split
              · rw [regress]
              · split <;> rfl
            · split
              · rw [regress]
              · rfl
        · rfl

theorem jackFill_frame (k a : Nat) (sc : Side) (s : State) : jackFill k a sc s = { s with
    free := (jackFill k a sc s).free, jack := (jackFill k a sc s).jack, regs := (jackFill k a sc s).regs
    ev := (jackFill k a sc s).ev } := by
  unfold jackFill
  split
  · rw [jackCompare_frame]
  · rw [jackWrite_frame]

theorem entryFromSide_frame (k a : Nat) (sc : Side) (s : State) : (entryFromSide k a sc s).2 = jackFill k a sc s := by
  unfold entryFromSide
  dsimp only
  split <;> rfl

theorem fillEntry_congr {s t : State} (keys : t.keys = s.keys) (k a : Nat) (sc : Side) :
    fillEntry t k a sc = fillEntry s k a sc := by
  have slot : slotOf t k = slotOf s k := slotOf_congr (by rw [keys]) k
  unfold fillEntry
  rw [slot]

/-- The sidecar of a line without an entry gives its entry (R105). -/
theorem entryFromSide_none {k a : Nat} {sc : Side} {s : State} (none : jackEntry s a = none) :
    (entryFromSide k a sc s).1 = fillEntry s k a sc := by
  have frame := jackFill_frame k a sc s
  have fill : jackFill k a sc s = jackWrite a (fillEntry s k a sc) s := by
    unfold jackFill
    rw [none]
  unfold entryFromSide
  dsimp only
  split
  · next w e after =>
    rw [fill] at after
    exact jackEntry_jackWrite none after
  · exact fillEntry_congr (by rw [frame]) ..

theorem entryResolve_frame (k a : Nat) (sc : Side) (pe : Bool) (s : State) : (entryResolve k a sc pe s).2 = { s with
    free := (entryResolve k a sc pe s).2.free, jack := (entryResolve k a sc pe s).2.jack
    regs := (entryResolve k a sc pe s).2.regs, ev := (entryResolve k a sc pe s).2.ev } := by
  have looked := jackLookup_frame k a pe s
  unfold entryResolve
  generalize jackLookup k a pe s = r at looked ⊢
  obtain ⟨e, t⟩ := r
  dsimp only at looked
  cases e with
  | none =>
    dsimp only
    rw [entryFromSide_frame, jackFill_frame, looked]
    rfl
  | some e =>
    dsimp only
    rw [looked]
    rfl

/-- The entry of a write half is the live one of its line in Jack, or where there is none that of its sidecar (R104, R105). -/
theorem entryResolve_entry {k a : Nat} {sc : Side} {s : State} {e : BitVec 64}
    (entry : jackEntry s a = none ∧ e = fillEntry s k a sc ∨
      (∃ w, jackEntry s a = some (w, e)) ∧ (genByKgen4 (slotOf s k) (jeKgen4 e)).isSome = true) :
    (entryResolve k a sc false s).1 = e := by
  unfold entryResolve
  rcases entry with ⟨none, rfl⟩ | ⟨⟨w, some⟩, live⟩
  · rw [jackLookup_none none]
    exact entryFromSide_none none
  · rw [jackLookup_hit some live]

section
variable {m : Fin 16} {x : Txn} {s : State} (slot : slotFor s m .w = some .fg) (pick : fgPick s m .w = .merged x)
include slot pick

theorem partialWriteGrant_runs : exec (.partialWriteGrant m {}) s = .next
    (if step7 s x.item.op x.item.slot ≠ stOk then
      txnFinish x (step7 s x.item.op x.item.slot) (slotUse m .w .fg (itemLine x.item) s)
    else writeGo { x with sl := sliceNo s m } (entryResolve x.item.slot (itemLine x.item) (lnSide x.line) false
      (txnPut { x with sl := sliceNo s m } (slotUse m .w .fg (itemLine x.item) s))).1 {}
      (entryResolve x.item.slot (itemLine x.item) (lnSide x.line) false
      (txnPut { x with sl := sliceNo s m } (slotUse m .w .fg (itemLine x.item) s))).2) := by
  refine congrArg Host.Outcome.next ?_
  unfold doPartialWriteGrant
  rw [if_pos slot, pick]
  dsimp only
  rw [rowErrors_cells, keyFaults_none]
  rfl

/-- A write half whose checks pass goes on with its entry (R177). -/
theorem partialWriteGrant_goes (ok : step7 s x.item.op x.item.slot = stOk) : ∃ e u,
    exec (.partialWriteGrant m {}) s = .next (writeGo { x with sl := sliceNo s m } e {} u) ∧
    (∀ n, (mediaOf u n).fifoW = (mediaOf s n).fifoW) ∧ u.pool.items = s.pool.items ∧
    u = { s with free := u.free, media := u.media, jack := u.jack, regs := u.regs, ev := u.ev, pool := u.pool } ∧
    SameWrites s u ∧
    ∀ v, (jackEntry s (itemLine x.item) = none ∧ v = fillEntry s x.item.slot (itemLine x.item) (lnSide x.line) ∨
      (∃ k, jackEntry s (itemLine x.item) = some (k, v)) ∧ (genByKgen4 (slotOf s x.item.slot) (jeKgen4 v)).isSome = true) →
      e = v := by
  have runs := partialWriteGrant_runs slot pick
  rw [if_neg (not_not_intro ok)] at runs
  have frame := entryResolve_frame x.item.slot (itemLine x.item) (lnSide x.line) false
    (txnPut { x with sl := sliceNo s m } (slotUse m .w .fg (itemLine x.item) s))
  have entry := fun e => entryResolve_entry (k := x.item.slot) (a := itemLine x.item) (sc := lnSide x.line) (e := e)
    (s := txnPut { x with sl := sliceNo s m } (slotUse m .w .fg (itemLine x.item) s))
  generalize entryResolve x.item.slot (itemLine x.item) (lnSide x.line) false
    (txnPut { x with sl := sliceNo s m } (slotUse m .w .fg (itemLine x.item) s)) = r at runs frame entry
  obtain ⟨e, u⟩ := r
  dsimp only at runs frame entry
  refine ⟨e, u, runs, fun n => ?_, by rw [frame]; rfl, by rw [frame]; rfl,
    (sameWrites_slotUse m .w .fg (itemLine x.item) s).of_frame (by rw [frame]; rfl), fun v known => entry v known⟩
  rw [mediaOf_congr (s := slotUse m .w .fg (itemLine x.item) s) (by rw [frame]; rfl), slotUse_fifoW]

end

end Sys2Proof.Machine

namespace Sys2Proof
open Sys2Proof.Machine

/-- Settles O31: the ways of a write slot one by one. -/
theorem writeGrantsStartTheirWrite : Obligations.WriteGrantsStartTheirWrite := by
  unfold Obligations.WriteGrantsStartTheirWrite
  refine ⟨fun m i s slot pick free passed sound => ⟨writeGrant_raw slot pick free passed sound,
      writeGrant_miss slot pick free passed sound, fun whole k e entry live => ?_,
      writeGrant_zero slot pick free passed sound⟩,
    fun m x s slot pick => ⟨fun failed => ?_, fun ok => ?_⟩⟩
  · obtain ⟨u, x, runs, ⟨id, item, payload, poison, port⟩, here, frame, same, items, fifo, one⟩ :=
      writeGrant_hit slot pick free passed sound whole entry live
    refine ⟨⟨u, x, runs, id, item, payload, poison, port, here, frame⟩, fun g gk base gen held counter more => ?_⟩
    subst item
    obtain ⟨t, o, whole', out, own, written, kept, stands⟩ := writeGo_runs same gen held counter more
    refine ⟨t, o, runs.trans (congrArg Host.Outcome.next whole'), ?_, own.trans (by rw [id]), payload ▸ poison ▸ written,
      kept.trans items, fun _ => ⟨_, stands here one, id, rfl, rfl, rfl, rfl⟩⟩
    rw [← port, out, fifo]
  · refine ⟨_, (partialWriteGrant_runs slot pick).trans (by rw [if_pos failed]), rfl⟩
  · obtain ⟨e, u, runs, fifo, items, frame, same, known⟩ := partialWriteGrant_goes slot pick ok
    refine ⟨⟨e, u, runs, fifo, by rw [frame], items, frame⟩, fun v g gk base entry gen held counter more => ?_⟩
    obtain rfl := known v entry
    obtain ⟨t, o, whole', out, own, written, kept, -⟩ :=
      writeGo_runs (x := { x with sl := sliceNo s m }) same gen held counter more
    exact ⟨t, o, runs.trans (congrArg Host.Outcome.next whole'), by rw [← fifo]; exact out, own, written, kept.trans items⟩

end Sys2Proof

/-! SUPPORT. The read of a rekey step (R34, R151). -/

namespace Sys2Proof.Machine

-- Steps

theorem mem_stepMod {n a : Nat} {f : StepLine → StepLine} {x : StepLine} {s : State} (here : x ∈ (ctxOf s n).steps)
    (line : x.addr = a) : f x ∈ (ctxOf (stepMod n a f s) n).steps := by
  unfold stepMod
  rw [ctxOf_ctxPut, if_pos rfl]
  exact List.mem_map.2 ⟨x, here, if_pos line⟩

/-- A line that the next read step reads is one of its context's, or one of its ahead set. -/
theorem rkReadPick_mem {m n a : Nat} {s : State} (pick : rkReadPick s m = some (n, a, false)) :
    ∃ x ∈ (ctxOf s n).steps, x.addr = a := by
  unfold rkReadPick at pick
  obtain ⟨k, -, found⟩ := List.exists_of_findSome?_eq_some pick
  generalize look : stepPick s m k = r at found
  unfold stepPick at look
  dsimp only at look
  split at look
  · subst look
    cases found
  · split at look
    · subst look
      cases found
    · split at look
      · subst look
        cases found
      · split at look
        · next x step =>
          subst look
          cases found
          exact ⟨x, List.mem_of_find?_eq_some step, rfl⟩
        · subst look
          cases found

theorem rkWritePick_mem {m n : Nat} {x : StepLine} {s : State} (pick : rkWritePick s m = some (n, x)) :
    x ∈ (ctxOf s n).steps := by
  unfold rkWritePick at pick
  obtain ⟨k, -, found⟩ := List.exists_of_findSome?_eq_some pick
  generalize look : stepWritePick s m k = r at found
  unfold stepWritePick at look
  dsimp only at look
  split at look
  · cases r with
    | none => cases found
    | some y =>
      cases found
      exact List.mem_of_find?_eq_some look
  · subst look
    cases found

theorem tagLookup_frame (o : MOwner) (k tl e : Nat) (f : Faults) (s : State) : tagLookup o k tl e f s = { s with
    tagc := (tagLookup o k tl e f s).tagc, regs := (tagLookup o k tl e f s).regs, ev := (tagLookup o k tl e f s).ev } := by
  unfold tagLookup
  dsimp only
  split
  · rw [tagHit_frame, tagSecded_frame]
  · rw [fetchAsk_frame, tagSecded_frame]

theorem stepTagAsk_frame (n a : Nat) (f : Faults) (s : State) : stepTagAsk n a f s = { s with
    tagc := (stepTagAsk n a f s).tagc, regs := (stepTagAsk n a f s).regs, ev := (stepTagAsk n a f s).ev } := by
  unfold stepTagAsk
  dsimp only
  split
  · split
    · rw [tagLookup_frame]
    · rfl
  · rfl

-- A step's turn

/-- A slot has been used for the step of a line, whose context was served last (R34). -/
def stepTurn (m : Nat) (d : Dir) (n a : Nat) (s : State) : State := rrSet m d n (slotUse m d .rk a s)

theorem stepTurn_frame (m : Nat) (d : Dir) (n a : Nat) (s : State) : stepTurn m d n a s = { s with
    media := (slotUse m d .rk a s).media, rk := (stepTurn m d n a s).rk } := rfl

theorem ctxOf_stepTurn (m : Nat) (d : Dir) (n a k : Nat) (s : State) : ctxOf (stepTurn m d n a s) k = ctxOf s k :=
  ctxOf_congr rfl k

/-- A step's line is being read (R151). -/
def stepReading (m n a : Nat) (ahead : Bool) (s : State) : State :=
  if ahead then ctxPut n { ctxOf s n with steps := (ctxOf s n).steps ++
    [{ addr := a, st := .reading, ahead := true, port := m, sl := sliceNo s m }] } s
  else stepMod n a (fun x => { x with st := .reading, sl := sliceNo s m }) s

theorem stepReading_frame (m n a : Nat) (ahead : Bool) (s : State) :
    stepReading m n a ahead s = { s with rk := (stepReading m n a ahead s).rk } := by
  unfold stepReading
  split <;> rfl

theorem stepReading_reads {m n a : Nat} {ahead : Bool} {s : State}
    (known : ahead = false → ∃ x ∈ (ctxOf s n).steps, x.addr = a) :
    ∃ x ∈ (ctxOf (stepReading m n a ahead s) n).steps, x.addr = a ∧ x.st = .reading := by
  unfold stepReading
  cases ahead with
  | true =>
    rw [if_pos rfl, ctxOf_ctxPut, if_pos rfl]
    exact ⟨_, List.mem_append_right _ List.mem_cons_self, rfl, rfl⟩
  | false =>
    obtain ⟨x, here, line⟩ := known rfl
    rw [if_neg Bool.false_ne_true]
    exact ⟨_, mem_stepMod here line, line, rfl⟩

theorem rekeyStep_runs {m : Fin 16} {n a : Nat} {ahead : Bool} {s : State} (slot : slotFor s m .r = some .rk)
    (pick : rkReadPick s m = some (n, a, ahead)) : exec (.rekeyStep m {}) s = .next (issueR m
      { kind := .read, addr := a, owner := .step n a }
      (stepTagAsk n a {} (stepReading m n a ahead (stepTurn m .r n a s)))) := by
  refine congrArg Host.Outcome.next ?_
  unfold doRekeyStep
  rw [if_pos slot, pick]
  rfl

/-- A read slot of the rekey engine reads its line (R34, R151). -/
theorem rekeyStep_reads {m : Fin 16} {n a : Nat} {ahead : Bool} {s : State} (slot : slotFor s m .r = some .rk)
    (pick : rkReadPick s m = some (n, a, ahead)) : ∃ t, exec (.rekeyStep m {}) s = .next t ∧
    (mediaOf t m).fifoR = (mediaOf s m).fifoR ++
      [{ kind := .read, addr := a, owner := .step n a, seq := s.mseq, cyc := now s }] ∧
    (∃ x ∈ (ctxOf t n).steps, x.addr = a ∧ x.st = .reading) ∧
    t = { s with media := t.media, mseq := t.mseq, rk := t.rk, tagc := t.tagc, regs := t.regs, ev := t.ev } := by
  have frame := stepTurn_frame m .r n a s
  have ctx := ctxOf_stepTurn m .r n a n s
  have runs := rekeyStep_runs slot pick
  generalize stepTurn m .r n a s = u at frame ctx runs
  have reads : ∃ x ∈ (ctxOf (stepReading m n a ahead u) n).steps, x.addr = a ∧ x.st = .reading :=
    stepReading_reads fun none => by
      subst none
      rw [ctx]
      exact rkReadPick_mem pick
  have moved := stepReading_frame m n a ahead u
  generalize stepReading m n a ahead u = v at reads moved runs
  have asked := stepTagAsk_frame n a {} v
  generalize stepTagAsk n a {} v = w at asked runs
  refine ⟨_, runs, ?_, ?_, ?_⟩
  · have time : now w = now s := by
      unfold now
      rw [asked, moved, frame]
    have seq : w.mseq = s.mseq := by rw [asked, moved, frame]
    rw [mediaOf_issueR, if_pos rfl, mediaOf_congr (s := slotUse m .r .rk a s) (t := w) (by rw [asked, moved, frame])]
    dsimp only
    rw [slotUse_fifoR, seq, time]
  · rw [ctxOf_congr (s := v) (t := issueR m { kind := .read, addr := a, owner := .step n a } w)
      (by show w.rk.ctxs = v.rk.ctxs; rw [asked])]
    exact reads
  · rw [issueR_frame, asked, moved, frame]

end Sys2Proof.Machine

/-! SUPPORT and OBLIGATION. The write of a rekey step (R66, R151, R160). -/

namespace Sys2Proof.Machine

/-- A decided step's write slot has been used: the step knows its slice. -/
def stepTurned (m n : Nat) (x : StepLine) (s : State) : State :=
  stepMod n x.addr (fun y => { y with sl := sliceNo (stepTurn m .w n x.addr s) m }) (stepTurn m .w n x.addr s)

theorem stepTurned_frame (m n : Nat) (x : StepLine) (s : State) : stepTurned m n x s = { s with
    media := (slotUse m .w .rk x.addr s).media, rk := (stepTurned m n x s).rk } := rfl

theorem sameCounters_stepTurned (m n : Nat) (x : StepLine) (s : State) : SameCounters s (stepTurned m n x s) :=
  (sameWrites_slotUse m .w .rk x.addr s).toSameCounters.of_frame rfl

theorem ctxOf_stepTurned (m n : Nat) (x : StepLine) (s : State) :
    ctxOf (stepTurned m n x s) n = { ctxOf s n with steps := (ctxOf (stepTurned m n x s) n).steps } := by
  unfold stepTurned stepMod
  rw [ctxOf_ctxPut, if_pos rfl, ctxOf_stepTurn]

theorem stepTurned_step {m n : Nat} {x : StepLine} {s : State} (here : x ∈ (ctxOf s n).steps) :
    ∃ y ∈ (ctxOf (stepTurned m n x s) n).steps, y.addr = x.addr :=
  ⟨_, mem_stepMod ((congrArg Ctx.steps (ctxOf_stepTurn m .w n x.addr n s)).symm ▸ here) rfl, rfl⟩

theorem stepTurned_fifoW (m n : Nat) (x : StepLine) (s : State) (k : Nat) :
    (mediaOf (stepTurned m n x s) k).fifoW = (mediaOf s k).fifoW := by
  rw [mediaOf_congr (s := slotUse m .w .rk x.addr s) (by rw [stepTurned_frame]), slotUse_fifoW]

theorem rekeyStepWrite_runs {m : Fin 16} {n : Nat} {x : StepLine} {s : State} (slot : slotFor s m .w = some .rk)
    (pick : rkWritePick s m = some (n, x)) : exec (.rekeyStepWrite m {}) s = .next
      (if (ctxOf s n).cause = 4 then purgeWrite m n x {} (stepTurned m n x s) else stepWriteGo m n x {} (stepTurned m n x s)) := by
  have cause : (ctxOf (stepTurned m n x s) n).cause = (ctxOf s n).cause := by rw [ctxOf_stepTurned]
  refine congrArg Host.Outcome.next ?_
  unfold doRekeyStepWrite
  rw [if_pos slot, pick, ← cause]
  rfl

-- The write of a step

/-- What the write of a step is made of (R66). -/
def stepRequest (m n : Nat) (x : StepLine) (k : Nat) (g : BitVec 32) (c : BitVec 24) (keys : GenKeys) : WriteReq :=
  { owner := .step n x.addr, kidx := k, addr := x.addr, port := m, pt := x.data, psn := x.poison, gen := g, lctr := c
    h := keys.tag }

/-- A step's write with its keys and a counter issues its operation; the step is then written (R66, R151). -/
theorem stepWriteGo_issues {m n : Nat} {x : StepLine} {c : Ctx} {k : GenKeys} {e : BitVec 64} {base : Nat} {s u : State}
    (ctx : ctxOf s n = c) (held : genKeys s c.kidx (ctxTo c) = some k)
    (entry : entryResolve c.kidx x.addr x.side false s = (e, u)) (counter : base = counterBase u c.kidx x.addr (ctxTo c) e)
    (more : base < 2 ^ 24 - 1) : ∃ t o,
    stepWriteGo m n x {} s = stepMod n x.addr (fun y => { y with st := .written }) t ∧ LineIssued u t m o ∧
    o.owner = .step n x.addr ∧
    LineWritten u o c.kidx x.addr k (ctxTo c) (BitVec.ofNat 24 (base + 1)) x.data x.poison := by
  subst ctx counter
  have next := (nextLctr_eq (ctxOf s n).kidx x.addr (ctxTo (ctxOf s n)) e u).trans (if_neg (Nat.not_le.2 more))
  have work := counterTaken_work (ctxOf s n).kidx x.addr (ctxTo (ctxOf s n))
    (counterBase u (ctxOf s n).kidx x.addr (ctxTo (ctxOf s n)) e + 1) u
  generalize counterTaken (ctxOf s n).kidx x.addr (ctxTo (ctxOf s n))
    (counterBase u (ctxOf s n).kidx x.addr (ctxTo (ctxOf s n)) e + 1) u = v at next work
  generalize BitVec.ofNat 24 (counterBase u (ctxOf s n).kidx x.addr (ctxTo (ctxOf s n)) e + 1) = l at next ⊢
  have runs : stepWriteGo m n x {} s =
      writeSlice (stepRequest m n x (ctxOf s n).kidx (ctxTo (ctxOf s n)) l k) k {} v := by
    unfold stepWriteGo
    dsimp only
    rw [held, entry]
    dsimp only
    rw [next]
    rfl
  obtain ⟨t, whole, issued⟩ := writeSlice_issues (stepRequest m n x (ctxOf s n).kidx (ctxTo (ctxOf s n)) l k) k v
  rw [work.slotClass, issuedOp_congr work] at issued
  exact ⟨t, _, runs.trans whole, LineIssued.before work issued, rfl,
    issuedOp_lineWritten (stepRequest m n x (ctxOf s n).kidx (ctxTo (ctxOf s n)) l k) k u⟩

/-- A write slot of the rekey engine writes a decided step's line (R151). -/
theorem rekeyStepWrite_writes {m : Fin 16} {n : Nat} {x : StepLine} {c : Ctx} {k : GenKeys} {e : BitVec 64} {base : Nat}
    {s : State} (slot : slotFor s m .w = some .rk) (pick : rkWritePick s m = some (n, x)) (ctx : c = ctxOf s n)
    (other : c.cause ≠ 4) (held : genKeys s c.kidx (ctxTo c) = some k)
    (entry : jackEntry s x.addr = none ∧ e = fillEntry s c.kidx x.addr x.side ∨
      (∃ w, jackEntry s x.addr = some (w, e)) ∧ (genByKgen4 (slotOf s c.kidx) (jeKgen4 e)).isSome = true)
    (counter : base = counterBase s c.kidx x.addr (ctxTo c) e) (more : base < 2 ^ 24 - 1) :
    ∃ t o, exec (.rekeyStepWrite m {}) s = .next t ∧ (mediaOf t m).fifoW = (mediaOf s m).fifoW ++ [o] ∧
      o.owner = .step n x.addr ∧
      LineWritten s o c.kidx x.addr k (ctxTo c) (BitVec.ofNat 24 (base + 1)) x.data x.poison ∧
      (∃ y ∈ (ctxOf t n).steps, y.addr = x.addr ∧ y.st = .written) ∧ t.nv = s.nv ∧ t.clk = s.clk := by
  subst ctx
  have runs := rekeyStepWrite_runs slot pick
  rw [if_neg other] at runs
  have same := sameCounters_stepTurned m n x s
  have step := stepTurned_step (m := m) (rkWritePick_mem pick)
  have fifo := stepTurned_fifoW m n x s m
  have frame := stepTurned_frame m n x s
  have ctx := ctxOf_stepTurned m n x s
  generalize stepTurned m n x s = v at runs same step fifo frame ctx
  have kidx : (ctxOf v n).kidx = (ctxOf s n).kidx := by rw [ctx]
  have gen : ctxTo (ctxOf v n) = ctxTo (ctxOf s n) := by
    rw [ctx]
    rfl
  rw [← kidx] at held entry counter ⊢
  rw [← gen] at held counter ⊢
  have found := entryResolve_frame (ctxOf v n).kidx x.addr x.side false v
  have value := entryResolve_entry (k := (ctxOf v n).kidx) (a := x.addr) (sc := x.side) (s := v) (e := e) (by
    rw [jackEntry_congr (s := s) (by rw [frame]) (by rw [frame]), fillEntry_congr (s := s) (by rw [frame]), same.slotOf]
    exact entry)
  generalize look : entryResolve (ctxOf v n).kidx x.addr x.side false v = r at found value
  obtain ⟨e', u⟩ := r
  dsimp only at found value
  subst value
  have near := same.of_frame (u := u) (by rw [found])
  rw [← same.genKeys] at held
  rw [← near.counterBase] at counter
  obtain ⟨t, o, whole, issued, own, written⟩ := stepWriteGo_issues (m := m) rfl held look counter more
  have steps : (ctxOf t n).steps = (ctxOf v n).steps := by
    rw [issued.ctxs, ctxOf_congr (s := v) (t := u) (by rw [found])]
  obtain ⟨y, here, line⟩ := step
  refine ⟨_, o, runs.trans (congrArg Host.Outcome.next whole), ?_, own, near.lineWritten written,
    ⟨_, mem_stepMod (steps ▸ here) line, line, rfl⟩, ?_, ?_⟩
  · show (mediaOf t m).fifoW = _
    rw [issued.fifoW, mediaOf_congr (s := v) (t := u) (by rw [found]), fifo]
  · show t.nv = _
    rw [issued.frame, found, frame]
  · show t.clk = _
    rw [issued.frame, found, frame]

-- The write of a purge step

/-- A purge step whose line names no live generation writes zeros (R160). -/
theorem purgeWrite_zeros {m n : Nat} {x : StepLine} {s : State}
    (none : genByKgen4 (slotOf s (ctxOf s n).kidx) (scKgen4 x.side) = none) :
    purgeWrite m n x {} s = purgePut m n x.addr 0 .none s := by
  unfold purgeWrite
  dsimp only
  rw [none]

theorem rekeyStepWrite_purges {m : Fin 16} {n : Nat} {x : StepLine} {s : State} (slot : slotFor s m .w = some .rk)
    (pick : rkWritePick s m = some (n, x)) (purge : (ctxOf s n).cause = 4)
    (none : genByKgen4 (slotOf s (ctxOf s n).kidx) (scKgen4 x.side) = none) :
    ∃ t, exec (.rekeyStepWrite m {}) s = .next t ∧
      (mediaOf t m).fifoW = (mediaOf s m).fifoW ++
        [{ kind := .write, addr := x.addr, data := mediaJoin 0 0, owner := .step n x.addr,
           kidx := (ctxOf s n).kidx, seq := s.mseq, cyc := now s }] ∧
      (∃ y ∈ (ctxOf t n).steps, y.addr = x.addr ∧ y.st = .written) ∧ t.keys = s.keys := by
  have runs := rekeyStepWrite_runs slot pick
  rw [if_pos purge] at runs
  have same := sameCounters_stepTurned m n x s
  obtain ⟨y, here, line⟩ := stepTurned_step (m := m) (rkWritePick_mem pick)
  have fifo := stepTurned_fifoW m n x s m
  have frame := stepTurned_frame m n x s
  have ctx := ctxOf_stepTurned m n x s
  generalize stepTurned m n x s = v at runs same here fifo frame ctx
  have kidx : (ctxOf v n).kidx = (ctxOf s n).kidx := by rw [ctx]
  rw [purgeWrite_zeros (by rw [same.slotOf, kidx, none])] at runs
  have time : now v = now s := by
    unfold now
    rw [same.clk]
  refine ⟨_, runs, ?_, ⟨_, mem_stepMod (s := stepWritten (.step n x.addr) (issueW m _ v)) here line, line, rfl⟩, ?_⟩
  · refine (congrArg Media.fifoW ((mediaOf_issueW ..).trans (if_pos rfl))).trans ?_
    dsimp only
    rw [fifo, kidx, time, frame]
    rfl
  · show v.keys = _
    rw [frame]

end Sys2Proof.Machine

namespace Sys2Proof
open Sys2Proof.Machine

/-- Settles O37: the read and the write of a step, and the zeros of a purge. -/
theorem stepsReadAndWrite : Obligations.StepsReadAndWrite := by
  unfold Obligations.StepsReadAndWrite
  exact ⟨fun m n a ahead s slot pick => rekeyStep_reads slot pick,
    fun m n x c k e base s slot pick ctx other held entry _ counter more =>
      rekeyStepWrite_writes slot pick ctx other held entry counter more,
    fun m n x s slot pick purge none => rekeyStepWrite_purges slot pick purge none⟩

end Sys2Proof

/-! SUPPORT. The polls of the rekey engine and the drain, and the answer of a read (R171, R258, R261). -/

namespace Sys2Proof.Machine

-- Polls

theorem rkPoll_frame (s : State) : rkPoll s = { s with
    nvu := (rkPoll s).nvu, regs := (rkPoll s).regs, ev := (rkPoll s).ev, rk := (rkPoll s).rk } := by
  unfold rkPoll
  split
  · rfl
  · generalize List.range 64 = l
    induction l generalizing s with
    | nil => rfl
    | cons n l ih =>
      rename_i service
      have phase : ∀ t : State, t.pwr = s.pwr → ¬ t.pwr.phase ≠ .service := fun t same => by
        rw [same]
        exact service
      rw [List.foldl_cons]
      split
      · rw [ih _ (phase _ (by rw [nvPush_frame]; rfl)), nvPush_frame]
        rfl
      · rw [ih s service]

/-- The polls that end a command of a media port: they queue records alone. -/
def polled (s : State) : State := drainPoll (rkPoll s)

theorem polled_frame (s : State) : polled s = { s with
    nvu := (polled s).nvu, regs := (polled s).regs, ev := (polled s).ev, rk := (polled s).rk
    pwr := { s.pwr with sessionQueued := (polled s).pwr.sessionQueued } } := by
  unfold polled
  rw [drainPoll_frame, rkPoll_frame]

-- The answer of a read

/-- A transaction has ended with an answer to its source. -/
structure Replied (k : Nat) (src : Src) (r : Rsp) (s : State) : Prop where
  ended : txnFind s k = none
  told : r ∈ rspsOf s src

theorem Replied.congr {k : Nat} {src : Src} {r : Rsp} {s t : State} (replied : Replied k src r s) (pool : t.pool = s.pool) :
    Replied k src r t where
  ended := by
    unfold txnFind
    rw [pool]
    exact replied.ended
  told := by
    have eq : ∀ p, eqOf t p = eqOf s p := fun p => by
      unfold eqOf
      rw [pool]
    unfold rspsOf
    rw [pool]
    cases src with
    | link p =>
      dsimp only
      rw [eq]
      exact replied.told
    | master n => exact replied.told

theorem txnFind_id {k : Nat} {x : Txn} {s : State} (found : txnFind s k = some x) : x.id = k := by
  have own := List.find?_some found
  simpa using own

theorem txnFind_txnDel (k : Nat) (s : State) : txnFind (txnDel k s) k = none := by
  refine List.find?_eq_none.2 fun x here own => ?_
  have other := (List.mem_filter.1 here).2
  rw [bne_iff_ne] at other
  exact other (by simpa using own)

section
variable {x : Txn} {status : Nat} {data : Option Line} {psn : Bool} {extra : Side} {s : State}

theorem readReply_answered (sound : sendsSound s x.item.src x.item.gone) :
    Answered (txnDel x.id s) (readReply x status data psn extra s) := complete_answered sound

theorem readReply_replied (here : x.item.gone = false) (sound : eqSound s x.item.src) :
    Replied x.id x.item.src (answer x.item status data psn extra) (readReply x status data psn extra s) where
  ended := by
    have pool := readReply_answered (x := x) (status := status) (data := data) (psn := psn) (extra := extra) fun _ => sound
    unfold txnFind
    rw [pool.txns]
    exact txnFind_txnDel ..
  told := mem_complete here sound

theorem readReply_frame : readReply x status data psn extra s = { s with
    regs := (readReply x status data psn extra s).regs, ev := (readReply x status data psn extra s).ev
    links := (readReply x status data psn extra s).links, accts := (readReply x status data psn extra s).accts
    pastAccts := (readReply x status data psn extra s).pastAccts, pool := (readReply x status data psn extra s).pool } := by
  unfold readReply
  rw [complete_frame]
  rfl

end

theorem lostForget_frame (o : MOwner) (s : State) : lostForget o s = { s with tagc := (lostForget o s).tagc } := by
  unfold lostForget
  split <;> rfl

theorem deliverNone_read {k row status : Nat} {x : Txn} {s : State} (found : txnFind s k = some x) (reads : opReads x.item.op = true) :
    deliverNone (.txn k) row status s = readReply x status none false 0 s := by
  unfold deliverNone
  dsimp only
  rw [found]
  dsimp only
  split
  · next half =>
    rw [half] at reads
    cases reads
  · rfl

theorem ownerKeyless_txn {k : Nat} {x : Txn} {s : State} (found : txnFind s k = some x) : ownerKeyless s (.txn k) = x.keyless := by
  unfold ownerKeyless
  dsimp only
  rw [found]
  rfl

/-- A read that the medium cannot deliver is answered MEDIA_ERROR, or after a zeroization KEY_ABSENT (R179, R382). -/
theorem readEnd_read {m k : Nat} {o : MOp} {x : Txn} {s : State} (own : o.owner = .txn k) (found : txnFind s k = some x)
    (reads : opReads x.item.op = true) : readEnd m s o =
      lostForget (.txn k) (readReply x (if x.keyless then stKeyAbsent else stMediaError) none false 0 s) := by
  unfold readEnd
  rw [own]
  unfold lineLost
  dsimp only
  rw [deliverNone_read found reads, ownerKeyless_txn found]

end Sys2Proof.Machine

/-! SUPPORT. The tag cache when a fetched line arrives (R82, R87, R89). -/

namespace Sys2Proof.Machine

/-- The cached lines and the fetches that are out. -/
def State.cached (s : State) : Tab TagWay × List TagFetch := (s.tagc.ways, s.tagc.fetches)

theorem txnFinish_cached (t : Txn) (status : Nat) (s : State) : (txnFinish t status s).cached = s.cached := by
  unfold txnFinish
  rw [completeBare_frame]
  rfl

theorem readReply_cached (t : Txn) (status : Nat) (data : Option Line) (psn : Bool) (extra : Side) (s : State) :
    (readReply t status data psn extra s).cached = s.cached := by
  rw [readReply_frame]
  rfl

theorem raise_cached (e : Ev) (src a b c : Nat) (s : State) : (raise e src a b c s).cached = s.cached := by
  rw [raise_frame]
  rfl

theorem lineFault_cached (n a status row : Nat) (s : State) : (lineFault n a status row s).cached = s.cached := by
  unfold lineFault
  rw [raise_cached]
  split <;> rfl

theorem deliver_cached (o : MOwner) (row status : Nat) (pt : Line) (line : BitVec 576) (s : State) :
    (deliver o row status pt line s).cached = s.cached := by
  unfold deliver
  split
  · split
    · rfl
    · split
      · split
        · unfold partialMerge
          rw [txnConsume_frame]
          rfl
        · exact txnFinish_cached ..
      · exact readReply_cached ..
  · split
    · rfl
    · exact lineFault_cached ..
  · rfl

theorem deliverGood_cached (o : MOwner) (line : BitVec 576) (ks : List Block) (s : State) :
    (deliverGood o line ks s).cached = s.cached := by
  unfold deliverGood
  dsimp only
  split
  · exact deliver_cached ..
  · exact deliver_cached ..

theorem tagFailNote_cached (k a sl : Nat) (torn total : Bool) (echo : Nat) (s : State) :
    (tagFailNote k a sl torn total echo s).cached = s.cached := by
  unfold tagFailNote
  dsimp only
  rw [raise_cached]
  split <;> rfl

theorem nextGenCause_cached (k : Nat) (s : State) : (nextGenCause k s).cached = s.cached := by
  rw [nextGenCause_frame]
  rfl

theorem tagFailCount_cached (k : Nat) (s : State) : (tagFailCount k s).cached = s.cached := by
  unfold tagFailCount
  dsimp only
  split
  · rw [raise_cached]
    split
    · rw [nextGenCause_cached]
      rfl
    · rfl
  · rfl

theorem ownerSt_cached (o : MOwner) (st : TxSt) (s : State) : (ownerSt o st s).cached = s.cached := by
  unfold ownerSt
  split
  · split <;> rfl
  · rfl

theorem readVerify_cached (h : Hold) (d : Line) (s : State) : (readVerify h d s).cached = s.cached := by
  unfold readVerify
  dsimp only
  split
  · rw [deliver_cached]
    split
    · exact tagFailNote_cached ..
    · rw [tagFailCount_cached]
      exact tagFailNote_cached ..
  · split
    · exact deliverGood_cached ..
    · exact ownerSt_cached ..

theorem fetchGotOwner_cached (tl : Nat) (d : Line) (s : State) (o : MOwner) : (fetchGotOwner tl d s o).cached = s.cached := by
  unfold fetchGotOwner
  split
  · exact readVerify_cached ..
  · split
    · split
      · rfl
      · split
        · exact readReply_cached ..
        · split
          · split <;> rfl
          · rfl
    · rfl

/-- The content of a fetched tag line: what was never written is zero (R82). -/
def fetchedData (line : BitVec 576) : Line := if (lnSide line).extractLsb' 19 2 = 0#2 then 0 else lnPay line

/-- A cached tag line once its fetch has come (R82). -/
def wayFetched (x : TagWay) (line : BitVec 576) (s : State) : TagWay :=
  { x with data := tagMergeData x (fetchedData line), valid := 0xFF#8, failedFetch := false, quietAt := now s
           used := s.tagc.uses }

/-- A fetch is no longer out, and what its trailer shows is noted (R91). -/
def fetchNoted (tl kidx : Nat) (line : BitVec 576) (s : State) : State :=
  let u := { s with tagc := { s.tagc with fetches := s.tagc.fetches.filter (fun g => g.tl != tl) } }
  if trailerFaults kidx tl (lnPay line) (lnSide line) = 0 then u
  else tlEv .taglineFault 17 tl (trailerFaults kidx tl (lnPay line) (lnSide line)) (count1 0x6040 7 0 u)

theorem fetchNoted_frame (tl kidx : Nat) (line : BitVec 576) (s : State) : fetchNoted tl kidx line s = { s with
    tagc := { s.tagc with fetches := s.tagc.fetches.filter (fun g => g.tl != tl) }
    regs := (fetchNoted tl kidx line s).regs, ev := (fetchNoted tl kidx line s).ev } := by
  unfold fetchNoted
  dsimp only
  split
  · rfl
  · unfold tlEv
    rw [raise_frame]
    rfl

/-- What the cache holds of a tag line, or else the content that was fetched. -/
def sharedData (tl : Nat) (d : Line) (s : State) : Line :=
  match tagFind s tl with
  | some (_, w) => w.data
  | none => d

theorem tagMerge_found {kidx tl k : Nat} {x : TagWay} {d : Line} {s : State} (found : tagFind s tl = some (k, x)) :
    tagMerge kidx tl d s =
      wayUse k { x with data := tagMergeData x d, valid := 0xFF#8, failedFetch := false, quietAt := now s } s := by
  unfold tagMerge
  rw [found]

/-- A fetched tag line completes its cached way, and its fetch is no longer out (R82). -/
theorem tagFetchGot_cached {tl k : Nat} {x : TagWay} {line : BitVec 576} {s : State}
    (asked : s.tagc.fetches.any (fun f => f.tl == tl) = true) (found : tagFind s tl = some (k, x)) :
    (tagFetchGot tl line s).cached = (tabSet s.tagc.ways k (wayFetched x line s), s.tagc.fetches.filter (fun g => g.tl != tl)) := by
  obtain ⟨f, fetch⟩ := Option.isSome_iff_exists.1 (List.find?_isSome.2 (List.any_eq_true.1 asked))
  have frame := fetchNoted_frame tl f.kidx line s
  have there : tagFind (fetchNoted tl f.kidx line s) tl = some (k, x) :=
    (tagFind_congr (s := s) (by rw [frame]) tl).trans found
  have merged := tagMerge_found (kidx := f.kidx) (d := fetchedData line) there
  have runs : tagFetchGot tl line s = f.owners.foldl (fetchGotOwner tl (sharedData tl (fetchedData line)
      (tagMerge f.kidx tl (fetchedData line) (fetchNoted tl f.kidx line s))))
      (tagMerge f.kidx tl (fetchedData line) (fetchNoted tl f.kidx line s)) := by
    have kept : ¬ ((tagFind (fetchNoted tl f.kidx line s) tl).isNone = true ∧
        f.owners.all (rawTagOwner (fetchNoted tl f.kidx line s)) = true) := fun none => by
      rw [there] at none
      cases none.1
    rw [← if_neg kept (α := State) (c := _) (t := fetchNoted tl f.kidx line s)
      (e := tagMerge f.kidx tl (fetchedData line) (fetchNoted tl f.kidx line s))]
    unfold tagFetchGot
    rw [fetch]
    rfl
  rw [runs, foldl_keeps State.cached _ (fetchGotOwner_cached tl _), merged]
  generalize fetchNoted tl f.kidx line s = u at frame
  have time : now u = now s := by
    unfold now
    rw [frame]
  unfold wayUse wayPut State.cached wayFetched
  rw [time, frame]

end Sys2Proof.Machine

/-! SUPPORT. Responses of reads, fetched tag lines and read timeouts (R82, R256, R261). -/

namespace Sys2Proof.Machine

/-- A read's id is free again (R253). -/
def readBack (m id : Nat) (s : State) : State := mediaPut m { mediaOf s m with outR := tabDel (mediaOf s m).outR id } s

theorem readBack_out (m id : Nat) (s : State) : tabFind (mediaOf (readBack m id s) m).outR id = none := by
  unfold readBack
  rw [mediaOf_mediaPut, if_pos rfl, tabFind_tabDel, if_pos rfl]

theorem response_got {m id kind : Nat} {got : MOp → State → State} {o : MOp} {s : State}
    (out : tabFind (mediaOf s m).outR id = some o) (resp : respKind o = kind) (inTime : o.timedOut = false) :
    response m id kind 0 true got s = got o (readBack m id s) := by
  unfold response
  dsimp only
  rw [out]
  dsimp only
  rw [if_neg (not_not_intro resp), if_neg (by rw [inTime]; decide), if_neg (fun bad => bad.2.1 rfl), if_neg (by decide),
    if_neg (not_not_intro rfl)]
  rfl

/-- A read that the medium reports in error ends without data (R258). -/
theorem response_failed {m id kind stat : Nat} {ok : Bool} {got : MOp → State → State} {o : MOp} {s : State}
    (out : tabFind (mediaOf s m).outR id = some o) (resp : respKind o = kind) (line : o.kind ≠ .sidecar)
    (inTime : o.timedOut = false) (bad : stat = 1 ∨ stat = 2) :
    response m id kind stat ok got s = readEnd m (mediaErr m stat o (readBack m id s)) o := by
  unfold response
  dsimp only
  rw [out]
  dsimp only
  rw [if_neg (not_not_intro resp), if_neg (by rw [inTime]; decide), if_neg (fun bad => line bad.1),
    if_neg (by omega), if_pos (by omega)]
  rfl

-- A fetched tag line

/-- A tag line's response completes the cached line and ends its fetch (R82). -/
theorem taglineArrival_completes {m : Fin 16} {id : BitVec 11} {line : BitVec 576} {o : MOp} {tl k : Nat} {x : TagWay} {s : State}
    (out : tabFind (mediaOf s m).outR id.toNat = some o) (kind : o.kind = .read) (own : o.owner = .tagFetch tl)
    (inTime : o.timedOut = false) (asked : s.tagc.fetches.any (fun f => f.tl == tl) = true)
    (found : tagFind s tl = some (k, x)) : ∃ t, exec (.taglineArrival m id 0 line (linePar line)) s = .next t ∧
      tabFind t.tagc.ways k = some (wayFetched x line s) ∧ (∀ f ∈ t.tagc.fetches, f.tl ≠ tl) := by
  have resp : respKind o = 2 := by
    unfold respKind
    rw [kind, own]
    rfl
  have runs : exec (.taglineArrival m id 0 line (linePar line)) s = .next (polled (doTaglineArrival m id.toNat 0 line (linePar line) s)) :=
    rfl
  have does : doTaglineArrival m id.toNat 0 line (linePar line) s = tagFetchGot tl line (readBack m id.toNat s) := by
    unfold doTaglineArrival
    rw [beq_self_eq_true, response_got out resp inTime, own]
  have cached := tagFetchGot_cached (line := line) (s := readBack m id.toNat s) asked found
  rw [does] at runs
  generalize tagFetchGot tl line (readBack m id.toNat s) = u at runs cached
  obtain ⟨ways, fetches⟩ := Prod.ext_iff.1 cached
  refine ⟨_, runs, ?_, ?_⟩
  · rw [polled_frame]
    refine (congrArg (tabFind · k) ways).trans ?_
    dsimp only
    rw [tabFind_tabSet, if_pos rfl]
    rfl
  · rw [polled_frame]
    intro f here
    have left : f ∈ s.tagc.fetches.filter (fun g => g.tl != tl) := (congrArg (f ∈ ·) fetches).mp here
    simpa using (List.mem_filter.1 left).2

-- A read that times out

/-- A read's id stays taken until its late response (R261). -/
def readKept (m id : Nat) (o : MOp) (s : State) : State :=
  mediaPut m { mediaOf s m with outR := tabSet (mediaOf s m).outR id { o with timedOut := true } } s

/-- What a read timeout notes (R261, R347). -/
def timeoutNoted (m id : Nat) (o : MOp) (s : State) : State :=
  count1 (mpStat m) 5 0 (count1 (mpStat m) 7 0 (raise .mpTimeout (srcMedia m 0) 0 id (o.addr % 2 ^ 32) (readKept m id o s)))

theorem timeoutNoted_frame (m id : Nat) (o : MOp) (s : State) : timeoutNoted m id o s = { s with
    media := (readKept m id o s).media, regs := (timeoutNoted m id o s).regs, ev := (timeoutNoted m id o s).ev } := by
  unfold timeoutNoted
  rw [raise_frame]
  rfl

theorem readTimeout_runs {m : Fin 16} {id : BitVec 11} {o : MOp} {s : State}
    (out : tabFind (mediaOf s m).outR id.toNat = some o) (inTime : o.timedOut = false) :
    exec (.readTimeout m id) s = .next (polled (readEnd m (timeoutNoted m id.toNat o s) o)) := by
  refine congrArg Host.Outcome.next (congrArg polled ?_)
  unfold doReadTimeout
  dsimp only
  rw [out]
  dsimp only
  rw [if_neg (by rw [inTime]; decide)]
  rfl

/-- A read that times out is answered, and its id stays taken (R179, R261). -/
theorem readTimeout_answers {m : Fin 16} {id : BitVec 11} {o : MOp} {k : Nat} {x : Txn} {s : State}
    (out : tabFind (mediaOf s m).outR id.toNat = some o) (inTime : o.timedOut = false) (own : o.owner = .txn k)
    (found : txnFind s k = some x) (reads : opReads x.item.op = true) (keyed : x.keyless = false) (here : x.item.gone = false)
    (answers : eqSound s x.item.src) : ∃ t, exec (.readTimeout m id) s = .next t ∧
      tabFind (mediaOf t m).outR id.toNat = some { o with timedOut := true } ∧
      Replied k x.item.src (answer x.item stMediaError none false 0) t := by
  have runs := readTimeout_runs out inTime
  have frame := timeoutNoted_frame m id.toNat o s
  have kept : tabFind (mediaOf (readKept m id.toNat o s) m).outR id.toNat = some { o with timedOut := true } := by
    unfold readKept
    rw [mediaOf_mediaPut, if_pos rfl, tabFind_tabSet, if_pos rfl]
  generalize timeoutNoted m id.toNat o s = u at runs frame
  have there : txnFind u k = some x := by
    rw [frame]
    exact found
  rw [readEnd_read own there reads, keyed, if_neg Bool.false_ne_true] at runs
  have replied := readReply_replied (x := x) (status := stMediaError) (data := none) (psn := false) (extra := 0) (s := u) here
    fun p link => by
      rw [frame]
      exact answers p link
  have answered := readReply_frame (x := x) (status := stMediaError) (data := none) (psn := false) (extra := 0) (s := u)
  rw [txnFind_id found] at replied
  generalize readReply x stMediaError none false 0 u = v at runs replied answered
  refine ⟨_, runs, ?_, replied.congr (by rw [polled_frame, lostForget_frame])⟩
  rw [mediaOf_congr (s := readKept m id.toNat o s) (by rw [polled_frame, lostForget_frame, answered, frame]), kept]

end Sys2Proof.Machine

/-! SUPPORT. Jack while writes take their counters and go out (R99, R101, R105). -/

namespace Sys2Proof.Machine

-- What leaves Jack alone

theorem raise_jack (e : Ev) (src a b c : Nat) (s : State) : (raise e src a b c s).jack = s.jack := by rw [raise_frame]

theorem highWater_jack (k : Nat) (g : BitVec 32) (s : State) : (highWater k g s).jack = s.jack := by
  unfold highWater
  dsimp only
  generalize hu : (if (slotOf s k).hwNoted = some g then s else _) = u
  have noted : u.jack = s.jack := by
    rw [← hu]
    split
    · rfl
    · exact raise_jack ..
  have caused : (nextGenCause k u).jack = s.jack := by
    rw [nextGenCause_frame]
    exact noted
  split
  · exact noted
  · split
    · exact caused
    · exact caused

theorem aheadAdd_jack (n a : Nat) (s : State) : (aheadAdd n a s).jack = s.jack := by
  unfold aheadAdd
  dsimp only
  split <;> rfl

theorem counterEnd_jack (k a : Nat) (g : BitVec 32) (s : State) : (counterEnd k a g s).jack = s.jack := by
  unfold counterEnd
  dsimp only
  split
  · split
    · exact raise_jack ..
    · rw [raise_jack]
      exact aheadAdd_jack ..
  · exact raise_jack ..

theorem counterTaken_jack (k a : Nat) (g : BitVec 32) (c : Nat) (s : State) : (counterTaken k a g c s).jack =
    (jackWrite a (jackPack a (BitVec.ofNat 24 c) (g.setWidth 4) (BitVec.ofNat 2 (slotClass s k)) 0) s).jack := by
  unfold counterTaken
  dsimp only
  generalize jackWrite a _ s = u
  have marked : (if cfgVal u 0x2050 1 0 ≤ c ∧ g = (slotOf u k).gen then highWater k g u else u).jack = u.jack := by
    split
    · exact highWater_jack ..
    · rfl
  split
  · rw [counterEnd_jack, marked]
  · exact marked

theorem ownerOwes_jack (o : MOwner) (tl seq : Nat) (s : State) : (ownerOwes o tl seq s).jack = s.jack := by
  unfold ownerOwes tagOwe
  split
  · dsimp only
    split <;> rfl
  · rfl

theorem tagEntered_jack (w : WriteReq) (ks : List Block) (f : Faults) (s : State) : (tagEntered w ks f s).jack = s.jack := by
  unfold tagEntered
  split
  · split
    · next tl e _ =>
      dsimp only
      generalize hu : ownerOwes w.owner tl s.mseq _ = u
      have entered : u.jack = s.jack := by
        rw [← hu, ownerOwes_jack, tagWrite_frame, tagSecded_frame]
      split
      · rw [wbFetches_frame]
        exact entered
      · exact entered
    · rfl
  · rfl

theorem aheadIssued_jack (k a : Nat) (g : BitVec 32) (s : State) : (aheadIssued k a g s).jack = s.jack := by
  unfold aheadIssued
  split
  · rfl
  · dsimp only
    split <;> rfl

theorem stepWritten_jack (o : MOwner) (s : State) : (stepWritten o s).jack = s.jack := by
  unfold stepWritten
  split <;> rfl

theorem writeIssue_jack (w : WriteReq) (ks : List Block) (f : Faults) (s : State) : (writeIssue w ks f s).jack = s.jack := by
  show (ownerIssued w.owner w.gen w.lctr (stepWritten w.owner (tagUnreserve w.owner (aheadIssued w.kidx w.addr w.gen
    (issueW w.port (lineOp w ks s) (tagEntered w ks f s)))))).jack = s.jack
  rw [ownerIssued_frame]
  dsimp only
  rw [stepWritten_jack]
  show (aheadIssued w.kidx w.addr w.gen _).jack = s.jack
  rw [aheadIssued_jack]
  exact tagEntered_jack ..

theorem writeSlice_sound (w : WriteReq) (k : GenKeys) (s : State) : writeSlice w k {} s =
    writeIssue w (lineBlocks (slotClass s w.kidx) w.kidx k w.gen w.addr w.lctr) {} s := by
  unfold writeSlice
  dsimp only
  rw [sliceBlocks_sound s _ _ .w (length_lineBlocks ..)]

-- Entries of a line

theorem jeTag_jackPack {a : Nat} (small : a < 2 ^ 40) (l : BitVec 24) (g : BitVec 4) (c : BitVec 2) (lead : Nat) :
    jeTag (jackPack a l g c lead) = a / 8192 := by
  have tag : (jackPack a l g c lead).extractLsb' 37 27 = BitVec.ofNat 27 (a / 8192) := by
    unfold jackPack
    rw [BitVec.extractLsb'_append_eq_of_le (by decide), BitVec.extractLsb'_append_eq_of_le (by decide),
      BitVec.extractLsb'_append_eq_of_le (by decide), BitVec.extractLsb'_append_eq_of_le (by decide),
      BitVec.extractLsb'_append_eq_left]
  unfold jeTag
  rw [tag, BitVec.toNat_ofNat]
  omega

/-- The key of one of a line's ways. -/
def lineKey (s : State) (a k : Nat) : Prop := ∃ w < 8, k = jackKey (portOf s a) (jackSet a) w

theorem jackEntry_lineKey {a k : Nat} {e : BitVec 64} {s : State} (entry : jackEntry s a = some (k, e)) : lineKey s a k := by
  unfold jackEntry at entry
  obtain ⟨w, way, found⟩ := List.exists_of_findSome?_eq_some entry
  refine ⟨w, List.mem_range.1 way, ?_⟩
  split at found
  · split at found
    · cases found
      rfl
    · cases found
  · cases found

/-- A line whose entry is in one of its ways has an entry. -/
theorem jackEntry_isSome {a k : Nat} {e : BitVec 64} {s : State} (way : lineKey s a k) (there : tabFind s.jack.entries k = some e)
    (tag : jeTag e = a / 8192) : (jackEntry s a).isSome = true := by
  obtain ⟨w, low, rfl⟩ := way
  unfold jackEntry
  rw [List.findSome?_isSome_iff]
  refine ⟨w, List.mem_range.2 low, ?_⟩
  rw [there]
  dsimp only
  rw [if_pos tag]
  rfl

/-- An entry of a line that is put in one of its ways is there. -/
theorem jackEntry_put {a k : Nat} {e : BitVec 64} {s t : State} (way : lineKey s a k) (tag : jeTag e = a / 8192)
    (entries : t.jack.entries = tabSet s.jack.entries k e) (cfg : t.cfg = s.cfg) : (jackEntry t a).isSome = true := by
  have port : portOf t a = portOf s a := by
    unfold portOf cfgVal
    rw [cfg]
  refine jackEntry_isSome (k := k) (e := e) ?_ (by rw [entries, tabFind_tabSet, if_pos rfl]) tag
  unfold lineKey
  rw [port]
  exact way

theorem jackWrite_over {a k : Nat} {e v : BitVec 64} {s : State} (entry : jackEntry s a = some (k, v)) :
    jackWrite a e s = { s with jack := { s.jack with entries := tabSet s.jack.entries k e } } := by
  unfold jackWrite
  rw [entry]

theorem jackWrite_keeps {a : Nat} {e : BitVec 64} {s : State} (tag : jeTag e = a / 8192) (some : (jackEntry s a).isSome = true) :
    (jackEntry (jackWrite a e s) a).isSome = true := by
  obtain ⟨⟨k, v⟩, entry⟩ := Option.isSome_iff_exists.1 some
  rw [jackWrite_over entry]
  exact jackEntry_put (jackEntry_lineKey entry) tag rfl rfl

theorem jackWrite_probes (a : Nat) (e : BitVec 64) (s : State) : (jackWrite a e s).jack.probes = s.jack.probes := by
  unfold jackWrite
  split
  · rfl
  · have place := jackPlace_frame a s
    generalize jackPlace a s = r at place ⊢
    obtain ⟨k, t⟩ := r
    dsimp only at place
    cases k with
    | none =>
      dsimp only
      rw [place]
    | some k =>
      dsimp only
      rw [place]

/-- Where no row is bad a new entry finds a way of its line (R101). -/
theorem jackPlace_way {a : Nat} {s : State} (good : s.rep.badRows = []) : ∃ k, (jackPlace a s).1 = some k ∧ lineKey s a k := by
  have whole : ((List.range 8).map (fun w => jackKey (portOf s a) (jackSet a) w)).filter (fun k => !jackWayBad s k) =
      (List.range 8).map (fun w => jackKey (portOf s a) (jackSet a) w) := by
    refine List.filter_eq_self.2 fun k _ => ?_
    unfold jackWayBad
    rw [good]
    rfl
  have way : ∀ {k}, k ∈ (List.range 8).map (fun w => jackKey (portOf s a) (jackSet a) w) → lineKey s a k := fun here => by
    obtain ⟨w, low, rfl⟩ := List.mem_map.1 here
    exact ⟨w, List.mem_range.1 low, rfl⟩
  unfold jackPlace
  dsimp only
  rw [whole]
  split
  · next k found => exact ⟨k, rfl, way (List.mem_of_find?_eq_some found)⟩
  · dsimp only
    have inside : Config.jackVictim (takeFree s).1 % max 1 ((List.range 8).map (fun w => jackKey (portOf s a) (jackSet a) w)).length <
        ((List.range 8).map (fun w => jackKey (portOf s a) (jackSet a) w)).length := by
      rw [List.length_map, List.length_range]
      exact Nat.mod_lt _ (by decide)
    exact ⟨_, List.getElem?_eq_getElem inside, way (List.getElem_mem inside)⟩

theorem jackWrite_fills {a : Nat} {e : BitVec 64} {s : State} (good : s.rep.badRows = []) (tag : jeTag e = a / 8192)
    (none : jackEntry s a = none) : (jackEntry (jackWrite a e s) a).isSome = true := by
  obtain ⟨k, found, way⟩ := jackPlace_way (a := a) good
  have place := jackPlace_frame a s
  unfold jackWrite
  rw [none]
  dsimp only
  generalize jackPlace a s = r at found place ⊢
  obtain ⟨k', t⟩ := r
  dsimp only at found place
  subst found
  exact jackEntry_put way tag (by rw [place]) (by rw [place])

end Sys2Proof.Machine

/-! SUPPORT and OBLIGATION. A probe's sidecar, and how reads of a media port end (R105 to R107, R256, R261). -/

namespace Sys2Proof.Machine

theorem exec_nv_clk {c : Instr} {s t : State} (runs : exec c s = .next t) (stays : movesKept c = false) :
    t.nv = s.nv ∧ t.clk = s.clk :=
  ⟨congrArg (fun p => p.2.1) (exec_kept runs stays), congrArg (fun p => p.2.2) (exec_kept runs stays)⟩

-- A sidecar compared with an entry

theorem jackRegress_jack (k a : Nat) (sc : Side) (s : State) : (jackRegress k a sc s).jack = s.jack := by
  unfold jackRegress
  exact raise_jack ..

/-- A comparison leaves Jack, or puts an entry of the line over its old one (R108). -/
theorem jackCompare_jack {k a w : Nat} {sc : Side} {e : BitVec 64} {s : State} (entry : jackEntry s a = some (w, e)) :
    (jackCompare k a sc s).jack = s.jack ∨ ∃ l g c n, (jackCompare k a sc s).jack =
      { s.jack with entries := tabSet s.jack.entries w (jackPack a l g c n) } := by
  unfold jackCompare
  rw [entry]
  dsimp only
  split
  · split
    · exact .inl rfl
    · exact .inl (jackRegress_jack ..)
  · split
    · exact .inl rfl
    · split
      · split
        · exact .inr ⟨_, _, _, _, jackRegress_jack ..⟩
        · split
          · split
            · exact .inr ⟨_, _, _, _, jackRegress_jack ..⟩
            · split
              · exact .inl rfl
              · exact .inr ⟨_, _, _, _, rfl⟩
          · split
            · exact .inr ⟨_, _, _, _, jackRegress_jack ..⟩
            · exact .inl rfl
      · exact .inl rfl

theorem jackCompare_keeps {k a : Nat} {sc : Side} {s : State} (small : a < 2 ^ 40) (some : (jackEntry s a).isSome = true) :
    (jackEntry (jackCompare k a sc s) a).isSome = true := by
  obtain ⟨⟨w, e⟩, entry⟩ := Option.isSome_iff_exists.1 some
  have cfg : (jackCompare k a sc s).cfg = s.cfg := by rw [jackCompare_frame]
  rcases jackCompare_jack (k := k) (sc := sc) entry with same | ⟨l, g, c, n, put⟩
  · rw [jackEntry_congr (by rw [same]) cfg]
    exact some
  · exact jackEntry_put (jackEntry_lineKey entry) (jeTag_jackPack small l g c n) (by rw [put]) cfg

theorem jeTag_fillEntry {k a : Nat} {sc : Side} {s : State} (small : a < 2 ^ 40) : jeTag (fillEntry s k a sc) = a / 8192 := by
  unfold fillEntry
  split
  · exact jeTag_jackPack small ..
  · exact jeTag_jackPack small ..

theorem jackFill_fills {k a : Nat} {sc : Side} {s : State} (small : a < 2 ^ 40) (good : s.rep.badRows = []) :
    (jackEntry (jackFill k a sc s) a).isSome = true := by
  unfold jackFill
  split
  · next p entry => exact jackCompare_keeps small (by rw [entry]; rfl)
  · next none => exact jackWrite_fills good (jeTag_fillEntry small) none

theorem jackFill_probes (k a : Nat) (sc : Side) (s : State) : (jackFill k a sc s).jack.probes = s.jack.probes := by
  unfold jackFill
  split
  · next p entry =>
    rcases jackCompare_jack (k := k) (sc := sc) entry with same | ⟨l, g, c, n, put⟩
    · rw [same]
    · rw [put]
  · exact jackWrite_probes ..

-- Writes that go on keep the entry of their line

/-- What the writes of a line keep: its entry in Jack, the probes, and the reads that are out. -/
structure JackHolds (a : Nat) (s t : State) : Prop where
  entry : (jackEntry s a).isSome = true → (jackEntry t a).isSome = true
  probes : t.jack.probes = s.jack.probes
  reads : ∀ n, (mediaOf t n).outR = (mediaOf s n).outR
  frame : t.cfg = s.cfg ∧ t.rep = s.rep

namespace JackHolds
variable {a : Nat} {s t u : State}

theorem refl (a : Nat) (s : State) : JackHolds a s s := ⟨id, rfl, fun _ => rfl, rfl, rfl⟩

theorem trans (h : JackHolds a s t) (g : JackHolds a t u) : JackHolds a s u :=
  ⟨fun some => g.entry (h.entry some), g.probes.trans h.probes, fun n => (g.reads n).trans (h.reads n),
    g.frame.1.trans h.frame.1, g.frame.2.trans h.frame.2⟩

/-- What leaves Jack alone. -/
theorem of_jack (jack : t.jack = s.jack) (reads : ∀ n, (mediaOf t n).outR = (mediaOf s n).outR) (cfg : t.cfg = s.cfg)
    (rep : t.rep = s.rep) : JackHolds a s t :=
  ⟨fun some => by rwa [jackEntry_congr (by rw [jack]) cfg], by rw [jack], reads, cfg, rep⟩

end JackHolds

theorem txnFinish_frame (x : Txn) (status : Nat) (s : State) : txnFinish x status s = { s with
    regs := (txnFinish x status s).regs, ev := (txnFinish x status s).ev, links := (txnFinish x status s).links
    accts := (txnFinish x status s).accts, pastAccts := (txnFinish x status s).pastAccts
    pool := (txnFinish x status s).pool, tagc := (txnFinish x status s).tagc } := by
  unfold txnFinish
  rw [completeBare_frame]
  rfl

theorem txnFinish_holds (a : Nat) (x : Txn) (status : Nat) (s : State) : JackHolds a s (txnFinish x status s) :=
  .of_jack (by rw [txnFinish_frame]) (fun n => congrArg Media.outR (mediaOf_congr (by rw [txnFinish_frame]) n)) (by rw [txnFinish_frame])
    (by rw [txnFinish_frame])

theorem spentNote_frame (k a : Nat) (s : State) :
    spentNote k a s = { s with regs := (spentNote k a s).regs, ev := (spentNote k a s).ev } := by
  unfold spentNote
  rw [sumUp_frame]
  rfl

theorem counterTaken_holds {k a : Nat} (g : BitVec 32) (c : Nat) (s : State) (small : a < 2 ^ 40) :
    JackHolds a s (counterTaken k a g c s) where
  entry some := by
    rw [jackEntry_congr (s := jackWrite a (jackPack a (BitVec.ofNat 24 c) (g.setWidth 4) (BitVec.ofNat 2 (slotClass s k)) 0) s)
      (by rw [counterTaken_jack]) (by rw [(counterTaken_work k a g c s).frame, jackWrite_frame])]
    exact jackWrite_keeps (jeTag_jackPack small ..) some
  probes := by
    rw [counterTaken_jack]
    exact jackWrite_probes ..
  reads n := by rw [(counterTaken_work k a g c s).media]
  frame := by
    rw [(counterTaken_work k a g c s).frame]
    exact ⟨rfl, rfl⟩

theorem writeSlice_holds (a : Nat) (w : WriteReq) (k : GenKeys) (s : State) : JackHolds a s (writeSlice w k {} s) := by
  have jack : (writeSlice w k {} s).jack = s.jack := by
    rw [writeSlice_sound]
    exact writeIssue_jack ..
  obtain ⟨t, whole, issued⟩ := writeSlice_issues w k s
  refine .of_jack jack (fun n => ?_) ?_ ?_
  · rw [whole, mediaOf_ownerIssued, issued.media]
    split
    · next same => rw [same]
    · rfl
  · rw [whole, ownerIssued_frame, issued.frame]
  · rw [whole, ownerIssued_frame, issued.frame]

theorem spentNote_holds (k a : Nat) (s : State) : JackHolds a s (spentNote k a s) :=
  .of_jack (by rw [spentNote_frame]) (fun n => congrArg Media.outR (mediaOf_congr (by rw [spentNote_frame]) n))
    (by rw [spentNote_frame]) (by rw [spentNote_frame])

theorem writeGo_holds (x : Txn) (e : BitVec 64) (s : State) (small : itemLine x.item < 2 ^ 40) :
    JackHolds (itemLine x.item) s (writeGo x e {} s) := by
  unfold writeGo
  dsimp only
  split
  · exact txnFinish_holds ..
  · rw [nextLctr_eq]
    by_cases spent : 2 ^ 24 - 1 ≤ counterBase s x.item.slot x.item.h.addr.toNat
        (genForWrite s x.item.slot x.item.h.addr.toNat (some e)) e
    · rw [if_pos spent]
      exact (spentNote_holds ..).trans (txnFinish_holds ..)
    · rw [if_neg spent]
      exact (counterTaken_holds _ _ s small).trans (writeSlice_holds ..)

theorem jackFill_holds {k a : Nat} (sc : Side) (s : State) (small : a < 2 ^ 40) (good : s.rep.badRows = []) :
    JackHolds a s (jackFill k a sc s) where
  entry _ := jackFill_fills small good
  probes := jackFill_probes ..
  reads n := congrArg Media.outR (mediaOf_congr (by rw [jackFill_frame]) n)
  frame := by
    rw [jackFill_frame]
    exact ⟨rfl, rfl⟩

-- The end of a probe

/-- One waiting write takes up the entry of its line, or that of the sidecar (R106). -/
def probeServe (a : Nat) (sc : Side) (s : State) (t : Txn) : State :=
  match jackEntry s a with
  | some (_, e) => writeGo t e {} s
  | none => probeRelease sc {} s t

theorem probeServe_holds {a : Nat} {sc : Side} {s : State} {t : Txn} (line : itemLine t.item = a) (small : a < 2 ^ 40)
    (some : (jackEntry s a).isSome = true) : JackHolds a s (probeServe a sc s t) := by
  subst line
  unfold probeServe
  split
  · exact writeGo_holds t _ s small
  · next none =>
    rw [none] at some
    cases some

theorem foldl_probeServe_holds {a : Nat} {sc : Side} (small : a < 2 ^ 40) {l : List Txn} (lines : ∀ t ∈ l, itemLine t.item = a)
    (s : State) (some : (jackEntry s a).isSome = true) : JackHolds a s (l.foldl (probeServe a sc) s) := by
  induction l generalizing s with
  | nil => exact .refl a s
  | cons t l ih =>
    rw [List.foldl_cons]
    have served := probeServe_holds (sc := sc) (lines t List.mem_cons_self) small some
    exact served.trans (ih (fun u here => lines u (List.mem_cons_of_mem t here)) _ (served.entry some))

theorem probeWaiters_line {s : State} {a : Nat} {t : Txn} (here : t ∈ probeWaiters s a) : itemLine t.item = a := by
  have waits := (List.mem_filter.1 here).2
  simp only [Bool.and_eq_true, beq_iff_eq] at waits
  exact waits.2

/-- A probe's sidecar fills Jack and ends the probe (R105 to R107). -/
theorem probeGot_fills {m a : Nat} {sc : Side} {p : Probe} {s : State} (out : probeOut s m a = some p) (own : p.kidx ≠ 0)
    (small : a < 2 ^ 40) (good : s.rep.badRows = []) :
    (jackEntry (probeGot m a sc {} s) a).isSome = true ∧
    (probeGot m a sc {} s).jack.probes = (probeDel m a false s).jack.probes ∧
    ∀ n, (mediaOf (probeGot m a sc {} s) n).outR = (mediaOf s n).outR := by
  have runs : probeGot m a sc {} s =
      (probeWaiters s a).foldl (probeServe a sc) (jackFill p.kidx a sc (probeDel m a false s)) := by
    unfold probeGot
    rw [out]
    dsimp only
    rw [if_neg own]
    rfl
  have filled : JackHolds a (probeDel m a false s) (jackFill p.kidx a sc (probeDel m a false s)) := jackFill_holds sc _ small good
  have entry : (jackEntry (jackFill p.kidx a sc (probeDel m a false s)) a).isSome = true := jackFill_fills small good
  have served := foldl_probeServe_holds (sc := sc) small (fun t here => probeWaiters_line (s := s) (a := a) here)
    (jackFill p.kidx a sc (probeDel m a false s)) entry
  have whole := filled.trans served
  rw [runs]
  exact ⟨served.entry entry, whole.probes, fun n => whole.reads n⟩

theorem sidecarArrival_fills {m : Fin 16} {id : BitVec 11} {line : BitVec 576} {o : MOp} {p : Probe} {s : State}
    (out : tabFind (mediaOf s m).outR id.toNat = some o) (kind : o.kind = .sidecar) (owner : o.owner = .probe)
    (inTime : o.timedOut = false) (probe : probeOut s m o.addr = some p) (own : p.kidx ≠ 0) (small : o.addr < 2 ^ 40)
    (good : s.rep.badRows = []) : ∃ t, exec (.sidecarArrival m id 0 line (linePar line) {}) s = .next t ∧
      (jackEntry t o.addr).isSome = true ∧
      probesOf t m = (probesOf s m).eraseP (fun q => q.addr == o.addr && q.issued && (q.void == false)) ∧
      tabFind (mediaOf t m).outR id.toNat = none := by
  have resp : respKind o = 1 := by
    unfold respKind
    rw [kind]
    rfl
  have runs : exec (.sidecarArrival m id 0 line (linePar line) {}) s =
      .next (drainPoll (doSidecarArrival m id.toNat 0 line (linePar line) {} s)) := rfl
  have does : doSidecarArrival m id.toNat 0 line (linePar line) {} s =
      probeGot m o.addr (lnSide line) {} (readBack m id.toNat s) := by
    unfold doSidecarArrival
    rw [beq_self_eq_true, response_got out resp inTime, owner]
  obtain ⟨entry, probes, reads⟩ := probeGot_fills (sc := lnSide line) (s := readBack m id.toNat s) probe own small good
  rw [does] at runs
  generalize probeGot m o.addr (lnSide line) {} (readBack m id.toNat s) = u at runs entry probes reads
  refine ⟨_, runs, ?_, ?_, ?_⟩
  · rw [jackEntry_congr (s := u) (by rw [drainPoll_frame]) (by rw [drainPoll_frame])]
    exact entry
  · have same : probesOf (drainPoll u) m = probesOf (probeDel m o.addr false (readBack m id.toNat s)) m := by
      unfold probesOf
      rw [drainPoll_frame, ← probes]
    rw [same]
    unfold probeDel
    rw [probesOf_probesPut, if_pos rfl]
    rfl
  · rw [mediaOf_congr (s := u) (by rw [drainPoll_frame]), reads, readBack_out]

end Sys2Proof.Machine

namespace Sys2Proof
open Sys2Proof.Machine

/-- Settles O44: how a probe, a fetch and a read that times out end. -/
theorem probesFetchesAndTimeoutsEnd : Obligations.ProbesFetchesAndTimeoutsEnd := by
  unfold Obligations.ProbesFetchesAndTimeoutsEnd
  refine ⟨fun m id line o p s out kind owner inTime probe own _ small good => ?_,
    fun m id line o tl k x s out kind own inTime asked found => ?_,
    fun m id o k x s out inTime own found reads keyed here answers => ?_⟩
  · obtain ⟨t, runs, entry, probes, back⟩ := sidecarArrival_fills (line := line) out kind owner inTime probe own small good
    obtain ⟨nv, clk⟩ := exec_nv_clk runs rfl
    exact ⟨t, runs, entry, probes, back, nv, clk⟩
  · obtain ⟨t, runs, way, fetches⟩ := taglineArrival_completes (line := line) out kind own inTime asked found
    obtain ⟨nv, clk⟩ := exec_nv_clk runs rfl
    exact ⟨t, runs, way, fetches, nv, clk⟩
  · obtain ⟨t, runs, taken, ended, told⟩ := readTimeout_answers out inTime own found reads keyed here answers
    exact ⟨t, runs, taken, ended, _, told, rfl, rfl, rfl⟩

end Sys2Proof

/-! SUPPORT. What a media port that stops serving keeps (R262, Table 12.3). -/

namespace Sys2Proof.Machine

/-- The pins, and of every media port its FIFOs, whether it is FAILED, and the writes that are out. -/
def State.ported (s : State) : Pins × (Nat → List MOp × List MOp × Bool × Tab MOp) :=
  (s.pins, fun n => ((mediaOf s n).fifoW, (mediaOf s n).fifoR, (mediaOf s n).failed, (mediaOf s n).outW))

theorem ported_congr {s t : State} (pins : t.pins = s.pins) (media : t.media = s.media) : t.ported = s.ported := by
  have same : ∀ n, mediaOf t n = mediaOf s n := fun n => mediaOf_congr media n
  unfold State.ported
  simp only [pins, same]

theorem mediaMod_ported {m : Nat} {f : Media → Media} {s : State}
    (same : ∀ x, (f x).fifoW = x.fifoW ∧ (f x).fifoR = x.fifoR ∧ (f x).failed = x.failed ∧ (f x).outW = x.outW) :
    (mediaMod m f s).ported = s.ported := by
  refine Prod.ext rfl (funext fun n => ?_)
  obtain ⟨w, r, failed, out⟩ := same (mediaOf s m)
  show (_, _, _, _) = (_, _, _, _)
  rw [mediaOf_mediaMod]
  split
  · next here => rw [here, w, r, failed, out]
  · rfl

theorem txnFinish_ported (x : Txn) (status : Nat) (s : State) : (txnFinish x status s).ported = s.ported :=
  ported_congr (by rw [txnFinish_frame]) (by rw [txnFinish_frame])

theorem readReply_ported (x : Txn) (status : Nat) (data : Option Line) (psn : Bool) (extra : Side) (s : State) :
    (readReply x status data psn extra s).ported = s.ported :=
  ported_congr (by rw [readReply_frame]) (by rw [readReply_frame])

theorem partialRefuse_ported (x : Txn) (status : Nat) (s : State) : (partialRefuse x status s).ported = s.ported :=
  txnFinish_ported ..

theorem rkPoll_ported (s : State) : (rkPoll s).ported = s.ported := ported_congr (by rw [rkPoll_frame]) (by rw [rkPoll_frame])

theorem raise_ported (e : Ev) (src a b c : Nat) (s : State) : (raise e src a b c s).ported = s.ported :=
  ported_congr (by rw [raise_frame]) (by rw [raise_frame])

-- Steps

theorem lineFault_ported (n a status row : Nat) (s : State) : (lineFault n a status row s).ported = s.ported := by
  unfold lineFault
  rw [raise_ported]
  split <;> rfl

theorem stepFail_ported (n a status row : Nat) (s : State) : (stepFail n a status row s).ported = s.ported :=
  (rkPoll_ported _).trans (lineFault_ported ..)

theorem stepSkip_ported (n a : Nat) (s : State) : (stepSkip n a s).ported = s.ported := rkPoll_ported _

theorem stepsLost_ported (m : Nat) (s : State) : (stepsLost m s).ported = s.ported := by
  unfold stepsLost
  refine foldl_keeps State.ported _ (fun t n => ?_) _ s
  dsimp only
  rw [foldl_keeps State.ported _ fun u a => stepFail_ported ..]
  exact foldl_keeps State.ported _ (fun u a => stepFail_ported ..) _ t

-- Reads and fetches that end

theorem deliverNone_ported (o : MOwner) (row status : Nat) (s : State) : (deliverNone o row status s).ported = s.ported := by
  unfold deliverNone
  split
  · split
    · rfl
    · split
      · exact partialRefuse_ported ..
      · exact readReply_ported ..
  · split
    · exact stepSkip_ported ..
    · exact stepFail_ported ..
  · rfl

theorem lostForget_ported (o : MOwner) (s : State) : (lostForget o s).ported = s.ported :=
  ported_congr (by rw [lostForget_frame]) (by rw [lostForget_frame])

theorem lineLost_ported (o : MOwner) (s : State) : (lineLost o s).ported = s.ported := by
  unfold lineLost
  split
  · rw [lostForget_ported]
    split
    · rfl
    · exact deliverNone_ported ..
  · rw [lostForget_ported]
    exact deliverNone_ported ..

theorem taglineMedia_ported (tl w : Nat) (s : State) : (taglineMedia tl w s).ported = s.ported :=
  ported_congr (by rw [taglineMedia_frame]) (by rw [taglineMedia_frame])

theorem tagFetchLost_ported (h : Hold) (s : State) : (tagFetchLost h s).ported = s.ported := by
  unfold tagFetchLost
  split
  · exact lineFault_ported ..
  · exact deliverNone_ported ..

theorem fetchLostOwner_ported (tl : Nat) (s : State) (o : MOwner) : (fetchLostOwner tl s o).ported = s.ported := by
  unfold fetchLostOwner
  split
  · exact tagFetchLost_ported ..
  · split
    · split
      · rfl
      · split
        · exact readReply_ported ..
        · rfl
    · split <;> rfl
    · rfl

theorem wbFetches_ported (s : State) : (wbFetches s).ported = s.ported :=
  ported_congr (by rw [wbFetches_frame]) (by rw [wbFetches_frame])

/-- What a failed fetch notes of its line before its owners learn of it (R90). -/
def fetchFailNoted (f : TagFetch) (tl : Nat) (s : State) : State :=
  match tagFind s tl with
  | none => taglineMedia tl 0 s
  | some (k, x) =>
    if f.forWb ∧ x.failedFetch then
      taglineMedia tl 1 (wayPut k { x with data := tagZeroFill x, valid := 0xFF#8, failedFetch := false, quietAt := now s } s)
    else taglineMedia tl 0 (wayPut k { x with failedFetch := true } s)

theorem fetchFailNoted_ported (f : TagFetch) (tl : Nat) (s : State) : (fetchFailNoted f tl s).ported = s.ported := by
  unfold fetchFailNoted
  split
  · exact taglineMedia_ported ..
  · split
    · exact taglineMedia_ported ..
    · exact taglineMedia_ported ..

theorem tagFetchFail_ported (tl : Nat) (s : State) : (tagFetchFail tl s).ported = s.ported := by
  unfold tagFetchFail
  split
  · rfl
  · next f _ =>
    dsimp only
    change State.ported (if (f.owners.foldl (fetchLostOwner tl) (fetchFailNoted f tl _)).pwr.phase = .draining
      then wbFetches (f.owners.foldl (fetchLostOwner tl) (fetchFailNoted f tl _))
      else f.owners.foldl (fetchLostOwner tl) (fetchFailNoted f tl _)) = _
    have owners : (f.owners.foldl (fetchLostOwner tl) (fetchFailNoted f tl { s with tagc := { s.tagc with
        fetches := s.tagc.fetches.filter (fun g => g.tl != tl) } })).ported = s.ported :=
      (foldl_keeps State.ported _ (fetchLostOwner_ported tl) _ _).trans (fetchFailNoted_ported ..)
    split
    · exact (wbFetches_ported _).trans owners
    · exact owners

theorem probeFail_ported (m a : Nat) (s : State) : (probeFail m a s).ported = s.ported := by
  unfold probeFail
  split
  · rfl
  · dsimp only
    split
    · rw [raise_ported]
      exact foldl_keeps State.ported _ (fun u t => txnFinish_ported ..) _ _
    · rfl

theorem readEnd_ported (m : Nat) (s : State) (o : MOp) : (readEnd m s o).ported = s.ported := by
  unfold readEnd
  split
  · exact tagFetchFail_ported ..
  · exact probeFail_ported ..
  · split <;> rfl
  · exact lineLost_ported ..

end Sys2Proof.Machine

/-! SUPPORT and OBLIGATION. Ports that fail and stall (R254, R259, R261, R262). -/

namespace Sys2Proof.Machine

theorem writeLost_ported (m : Nat) (s : State) (o : MOp) : (writeLost m s o).ported = s.ported := by
  unfold writeLost
  split
  · split
    · rfl
    · exact txnFinish_ported ..
  · exact stepFail_ported ..
  · split
    · split <;> rfl
    · rfl
  · split
    · exact mediaMod_ported fun x => ⟨rfl, rfl, rfl, rfl⟩
    · rfl
  · exact mediaMod_ported fun x => ⟨rfl, rfl, rfl, rfl⟩
  · rfl

/-- A held write of a port that serves nothing ends (Table 12.3). -/
def heldLost (s : State) (h : Hold) : State :=
  match h.owner with
  | .txn id =>
    match txnFind s id with
    | some t => txnFinish t stMediaError (holdDel h s)
    | none => holdDel h s
  | .step n a => stepFail n a stMediaError 1 (holdDel h s)
  | _ => holdDel h s

theorem heldLost_ported (s : State) (h : Hold) : (heldLost s h).ported = s.ported := by
  unfold heldLost
  split
  · split
    · exact txnFinish_ported ..
    · rfl
  · exact stepFail_ported ..
  · rfl

/-- A partial write whose read half is held ends with its port. -/
def readHalfLost (s : State) (t : Txn) : State := partialRefuse t stMediaError
  { s with rep := { s.rep with holds := s.rep.holds.filter (fun h => h.owner != .txn t.id) } }

theorem grantLost_ported (m : Nat) (s : State) : (grantLost m s).ported = s.ported := by
  unfold grantLost
  exact (foldl_keeps State.ported readHalfLost (fun _ _ => partialRefuse_ported ..) _ _).trans
    ((foldl_keeps State.ported (fun u t => txnFinish t stMediaError u) (fun _ _ => txnFinish_ported ..) _ _).trans
      (foldl_keeps State.ported heldLost heldLost_ported _ s))

theorem itemOut_ported (i : Item) (status : Nat) (s : State) : (itemOut i status s).ported = s.ported := by
  refine ported_congr ?_ ?_ <;>
  · unfold itemOut
    rw [completeBare_frame]
    split <;> rfl

theorem drainPoll_ported (s : State) : (drainPoll s).ported = s.ported :=
  ported_congr (by rw [drainPoll_frame]) (by rw [drainPoll_frame])

/-- The FIFOs of a port that serves nothing are emptied, and its reads stay out (Table 12.3). -/
def portCleared (m : Nat) (s : State) : State :=
  mediaPut m { mediaOf s m with fifoW := [], fifoR := [], outR := (mediaOf s m).outR.map readLate } s

/-- A read of a port that serves nothing ends, unless its command has ended already. -/
def readOutLost (m : Nat) (s : State) (e : Nat × MOp) : State := if e.2.timedOut then s else readEnd m s e.2

theorem readOutLost_ported (m : Nat) (s : State) (e : Nat × MOp) : (readOutLost m s e).ported = s.ported := by
  unfold readOutLost
  split
  · rfl
  · exact readEnd_ported ..

/-- A probe that waits on a port that serves nothing ends. -/
def probeLost (m : Nat) (s : State) (p : Probe) : State := probeFail m p.addr
  (probesPut m ((probesOf s m).map (fun q => if q = p then { q with issued := true } else q)) s)

/-- An item of a port that serves nothing is answered. -/
def itemLost (s : State) (i : Item) : State := itemOut i stMediaError (itemDel i s)

theorem itemLost_ported (s : State) (i : Item) : (itemLost s i).ported = s.ported := by
  unfold itemLost
  rw [itemOut_ported, itemDel_frame]
  rfl

theorem portEmpty_ported (m : Nat) (s : State) : (portEmpty m s).ported = (portCleared m s).ported := by
  unfold portEmpty
  refine (foldl_keeps State.ported itemLost itemLost_ported _ _).trans ((stepsLost_ported ..).trans
    ((grantLost_ported ..).trans ((foldl_keeps State.ported (probeLost m) (fun _ _ => probeFail_ported ..) _ _).trans
      ((foldl_keeps State.ported (fun u (f : TagFetch) => tagFetchFail f.tl u) (fun _ _ => tagFetchFail_ported ..) _ _).trans
        ((foldl_keeps State.ported (readEnd m) (readEnd_ported m) _ _).trans
          ((foldl_keeps State.ported (readOutLost m) (readOutLost_ported m) _ _).trans
            (foldl_keeps State.ported (writeLost m) (writeLost_ported m) _ _)))))))

/-- A port that fails serves nothing, and the system is told (R262, Table 12.3). -/
theorem portFail_ported {m cause : Nat} {s : State} (served : (mediaOf s m).failed = false) :
    (portFail m cause s).ported = ({ s.pins with faultLow := true }, fun n =>
      if n = m then ([], [], true, (mediaOf s m).outW)
      else ((mediaOf s n).fifoW, (mediaOf s n).fifoR, (mediaOf s n).failed, (mediaOf s n).outW)) := by
  have media : ∀ t : State, t.media = (mediaMod m (fun x => { x with failed := true }) s).media → ∀ n,
      mediaOf t n = if n = m then { mediaOf s m with failed := true } else mediaOf s n := fun t same n => by
    rw [mediaOf_congr same, mediaOf_mediaMod]
  unfold portFail
  rw [if_neg (by rw [served]; decide)]
  dsimp only
  rw [rkPoll_ported, portEmpty_ported]
  generalize raised : raise .mpFailed (srcMedia m 1) cause _ 0 _ = t
  have frame : t.pins = { s.pins with faultLow := true } ∧
      t.media = (mediaMod m (fun x => { x with failed := true }) s).media := by
    rw [← raised, raise_frame]
    exact ⟨rfl, rfl⟩
  have port := media t frame.2
  unfold State.ported portCleared
  refine Prod.ext frame.1 (funext fun n => ?_)
  dsimp only
  rw [mediaOf_mediaPut, port, port, if_pos rfl]
  split
  · rfl
  · rfl

/-- What a port's failure leaves of it. -/
structure PortFailed (m : Nat) (s t : State) : Prop where
  failed : (mediaOf t m).failed = true
  writes : (mediaOf t m).fifoW = []
  reads : (mediaOf t m).fifoR = []
  out : (mediaOf t m).outW = (mediaOf s m).outW
  pins : t.pins = { s.pins with faultLow := true }

theorem portFail_fails {m cause : Nat} {s t : State} (served : (mediaOf s m).failed = false)
    (same : t.ported = (portFail m cause s).ported) : PortFailed m s t := by
  have whole := same.trans (portFail_ported (cause := cause) served)
  have port := congrFun (Prod.ext_iff.1 whole).2 m
  dsimp only at port
  rw [if_pos rfl] at port
  obtain ⟨w, rest⟩ := Prod.ext_iff.1 port
  obtain ⟨r, rest⟩ := Prod.ext_iff.1 rest
  obtain ⟨f, out⟩ := Prod.ext_iff.1 rest
  exact ⟨f, w, r, out, (Prod.ext_iff.1 whole).1⟩

-- Transfer errors and timeouts

/-- A transfer error's presentation is counted and noted (R254). -/
def xferAgain (m : Nat) (o : MOp) (rest : List MOp) (s : State) : State :=
  xferNote m 0 o (o.tries + 1) (mediaPut m { mediaOf s m with fifoW := { o with tries := o.tries + 1 } :: rest } s)

theorem xferAgain_frame (m : Nat) (o : MOp) (rest : List MOp) (s : State) : xferAgain m o rest s = { s with
    media := (mediaPut m { mediaOf s m with fifoW := { o with tries := o.tries + 1 } :: rest } s).media
    regs := (xferAgain m o rest s).regs, ev := (xferAgain m o rest s).ev } := by
  unfold xferAgain xferNote
  rw [raise_frame]
  rfl

theorem mediaOf_xferAgain (m : Nat) (o : MOp) (rest : List MOp) (s : State) :
    mediaOf (xferAgain m o rest s) m = { mediaOf s m with fifoW := { o with tries := o.tries + 1 } :: rest } := by
  rw [mediaOf_congr (s := mediaPut m { mediaOf s m with fifoW := { o with tries := o.tries + 1 } :: rest } s)
    (by rw [xferAgain_frame]), mediaOf_mediaPut, if_pos rfl]

theorem transferError_runs {m : Fin 16} {o : MOp} {rest : List MOp} {s : State} (head : (mediaOf s m).fifoW = o :: rest)
    (served : (mediaOf s m).failed = false) (goes : writeMayGo (mediaOf s m) o = true) : exec (.transferError m) s = .next
      (if cfgVal s 0x20B0 3 0 ≤ o.tries + 1 then drainPoll (portFail m 0 (xferAgain m o rest s)) else xferAgain m o rest s) := by
  have cfg : cfgVal (xferAgain m o rest s) 0x20B0 3 0 = cfgVal s 0x20B0 3 0 := by
    unfold cfgVal
    rw [xferAgain_frame]
  refine congrArg Host.Outcome.next ?_
  unfold doTransferError
  dsimp only
  rw [head]
  dsimp only
  rw [if_neg (by rw [served, goes]; decide), ← cfg]
  rfl

/-- A persist timeout is counted and noted, and its write stays out (R261). -/
def persistLate (m id : Nat) (o : MOp) (s : State) : State :=
  raise .mpTimeout (srcMedia m 0) 1 id (o.addr % 2 ^ 32) (count1 (mpStat m) 7 0
    (mediaPut m { mediaOf s m with outW := tabSet (mediaOf s m).outW id { o with timedOut := true } } s))

theorem mediaOf_persistLate (m id : Nat) (o : MOp) (s : State) : mediaOf (persistLate m id o s) m =
    { mediaOf s m with outW := tabSet (mediaOf s m).outW id { o with timedOut := true } } := by
  have media : (persistLate m id o s).media =
      (mediaPut m { mediaOf s m with outW := tabSet (mediaOf s m).outW id { o with timedOut := true } } s).media := by
    unfold persistLate
    rw [raise_frame]
    rfl
  rw [mediaOf_congr media, mediaOf_mediaPut, if_pos rfl]

theorem persistTimeout_runs {m : Fin 16} {id : BitVec 12} {o : MOp} {s : State}
    (out : tabFind (mediaOf s m).outW id.toNat = some o) (inTime : o.timedOut = false) :
    exec (.persistTimeout m id) s = .next (drainPoll (portFail m 1 (persistLate m id.toNat o s))) := by
  refine congrArg Host.Outcome.next (congrArg drainPoll ?_)
  unfold doPersistTimeout
  dsimp only
  rw [out]
  dsimp only
  rw [if_neg (by rw [inTime]; decide)]
  rfl

end Sys2Proof.Machine

namespace Sys2Proof
open Sys2Proof.Machine

/-- Settles O42: transfer errors, persist timeouts and stalls. -/
theorem portsFailAndStall : Obligations.PortsFailAndStall := by
  unfold Obligations.PortsFailAndStall
  refine ⟨fun m o rest s head served goes => ⟨fun more => ?_, fun spent => ?_⟩,
    fun m id o s out inTime served => ?_, fun m d n s limit served => ?_⟩
  · have runs := transferError_runs head served goes
    rw [if_neg (Nat.not_le.2 more)] at runs
    refine ⟨_, runs, by rw [mediaOf_xferAgain], by rw [mediaOf_xferAgain]; exact served, ?_⟩
    generalize kept : xferAgain m o rest s = t
    rw [← kept, xferAgain_frame]
  · have runs := transferError_runs head served goes
    rw [if_pos spent] at runs
    have fails := portFail_fails (by rw [mediaOf_xferAgain]; exact served) (drainPoll_ported (portFail m 0 (xferAgain m o rest s)))
    exact ⟨_, runs, fails.failed, fails.writes, fails.reads, by rw [fails.pins], (exec_nv_clk runs rfl).1⟩
  · have runs := persistTimeout_runs out inTime
    have fails := portFail_fails (by rw [mediaOf_persistLate]; exact served)
      (drainPoll_ported (portFail m 1 (persistLate m id.toNat o s)))
    refine ⟨_, runs, fails.failed, fails.writes, fails.reads, by rw [fails.pins], ?_, (exec_nv_clk runs rfl).1⟩
    rw [fails.out, mediaOf_persistLate]
    dsimp only
    rw [tabFind_tabSet, if_pos rfl]
  · refine congrArg Host.Outcome.next ?_
    unfold doMpStall
    rw [if_pos ⟨limit, served⟩]
    cases d <;> rfl

end Sys2Proof

/-! SUPPORT and OBLIGATION. Writes that are handshaken, ACCEPTED and PERSISTED (R253, R255 to R257). -/

namespace Sys2Proof.Machine

-- Handshakes

theorem handshakeW_runs {m : Fin 16} {id : BitVec 12} {o : MOp} {rest : List MOp} {s : State}
    (served : (mediaOf s m).failed = false) (head : (mediaOf s m).fifoW = o :: rest)
    (goes : writeMayGo (mediaOf s m) o = true) (free : tabFind (mediaOf s m).outW id.toNat = none) :
    ∃ t, exec (.mediaHandshake m .w id) s = .next t ∧ t.media = (mediaPut m { mediaOf s m with
      fifoW := rest, outW := tabSet (mediaOf s m).outW id.toNat { o with tries := 0 }
      accWait := (mediaOf s m).accWait ++ [id.toNat] } s).media ∧ t = { s with media := t.media, regs := t.regs } := by
  refine ⟨handshakeW m id.toNat s, rfl, ?_⟩
  unfold handshakeW
  dsimp only
  rw [head]
  dsimp only
  rw [if_neg (by rw [served, goes, free]; decide)]
  split
  · exact ⟨rfl, rfl⟩
  · exact ⟨rfl, rfl⟩

theorem handshakeR_runs {m : Fin 16} {id : BitVec 12} {o : MOp} {rest : List MOp} {s : State}
    (served : (mediaOf s m).failed = false) (head : (mediaOf s m).fifoR = o :: rest)
    (goes : readMayGo (mediaOf s m) (now s) o = true) (low : id.toNat < 2048)
    (free : tabFind (mediaOf s m).outR id.toNat = none) :
    ∃ t, exec (.mediaHandshake m .r id) s = .next t ∧ t.media = (mediaPut m { mediaOf s m with
      fifoR := rest, outR := tabSet (mediaOf s m).outR id.toNat o } s).media ∧ t = { s with media := t.media, regs := t.regs } := by
  refine ⟨handshakeR m id.toNat s, rfl, ?_⟩
  have given : ¬ ((mediaOf s m).failed = true ∨ readMayGo (mediaOf s m) (now s) o = false ∨ 2048 ≤ id.toNat ∨
      (tabFind (mediaOf s m).outR id.toNat).isSome = true) := by
    rw [served, goes, free]
    simp only [Bool.false_eq_true, Bool.true_eq_false, Option.isSome_none, false_or, or_false]
    omega
  unfold handshakeR
  dsimp only
  rw [head]
  dsimp only
  rw [if_neg given]
  exact ⟨rfl, rfl⟩

/-- One port put is the only one that changes. -/
theorem mediaOf_put_others {m : Nat} {x : Media} {s t : State} (media : t.media = (mediaPut m x s).media) :
    mediaOf t m = x ∧ ∀ n, n ≠ m → mediaOf t n = mediaOf s n := by
  refine ⟨?_, fun n other => ?_⟩
  · rw [mediaOf_congr media, mediaOf_mediaPut, if_pos rfl]
  · rw [mediaOf_congr media, mediaOf_mediaPut, if_neg other]

-- ACCEPTED

theorem accepted_runs {m : Fin 16} {id : Nat} {rest : List Nat} {o : MOp} {s : State}
    (waits : (mediaOf s m).accWait = id :: rest) (out : tabFind (mediaOf s m).outW id = some o) :
    exec (.accepted m) s = .next (drainPoll (mediaPut m { mediaOf s m with
      accWait := rest, outW := tabSet (mediaOf s m).outW id { o with accepted := true }
      lastAcc := if o.kind = .write then some (now s, o.addr) else (mediaOf s m).lastAcc } s)) := by
  refine congrArg Host.Outcome.next (congrArg drainPoll ?_)
  unfold doAccepted
  dsimp only
  rw [waits]
  dsimp only
  rw [out]

-- PERSISTED

theorem aheadPersisted_frame (o : MOp) (s : State) : aheadPersisted o s = { s with rk := (aheadPersisted o s).rk } := by
  unfold aheadPersisted
  split
  · split
    · rfl
    · dsimp only
      split <;> rfl
  · rfl

theorem tagPaid_frame (tl seq : Nat) (s : State) : tagPaid tl seq s = { s with rk := (tagPaid tl seq s).rk } := by
  unfold tagPaid
  generalize List.range 64 = l
  induction l generalizing s with
  | nil => rfl
  | cons n l ih =>
    rw [List.foldl_cons, ih]
    dsimp only
    split <;> rfl

theorem rawPaid_frame (x : Txn) (o : MOp) (s : State) : rawPaid x o s = { s with rk := (rawPaid x o s).rk } := by
  unfold rawPaid
  split
  · exact tagPaid_frame ..
  · rfl

theorem wayEvict_frame (tl : Nat) (s : State) : wayEvict tl s = { s with tagc := (wayEvict tl s).tagc } := by
  unfold wayEvict
  split
  · rfl
  · split <;> rfl

theorem tagMakeRoom_frame (s : State) :
    tagMakeRoom s = { s with tagc := (tagMakeRoom s).tagc, regs := (tagMakeRoom s).regs } := by
  have evicted : ∀ l : List Nat, l.foldl (fun s tl => wayEvict tl s) s =
      { s with tagc := (l.foldl (fun s tl => wayEvict tl s) s).tagc } := fun l => by
    induction l generalizing s with
    | nil => rfl
    | cons tl l ih =>
      rw [List.foldl_cons, ih, wayEvict_frame]
  unfold tagMakeRoom
  rw [wbFetches_frame, evicted]

/-- What PERSISTED does before its owner ends: the operation is no longer out (R150, R255). -/
def writeBack (m id : Nat) (o : MOp) (s : State) : State :=
  let s := tagPersisted o.seq (aheadPersisted o (mediaPut m { mediaOf s m with outW := tabDel (mediaOf s m).outW id } s))
  if s.pwr.phase = .draining then drainCount o s else s

theorem writeBack_frame (m id : Nat) (o : MOp) (s : State) : writeBack m id o s = { s with
    media := (mediaPut m { mediaOf s m with outW := tabDel (mediaOf s m).outW id } s).media
    rk := (writeBack m id o s).rk, tagc := (writeBack m id o s).tagc, pwr := (writeBack m id o s).pwr } := by
  unfold writeBack
  dsimp only
  generalize moved : aheadPersisted o (mediaPut m { mediaOf s m with outW := tabDel (mediaOf s m).outW id } s) = u
  have frame : u = { s with media := (mediaPut m { mediaOf s m with outW := tabDel (mediaOf s m).outW id } s).media, rk := u.rk } := by
    rw [← moved, aheadPersisted_frame]
    rfl
  split
  · unfold drainCount
    split
    · rw [frame]
      rfl
    · rw [frame]
      rfl
    · rw [frame]
      rfl
  · rw [frame]
    rfl

theorem txnFinish_replied {x : Txn} {status : Nat} {s : State} (here : x.item.gone = false) (sound : eqSound s x.item.src) :
    Replied x.id x.item.src (answer x.item status none false 0) (txnFinish x status s) where
  ended := by
    have pool := completeBare_answered (it := x.item) (status := status) (cells := x.cells)
      (s := tagUnreserve (.txn x.id) (txnDel x.id s)) fun _ => sound
    unfold txnFinish txnFind
    rw [pool.txns]
    exact txnFind_txnDel x.id s
  told := mem_completeBare (s := tagUnreserve (.txn x.id) (txnDel x.id s)) here sound

/-- A write that is done is counted where it was a partial one (R17). -/
def doneCounted (x : Txn) (s : State) : State :=
  if x.item.op = .writePartial ∧ partialPlain x.item = false then count1 0x6000 3 0 (count1 0x6080 1 0 s) else s

theorem doneCounted_frame (x : Txn) (s : State) : doneCounted x s = { s with regs := (doneCounted x s).regs } := by
  unfold doneCounted
  split <;> rfl

/-- What ends a PERSISTED: the polls, and room in the tag cache (R83). -/
def persistPolled (s : State) : State := drainPoll (tagMakeRoom (rkPoll s))

theorem persistPolled_frame (s : State) : persistPolled s = { s with
    tagc := (persistPolled s).tagc, nvu := (persistPolled s).nvu, regs := (persistPolled s).regs, ev := (persistPolled s).ev
    rk := (persistPolled s).rk, pwr := (persistPolled s).pwr } := by
  unfold persistPolled
  rw [drainPoll_frame, tagMakeRoom_frame, rkPoll_frame]

section
variable {m : Fin 16} {id : BitVec 12} {s : State}

theorem persisted_runs {o : MOp} (out : tabFind (mediaOf s m).outW id.toNat = some o) (accepted : o.accepted = true)
    (alive : portDead (persistedFor m o (writeBack m id.toNat o s)) m = false) :
    exec (.persisted m id) s = .next (persistPolled (persistedFor m o (writeBack m id.toNat o s))) := by
  refine congrArg (fun t => Host.Outcome.next (drainPoll (tagMakeRoom t))) ?_
  unfold doPersisted
  dsimp only
  rw [out]
  dsimp only
  rw [if_neg (by rw [accepted]; decide)]
  exact congrArg rkPoll (if_neg fun dead => Bool.false_ne_true (alive.symm.trans dead))

/-- A write that PERSISTED reports answers its request (R255). -/
theorem persisted_answers {o : MOp} {k : Nat} {x : Txn} (out : tabFind (mediaOf s m).outW id.toNat = some o)
    (accepted : o.accepted = true) (own : o.owner = .txn k) (found : txnFind s k = some x) (here : x.item.gone = false)
    (alive : portDead s m = false) (answers : eqSound s x.item.src) : ∃ t, exec (.persisted m id) s = .next t ∧
      tabFind (mediaOf t m).outW id.toNat = none ∧
      Replied k x.item.src (answer x.item (if x.rawPoison then stOkPoison else stOk) none false 0) t ∧ t.keys = s.keys := by
  have runs := persisted_runs out accepted
  have back := writeBack_frame m id.toNat o s
  generalize writeBack m id.toNat o s = u at runs back
  have there : txnFind u k = some x := by
    rw [back]
    exact found
  have does : persistedFor m o u = txnFinish x (if x.rawPoison then stOkPoison else stOk) (doneCounted x (rawPaid x o u)) := by
    unfold persistedFor
    rw [own]
    dsimp only
    rw [there]
    rfl
  rw [does] at runs
  have counted : doneCounted x (rawPaid x o u) = { u with rk := (rawPaid x o u).rk, regs := (doneCounted x (rawPaid x o u)).regs } := by
    rw [doneCounted_frame, rawPaid_frame]
  generalize doneCounted x (rawPaid x o u) = v at runs counted
  have replied := txnFinish_replied (x := x) (status := if x.rawPoison then stOkPoison else stOk) (s := v) here fun p link => by
    rw [counted, back]
    exact answers p link
  rw [txnFind_id found] at replied
  have frame := txnFinish_frame x (if x.rawPoison then stOkPoison else stOk) v
  generalize txnFinish x (if x.rawPoison then stOkPoison else stOk) v = w at runs replied frame
  have port : mediaOf w m = { mediaOf s m with outW := tabDel (mediaOf s m).outW id.toNat } := by
    rw [mediaOf_congr (s := mediaPut m { mediaOf s m with outW := tabDel (mediaOf s m).outW id.toNat } s)
      (by rw [frame, counted, back]), mediaOf_mediaPut, if_pos rfl]
  refine ⟨_, runs (by unfold portDead; rw [port]; exact alive), ?_, replied.congr (by rw [persistPolled_frame]), ?_⟩
  · rw [mediaOf_congr (s := w) (by rw [persistPolled_frame]), port]
    dsimp only
    rw [tabFind_tabDel, if_pos rfl]
  · rw [persistPolled_frame, frame, counted, back]

/-- A PERSISTED that no write waits for is a protocol error (R256, R262). -/
theorem persisted_fails (none : tabFind (mediaOf s m).outW id.toNat = none) (served : (mediaOf s m).failed = false) :
    ∃ t, exec (.persisted m id) s = .next t ∧ PortFailed m s t := by
  have does : doPersisted m id.toNat s = portFail m 2 s := by
    unfold doPersisted
    dsimp only
    rw [none]
  refine ⟨_, congrArg (fun t => Host.Outcome.next (drainPoll (tagMakeRoom t))) does, portFail_fails (cause := 2) served ?_⟩
  rw [drainPoll_ported]
  generalize portFail m 2 s = t
  exact ported_congr (by rw [tagMakeRoom_frame]) (by rw [tagMakeRoom_frame])

theorem accepted_fails (none : (mediaOf s m).accWait = []) (served : (mediaOf s m).failed = false) :
    ∃ t, exec (.accepted m) s = .next t ∧ PortFailed m s t := by
  have does : doAccepted m s = portFail m 2 s := by
    unfold doAccepted
    dsimp only
    rw [none]
  exact ⟨_, congrArg (fun t => Host.Outcome.next (drainPoll t)) does, portFail_fails (cause := 2) served (drainPoll_ported _)⟩

end

end Sys2Proof.Machine

namespace Sys2Proof
open Sys2Proof.Machine

/-- Settles O41: handshakes, ACCEPTED and PERSISTED. -/
theorem mediaWritesAreTakenAndPersisted : Obligations.MediaWritesAreTakenAndPersisted := by
  unfold Obligations.MediaWritesAreTakenAndPersisted
  refine ⟨fun m id o rest s served => ⟨fun head goes free => ?_, fun head goes low free => ?_⟩,
    fun m s => ⟨fun id rest o waits out => ?_, fun none served => ?_⟩,
    fun m id s => ⟨fun o k x out accepted own found writes here alive answers => ?_, fun none served => ?_⟩⟩
  · obtain ⟨t, runs, media, frame⟩ := handshakeW_runs served head goes free
    obtain ⟨port, others⟩ := mediaOf_put_others media
    exact ⟨t, runs, port, others, frame⟩
  · obtain ⟨t, runs, media, frame⟩ := handshakeR_runs served head goes low free
    obtain ⟨port, others⟩ := mediaOf_put_others media
    exact ⟨t, runs, port, others, frame⟩
  · have runs := accepted_runs waits out
    generalize put : mediaPut m _ s = u at runs
    obtain ⟨port, -⟩ := mediaOf_put_others (t := drainPoll u) (s := s) (m := m) (by rw [drainPoll_frame, ← put])
    refine ⟨_, runs, by rw [port], ?_, fun write => ?_, ?_, ?_⟩
    · rw [port]
      dsimp only
      rw [tabFind_tabSet, if_pos rfl]
    · rw [port]
      dsimp only
      rw [if_pos write]
    · rw [drainPoll_frame, ← put]
      rfl
    · rw [drainPoll_frame, ← put]
      rfl
  · obtain ⟨t, runs, fails⟩ := accepted_fails none served
    exact ⟨t, runs, fails.failed, by rw [fails.pins], by rw [fails.pins]⟩
  · obtain ⟨t, runs, back, replied, keys⟩ := persisted_answers out accepted own found here alive answers
    refine ⟨t, runs, back, replied.ended, ⟨_, replied.told, ?_, rfl, rfl, rfl⟩, keys, (exec_nv_clk runs rfl).1⟩
    unfold answer
    rw [writes]
    rfl
  · obtain ⟨t, runs, fails⟩ := persisted_fails none served
    exact ⟨t, runs, fails.failed, by rw [fails.pins]⟩

end Sys2Proof

/-! SUPPORT and OBLIGATION. Lines that arrive for reads (R68, R171, R258, Table 03.7). -/

namespace Sys2Proof.Machine

theorem readJack_frame (x : Txn) (line : BitVec 576) (row : EarlyRow) (s : State) : readJack x line row s = { s with
    free := (readJack x line row s).free, jack := (readJack x line row s).jack, regs := (readJack x line row s).regs
    ev := (readJack x line row s).ev } := by
  unfold readJack
  dsimp only
  rw [jackFill_frame]
  split
  · split <;> rfl
  · rfl

theorem earlyRow_congr {s t : State} (keys : t.keys = s.keys) (cfg : t.cfg = s.cfg) (k : Nat) (sc : Side) :
    earlyRow t k sc = earlyRow s k sc := by
  have cls : slotClass t k = slotClass s k := by
    unfold slotClass cfgVal
    rw [cfg]
  have slot : slotOf t k = slotOf s k := slotOf_congr (by rw [keys]) k
  unfold earlyRow
  rw [cls, slot]

theorem genKeys_congr {s t : State} (keys : t.keys = s.keys) (clk : t.clk = s.clk) (k : Nat) (g : BitVec 32) :
    genKeys t k g = genKeys s k g := by
  have key : ∀ m, matKey t m = matKey s m := fun m => by
    unfold matKey frameNo
    rw [clk]
  have slot : slotOf t k = slotOf s k := slotOf_congr (by rw [keys]) k
  unfold genKeys
  rw [slot, key]

/-- Good data of a read is returned, poisoned where its line is (Table 03.7 rows 8 and 9). -/
theorem deliverGood_read {k : Nat} {x : Txn} {line : BitVec 576} {ks : List Block} {s : State} (found : txnFind s k = some x)
    (read : x.item.op = .readLine) : deliverGood (.txn k) line ks s =
      readReply x (if scPoison (lnSide line) then stOkPoison else stOk) (some (lineXor (lnPay line) ks))
        (scPoison (lnSide line)) 0 s := by
  unfold deliverGood deliver
  dsimp only
  rw [found]
  dsimp only
  rw [read]
  dsimp only
  cases scPoison (lnSide line) with
  | true => rfl
  | false => rfl

section
variable {k a m : Nat} {x : Txn} {line : BitVec 576} {s : State} (found : txnFind s k = some x)
include found

/-- A line of class W or C under a live generation with its key that passes SCHK is returned decrypted (R68). -/
theorem lineChecks_read {g : BitVec 32} {gk : GenKeys} {ks : List Block} (read : x.item.op = .readLine)
    (plain : slotClass s x.item.slot ≠ 3) (row : earlyRow s x.item.slot (lnSide line) = .gen g)
    (held : genKeys s x.item.slot g = some gk)
    (blocks : ks = lineBlocks (slotClass s x.item.slot) x.item.slot gk g a (scLctr (lnSide line)))
    (checked : schkOk a line ks = true) : lineChecks (.txn k) x.item.slot a m line {} s =
      readReply x (if scPoison (lnSide line) then stOkPoison else stOk) (some (lineXor (lnPay line) ks))
        (scPoison (lnSide line)) 0 s := by
  subst blocks
  rw [← deliverGood_read found read]
  unfold lineChecks
  dsimp only
  rw [row]
  dsimp only
  rw [if_neg Bool.false_ne_true, held]
  dsimp only
  unfold readDecrypt
  dsimp only
  rw [sliceBlocks_sound s _ _ .r (length_lineBlocks ..)]
  dsimp only
  unfold readTagged
  rw [if_neg plain]
  unfold readVerify
  dsimp only
  rw [if_neg plain]
  dsimp only
  rw [if_pos checked]

theorem lineArrived_keyless (reads : opReads x.item.op = true) (lost : x.keyless = true) :
    lineArrived (.txn k) m line {} s = lostForget (.txn k) (readReply x stKeyAbsent none false 0 s) := by
  unfold lineArrived
  rw [ownerKeyless_txn found, lost, if_pos rfl, deliverNone_read found reads]

theorem lineArrived_raw (keyed : x.keyless = false) (raw : x.item.op = .readRaw) : lineArrived (.txn k) m line {} s =
    lostForget (.txn k) (readReply x stOk (some (lnPay line)) false (lnSide line) s) := by
  unfold lineArrived
  rw [ownerKeyless_txn found, keyed, if_neg Bool.false_ne_true]
  unfold lineTake
  dsimp only
  rw [found]
  dsimp only
  rw [raw]

theorem lineArrived_read {g : BitVec 32} {gk : GenKeys} {ks : List Block} (keyed : x.keyless = false)
    (read : x.item.op = .readLine) (plain : slotClass s x.item.slot ≠ 3)
    (row : earlyRow s x.item.slot (lnSide line) = .gen g) (held : genKeys s x.item.slot g = some gk)
    (blocks : ks = lineBlocks (slotClass s x.item.slot) x.item.slot gk g (itemLine x.item) (scLctr (lnSide line)))
    (checked : schkOk (itemLine x.item) line ks = true) : lineArrived (.txn k) m line {} s =
      lostForget (.txn k) (readReply x (if scPoison (lnSide line) then stOkPoison else stOk) (some (lineXor (lnPay line) ks))
        (scPoison (lnSide line)) 0 (readJack x line (.gen g) s)) := by
  have frame := readJack_frame x line (.gen g) s
  have cls : slotClass (readJack x line (.gen g) s) x.item.slot = slotClass s x.item.slot := by
    unfold slotClass cfgVal
    rw [frame]
  rw [← lineChecks_read (m := m) (a := itemLine x.item) (s := readJack x line (.gen g) s) (by rw [frame]; exact found) read
    (by rw [cls]; exact plain) ((earlyRow_congr (by rw [frame]) (by rw [frame]) ..).trans row)
    ((genKeys_congr (by rw [frame]) (by rw [frame]) ..).trans held) (by rw [cls]; exact blocks) checked]
  unfold lineArrived
  rw [ownerKeyless_txn found, keyed, if_neg Bool.false_ne_true]
  unfold lineTake
  dsimp only
  rw [found]
  dsimp only
  rw [read]
  dsimp only
  rw [row]
  rfl

end

/-- The answer of a read stands once its command has ended. -/
theorem read_ends {k status : Nat} {x : Txn} {data : Option Line} {psn : Bool} {extra : Side} {s u : State}
    (found : txnFind s k = some x) (here : x.item.gone = false) (answers : eqSound s x.item.src) (pool : u.pool = s.pool) :
    Replied k x.item.src (answer x.item status data psn extra)
      (polled (lostForget (.txn k) (readReply x status data psn extra u))) := by
  have replied := readReply_replied (x := x) (status := status) (data := data) (psn := psn) (extra := extra) (s := u) here
    fun p link => by
      rw [pool]
      exact answers p link
  rw [txnFind_id found] at replied
  exact replied.congr (by rw [polled_frame, lostForget_frame])

theorem mediaErr_frame (m stat : Nat) (o : MOp) (s : State) :
    mediaErr m stat o s = { s with regs := (mediaErr m stat o s).regs, ev := (mediaErr m stat o s).ev } := by
  unfold mediaErr
  dsimp only
  rw [raise_frame]
  rfl

section
variable {m : Fin 16} {id : BitVec 11} {o : MOp} {k : Nat} {x : Txn} {s : State}
  (out : tabFind (mediaOf s m).outR id.toNat = some o) (resp : respKind o = 0) (inTime : o.timedOut = false)
  (own : o.owner = .txn k)
include out resp inTime own

/-- A line that arrives without a report is taken for its read (R68, R171). -/
theorem lineArrival_takes (line : BitVec 576) : exec (.lineArrival m id 0 line (linePar line) {}) s =
    .next (polled (lineArrived (.txn k) m line {} (readBack m id.toNat s))) := by
  refine congrArg (fun t => Host.Outcome.next (polled t)) ?_
  unfold doLineArrival
  rw [beq_self_eq_true]
  refine (response_got out resp inTime).trans ?_
  rw [own]
  rfl

variable (found : txnFind s k = some x) (reads : opReads x.item.op = true)
include found reads

/-- A report of the medium ends a read without data (R179, R258). -/
theorem lineArrival_ends {stat : BitVec 2} (bad : stat = 1#2 ∨ stat = 2#2) (line : BitVec 576) (wpar : BitVec 16) :
    exec (.lineArrival m id stat line wpar {}) s = .next (polled (lostForget (.txn k)
      (readReply x (if x.keyless then stKeyAbsent else stMediaError) none false 0
        (mediaErr m stat.toNat o (readBack m id.toNat s))))) := by
  have kind : o.kind ≠ .sidecar := fun side => by
    unfold respKind at resp
    rw [if_pos side] at resp
    cases resp
  have low : stat.toNat = 1 ∨ stat.toNat = 2 := by
    rcases bad with rfl | rfl
    · exact .inl rfl
    · exact .inr rfl
  refine congrArg (fun t => Host.Outcome.next (polled t)) ?_
  unfold doLineArrival
  rw [response_failed out resp kind inTime low]
  exact readEnd_read own (by rw [mediaErr_frame]; exact found) reads

end

end Sys2Proof.Machine

namespace Sys2Proof
open Sys2Proof.Machine

/-- Settles O43: what a line that arrives answers. -/
theorem linesThatArriveAnswerReads : Obligations.LinesThatArriveAnswerReads := by
  unfold Obligations.LinesThatArriveAnswerReads
  intro m id stat line wpar o k x s out resp inTime own found here reads answers
  have runs : exec (.lineArrival m id stat line wpar {}) s = .next (polled (doLineArrival m id.toNat stat.toNat line wpar {} s)) := rfl
  generalize polled (doLineArrival m id.toNat stat.toNat line wpar {} s) = t at runs
  have ends : ∀ {u : State}, exec (.lineArrival m id stat line wpar {}) s = .next u → t = u := fun other =>
    Host.Outcome.next.inj (runs.symm.trans other)
  obtain ⟨nv, clk⟩ := exec_nv_clk runs rfl
  obtain ⟨-, -, -, -, kek, -⟩ := owned_iff.1 (exec_owned runs rfl)
  have there : txnFind (readBack m id.toNat s) k = some x := found
  have pool : ∀ n, (mediaErr m n o (readBack m id.toNat s)).pool = s.pool := fun n => by
    rw [mediaErr_frame]
    rfl
  refine ⟨t, runs, nv, clk, kek, ?_, ?_, ?_, ?_⟩
  · rintro rfl rfl keyed raw
    rw [ends (lineArrival_takes out resp inTime own line), lineArrived_raw there keyed raw]
    obtain ⟨ended, told⟩ := read_ends (status := stOk) (data := some (lnPay line)) (psn := false) (extra := lnSide line)
      (u := readBack m id.toNat s) found here answers rfl
    exact ⟨ended, _, told, rfl, rfl, rfl, rfl⟩
  · rintro rfl rfl keyed read plain g gk ks row held blocks checked
    rw [ends (lineArrival_takes out resp inTime own line), lineArrived_read there keyed read plain row held blocks checked]
    obtain ⟨ended, told⟩ := read_ends (status := if scPoison (lnSide line) then stOkPoison else stOk)
      (data := some (lineXor (lnPay line) ks)) (psn := scPoison (lnSide line)) (extra := 0)
      (u := readJack x line (.gen g) (readBack m id.toNat s)) found here answers (by rw [readJack_frame]; rfl)
    exact ⟨ended, _, told, rfl, rfl, Bool.and_true _, rfl⟩
  · rintro (⟨rfl, rfl⟩ | bad) lost
    · rw [ends (lineArrival_takes out resp inTime own line), lineArrived_keyless there reads lost]
      exact ⟨_, (read_ends (status := stKeyAbsent) (data := none) (psn := false) (extra := 0) (u := readBack m id.toNat s)
        found here answers rfl).told, rfl, rfl, rfl⟩
    · rw [ends (lineArrival_ends out resp inTime own found reads bad line wpar), lost, if_pos rfl]
      exact ⟨_, (read_ends (status := stKeyAbsent) (data := none) (psn := false) (extra := 0) found here answers
        (pool _)).told, rfl, rfl, rfl⟩
  · intro bad keyed
    rw [ends (lineArrival_ends out resp inTime own found reads bad line wpar), keyed, if_neg Bool.false_ne_true]
    exact ⟨_, (read_ends (status := stMediaError) (data := none) (psn := false) (extra := 0) found here answers
      (pool _)).told, rfl, rfl, rfl⟩

end Sys2Proof

/-! SUPPORT and OBLIGATION. The pool sweep (R199, R200, R202). -/

namespace Sys2Proof.Machine

/-- What completing the items that a sweep meets leaves of the pool's ids (R199, R202). -/
structure Swept (s t : State) : Prop where
  lost : t.pool.lost.map (fun e => e.1) = s.pool.lost.map (fun e => e.1)
  txns : t.pool.txns.length = s.pool.txns.length
  spare : t.pool.spare = s.pool.spare
  retired : t.pool.retired = s.pool.retired
  stuck : t.pool.stuck = s.pool.stuck
  ptrBad : t.pool.ptrBad = s.pool.ptrBad
  frame : t = { s with regs := t.regs, ev := t.ev, links := t.links, accts := t.accts, pastAccts := t.pastAccts, pool := t.pool }

namespace Swept
variable {s t u : State}

theorem refl (s : State) : Swept s s := ⟨rfl, rfl, rfl, rfl, rfl, rfl, rfl⟩

theorem trans (h : Swept s t) (g : Swept t u) : Swept s u where
  lost := g.lost.trans h.lost
  txns := g.txns.trans h.txns
  spare := g.spare.trans h.spare
  retired := g.retired.trans h.retired
  stuck := g.stuck.trans h.stuck
  ptrBad := g.ptrBad.trans h.ptrBad
  frame := by rw [g.frame, h.frame]

theorem of_answered (h : Answered s t) : Swept s t where
  lost := by rw [h.pool]
  txns := by rw [h.pool]
  spare := by rw [h.pool]
  retired := by rw [h.pool]
  stuck := by rw [h.pool]
  ptrBad := by rw [h.pool]
  frame := by rw [h.frame]

theorem of_note (h : t = { s with regs := t.regs, ev := t.ev }) : Swept s t where
  lost := by rw [h]
  txns := by rw [h]
  spare := by rw [h]
  retired := by rw [h]
  stuck := by rw [h]
  ptrBad := by rw [h]
  frame := by rw [h]

theorem foldl {α : Type} (f : State → α → State) (h : ∀ s x, Swept s (f s x)) (l : List α) (s : State) :
    Swept s (l.foldl f s) := by
  induction l generalizing s with
  | nil => exact refl s
  | cons x l ih => exact (h s x).trans (ih _)

theorem eqSound (h : Swept s t) {src : Src} (sound : Machine.eqSound s src) : Machine.eqSound t src := fun p own => by
  rw [h.ptrBad]
  exact sound p own

end Swept

theorem linkDropPool_swept (p : Nat) (s : State) : Swept s (linkDropPool p s) := by
  unfold linkDropPool
  dsimp only
  generalize hu : eqPut p [] (linkPut p _ s) = u
  have put : Swept s u := by
    rw [← hu]
    exact ⟨rfl, rfl, rfl, rfl, rfl, rfl, rfl⟩
  have released := Swept.foldl (fun s r => if rspPartner r then s else creditRelease p r.sid.toNat 1 s) (fun s r => by
      split
      · exact .refl s
      · exact .of_answered (creditRelease_answered ..)) (eqOf s p) u
  refine (put.trans released).trans ?_
  generalize (eqOf s p).foldl _ u = w
  refine ⟨?_, List.length_map .., rfl, rfl, rfl, rfl, rfl⟩
  show (w.pool.lost.map _).map _ = _
  rw [List.map_map]
  rfl

theorem linkDown_swept (p c : Nat) (s : State) : Swept s (linkDown p c s) := by
  unfold linkDown
  dsimp only
  generalize hu : regPut (linkIdx p 1) 9 0 c _ = u
  have noted : Swept s u := by
    rw [← hu]
    refine .of_note ?_
    rw [raise_frame]
    rfl
  refine noted.trans ((linkDropPool_swept p u).trans ?_)
  exact ⟨rfl, rfl, rfl, rfl, rfl, rfl, rfl⟩

/-- A lost header takes its links down and completes its item (R200). -/
theorem hdrLost_swept (i : Item) (mask : List Nat) (s : State) : Swept s (hdrLost i mask s) := by
  unfold hdrLost
  dsimp only
  generalize mask.filter _ = up
  generalize hu : raise .qHdrLost (srcGlobal 24) i.q up.length 0 (count1 0x6090 2 0 s) = u
  have noted : Swept s u := by
    rw [← hu]
    refine .of_note ?_
    rw [raise_frame]
    rfl
  have down := noted.trans (.foldl (fun s p => linkDown p 2 s) (fun s p => linkDown_swept p 2 s) up u)
  generalize up.foldl (fun s p => linkDown p 2 s) u = v at down ⊢
  split
  · exact down.trans ⟨rfl, rfl, rfl, rfl, rfl, rfl, rfl⟩
  · exact down.trans (.of_answered (completeBare_answered fun here => nomatch here))

theorem sweepRead_frame (hdr : List (Nat × BitVec 144)) (i : Item) (s : State) :
    (sweepRead hdr i s).2 = { s with regs := (sweepRead hdr i s).2.regs, ev := (sweepRead hdr i s).2.ev } := wordsNote_frame ..

theorem sweepRead_whole (i : Item) (s : State) : (sweepRead [] i s).1 = 0 := rfl

theorem sweepItem_swept (hdr : List (Nat × BitVec 144)) {s : State} {i : Item} (sound : eqSound s i.src) :
    Swept s (sweepItem hdr s i) := by
  have read : Swept s (sweepRead hdr i s).2 := .of_note (sweepRead_frame ..)
  unfold sweepItem
  generalize sweepRead hdr i s = r at read ⊢
  dsimp only
  split
  · exact read.trans (hdrLost_swept ..)
  · exact read.trans (.of_answered (itemFlushed_answered fun _ => read.eqSound sound))

/-- A sweep that reads every header whole answers the items that it meets. -/
theorem sweepItem_answered {s : State} {i : Item} (sound : eqSound s i.src) : (sweepItem [] s i).pool.lost = s.pool.lost := by
  have frame := sweepRead_frame [] i s
  unfold sweepItem
  have whole := sweepRead_whole i s
  generalize sweepRead [] i s = r at frame whole ⊢
  dsimp only
  rw [whole, if_neg (by decide), (itemFlushed_answered (it := i) (s := r.2) fun _ p link => by
    rw [frame]
    exact sound p link).pool, frame]

section
variable {l : List (Nat × Item)} {s : State} (sound : ∀ e ∈ l, eqSound s e.2.src)
include sound

theorem foldl_sweepItem_swept (hdr : List (Nat × BitVec 144)) : Swept s (l.foldl (fun s e => sweepItem hdr s e.2) s) := by
  induction l generalizing s with
  | nil => exact .refl s
  | cons e l ih =>
    have first := sweepItem_swept hdr (sound e List.mem_cons_self)
    exact first.trans (ih fun f here => first.eqSound (sound f (List.mem_cons_of_mem e here)))

theorem foldl_sweepItem_lost : (l.foldl (fun s e => sweepItem [] s e.2) s).pool.lost = s.pool.lost := by
  induction l generalizing s with
  | nil => rfl
  | cons e l ih =>
    have first := sweepItem_swept [] (sound e List.mem_cons_self)
    rw [List.foldl_cons, ih fun f here => first.eqSound (sound f (List.mem_cons_of_mem e here)),
      sweepItem_answered (sound e List.mem_cons_self)]

end

/-- The ids retired before a sweep pass come back, and those retired since wait (R199, R202). -/
def idsBack (s : State) : State := { s with pool := { s.pool with
  lost := (s.pool.lost.filter (fun e => e.1 != 1)).map (fun e => if e.1 = 0 then (1, e.2) else e)
  retired := (s.pool.retired.filter (fun e => !e.2)).map (fun e => (e.1, true))
  spare := s.pool.spare ++ (s.pool.retired.filter (fun e => e.2)).map (fun e => e.1) } }

/-- The headers that wait are read as well (R202). -/
def headersRead (hdr : List (Nat × BitVec 144)) (s : State) : State := s.pool.items.foldl (fun s i => (sweepRead hdr i s).2) s

theorem headersRead_frame (hdr : List (Nat × BitVec 144)) (s : State) :
    headersRead hdr s = { s with regs := (headersRead hdr s).regs, ev := (headersRead hdr s).ev } := by
  unfold headersRead
  generalize s.pool.items = l
  induction l generalizing s with
  | nil => rfl
  | cons i l ih => rw [List.foldl_cons, ih, sweepRead_frame]

theorem sweepBitmaps_frame (freed held : Nat) (s : State) : sweepBitmaps freed held s = { s with
    pool := { s.pool with stuck := s.pool.stuck + held }, regs := (sweepBitmaps freed held s).regs
    ev := (sweepBitmaps freed held s).ev } := by
  unfold sweepBitmaps
  dsimp only
  split
  · rfl
  · rw [raise_frame]
    rfl

theorem sweepOld_frame (s : State) : sweepOld s = { s with pool := (sweepOld s).pool } := rfl

/-- The headers that have grown old are marked (R202). -/
theorem sweepOld_marks {i : Item} {s : State} (here : i ∈ (sweepOld s).pool.items) (aged : enqFrame i + 16384 < frameNo s) :
    i.old = true := by
  obtain ⟨j, -, rfl⟩ := List.mem_map.1 here
  split
  · rfl
  · next young =>
    rw [if_neg young] at aged
    exact absurd aged young

/-- A sweep pass before the queues in mismatch are reset. -/
def sweepDone (freed held : Nat) (hdr : List (Nat × BitVec 144)) (s : State) : State :=
  sweepOld (sweepBitmaps freed held (headersRead hdr
    ((s.pool.lost.filter (fun e => e.1 == 1)).foldl (fun s e => sweepItem hdr s e.2) (idsBack s))))

theorem poolSweepPass_runs {s : State} (running : s.clk.running = true) (ptr : List (Nat × Fin 5)) (freed held : Nat)
    (hdr : List (Nat × BitVec 144)) : exec (.poolSweepPass ptr freed held hdr) s =
      .next (ptr.foldl (fun v e => if e.1 < 384 then queueReset e.1 e.2.val v else v) (sweepDone freed held hdr s)) :=
  congrArg Host.Outcome.next (if_pos running)

theorem map_fst_waiting (l : List (Nat × Item)) :
    (l.map (fun e => if e.1 = 0 then (1, e.2) else e)).map (fun e => e.1) = l.map (fun e => if e.1 = 0 then 1 else e.1) := by
  rw [List.map_map]
  refine List.map_congr_left fun e _ => ?_
  show (if e.1 = 0 then (1, e.2) else e).1 = _
  split <;> rfl

end Sys2Proof.Machine

namespace Sys2Proof
open Sys2Proof.Machine

/-- Settles O45: what a sweep pass completes, gives back and marks. -/
theorem sweepsReturnRetiredIds : Obligations.SweepsReturnRetiredIds := by
  unfold Obligations.SweepsReturnRetiredIds
  intro ptr freed held hdr s running sound
  have due : ∀ e ∈ s.pool.lost.filter (fun e => e.1 == 1), eqSound (idsBack s) e.2.src := fun e here =>
    sound e (List.mem_filter.1 here).1 (by simpa using (List.mem_filter.1 here).2)
  have swept := foldl_sweepItem_swept due hdr
  have lost : hdr = [] → ((s.pool.lost.filter (fun e => e.1 == 1)).foldl (fun s e => sweepItem hdr s e.2) (idsBack s)).pool.lost =
      (idsBack s).pool.lost := by
    rintro rfl
    exact foldl_sweepItem_lost due
  refine ⟨sweepDone freed held hdr s, poolSweepPass_runs running [] freed held hdr, ?_⟩
  have runs := poolSweepPass_runs running ptr freed held hdr
  unfold sweepDone at runs ⊢
  generalize (s.pool.lost.filter (fun e => e.1 == 1)).foldl (fun s e => sweepItem hdr s e.2) (idsBack s) = v at swept lost runs ⊢
  have read := headersRead_frame hdr v
  generalize headersRead hdr v = w at read runs ⊢
  have maps := sweepBitmaps_frame freed held w
  generalize sweepBitmaps freed held w = x at maps runs ⊢
  have frames : frameNo x = frameNo s := by
    unfold frameNo
    rw [maps, read, swept.frame]
    rfl
  refine ⟨?_, ?_, ?_, fun whole => ?_, ?_, fun i here => ?_, ?_, runs, ?_⟩
  · show x.pool.spare = _
    rw [maps, read]
    exact swept.spare
  · show x.pool.retired = _
    rw [maps, read]
    exact swept.retired
  · show x.pool.lost.map _ = _
    rw [maps, read]
    exact swept.lost.trans (map_fst_waiting _)
  · show x.pool.lost = _
    rw [maps, read]
    exact lost whole
  · show x.pool.stuck = _
    rw [maps, read]
    exact congrArg (· + held) swept.stuck
  · rw [← frames]
    exact sweepOld_marks here
  · show x.pool.txns.length = _
    rw [maps, read]
    exact swept.txns
  · rw [sweepOld_frame, maps, read, swept.frame]
    rfl

end Sys2Proof

/-! SUPPORT and OBLIGATION. Items that a port takes, and fences (R169, R176, R238). -/

namespace Sys2Proof.Machine

-- An item that its port takes

/-- An item of a source has its number and its credits, and its tag is used anew (R238, R245). -/
def itemTaken (src : Src) (h : Hdr) (cells : Nat) (s : State) : State :=
  creditTake src h.sid cells (tagAnew src h.tag { s with pool := { s.pool with nextArr := s.pool.nextArr + 1 } })

theorem tagAnew_frame (src : Src) (tag : BitVec 16) (s : State) :
    tagAnew src tag s = { s with links := (tagAnew src tag s).links } := by
  unfold tagAnew
  split
  · split <;> rfl
  · rfl

theorem creditTake_frame (src : Src) (sid : BitVec 12) (cells : Nat) (s : State) :
    creditTake src sid cells s = { s with accts := (creditTake src sid cells s).accts } := by
  unfold creditTake
  split
  · rfl
  · dsimp only
    split <;> rfl

theorem itemTaken_frame (src : Src) (h : Hdr) (cells : Nat) (s : State) : itemTaken src h cells s = { s with
    pool := { s.pool with nextArr := s.pool.nextArr + 1 }, accts := (itemTaken src h cells s).accts
    links := (itemTaken src h cells s).links } := by
  unfold itemTaken
  rw [creditTake_frame, tagAnew_frame]

/-- An item that passes its checks is counted on its link (R347). -/
def passCounted (src : Src) (s : State) : State :=
  match src with
  | .link p => count1 (linkIdx p.val 4) 1 0 s
  | .master _ => s

theorem passCounted_frame (src : Src) (s : State) : passCounted src s = { s with regs := (passCounted src s).regs } := by
  unfold passCounted
  split <;> rfl

-- Fences

/-- What the taking of an item leaves of the tables of streams and principals. -/
theorem streamRow_itemTaken (src : Src) (h : Hdr) (cells : Nat) (s : State) (p sid : Nat) :
    streamRow (itemTaken src h cells s) p sid = streamRow s p sid := by
  rw [itemTaken_frame]
  rfl

theorem mayUse_itemTaken (src : Src) (h : Hdr) (cells : Nat) (s : State) (r : Nat) :
    principalOk (itemTaken src h cells s) (cfgVal (itemTaken src h cells s) 0x4001 4 r) =
      principalOk s (cfgVal s 0x4001 4 r) := by
  rw [itemTaken_frame]
  rfl

section
variable {src : Src} {h g : Hdr} {s : State} (takes : TakesItem s src h 1) (head : g = hdrTaken src h)
  (sends : ∀ p, src = .link p → ∃ r, streamRow s p.val g.sid.toNat = some r ∧ principalOk s (cfgVal s 0x4001 4 r) = true)
include takes head sends

/-- A fence that its port takes waits (R176). -/
theorem fence_waits : ∃ u, u = passCounted src (itemTaken src g 1 s) ∧ exec (.fence src h) s = .next { u with
    pool := { u.pool with fences := u.pool.fences ++ [{ src := src, sid := g.sid, tag := g.tag, arr := s.pool.nextArr }] } } := by
  obtain ⟨isOpen, served, noFault, credits, notHeld⟩ := takes
  subst head
  refine ⟨_, rfl, congrArg Host.Outcome.next ?_⟩
  unfold fenceReceive
  rw [if_neg (fun closed => closed.elim (fun c => by rw [isOpen] at c; cases c) (fun c => c served))]
  dsimp only
  rw [noFault]
  dsimp only
  rw [credits, if_neg Bool.false_ne_true]
  cases src with
  | master n =>
    rw [show (takeArr s) = (s.pool.nextArr, { s with pool := { s.pool with nextArr := s.pool.nextArr + 1 } }) from rfl]
    dsimp only
    exact (if_neg (not_not_intro rfl)).trans (if_neg fun x => Bool.false_ne_true (notHeld.symm.trans x))
  | link p =>
    obtain ⟨r, row, may⟩ := sends p rfl
    rw [show (takeArr s) = (s.pool.nextArr, { s with pool := { s.pool with nextArr := s.pool.nextArr + 1 } }) from rfl]
    dsimp only
    rw [show creditTake (.link p) (hdrTaken (.link p) h).sid 1 (tagAnew (.link p) (hdrTaken (.link p) h).tag
      { s with pool := { s.pool with nextArr := s.pool.nextArr + 1 } }) = itemTaken (.link p) (hdrTaken (.link p) h) 1 s from rfl]
    refine (if_neg (not_not_intro ?_)).trans (if_neg fun x => Bool.false_ne_true (notHeld.symm.trans x))
    rw [streamRow_itemTaken, row]
    exact if_pos ((mayUse_itemTaken ..).trans may)

end

-- Their completion

section
variable {f : FenceEnt} {s : State} (oldest : s.pool.fences.find? (fun g => srcEq g.src f.src && (match f.src with
      | .link _ => g.sid == f.sid
      | .master _ => true)) = some f)
include oldest

/-- FENCE_COMPLETE takes the oldest fence of the stream (R176). -/
theorem fenceComplete_takes : doFenceComplete f.src f.sid s = if fenceBlocked s f then s else fenceDone f s := by
  unfold doFenceComplete
  split
  · next none => exact absurd (none.symm.trans oldest) (by simp)
  · next g found =>
    obtain rfl := Option.some.inj (found.symm.trans oldest)
    rfl

/-- A fence behind earlier requests waits on (R176). -/
theorem blockedFence_waits (blocked : fenceBlocked s f = true) : exec (.fenceComplete f.src f.sid) s = .next s :=
  congrArg Host.Outcome.next ((fenceComplete_takes oldest).trans (if_pos blocked))

theorem freeFence_done (free : fenceBlocked s f = false) : exec (.fenceComplete f.src f.sid) s = .next (fenceDone f s) :=
  congrArg Host.Outcome.next ((fenceComplete_takes oldest).trans (if_neg fun x => Bool.false_ne_true (free.symm.trans x)))

end

/-- A completed fence has left the wait and is counted (R176, R346). -/
def fenceEnded (f : FenceEnt) (s : State) : State :=
  count1 0x6080 3 0 { s with pool := { s.pool with fences := s.pool.fences.filter (fun g => g.arr != f.arr) } }

/-- FENCE_DONE (R176). -/
def fenceRsp (f : FenceEnt) : Rsp := { op := 0x84#8, status := 0#8, sid := f.sid, tag := f.tag, arr := f.arr }

theorem fenceDone_eq (f : FenceEnt) (s : State) :
    fenceDone f s = rspSend f.src f.sid f.gone (fenceRsp f) 1 (fenceEnded f s) := rfl

theorem creditRelease_fates (p sid n : Nat) (s : State) (q : Nat) :
    (linkOf (creditRelease p sid n s) q).fates = (linkOf s q).fates := by
  unfold creditRelease
  dsimp only
  split
  · rfl
  · rw [(creditSettle_creditFed ..).links q]
    rfl

/-- A fence of a drop has a fate of its own for the RESYNC list (R176, R246). -/
theorem goneFence_fate {f : FenceEnt} {s : State} {p : Fin 128} (gone : f.gone = true) (src : f.src = .link p) :
    { tag := f.tag, fate := 3, status := 0 } ∈ (linkOf (fenceDone f s) p).fates := by
  rw [fenceDone_eq, gone, src]
  show _ ∈ (linkOf (creditRelease p.val f.sid.toNat 1 (linkFate p.val _ (fenceEnded f s))) p).fates
  rw [creditRelease_fates]
  unfold linkFate
  rw [linkOf_linkMod_same]
  exact List.mem_append_right _ List.mem_cons_self

/-- Settles O29. -/
theorem fencesWaitForEarlierRequests : Obligations.FencesWaitForEarlierRequests := by
  unfold Obligations.FencesWaitForEarlierRequests
  refine ⟨fun src h g s takes head sends => ?_, fun f s oldest => ⟨blockedFence_waits oldest, fun free here sound => ?_,
    fun free gone => ?_⟩⟩
  · obtain ⟨u, rfl, runs⟩ := fence_waits takes head sends
    refine ⟨_, runs, ?_⟩
    rw [passCounted_frame, itemTaken_frame]
    exact ⟨rfl, rfl, rfl, rfl⟩
  · have ends : Answered (fenceEnded f s) (fenceDone f s) := rspSend_answered fun _ => sound
    refine ⟨_, freeFence_done oldest free, by rw [ends.pool]; rfl, by rw [ends.pool]; rfl, ⟨fenceRsp f, ?_, rfl, rfl, rfl, rfl⟩, ?_⟩
    · rw [fenceDone_eq, here]
      exact mem_rspSend (s := fenceEnded f s) sound
    · rw [ends.frame]
      rfl
  · have ends : Answered (fenceEnded f s) (fenceDone f s) := rspSend_answered fun here => by rw [gone] at here; cases here
    exact ⟨_, freeFence_done oldest free, by rw [ends.pool]; rfl, fun p src => goneFence_fate gone src⟩

end Sys2Proof.Machine

/-! OBLIGATION. Requests at receipt (R135, R165, R170, R180, R187, R196, R199). -/

namespace Sys2Proof.Machine

-- A request that its port takes

/-- The item of a request that its port takes. -/
def itemFor (src : Src) (op : ReqOp) (h : Hdr) (psn : Bool) (ext : Side) (data : Line) (s : State) : Item :=
  { src := src, op := op, h := h, psn := psn, ext := ext, data := data, t0 := now s, arr := s.pool.nextArr }

/-- The fields of a request command that its operation has. -/
structure FieldsOf (op : ReqOp) (psn : Bool) (ext : Side) (data : Line) (psn' : Bool) (ext' : Side) (data' : Line) : Prop where
  poison : op = .writeLine ∨ op = .writePartial → psn' = psn
  line : opReads op = false → data' = data
  extra : op = .writePartial ∨ op = .writeRaw ∨ op = .writeTag → ext' = ext

theorem request_receives (op : ReqOp) (src : Src) (h : Hdr) (psn : Bool) (ext : Side) (data : Line) (s : State) :
    ∃ psn' ext' data', FieldsOf op psn ext data psn' ext' data' ∧
      exec (requestOf op src h psn ext data) s = .next (reqReceive src op h psn' ext' data' 0 s) := by
  cases op with
  | readLine => exact ⟨false, 0, 0, ⟨by simp, by simp [opReads], by simp⟩, rfl⟩
  | writeLine => exact ⟨psn, 0, data, ⟨fun _ => rfl, fun _ => rfl, by simp⟩, rfl⟩
  | writePartial => exact ⟨psn, ext, data, ⟨fun _ => rfl, fun _ => rfl, fun _ => rfl⟩, rfl⟩
  | readRaw => exact ⟨false, 0, 0, ⟨by simp, by simp [opReads], by simp⟩, rfl⟩
  | writeRaw => exact ⟨false, ext, data, ⟨by simp, fun _ => rfl, fun _ => rfl⟩, rfl⟩
  | readTag => exact ⟨false, 0, 0, ⟨by simp, by simp [opReads], by simp⟩, rfl⟩
  | writeTag => exact ⟨false, ext, data, ⟨by simp, fun _ => rfl, fun _ => rfl⟩, rfl⟩

theorem chkReq_itemTaken (src : Src) (h : Hdr) (cells : Nat) (s : State) (susp : Bool) (r : Src) (op : ReqOp) (g : Hdr) :
    chkReq (itemTaken src h cells s) susp r op g = chkReq s susp r op g := by
  rw [itemTaken_frame]
  rfl

theorem now_itemTaken (src : Src) (h : Hdr) (cells : Nat) (s : State) : now (itemTaken src h cells s) = now s := by
  rw [itemTaken_frame]
  rfl

section
variable {src : Src} {h g : Hdr} {op : ReqOp} {s : State} {psn : Bool} {ext : Side} {data : Line}
  (takes : TakesItem s src h (opCells op)) (head : g = hdrTaken src h)
include takes head

/-- The checks of a request stand before its queue (R135, R180). -/
theorem reqReceive_fails {step status : Nat} (fails : chkReq s true src op g = .fail step status) :
    reqReceive src op h psn ext data 0 s =
      refuseReq (itemFor src op g psn ext data s) step status (itemTaken src g (opCells op) s) := by
  obtain ⟨isOpen, served, noFault, credits, -⟩ := takes
  subst head
  unfold reqReceive
  rw [isOpen, if_neg Bool.false_ne_true, decide_eq_true served]
  dsimp only
  rw [noFault]
  dsimp only
  rw [credits, if_neg Bool.false_ne_true,
    show (takeArr s) = (s.pool.nextArr, { s with pool := { s.pool with nextArr := s.pool.nextArr + 1 } }) from rfl]
  dsimp only
  rw [show creditTake src (hdrTaken src h).sid (opCells op) (tagAnew src (hdrTaken src h).tag
    { s with pool := { s.pool with nextArr := s.pool.nextArr + 1 } }) = itemTaken src (hdrTaken src h) (opCells op) s from rfl,
    chkReq_itemTaken, fails, now_itemTaken]
  generalize itemTaken src (hdrTaken src h) (opCells op) s = u
  dsimp only [itemFor, Nat.add_zero]

theorem reqReceive_passes {slot : Nat} (passes : chkReq s true src op g = .pass slot) :
    reqReceive src op h psn ext data 0 s = enqueueItem
      { itemFor src op g psn ext data s with slot := slot, q := portOf s g.addr.toNat * 8 + prioOf s src g.sid }
      (passCounted src (itemTaken src g (opCells op) s)) := by
  obtain ⟨isOpen, served, noFault, credits, notHeld⟩ := takes
  subst head
  have queue : portOf (passCounted src (itemTaken src (hdrTaken src h) (opCells op) s)) (hdrTaken src h).addr.toNat * 8 +
      prioOf (passCounted src (itemTaken src (hdrTaken src h) (opCells op) s)) src (hdrTaken src h).sid =
      portOf s (hdrTaken src h).addr.toNat * 8 + prioOf s src (hdrTaken src h).sid := by
    rw [passCounted_frame, itemTaken_frame]
    rfl
  unfold reqReceive
  rw [isOpen, if_neg Bool.false_ne_true, decide_eq_true served]
  dsimp only
  rw [noFault]
  dsimp only
  rw [credits, if_neg Bool.false_ne_true,
    show (takeArr s) = (s.pool.nextArr, { s with pool := { s.pool with nextArr := s.pool.nextArr + 1 } }) from rfl]
  dsimp only
  rw [show creditTake src (hdrTaken src h).sid (opCells op) (tagAnew src (hdrTaken src h).tag
    { s with pool := { s.pool with nextArr := s.pool.nextArr + 1 } }) = itemTaken src (hdrTaken src h) (opCells op) s from rfl,
    chkReq_itemTaken, passes, now_itemTaken]
  refine (if_neg fun x => Bool.false_ne_true (notHeld.symm.trans x)).trans ?_
  rw [← queue]
  generalize itemTaken src (hdrTaken src h) (opCells op) s = u
  dsimp only [itemFor, Nat.add_zero]
  rfl

end

-- The queue

/-- What a request that passed has done before its queue is reached: number, credits, tag and count. -/
structure Passed (s t : State) : Prop where
  frame : t = { s with pool := { s.pool with nextArr := s.pool.nextArr + 1 }, accts := t.accts, links := t.links, regs := t.regs }
  flush : ∀ q, flushing t q = flushing s q

theorem flushing_congr {s t : State} (regs : ∀ q, regVal t (iqIdx (q / 8)) 1 0 = regVal s (iqIdx (q / 8)) 1 0)
    (pwr : t.pwr = s.pwr) (ends : t.pool.flushEnd = s.pool.flushEnd) (clk : t.clk = s.clk) (q : Nat) :
    flushing t q = flushing s q := by
  unfold flushing now
  rw [regs, pwr, ends, clk]

theorem passCounted_regVal (src : Src) (m : Nat) (s : State) :
    regVal (passCounted src s) (iqIdx m) 1 0 = regVal s (iqIdx m) 1 0 := by
  unfold passCounted
  split
  · next p => exact regVal_countUp_ne (regVal_iqFlags_ne (by decide) (.inl (linkIdx_ne_iqIdx p.isLt m 4 (by decide))))
  · rfl

theorem request_passed (src : Src) (h : Hdr) (cells : Nat) (s : State) :
    Passed s (passCounted src (itemTaken src h cells s)) where
  frame := by
    rw [passCounted_frame, itemTaken_frame]
  flush := by
    refine flushing_congr (fun q => ?_) ?_ ?_ ?_
    · rw [passCounted_regVal, itemTaken_frame]
      rfl
    all_goals rw [passCounted_frame, itemTaken_frame]

theorem stickySet_frame (q : Nat) (src : Src) (s : State) :
    stickySet q src s = { s with pool := { s.pool with sticky := (stickySet q src s).pool.sticky } } := by
  unfold stickySet
  split <;> rfl

/-- The queue with the item at its end (R187, R200). -/
def itemPlaced (i : Item) (s : State) : State :=
  stickySet i.q i.src { s with pool := { s.pool with items := s.pool.items ++ [i] } }

theorem itemPlaced_frame (i : Item) (s : State) : itemPlaced i s = { s with pool := { s.pool with
    items := s.pool.items ++ [i], sticky := (itemPlaced i s).pool.sticky } } := stickySet_frame ..

theorem itemJoin_sound {i : Item} {s : State} (sound : tabFind s.pool.ptrBad i.q = none) : itemJoin i s = itemPlaced i s := by
  have still : tabFind (itemPlaced i s).pool.ptrBad i.q = none := by
    rw [itemPlaced_frame]
    exact sound
  unfold itemJoin
  dsimp only
  rw [show stickySet i.q i.src { s with pool := { s.pool with items := s.pool.items ++ [i] } } = itemPlaced i s from rfl, still]

theorem itemJoin_mismatch {i : Item} {s : State} {fld : Nat} (bad : tabFind s.pool.ptrBad i.q = some fld) :
    itemJoin i s = queueReset i.q fld (itemPlaced i s) := by
  have still : tabFind (itemPlaced i s).pool.ptrBad i.q = some fld := by
    rw [itemPlaced_frame]
    exact bad
  unfold itemJoin
  dsimp only
  rw [show stickySet i.q i.src { s with pool := { s.pool with items := s.pool.items ++ [i] } } = itemPlaced i s from rfl, still]

/-- An open queue of a port that is served takes the item (R187, R196, R262). -/
theorem enqueueItem_joins {i : Item} {s : State} (flows : flushing s i.q = false) (works : (mediaOf s (i.q / 8)).failed = false)
    (has : (mediaOf s (i.q / 8)).unserved = false) : enqueueItem i s = itemJoin i s := by
  unfold enqueueItem
  rw [if_neg (fun c => Bool.false_ne_true (flows.symm.trans c.1)), if_neg]
  exact fun c => c.elim (fun c => Bool.false_ne_true (works.symm.trans c)) fun c => Bool.false_ne_true (has.symm.trans c)

theorem enqueueItem_flushed {i : Item} {s : State} (flush : flushing s i.q = true) (landed : i.t0 ≤ now s) :
    enqueueItem i s = itemFlushed i s := by
  unfold enqueueItem
  rw [if_pos ⟨flush, landed⟩]

theorem enqueueItem_failed {i : Item} {s : State} (flows : flushing s i.q = false)
    (closed : (mediaOf s (i.q / 8)).failed = true ∨ (mediaOf s (i.q / 8)).unserved = true) :
    enqueueItem i s = completeBare i stMediaError (opCells i.op) s := by
  unfold enqueueItem
  rw [if_neg (fun c => Bool.false_ne_true (flows.symm.trans c.1)), if_pos closed]

section
variable {src : Src} {h g : Hdr} {op : ReqOp} {s : State} {psn : Bool} {ext : Side} {data : Line} {slot q : Nat}
  (takes : TakesItem s src h (opCells op)) (head : g = hdrTaken src h) (passes : chkReq s true src op g = .pass slot)
  (queue : q = portOf s g.addr.toNat * 8 + prioOf s src g.sid)
include takes head passes queue

/-- A request that passed meets its queue (R135, R187). -/
theorem request_enqueues : ∃ i u, i = { itemFor src op g psn ext data s with slot := slot, q := q } ∧ Passed s u ∧
    reqReceive src op h psn ext data 0 s = enqueueItem i u :=
  ⟨_, _, rfl, request_passed .., queue ▸ reqReceive_passes takes head passes⟩

end

/-- A queue of which the obligation speaks takes the item or is reset (R187, R199). -/
theorem request_joins {src : Src} {h g : Hdr} {op : ReqOp} {s : State} {slot q : Nat} (psn : Bool) (ext : Side) (data : Line)
    (takes : TakesItem s src h (opCells op)) (head : g = hdrTaken src h) (passes : chkReq s true src op g = .pass slot)
    (queue : q = portOf s g.addr.toNat * 8 + prioOf s src g.sid) (flows : flushing s q = false)
    (works : (mediaOf s (q / 8)).failed = false) (has : (mediaOf s (q / 8)).unserved = false) :
    ∃ u i psn' ext' data', FieldsOf op psn ext data psn' ext' data' ∧ Passed s u ∧
      i = { itemFor src op g psn' ext' data' s with slot := slot, q := q } ∧
      exec (requestOf op src h psn ext data) s = .next (itemJoin i u) := by
  obtain ⟨psn', ext', data', fields, runs⟩ := request_receives op src h psn ext data s
  obtain ⟨i, u, rfl, passed, enters⟩ := request_enqueues (psn := psn') (ext := ext') (data := data') takes head passes queue
  refine ⟨u, _, psn', ext', data', fields, passed, rfl, runs.trans (congrArg Host.Outcome.next (enters.trans ?_))⟩
  have media : mediaOf u (q / 8) = mediaOf s (q / 8) := by rw [passed.frame]; rfl
  exact enqueueItem_joins ((passed.flush q).trans flows) (by rw [media]; exact works) (by rw [media]; exact has)

-- Refusals

/-- A waiting item that ends with a status leaves its answer without data (R168, R180). -/
structure EndedWith (i : Item) (status : Nat) (s t : State) : Prop where
  items : t.pool.items = s.pool.items
  said : ∃ r ∈ rspsOf t i.src, r.tag = i.h.tag ∧ r.status = BitVec.ofNat 8 status ∧ r.data = none

theorem itemFlushed_ended {i : Item} {s : State} (here : i.gone = false) (sound : eqSound s i.src) :
    EndedWith i stFlushed s (itemFlushed i s) where
  items := (itemFlushed_answered fun _ => sound).items
  said := ⟨_, mem_itemFlushed here sound, rfl, rfl, rfl⟩

theorem completeBare_ended {i : Item} {status cells : Nat} {s : State} (here : i.gone = false) (sound : eqSound s i.src) :
    EndedWith i status s (completeBare i status cells s) where
  items := (completeBare_answered fun _ => sound).items
  said := ⟨_, mem_completeBare here sound, rfl, rfl, rfl⟩

/-- A refused request is noted on its link (Table 06.16, R347). -/
def refuseNoted (i : Item) (step status : Nat) (s : State) : State :=
  refuseEvent i.src i.h step status (match i.src with
    | .link p => count1 (linkIdx p.val 4) 2 0 s
    | .master _ => s)

theorem refuseEvent_frame (src : Src) (h : Hdr) (step status : Nat) (s : State) : refuseEvent src h step status s =
    { s with regs := (refuseEvent src h step status s).regs, ev := (refuseEvent src h step status s).ev } := by
  unfold refuseEvent
  split
  · rfl
  · split
    · exact raise_frame ..
    · split
      · exact raise_frame ..
      · rfl

theorem refuseNoted_frame (i : Item) (step status : Nat) (s : State) : refuseNoted i step status s =
    { s with regs := (refuseNoted i step status s).regs, ev := (refuseNoted i step status s).ev } := by
  unfold refuseNoted
  rw [refuseEvent_frame]
  split <;> rfl

theorem refuseReq_eq (i : Item) (step status : Nat) (s : State) :
    refuseReq i step status s = completeBare i status (opCells i.op) (refuseNoted i step status s) := rfl

section
variable {op : ReqOp} {src : Src} {h g : Hdr} {s : State} (psn : Bool) (ext : Side) (data : Line)
  (takes : TakesItem s src h (opCells op)) (head : g = hdrTaken src h)
include takes head

/-- A request whose checks fail is answered with their status (R135, R180). -/
theorem request_refused (sound : eqSound s src) {step status : Nat} (fails : chkReq s true src op g = .fail step status) :
    ∃ t, exec (requestOf op src h psn ext data) s = .next t ∧ t.pool.items = s.pool.items ∧ t.pool.txns = s.pool.txns ∧
      ∃ r ∈ rspsOf t src, r.tag = g.tag ∧ r.sid = g.sid ∧ r.status = BitVec.ofNat 8 status ∧ r.data = none := by
  obtain ⟨psn', ext', data', -, runs⟩ := request_receives op src h psn ext data s
  have refuses := reqReceive_fails (psn := psn') (ext := ext') (data := data') takes head fails
  rw [refuseReq_eq] at refuses
  generalize hu : refuseNoted _ step status _ = u at refuses
  have pool : u.pool = { s.pool with nextArr := s.pool.nextArr + 1 } := by
    rw [← hu, refuseNoted_frame, itemTaken_frame]
  have queue : eqSound u src := fun p own => by rw [pool]; exact sound p own
  have ends := completeBare_answered (it := itemFor src op g psn' ext' data' s) (status := status) (cells := opCells op)
    (s := u) fun _ => queue
  refine ⟨_, runs.trans (congrArg Host.Outcome.next refuses), ends.items.trans (by rw [pool]), ends.txns.trans (by rw [pool]),
    _, mem_completeBare (it := itemFor src op g psn' ext' data' s) rfl queue, rfl, rfl, rfl, rfl⟩

section
variable {slot q : Nat} (sound : eqSound s src) (passes : chkReq s true src op g = .pass slot)
  (queue : q = portOf s g.addr.toNat * 8 + prioOf s src g.sid)
include sound passes queue

/-- One for a queue that is being flushed is answered FLUSHED (R196). -/
theorem request_flushed (flush : flushing s q = true) : ∃ t, exec (requestOf op src h psn ext data) s = .next t ∧
    t.pool.items = s.pool.items ∧ ∃ r ∈ rspsOf t src, r.tag = g.tag ∧ r.status = BitVec.ofNat 8 stFlushed ∧ r.data = none := by
  obtain ⟨psn', ext', data', -, runs⟩ := request_receives op src h psn ext data s
  obtain ⟨i, u, item, passed, enters⟩ := request_enqueues (psn := psn') (ext := ext') (data := data') takes head passes queue
  obtain ⟨rfl, rfl, rfl, started, here⟩ : src = i.src ∧ g = i.h ∧ q = i.q ∧ i.t0 = now s ∧ i.gone = false := by
    subst item
    exact ⟨rfl, rfl, rfl, rfl, rfl⟩
  have clock : now u = now s := by rw [passed.frame]; rfl
  have pool : u.pool = { s.pool with nextArr := s.pool.nextArr + 1 } := by rw [passed.frame]
  have ended := itemFlushed_ended here fun p own => by rw [pool]; exact sound p own
  have flushed := enqueueItem_flushed ((passed.flush _).trans flush) (Nat.le_of_eq (started.trans clock.symm))
  exact ⟨_, runs.trans (congrArg Host.Outcome.next (enters.trans flushed)), ended.items.trans (by rw [pool]), ended.said⟩

/-- One for a failed or unserved port is answered MEDIA_ERROR (R262). -/
theorem request_failed (flows : flushing s q = false)
    (closed : (mediaOf s (q / 8)).failed = true ∨ (mediaOf s (q / 8)).unserved = true) :
    ∃ t, exec (requestOf op src h psn ext data) s = .next t ∧ t.pool.items = s.pool.items ∧
      ∃ r ∈ rspsOf t src, r.tag = g.tag ∧ r.status = BitVec.ofNat 8 stMediaError ∧ r.data = none := by
  obtain ⟨psn', ext', data', -, runs⟩ := request_receives op src h psn ext data s
  obtain ⟨i, u, item, passed, enters⟩ := request_enqueues (psn := psn') (ext := ext') (data := data') takes head passes queue
  obtain ⟨rfl, rfl, rfl, here⟩ : src = i.src ∧ g = i.h ∧ q = i.q ∧ i.gone = false := by
    subst item
    exact ⟨rfl, rfl, rfl, rfl⟩
  have media : mediaOf u (i.q / 8) = mediaOf s (i.q / 8) := by rw [passed.frame]; rfl
  have pool : u.pool = { s.pool with nextArr := s.pool.nextArr + 1 } := by rw [passed.frame]
  have ended := completeBare_ended (status := stMediaError) (cells := opCells i.op) here
    fun p own => by rw [pool]; exact sound p own
  have failed := enqueueItem_failed ((passed.flush _).trans flows) (media ▸ closed)
  exact ⟨_, runs.trans (congrArg Host.Outcome.next (enters.trans failed)), ended.items.trans (by rw [pool]), ended.said⟩

end

end

-- The response queue of a link in mismatch

theorem egressReset_downs (p fld : Nat) (s : State) : ∃ v, egressReset (129 + 2 * p) fld s = linkDown p 2 v := by
  have port : (129 + 2 * p - 128) / 2 = p := by omega
  have odd : (129 + 2 * p) % 2 = 1 := by omega
  unfold egressReset
  rw [port, decide_eq_true odd]
  simp only [if_true]
  exact ⟨_, rfl⟩

/-- A response that joins a queue in mismatch takes its link down (R199, R203). -/
theorem eqJoin_drops {p fld : Nat} {r : Rsp} {s : State} (bad : tabFind s.pool.ptrBad (129 + 2 * p) = some fld) :
    ∃ v, eqJoin p r s = linkDown p 2 v := by
  have still : tabFind (eqPut p (eqOf s p ++ [r]) s).pool.ptrBad (129 + 2 * p) = some fld := bad
  unfold eqJoin
  dsimp only
  rw [still]
  exact egressReset_downs ..

theorem rspSend_link (p : Fin 128) (sid : BitVec 12) (r : Rsp) (cells : Nat) (s : State) :
    rspSend (.link p) sid false r cells s = creditRelease p.val sid.toNat (cells - 1) (eqJoin p.val r s) := rfl

theorem rspSend_drops {p : Fin 128} {fld cells : Nat} {sid : BitVec 12} {r : Rsp} {s : State}
    (bad : tabFind s.pool.ptrBad (129 + 2 * p.val) = some fld) :
    (linkOf (rspSend (.link p) sid false r cells s) p).up = false ∧ eqOf (rspSend (.link p) sid false r cells s) p = [] := by
  obtain ⟨v, drops⟩ := eqJoin_drops (r := r) bad
  have dropped := linkDown_dropped p.val 2 v
  obtain ⟨link, queue⟩ := (creditRelease_fed p.val p.val sid.toNat (cells - 1) _ dropped.isDown.1).self
  rw [rspSend_link, drops, link, queue]
  exact ⟨dropped.isDown.1, dropped.noResponses⟩

/-- A refused request whose answer meets a response queue in mismatch takes the link down (R199). -/
theorem request_drops {op : ReqOp} {p : Fin 128} {h g : Hdr} {s : State} (psn : Bool) (ext : Side) (data : Line)
    (takes : TakesItem s (.link p) h (opCells op)) (head : g = hdrTaken (.link p) h) {fld step status : Nat}
    (bad : tabFind s.pool.ptrBad (129 + 2 * p.val) = some fld) (fails : chkReq s true (.link p) op g = .fail step status) :
    ∃ t, exec (requestOf op (.link p) h psn ext data) s = .next t ∧ (linkOf t p).up = false ∧ eqOf t p = [] := by
  obtain ⟨psn', ext', data', -, runs⟩ := request_receives op (.link p) h psn ext data s
  have refuses := reqReceive_fails (psn := psn') (ext := ext') (data := data') takes head fails
  rw [refuseReq_eq] at refuses
  generalize hu : refuseNoted _ step status _ = u at refuses
  have pool : u.pool = { s.pool with nextArr := s.pool.nextArr + 1 } := by
    rw [← hu, refuseNoted_frame, itemTaken_frame]
  refine ⟨_, runs.trans (congrArg Host.Outcome.next refuses), ?_⟩
  refine rspSend_drops (fld := fld) ?_
  rw [rspStats_frame]
  show tabFind u.pool.ptrBad _ = _
  rw [pool]
  exact bad

-- Protocol errors

theorem linkDropPool_items (p : Nat) (s : State) : (linkDropPool p s).pool.items.length = s.pool.items.length := by
  obtain ⟨f, v, fed, -, done⟩ := linkDropPool_dropped p s
  rw [done, fed.pool]
  exact List.length_map ..

/-- What a drop does to the counters: those of its link and of the block's drops (R213, R346, R347). -/
theorem linkDown_noted (p c : Nat) (s : State) : ∃ e n k, linkDown p c s = linkMod p k (linkDropPool p
    (regPut (linkIdx p 1) 9 0 c (count1 0x6000 8 0 (count1 (linkIdx p 1) 8 0 (raise .linkDown (srcLink p 0) c e n s))))) := by
  unfold linkDown
  exact ⟨_, _, _, rfl⟩

theorem linkDown_items (p c : Nat) (s : State) : (linkDown p c s).pool.items.length = s.pool.items.length := by
  obtain ⟨e, n, k, downs⟩ := linkDown_noted p c s
  rw [downs]
  exact (linkDropPool_items ..).trans (by rw [raise_frame]; rfl)

/-- The counters of the request unit stay in a drop. -/
theorem linkDown_errors {p : Nat} (port : p < 128) (c : Nat) (s : State) : regVal (linkDown p c s) 0x6080 5 0 = regVal s 0x6080 5 0 := by
  have other : ∀ g a, g < 16 → a < 256 → okey 0x6080 5 0 ≠ okey (linkIdx p g) a 0 := fun g a group field same => by
    have index := ((okey_inj _ _ _ _ _ _ (by decide) field (by decide) (by decide)).1 same).1
    unfold linkIdx at index
    omega
  obtain ⟨e, n, k, downs⟩ := linkDown_noted p c s
  rw [downs, regVal_congr (show (linkMod p k _).regs = _ from rfl), linkDropPool_changes]
  show regVal (regPut _ _ _ _ _) 0x6080 5 0 = _
  rw [regVal_regPut_ne _ _ _ _ _ _ _ _ (other 1 9 (by decide) (by decide)), count1, regVal_countUp_ne (by decide +kernel), count1,
    regVal_countUp_ne (other 1 8 (by decide) (by decide)),
    regVal_raise_quiet (by unfold srcLink; omega) ⟨by decide, by decide, by decide, by decide, by decide⟩]

/-- A cut item changes credits alone (R170, R238). -/
theorem creditCut_frame (src : Src) (sid : BitVec 12) (cells : Nat) (s : State) : creditCut src sid cells s = { s with
    links := (creditCut src sid cells s).links, accts := (creditCut src sid cells s).accts
    pastAccts := (creditCut src sid cells s).pastAccts
    pool := { s.pool with eq := (creditCut src sid cells s).pool.eq } } := by
  unfold creditCut
  split
  · rfl
  · dsimp only
    split
    · rfl
    · split
      · rfl
      · have settled := creditSettle_creditFed
        rw [(settled ..).frame, (settled ..).pool]

/-- A request that is a protocol error with its credits passed over (R170, R238). -/
def errorCut (src : Src) (cause cells : Nat) (h : Hdr) (s : State) : State :=
  if cause = 0 then s else creditCut src h.sid cells s

theorem errorCut_frame (src : Src) (cause cells : Nat) (h : Hdr) (s : State) : errorCut src cause cells h s = { s with
    links := (errorCut src cause cells h s).links, accts := (errorCut src cause cells h s).accts
    pastAccts := (errorCut src cause cells h s).pastAccts
    pool := { s.pool with eq := (errorCut src cause cells h s).pool.eq } } := by
  unfold errorCut
  split
  · rfl
  · exact creditCut_frame ..

theorem reqReceive_fault {src : Src} {h : Hdr} {op : ReqOp} {s : State} {cause : Nat} (psn : Bool) (ext : Side) (data : Line)
    (isOpen : srcClosed s src = false) (served : s.pwr.stage = .served) (fault : reqFault s src (hdrTaken src h) = some cause) :
    reqReceive src op h psn ext data 0 s = slotError src cause 0 (hdrOpc (hdrTaken src h) (opCode op)) (hdrTaken src h).tag.toNat
      (errorCut src cause (opCells op) (hdrTaken src h) s) := by
  unfold reqReceive
  rw [isOpen, if_neg Bool.false_ne_true, decide_eq_true served]
  dsimp only
  rw [fault]
  rfl

/-- What a protocol error does to its port (R170, R184). -/
structure Erred (src : Src) (s t : State) : Prop where
  counted : regVal t 0x6080 5 0 = min (regVal s 0x6080 5 0 + 1) (2 ^ 32 - 1)
  items : t.pool.items.length = s.pool.items.length
  downs : ∀ p, src = .link p → (linkOf t p).up = false
  stops : ∀ n, src = .master n → n.val < 5 → n.val ∈ t.pool.masterStop
  keys : t.keys = s.keys
  media : t.media = s.media
  nv : t.nv = s.nv

theorem regVal_errors_counted (s : State) : regVal (count1 0x6080 5 0 s) 0x6080 5 0 = min (regVal s 0x6080 5 0 + 1) (2 ^ 32 - 1) := by
  have large : typeMax 0x6080 5 = 2 ^ 32 - 1 := by decide +kernel
  rw [regVal_count1 (by decide) (by rw [large]; decide), large]

theorem regVal_errors_raise {src : Nat} (fits : src < 2 ^ 24) (e : Ev) (p1 p2 p3 : Nat) (s : State) :
    regVal (raise e src p1 p2 p3 s) 0x6080 5 0 = regVal s 0x6080 5 0 :=
  regVal_raise_quiet fits ⟨by decide, by decide, by decide, by decide, by decide⟩

theorem linkFate_up (p : Nat) (f : FateEnt) (s : State) : (linkOf (linkFate p f s) p).up = (linkOf s p).up := by
  unfold linkFate
  rw [linkOf_linkMod_same]

/-- A protocol error of a link takes it down (R170). -/
theorem slotError_link (p : Fin 128) (cause pos opc tag : Nat) (s : State) :
    Erred (.link p) s (slotError (.link p) cause pos opc tag s) := by
  have source : srcLink p.val 3 < 2 ^ 24 := by
    unfold srcLink
    omega
  generalize hu : raise .slotError (srcLink p.val 3) cause (pos + 256 * opc) tag (count1 0x6080 5 0 s) = u
  have noted : u = { s with regs := u.regs, ev := u.ev } := by
    rw [← hu, raise_frame]
    rfl
  have count : regVal u 0x6080 5 0 = min (regVal s 0x6080 5 0 + 1) (2 ^ 32 - 1) := by
    rw [← hu, regVal_errors_raise source, regVal_errors_counted]
  have erred : Erred (.link p) s (linkDown p.val 2 u) := {
    counted := (linkDown_errors p.isLt 2 u).trans count
    items := (linkDown_items ..).trans (by rw [noted])
    downs := fun q own => by
      cases own
      exact (linkDown_dropped ..).isDown.1
    stops := fun n own => by cases own
    keys := by rw [linkDown_changes, noted]
    media := by rw [linkDown_changes, noted]
    nv := by rw [linkDown_changes, noted] }
  unfold slotError
  dsimp only
  rw [hu]
  split
  · have downs : ∀ f q, Src.link p = .link q → (linkOf (linkFate p.val f (linkDown p.val 2 u)) q).up = false := fun f q own => by
      cases own
      exact (linkFate_up ..).trans (erred.downs p rfl)
    exact { erred with downs := downs _ }
  · exact erred

/-- A protocol error of a master stops it (R184). -/
theorem slotError_master (n : Fin 8) (cause pos opc tag : Nat) (s : State) :
    Erred (.master n) s (slotError (.master n) cause pos opc tag s) := by
  unfold slotError
  dsimp only
  split
  · next unknown =>
    refine ⟨regVal_errors_counted s, rfl, fun p own => ?_, fun m own known => ?_, rfl, rfl, rfl⟩
    · cases own
    · cases own
      omega
  · next known =>
    refine ⟨?_, by rw [raise_frame]; rfl, fun p own => by (cases own), fun m own _ => ?_, by rw [raise_frame]; rfl,
      by rw [raise_frame]; rfl, by rw [raise_frame]; rfl⟩
    · exact (regVal_errors_raise (by unfold srcGlobal; omega) ..).trans (regVal_errors_counted s)
    · cases own
      exact mem_insertNat.2 (.inl rfl)

theorem slotError_erred (src : Src) (cause pos opc tag : Nat) (s : State) : Erred src s (slotError src cause pos opc tag s) := by
  cases src with
  | link p => exact slotError_link ..
  | master n => exact slotError_master ..

/-- A request that is a protocol error is counted, and takes the link down or stops the master (R170, R184). -/
theorem request_errs {op : ReqOp} {src : Src} {h : Hdr} {s : State} {cause : Nat} (psn : Bool) (ext : Side) (data : Line)
    (isOpen : srcClosed s src = false) (served : s.pwr.stage = .served) (fault : reqFault s src (hdrTaken src h) = some cause) :
    ∃ t, exec (requestOf op src h psn ext data) s = .next t ∧ Erred src s t := by
  obtain ⟨psn', ext', data', -, runs⟩ := request_receives op src h psn ext data s
  refine ⟨_, runs.trans (congrArg Host.Outcome.next (reqReceive_fault psn' ext' data' isOpen served fault)), ?_⟩
  generalize hu : errorCut src cause (opCells op) (hdrTaken src h) s = u
  have cut : u = { s with links := u.links, accts := u.accts, pastAccts := u.pastAccts, pool := { s.pool with eq := u.pool.eq } } := by
    rw [← hu, ← errorCut_frame]
  have erred := slotError_erred src cause 0 (hdrOpc (hdrTaken src h) (opCode op)) (hdrTaken src h).tag.toNat u
  exact { erred with
    counted := by rw [erred.counted, cut]; rfl
    items := erred.items.trans (by rw [cut])
    keys := erred.keys.trans (by rw [cut])
    media := erred.media.trans (by rw [cut])
    nv := erred.nv.trans (by rw [cut]) }

/-- Settles O28. -/
theorem requestsEnterTheirQueueOrAreAnswered : Obligations.RequestsEnterTheirQueueOrAreAnswered := by
  unfold Obligations.RequestsEnterTheirQueueOrAreAnswered
  refine ⟨fun op src h g psn ext data slot q s takes head passes queue flows works has => ?_,
    fun op src h g psn ext data s takes head => ⟨fun sound => ⟨fun step status fails =>
      request_refused psn ext data takes head sound fails, fun slot q passes queue =>
        ⟨request_flushed psn ext data takes head sound passes queue, request_failed psn ext data takes head sound passes queue⟩⟩,
      fun p fld step status own bad fails => ?_⟩,
    fun op src h psn ext data cause s isOpen served fault => ?_⟩
  · obtain ⟨u, i, psn', ext', data', fields, passed, item, runs⟩ :=
      request_joins psn ext data takes head passes queue flows works has
    have own : i.q = q := by rw [item]
    have bad : tabFind u.pool.ptrBad i.q = tabFind s.pool.ptrBad q := by rw [own, passed.frame]
    refine ⟨fun fine => ⟨itemPlaced i u, i, runs.trans (congrArg Host.Outcome.next (itemJoin_sound (bad.trans fine))), ?_⟩,
      fun fld mismatch => ⟨itemPlaced i u, i,
        runs.trans (congrArg Host.Outcome.next ((itemJoin_mismatch (bad.trans mismatch)).trans (by rw [own]))), ?_⟩⟩
    · rw [itemPlaced_frame, passed.frame]
      subst item
      exact ⟨rfl, rfl, rfl, rfl, rfl, rfl, rfl, rfl, rfl, fields.poison, fields.line, fields.extra, rfl, rfl, fun r there => there, rfl⟩
    · rw [itemPlaced_frame, passed.frame]
      subst item
      exact ⟨rfl, rfl, rfl, rfl, rfl⟩
  · subst own
    exact request_drops psn ext data takes head bad fails
  · obtain ⟨t, runs, erred⟩ := request_errs psn ext data isOpen served fault
    exact ⟨t, runs, erred.counted, erred.items, erred.downs, erred.stops, erred.keys, erred.media, erred.nv⟩

end Sys2Proof.Machine

/-! OBLIGATION. Contexts take lines (R146, R148, R149). -/

namespace Sys2Proof.Machine

-- The poll of the rekey engine

/-- What the poll of the rekey engine does to a context: it stays, or at the end of its walk its completion is queued
(R153). -/
def CtxPolled (s t : State) (n : Nat) : Prop :=
  ctxOf t n = ctxOf s n ∨
    ((ctxOf s n).bound = walkEnd ∧ ctxOf t n = { ctxOf s n with st := .completing, doneQueued := true })

theorem CtxPolled.trans {s t u : State} {n : Nat} (h : CtxPolled s t n) (g : CtxPolled t u n) : CtxPolled s u n := by
  rcases h with stays | ⟨ended, queued⟩
  · unfold CtxPolled at g
    rw [stays] at g
    exact g
  · rcases g with stays | ⟨-, again⟩
    · exact .inr ⟨ended, stays.trans queued⟩
    · exact .inr ⟨ended, by rw [again, queued]⟩

/-- A context whose conditions hold queues its completion records (R153). -/
def ctxPoll (s : State) (n : Nat) : State :=
  if ctxDone s n then
    nvPush { recs := doneRecs s n, act := .passDone n } (ctxPut n { ctxOf s n with st := .completing, doneQueued := true } s)
  else s

theorem rkPoll_eq (s : State) : rkPoll s = if s.pwr.phase ≠ .service then s else (List.range 64).foldl ctxPoll s := rfl

theorem ctxPoll_polled (s : State) (k n : Nat) : CtxPolled s (ctxPoll s k) n := by
  unfold ctxPoll
  split
  · next isDone =>
    have pushed : ∀ j t, ctxOf (nvPush j t) n = ctxOf t n := fun j t => ctxOf_congr (by rw [nvPush_frame]) n
    unfold CtxPolled
    rw [pushed, ctxOf_ctxPut]
    split
    · next same =>
      subst same
      unfold ctxDone at isDone
      simp only [Bool.and_eq_true, decide_eq_true_eq] at isDone
      exact .inr ⟨isDone.1.1.1.2, rfl⟩
    · exact .inl rfl
  · exact .inl rfl

theorem rkPoll_polled (s : State) (n : Nat) : CtxPolled s (rkPoll s) n := by
  rw [rkPoll_eq]
  split
  · exact .inl rfl
  · next service =>
    clear service
    generalize List.range 64 = l
    induction l generalizing s with
    | nil => exact .inl rfl
    | cons k l ih => exact (ctxPoll_polled s k n).trans (ih _)

-- A take

/-- What a walk holds: its taken lines, its boundary, its takes of the frame, and its ahead set. -/
def walkOf (c : Ctx) : List StepLine × Nat × Nat × List AheadEnt := (c.steps, c.bound, c.takes, c.ahead)

theorem rkPoll_walk (s : State) (n : Nat) : walkOf (ctxOf (rkPoll s) n) = walkOf (ctxOf s n) := by
  rcases rkPoll_polled s n with stays | ⟨-, queued⟩
  · rw [stays]
  · rw [queued]
    rfl

theorem extents_congr {s t : State} (cfg : t.cfg = s.cfg) (k : Nat) : extents t false k = extents s false k := by
  unfold extents viewVal cfgVal
  simp only [Bool.false_eq_true, if_false]
  rw [cfg]

theorem walkLo_congr {c d : Ctx} (cause : d.cause = c.cause) (marks : d.marks = c.marks) (x : Extent) :
    walkLo d x = walkLo c x := by
  unfold walkLo
  rw [cause, marks]

theorem ctxWalk_congr {s t : State} {c d : Ctx} (cfg : t.cfg = s.cfg) (kidx : d.kidx = c.kidx)
    (cause : d.cause = c.cause) (marks : d.marks = c.marks) (a : Nat) : ctxWalk t d a = ctxWalk s c a := by
  unfold ctxWalk
  rw [kidx, extents_congr cfg]
  simp only [walkLo_congr cause marks]

theorem boundSet_put {n b : Nat} {x : Ctx} {s : State} (cause : x.cause ≤ 2) :
    boundSet n b (ctxPut n x s) = ctxPut n { x with bound := b } (ctxPut n x s) := by
  unfold boundSet
  dsimp only
  rw [ctxOf_ctxPut, if_pos rfl]
  exact if_neg (by omega)

/-- The walk moved on by a line (R146, R155). -/
structure WalkMoved (s : State) (n : Nat) (t : State) : Prop where
  steps : (ctxOf t n).steps = (ctxOf s n).steps
  ahead : (ctxOf t n).ahead = (ctxOf s n).ahead
  bound : (ctxOf t n).bound = ctxWalk s (ctxOf s n) ((ctxOf s n).bound + 1)
  takes : (ctxOf t n).takes = (ctxOf s n).takes + 1
  frame : t = { s with rk := t.rk, regs := t.regs, nvu := t.nvu, ev := t.ev }

/-- A context counts its take (R152, R155). -/
def takeCounted (c : Ctx) : Ctx := { c with takes := c.takes + 1, sinceCkpt := c.sinceCkpt + 1 }

/-- The boundary after a take (R146). -/
def walkStepped (n : Nat) (s : State) : State :=
  boundSet n (ctxWalk (ctxPut n (takeCounted (ctxOf s n)) s) (ctxOf s n) ((ctxOf s n).bound + 1))
    (ctxPut n (takeCounted (ctxOf s n)) s)

theorem takeMove_eq (n : Nat) (s : State) : takeMove n s = if 4096 ≤ (ctxOf s n).sinceCkpt + 1 then
    ctxPut n { ctxOf (walkStepped n s) n with sinceCkpt := 0 } (ckptPush n 0 false (walkStepped n s))
  else walkStepped n s := rfl

theorem ctxOf_ctxPut_same (n : Nat) (x : Ctx) (s : State) : ctxOf (ctxPut n x s) n = x := (ctxOf_ctxPut ..).trans (if_pos rfl)

theorem walkStepped_moves {n : Nat} {s : State} (cause : (ctxOf s n).cause ≤ 2) : WalkMoved s n (walkStepped n s) := by
  have walks : ctxWalk (ctxPut n (takeCounted (ctxOf s n)) s) (ctxOf s n) ((ctxOf s n).bound + 1) =
      ctxWalk s (ctxOf s n) ((ctxOf s n).bound + 1) := ctxWalk_congr rfl rfl rfl rfl _
  unfold walkStepped
  rw [boundSet_put (x := takeCounted (ctxOf s n)) cause, walks]
  exact ⟨by rw [ctxOf_ctxPut_same]; rfl, by rw [ctxOf_ctxPut_same]; rfl, by rw [ctxOf_ctxPut_same], by rw [ctxOf_ctxPut_same]; rfl, rfl⟩

theorem takeMove_moves {n : Nat} {s : State} (cause : (ctxOf s n).cause ≤ 2) : WalkMoved s n (takeMove n s) := by
  have moved := walkStepped_moves cause
  rw [takeMove_eq]
  split
  · unfold ckptPush
    refine ⟨by rw [ctxOf_ctxPut_same]; exact moved.steps, by rw [ctxOf_ctxPut_same]; exact moved.ahead,
      by rw [ctxOf_ctxPut_same]; exact moved.bound, by rw [ctxOf_ctxPut_same]; exact moved.takes, ?_⟩
    rw [nvPush_frame, moved.frame]
    rfl
  · exact moved

/-- A line taken by a step enters it (R146). -/
def stepTaken (n : Nat) (s : State) : State :=
  ctxPut n { ctxOf s n with
    steps := (ctxOf s n).steps ++ [{ addr := (ctxOf s n).bound, port := portOf s (ctxOf s n).bound }] } s

section
variable {n : Nat} {s : State} (next : (ctxOf s n).cause ≤ 2)
include next

theorem takeLine_under (now : flightUnder s (ctxOf s n).bound (ctxOf s n).kidx (ctxTo (ctxOf s n)) = true) :
    takeLine n s = takeMove n s := by
  unfold takeLine
  dsimp only
  rw [if_pos next, if_pos now]

theorem takeLine_ahead (old : flightUnder s (ctxOf s n).bound (ctxOf s n).kidx (ctxTo (ctxOf s n)) = false)
    (under : flightUnder s (ctxOf s n).bound (ctxOf s n).kidx (ctxOf s n).gen = true) :
    takeLine n s = if aheadFull (ctxOf s n) ∧ aheadHas (ctxOf s n) (ctxOf s n).bound = false then s
      else takeMove n (aheadAdd n (ctxOf s n).bound s) := by
  unfold takeLine
  dsimp only
  rw [if_pos next, old, if_neg Bool.false_ne_true, if_pos under]

theorem takeLine_step (old : flightUnder s (ctxOf s n).bound (ctxOf s n).kidx (ctxTo (ctxOf s n)) = false)
    (idle : flightUnder s (ctxOf s n).bound (ctxOf s n).kidx (ctxOf s n).gen = false) :
    takeLine n s = takeMove n (stepTaken n s) := by
  unfold takeLine
  dsimp only
  rw [if_pos next, old, if_neg Bool.false_ne_true, idle, if_neg Bool.false_ne_true]
  rfl

end

/-- A line entered in the ahead set is in it, and the rest of the walk stays (R148). -/
structure AheadEntered (s : State) (n a : Nat) (t : State) : Prop where
  has : aheadHas (ctxOf t n) a = true
  same : (ctxOf t n).kidx = (ctxOf s n).kidx ∧ (ctxOf t n).cause = (ctxOf s n).cause ∧
    (ctxOf t n).marks = (ctxOf s n).marks ∧ (ctxOf t n).bound = (ctxOf s n).bound
  frame : t = { s with rk := t.rk, regs := t.regs }

theorem aheadAdd_entered (n a : Nat) (s : State) : AheadEntered s n a (aheadAdd n a s) := by
  unfold aheadAdd
  dsimp only
  split
  · next has =>
    refine ⟨?_, ?_, rfl⟩
    · rw [ctxOf_ctxPut_same]
      unfold aheadHas at has ⊢
      obtain ⟨e, there, same⟩ := List.any_eq_true.1 has
      refine List.any_eq_true.2 ⟨_, List.mem_map.2 ⟨e, there, rfl⟩, ?_⟩
      split <;> exact same
    · rw [ctxOf_ctxPut_same]
      exact ⟨rfl, rfl, rfl, rfl⟩
  · have counted : ∀ x, ctxOf (count1 (0x3A00 + 8 * n) 0x13 0 (ctxPut n x s)) n = x := fun x => ctxOf_ctxPut_same n x s
    refine ⟨?_, ?_, rfl⟩
    · rw [counted]
      exact List.any_eq_true.2 ⟨_, List.mem_append_right _ List.mem_cons_self, beq_self_eq_true _⟩
    · rw [counted]
      exact ⟨rfl, rfl, rfl, rfl⟩

theorem aheadTaken_moves {n a : Nat} {s : State} (next : (ctxOf s n).cause ≤ 2) :
    WalkMoved (aheadAdd n a s) n (takeMove n (aheadAdd n a s)) :=
  takeMove_moves (by rw [(aheadAdd_entered n a s).same.2.1]; exact next)

theorem stepTaken_moves {n : Nat} {s : State} (next : (ctxOf s n).cause ≤ 2) :
    WalkMoved (stepTaken n s) n (takeMove n (stepTaken n s)) :=
  takeMove_moves (by unfold stepTaken; rw [ctxOf_ctxPut_same]; exact next)

/-- A take changes the engine's own tables, its counts and the record queue (R146, R155). -/
theorem takeLine_frame {n : Nat} {s : State} (next : (ctxOf s n).cause ≤ 2) : takeLine n s = { s with
    rk := (takeLine n s).rk, regs := (takeLine n s).regs, nvu := (takeLine n s).nvu, ev := (takeLine n s).ev } := by
  cases new : flightUnder s (ctxOf s n).bound (ctxOf s n).kidx (ctxTo (ctxOf s n)) with
  | true =>
    rw [takeLine_under next new]
    exact (takeMove_moves next).frame
  | false =>
    cases old : flightUnder s (ctxOf s n).bound (ctxOf s n).kidx (ctxOf s n).gen with
    | true =>
      rw [takeLine_ahead next new old]
      split
      · rfl
      · rw [(aheadTaken_moves next).frame, (aheadAdd_entered ..).frame]
    | false =>
      rw [takeLine_step next new old, (stepTaken_moves next).frame]
      rfl

section
variable {n : Fin 64} {s : State} (may : takeOk s n = true) (next : (ctxOf s n).cause ≤ 2)
  (live : portDead s (portOf s (ctxOf s n).bound) = false)
include may next live

/-- A context that may take a line takes it, and the engine is polled (R146). -/
theorem rekeyTake_takes : exec (.rekeyTake n) s = .next (rkPoll (takeLine n s)) := by
  refine congrArg Host.Outcome.next ?_
  have still : portDead (takeLine n s) (portOf s (ctxOf s n).bound) = false := by
    rw [takeLine_frame next]
    exact live
  unfold doRekeyTake
  rw [if_pos may]
  dsimp only
  rw [still, if_neg Bool.false_ne_true]

end

theorem walkOf_eq {c d : Ctx} (same : walkOf c = walkOf d) :
    c.steps = d.steps ∧ c.bound = d.bound ∧ c.takes = d.takes ∧ c.ahead = d.ahead := by
  unfold walkOf at same
  simpa only [Prod.mk.injEq] using same

/-- Settles O36. -/
theorem contextsTakeLines : Obligations.ContextsTakeLines := by
  unfold Obligations.ContextsTakeLines
  intro n c s may head next live
  subst head
  obtain ⟨steps, bound, takes, ahead⟩ := walkOf_eq (rkPoll_walk (takeLine n s) n)
  refine ⟨_, rekeyTake_takes may next live, by rw [rkPoll_frame, takeLine_frame next], by rw [rkPoll_frame, takeLine_frame next],
    by rw [rkPoll_frame, takeLine_frame next], fun new old => ?_, fun new => ?_, fun new old => ⟨fun room => ?_, fun absent full => ?_⟩⟩
  · have moved := stepTaken_moves next
    have taken := takeLine_step next new old
    have put : ctxOf (stepTaken n s) n = _ := ctxOf_ctxPut_same ..
    rw [steps, bound, takes, taken, moved.steps, moved.bound, moved.takes, put]
    exact ⟨rfl, ctxWalk_congr rfl rfl rfl rfl _, rfl⟩
  · have moved := takeMove_moves next
    rw [steps, bound, takeLine_under next new]
    exact ⟨moved.steps, moved.bound⟩
  · have moved := aheadTaken_moves (a := (ctxOf s n).bound) next
    have entered := aheadAdd_entered n (ctxOf s n).bound s
    have taken : takeLine n s = takeMove n (aheadAdd n (ctxOf s n).bound s) := by
      rw [takeLine_ahead next new old]
      refine if_neg fun closed => ?_
      rcases room with has | free
      · exact Bool.false_ne_true (closed.2.symm.trans has)
      · exact Bool.false_ne_true (free.symm.trans closed.1)
    obtain ⟨kidx, cause, marks, at'⟩ := entered.same
    unfold aheadHas
    rw [ahead, bound, taken, moved.ahead, moved.bound, at']
    exact ⟨entered.has, ctxWalk_congr (by rw [entered.frame]) kidx cause marks _⟩
  · rw [bound, takeLine_ahead next new old, if_pos ⟨full, absent⟩]

end Sys2Proof.Machine

/-! OBLIGATION. Passes start and complete: a counterexample. -/

namespace Sys2Proof.Machine

/-- A slot number past every slot: the mark of its extent 0 stands at the number of the event count of context 0. -/
def farSlot : Nat := 1128268017

/-- A format pass of that slot whose completion record was confirmed in the frame before. -/
def farFormatDone : State := { State.reset with
  clk := { running := true, frame := 1#56 }
  cfg := [(okey 0x4003 3 (farSlot * 4), 1)]
  rk := { State.reset.rk with ctxs := [(0, { st := .completing, kidx := farSlot, cause := 3, doneConf := some 0 })] } }

end Sys2Proof.Machine

namespace Sys2Proof
open Sys2Proof.Machine

/-- Refutes O38: the slot of a context is any number in the statement, and past the slots that exist the mark that a
format pass leaves can share its store number with a count of the event unit. EV_REKEY_DONE then counts in the mark's
place, so the mark does not stand at the line past its extent. -/
theorem not_passesStartAndComplete : ¬ Obligations.PassesStartAndComplete := by
  unfold Obligations.PassesStartAndComplete
  rintro ⟨-, ends⟩
  obtain ⟨-, -, format, -⟩ := ends 0 (ctxOf farFormatDone 0) (slotOf farFormatDone farSlot) farFormatDone rfl rfl
    (by decide +kernel)
  obtain ⟨t, next, -, marks, -⟩ := format (by decide +kernel)
  obtain rfl : doFormatComplete 0 farFormatDone = t := Host.Outcome.next.inj next
  have past := marks { e := 0, base := 0, limit := 0 } (by decide +kernel) (by decide +kernel) (by decide +kernel)
  exact absurd past (by decide +kernel)

end Sys2Proof

/-! SUPPORT. What the settling of a held line leaves of the slices and the media ports (R296, R297). -/

namespace Sys2Proof.Machine

/-- The slices with the lines that they hold, and the media ports. -/
def State.sliced (s : State) : Repair × Tab Media := (s.rep, s.media)

theorem txnFinish_sliced (t : Txn) (status : Nat) (s : State) : (txnFinish t status s).sliced = s.sliced := by
  rw [txnFinish_frame]
  rfl

theorem readReply_sliced (t : Txn) (status : Nat) (data : Option Line) (psn : Bool) (extra : Side) (s : State) :
    (readReply t status data psn extra s).sliced = s.sliced := by
  rw [readReply_frame]
  rfl

theorem raise_sliced (e : Ev) (src a b c : Nat) (s : State) : (raise e src a b c s).sliced = s.sliced := by
  rw [raise_frame]
  rfl

theorem rkPoll_sliced (s : State) : (rkPoll s).sliced = s.sliced := by
  rw [rkPoll_frame]
  rfl

theorem lineFault_sliced (n a status row : Nat) (s : State) : (lineFault n a status row s).sliced = s.sliced := by
  unfold lineFault
  rw [raise_sliced]
  split <;> rfl

theorem stepSkip_sliced (n a : Nat) (s : State) : (stepSkip n a s).sliced = s.sliced := rkPoll_sliced _

theorem stepFail_sliced (n a status row : Nat) (s : State) : (stepFail n a status row s).sliced = s.sliced :=
  (rkPoll_sliced _).trans (lineFault_sliced ..)

theorem deliver_sliced (o : MOwner) (row status : Nat) (pt : Line) (line : BitVec 576) (s : State) :
    (deliver o row status pt line s).sliced = s.sliced := by
  unfold deliver
  split
  · split
    · rfl
    · split
      · split
        · unfold partialMerge
          rw [txnConsume_frame]
          rfl
        · exact txnFinish_sliced ..
      · exact readReply_sliced ..
  · split
    · rfl
    · exact lineFault_sliced ..
  · rfl

theorem deliverGood_sliced (o : MOwner) (line : BitVec 576) (ks : List Block) (s : State) :
    (deliverGood o line ks s).sliced = s.sliced := by
  unfold deliverGood
  dsimp only
  split
  · exact deliver_sliced ..
  · exact deliver_sliced ..

theorem deliverNone_sliced (o : MOwner) (row status : Nat) (s : State) : (deliverNone o row status s).sliced = s.sliced := by
  unfold deliverNone
  split
  · split
    · rfl
    · split
      · exact txnFinish_sliced ..
      · exact readReply_sliced ..
  · split
    · exact stepSkip_sliced ..
    · exact stepFail_sliced ..
  · rfl

theorem tagFailNote_sliced (k a sl : Nat) (torn total : Bool) (echo : Nat) (s : State) :
    (tagFailNote k a sl torn total echo s).sliced = s.sliced := by
  unfold tagFailNote
  dsimp only
  rw [raise_sliced]
  split <;> rfl

theorem tagFailCount_sliced (k : Nat) (s : State) : (tagFailCount k s).sliced = s.sliced := by
  unfold tagFailCount
  dsimp only
  split
  · rw [raise_sliced]
    split
    · rw [nextGenCause_frame]
      rfl
    · rfl
  · rfl

theorem ownerSt_sliced (o : MOwner) (st : TxSt) (s : State) : (ownerSt o st s).sliced = s.sliced := by
  unfold ownerSt
  split
  · split <;> rfl
  · rfl

theorem taglineMedia_sliced (tl w : Nat) (s : State) : (taglineMedia tl w s).sliced = s.sliced := raise_sliced ..

theorem fetchAsk_sliced (tl k : Nat) (owners : List MOwner) (wb : Bool) (s : State) :
    (fetchAsk tl k owners wb s).sliced = s.sliced := by
  unfold fetchAsk
  split
  · split
    · rfl
    · exact taglineMedia_sliced ..
  · split <;> rfl

theorem tagFetchLost_sliced (h : Hold) (s : State) : (tagFetchLost h s).sliced = s.sliced := by
  unfold tagFetchLost
  split
  · exact lineFault_sliced ..
  · exact deliverNone_sliced ..

-- What a settled line leaves

/-- Where a settled line goes on, what is held stays held, what it adds waits for no vote, and what is issued stays issued
(R296). -/
structure GoesOn (s t : State) : Prop where
  holds : ∃ more, t.rep.holds = s.rep.holds ++ more ∧ ∀ y ∈ more, y.kind ≠ .vote
  writes : ∀ m, ∀ o ∈ (mediaOf s m).fifoW, o ∈ (mediaOf t m).fifoW

namespace GoesOn
variable {s t u : State}

theorem of_sliced (same : t.sliced = s.sliced) : GoesOn s t where
  holds := ⟨[], by rw [List.append_nil, show t.rep = s.rep from congrArg Prod.fst same], fun _ none => by cases none⟩
  writes m o there := by rwa [mediaOf_congr (congrArg Prod.snd same)]

theorem trans (h : GoesOn s t) (g : GoesOn t u) : GoesOn s u where
  holds := by
    obtain ⟨first, eq, ok⟩ := h.holds
    obtain ⟨later, eq', ok'⟩ := g.holds
    exact ⟨first ++ later, by rw [eq', eq, List.append_assoc], fun y there => (List.mem_append.1 there).elim (ok y) (ok' y)⟩
  writes m o there := g.writes m o (h.writes m o there)

theorem kept (h : GoesOn s t) {y : Hold} (there : y ∈ s.rep.holds) : y ∈ t.rep.holds := by
  obtain ⟨more, eq, -⟩ := h.holds
  rw [eq]
  exact List.mem_append_left _ there

theorem absent (h : GoesOn s t) {y : Hold} (vote : y.kind = .vote) (gone : y ∉ s.rep.holds) : y ∉ t.rep.holds := fun there => by
  obtain ⟨more, eq, other⟩ := h.holds
  rw [eq] at there
  exact (List.mem_append.1 there).elim gone fun new => other y new vote

/-- A line held on for its tag line or for a recompute (R69, R82). -/
theorem hold {y : Hold} (other : y.kind ≠ .vote) (s : State) :
    GoesOn s { s with rep := { s.rep with holds := s.rep.holds ++ [y] } } where
  holds := ⟨[y], rfl, fun z there => by rwa [List.mem_singleton.1 there]⟩
  writes _ _ there := there

end GoesOn

theorem readVerify_goesOn (h : Hold) (d : Line) (s : State) : GoesOn s (readVerify h d s) := by
  unfold readVerify
  dsimp only
  split
  · refine .of_sliced ((deliver_sliced ..).trans ?_)
    split
    · exact tagFailNote_sliced ..
    · exact (tagFailCount_sliced ..).trans (tagFailNote_sliced ..)
  · split
    · exact .of_sliced (deliverGood_sliced ..)
    · exact (GoesOn.hold (y := { h with kind := .schk }) (by simp) s).trans (.of_sliced (ownerSt_sliced ..))

theorem readTagged_goesOn (h : Hold) (s : State) : GoesOn s (readTagged h s) := by
  unfold readTagged
  split
  · split
    · exact readVerify_goesOn ..
    · next tl e _ =>
      split
      · exact readVerify_goesOn ..
      · split
        · exact .of_sliced (tagFetchLost_sliced ..)
        · split
          · exact .of_sliced ((tagFetchLost_sliced ..).trans (taglineMedia_sliced ..))
          · have held := (GoesOn.hold (y := { h with kind := .tag }) (by simp) s).trans
              (.of_sliced (ownerSt_sliced h.owner .tagWait _))
            dsimp only
            split
            · exact held
            · exact held.trans (.of_sliced (fetchAsk_sliced ..))
  · exact readVerify_goesOn ..

/-- A write that goes on is the last in the write queue of its port. -/
structure WriteGoes (s t : State) (m : Nat) (o : MOp) : Prop where
  rep : t.rep = s.rep
  media : ∀ n, (mediaOf t n).fifoW = if n = m then (mediaOf s m).fifoW ++ [o] else (mediaOf s n).fifoW

theorem WriteGoes.goesOn {s t : State} {m : Nat} {o : MOp} (h : WriteGoes s t m o) : GoesOn s t where
  holds := ⟨[], by rw [List.append_nil, h.rep], fun _ none => by cases none⟩
  writes n p there := by
    rw [h.media n]
    split
    · next here => exact List.mem_append_left _ (here ▸ there)
    · exact there

theorem WriteGoes.issued {s t : State} {m : Nat} {o : MOp} (h : WriteGoes s t m o) : o ∈ (mediaOf t m).fifoW := by
  rw [h.media m, if_pos rfl]
  exact List.mem_append_right _ List.mem_cons_self

theorem writeIssue_goes (w : WriteReq) (ks : List Block) (f : Faults) (s : State) :
    WriteGoes s (writeIssue w ks f s) w.port (issuedOp w ks s) := by
  obtain ⟨t, runs, issued⟩ := writeIssue_issues w ks f s
  rw [runs]
  refine ⟨by rw [ownerIssued_frame, issued.frame], fun n => ?_⟩
  rw [mediaOf_congr (s := t) (by rw [ownerIssued_frame]), issued.media n]
  split <;> rfl

/-- The write of a purge step that went through a vote (R160). -/
def purgeOp (n a : Nat) (pay : Line) (g : BitVec 32) (c : BitVec 24) (s : State) : MOp :=
  { kind := .write, addr := a, data := mediaJoin pay 0, owner := .step n a, kidx := (ctxOf s n).kidx, gen := g, lctr := c
    counted := true, seq := s.mseq, cyc := now s }

theorem purgePut_goes (m n a : Nat) (pay : Line) (g : BitVec 32) (c : BitVec 24) (s : State) :
    WriteGoes s (purgePut m n a pay (some (g, c)) s) m (purgeOp n a pay g c s) := by
  refine ⟨rfl, fun k => ?_⟩
  rw [mediaOf_congr (s := issueW m (purgeOp n a pay g c s) s) (t := purgePut m n a pay (some (g, c)) s) rfl]
  unfold issueW
  rw [mediaOf_mediaMod]
  split <;> rfl

/-- What a line that a vote has settled is written as (R160, R296). -/
def votedOp (h : Hold) (ks : List Block) (s : State) : MOp :=
  match h.owner, ownerPurges s h.owner with
  | .step n a, true => purgeOp n a (ksLine ks) h.gen h.lctr s
  | _, _ => issuedOp { owner := h.owner, kidx := h.kidx, addr := h.addr, port := h.port, pt := h.line.setWidth 512
                       psn := h.poison, gen := h.gen, lctr := h.lctr, h := h.h } ks s

theorem voteContinue_writes {h : Hold} {ks : List Block} {f : Faults} {s : State} (writes : h.dir = .w) :
    WriteGoes s (voteContinue h ks f s) h.port (votedOp h ks s) := by
  unfold voteContinue votedOp
  rw [writes]
  dsimp only
  cases owner : h.owner with
  | step n a =>
    cases purges : ownerPurges s (.step n a) with
    | true => exact purgePut_goes ..
    | false => exact writeIssue_goes ..
  | _ => exact writeIssue_goes ..

theorem voteContinue_goesOn (h : Hold) (ks : List Block) (f : Faults) (s : State) : GoesOn s (voteContinue h ks f s) := by
  cases dir : h.dir with
  | w => exact (voteContinue_writes dir).goesOn
  | r =>
    unfold voteContinue
    rw [dir]
    exact readTagged_goesOn ..

end Sys2Proof.Machine

/-! OBLIGATION. Votes and recomputes of held lines (R69, R296 to R298). -/

namespace Sys2Proof.Machine

-- What a vote does to the machine

/-- What a vote and its release leave: what is held and not named stays, a line for a vote that is not held is not held
again, and what is issued stays issued (R296, R298). -/
structure VotesFall (l : List Hold) (s t : State) : Prop where
  kept : ∀ y, y ∉ l → y ∈ s.rep.holds → y ∈ t.rep.holds
  absent : ∀ y, y.kind = .vote → y ∉ s.rep.holds → y ∉ t.rep.holds
  writes : ∀ m, ∀ o ∈ (mediaOf s m).fifoW, o ∈ (mediaOf t m).fifoW

theorem VotesFall.trans {l : List Hold} {s t u : State} (h : VotesFall l s t) (g : VotesFall l t u) : VotesFall l s u where
  kept y other there := g.kept y other (h.kept y other there)
  absent y vote gone := g.absent y vote (h.absent y vote gone)
  writes m o there := g.writes m o (h.writes m o there)

theorem VotesFall.of_goesOn {l : List Hold} {s t : State} (goes : GoesOn s t) : VotesFall l s t where
  kept _ _ there := goes.kept there
  absent _ vote gone := goes.absent vote gone
  writes := goes.writes

theorem mem_holdDel {h y : Hold} {s : State} : y ∈ (holdDel h s).rep.holds ↔ y ∈ s.rep.holds ∧ y ≠ h := by
  unfold holdDel
  simp [List.mem_filter]

theorem holdDel_votes {l : List Hold} {h : Hold} (named : h ∈ l) (s : State) : VotesFall l s (holdDel h s) where
  kept _ other there := mem_holdDel.2 ⟨there, fun same => other (same ▸ named)⟩
  absent _ _ gone there := gone (mem_holdDel.1 there).1
  writes _ _ there := there

/-- The lines that a decided vote lets go (R298). -/
def released (h : Hold) (s : State) : List Hold :=
  s.rep.holds.filter (fun y => y.slice == h.slice && y.kind == .vote && y.dir == h.dir && y.duty == h.duty && !y.again && y != h)

theorem not_mem_released (h : Hold) (s : State) : h ∉ released h s := by
  unfold released
  simp [List.mem_filter]

theorem voteRelease_votes (h : Hold) (chk : Bool) (s : State) : VotesFall (released h s) s (voteRelease h chk s) := by
  have each : ∀ l k : List Hold, (∀ y ∈ l, y ∈ k) → ∀ t, VotesFall k t
      (l.foldl (fun s y => voteContinue y (if chk then y.chk else y.ks) {} (holdDel y s)) t) := by
    intro l k
    induction l with
    | nil => exact fun _ t => ⟨fun _ _ there => there, fun _ _ gone => gone, fun _ _ there => there⟩
    | cons y l ih =>
      intro named t
      rw [List.foldl_cons]
      exact ((holdDel_votes (named y List.mem_cons_self) t).trans (.of_goesOn (voteContinue_goesOn ..))).trans
        (ih (fun z there => named z (List.mem_cons_of_mem _ there)) _)
  exact each _ _ (fun _ there => there) s

/-- What charging a pipe or a check does: counts, events, and the slices' own records (R295, R298, R299). -/
structure Charged (s t : State) : Prop where
  frame : t = { s with regs := t.regs, ev := t.ev, rep := { s.rep with slices := t.rep.slices } }

namespace Charged
variable {s t u : State}

theorem refl (s : State) : Charged s s := ⟨rfl⟩

theorem trans (h : Charged s t) (g : Charged t u) : Charged s u := ⟨by rw [g.frame, h.frame]⟩

theorem of_note (h : t = { s with regs := t.regs, ev := t.ev }) : Charged s t := ⟨by rw [h]⟩

theorem slicePut (i : Nat) (x : Slice) (s : State) : Charged s (slicePut i x s) := ⟨rfl⟩

theorem foldl {α : Type} (f : State → α → State) (h : ∀ s x, Charged s (f s x)) (l : List α) (s : State) :
    Charged s (l.foldl f s) := by
  induction l generalizing s with
  | nil => exact .refl s
  | cons x l ih =>
    rw [List.foldl_cons]
    exact (h s x).trans (ih _)

theorem holds (h : Charged s t) : t.rep.holds = s.rep.holds := by rw [h.frame]

theorem media (h : Charged s t) : t.media = s.media := by rw [h.frame]

end Charged

theorem prioCheck_charged (i d : Nat) (s : State) : Charged s (prioCheck i d s) := by
  unfold prioCheck
  dsimp only
  split
  · exact .refl s
  · exact .slicePut ..

theorem pipeCharge_charged (i p : Nat) (s : State) : Charged s (pipeCharge i p s) := by
  unfold pipeCharge
  dsimp only
  split
  · exact .refl s
  · exact (Charged.slicePut ..).trans (.of_note rfl)

/-- The counts and the event of a vote (R298). -/
def voteNoted (i duty who : Nat) (s : State) : State :=
  sumUp .pipeVote (srcSlice i 2) duty who 0
    (if who = 0 then count1 (0x3900 + 8 * i) 6 0 s else count1 (0x3900 + 8 * i) 7 0 (count1 (0x3900 + 8 * i) 6 0 s))

/-- A vote that does not clear the duty's pipe charges it (R298). -/
def dutyCharged (i duty pipe who : Nat) (s : State) : State :=
  if who = 1 then s
  else slicePut i { sliceOf (prioCheck i duty (pipeCharge i pipe s)) i with standIn := some duty }
    (prioCheck i duty (pipeCharge i pipe s))

theorem voteCharge_eq (i duty pipe checker who : Nat) (s : State) : voteCharge i duty pipe checker who s =
    if who = 0 then dutyCharged i duty pipe who (voteNoted i duty who s)
    else slicePut i { sliceOf (pipeCharge i checker (dutyCharged i duty pipe who (voteNoted i duty who s))) i with noShadow := true }
      (pipeCharge i checker (dutyCharged i duty pipe who (voteNoted i duty who s))) := rfl

theorem voteNoted_charged (i duty who : Nat) (s : State) : Charged s (voteNoted i duty who s) := by
  unfold voteNoted
  refine .of_note ?_
  rw [sumUp_frame]
  split <;> rfl

theorem dutyCharged_charged (i duty pipe who : Nat) (s : State) : Charged s (dutyCharged i duty pipe who s) := by
  unfold dutyCharged
  split
  · exact .refl s
  · exact ((pipeCharge_charged ..).trans (prioCheck_charged ..)).trans (.slicePut ..)

theorem voteCharge_charged (i duty pipe checker who : Nat) (s : State) : Charged s (voteCharge i duty pipe checker who s) := by
  have charged := (voteNoted_charged i duty who s).trans (dutyCharged_charged i duty pipe who _)
  rw [voteCharge_eq]
  split
  · exact charged
  · exact (charged.trans (pipeCharge_charged ..)).trans (.slicePut ..)

theorem prioDirection_charged (i : Nat) (dir : Dir) (s : State) : Charged s (prioDirection i dir s) := by
  unfold prioDirection
  exact .foldl _ (fun t j => prioCheck_charged i (dirDuty dir + j) t) _ s

theorem schkFault_charged (h : Hold) (persistent : Bool) (s : State) : Charged s (schkFault h persistent s) := by
  unfold schkFault
  dsimp only
  split
  · exact .of_note (by rw [raiseSev_frame]; rfl)
  · exact (Charged.of_note (by rw [raiseSev_frame]; rfl)).trans (prioDirection_charged ..)

-- The vote on the oldest held line

/-- A write that goes on has its own line and counter (R296). -/
theorem votedOp_own {h : Hold} {ks : List Block} {s : State} (own : ∀ n a, h.owner = .step n a → a = h.addr) :
    (votedOp h ks s).kind = .write ∧ (votedOp h ks s).addr = h.addr ∧ (votedOp h ks s).gen = h.gen ∧
      (votedOp h ks s).lctr = h.lctr ∧ (votedOp h ks s).owner = h.owner := by
  unfold votedOp
  cases owner : h.owner with
  | step n a =>
    cases purges : ownerPurges s (.step n a) with
    | true => exact ⟨rfl, own n a owner, rfl, rfl, rfl⟩
    | false => exact ⟨rfl, rfl, rfl, rfl, rfl⟩
  | _ => exact ⟨rfl, rfl, rfl, rfl, rfl⟩

/-- A line held for a vote, XORed with blocks, with its sidecar (R58, R65). -/
def votedLine (s : State) (h : Hold) (ks : List Block) : BitVec 576 :=
  mediaJoin (lineXor (h.line.setWidth 512) ks)
    (scPack h.lctr (h.gen.setWidth 4) (BitVec.ofNat 15 h.kidx) (BitVec.ofNat 2 (slotClass s h.kidx)) h.poison
      (lineSchk (h.line.setWidth 512) h.addr ks))

/-- A write that goes on is encrypted with the settled blocks, unless it purges (R160, R296). -/
theorem votedOp_data {h : Hold} {ks : List Block} {s : State} (plain : ownerPurges s h.owner = false) :
    (votedOp h ks s).data = votedLine s h ks := by
  unfold votedOp
  rw [plain]
  cases h.owner with
  | _ => rfl

theorem ownerPurges_congr {s t : State} (rk : t.rk = s.rk) (o : MOwner) : ownerPurges t o = ownerPurges s o := by
  unfold ownerPurges ctxOf
  rw [rk]

theorem votedLine_congr {s t : State} (cfg : t.cfg = s.cfg) (h : Hold) (ks : List Block) :
    votedLine t h ks = votedLine s h ks := by
  unfold votedLine slotClass cfgVal
  rw [cfg]

/-- The charge of a vote on a held line, without the line (R298, Table 14.5). -/
def voteTaken (sl : Nat) (h : Hold) (who : Nat) (s : State) : State :=
  voteCharge sl h.duty (dutyIn h.duties h.duty) h.checker who (holdDel h s)

/-- A vote that decides nothing keeps its line for a second recompute (R297). -/
def voteDoubted (sl : Nat) (h : Hold) (s : State) : State :=
  let u := voteCharge sl h.duty (dutyIn h.duties h.duty) h.checker 2 s
  { u with rep := { u.rep with holds := u.rep.holds.map (fun y => if y = h then { h with again := true } else y) } }

section
variable {sl : Nat} {d : Dir} {h : Hold} {f : Faults} {v : List Block} {s : State}
  (found : s.rep.holds.find? (fun y => y.slice == sl && y.kind == .vote && y.dir == d) = some h)
  (value : v = blocksOn f (if h.ten then 10 else h.checker) h.blks h.good h.ks)
include found value

theorem doVote_again (again : h.again = true) : doVote sl d f s =
    if v = blocksOn f h.checker h.blks h.good h.ks then voteContinue h v f (holdDel h s) else voteAbandon h (holdDel h s) := by
  subst value
  unfold doVote
  rw [found]
  dsimp only
  rw [if_pos again]

theorem doVote_first (first : h.again = false) : doVote sl d f s =
    if v = h.ks then voteRelease h false (voteContinue h h.ks f (voteTaken sl h 1 s))
    else if v = h.chk then voteRelease h true (voteContinue h h.chk f (voteTaken sl h 0 s))
    else voteRelease { h with again := true } true (voteDoubted sl h s) := by
  subst value
  unfold doVote
  rw [found]
  dsimp only
  rw [first, if_neg Bool.false_ne_true]
  rfl

omit value in
theorem held_facts : h ∈ s.rep.holds ∧ h.slice = sl ∧ h.kind = .vote ∧ h.dir = d := by
  have facts := List.find?_some found
  simp only [Bool.and_eq_true, beq_iff_eq] at facts
  exact ⟨List.mem_of_find?_eq_some found, facts.1.1, facts.1.2, facts.2⟩

/-- A vote that decides nothing keeps its line (R297). -/
theorem doVote_keeps (first : h.again = false) (pipe : v ≠ h.ks) (checker : v ≠ h.chk) :
    { h with again := true } ∈ (doVote sl d f s).rep.holds := by
  obtain ⟨there, -, -, -⟩ := held_facts found
  rw [doVote_first found value first, if_neg pipe, if_neg checker]
  have out := not_mem_released { h with again := true } (voteDoubted sl h s)
  refine (voteRelease_votes { h with again := true } true (voteDoubted sl h s)).kept _ out ?_
  have charged := voteCharge_charged sl h.duty (dutyIn h.duties h.duty) h.checker 2 s
  refine List.mem_map.2 ⟨h, ?_, if_pos rfl⟩
  rw [charged.holds]
  exact there

omit found value in
theorem voteTaken_gone (who : Nat) : h ∉ (voteTaken sl h who s).rep.holds := fun there => by
  rw [voteTaken, (voteCharge_charged ..).holds] at there
  exact (mem_holdDel.1 there).2 rfl

/-- What a settled vote leaves of its line: it is not held, and a write is issued (R296). -/
structure VoteSettled (s : State) (h : Hold) (v : List Block) (t : State) : Prop where
  gone : h ∉ t.rep.holds
  issued : h.dir = .w → votedOp h v s ∈ (mediaOf t h.port).fifoW

omit found value in
theorem continued_settles (vote : h.kind = .vote) (chk : Bool) {ks : List Block} {u : State} (absent : h ∉ u.rep.holds) :
    VoteSettled u h ks (voteRelease h chk (voteContinue h ks f u)) where
  gone := (voteRelease_votes ..).absent h vote ((voteContinue_goesOn ..).absent vote absent)
  issued dir := (voteRelease_votes ..).writes _ _ (voteContinue_writes dir).issued

/-- A vote for the pipe or for the checker settles its line (R296, R298). -/
theorem doVote_settles (first : h.again = false) (agrees : v = h.ks ∨ v = h.chk) :
    ∃ who, VoteSettled (voteTaken sl h who s) h v (doVote sl d f s) := by
  obtain ⟨-, -, vote, -⟩ := held_facts found
  rw [doVote_first found value first]
  by_cases pipe : v = h.ks
  · rw [if_pos pipe, ← pipe]
    exact ⟨1, continued_settles vote false (voteTaken_gone 1)⟩
  · obtain checker := agrees.resolve_left pipe
    rw [if_neg pipe, if_pos checker, ← checker]
    exact ⟨0, continued_settles vote true (voteTaken_gone 0)⟩

omit found value in
theorem voteAbandon_sliced (h : Hold) (s : State) :
    (voteAbandon h s).sliced = (slicePut h.slice { sliceOf s h.slice with doomed := true } s).sliced := by
  unfold voteAbandon
  dsimp only
  split
  · split
    · rfl
    · split
      · exact txnFinish_sliced ..
      · exact deliverNone_sliced ..
  · exact stepFail_sliced ..
  · rfl

/-- A second recompute ends the hold; where the pipe and the checker differ, the line is abandoned and the slice is lost at
the next strobe (R297). -/
theorem doVote_ends (again : h.again = true) : h ∉ (doVote sl d f s).rep.holds ∧
    (v ≠ blocksOn f h.checker h.blks h.good h.ks → (sliceOf (doVote sl d f s) sl).doomed = true) := by
  obtain ⟨-, slice, vote, -⟩ := held_facts found
  have gone : h ∉ (holdDel h s).rep.holds := fun there => (mem_holdDel.1 there).2 rfl
  rw [doVote_again found value again]
  split
  · next same => exact ⟨(voteContinue_goesOn ..).absent vote gone, fun other => absurd same other⟩
  · have rep : (voteAbandon h (holdDel h s)).rep = (slicePut h.slice { sliceOf (holdDel h s) h.slice with doomed := true } (holdDel h s)).rep :=
      congrArg Prod.fst (voteAbandon_sliced h (holdDel h s))
    refine ⟨?_, fun _ => ?_⟩
    · rw [rep]
      exact gone
    · unfold sliceOf
      rw [rep, ← slice]
      exact congrArg Slice.doomed ((sliceOf_slicePut ..).trans (if_pos rfl))

end

-- VOTE and SCHK_RECOMPUTE

theorem holdPort_found {s : State} {sl m : Nat} {k : HoldKind} {d : Dir} (port : holdPort s sl k d = some m) {h : Hold}
    (found : s.rep.holds.find? (fun y => y.slice == sl && y.kind == k && y.dir == d) = some h) : h.port = m := by
  unfold holdPort at port
  rw [found] at port
  exact Option.some.inj port

section
variable {sl : Fin 17} {d : Dir} {m : Nat} {h : Hold} {f : Faults} {v : List Block} {s : State}
  (runs : s.clk.running = true) (port : holdPort s sl .vote d = some m) (may : claimOk s m d = true)
  (found : s.rep.holds.find? (fun y => y.slice == sl.val && y.kind == .vote && y.dir == d) = some h)
  (value : v = blocksOn f (if h.ten then 10 else h.checker) h.blks h.good h.ks)
include runs port may found value

omit found value in
theorem vote_votes : exec (.vote sl d f) s = .next (rkPoll (doVote sl d f (slotUse m d .mx noLine s))) := by
  refine congrArg (fun t => Host.Outcome.next (rkPoll t)) ?_
  unfold voteCmd
  rw [runs, if_neg Bool.noConfusion, port]
  dsimp only
  rw [if_pos may]

omit runs may in
/-- What a settled vote leaves of a held write (R296). -/
theorem vote_writes (own : ∀ n a, h.owner = .step n a → a = h.addr) (first : h.again = false) (agrees : v = h.ks ∨ v = h.chk) :
    h ∉ (rkPoll (doVote sl d f (slotUse m d .mx noLine s))).rep.holds ∧
    (d = .w → ∃ o ∈ (mediaOf (rkPoll (doVote sl d f (slotUse m d .mx noLine s))) m).fifoW, o.kind = .write ∧ o.addr = h.addr ∧
      o.gen = h.gen ∧ o.lctr = h.lctr ∧ o.owner = h.owner ∧ (ownerPurges s h.owner = false → o.data = votedLine s h v)) := by
  have there : (slotUse m d .mx noLine s).rep.holds.find? (fun y => y.slice == sl.val && y.kind == .vote && y.dir == d) = some h :=
    found
  obtain ⟨-, -, -, dir⟩ := held_facts there
  obtain ⟨who, settled⟩ := doVote_settles there value first agrees
  have frame : Charged (holdDel h (slotUse m d .mx noLine s)) (voteTaken sl h who (slotUse m d .mx noLine s)) :=
    voteCharge_charged ..
  have poll := rkPoll_sliced (doVote sl d f (slotUse m d .mx noLine s))
  rw [mediaOf_congr (congrArg Prod.snd poll), show (rkPoll _).rep = _ from congrArg Prod.fst poll]
  refine ⟨settled.gone, fun writes => ⟨_, holdPort_found port found ▸ settled.issued (dir.trans writes), ?_⟩⟩
  obtain ⟨kind, addr, gen, lctr, owner⟩ := votedOp_own (h := h) (ks := v)
    (s := voteTaken sl h who (slotUse m d .mx noLine s)) own
  refine ⟨kind, addr, gen, lctr, owner, fun plain => ?_⟩
  rw [votedOp_data, votedLine_congr (s := s) (by rw [frame.frame]; rfl)]
  rw [ownerPurges_congr (s := s) (by rw [frame.frame]; rfl)]
  exact plain

end

/-- A line held after an SCHK mismatch passes the check again (R69). -/
theorem schkRecompute_answers {sl : Fin 17} {m k : Nat} {h : Hold} {x : Txn} {f : Faults} {ks : List Block} {s : State}
    (port : holdPort s sl .schk .r = some m) (may : claimOk s m .r = true)
    (found : s.rep.holds.find? (fun y => y.slice == sl.val && y.kind == .schk) = some h) (value : ks = recomputed h f)
    (owner : h.owner = .txn k) (txn : txnFind s k = some x) (read : x.item.op = .readLine) :
    ∃ u, Charged (holdDel h (slotUse m .r .mx noLine s)) u ∧ exec (.schkRecompute sl f) s = .next
      (readReply x (if schkOk h.addr h.line ks then (if scPoison (lnSide h.line) then stOkPoison else stOk) else stSidecarFault)
        (some (lineXor (lnPay h.line) ks)) (if schkOk h.addr h.line ks then scPoison (lnSide h.line) else true) 0 u) := by
  subst value
  have same : ∀ u, Charged (holdDel h (slotUse m .r .mx noLine s)) u → txnFind u k = some x := fun u charged => by
    unfold txnFind
    rw [charged.frame]
    exact txn
  have cmd : exec (.schkRecompute sl f) s = .next (doSchkRecompute sl f (slotUse m .r .mx noLine s)) := by
    refine congrArg Host.Outcome.next ?_
    unfold schkCmd
    rw [port]
    dsimp only
    rw [if_pos may]
  have there : (slotUse m .r .mx noLine s).rep.holds.find? (fun y => y.slice == sl.val && y.kind == .schk) = some h := found
  rw [cmd]
  unfold doSchkRecompute
  rw [there]
  dsimp only
  cases checked : schkOk h.addr h.line (recomputed h f) with
  | true =>
    have charged := schkFault_charged h false (holdDel h (slotUse m .r .mx noLine s))
    refine ⟨_, charged, congrArg Host.Outcome.next ?_⟩
    rw [if_pos rfl, if_pos rfl, if_pos rfl, owner, deliverGood_read (same _ charged) read]
  | false =>
    have charged := schkFault_charged h true (holdDel h (slotUse m .r .mx noLine s))
    refine ⟨_, charged, congrArg Host.Outcome.next ?_⟩
    rw [if_neg Bool.false_ne_true, if_neg Bool.false_ne_true, if_neg Bool.false_ne_true, owner]
    unfold deliver
    dsimp only
    rw [same _ charged]
    dsimp only
    rw [read]
    rfl

/-- Settles O39. -/
theorem votesAndRecomputesSettleHeldLines : Obligations.VotesAndRecomputesSettleHeldLines := by
  unfold Obligations.VotesAndRecomputesSettleHeldLines
  refine ⟨fun sl d m h f v s runs port may found value own => ?_, fun sl d f s runs none => ?_,
    fun sl m k h x f ks s port may found value owner txn read here sound => ?_⟩
  · have next := vote_votes (f := f) runs port may
    have there : (slotUse m d .mx noLine s).rep.holds.find? (fun y => y.slice == sl.val && y.kind == .vote && y.dir == d) = some h :=
      found
    have poll : (rkPoll (doVote sl d f (slotUse m d .mx noLine s))).rep = (doVote sl d f (slotUse m d .mx noLine s)).rep :=
      congrArg Prod.fst (rkPoll_sliced _)
    obtain ⟨nv, clk⟩ := exec_nv_clk next rfl
    refine ⟨_, next, fun first pipe checker => ?_, fun first agrees => vote_writes port found value own first agrees,
      fun again => ?_, nv, clk⟩
    · rw [poll]
      exact doVote_keeps there value first pipe checker
    · unfold sliceOf
      rw [poll]
      exact doVote_ends there value again
  · refine congrArg (fun t => Host.Outcome.next (rkPoll t)) ?_
    unfold voteCmd
    rw [runs, if_neg Bool.noConfusion, none]
  · obtain ⟨u, charged, next⟩ := schkRecompute_answers port may found value owner txn read
    have queue : eqSound u x.item.src := fun p mine => by
      rw [charged.frame]
      exact sound p mine
    obtain rfl := txnFind_id txn
    have replied := fun status data psn extra =>
      readReply_replied (x := x) (status := status) (data := data) (psn := psn) (extra := extra) here queue
    refine ⟨_, next, ?_, (replied ..).ended, ⟨_, (replied ..).told, rfl, rfl, rfl⟩, ?_, ?_, ?_⟩
    · rw [readReply_frame]
      show h ∉ u.rep.holds
      rw [charged.holds]
      exact fun there => (mem_holdDel.1 there).2 rfl
    · rw [mediaOf_congr (s := slotUse m .r .mx noLine s) (by rw [readReply_frame, charged.frame]; rfl), mediaOf_slotUse, if_pos rfl]
      rfl
    · rw [readReply_frame, charged.frame]
      rfl
    · rw [readReply_frame, charged.frame]
      rfl

end Sys2Proof.Machine

/-! OBLIGATION. The resume (R158, R274, R275, R285). -/

namespace Sys2Proof.Machine

-- What a resume brings back

/-- What the work of a resume leaves: the store's queue, the contexts, the links and the pool move; what waits for the
store waits on (R275). -/
structure Resuming (s t : State) : Prop where
  frame : t = { s with nvu := t.nvu, regs := t.regs, ev := t.ev, rk := t.rk, links := t.links, accts := t.accts
                       pastAccts := t.pastAccts, pool := t.pool }
  waits : ∀ j ∈ nvWaiting s.nvu, j ∈ nvWaiting t.nvu

namespace Resuming
variable {s t u : State}

theorem refl (s : State) : Resuming s s := ⟨rfl, fun _ waits => waits⟩

theorem trans (h : Resuming s t) (g : Resuming t u) : Resuming s u :=
  ⟨by rw [g.frame, h.frame], fun j waits => g.waits j (h.waits j waits)⟩

theorem of_work (h : t = { s with regs := t.regs, ev := t.ev, rk := t.rk }) : Resuming s t :=
  ⟨by rw [h], fun j waits => by rw [h]; exact waits⟩

theorem of_lessened (h : Lessened s t) : Resuming s t := ⟨by rw [h.frame], fun j waits => by rw [h.frame]; exact waits⟩

theorem foldl {α : Type} (f : State → α → State) (h : ∀ s x, Resuming s (f s x)) (l : List α) (s : State) :
    Resuming s (l.foldl f s) := by
  induction l generalizing s with
  | nil => exact .refl s
  | cons x l ih =>
    rw [List.foldl_cons]
    exact (h s x).trans (ih _)

end Resuming

theorem nvPush_keeps {j k : NvJob} {s : State} (waits : j ∈ nvWaiting s.nvu) : j ∈ nvWaiting (nvPush k s).nvu := by
  have parts : ∀ {l m : List NvJob} {u : NvUnit}, (∀ x ∈ u.jobs, x ∈ l) → (∀ x ∈ u.held, x ∈ m) → j ∈ nvWaiting u →
      j ∈ nvWaiting { u with jobs := l, held := m } := fun {l m u} queued held there => by
    unfold nvWaiting at there ⊢
    simp only [List.mem_append] at there ⊢
    exact there.imp_left (Or.imp (queued j) (held j))
  unfold nvPush
  split
  · exact nvKick_waiting (parts (fun x there => List.mem_append_left _ there) (fun x there => there) waits)
  · exact parts (fun x there => there) (fun x there => List.mem_append_left _ there) waits

theorem nvPush_resuming (j : NvJob) (s : State) : Resuming s (nvPush j s) :=
  ⟨by rw [nvPush_frame], fun _ waits => nvPush_keeps waits⟩

theorem ctxPoll_resuming (s : State) (n : Nat) : Resuming s (ctxPoll s n) := by
  unfold ctxPoll
  split
  · exact (Resuming.of_work rfl).trans (nvPush_resuming ..)
  · exact .refl s

theorem rkPoll_resuming (s : State) : Resuming s (rkPoll s) := by
  rw [rkPoll_eq]
  split
  · exact .refl s
  · exact .foldl ctxPoll ctxPoll_resuming _ s

theorem ctxStart_resuming (n : Nat) (e : RkEnt) (s : State) : Resuming s (ctxStart n e s) :=
  (Resuming.of_work rfl).trans (nvPush_resuming ..)

theorem rkFill_resuming (k : Nat) (s : State) : Resuming s (rkFill k s) := by
  induction k generalizing s with
  | zero => exact .refl s
  | succ k ih =>
    unfold rkFill
    split
    · exact .refl s
    · split
      · exact .refl s
      · exact (ctxStart_resuming ..).trans (ih _)

theorem rkSchedule_resuming (s : State) : Resuming s (rkSchedule s) := by
  unfold rkSchedule
  split
  · exact rkFill_resuming ..
  · exact .refl s

theorem resumeFlush_lessened (s : State) : Lessened s (resumeFlush s) := by
  unfold resumeFlush
  refine .foldl _ _ (fun t q there => ?_) s
  split
  · exact (queueFlush_emptied (List.mem_range.1 there) t).1
  · exact .refl t

-- The contexts

/-- A boundary moves the context and the marks of a format pass (R159). -/
theorem boundSet_frame (n b : Nat) (s : State) :
    boundSet n b s = { ctxPut n { ctxOf s n with bound := b } s with regs := (boundSet n b s).regs } := by
  unfold boundSet
  dsimp only
  split
  · generalize ctxPut n { ctxOf s n with bound := b } s = u
    generalize extents u false (ctxOf s n).kidx = l
    induction l generalizing u with
    | nil => rfl
    | cons x l ih =>
      rw [List.foldl_cons, ih]
      split <;> rfl
  · rfl

theorem rekeyResumeEv_frame (n : Nat) (s : State) :
    rekeyResumeEv n s = { s with regs := (rekeyResumeEv n s).regs, ev := (rekeyResumeEv n s).ev } := raise_frame ..

theorem ctxUnpark_frame (s : State) (n : Nat) :
    ctxUnpark s n = { s with regs := (ctxUnpark s n).regs, ev := (ctxUnpark s n).ev, rk := (ctxUnpark s n).rk } := by
  unfold ctxUnpark
  dsimp only
  split
  · rw [boundSet_frame, rekeyResumeEv_frame]
    rfl
  · rfl

/-- A context that the drain interrupted stands at the boundary that the drain recorded (R158). -/
structure RunsFrom (k : Nat) (c : Ctx) : Prop where
  runs : c.st = .running
  ckpt : c.ckpt = k

theorem ctxOf_boundSet (n b : Nat) (x : Ctx) (s : State) (m : Nat) :
    ctxOf (boundSet n b (ctxPut n x s)) m = if m = n then { x with bound := b } else ctxOf s m := by
  have rk : (boundSet n b (ctxPut n x s)).rk = (ctxPut n { x with bound := b } (ctxPut n x s)).rk := by
    rw [boundSet_frame, ctxOf_ctxPut_same]
  rw [ctxOf_congr (congrArg Rekey.ctxs rk), ctxOf_ctxPut]
  split
  · rfl
  · next other => rw [ctxOf_ctxPut, if_neg other]

/-- A context that goes on after a drain (R158). -/
def ctxUnparked (c : Ctx) : Ctx :=
  { c with resumed := true, band := c.ckpt, drainLow := none, drainCk := false, bound := c.ckpt }

theorem ctxOf_ctxUnpark (s : State) (k n : Nat) : ctxOf (ctxUnpark s k) n =
    if n = k ∧ (ctxOf s k).st = .running then ctxUnparked (ctxOf s k) else ctxOf s n := by
  unfold ctxUnpark
  dsimp only
  by_cases running : (ctxOf s k).st = .running
  · rw [if_pos running, ctxOf_boundSet]
    by_cases same : n = k
    · exact (if_pos same).trans (if_pos ⟨same, running⟩).symm
    · refine (if_neg same).trans (Eq.trans ?_ (if_neg fun both => same both.1).symm)
      exact ctxOf_congr (by rw [rekeyResumeEv_frame]) n
  · rw [if_neg running, if_neg fun both => running both.2]

theorem ctxUnpark_keeps {s : State} {k n b : Nat} (from' : RunsFrom b (ctxOf s n)) : RunsFrom b (ctxOf (ctxUnpark s k) n) ∧
    ((ctxOf s n).bound = b ∨ n = k → (ctxOf (ctxUnpark s k) n).bound = b) := by
  rw [ctxOf_ctxUnpark]
  split
  · next both =>
    obtain ⟨rfl, -⟩ := both
    exact ⟨⟨from'.runs, from'.ckpt⟩, fun _ => from'.ckpt⟩
  · next other =>
    refine ⟨from', fun set => set.elim id fun same => absurd ⟨same, ?_⟩ other⟩
    rw [← same]
    exact from'.runs

theorem foldl_ctxUnpark (l : List Nat) {s : State} {n b : Nat} (from' : RunsFrom b (ctxOf s n)) :
    RunsFrom b (ctxOf (l.foldl ctxUnpark s) n) ∧
      ((ctxOf s n).bound = b ∨ n ∈ l → (ctxOf (l.foldl ctxUnpark s) n).bound = b) := by
  induction l generalizing s with
  | nil => exact ⟨from', fun set => set.resolve_right List.not_mem_nil⟩
  | cons k l ih =>
    obtain ⟨still, set⟩ := ctxUnpark_keeps (k := k) from'
    obtain ⟨ends, sets⟩ := ih still
    rw [List.foldl_cons]
    refine ⟨ends, fun why => ?_⟩
    rcases why with there | listed
    · exact sets (.inl (set (.inl there)))
    · rcases List.mem_cons.1 listed with same | later
      · exact sets (.inl (set (.inr same)))
      · exact sets (.inr later)

/-- The queue fills free contexts alone (R144). -/
theorem ctxOf_rkFill (k : Nat) {s : State} {n : Nat} (busy : (ctxOf s n).st ≠ .free) : ctxOf (rkFill k s) n = ctxOf s n := by
  induction k generalizing s with
  | zero => rfl
  | succ k ih =>
    unfold rkFill
    split
    · rfl
    · next m free =>
      split
      · rfl
      · next e _ =>
        have st := List.find?_some free
        have other : n ≠ m := fun same => busy (same ▸ eq_of_beq st)
        obtain ⟨c, -, -, -, rk⟩ := ctxStart_rk m e s
        have kept : ctxOf (ctxStart m e s) n = ctxOf s n := by
          rw [ctxOf_congr (s := ctxPut m c s) (by rw [rk]; rfl), ctxOf_ctxPut, if_neg other]
        rw [ih (by rw [kept]; exact busy), kept]

theorem ctxOf_rkSchedule {s : State} {n : Nat} (busy : (ctxOf s n).st ≠ .free) : ctxOf (rkSchedule s) n = ctxOf s n := by
  unfold rkSchedule
  split
  · exact ctxOf_rkFill 64 busy
  · rfl

-- RESUME

/-- The changes held back go to the store's agent (R275). -/
def pushAll (l : List NvJob) (s : State) : State := l.foldl (fun s j => nvPush j s) s

theorem pushAll_frame (l : List NvJob) (s : State) :
    pushAll l s = { s with nvu := (pushAll l s).nvu, regs := (pushAll l s).regs, ev := (pushAll l s).ev } := by
  unfold pushAll
  induction l generalizing s with
  | nil => rfl
  | cons j l ih => rw [List.foldl_cons, ih, nvPush_frame]

theorem pushAll_resuming (l : List NvJob) (s : State) : Resuming s (pushAll l s) :=
  .foldl _ (fun t j => nvPush_resuming j t) l s

/-- A running session record is to be written (R275). -/
def sessionRuns : NvJob := { recs := [.session 1], act := .sessionRun }

theorem resumed_early (held : List NvJob) (s : State) : resumed true held s = pushAll held s := rfl

theorem resumed_served (held : List NvJob) (s : State) : resumed false held s =
    rkSchedule (rkPoll (resumeFlush ((List.range 64).foldl ctxUnpark (pushAll held (nvPush sessionRuns s))))) := by
  unfold resumed pushAll sessionRuns
  rw [if_neg Bool.false_ne_true]

theorem contextsResume_resuming (l : List Nat) (s : State) :
    Resuming s (rkSchedule (rkPoll (resumeFlush (l.foldl ctxUnpark s)))) := by
  have unparked : Resuming s (l.foldl ctxUnpark s) := .foldl ctxUnpark (fun t n => .of_work (ctxUnpark_frame t n)) _ s
  generalize l.foldl ctxUnpark s = u at unparked ⊢
  exact ((unparked.trans (.of_lessened (resumeFlush_lessened u))).trans (rkPoll_resuming _)).trans (rkSchedule_resuming _)

theorem resumed_resuming (early : Bool) (held : List NvJob) (s : State) : Resuming s (resumed early held s) := by
  cases early with
  | true => exact pushAll_resuming held s
  | false =>
    rw [resumed_served]
    generalize List.range 64 = l
    exact ((nvPush_resuming sessionRuns s).trans (pushAll_resuming held _)).trans (contextsResume_resuming l _)

/-- The running session record waits to be written (R275). -/
theorem resumed_session (held : List NvJob) (s : State) : actWaits (resumed false held s) .sessionRun = true := by
  rw [resumed_served]
  generalize List.range 64 = l
  exact actWaits_of_waiting
    (((pushAll_resuming held _).trans (contextsResume_resuming l _)).waits _ (nvPush_waiting sessionRuns s)) rfl

/-- A context that ran goes on from the boundary that the drain recorded (R158). -/
theorem resumed_bound (held : List NvJob) {s : State} {n : Nat} (fits : n < 64) (runs : (ctxOf s n).st = .running) :
    (ctxOf (resumed false held s) n).bound = (ctxOf s n).ckpt := by
  have pushed : ctxOf (pushAll held (nvPush sessionRuns s)) n = ctxOf s n :=
    ctxOf_congr (by rw [pushAll_frame, nvPush_frame]) n
  have from' : RunsFrom (ctxOf s n).ckpt (ctxOf (pushAll held (nvPush sessionRuns s)) n) := by
    rw [pushed]
    exact ⟨runs, rfl⟩
  obtain ⟨stays, bound⟩ := foldl_ctxUnpark (List.range 64) from'
  rw [resumed_served]
  generalize (List.range 64).foldl ctxUnpark (pushAll held (nvPush sessionRuns s)) = u at stays bound
  have flushed : ctxOf (resumeFlush u) n = ctxOf u n := ctxOf_congr (by rw [(resumeFlush_lessened u).frame]) n
  have polled := rkPoll_polled (resumeFlush u) n
  unfold CtxPolled at polled
  rw [flushed] at polled
  have busy : (ctxOf (rkPoll (resumeFlush u)) n).st ≠ .free ∧ (ctxOf (rkPoll (resumeFlush u)) n).bound = (ctxOf u n).bound := by
    rcases polled with same | ⟨-, done⟩
    · rw [same, stays.runs]
      exact ⟨CxSt.noConfusion, rfl⟩
    · rw [done]
      exact ⟨CxSt.noConfusion, rfl⟩
  rw [ctxOf_rkSchedule busy.1, busy.2]
  exact bound (.inr (List.mem_range.2 fits))

theorem resumeDue_iff {s : State} : resumeDue s = true ↔ s.pwr.phase = .parked ∧ cfgVal s 0x2300 1 0 ≠ 0 ∧ s.clk.cycle = 0 ∧
    ∃ f, s.pwr.returned = some f ∧ frameNo s = max (f + 1 + cfgVal s 0x2300 1 0) (s.pwr.parkedAt + 1) := by
  unfold resumeDue
  dsimp only
  cases s.pwr.returned with
  | none => simp
  | some f => simp [and_assoc]

/-- Settles O16. -/
theorem resumeReturnsToService : Obligations.ResumeReturnsToService := by
  unfold Obligations.ResumeReturnsToService
  refine ⟨fun f s parked asked start returned at' => ?_, fun s early => ?_⟩
  · obtain ⟨u, hu, runs⟩ := doResume_eq (resumeDue_iff.2 ⟨parked, asked, start, f, returned, at'⟩)
    have raised : u = { s with regs := u.regs, ev := u.ev } := by rw [hu]; exact raise_frame ..
    have work := (resumed_resuming s.pwr.interrupted u.nvu.held (unparked s.pwr.interrupted u)).frame
    have back : unparked s.pwr.interrupted u = { u with pins := { s.pins with persistOk := false }
                                                        nvu := (unparked s.pwr.interrupted u).nvu
                                                        pwr := (unparked s.pwr.interrupted u).pwr } := by
      unfold unparked
      rw [raised]
    have power : (unparked s.pwr.interrupted u).pwr = { s.pwr with
        phase := .service, returned := none, interrupted := false, holdWrites := !s.pwr.interrupted } := by
      unfold unparked
      rw [raised]
    have ctx : ∀ n, ctxOf (unparked s.pwr.interrupted u) n = ctxOf s n := fun n => ctxOf_congr (by rw [back, raised]) n
    refine ⟨_, congrArg Host.Outcome.next runs, by rw [work, back], by rw [work, power], by rw [work, power], by rw [work, power],
      by rw [work, power], by rw [work, back, raised], by rw [work, back, raised], by rw [work, back, raised],
      by rw [work, back, raised], by rw [work, back, raised], by rw [work, back, raised], by rw [work, back, raised],
      fun served => ⟨by rw [work, power, served]; rfl, ?_, fun n fits ran => ?_⟩,
      fun early => ⟨by rw [work, power, early]; rfl, ?_, ?_, ?_⟩⟩
    · rw [served]
      exact resumed_session ..
    · rw [served] at ctx ⊢
      rw [resumed_bound u.nvu.held fits (by rw [ctx]; exact ran), ctx]
    · rw [early, resumed_early, pushAll_frame, raised]
      rfl
    · rw [early, resumed_early, pushAll_frame, raised]
      rfl
    · rw [early, resumed_early, pushAll_frame, raised]
      rfl
  · have stays : resumeDue s ≠ true := fun due => by
      obtain ⟨parked, asked, start, f, returned, at'⟩ := resumeDue_iff.1 due
      rcases early with other | zero | none | cycle | other
      · exact other parked
      · exact asked zero
      · rw [none] at returned
        cases returned
      · exact cycle start
      · exact other f returned at'
    refine congrArg Host.Outcome.next ?_
    unfold doResume
    rw [if_neg stays]

end Sys2Proof.Machine

/-! OBLIGATION. The power warning and the drain (R45, R267 to R274, R285). -/

namespace Sys2Proof.Machine

-- What a qualified warning does in service

/-- What the drain abandons and asks for as it begins: contexts, the image, the ports' flushes, fetches (R269, R270). -/
structure DrainBegins (s t : State) : Prop where
  frame : t = { s with nvu := t.nvu, regs := t.regs, ev := t.ev, rk := t.rk, media := t.media, rep := t.rep, tagc := t.tagc
                       pwr := { s.pwr with sessionQueued := t.pwr.sessionQueued } }

namespace DrainBegins
variable {s t u : State}

theorem refl (s : State) : DrainBegins s s := ⟨rfl⟩

theorem trans (h : DrainBegins s t) (g : DrainBegins t u) : DrainBegins s u := ⟨by rw [g.frame, h.frame]⟩

theorem foldl {α : Type} (f : State → α → State) (h : ∀ s x, DrainBegins s (f s x)) (l : List α) (s : State) :
    DrainBegins s (l.foldl f s) := by
  induction l generalizing s with
  | nil => exact .refl s
  | cons x l ih =>
    rw [List.foldl_cons]
    exact (h s x).trans (ih _)

end DrainBegins

theorem ctxAbandon_begins (s : State) (n : Nat) : DrainBegins s (ctxAbandon s n) := by
  unfold ctxAbandon
  dsimp only
  split
  · exact ⟨by rw [stepsDrop_frame]; rfl⟩
  · exact .refl s

theorem imageDrop_begins (s : State) : DrainBegins s (imageDrop s) := ⟨rfl⟩

theorem wbFetches_begins (s : State) : DrainBegins s (wbFetches s) := ⟨by rw [wbFetches_frame]⟩

theorem drainPoll_begins (s : State) : DrainBegins s (drainPoll s) := ⟨by rw [drainPoll_frame]⟩

/-- The ports have no flush of the drain yet (R270). -/
def portFresh (s : State) (m : Nat) : State := mediaMod m (fun x => { x with drainFlush := false, drainOut := false }) s

theorem portFresh_begins (s : State) (m : Nat) : DrainBegins s (portFresh s m) := ⟨rfl⟩

/-- The sample of cycle 1,020 after the block has become not ready (R45, R325). -/
structure SampleUndone (s t : State) : Prop where
  undecided : s.clk.cycle = 1020 → t.commit.decided ≠ .apply
  stands : s.clk.cycle ≠ 1020 ∨ s.commit.decided ≠ .apply → t.commit = s.commit
  frame : t = { s with mmTx := t.mmTx, regs := t.regs, ev := t.ev, commit := t.commit }

theorem sampleDefer_undecided (s : State) : (sampleDefer s).commit.decided ≠ .apply := by
  unfold sampleDefer
  split
  · rw [commitAbort_frame]
    exact CommitDecision.noConfusion
  · exact CommitDecision.noConfusion

theorem sampleDefer_frame (s : State) : sampleDefer s = { s with
    mmTx := (sampleDefer s).mmTx, regs := (sampleDefer s).regs, ev := (sampleDefer s).ev, commit := (sampleDefer s).commit } := by
  unfold sampleDefer
  split
  · rw [commitAbort_frame]
  · rfl

theorem sampleUndo_undone (s : State) : SampleUndone s (sampleUndo s) := by
  unfold sampleUndo
  split
  · next due =>
    exact ⟨fun _ => sampleDefer_undecided s, fun other => other.elim (absurd due.1) (absurd due.2), sampleDefer_frame s⟩
  · next other => exact ⟨fun cycle decided => other ⟨cycle, decided⟩, fun _ => rfl, rfl⟩

/-- What the drain does as it begins after recovery: what a sample that is undone does, between work that is not the commit
unit's. -/
theorem drainBegun_begins (s : State) : ∃ u v, DrainBegins s u ∧ SampleUndone u v ∧ DrainBegins v (drainBegun s) := by
  have abandoned : ∀ l : List Nat, DrainBegins s (l.foldl ctxAbandon s) := fun l => .foldl ctxAbandon ctxAbandon_begins l s
  have fresh : ∀ (l : List Nat) (t : State), DrainBegins t (l.foldl portFresh t) := fun l t => .foldl portFresh portFresh_begins l t
  have whole : drainBegun s = drainPoll (wbFetches (sampleUndo
      ((List.range 16).foldl portFresh (imageDrop ((List.range 64).foldl ctxAbandon s))))) := by
    unfold drainBegun portFresh
    rfl
  rw [whole]
  generalize List.range 16 = k
  generalize List.range 64 = l
  exact ⟨_, _, ((abandoned l).trans (imageDrop_begins _)).trans (fresh k _), sampleUndo_undone _,
    (wbFetches_begins _).trans (drainPoll_begins _)⟩

/-- What a qualified warning in service leaves (R267, R269, R285). -/
structure Warned (s t : State) : Prop where
  phase : t.pwr.phase = .draining
  instant : t.pwr.qualAt = now s
  early : t.pwr.interrupted = decide (s.pwr.stage ≠ .served)
  undone : s.pwr.stage = .served → s.clk.cycle = 1020 → t.commit.decided ≠ .apply ∧ t.staged = s.staged
  stands : s.pwr.stage ≠ .served ∨ s.clk.cycle ≠ 1020 ∨ s.commit.decided ≠ .apply → t.commit = s.commit
  pins : t.pins = s.pins
  keys : t.keys = s.keys
  nv : t.nv = s.nv
  clk : t.clk = s.clk

theorem drainBegun_warned {s u : State} (noted : u = { s with regs := u.regs, ev := u.ev }) (served : s.pwr.stage = .served) :
    Warned s (drainBegun { u with pwr := u.pwr.warned false (now u) }) := by
  have time : now u = now s := by
    unfold now
    rw [noted]
  obtain ⟨v, w, first, undone, last⟩ := drainBegun_begins { u with pwr := u.pwr.warned false (now u) }
  have commit : v.commit = s.commit := by rw [first.frame, noted]
  have clk : v.clk = s.clk := by rw [first.frame, noted]
  have staged : v.staged = s.staged := by rw [first.frame, noted]
  have ends : (drainBegun { u with pwr := u.pwr.warned false (now u) }).commit = w.commit := by rw [last.frame]
  refine {
    phase := by rw [last.frame, undone.frame, first.frame]; rfl
    instant := by rw [last.frame, undone.frame, first.frame]; exact time
    early := by rw [last.frame, undone.frame, first.frame, served]; rfl
    undone := fun _ cycle => ⟨?_, by rw [last.frame, undone.frame]; exact staged⟩
    stands := fun other => ?_
    pins := by rw [last.frame, undone.frame, first.frame, noted]
    keys := by rw [last.frame, undone.frame, first.frame, noted]
    nv := by rw [last.frame, undone.frame, first.frame, noted]
    clk := by rw [last.frame, undone.frame]; exact clk }
  · rw [ends]
    exact undone.undecided (by rw [clk]; exact cycle)
  · rw [ends, undone.stands (by rw [clk, commit]; exact other.resolve_left (not_not_intro served)), commit]

/-- A qualified warning in service begins the drain (R267, R269). -/
theorem warnQualify_warned {s : State} (running : s.clk.running = true) (phase : s.pwr.phase = .service) :
    Warned s (doPwrWarnQualify s) := by
  obtain ⟨u, hu, early, late⟩ := doPwrWarnQualify_service phase running
  have noted : u = { s with regs := u.regs, ev := u.ev } := by rw [hu]; exact raise_frame ..
  by_cases served : s.pwr.stage = .served
  · rw [late served]
    exact drainBegun_warned noted served
  · have time : now u = now s := by
      unfold now
      rw [noted]
    rw [early served, time]
    exact {
      phase := rfl
      instant := rfl
      early := (decide_eq_true served).symm
      undone := fun here => absurd here served
      stands := fun _ => by rw [noted]
      pins := by rw [noted]
      keys := by rw [noted]
      nv := by rw [noted]
      clk := by rw [noted] }

-- Pulses and returns

section
variable {s : State}

theorem warnQualify_out (running : s.clk.running = true) (other : s.pwr.phase ≠ .service) :
    doPwrWarnQualify s = { s with pwr := { s.pwr with returned := none } } := by
  unfold doPwrWarnQualify
  rw [running]
  split
  · next stopped => cases stopped
  · next phase _ => exact absurd phase other
  · rfl

theorem shortPulse_out (running : s.clk.running = true) (other : s.pwr.phase ≠ .service) (n : Nat) :
    doPwrWarnShortPulse n s = { s with pwr := { s.pwr with returned := none } } := by
  unfold doPwrWarnShortPulse
  rw [running]
  split
  · next stopped => cases stopped
  · next phase _ => exact absurd phase other
  · rfl

theorem warnReturn_out (other : s.pwr.phase ≠ .service) :
    doPwrWarnReturn s = { s with pwr := { s.pwr with returned := some (frameNo s) } } := by
  unfold doPwrWarnReturn
  split
  · next phase => exact absurd phase other
  · rfl

/-- The glitches of the frame with one more (R391, Table 02.5). -/
def glitched (n : Nat) (s : State) : FrameSum :=
  { (tabFind s.ev.sums warnGlitchKey).getD {} with
    count := ((tabFind s.ev.sums warnGlitchKey).getD {}).count + 1, a := max ((tabFind s.ev.sums warnGlitchKey).getD {}).a n }

/-- A short pulse in service is a glitch (R267). -/
theorem shortPulse_counts (running : s.clk.running = true) (service : s.pwr.phase = .service) (n : Nat) :
    doPwrWarnShortPulse n s = { regPut 0x6300 1 0 (min (regVal s 0x6300 1 0 + 1) (2 ^ 32 - 1)) s with
      ev := { s.ev with sums := tabSet s.ev.sums warnGlitchKey (glitched n s) } } := by
  have large : typeMax 0x6300 1 = 2 ^ 32 - 1 := by decide +kernel
  have counted : count1 0x6300 1 0 s = regPut 0x6300 1 0 (min (regVal s 0x6300 1 0 + 1) (2 ^ 32 - 1)) s := by
    unfold count1 countUp
    rw [large]
    exact congrArg (fun v => regPut 0x6300 1 0 v s) (if_neg (by decide))
  unfold doPwrWarnShortPulse
  rw [running, service]
  dsimp only
  rw [counted]
  rfl

-- The end of the drain

theorem drainComplete_parks (draining : s.pwr.phase = .draining) (ended : drainOver s = true) :
    doDrainComplete s = { regPut 0x6300 2 0 (min (now s - s.pwr.qualAt) (2 ^ 32 - 1)) (regPut 0x6300 3 0 s.pwr.drainWrites s) with
      pins := { s.pins with persistOk := true }, pwr := { s.pwr with phase := .parked, parkedAt := frameNo s } } := by
  unfold doDrainComplete
  rw [if_pos ⟨draining, ended⟩]
  rfl

theorem drainComplete_waits (pending : drainOver s = false) : doDrainComplete s = s := by
  unfold doDrainComplete
  rw [if_neg fun due => Bool.false_ne_true (pending.symm.trans due.2)]

/-- A late drain is reported (R272). -/
theorem drainLate_raises (draining : s.pwr.phase = .draining) (late : s.pwr.late = false) : ∃ wait ports,
    doDrainLate s = raise .drainLate (srcGlobal 2) (drainMask s) wait ports { s with pwr := { s.pwr with late := true } } := by
  unfold doDrainLate
  rw [if_pos ⟨draining, late⟩]
  exact ⟨_, _, rfl⟩

theorem drainOver_of (clean : s.pwr.interrupted = false → s.pwr.sessionDone = true)
    (idle : s.pwr.interrupted = true → s.nvu.page = none) : drainOver s = true := by
  unfold drainOver
  split
  · next early => rw [idle early, Option.isNone_none]
  · next late => exact clean (Bool.eq_false_iff.2 late)

end

/-- Settles O15. -/
theorem powerWarningDrainsToParked : Obligations.PowerWarningDrainsToParked := by
  unfold Obligations.PowerWarningDrainsToParked
  refine ⟨fun s running phase => ?_, fun s running other => ⟨congrArg Host.Outcome.next (warnQualify_out running other),
      fun n => congrArg Host.Outcome.next (shortPulse_out running other n.toNat)⟩,
    fun s other => congrArg Host.Outcome.next (warnReturn_out other), fun n s running service => ?_,
    fun s draining clean idle => ?_, fun s draining late pending => ?_, fun s draining late => ?_, fun s late => ?_⟩
  · obtain ⟨phase, instant, early, undone, stands, pins, keys, nv, clk⟩ := warnQualify_warned running phase
    exact ⟨_, rfl, phase, instant, early, undone, stands, pins, keys, nv, clk⟩
  · refine ⟨_, congrArg Host.Outcome.next (shortPulse_counts running service n.toNat), rfl, fun f found => ?_⟩
    show tabFind (tabSet s.ev.sums warnGlitchKey (glitched n.toNat s)) warnGlitchKey = _
    rw [tabFind_tabSet, if_pos rfl, glitched, found]
    rfl
  · refine ⟨_, congrArg Host.Outcome.next (drainComplete_parks draining (drainOver_of clean idle)), rfl, rfl, ?_, ?_, rfl⟩
    · show regVal (regPut 0x6300 2 0 _ (regPut 0x6300 3 0 s.pwr.drainWrites s)) 0x6300 3 0 = _
      rw [regVal_regPut_ne _ _ _ _ _ _ _ _ (by decide +kernel), regVal_regPut_same]
    · show regVal (regPut 0x6300 2 0 _ (regPut 0x6300 3 0 s.pwr.drainWrites s)) 0x6300 2 0 = _
      rw [regVal_regPut_same]
  · refine congrArg Host.Outcome.next (drainComplete_waits ?_)
    unfold drainOver
    rw [late, if_neg Bool.false_ne_true, pending]
  · obtain ⟨wait, ports, raised⟩ := drainLate_raises draining late
    exact ⟨wait, ports, congrArg Host.Outcome.next raised⟩
  · refine congrArg Host.Outcome.next ?_
    unfold doDrainLate
    rw [if_neg fun due => Bool.false_ne_true (due.2.symm.trans late)]

end Sys2Proof.Machine

/-! SUPPORT. Repairs at start-up: rows, pipes and slices (R289 to R292, R301 to R304). -/

namespace Sys2Proof.Machine

-- The registers that start-up sets itself

/-- ENGINE_ID and BIST_RESULT, which start-up writes outside the repairs themselves. -/
def startRegs : List (Nat × Nat) := [(0x1000, 6), (0x2400, 5)]

theorem startRegs_quiet {r : Nat × Nat} (here : r ∈ startRegs) : RegQuiet r.1 r.2 0 := by
  unfold startRegs at here
  simp only [List.mem_cons, List.not_mem_nil, or_false] at here
  rcases here with rfl | rfl
  · exact ⟨by decide, by decide, by decide, by decide, by decide⟩
  · exact ⟨by decide, by decide, by decide, by decide, by decide⟩

theorem startRegs_uncounted {r : Nat × Nat} (here : r ∈ startRegs) {sub : Nat} (counter : sub ∈ [7, 0x0C, 0x0D, 0x0E, 0x0F]) :
    okey r.1 r.2 0 ≠ okey 0x2400 sub 0 :=
  (show ∀ r ∈ startRegs, ∀ sub ∈ [7, 0x0C, 0x0D, 0x0E, 0x0F], okey r.1 r.2 0 ≠ okey 0x2400 sub 0 by decide +kernel) r here sub counter

/-- A register below the source table stays at an occurrence of any source, the pending alerts apart. -/
theorem regVal_raiseSev_low {e : Ev} {sev src p1 p2 p3 : Nat} {s : State} {idx sub row : Nat}
    (low : okey idx sub row < okey 0x4004 0 0) (alert : okey idx sub row ≠ okey 0x2500 5 0) :
    regVal (raiseSev e sev src p1 p2 p3 s) idx sub row = regVal s idx sub row := by
  have rowNe : ∀ k, k < 256 → okey idx sub row ≠ okey 0x4004 k src := fun k _ same => by
    rw [same] at low
    unfold okey at low
    omega
  unfold raiseSev
  split
  · rfl
  · dsimp only
    generalize hu : srcNote src _ sev _ s = u
    have note : regVal u idx sub row = regVal s idx sub row := by rw [← hu, regVal_srcNote rowNe]
    split
    · rw [regVal_alertSet alert]
      exact note
    · exact note

theorem regVal_raiseSev_start {e : Ev} {sev src p1 p2 p3 : Nat} {s : State} {r : Nat × Nat} (here : r ∈ startRegs) :
    regVal (raiseSev e sev src p1 p2 p3 s) r.1 r.2 0 = regVal s r.1 r.2 0 :=
  regVal_raiseSev_low
    ((show ∀ r ∈ startRegs, okey r.1 r.2 0 < okey 0x4004 0 0 by decide +kernel) r here)
    ((show ∀ r ∈ startRegs, okey r.1 r.2 0 ≠ okey 0x2500 5 0 by decide +kernel) r here)

-- What a repair may change

/-- What the repairs of start-up do to the machine: records, events and counts, the slices and the port that loses its
slice, the lanes; fault_n stays low once it is, lanes that are held down stay down, and the column repairs and the spare rows
in use stay (R289 to R292). -/
structure Repairs (s t : State) : Prop where
  frame : t = { s with regs := t.regs, ev := t.ev, nvu := t.nvu, media := t.media, rep := t.rep, links := t.links
                       keys := { s.keys with slots := t.keys.slots }, pins := { s.pins with faultLow := t.pins.faultLow } }
  faulted : s.pins.faultLow = true → t.pins.faultLow = true
  cols : t.rep.cols = s.rep.cols
  spares : ∀ x ∈ s.rep.spares, x ∈ t.rep.spares
  regs : ∀ r ∈ startRegs, regVal t r.1 r.2 0 = regVal s r.1 r.2 0
  lanes : ∀ p, (linkOf s p).bistDown = true → (linkOf t p).bistDown = true

/-- A slice keeps what it has lost: retired pipes stay retired, a lost slice stays lost (R301, R302). -/
structure LossesStay (s t : State) : Prop where
  pipes : ∀ i p, (pipeOf (sliceOf s i) p).st = 2 → (pipeOf (sliceOf t i) p).st = 2
  lost : ∀ i, (sliceOf s i).st = 3 → (sliceOf t i).st = 3

/-- Rows that are remapped stay remapped. -/
def RemapStays (s t : State) : Prop := ∀ r k, tabFind s.rep.remap r = some k → tabFind t.rep.remap r = some k

namespace Repairs
variable {s t u : State}

theorem refl (s : State) : Repairs s s := ⟨rfl, id, rfl, fun _ h => h, fun _ _ => rfl, fun _ h => h⟩

theorem trans (h : Repairs s t) (g : Repairs t u) : Repairs s u where
  frame := by rw [g.frame, h.frame]
  faulted low := g.faulted (h.faulted low)
  cols := g.cols.trans h.cols
  spares x there := g.spares x (h.spares x there)
  regs r here := (g.regs r here).trans (h.regs r here)
  lanes p down := g.lanes p (h.lanes p down)

/-- A step that leaves fault_n, columns, spares and registers alone. -/
theorem of_parts (regs : t.regs = s.regs) (cols : t.rep.cols = s.rep.cols) (spares : ∀ x ∈ s.rep.spares, x ∈ t.rep.spares)
    (h : t = { s with nvu := t.nvu, media := t.media, rep := t.rep, keys := { s.keys with slots := t.keys.slots } }) :
    Repairs s t where
  frame := by rw [h]
  faulted low := by rw [h]; exact low
  cols := cols
  spares := spares
  regs r _ := regVal_congr regs ..
  lanes p down := by rw [h]; exact down

theorem raiseSev (e : Ev) (sev src a b c : Nat) (s : State) : Repairs s (Machine.raiseSev e sev src a b c s) where
  frame := by rw [raiseSev_frame]
  faulted low := by rw [raiseSev_frame]; exact low
  cols := by rw [raiseSev_frame]
  spares x there := by rw [raiseSev_frame]; exact there
  regs r here := regVal_raiseSev_start here
  lanes p down := by rw [raiseSev_frame]; exact down

theorem raise (e : Ev) (src a b c : Nat) (s : State) : Repairs s (Machine.raise e src a b c s) := raiseSev ..

theorem count {sub : Nat} (counter : sub ∈ [7, 0x0C, 0x0D, 0x0E, 0x0F]) (n : Nat) (s : State) :
    Repairs s (countUp 0x2400 sub 0 n s) :=
  ⟨rfl, id, rfl, fun _ h => h, fun _ here => regVal_countUp_ne (startRegs_uncounted here counter), fun _ h => h⟩

theorem nvPush (j : NvJob) (s : State) : Repairs s (Machine.nvPush j s) where
  frame := by rw [nvPush_frame]
  faulted low := by rw [nvPush_frame]; exact low
  cols := by rw [nvPush_frame]
  spares x there := by rw [nvPush_frame]; exact there
  regs r here := regVal_nvPush (startRegs_quiet here)
  lanes p down := by rw [nvPush_frame]; exact down

theorem slicePut (i : Nat) (x : Slice) (s : State) : Repairs s (Machine.slicePut i x s) :=
  ⟨rfl, id, rfl, fun _ h => h, fun _ _ => rfl, fun _ h => h⟩

end Repairs

theorem LossesStay.refl (s : State) : LossesStay s s := ⟨fun _ _ h => h, fun _ h => h⟩

theorem LossesStay.trans {s t u : State} (h : LossesStay s t) (g : LossesStay t u) : LossesStay s u :=
  ⟨fun i p gone => g.pipes i p (h.pipes i p gone), fun i gone => g.lost i (h.lost i gone)⟩

theorem LossesStay.of_slices {s t : State} (same : t.rep.slices = s.rep.slices) : LossesStay s t := by
  have slice : ∀ i, sliceOf t i = sliceOf s i := fun i => by
    unfold sliceOf
    rw [same]
  exact ⟨fun i p gone => by rw [slice]; exact gone, fun i gone => by rw [slice]; exact gone⟩

theorem LossesStay.slicePut {i : Nat} {x : Slice} {s : State} (pipes : ∀ p, (pipeOf (sliceOf s i) p).st = 2 → (pipeOf x p).st = 2)
    (lost : (sliceOf s i).st = 3 → x.st = 3) : LossesStay s (slicePut i x s) where
  pipes j p gone := by
    rw [sliceOf_slicePut]
    split
    · next same => exact pipes p (same ▸ gone)
    · exact gone
  lost j gone := by
    rw [sliceOf_slicePut]
    split
    · next same => exact lost (same ▸ gone)
    · exact gone

-- Pipes and slices

/-- What the loss of pipes and slices does: repairs of which no loss is taken back, with the rows as they were. -/
structure SliceWork (s t : State) : Prop where
  repairs : Repairs s t
  losses : LossesStay s t
  remap : t.rep.remap = s.rep.remap

namespace SliceWork
variable {s t u : State}

theorem refl (s : State) : SliceWork s s := ⟨.refl s, .refl s, rfl⟩

theorem trans (h : SliceWork s t) (g : SliceWork t u) : SliceWork s u :=
  ⟨h.repairs.trans g.repairs, h.losses.trans g.losses, g.remap.trans h.remap⟩

theorem raiseSev (e : Ev) (sev src a b c : Nat) (s : State) : SliceWork s (Machine.raiseSev e sev src a b c s) :=
  ⟨.raiseSev .., .of_slices (by rw [raiseSev_frame]), by rw [raiseSev_frame]⟩

theorem raise (e : Ev) (src a b c : Nat) (s : State) : SliceWork s (Machine.raise e src a b c s) := raiseSev ..

theorem nvPush (j : NvJob) (s : State) : SliceWork s (Machine.nvPush j s) :=
  ⟨.nvPush .., .of_slices (by rw [nvPush_frame]), by rw [nvPush_frame]⟩

theorem slicePut {i : Nat} {x : Slice} (pipes : ∀ p, (pipeOf (sliceOf s i) p).st = 2 → (pipeOf x p).st = 2)
    (lost : (sliceOf s i).st = 3 → x.st = 3) : SliceWork s (slicePut i x s) :=
  ⟨.slicePut .., .slicePut pipes lost, rfl⟩

/-- A step on the ports or on the notes of the repair unit. -/
theorem of_notes (regs : t.regs = s.regs) (rep : t.rep.slices = s.rep.slices ∧ t.rep.remap = s.rep.remap ∧
    t.rep.cols = s.rep.cols ∧ t.rep.spares = s.rep.spares) (h : t = { s with media := t.media, rep := t.rep }) : SliceWork s t := by
  obtain ⟨slices, remap, cols, spares⟩ := rep
  exact ⟨.of_parts regs cols (fun x there => by rw [spares]; exact there) (by rw [h]), .of_slices slices, remap⟩

end SliceWork

theorem logAppend_work (e : LogEnt) (s : State) : SliceWork s (logAppend e s) := by
  unfold logAppend
  split
  · dsimp only
    have noted : SliceWork s { s with rep := { s.rep with notLogged := s.rep.notLogged + 1, logFull := true } } :=
      .of_notes rfl ⟨rfl, rfl, rfl, rfl⟩ rfl
    split
    · exact noted
    · exact noted.trans (.raise ..)
  · next i _ =>
    have placed : SliceWork s { s with rep := { s.rep with logPlaces := insertNat i s.rep.logPlaces } } :=
      .of_notes rfl ⟨rfl, rfl, rfl, rfl⟩ rfl
    exact placed.trans (.nvPush ..)

theorem logAppend_slices (e : LogEnt) (s : State) : (logAppend e s).rep.slices = s.rep.slices := by
  unfold logAppend
  split
  · dsimp only
    split
    · rfl
    · rw [raise_frame]
  · dsimp only
    rw [nvPush_frame]

/-- The log of a loss is written where it is not itself applied (R289, R290). -/
def logged (log : Bool) (e : LogEnt) (s : State) : State := if log then logAppend e s else s

theorem logged_work (log : Bool) (e : LogEnt) (s : State) : SliceWork s (logged log e s) := by
  unfold logged
  split
  · exact logAppend_work ..
  · exact .refl s

theorem sliceOf_logged (log : Bool) (e : LogEnt) (s : State) (i : Nat) : sliceOf (logged log e s) i = sliceOf s i := by
  unfold sliceOf logged
  split
  · rw [logAppend_slices]
  · rfl

theorem topLose_work (s : State) : SliceWork s (topLose s) := by
  have gone : SliceWork s { s with rep := { s.rep with topGone := true } } := .of_notes rfl ⟨rfl, rfl, rfl, rfl⟩ rfl
  unfold topLose
  exact gone.trans (.raise ..)

theorem portUnserve_work (m : Nat) (s : State) : SliceWork s (portUnserve m s) :=
  ⟨⟨rfl, fun _ => rfl, rfl, fun _ h => h, fun _ _ => rfl, fun _ h => h⟩, .of_slices rfl, rfl⟩

/-- A slice loses its place to another state: its pipes stay as they are. -/
theorem slicePut_loses {i : Nat} {x : Slice} {s : State} (pipes : x.pipes = (sliceOf s i).pipes)
    (lost : (sliceOf s i).st = 3 → x.st = 3) : SliceWork s (slicePut i x s) :=
  .slicePut (fun p gone => by unfold pipeOf; rw [pipes]; exact gone) lost

/-- The loss of a slice, after the log entry that names it (R302). -/
def lossOf (i : Nat) (log : Bool) (x top : Slice) (s : State) : State :=
  if x.st = 1 then
    topLose (raise .sliceLost (srcSlice i 3) (pipeMask (retiredPipes x)) 0xFF 2 (slicePut i { x with st := 3, doomed := false } s))
  else if i ≠ 16 ∧ x.st = 0 ∧ s.rep.topGone = false ∧ top.st = 1 ∧ (retiredPipes top).length < 2 then
    logged log { kind := 4, slice := 16, port := x.port } (raise .sliceLost (srcSlice i 3) (pipeMask (retiredPipes x)) x.port 0
      (slicePut 16 { top with st := 0, port := x.port, shadow := 0, prio := [], standIn := none, noShadow := false }
        (slicePut i { x with st := 3, port := 255, doomed := false } s)))
  else if x.st = 0 ∧ 8 ≤ (goodPipes x).length then
    raise .degraded (srcMedia x.port 1) i (goodPipes x).length 0
      (raise .sliceLost (srcSlice i 3) (pipeMask (retiredPipes x)) x.port 1
        (mediaMod x.port (fun y => { y with degraded := true })
          (slicePut i { degradedMap x with st := 2, doomed := false, standIn := none } s)))
  else
    raise .portUnserved (srcMedia x.port 1) i (goodPipes x).length 0
      (raise .sliceLost (srcSlice i 3) (pipeMask (retiredPipes x)) x.port 2
        (portUnserve x.port (slicePut i { x with st := 3, port := 255, doomed := false } s)))

theorem sliceLose_eq (i : Nat) (log : Bool) (s : State) :
    sliceLose i log s = lossOf i log (sliceOf s i) (sliceOf s 16) (logged log { kind := 3, slice := i } s) := rfl

theorem mediaMod_work {f : Media → Media} (m : Nat) (s : State) : SliceWork s (mediaMod m f s) :=
  .of_notes rfl ⟨rfl, rfl, rfl, rfl⟩ rfl

theorem lossOf_work {i : Nat} {log : Bool} {x top : Slice} {s : State} (own : x = sliceOf s i) (spinning : top = sliceOf s 16) :
    SliceWork s (lossOf i log x top s) := by
  have left : SliceWork s (slicePut i { x with st := 3, port := 255, doomed := false } s) :=
    slicePut_loses (by rw [own]) fun _ => rfl
  unfold lossOf
  split
  · have unbound : SliceWork s (slicePut i { x with st := 3, doomed := false } s) := slicePut_loses (by rw [own]) fun _ => rfl
    exact (unbound.trans (.raise ..)).trans (topLose_work _)
  · split
    · next bound =>
      obtain ⟨other, -, -, free, -⟩ := bound
      have top' : sliceOf (slicePut i { x with st := 3, port := 255, doomed := false } s) 16 = top := by
        rw [sliceOf_slicePut, if_neg (Ne.symm other), spinning]
      have takes := slicePut_loses (i := 16) (s := slicePut i { x with st := 3, port := 255, doomed := false } s)
        (x := { top with st := 0, port := x.port, shadow := 0, prio := [], standIn := none, noShadow := false })
        (by rw [top']) (fun lost => by rw [top', free] at lost; cases lost)
      exact ((left.trans takes).trans (.raise ..)).trans (logged_work ..)
    · split
      · next serves =>
        have fewer : SliceWork s (slicePut i { degradedMap x with st := 2, doomed := false, standIn := none } s) :=
          slicePut_loses (by rw [own]; rfl) fun lost => by rw [← own, serves.1] at lost; cases lost
        exact ((fewer.trans (mediaMod_work ..)).trans (.raise ..)).trans (.raise ..)
      · exact ((left.trans (portUnserve_work ..)).trans (.raise ..)).trans (.raise ..)

theorem sliceLose_work (i : Nat) (log : Bool) (s : State) : SliceWork s (sliceLose i log s) := by
  rw [sliceLose_eq]
  exact (logged_work log _ s).trans (lossOf_work (sliceOf_logged ..).symm (sliceOf_logged ..).symm)

theorem pipeOf_pipePut (p q : Nat) (v : PipeSt) (x : Slice) : pipeOf (pipePut p v x) q = if q = p then v else pipeOf x q := by
  unfold pipeOf pipePut
  exact tabGet_tabPut ..

/-- What a retired pipe leaves to the others is duties and the checker alone (R301). -/
def Reassigned (x y : Slice) : Prop := y = { x with duty := y.duty, checker := y.checker }

theorem Reassigned.trans {x y z : Slice} (h : Reassigned x y) (g : Reassigned y z) : Reassigned x z := by
  unfold Reassigned at *
  rw [g, h]

theorem retireDuties_reassigned (free : Bool) (l : List Nat) (x : Slice) :
    Reassigned x (l.foldl (fun x d => if free = true then { x with duty := dutySet x.duty d 10 } else x) x) := by
  induction l generalizing x with
  | nil => rfl
  | cons d l ih =>
    have first : Reassigned x (if free = true then { x with duty := dutySet x.duty d 10 } else x) := by
      split
      · rfl
      · rfl
    exact first.trans (ih _)

theorem retireAssign_reassigned (p : Nat) (x : Slice) : Reassigned x (retireAssign p x) := by
  have duties := retireDuties_reassigned (p10Free x && decide ((pipeOf x 10).st = 0)) (pipeDuties x.duty p) x
  unfold retireAssign
  dsimp only
  generalize List.foldl _ x (pipeDuties x.duty p) = y at duties ⊢
  split
  · rw [duties]; rfl
  · exact duties

/-- A slice after pipe p is retired: its duties go to the pipes that are left (R301, R303). -/
def pipeGone (p : Nat) (x : Slice) : Slice :=
  let y := pipePut p { pipeOf x p with st := 2 } x
  if y.st = 2 then degradedMap y else if y.st = 3 then y else retireAssign p y

theorem pipeGone_st (p : Nat) (x : Slice) : (pipeGone p x).st = x.st := by
  unfold pipeGone
  dsimp only
  split
  · rfl
  · split
    · rfl
    · rw [retireAssign_reassigned p (pipePut p _ x)]; rfl

theorem pipeOf_pipeGone (p q : Nat) (x : Slice) :
    pipeOf (pipeGone p x) q = if q = p then { pipeOf x p with st := 2 } else pipeOf x q := by
  rw [← pipeOf_pipePut]
  unfold pipeGone
  dsimp only
  split
  · rfl
  · split
    · rfl
    · rw [retireAssign_reassigned p (pipePut p _ x)]; rfl

/-- The events of a retirement, and its log entry, at last that the checker is gone where it is (Table 14.10). -/
def retireNoted (i p : Nat) (bist log : Bool) (x : Slice) (s : State) : State :=
  let d := retireDuty x p
  let y := pipeGone p x
  let suspect := if d = 0xFF then 0 else tabGet 0 x.lastPass d
  let u := logged log { kind := 2, slice := i, pipe := p }
    (raise .pipeRetired (srcSlice i 2) (p + 256 * d) (suspect % 2 ^ 32) (if bist then 1 else 0) s)
  if x.checker ≠ 255 ∧ y.checker = 255 then raise .checkerLost (srcSlice i 2) (pipeMask (retiredPipes y)) 0 0 u else u

theorem pipeRetire_eq (i p : Nat) (bist log : Bool) (s : State) :
    pipeRetire i p bist log s = retireNoted i p bist log (sliceOf s i) (slicePut i (pipeGone p (sliceOf s i)) s) := by
  unfold pipeRetire retireNoted
  dsimp only
  simp only [decide_eq_true_eq]
  rfl

theorem retireNoted_work (i p : Nat) (bist log : Bool) (x : Slice) (s : State) : SliceWork s (retireNoted i p bist log x s) := by
  unfold retireNoted
  dsimp only
  split
  · exact ((SliceWork.raise ..).trans (logged_work ..)).trans (.raise ..)
  · exact (SliceWork.raise ..).trans (logged_work ..)

theorem pipeGone_work (i p : Nat) (s : State) : SliceWork s (slicePut i (pipeGone p (sliceOf s i)) s) := by
  apply SliceWork.slicePut
  · intro q gone
    rw [pipeOf_pipeGone]
    split
    · rfl
    · exact gone
  · intro lost
    rw [pipeGone_st]
    exact lost

theorem pipeRetire_work (i p : Nat) (bist log : Bool) (s : State) : SliceWork s (pipeRetire i p bist log s) := by
  rw [pipeRetire_eq]
  exact (pipeGone_work ..).trans (retireNoted_work ..)

theorem pipeRetire_retires (i p : Nat) (bist log : Bool) (s : State) :
    (pipeOf (sliceOf (pipeRetire i p bist log s) i) p).st = 2 := by
  rw [pipeRetire_eq]
  apply (retireNoted_work ..).losses.pipes
  rw [sliceOf_slicePut, if_pos rfl, pipeOf_pipeGone, if_pos rfl]

theorem sliceJudge_work (i : Nat) (log : Bool) (s : State) : SliceWork s (sliceJudge i log s) := by
  unfold sliceJudge
  dsimp only
  split
  · split
    · exact topLose_work s
    · exact .refl s
  · split
    · exact sliceLose_work ..
    · exact .refl s

end Sys2Proof.Machine

/-! SUPPORT. Row repairs and the fuse load (R289, R292, R344, R371). -/

namespace Sys2Proof.Machine

-- Row repairs

theorem RemapStays.refl (s : State) : RemapStays s s := fun _ _ there => there

theorem RemapStays.trans {s t u : State} (h : RemapStays s t) (g : RemapStays t u) : RemapStays s u :=
  fun r k there => g r k (h r k there)

theorem RemapStays.of_same {s t : State} (same : t.rep.remap = s.rep.remap) : RemapStays s t := fun _ _ there => by
  rw [same]
  exact there

theorem tabFind_rowRemap (mac row spare : Nat) (s : State) (r : Nat) :
    tabFind (rowRemap mac row spare s).rep.remap r = if r = rowNo mac row then some spare else tabFind s.rep.remap r :=
  tabFind_tabSet ..

theorem rowRemap_remapStays {mac row : Nat} {s : State} (new : tabFind s.rep.remap (rowNo mac row) = none) (spare : Nat) :
    RemapStays s (rowRemap mac row spare s) := fun r k there => by
  rw [tabFind_rowRemap, if_neg]
  · exact there
  · rintro rfl
    rw [new] at there
    cases there

theorem rowRemap_repairs (mac row spare : Nat) (s : State) : Repairs s (rowRemap mac row spare s) :=
  .of_parts rfl rfl (fun _ there => mem_insertNat.2 (.inr there)) rfl

/-- The row can take the spare: both are in range, and neither is in use (R289). -/
structure RowFree (s : State) (mac row spare : Nat) : Prop where
  inRange : mac < 768 ∧ row < 1024 ∧ spare < 4
  new : tabFind s.rep.remap (rowNo mac row) = none
  unused : mac * 4 + spare ∉ s.rep.spares

theorem rowFree_iff {s : State} {mac row spare : Nat} : rowFree s mac row spare = true ↔ RowFree s mac row spare := by
  unfold rowFree
  simp only [Bool.and_eq_true, decide_eq_true_eq, Option.isNone_iff_eq_none, Bool.not_eq_true', ← Bool.not_eq_true,
    List.contains_iff_mem]
  constructor
  · rintro ⟨⟨⟨⟨mac, row⟩, spare⟩, new⟩, unused⟩
    exact ⟨⟨mac, row, spare⟩, new, unused⟩
  · rintro ⟨⟨mac, row, spare⟩, new, unused⟩
    exact ⟨⟨⟨⟨mac, row⟩, spare⟩, new⟩, unused⟩

-- Repairs from the fuse image and the repair log

/-- What the fuse load does to the machine: repairs, with every row that was repaired before them (R289). -/
structure FuseWork (s t : State) : Prop where
  repairs : Repairs s t
  remap : RemapStays s t

namespace FuseWork
variable {s t u : State}

theorem refl (s : State) : FuseWork s s := ⟨.refl s, .refl s⟩

theorem trans (h : FuseWork s t) (g : FuseWork t u) : FuseWork s u := ⟨h.repairs.trans g.repairs, h.remap.trans g.remap⟩

theorem count {sub : Nat} (counter : sub ∈ [7, 0x0C, 0x0D, 0x0E, 0x0F]) (n : Nat) (s : State) :
    FuseWork s (countUp 0x2400 sub 0 n s) := ⟨.count counter n s, .refl s⟩

theorem slicePut (i : Nat) (x : Slice) (s : State) : FuseWork s (Machine.slicePut i x s) := ⟨.slicePut i x s, .refl s⟩

theorem foldl {α : Type} {f : State → α → State} (each : ∀ s x, FuseWork s (f s x)) (l : List α) (s : State) :
    FuseWork s (l.foldl f s) := by
  induction l generalizing s with
  | nil => exact .refl s
  | cons x l ih => exact (each s x).trans (ih _)

end FuseWork

theorem SliceWork.fuse {s t : State} (h : SliceWork s t) : FuseWork s t := ⟨h.repairs, .of_same h.remap⟩

/-- A row is repaired from a record of it, and counted, where it can be (R289). -/
def rowRestore (sub mac row spare : Nat) (s : State) : State := countUp 0x2400 sub 0 1 (rowRemap mac row spare s)

theorem rowRestore_fuse {sub mac row spare : Nat} {s : State} (counter : sub ∈ [7, 0x0C, 0x0D, 0x0E, 0x0F])
    (free : rowFree s mac row spare = true) : FuseWork s (rowRestore sub mac row spare s) :=
  (⟨rowRemap_repairs .., rowRemap_remapStays (rowFree_iff.1 free).new spare⟩ : FuseWork s _).trans (.count counter ..)

theorem logIgnore_fuse (s : State) : FuseWork s (logIgnore s) := .count (by decide) ..

theorem logApply_fuse (e : LogEnt) (s : State) : FuseWork s (logApply e s) := by
  unfold logApply
  split
  · split
    · next free => exact rowRestore_fuse (by decide) free
    · exact logIgnore_fuse s
  · split
    · exact logIgnore_fuse s
    · exact (pipeRetire_work ..).fuse
  · split
    · exact logIgnore_fuse s
    · exact (sliceLose_work ..).fuse
  · dsimp only
    split
    · exact logIgnore_fuse s
    · split
      · exact .refl s
      · split
        · exact (FuseWork.foldl (fun s i => by
            split
            · exact .slicePut ..
            · exact .refl s) _ s).trans (.slicePut ..)
        · exact logIgnore_fuse s

theorem logPlace_fuse (s : State) (i : Nat) : FuseWork s (logPlace s i) := by
  unfold logPlace
  split
  · exact logApply_fuse ..
  · split
    · exact logIgnore_fuse s
    · exact .refl s

/-- One row of the fuse image. -/
def fuseRow (s : State) (r : Nat × Nat × Nat) : State :=
  if rowFree s r.1 r.2.1 r.2.2 then rowRestore 0x0C r.1 r.2.1 r.2.2 s else s

theorem fuseRow_fuse (s : State) (r : Nat × Nat × Nat) : FuseWork s (fuseRow s r) := by
  unfold fuseRow
  split
  · next free => exact rowRestore_fuse (by decide) free
  · exact .refl s

/-- The rows and the spare rows of a list of repairs. -/
def rowsOf (l : List (Nat × Nat × Nat)) : List Nat := l.map fun r => rowNo r.1 r.2.1
def sparesOf (l : List (Nat × Nat × Nat)) : List Nat := l.map fun r => r.1 * 4 + r.2.2

/-- A row that can take its spare still can once another row took another spare. -/
theorem RowFree.of_other {s : State} {r q : Nat × Nat × Nat} (free : RowFree s q.1 q.2.1 q.2.2)
    (row : rowNo q.1 q.2.1 ≠ rowNo r.1 r.2.1) (spare : q.1 * 4 + q.2.2 ≠ r.1 * 4 + r.2.2) :
    RowFree (rowRestore 0x0C r.1 r.2.1 r.2.2 s) q.1 q.2.1 q.2.2 where
  inRange := free.inRange
  new := (tabFind_rowRemap ..).trans ((if_neg row).trans free.new)
  unused there := (mem_insertNat.1 there).elim spare free.unused

/-- Distinct rows with distinct spares are all repaired. -/
theorem fuseRows_remap {l : List (Nat × Nat × Nat)} {s : State} (free : ∀ r ∈ l, RowFree s r.1 r.2.1 r.2.2)
    (rows : (rowsOf l).Nodup) (spares : (sparesOf l).Nodup) :
    ∀ r ∈ l, tabFind (l.foldl fuseRow s).rep.remap (rowNo r.1 r.2.1) = some r.2.2 := by
  induction l generalizing s with
  | nil => exact fun r there => nomatch there
  | cons r l ih =>
    obtain ⟨row, rows⟩ := List.nodup_cons.1 rows
    obtain ⟨spare, spares⟩ := List.nodup_cons.1 spares
    have now : fuseRow s r = rowRestore 0x0C r.1 r.2.1 r.2.2 s := if_pos (rowFree_iff.2 (free r (.head l)))
    intro q there
    rw [List.foldl_cons, now]
    rcases List.mem_cons.1 there with rfl | there
    · exact (FuseWork.foldl fuseRow_fuse l _).remap _ _ ((tabFind_rowRemap ..).trans (if_pos rfl))
    · refine ih (fun q there => ?_) rows spares q there
      refine (free q (.tail r there)).of_other (fun same => row (List.mem_map.2 ⟨q, there, same⟩))
        fun same => spare (List.mem_map.2 ⟨q, there, same⟩)

-- The fuse load

/-- The machine with the session's count and the repair log's places read, before the repairs (R289). -/
def fuseRead (powerCycles : Nat) (places : List Nat) (s : State) : State :=
  { s with nvu := { s.nvu with powerCycles := powerCycles }, rep := { s.rep with logPlaces := places } }

/-- The repairs are in force: pin_oe rises and BIST begins (R289, R371). -/
def fuseEnd (s : State) : State := { s with pins := { s.pins with pinOe := true }, pwr := { s.pwr with stage := .bist } }

/-- A good fuse image before its rows: the column repairs and ENGINE_ID. -/
def fuseGood (img : FuseImage) (s : State) : State :=
  regPut 0x1000 6 0 img.engineId.toNat { s with rep := { s.rep with cols := img.cols } }

theorem fuseApply_good {img : FuseImage} (ok : img.ok = true) (s : State) :
    fuseApply img s = img.rows.foldl fuseRow (fuseGood img s) := if_pos ok

theorem fuseApply_bad {img : FuseImage} (bad : img.ok = false) (s : State) :
    fuseApply img s = faultLow (raise .fuseFault (srcGlobal 36) 0 0 0 s) :=
  if_neg fun x => Bool.false_ne_true (bad.symm.trans x)

theorem doFuseLoadDone_eq {img : FuseImage} {s : State} (runs : s.clk.running = true) (stage : s.pwr.stage = .fuse) :
    ∃ n places listed, doFuseLoadDone img s = fuseEnd ((listed : List Nat).foldl logPlace (fuseApply img (fuseRead n places s))) :=
  ⟨_, _, _, if_pos ⟨runs, stage⟩⟩

/-- A bad image is reported: fault_n is low, and ENGINE_ID stays (R289, R344). -/
theorem fuseApply_reports {img : FuseImage} (bad : img.ok = false) (s : State) :
    (fuseApply img s).pins.faultLow = true ∧ regVal (fuseApply img s) 0x1000 6 0 = regVal s 0x1000 6 0 := by
  rw [fuseApply_bad bad]
  exact ⟨rfl, (Repairs.raise .fuseFault (srcGlobal 36) 0 0 0 s).regs (0x1000, 6) (.head _)⟩

/-- A good image is in force: ENGINE_ID, the column repairs and the rows (R289, R344). -/
theorem fuseApply_inForce {img : FuseImage} (ok : img.ok = true) (s : State) :
    regVal (fuseApply img s) 0x1000 6 0 = img.engineId.toNat ∧ (fuseApply img s).rep.cols = img.cols ∧
      (s.rep.remap = [] → s.rep.spares = [] → (∀ r ∈ img.rows, r.1 < 768 ∧ r.2.1 < 1024 ∧ r.2.2 < 4) →
        (rowsOf img.rows).Nodup → (sparesOf img.rows).Nodup →
        ∀ r ∈ img.rows, tabFind (fuseApply img s).rep.remap (rowNo r.1 r.2.1) = some r.2.2) := by
  rw [fuseApply_good ok]
  have work := (FuseWork.foldl fuseRow_fuse img.rows (fuseGood img s)).repairs
  refine ⟨?_, work.cols, fun noRows noSpares inRange rows spares => fuseRows_remap (fun r there => ?_) rows spares⟩
  · exact (work.regs (0x1000, 6) (.head _)).trans (regVal_regPut_same ..)
  · refine ⟨inRange r there, ?_, ?_⟩
    · exact (congrArg (tabFind · _) noRows).trans rfl
    · exact fun used => nomatch (noSpares ▸ used : _ ∈ [])

/-- The fuse load puts ENGINE_ID and the repairs of a good image in force, reports a bad one, and lets pin_oe rise (R289,
R344, R371). -/
theorem fuseLoadDone_repairs (img : FuseImage) (s : State) (runs : s.clk.running = true) (stage : s.pwr.stage = .fuse) :
    ∃ t, exec (.fuseLoadDone img) s = .next t ∧ t.pins.pinOe = true ∧ t.pwr.stage = .bist ∧
      (img.ok = false → t.pins.faultLow = true ∧ regVal t 0x1000 6 0 = regVal s 0x1000 6 0) ∧
      (img.ok = true → regVal t 0x1000 6 0 = img.engineId.toNat ∧ t.rep.cols = img.cols ∧
        (s.rep.remap = [] → s.rep.spares = [] → (∀ r ∈ img.rows, r.1 < 768 ∧ r.2.1 < 1024 ∧ r.2.2 < 4) →
          (img.rows.map (fun r => rowNo r.1 r.2.1)).Nodup → (img.rows.map (fun r => r.1 * 4 + r.2.2)).Nodup →
          ∀ r ∈ img.rows, tabFind t.rep.remap (rowNo r.1 r.2.1) = some r.2.2)) ∧
      t.nv = s.nv ∧ t.clk = s.clk ∧ t.pending = s.pending := by
  have done : exec (.fuseLoadDone img) s = .next (doFuseLoadDone img s) := rfl
  obtain ⟨nv, clk⟩ := exec_nv_clk done rfl
  have pending : (doFuseLoadDone img s).pending = s.pending := congrArg Prod.fst (exec_kept done rfl)
  refine ⟨_, done, ?_⟩
  generalize hu : doFuseLoadDone img s = u at nv clk pending ⊢
  obtain ⟨n, places, listed, ends⟩ := doFuseLoadDone_eq (img := img) runs stage
  have log := FuseWork.foldl logPlace_fuse listed (fuseApply img (fuseRead n places s))
  have u_eq := hu.symm.trans ends
  generalize listed.foldl logPlace (fuseApply img (fuseRead n places s)) = v at log u_eq
  subst u_eq
  refine ⟨rfl, rfl, fun bad => ?_, fun ok => ?_, nv, clk, pending⟩
  · obtain ⟨low, id'⟩ := fuseApply_reports bad (fuseRead n places s)
    exact ⟨log.repairs.faulted low, (log.repairs.regs (0x1000, 6) (.head _)).trans id'⟩
  · obtain ⟨id', cols, rows⟩ := fuseApply_inForce ok (fuseRead n places s)
    exact ⟨(log.repairs.regs (0x1000, 6) (.head _)).trans id', log.repairs.cols.trans cols,
      fun noRows noSpares inRange distinct apart r there => log.remap _ _ (rows noRows noSpares inRange distinct apart r there)⟩

end Sys2Proof.Machine

/-! SUPPORT. The failures that BIST finds (R291, R292, Table 14.3). -/

namespace Sys2Proof.Machine

-- What the handling of failures does

/-- What BIST does to the machine: repairs of which none is taken back, and bits of BIST_RESULT that rise (R291, R292). -/
structure Bisted (s t : State) : Prop where
  frame : t = { s with regs := t.regs, ev := t.ev, nvu := t.nvu, media := t.media, rep := t.rep, links := t.links
                       keys := { s.keys with slots := t.keys.slots }, pins := { s.pins with faultLow := t.pins.faultLow } }
  spares : ∀ x ∈ s.rep.spares, x ∈ t.rep.spares
  lanes : ∀ p, (linkOf s p).bistDown = true → (linkOf t p).bistDown = true
  losses : LossesStay s t
  bits : ∀ b, (regVal s 0x2400 5 0).testBit b = true → (regVal t 0x2400 5 0).testBit b = true

namespace Bisted
variable {s t u : State}

theorem of_repairs (h : Repairs s t) (losses : LossesStay s t) : Bisted s t where
  frame := h.frame
  spares := h.spares
  lanes := h.lanes
  losses := losses
  bits b high := by rw [h.regs (0x2400, 5) (.tail _ (.head _))]; exact high

theorem refl (s : State) : Bisted s s := of_repairs (.refl s) (.refl s)

theorem trans (h : Bisted s t) (g : Bisted t u) : Bisted s u where
  frame := by rw [g.frame, h.frame]
  spares x there := g.spares x (h.spares x there)
  lanes p down := g.lanes p (h.lanes p down)
  losses := h.losses.trans g.losses
  bits b high := g.bits b (h.bits b high)

theorem of_rows (h : Repairs s t) (same : t.rep.slices = s.rep.slices) : Bisted s t := of_repairs h (.of_slices same)

theorem raiseSev (e : Ev) (sev src a b c : Nat) (s : State) : Bisted s (Machine.raiseSev e sev src a b c s) :=
  of_rows (.raiseSev ..) (by rw [raiseSev_frame])

theorem count {sub : Nat} (counter : sub ∈ [7, 0x0C, 0x0D, 0x0E, 0x0F]) (n : Nat) (s : State) :
    Bisted s (countUp 0x2400 sub 0 n s) := of_rows (.count counter n s) rfl

theorem foldl {α : Type} {f : State → α → State} (each : ∀ s x, Bisted s (f s x)) (l : List α) (s : State) :
    Bisted s (l.foldl f s) := by
  induction l generalizing s with
  | nil => exact .refl s
  | cons x l ih => exact (each s x).trans (ih _)

end Bisted

theorem SliceWork.bisted {s t : State} (h : SliceWork s t) : Bisted s t := .of_repairs h.repairs h.losses

-- Rows and spare rows

theorem rowBad_bisted (mac row : Nat) (s : State) : Bisted s (rowBad mac row s) := by
  have listed : Bisted s { s with rep := { s.rep with badRows := insertNat (rowNo mac row) s.rep.badRows } } :=
    .of_rows (.of_parts rfl rfl (fun _ there => there) rfl) rfl
  have counted := listed.trans (.count (sub := 0x0E) (by decide) 1 _)
  unfold rowBad
  dsimp only
  split
  · exact counted.trans (.of_rows (.of_parts rfl rfl (fun _ there => there) rfl) rfl)
  · split
    · exact counted
    · exact counted.trans (.count (by decide) ..)

theorem rowRemap_bisted (mac row spare : Nat) (s : State) : Bisted s (rowRemap mac row spare s) :=
  .of_rows (rowRemap_repairs ..) rfl

theorem bistRow_bisted (mac row : Nat) (soft : Bool) (s : State) : Bisted s (bistRow mac row soft s) := by
  unfold bistRow
  split
  · split
    · exact ((rowRemap_bisted ..).trans (.count (by decide) ..)).trans (logAppend_work ..).bisted
    · exact (rowRemap_bisted ..).trans (logAppend_work ..).bisted
  · have noted : Bisted s { s with rep := { s.rep with outNoted := insertNat (rowNo mac row) s.rep.outNoted } } :=
      .of_rows (.of_parts rfl rfl (fun _ there => there) rfl) rfl
    exact (noted.trans (rowBad_bisted ..)).trans (.raiseSev ..)

theorem logAppend_remap (e : LogEnt) (s : State) : (logAppend e s).rep.remap = s.rep.remap := (logAppend_work e s).remap

/-- A failing row with a free spare is remapped to it (R292). -/
theorem bistRow_remaps {mac k : Nat} {s : State} (free : spareFree s mac = some k) (row : Nat) (soft : Bool) :
    tabFind (bistRow mac row soft s).rep.remap (rowNo mac row) = some k := by
  unfold bistRow
  rw [free]
  dsimp only
  rw [logAppend_remap]
  split
  · exact (tabFind_rowRemap ..).trans (if_pos rfl)
  · exact (tabFind_rowRemap ..).trans (if_pos rfl)

/-- A spare row that failed is in use for good. -/
def spareGone (mac k : Nat) (s : State) : State :=
  { s with rep := { s.rep with spares := insertNat (mac * 4 + k) s.rep.spares } }

theorem spareGone_bisted (mac k : Nat) (s : State) : Bisted s (spareGone mac k s) :=
  .of_rows (.of_parts rfl rfl (fun _ there => mem_insertNat.2 (.inr there)) rfl) rfl

/-- The handling of a failing spare row: the row that it served is repaired again (Table 14.3). -/
def bistSpare (mac k : Nat) (s : State) : State :=
  match spareRow s mac k with
  | some row => bistRow mac row false (spareGone mac k s)
  | none => spareGone mac k s

theorem bistOne_spare (s : State) (mac k : Nat) : bistOne s (.spare mac k) = if mac < 768 ∧ k < 4 then bistSpare mac k s else s := by
  rfl

theorem bistSpare_after (mac k : Nat) (s : State) : Bisted (spareGone mac k s) (bistSpare mac k s) := by
  unfold bistSpare
  split
  · exact bistRow_bisted ..
  · exact .refl _

-- Lanes

theorem laneDown_bisted (p : Nat) (s : State) : Bisted s (linkMod p (fun x => { x with bistDown := true }) s) := by
  refine .of_rows ⟨rfl, id, rfl, fun _ there => there, fun _ _ => rfl, fun q down => ?_⟩ rfl
  rw [linkOf_linkMod]
  split
  · rfl
  · exact down

-- One failure

theorem bistOne_row (s : State) (mac row : Nat) :
    bistOne s (.row mac row) = if mac < 768 ∧ row < 1024 then bistRow mac row true s else s := rfl

theorem bistOne_pipe (s : State) (i : Fin 17) (p : Fin 12) : bistOne s (.pipe i p) =
    if (pipeOf (sliceOf s i.val) p.val).st = 2 ∨ (sliceOf s i.val).st = 3 then s
    else sliceJudge i.val true (pipeRetire i.val p.val true true s) := rfl

/-- A slice that fails as a whole is lost (Table 14.3). -/
def bistSlice (i : Nat) (s : State) : State := if (sliceOf s i).st = 3 then s else sliceLose i true s

theorem bistOne_ghash (s : State) (i : Fin 17) : bistOne s (.ghash i) = bistSlice i.val s := rfl
theorem bistOne_mixer (s : State) (i : Fin 17) : bistOne s (.mixer i) = bistSlice i.val s := rfl

theorem bistSlice_bisted (i : Nat) (s : State) : Bisted s (bistSlice i s) := by
  unfold bistSlice
  split
  · exact .refl s
  · exact (sliceLose_work ..).bisted

theorem bistOne_bisted (s : State) (b : BistFail) : Bisted s (bistOne s b) := by
  cases b with
  | row mac row =>
    rw [bistOne_row]
    split
    · exact bistRow_bisted ..
    · exact .refl s
  | spare mac k =>
    rw [bistOne_spare]
    split
    · exact (spareGone_bisted ..).trans (bistSpare_after ..)
    · exact .refl s
  | pipe i p =>
    rw [bistOne_pipe]
    split
    · exact .refl s
    · exact (pipeRetire_work ..).bisted.trans (sliceJudge_work ..).bisted
  | ghash i => rw [bistOne_ghash]; exact bistSlice_bisted ..
  | mixer i => rw [bistOne_mixer]; exact bistSlice_bisted ..
  | lfx p => exact laneDown_bisted ..

/-- What the handling of a failure leaves for good: a pipe retired or its slice lost, a spare row used no more, a lane held
down (Table 14.3). -/
def Handled (b : BistFail) (t : State) : Prop :=
  match b with
  | .pipe i p => (pipeOf (sliceOf t i.val) p.val).st = 2 ∨ (sliceOf t i.val).st = 3
  | .spare mac k => mac < 768 → k < 4 → mac * 4 + k ∈ t.rep.spares
  | .lfx p => (linkOf t p.val).bistDown = true
  | _ => True

theorem Handled.later {b : BistFail} {s t : State} (h : Handled b s) (work : Bisted s t) : Handled b t := by
  cases b with
  | pipe i p => exact h.imp (work.losses.pipes i p) (work.losses.lost i)
  | spare mac k => exact fun inMacro inRange => work.spares _ (h inMacro inRange)
  | lfx p => exact work.lanes p h
  | row | ghash | mixer => trivial

theorem bistOne_handles (s : State) (b : BistFail) : Handled b (bistOne s b) := by
  cases b with
  | pipe i p =>
    rw [bistOne_pipe]
    split
    · next gone => exact gone
    · exact .inl ((sliceJudge_work ..).losses.pipes _ _ (pipeRetire_retires ..))
  | spare mac k =>
    intro inMacro inRange
    rw [bistOne_spare, if_pos ⟨inMacro, inRange⟩]
    exact (bistSpare_after mac k s).spares _ (mem_insertNat.2 (.inl rfl))
  | lfx p => exact congrArg LinkSt.bistDown (linkOf_linkMod_same ..)
  | row | ghash | mixer => trivial

theorem foldl_bistOne_handles {l : List BistFail} (s : State) : ∀ b ∈ l, Handled b (l.foldl bistOne s) := by
  induction l generalizing s with
  | nil => exact fun b there => nomatch there
  | cons c l ih =>
    intro b there
    rcases List.mem_cons.1 there with rfl | there
    · exact (bistOne_handles s b).later (.foldl bistOne_bisted l _)
    · exact ih (bistOne s c) b there

theorem bistAll_fst (s : State) (l : List BistFail) : (bistAll s l).1 = l.foldl bistOne s := by
  unfold bistAll
  generalize true = m
  induction l generalizing s m with
  | nil => rfl
  | cons b l ih => exact ih ..

-- The failures of one kind

/-- The failures of one kind. -/
def ofKind (fails : List BistFail) (k : Nat) : List BistFail := fails.filter (fun b => bistBit b == k)

theorem bistKind_none {fails : List BistFail} {k : Nat} (none : ofKind fails k = []) (s : State) : bistKind fails s k = s := by
  unfold ofKind at none
  unfold bistKind
  dsimp only
  rw [none]

/-- The bit of a kind rises in BIST_RESULT above the value that it had before the failures of the kind (R292). -/
def kindNoted (before k : Nat) (s : State) : State := regPut 0x2400 5 0 (before ||| 2 ^ k) s

theorem bistKind_some {fails : List BistFail} {k : Nat} (some : ofKind fails k ≠ []) (s : State) : ∃ sev n m,
    bistKind fails s k = raiseSev .bistFail sev (srcGlobal 35) k n m
      (kindNoted (regVal s 0x2400 5 0) k ((ofKind fails k).foldl bistOne s)) := by
  unfold bistKind
  dsimp only
  split
  · next none => exact absurd none some
  · rw [bistAll_fst]
    exact ⟨_, _, _, rfl⟩

theorem regVal_kindNoted (before k : Nat) (s : State) : regVal (kindNoted before k s) 0x2400 5 0 = before ||| 2 ^ k :=
  regVal_regPut_same ..

theorem Bisted.kindNoted {s t : State} (h : Bisted s t) (k : Nat) : Bisted s (kindNoted (regVal s 0x2400 5 0) k t) where
  frame := by
    unfold Machine.kindNoted
    rw [h.frame]
    rfl
  spares := h.spares
  lanes := h.lanes
  losses := h.losses.trans (.of_slices rfl)
  bits b high := by rw [regVal_kindNoted, Nat.testBit_or, high]; rfl

theorem bistKind_bisted (fails : List BistFail) (s : State) (k : Nat) : Bisted s (bistKind fails s k) := by
  by_cases none : ofKind fails k = []
  · rw [bistKind_none none]
    exact .refl s
  · obtain ⟨sev, n, m, eq⟩ := bistKind_some none s
    rw [eq]
    exact ((Bisted.foldl bistOne_bisted ..).kindNoted k).trans (.raiseSev ..)

theorem mem_ofKind {fails : List BistFail} {b : BistFail} (there : b ∈ fails) : b ∈ ofKind fails (bistBit b) :=
  List.mem_filter.2 ⟨there, beq_self_eq_true _⟩

/-- A failure of the kind is handled, and its bit rises. -/
theorem bistKind_handles {fails : List BistFail} {b : BistFail} (there : b ∈ fails) (s : State) :
    Handled b (bistKind fails s (bistBit b)) ∧ (regVal (bistKind fails s (bistBit b)) 0x2400 5 0).testBit (bistBit b) = true := by
  have mine := mem_ofKind there
  obtain ⟨sev, n, m, eq⟩ := bistKind_some (List.ne_nil_of_mem mine) s
  generalize hu : kindNoted _ _ _ = u at eq
  have noted : (regVal u 0x2400 5 0).testBit (bistBit b) = true := by
    rw [← hu, regVal_kindNoted, Nat.testBit_or, Nat.testBit_two_pow_self, Bool.or_true]
  have handled : Handled b u := by
    rw [← hu]
    exact foldl_bistOne_handles s b mine
  rw [eq]
  exact ⟨handled.later (.raiseSev ..), (Bisted.raiseSev ..).bits _ noted⟩

theorem bistBit_lt (b : BistFail) : bistBit b < 5 := by
  unfold bistBit
  split <;> omega

/-- The kinds in turn: each failure is handled in the turn of its kind. -/
theorem foldl_bistKind_handles {fails : List BistFail} {b : BistFail} (there : b ∈ fails) {kinds : List Nat} (turn : bistBit b ∈ kinds)
    (s : State) : Handled b (kinds.foldl (bistKind fails) s) ∧
      (regVal (kinds.foldl (bistKind fails) s) 0x2400 5 0).testBit (bistBit b) = true := by
  induction kinds generalizing s with
  | nil => cases turn
  | cons k kinds ih =>
    rcases List.mem_cons.1 turn with now | later
    · obtain ⟨handled, bit⟩ := bistKind_handles there s
      have rest := Bisted.foldl (bistKind_bisted fails) kinds (bistKind fails s (bistBit b))
      rw [List.foldl_cons, ← now]
      exact ⟨handled.later rest, rest.bits _ bit⟩
    · exact ih later (bistKind fails s k)

-- BIST_DONE

/-- The failures of every kind handled (R292). -/
def bistKinds (fails : List BistFail) (s : State) : State := (List.range 5).foldl (bistKind fails) s

/-- The mode of BIST is left, and recovery begins (R291). -/
def bistEnd (mode : Nat) (s : State) : State := regPut 0x2400 4 0 mode { s with pwr := { s.pwr with stage := .recovery } }

theorem doBistDone_eq {fails : List BistFail} {s : State} (runs : s.clk.running = true) (stage : s.pwr.stage = .bist) :
    doBistDone fails s = bistEnd (if (bistKinds fails s).pwr.bistShort then 1 else 0) (bistKinds fails s) := if_pos ⟨runs, stage⟩

theorem bistKinds_bisted (fails : List BistFail) (s : State) : Bisted s (bistKinds fails s) := .foldl (bistKind_bisted fails) ..

theorem bistKinds_nil (s : State) : bistKinds [] s = s :=
  foldl_keeps id (bistKind []) (fun u k => bistKind_none (k := k) (fails := []) rfl u) _ s

/-- A single failing row with a free spare is remapped to it. -/
theorem bistKinds_row {mac row k : Nat} {s : State} (inMacro : mac < 768) (inRange : row < 1024) (free : spareFree s mac = some k) :
    tabFind (bistKinds [.row mac row] s).rep.remap (rowNo mac row) = some k := by
  have other : ∀ k, 0 < k → ofKind [.row mac row] k = [] := fun k pos =>
    List.filter_eq_nil_iff.2 fun b there => by
      rw [List.mem_singleton.1 there, beq_iff_eq]
      exact fun same => absurd same (Nat.ne_of_lt pos)
  have only : bistKinds [.row mac row] s = bistKind [.row mac row] s 0 := by
    unfold bistKinds
    rw [show List.range 5 = [0, 1, 2, 3, 4] from rfl]
    simp only [List.foldl_cons, List.foldl_nil]
    rw [bistKind_none (other 4 (by decide)), bistKind_none (other 3 (by decide)), bistKind_none (other 2 (by decide)),
      bistKind_none (other 1 (by decide))]
  obtain ⟨sev, n, m, eq⟩ := bistKind_some (List.ne_nil_of_mem (mem_ofKind (List.mem_singleton_self (.row mac row)))) s
  rw [only, show (0 : Nat) = bistBit (.row mac row) from rfl, eq, raiseSev_frame]
  show tabFind (bistOne s (.row mac row)).rep.remap _ = _
  rw [bistOne_row, if_pos ⟨inMacro, inRange⟩]
  exact bistRow_remaps free row true

/-- BIST leaves its mode and a bit for each kind of target that failed; a row with a free spare is remapped, a pipe retired,
a lane held down (R291, R292). -/
theorem bistDone_handles (fails : List BistFail) (s : State) (runs : s.clk.running = true) (stage : s.pwr.stage = .bist) :
    ∃ t, exec (.bistDone fails) s = .next t ∧ t.pwr.stage = .recovery ∧
      regVal t 0x2400 4 0 = (if s.pwr.bistShort then 1 else 0) ∧ t.nv = s.nv ∧ t.clk = s.clk ∧ t.pins.pinOe = s.pins.pinOe ∧
      t.keys.kek = s.keys.kek ∧ t.cfg = s.cfg ∧ t.rk = s.rk ∧ t.pool = s.pool ∧
      (fails = [] → t = regPut 0x2400 4 0 (if s.pwr.bistShort then 1 else 0) { s with pwr := t.pwr }) ∧
      (∀ b ∈ fails, (regVal t 0x2400 5 0).testBit (bistBit b) = true) ∧
      (∀ p : Fin 128, .lfx p ∈ fails → (linkOf t p).bistDown = true) ∧
      (∀ (i : Fin 17) (p : Fin 12), .pipe i p ∈ fails → (pipeOf (sliceOf t i) p).st = 2 ∨ (sliceOf t i).st = 3) ∧
      (∀ mac k, .spare mac k ∈ fails → mac < 768 → k < 4 → mac * 4 + k ∈ t.rep.spares) ∧
      (∀ mac row k, fails = [.row mac row] → mac < 768 → row < 1024 → spareFree s mac = some k →
        tabFind t.rep.remap (rowNo mac row) = some k) := by
  have done : exec (.bistDone fails) s = .next (doBistDone fails s) := rfl
  obtain ⟨nv, clk⟩ := exec_nv_clk done rfl
  refine ⟨_, done, ?_⟩
  generalize hw : doBistDone fails s = w at nv clk ⊢
  have w_eq := hw.symm.trans (doBistDone_eq runs stage)
  have kept := bistKinds_bisted fails s
  have handled : ∀ b ∈ fails, Handled b (bistKinds fails s) ∧ (regVal (bistKinds fails s) 0x2400 5 0).testBit (bistBit b) = true :=
    fun b there => foldl_bistKind_handles there (List.mem_range.2 (bistBit_lt b)) s
  have empty : fails = [] → bistKinds fails s = s := by
    rintro rfl
    exact bistKinds_nil s
  have row : ∀ mac row k, fails = [.row mac row] → mac < 768 → row < 1024 → spareFree s mac = some k →
      tabFind (bistKinds fails s).rep.remap (rowNo mac row) = some k := by
    rintro mac row k rfl inMacro inRange free
    exact bistKinds_row inMacro inRange free
  generalize bistKinds fails s = u at w_eq kept handled empty row
  have mode : u.pwr.bistShort = s.pwr.bistShort := by rw [kept.frame]
  rw [mode] at w_eq
  subst w_eq
  have result : ∀ n, regVal (bistEnd n u) 0x2400 5 0 = regVal u 0x2400 5 0 := fun n =>
    regVal_regPut_ne _ _ _ _ _ _ _ _ (by decide)
  refine ⟨rfl, regVal_regPut_same .., nv, clk, ?_, ?_, ?_, ?_, ?_, fun none => ?_, fun b there => ?_,
    fun p there => (handled _ there).1, fun i p there => (handled _ there).1, fun mac k there => (handled _ there).1, row⟩
  · show u.pins.pinOe = _; rw [kept.frame]
  · show u.keys.kek = _; rw [kept.frame]
  · show u.cfg = _; rw [kept.frame]
  · show u.rk = _; rw [kept.frame]
  · show u.pool = _; rw [kept.frame]
  · rw [empty none]; rfl
  · rw [result]; exact (handled b there).2

end Sys2Proof.Machine

/-! SUPPORT. What recovery restores (R282, R284, R285, R390). -/

namespace Sys2Proof.Machine

-- What recovery may change

/-- What recovery does to the machine: records of its own, events, the tables of slots, format entries and contexts. -/
def Recovers (s t : State) : Prop :=
  t = { s with free := t.free, regs := t.regs, ev := t.ev, nvu := t.nvu, rk := t.rk, keys := { s.keys with slots := t.keys.slots } }

namespace Recovers
variable {s t u : State}

theorem refl (s : State) : Recovers s s := rfl

theorem trans (h : Recovers s t) (g : Recovers t u) : Recovers s u := by
  unfold Recovers at *
  rw [g, h]

theorem raise (e : Ev) (src a b c : Nat) (s : State) : Recovers s (Machine.raise e src a b c s) := by
  unfold Recovers
  rw [raise_frame]

theorem nvPush (j : NvJob) (s : State) : Recovers s (Machine.nvPush j s) := by
  unfold Recovers
  rw [nvPush_frame]

theorem nvNote (a cause : Nat) (s : State) : Recovers s (Machine.nvNote a cause s) :=
  Recovers.trans (t := countUp 0x6300 6 0 1 s) rfl (raise ..)

theorem selNote (r : Option Nat × Bool) (s : State) : Recovers s (Machine.selNote r s) := by
  unfold Machine.selNote
  split
  · exact nvNote ..
  · exact refl s

theorem foldl {α : Type} {f : State → α → State} (each : ∀ s x, Recovers s (f s x)) (l : List α) (s : State) :
    Recovers s (l.foldl f s) := by
  induction l generalizing s with
  | nil => exact refl s
  | cons x l ih => exact (each s x).trans (ih _)

theorem slotPut (k : Nat) (x : Slot) (s : State) : Recovers s (Machine.slotPut k x s) := rfl

theorem seedMarks (k ext mark : Nat) (s : State) : Recovers s (Machine.seedMarks k ext mark s) := by
  unfold Machine.seedMarks
  exact foldl (f := fun s e => regPut 0x4003 4 (k * 4 + e) (if e < ext then walkEnd else if e = ext then mark else 0) s)
    (fun _ _ => rfl) _ s

theorem rkEnqueue (k cause : Nat) (s : State) : Recovers s (Machine.rkEnqueue k cause s) := by
  unfold Machine.rkEnqueue
  split
  · exact refl s
  · rfl

theorem nv (h : Recovers s t) : t.nv = s.nv := by
  rw [h]

end Recovers

-- One record of each kind

/-- The choice between the two copies of slot k's record (R280). -/
def slotSel (s : State) (k : Nat) : Option Nat × Bool := nvSelect s (0x30000 + k * 8) (0x70000 + k * 8) (slotRecValid s)

/-- Slot k as the record at a copy's address leaves it: recorded, and without material (R284, R285). -/
def slotFrom (k a : Nat) (s : State) : State :=
  if nvNat s (a + 1) 1 % 8 = 0 then s
  else slotPut k { st := slotStOf (nvNat s (a + 1) 1 % 8), gen := BitVec.ofNat 32 (nvNat s (a + 2) 4),
                   asel := (nvNat s (a + 1) 1).testBit 3, brec := (nvNat s (a + 1) 1).testBit 4,
                   restored := true, rowBad := (slotOf s k).rowBad } s

theorem recSlot_none {s : State} {k : Nat} (none : (slotSel s k).1 = none) :
    recSlot s k = if k = 0 then s else selNote (slotSel s k) s := by
  unfold slotSel at none
  unfold recSlot recSelect slotSel
  dsimp only
  rw [none]

theorem recSlot_some {s : State} {k a : Nat} (some : (slotSel s k).1 = some a) :
    recSlot s k = if k = 0 then s else slotFrom k a (selNote (slotSel s k) s) := by
  unfold slotSel at some
  unfold recSlot recSelect slotSel
  dsimp only
  rw [some]
  rfl

theorem slotFrom_recovers (k a : Nat) (s : State) : Recovers s (slotFrom k a s) := by
  unfold slotFrom
  split
  · exact .refl s
  · exact .slotPut ..

theorem recSlot_recovers (s : State) (k : Nat) : Recovers s (recSlot s k) := by
  rcases hsel : (slotSel s k).1 with _ | a
  · rw [recSlot_none hsel]
    split
    · exact .refl s
    · exact .selNote ..
  · rw [recSlot_some hsel]
    split
    · exact .refl s
    · exact (Recovers.selNote ..).trans (slotFrom_recovers ..)

theorem recSelect_recovers (a b : Nat) (valid : Nat → Bool) (s : State) : Recovers s (recSelect a b valid s).2 := .selNote ..

theorem fmtSlots_recovers (l : Tab Nat) (s : State) : Recovers s { s with nvu := { s.nvu with fmtSlots := l } } := rfl

theorem recFmt_recovers (s : State) (j : Nat) : Recovers s (recFmt s j) := by
  have sel := recSelect_recovers (0x3000 + j * 0x10) (0x4000 + j * 0x10) (fmtValid s) s
  unfold recFmt
  rcases hsel : recSelect _ _ _ _ with ⟨_ | a, u⟩
  · rw [hsel] at sel
    exact sel
  · rw [hsel] at sel
    dsimp only
    split
    · exact sel
    · split
      · exact sel.trans (.nvPush ..)
      · split
        · exact sel
        · exact (sel.trans (fmtSlots_recovers ..)).trans (.seedMarks ..)

theorem recFree_recovers (k : Nat) (s : State) : Recovers s (recFree k s) := by
  unfold recFree
  split
  · exact .refl s
  · unfold fmtRelease
    exact ((Recovers.nvPush ..).trans (fmtSlots_recovers ..)).trans (.seedMarks ..)

theorem recFinish_recovers (k : CkptRec) (s : State) : Recovers s (recFinish k s) := by
  unfold recFinish
  dsimp only
  split
  · exact (Recovers.slotPut ..).trans (.nvPush ..)
  · exact (Recovers.slotPut ..).trans (.nvPush ..)
  · exact recFree_recovers ..
  · exact ((Recovers.slotPut ..).trans (.nvPush ..)).trans (recFree_recovers ..)

theorem ckptAdd_recovers (k : CkptRec) (a : List CkptRec × State) : Recovers a.2 (ckptAdd k a).2 := by
  unfold ckptAdd
  split
  · exact .refl _
  · split
    · exact .nvNote ..
    · exact .nvNote ..

theorem recCkpt_recovers (n : Nat) (acc : List CkptRec × State) (c : Nat) : Recovers acc.2 (recCkpt n acc c).2 := by
  have sel := recSelect_recovers (0x1000 + c * 0x40) (0x2000 + c * 0x40) (ckptValid acc.2 c) acc.2
  unfold recCkpt
  rcases hsel : recSelect _ _ _ _ with ⟨_ | a, u⟩
  · rw [hsel] at sel
    exact sel
  · rw [hsel] at sel
    dsimp only
    split
    · split
      · exact sel.trans (recFinish_recovers ..)
      · exact sel
    · split
      · exact sel.trans (ckptAdd_recovers _ (acc.1, u))
      · exact sel.trans (.nvNote ..)

theorem foldl_recCkpt_recovers (n : Nat) (l : List Nat) (acc : List CkptRec × State) : Recovers acc.2 (l.foldl (recCkpt n) acc).2 := by
  induction l generalizing acc with
  | nil => exact .refl _
  | cons c l ih => exact (recCkpt_recovers n acc c).trans (ih _)

theorem recResume_recovers (s : State) (k : CkptRec) : Recovers s (recResume s k) := by
  have live := Recovers.slotPut k.kidx (recLive k (slotOf s k.kidx)) s
  have put : ∀ c x u, Recovers u (ctxPut c x u) := fun _ _ _ => rfl
  unfold recResume
  dsimp only
  split
  · exact (live.trans (.seedMarks ..)).trans (put ..)
  · split
    · exact (live.trans (.seedMarks ..)).trans (put ..)
    · exact live.trans (put ..)

theorem recQueue_recovers (l : List CkptRec) (s : State) (k : Nat) : Recovers s (recQueue l s k) := by
  have cond : ∀ (b : Prop) [Decidable b] (cause : Nat) (u : State), Recovers u (if b then rkEnqueue k cause u else u) :=
    fun b _ cause u => by
      split
      · exact .rkEnqueue ..
      · exact .refl u
  unfold recQueue
  exact ((cond _ 4 s).trans (cond _ 1 _)).trans (cond _ 3 _)

theorem recKcv_recovers (k place : Nat) (s : State) : Recovers s (recKcv k place s).2.2 := by
  unfold recKcv
  dsimp only
  split
  · exact .refl s
  · exact .nvNote ..

/-- The check value of a restored slot's material A, read from its place (Table 13.7). -/
def kcvARead (k : Nat) (s : State) : State :=
  let r := recKcv k (if (slotOf s k).asel then 1 else 0) s
  slotPut k { slotOf s k with kcvA := r.1, kcvABad := r.2.1 } r.2.2

/-- The check value of its material B, from the other place (Table 13.7). -/
def kcvBRead (k place : Nat) (s : State) : State :=
  let r := recKcv k place s
  slotPut k { slotOf r.2.2 k with kcvB := r.1, kcvBBad := r.2.1 } r.2.2

theorem recKcvs_eq (s : State) (k : Nat) : recKcvs s k =
    if (slotOf s k).st = .empty then s
    else if (slotOf s k).brec then kcvBRead k (if (slotOf s k).asel then 0 else 1) (kcvARead k s) else kcvARead k s := rfl

theorem kcvARead_recovers (k : Nat) (s : State) : Recovers s (kcvARead k s) := (recKcv_recovers ..).trans (.slotPut ..)

theorem kcvBRead_recovers (k place : Nat) (s : State) : Recovers s (kcvBRead k place s) := (recKcv_recovers ..).trans (.slotPut ..)

theorem recKcvs_recovers (s : State) (k : Nat) : Recovers s (recKcvs s k) := by
  rw [recKcvs_eq]
  split
  · exact .refl s
  · split
    · exact (kcvARead_recovers ..).trans (kcvBRead_recovers ..)
    · exact kcvARead_recovers ..

theorem recImage_recovers (s : State) : Recovers s (recImage s).2 := by
  have noted := Recovers.foldl (f := fun s a => if imageWindup s a = true ∧ (imageVals s a).isNone then nvNote a 3 s else s)
    (fun s a => by
      split
      · exact .nvNote ..
      · exact .refl s) [imageA, imageB] s
  unfold recImage
  dsimp only
  generalize List.foldl _ s [imageA, imageB] = u at noted ⊢
  have sel := recSelect_recovers imageA imageB (imageValid u) u
  rcases hsel : recSelect _ _ _ _ with ⟨_ | a, v⟩
  · rw [hsel] at sel
    exact (noted.trans sel).trans (.nvNote ..)
  · rw [hsel] at sel
    exact noted.trans sel

-- The tables

/-- The slots of whose records the store holds any byte. -/
def slotsListed (s : State) : List Nat := nvListed s 0x30000 0x80000 8 32768

/-- Slots and format entries restored, with the marks of the slots that hold none (R285). -/
def slotTables (s : State) : State :=
  let u := (slotsListed s).foldl recSlot s
  let v := (nvListed u 0x3000 0x2000 0x10 256).foldl recFmt u
  (slotsListed s).foldl (fun s k => if (slotOf s k).st ≠ .empty ∧ (fmtOf s k).isNone then seedMarks k 4 0 s else s) v

/-- The contexts that go on, with the check values and the causes of the slots (R285). -/
def ctxTables (slots : List Nat) (r : List CkptRec × State) : State :=
  slots.foldl (recQueue r.1) (slots.foldl recKcvs (r.1.foldl recResume r.2))

theorem recTables_snd (n : Nat) (s : State) : (recTables n s).2 =
    ctxTables (slotsListed s) ((nvListed (slotTables s) 0x1000 0x2000 0x40 64).foldl (recCkpt n) ([], slotTables s)) := rfl

/-- The marks of a restored slot without a format entry (R285). -/
theorem marksSeeded_recovers (s : State) (k : Nat) :
    Recovers s (if (slotOf s k).st ≠ .empty ∧ (fmtOf s k).isNone then seedMarks k 4 0 s else s) := by
  split
  · exact .seedMarks ..
  · exact .refl s

theorem slotTables_recovers (s : State) : Recovers s (slotTables s) :=
  ((Recovers.foldl recSlot_recovers ..).trans (.foldl recFmt_recovers ..)).trans (.foldl marksSeeded_recovers ..)

theorem ctxTables_recovers (slots : List Nat) (r : List CkptRec × State) : Recovers r.2 (ctxTables slots r) :=
  ((Recovers.foldl recResume_recovers ..).trans (.foldl recKcvs_recovers ..)).trans (.foldl (recQueue_recovers r.1) ..)

theorem recTables_recovers (n : Nat) (s : State) : Recovers s (recTables n s).2 := by
  rw [recTables_snd]
  exact ((slotTables_recovers s).trans (foldl_recCkpt_recovers n _ ([], slotTables s))).trans (ctxTables_recovers ..)

end Sys2Proof.Machine

/-! SUPPORT. The session record and the slots after recovery (R282, R284, R285). -/

namespace Sys2Proof.Machine

-- What is read from the NV store

theorem nvNat_congr {s t : State} (nv : t.nv = s.nv) (a n : Nat) : nvNat t a n = nvNat s a n := by
  unfold nvNat nvBytes nvByteAt
  rw [nv]

theorem nvSelect_congr {s t : State} (nv : t.nv = s.nv) (a b : Nat) (valid : Nat → Bool) :
    nvSelect t a b valid = nvSelect s a b valid := by
  unfold nvSelect
  simp only [nvNat_congr nv]

theorem windupOk_congr {s t : State} (nv : t.nv = s.nv) (a n : Nat) : windupOk t a n = windupOk s a n := by
  unfold windupOk nvBytes nvByteAt
  rw [nv]

theorem slotSel_congr {s t : State} (nv : t.nv = s.nv) (k : Nat) : slotSel t k = slotSel s k := by
  have valid : slotRecValid t = slotRecValid s := funext fun a => by
    unfold slotRecValid
    simp only [windupOk_congr nv, nvNat_congr nv]
  unfold slotSel
  rw [nvSelect_congr nv, valid]

/-- A number that a table does not list stands at its default. -/
theorem tabGet_unlisted {α : Type} {d : α} {t : Tab α} {i : Nat} (absent : ∀ e ∈ t, e.1 ≠ i) : tabGet d t i = d := by
  induction t with
  | nil => rfl
  | cons e t ih =>
    show (if i = e.1 then e.2 else tabGet d t i) = d
    rw [if_neg (Ne.symm (absent e (.head t))), ih fun x there => absent x (.tail e there)]

/-- A byte that is not zero is listed. -/
theorem exists_cell_of_nvNat {s : State} {a : Nat} (byte : nvNat s a 1 ≠ 0) : ∃ e ∈ s.nv, e.1 = a := by
  refine Classical.byContradiction fun none => byte ?_
  have absent : tabGet 0#8 s.nv a = 0#8 := tabGet_unlisted fun e there same => none ⟨e, there, same⟩
  show (tabGet 0#8 s.nv a).toNat + 256 * 0 = 0
  rw [absent]
  rfl

theorem mem_foldl_insert {p : Host.Cell → Prop} [DecidablePred p] {f : Host.Cell → Nat} {l : List Host.Cell} {acc : List Nat} {n : Nat} :
    n ∈ l.foldl (fun l e => if p e then insertNat (f e) l else l) acc ↔ n ∈ acc ∨ ∃ e ∈ l, p e ∧ f e = n := by
  induction l generalizing acc with
  | nil => simp
  | cons c l ih =>
    rw [List.foldl_cons, ih]
    split
    · next holds => simp [mem_insertNat, holds, eq_comm, or_left_comm, or_assoc]
    · next fails => simp [fails]

theorem mem_nvListed {s : State} {lo span size n k : Nat} :
    k ∈ nvListed s lo span size n ↔ ∃ e ∈ s.nv, (lo ≤ e.1 ∧ e.1 < lo + span) ∧ (e.1 - lo) / size % n = k := by
  unfold nvListed
  rw [mem_foldl_insert (p := fun e => lo ≤ e.1 ∧ e.1 < lo + span) (f := fun e => (e.1 - lo) / size % n)]
  simp

-- The slots

/-- What a slot record restores: the state, the generation and no material (R284, R285). -/
def recorded (x : Slot) : SlotSt × BitVec 32 × Option Mat × Option Mat × Bool := (x.st, x.gen, x.matA, x.matB, x.restored)

theorem slots_selNote (r : Option Nat × Bool) (s : State) : (selNote r s).keys.slots = s.keys.slots := by
  unfold selNote
  split
  · unfold nvNote
    rw [raise_frame]
    rfl
  · rfl

theorem slots_nvNote (a cause : Nat) (s : State) : (nvNote a cause s).keys.slots = s.keys.slots := by
  unfold nvNote
  rw [raise_frame]
  rfl

theorem slots_seedMarks (k ext mark : Nat) (s : State) : (seedMarks k ext mark s).keys.slots = s.keys.slots := by
  unfold seedMarks
  exact foldl_keeps (fun s => s.keys.slots)
    (fun s e => regPut 0x4003 4 (k * 4 + e) (if e < ext then walkEnd else if e = ext then mark else 0) s) (fun _ _ => rfl) _ s

theorem slots_recKcv (k place : Nat) (s : State) : (recKcv k place s).2.2.keys.slots = s.keys.slots := by
  unfold recKcv
  dsimp only
  split
  · rfl
  · exact slots_nvNote ..

theorem slots_recFmt (s : State) (j : Nat) : (recFmt s j).keys.slots = s.keys.slots := by
  have sel : (recSelect (0x3000 + j * 0x10) (0x4000 + j * 0x10) (fmtValid s) s).2.keys.slots = s.keys.slots := slots_selNote ..
  unfold recFmt
  rcases hsel : recSelect _ _ _ _ with ⟨_ | a, u⟩
  · rw [hsel] at sel
    exact sel
  · rw [hsel] at sel
    dsimp only
    split
    · exact sel
    · split
      · rw [nvPush_frame]
        exact sel
      · split
        · exact sel
        · rw [slots_seedMarks]
          exact sel

theorem slots_recQueue (l : List CkptRec) (s : State) (k : Nat) : (recQueue l s k).keys.slots = s.keys.slots := by
  have cond : ∀ (b : Prop) [Decidable b] (cause : Nat) (u : State),
      (if b then rkEnqueue k cause u else u).keys.slots = u.keys.slots := fun b _ cause u => by
    unfold rkEnqueue
    split
    · split
      · rfl
      · rfl
    · rfl
  unfold recQueue
  exact ((cond _ 3 _).trans (cond _ 1 _)).trans (cond _ 4 s)

theorem recorded_kcvARead (k : Nat) (s : State) (j : Nat) : recorded (slotOf (kcvARead k s) j) = recorded (slotOf s j) := by
  have same := slots_recKcv k (if (slotOf s k).asel then 1 else 0) s
  unfold kcvARead
  dsimp only
  rw [slotOf_slotPut]
  split
  · next own => rw [own]; rfl
  · rw [slotOf_congr same]

theorem recorded_kcvBRead (k place : Nat) (s : State) (j : Nat) : recorded (slotOf (kcvBRead k place s) j) = recorded (slotOf s j) := by
  have same := slots_recKcv k place s
  unfold kcvBRead
  dsimp only
  rw [slotOf_slotPut]
  split
  · next own =>
    rw [own, ← slotOf_congr same]
    rfl
  · rw [slotOf_congr same]

theorem recorded_recKcvs (s : State) (k j : Nat) : recorded (slotOf (recKcvs s k) j) = recorded (slotOf s j) := by
  rw [recKcvs_eq]
  split
  · rfl
  · split
    · rw [recorded_kcvBRead, recorded_kcvARead]
    · exact recorded_kcvARead ..

/-- What the record of slot k at a copy's address restores (R284, R285). -/
def recordAt (s : State) (a : Nat) : SlotSt × BitVec 32 × Option Mat × Option Mat × Bool :=
  (slotStOf (nvNat s (a + 1) 1 % 8), BitVec.ofNat 32 (nvNat s (a + 2) 4), none, none, true)

theorem recorded_slotFrom {s : State} {k a : Nat} (used : nvNat s (a + 1) 1 % 8 ≠ 0) (j : Nat) :
    recorded (slotOf (slotFrom k a s) j) = if j = k then recordAt s a else recorded (slotOf s j) := by
  unfold slotFrom
  rw [if_neg used, slotOf_slotPut]
  split
  · rfl
  · rfl

theorem slotFrom_other {s : State} {k a j : Nat} (other : j ≠ k) : slotOf (slotFrom k a s) j = slotOf s j := by
  unfold slotFrom
  split
  · rfl
  · rw [slotOf_slotPut, if_neg other]

theorem recSlot_other {s : State} {k j : Nat} (other : j ≠ k) : slotOf (recSlot s k) j = slotOf s j := by
  rcases hsel : (slotSel s k).1 with _ | a
  · rw [recSlot_none hsel]
    split
    · rfl
    · exact slotOf_congr (slots_selNote ..) j
  · rw [recSlot_some hsel]
    split
    · rfl
    · rw [slotFrom_other other, slotOf_congr (slots_selNote ..)]

theorem recSlot_restores {s : State} {k a : Nat} (valid : k ≠ 0) (sel : (slotSel s k).1 = some a)
    (used : nvNat s (a + 1) 1 % 8 ≠ 0) : recorded (slotOf (recSlot s k) k) = recordAt s a := by
  have nv : (selNote (slotSel s k) s).nv = s.nv := (Recovers.selNote ..).nv
  rw [recSlot_some sel, if_neg valid, recorded_slotFrom, if_pos rfl]
  · unfold recordAt
    simp only [nvNat_congr nv]
  · rw [nvNat_congr nv]
    exact used

/-- Slots in any order: each is restored by its own record. -/
theorem foldl_recSlot_restores {k a : Nat} {l : List Nat} {s t : State} (nv : t.nv = s.nv) (valid : k ≠ 0)
    (sel : (slotSel s k).1 = some a) (used : nvNat s (a + 1) 1 % 8 ≠ 0)
    (turn : k ∈ l ∨ recorded (slotOf t k) = recordAt s a) : recorded (slotOf (l.foldl recSlot t) k) = recordAt s a := by
  induction l generalizing t with
  | nil => exact turn.resolve_left (List.not_mem_nil)
  | cons j l ih =>
    refine ih ((recSlot_recovers t j).nv.trans nv) ?_
    by_cases own : k = j
    · subst own
      refine .inr ?_
      rw [recSlot_restores valid (by rw [slotSel_congr nv]; exact sel) (by rw [nvNat_congr nv]; exact used)]
      unfold recordAt
      simp only [nvNat_congr nv]
    · rcases turn with there | done
      · exact .inl ((List.mem_cons.1 there).resolve_left own)
      · exact .inr (by rw [recSlot_other own]; exact done)

/-- Slot k's record is found by its bytes. -/
theorem mem_slotsListed {s : State} {k a : Nat} (small : k < 2 ^ 15) (sel : (slotSel s k).1 = some a)
    (used : nvNat s (a + 1) 1 % 8 ≠ 0) : k ∈ slotsListed s := by
  have place : a = 0x30000 + k * 8 ∨ a = 0x70000 + k * 8 := by
    unfold slotSel nvSelect at sel
    dsimp only at sel
    split at sel
    · split at sel
      · exact .inr (Option.some.inj sel).symm
      · split at sel
        · exact .inl (Option.some.inj sel).symm
        · split at sel
          · exact .inr (Option.some.inj sel).symm
          · exact .inl (Option.some.inj sel).symm
    · exact .inl (Option.some.inj sel).symm
    · exact .inr (Option.some.inj sel).symm
    · cases sel
  obtain ⟨e, there, addr⟩ := exists_cell_of_nvNat (s := s) (a := a + 1) fun zero => used (by rw [zero])
  refine mem_nvListed.2 ⟨e, there, ?_⟩
  rw [addr]
  rcases place with rfl | rfl
  · omega
  · omega

/-- No context goes on where the store holds no checkpoint record. -/
theorem ckptListed_nil {s : State} (none : ∀ e ∈ s.nv, e.1 < 0x1000 ∨ 0x3000 ≤ e.1) : nvListed s 0x1000 0x2000 0x40 64 = [] :=
  List.eq_nil_iff_forall_not_mem.2 fun k there => by
    obtain ⟨e, mem, inside, -⟩ := mem_nvListed.1 there
    have := none e mem
    omega

theorem recTables_restores {n k a : Nat} {s : State} (noCkpt : ∀ e ∈ s.nv, e.1 < 0x1000 ∨ 0x3000 ≤ e.1) (pos : 0 < k)
    (small : k < 2 ^ 15) (sel : (slotSel s k).1 = some a) (used : nvNat s (a + 1) 1 % 8 ≠ 0) :
    recorded (slotOf (recTables n s).2 k) = recordAt s a := by
  have slots := foldl_recSlot_restores (l := slotsListed s) (t := s) rfl (Nat.ne_of_gt pos) sel used
    (.inl (mem_slotsListed small sel used))
  have tables : recorded (slotOf (slotTables s) k) = recordAt s a := by
    unfold slotTables
    dsimp only
    rw [slotOf_congr (foldl_keeps (fun s => s.keys.slots) _ (fun s k => by
      split
      · exact slots_seedMarks ..
      · rfl) _ _), slotOf_congr (foldl_keeps (fun s => s.keys.slots) _ slots_recFmt _ _)]
    exact slots
  rw [recTables_snd, ckptListed_nil (by rw [(slotTables_recovers s).nv]; exact noCkpt)]
  unfold ctxTables
  rw [slotOf_congr (foldl_keeps (fun s => s.keys.slots) _ (slots_recQueue _) _ _),
    foldl_keeps (fun s => recorded (slotOf s k)) _ (fun s j => recorded_recKcvs s j k)]
  exact tables

end Sys2Proof.Machine

/-! SUPPORT. RECOVERY_DONE (R282, R284, R285). -/

namespace Sys2Proof.Machine

-- The count of the session record

/-- POWER_CYCLES and the last shutdown that the engine holds of its session record (Table 13.5). -/
def sessionCounts (s : State) : Nat × Nat := (s.nvu.powerCycles, s.nvu.prevShutdown)

theorem sessionCounts_nvKick (s : State) : sessionCounts (nvKick s) = sessionCounts s := by
  unfold nvKick
  split
  · rfl
  · split
    · rfl
    · split
      · split
        · split
          exact foldl_keeps sessionCounts jobNote (fun s j => by rw [jobNote_frame]; rfl) ..
        · rfl
      · split
        · rfl
        · rfl

theorem sessionCounts_nvPush (j : NvJob) (s : State) : sessionCounts (nvPush j s) = sessionCounts s := by
  unfold nvPush
  split
  · exact sessionCounts_nvKick _
  · rfl

theorem sessionCounts_rkFill (n : Nat) (s : State) : sessionCounts (rkFill n s) = sessionCounts s := by
  induction n generalizing s with
  | zero => rfl
  | succ n ih =>
    unfold rkFill
    split
    · rfl
    · split
      · rfl
      · exact (ih _).trans (sessionCounts_nvPush ..)

theorem sessionCounts_rkSchedule (s : State) : sessionCounts (rkSchedule s) = sessionCounts s := by
  unfold rkSchedule
  split
  · exact sessionCounts_rkFill ..
  · rfl

-- Recovery as a whole

theorem slots_recImage (s : State) : (recImage s).2.keys.slots = s.keys.slots := by
  have noted := foldl_keeps (fun s => s.keys.slots)
    (fun s a => if imageWindup s a = true ∧ (imageVals s a).isNone then nvNote a 3 s else s)
    (fun s a => by
      split
      · exact slots_nvNote ..
      · rfl) [imageA, imageB] s
  unfold recImage
  dsimp only
  generalize List.foldl _ s [imageA, imageB] = u at noted ⊢
  have sel : (recSelect imageA imageB (imageValid u) u).2.keys.slots = u.keys.slots := slots_selNote ..
  rcases hsel : recSelect _ _ _ _ with ⟨_ | a, v⟩
  · rw [hsel] at sel
    exact (slots_nvNote ..).trans (sel.trans noted)
  · rw [hsel] at sel
    exact sel.trans noted

theorem recoveryNote_recovers (s : State) : Recovers s (recoveryNote s) := by
  have begun : Recovers s (regPut 0x6300 6 0 0 s) := rfl
  unfold recoveryNote
  split
  · exact begun.trans (.nvNote ..)
  · exact begun

/-- The counts of a start are held and its session record queued. -/
def sessionHeld (n prev : Nat) (s : State) : State :=
  nvPush { recs := [.session 1], act := .none }
    { s with nvu := { s.nvu with powerCycles := (n + 1) % 2 ^ 32, prevShutdown := prev } }

theorem sessionHeld_recovers (n prev : Nat) (s : State) : Recovers s (sessionHeld n prev s) :=
  Recovers.trans (t := { s with nvu := { s.nvu with powerCycles := (n + 1) % 2 ^ 32, prevShutdown := prev } }) rfl (.nvPush ..)

theorem sessionCounts_sessionHeld (n prev : Nat) (s : State) : sessionCounts (sessionHeld n prev s) = ((n + 1) % 2 ^ 32, prev) :=
  sessionCounts_nvPush ..

theorem slots_sessionHeld (n prev : Nat) (s : State) : (sessionHeld n prev s).keys.slots = s.keys.slots := by
  unfold sessionHeld
  rw [nvPush_frame]

theorem recoveryRegs_recovers (gen n prev : Nat) (s : State) : Recovers s (recoveryRegs gen n prev s) := rfl

theorem recoveryEnd_eq (img : Option Nat) (n prev resumed : Nat) (s : State) : ∃ gen, recoveryEnd img n prev resumed s =
    if prev = 1 then raise .uncleanStart (srcGlobal 4) ((n + 1) % 2 ^ 32) resumed 0 (sessionHeld n prev (recoveryRegs gen n prev s))
    else sessionHeld n prev (recoveryRegs gen n prev s) := ⟨_, rfl⟩

/-- Recovery's last duties leave the slots, and hold the counts of the start. -/
theorem recoveryEnd_holds (img : Option Nat) (n prev resumed : Nat) (s : State) :
    Recovers s (recoveryEnd img n prev resumed s) ∧
      sessionCounts (recoveryEnd img n prev resumed s) = ((n + 1) % 2 ^ 32, prev) ∧
      (recoveryEnd img n prev resumed s).keys.slots = s.keys.slots := by
  obtain ⟨gen, eq⟩ := recoveryEnd_eq img n prev resumed s
  rw [eq]
  have held := (recoveryRegs_recovers gen n prev s).trans (sessionHeld_recovers n prev _)
  have counts := sessionCounts_sessionHeld n prev (recoveryRegs gen n prev s)
  have slots : (sessionHeld n prev (recoveryRegs gen n prev s)).keys.slots = s.keys.slots := slots_sessionHeld ..
  generalize sessionHeld n prev (recoveryRegs gen n prev s) = u at held counts slots
  split
  · refine ⟨held.trans (.raise ..), ?_, ?_⟩
    · rw [raise_frame]
      exact counts
    · rw [raise_frame]
      exact slots
  · exact ⟨held, counts, slots⟩

/-- POWER_CYCLES and the shutdown byte that recovery reads from the store. -/
def sessionWas (s : State) : Nat × Nat := sessionRead (sessionSel s).1 s

theorem recoveryWork_holds (s : State) : Recovers s (recoveryWork s) ∧
    sessionCounts (recoveryWork s) = (((sessionWas s).1 + 1) % 2 ^ 32, (sessionWas s).2) ∧
    (recoveryWork s).keys.slots = (recTables (sessionWas s).1 (recoveryNote s)).2.keys.slots := by
  have noted := recoveryNote_recovers s
  have was : sessionRead (sessionSel s).1 (recoveryNote s) = sessionWas s := by
    unfold sessionWas sessionRead
    split
    · rw [nvNat_congr noted.nv, nvNat_congr noted.nv]
    · rfl
  unfold recoveryWork
  dsimp only
  rw [was]
  have tables := noted.trans (recTables_recovers (sessionWas s).1 (recoveryNote s))
  generalize recTables (sessionWas s).1 (recoveryNote s) = r at tables ⊢
  obtain ⟨ends, counts, slots⟩ := recoveryEnd_holds (recImage r.2).1 (sessionWas s).1 (sessionWas s).2 r.1 (recImage r.2).2
  exact ⟨(tables.trans (recImage_recovers r.2)).trans ends, counts, slots.trans (slots_recImage r.2)⟩

/-- Recovery counts the power cycle of the session record, restores the slots of their records without material, and makes
the image due (R282, R284, R285). -/
theorem recoveryDone_restores (s : State) (stage : s.pwr.stage = .recovery) (phase : s.pwr.phase = .service) :
    ∃ t, exec .recoveryDone s = .next t ∧ t.pwr.stage = .served ∧ t.pwr.imageDue = some (frameNo s) ∧ t.nv = s.nv ∧
      t.clk = s.clk ∧ t.pins = s.pins ∧ t.keys.kek = s.keys.kek ∧ t.cfg = s.cfg ∧ t.staged = s.staged ∧
      (∀ a, (sessionSel s).1 = some a → t.nvu.powerCycles = (nvNat s (a + 4) 4 + 1) % 2 ^ 32 ∧
        t.nvu.prevShutdown = nvNat s (a + 8) 1) ∧
      ((sessionSel s).1 = none → t.nvu.powerCycles = 1 ∧ t.nvu.prevShutdown = 0) ∧
      ((∀ e ∈ s.nv, e.1 < 0x1000 ∨ 0x3000 ≤ e.1) → ∀ k a, 0 < k → k < 2 ^ 15 →
        (nvSelect s (0x30000 + k * 8) (0x70000 + k * 8) (slotRecValid s)).1 = some a → nvNat s (a + 1) 1 % 8 ≠ 0 →
        (slotOf t k).st = slotStOf (nvNat s (a + 1) 1 % 8) ∧ (slotOf t k).gen = BitVec.ofNat 32 (nvNat s (a + 2) 4) ∧
        (slotOf t k).matA = none ∧ (slotOf t k).matB = none ∧ (slotOf t k).restored = true) := by
  have done : exec .recoveryDone s = .next (rkSchedule (doRecoveryDone s)) := rfl
  obtain ⟨nv, clk⟩ := exec_nv_clk done rfl
  refine ⟨_, done, ?_⟩
  obtain ⟨work, counts, slots⟩ := recoveryWork_holds s
  have noted := recoveryNote_recovers s
  have after := rkSchedule_frame (serve (recoveryWork s))
  have counts' : sessionCounts (rkSchedule (serve (recoveryWork s))) = (((sessionWas s).1 + 1) % 2 ^ 32, (sessionWas s).2) :=
    (sessionCounts_rkSchedule ..).trans counts
  have slots' : ∀ k, slotOf (rkSchedule (serve (recoveryWork s))) k = slotOf (recTables (sessionWas s).1 (recoveryNote s)).2 k :=
    fun k => (slotOf_rkSchedule ..).trans (slotOf_congr slots k)
  rw [doRecoveryDone_eq stage phase] at nv clk ⊢
  have frame : frameNo (recoveryWork s) = frameNo s := by rw [work]; rfl
  generalize recoveryWork s = w at *
  generalize hu : rkSchedule (serve w) = u at *
  have pwr : u.pwr = (serve w).pwr := by rw [after]
  refine ⟨by rw [pwr]; rfl, by rw [pwr, ← frame]; rfl, nv, clk, ?_, ?_, ?_, ?_, fun a sel => ?_, fun none => ?_,
    fun noCkpt k a pos small sel used => ?_⟩
  · have : u.pins = w.pins := by rw [after]; rfl
    rw [this, work]
  · have : u.keys = w.keys := by rw [after]; rfl
    rw [this, work]
  · have : u.cfg = w.cfg := by rw [after]; rfl
    rw [this, work]
  · have : u.staged = w.staged := by rw [after]; rfl
    rw [this, work]
  · unfold sessionWas at counts'
    rw [sel] at counts'
    exact ⟨congrArg Prod.fst counts', congrArg Prod.snd counts'⟩
  · unfold sessionWas at counts'
    rw [none] at counts'
    exact ⟨congrArg Prod.fst counts', congrArg Prod.snd counts'⟩
  · have restored := recTables_restores (n := (sessionWas s).1) (k := k) (a := a) (s := recoveryNote s)
      (by rw [noted.nv]; exact noCkpt) pos small (by rw [slotSel_congr noted.nv]; exact sel) (by rw [nvNat_congr noted.nv]; exact used)
    rw [← slots' k] at restored
    unfold recordAt at restored
    rw [nvNat_congr noted.nv, nvNat_congr noted.nv] at restored
    simp only [recorded, Prod.mk.injEq] at restored
    exact restored

end Sys2Proof.Machine

/-! CLAIMS. Start-up: O12. -/

namespace Sys2Proof.Machine

-- The values of the image

theorem okey_of_okeys (k : Nat) : okey (okeyIdx k) (okeySub k) (okeyRow k) = k := by
  unfold okey okeyIdx okeySub okeyRow
  omega

/-- One value of an image or of a set comes in force. -/
def cfgTake (s : State) (e : Nat × Nat) : State := cfgPut (okeyIdx e.1) (okeySub e.1) (okeyRow e.1) e.2 s

theorem cfgVal_foldl_cfgTake_other {l : List (Nat × Nat)} {idx sub row : Nat} (other : ∀ e ∈ l, e.1 ≠ okey idx sub row) (s : State) :
    cfgVal (l.foldl cfgTake s) idx sub row = cfgVal s idx sub row := by
  induction l generalizing s with
  | nil => rfl
  | cons e l ih =>
    rw [List.foldl_cons, ih fun x there => other x (.tail e there)]
    exact cfgVal_cfgPut_ne _ _ _ _ _ _ _ _ fun same => other e (.head l) ((okey_of_okeys e.1).symm.trans same.symm)

theorem cfgVal_foldl_cfgTake {l : List (Nat × Nat)} (distinct : (l.map (fun e => e.1)).Nodup) (s : State) :
    ∀ e ∈ l, cfgVal (l.foldl cfgTake s) (okeyIdx e.1) (okeySub e.1) (okeyRow e.1) = e.2 := by
  induction l generalizing s with
  | nil => exact fun e there => nomatch there
  | cons c l ih =>
    obtain ⟨new, distinct⟩ := List.nodup_cons.1 distinct
    intro e there
    rw [List.foldl_cons]
    rcases List.mem_cons.1 there with rfl | there
    · rw [cfgVal_foldl_cfgTake_other fun x mem same => new (List.mem_map.2 ⟨x, mem, same.trans (okey_of_okeys e.1)⟩)]
      exact cfgVal_cfgPut_same ..
    · exact ih distinct _ e there

theorem foldl_cfgTake_frame (l : List (Nat × Nat)) (s : State) : l.foldl cfgTake s = { s with cfg := (l.foldl cfgTake s).cfg } := by
  induction l generalizing s with
  | nil => rfl
  | cons e l ih =>
    rw [List.foldl_cons, ih]
    rfl

-- The start-up apply

theorem imageNow_congr {s t : State} (nv : t.nv = s.nv) : imageNow t = imageNow s := by
  have vals : imageVals t = imageVals s := funext fun a => by
    unfold imageVals nvBytes nvByteAt
    simp only [nvNat_congr nv]
    rw [nv]
  have valid : imageValid t = imageValid s := funext fun a => by
    unfold imageValid imageWindup
    rw [vals, windupOk_congr nv, nvNat_congr nv]
  unfold imageNow
  rw [nvSelect_congr nv, valid, vals]
  simp only [nvNat_congr nv]

/-- The image due is met: no digest stands until the first refresh (R330, R340). -/
def imageMet (s : State) : State := digestBlank { s with pwr := { s.pwr with imageDue := none } }

theorem doStartupImageApply_met {f : Nat} {s : State} (due : s.pwr.imageDue = some f) (frame : frameNo s = f + 1)
    (cycle : s.clk.cycle = 0) : doStartupImageApply s = (imageNow s).elim (imageMet s) (fun v => imageApply v.1 v.2 (imageMet s)) := by
  have same : imageNow (imageMet s) = imageNow s := imageNow_congr rfl
  unfold imageMet at same ⊢
  unfold doStartupImageApply
  rw [due]
  dsimp only
  rw [if_pos ⟨frame, cycle⟩, same]
  rcases imageNow s with _ | ⟨gen, l⟩
  · rfl
  · rfl

theorem doStartupImageApply_idle {s : State} (idle : s.pwr.imageDue = none ∨ s.clk.cycle ≠ 0 ∨
    ∀ f, s.pwr.imageDue = some f → frameNo s ≠ f + 1) : doStartupImageApply s = s := by
  unfold doStartupImageApply
  split
  · rfl
  · next f due =>
    refine if_neg fun met => ?_
    obtain ⟨frame, cycle⟩ := met
    rcases idle with none | other | never
    · rw [due] at none
      cases none
    · exact other cycle
    · exact never f due frame

theorem windowNote_frame (old : Nat) (s : State) : windowNote old s = { s with rep := (windowNote old s).rep } := by
  unfold windowNote
  split
  · rfl
  · rfl

/-- The machine with an image's values and generation in force, before the apply is recorded (R330). -/
def imageTaken (gen : Nat) (l : List (Nat × Nat)) (s : State) : State :=
  let u := regPut 0x2200 1 0 gen (windowNote (cfgVal s 0x2400 2 0) (l.foldl cfgTake s))
  { u with commit := { u.commit with copyBack := copyBackOf l, lastApply := frameNo u } }

theorem imageTaken_frame (gen : Nat) (l : List (Nat × Nat)) (s : State) : imageTaken gen l s = { s with
    cfg := (l.foldl cfgTake s).cfg, rep := (imageTaken gen l s).rep, regs := (regPut 0x2200 1 0 gen s).regs
    commit := { s.commit with copyBack := copyBackOf l, lastApply := frameNo s } } := by
  unfold imageTaken
  rw [windowNote_frame, foldl_cfgTake_frame]
  rfl

theorem applyNote_frame (s : State) : applyNote s = { s with
    pool := { s.pool with lastApply := some (frameNo s) }, regs := (applyNote s).regs, ev := (applyNote s).ev } := by
  unfold applyNote
  rw [raise_frame]

theorem regVal_applyNote (s : State) : regVal (applyNote s) 0x2200 1 0 = regVal s 0x2200 1 0 :=
  regVal_raiseSev_low (by decide) (by decide)

theorem imageApply_eq (gen : Nat) (l : List (Nat × Nat)) (s : State) :
    imageApply gen l s = applyNote (imageTaken gen l s) ∨ imageApply gen l s = modeSend (applyNote (imageTaken gen l s)) := by
  unfold imageApply
  dsimp only
  split
  · exact .inr rfl
  · exact .inl rfl

/-- An image's values and generation are in force, as a commit without owner (R330). -/
theorem imageApply_inForce (gen : Nat) (l : List (Nat × Nat)) (s : State) :
    (imageApply gen l s).cfg = (l.foldl cfgTake s).cfg ∧ regVal (imageApply gen l s) 0x2200 1 0 = gen ∧
      (imageApply gen l s).commit = { s.commit with copyBack := copyBackOf l, lastApply := frameNo s } ∧
      (imageApply gen l s).pwr = s.pwr ∧ (imageApply gen l s).staged = s.staged ∧ (imageApply gen l s).keys = s.keys := by
  have noted : (applyNote (imageTaken gen l s)).cfg = (l.foldl cfgTake s).cfg ∧ regVal (applyNote (imageTaken gen l s)) 0x2200 1 0 = gen ∧
      (applyNote (imageTaken gen l s)).commit = { s.commit with copyBack := copyBackOf l, lastApply := frameNo s } ∧
      (applyNote (imageTaken gen l s)).pwr = s.pwr ∧ (applyNote (imageTaken gen l s)).staged = s.staged ∧
      (applyNote (imageTaken gen l s)).keys = s.keys := by
    have generation : regVal (imageTaken gen l s) 0x2200 1 0 = gen := by
      rw [imageTaken_frame]
      exact regVal_regPut_same 0x2200 1 0 gen s
    have kept := imageTaken_frame gen l s
    refine ⟨?_, (regVal_applyNote _).trans generation, ?_, ?_, ?_, ?_⟩
    all_goals
      rw [applyNote_frame]
      dsimp only
      rw [kept]
  rcases imageApply_eq gen l s with eq | eq
  · rw [eq]
    exact noted
  · rw [eq, modeSend_frame]
    exact noted

/-- The image is put in force in cycle 0 of the next frame (R330). -/
theorem startupImageApply_applies (f : Nat) (s : State) (due : s.pwr.imageDue = some f) (frame : frameNo s = f + 1)
    (cycle : s.clk.cycle = 0) :
    ∃ t, exec .startupImageApply s = .next t ∧ t.pwr.imageDue = none ∧ t.staged = s.staged ∧ t.keys = s.keys ∧
      t.nv = s.nv ∧ t.commit.digest = 0 ∧ t.commit.published = false ∧
      (imageNow s = none → t.cfg = s.cfg ∧ t.regs = s.regs) ∧
      (∀ gen l, imageNow s = some (gen, l) → regVal t 0x2200 1 0 = gen ∧ t.commit.lastApply = frameNo s ∧
        t.commit.copyBack = copyBackOf l ∧
        ((l.map (fun e => e.1)).Nodup → ∀ e ∈ l, cfgVal t (okeyIdx e.1) (okeySub e.1) (okeyRow e.1) = e.2) ∧
        ∀ idx sub row, (∀ e ∈ l, e.1 ≠ okey idx sub row) → cfgVal t idx sub row = cfgVal s idx sub row) := by
  have done : exec .startupImageApply s = .next (doStartupImageApply s) := rfl
  obtain ⟨nv, -⟩ := exec_nv_clk done rfl
  refine ⟨_, done, ?_⟩
  rw [doStartupImageApply_met due frame cycle] at nv ⊢
  generalize imageNow s = now at nv ⊢
  rcases now with _ | ⟨gen, l⟩
  · exact ⟨rfl, rfl, rfl, nv, rfl, rfl, fun _ => ⟨rfl, rfl⟩, fun gen l some => nomatch some⟩
  · simp only [Option.elim_some] at nv ⊢
    obtain ⟨cfg, generation, commit, pwr, staged, keys⟩ := imageApply_inForce gen l (imageMet s)
    generalize imageApply gen l (imageMet s) = t at nv cfg generation commit pwr staged keys ⊢
    have vals : ∀ idx sub row, cfgVal t idx sub row = cfgVal (l.foldl cfgTake (imageMet s)) idx sub row := fun idx sub row => by
      unfold cfgVal
      rw [cfg]
    refine ⟨by rw [pwr]; rfl, staged, keys, nv, by rw [commit]; rfl, by rw [commit]; rfl, fun none => (nomatch none),
      fun gen' l' some => ?_⟩
    obtain ⟨rfl, rfl⟩ := Prod.mk.inj (Option.some.inj some)
    refine ⟨generation, by rw [commit]; rfl, by rw [commit], fun distinct e there => ?_, fun idx sub row other => ?_⟩
    · rw [vals]
      exact cfgVal_foldl_cfgTake distinct _ e there
    · rw [vals, cfgVal_foldl_cfgTake_other other]
      rfl

/-- Settles O12, stage by stage: the fuse load and BIST are repairs of which none is taken back, recovery restores each slot
from its own record, and the image's values come in force. -/
theorem startUpPassesItsStages : Obligations.StartUpPassesItsStages :=
  ⟨fuseLoadDone_repairs, bistDone_handles, recoveryDone_restores, startupImageApply_applies,
    fun _ idle => congrArg Host.Outcome.next (doStartupImageApply_idle idle)⟩

end Sys2Proof.Machine
